-- ==== Sys2Proof/Word.lean ====
section
/-! DEFINITION. The word and byte types of the PX-49 model. -/

namespace Sys2Proof

/-- A register or a 64-bit field of a command (R6). -/
abbrev Word := BitVec 64

/-- One byte of any memory of the device. -/
abbrev Byte := BitVec 8

/-- A 48-bit physical address (R42). -/
abbrev Addr := BitVec 48

/-- A stream handle: generation in bits 31 to 20, slot in bits 19 to 0 (R269). -/
abbrev Handle := BitVec 32

end Sys2Proof
end

