-- ==== Sys2Proof/Syntax.lean ====
section
/-! DEFINITION. The commands of the PX-49: one constructor of Instr for each row of spec/opcode_table.json, and the
types of their operands. The table gives no row any bits, so the operands are those the rules give each step. -/

namespace Sys2Proof

/-- The privilege modes of a hart (R331). HD_MPRIV is a CSR, not part of the mode. -/
inductive HartMode where
  | m | hs | s | u | vs | vu
  deriving DecidableEq, Repr

/-- Who issues an access (R16, R18, R43, R55). -/
inductive Requester where
  /-- a host hart: host die, core and mode -/
  | hart (die core : Nat) (mode : HartMode)
  /-- a PCIe function below the root port of a host die -/
  | pcie (die : Nat)
  /-- DMA issued by a host die -/
  | hostDma (die : Nat)
  /-- the rook of a site -/
  | rook (site : Nat)
  /-- a move of a site, under the loaded book (CMP = 1) -/
  | move (site : Nat)
  /-- the Referee and Tolerabor -/
  | referee
  /-- the board controller's path, carried out by Tolerabor (R18) -/
  | bmc
  deriving DecidableEq, Repr

/-- The path a mailbox command came by: a ring, the board controller (R266), or a MGMT message of a HEADLESS
partition (R406). -/
inductive CmdPath where
  | ring (part ring : Nat)
  | bmc
  /-- by the quad, from a module -/
  | mgmt (part quad : Nat) (module : BitVec 13) (xid : BitVec 16)
  deriving DecidableEq, Repr

/-- The common part of a mailbox command (Table 9.8). reserved says that a reserved bit of the command is not zero. -/
structure Cmd where
  path : CmdPath
  tag : BitVec 32
  notify : Bool
  fence : Bool
  target : BitVec 8
  reserved : Bool
  deriving DecidableEq, Repr

/-- What self-test, calibration and the interconnect test find on the dies and links they reach (R29, R77, R439):
the outcome of the physical test, given with the command that runs it. -/
structure TestFindings where
  /-- failing physical cells: site, row, physical column -/
  cells : List (Nat × Nat × Nat)
  /-- compute dies whose crossings or bond fail -/
  dies : List Nat
  /-- host dies whose crossings or bond fail -/
  hosts : List Nat
  /-- stacks whose bond fails -/
  stackBonds : List Nat
  /-- engines whose bond fails -/
  engineBonds : List Nat
  /-- failed panel links: square, direction 0 N, 1 E, 2 S, 3 W, and network (true: C-net) -/
  links : List (Nat × Nat × Bool)
  /-- a field-to-field crossing fails (R77) -/
  fieldCrossing : Bool
  /-- stacks and engines whose crossings fail (R77) -/
  stackCrossings : List Nat := []
  engineCrossings : List Nat := []
  /-- the VSTEP bytes that self-test measures, by region (R458) -/
  vstep : List (Nat × BitVec 64) := []
  /-- held regions whose rails come into their windows when their enables are raised again (Table 15.5, R515) -/
  supplies : List Nat := []
  /-- spare wires in use, by square (R438) -/
  spares : List (Nat × Nat)
  deriving DecidableEq, Repr

/-- The host die that a reset names, and what the tests of its crossings and its bond find before it is released (R343). -/
structure HostDieTest where
  die : BitVec 8
  found : TestFindings
  deriving DecidableEq, Repr

/-- The common fields of a move as the sequencer issues it (Table 7.6), with its place in the table and the die cycle
at which it issues. -/
structure MoveHdr where
  site : Nat
  index : BitVec 18
  start : BitVec 24
  cycle : BitVec 64
  cdone : BitVec 8
  mask : BitVec 10
  deriving DecidableEq, Repr

/-- Die cycles that a move waited, by the counter each wait belongs to (R108, R117, R149, R167, R168). -/
structure Waits where
  buffer : BitVec 32
  bank : BitVec 32
  queue : BitVec 32
  held : BitVec 32
  slice : BitVec 32
  deriving DecidableEq, Repr

/-- The fields of a VEC move beside FUNC (Table 7.7). -/
structure VecFields where
  rnd : BitVec 3
  firstSlice : BitVec 4
  sliceCount : BitVec 4
  oplist : BitVec 12
  param : BitVec 32
  waits : Waits
  deriving DecidableEq, Repr

/-- The kinds of a B-net packet (Table 8.4). -/
inductive BnetKind where
  | rd | rdata | wr | wack | send | sack | err | prd | pdata | pwr | pwack
  deriving DecidableEq, Repr

/-- A B-net packet: the header of Table 8.4 and its payload bytes. -/
structure BnetPacket where
  byteEnable : BitVec 64
  dest : BitVec 8
  src : BitVec 8
  kind : BnetKind
  compiled : Bool
  cls : BitVec 2
  xid : BitVec 16
  seq : BitVec 16
  lines : BitVec 16
  epoch : BitVec 16
  turn : BitVec 16
  rctr : BitVec 8
  part : BitVec 3
  circ : BitVec 8
  addr : Addr
  payload : List Byte
  deriving DecidableEq, Repr

/-- The types of a C-net packet (Table 8.7). -/
inductive CnetType where
  | rd | wr | rsp | doorbell | fault | event | debug | maint | msi
  deriving DecidableEq, Repr

/-- A C-net packet: the header of Table 8.7 and its payload bytes. -/
structure CnetPacket where
  dest : BitVec 8
  src : BitVec 8
  type : CnetType
  part : BitVec 3
  tag : BitVec 16
  status : BitVec 8
  size : BitVec 8
  addr : Addr
  payload : List Byte
  deriving DecidableEq, Repr

/-- The flit types of Table 13.4. -/
inductive FlitType where
  | data | idle | retryReq | knock | csync | hello
  deriving DecidableEq, Repr

/-- A flit: the link header of Table 13.4, its 240 payload bytes and its CRC-32. -/
structure Flit where
  type : FlitType
  vl : BitVec 2
  first : BitVec 8
  seq : BitVec 16
  ack : BitVec 16
  cvl : BitVec 2
  credits : BitVec 8
  srcId : BitVec 13
  crc : BitVec 32
  payload : List Byte
  deriving DecidableEq, Repr

/-- A Padrid Link message: the header of Table 13.6a and its payload bytes. -/
structure LinkMsg where
  op : BitVec 8
  status : BitVec 8
  dst : BitVec 13
  src : BitVec 13
  srcPart : BitVec 3
  dstPart : BitVec 3
  xid : BitVec 16
  seq : BitVec 16
  lines : BitVec 16
  epoch : BitVec 16
  turn : BitVec 16
  rctr : BitVec 8
  addr : Addr
  payload : List Byte
  deriving DecidableEq, Repr

/-- The severities of Table 18.1. -/
inductive Severity where
  | debug | info | notice | warning | error | critical | safety
  deriving DecidableEq, Repr

/-- A report of an event, before the Referee numbers it (R470): code, severity, partition or 0xF, reporting square, the
game-clock tick of the event, and the payload after byte 7. -/
structure Report where
  code : BitVec 16
  sev : Severity
  part : BitVec 4
  source : BitVec 8
  tick : Word
  payload : List Byte
  deriving DecidableEq, Repr

/-- The AMO operations a hart may perform on main memory (RVA23). -/
inductive AmoOp where
  | swap | add | xor | and | or | min | max | minu | maxu
  deriving DecidableEq, Repr

/-- What a hart does: at an address (R330) a load, a fetch, a store of bytes, an AMO on 4 or 8 bytes, or LR and SC; or on a custom CSR (R339). -/
inductive HartOp where
  | load (size : Nat)
  | fetch (size : Nat)
  | store (bytes : List Byte)
  | amo (op : AmoOp) (size : Nat) (operand : Word)
  | loadReserved (size : Nat)
  | storeConditional (size : Nat) (value : Word)
  /-- a CSR instruction on one of the custom CSRs of Table 12.5 -/
  | csrRead (number : BitVec 12)
  | csrWrite (number : BitVec 12) (value : Word)
  deriving DecidableEq, Repr

/-- What an inbound PCIe request asks for (R341). -/
inductive PcieOp where
  | read (size : Nat)
  | write (bytes : List Byte)
  deriving DecidableEq, Repr

/-- Operations of the rook's Debug Module reached over the Referee (R490). -/
inductive DmAccess where
  | read
  | write (value : BitVec 32)
  deriving DecidableEq, Repr

/-- TAP instructions the spec names (R501, R502). -/
inductive TapInstr where
  | bypass | idcode | dbUnlock | extest | extestPulse | extestTrain
  deriving DecidableEq, Repr

/-- Why a rook halts (R492). -/
inductive HaltCause where
  | haltreq | trigger | ebreak
  deriving DecidableEq, Repr

/-- Why a quad leaves UP (R372): loss of signal, loss of its laser input, sixteen failed replays, three missed knocks. -/
inductive DownCause where
  | signal | laser | replays | knocks
  deriving DecidableEq, Repr

/-- The stored fields of an image header that the boot ROM judges (R432, R433). The three verdicts are those of the
digest and signature checks on the image's bytes. -/
structure ImageInfo where
  version : BitVec 32
  svn : BitVec 8
  keyGood : Bool
  signatureGood : Bool
  digestGood : Bool
  deriving DecidableEq, Repr

/-- What the supervisors, sensors and trainings report during a cold start (Table 16.1). -/
structure ColdStartInputs where
  /-- step 1: Referee SRAM and event ring pass their test -/
  sramGood : Bool
  /-- the boot flash identifies itself as 1.8 V (R511) -/
  flashGood : Bool := true
  /-- the cold start began with VA coming into its window (R471) -/
  vaRise : Bool
  straps : BitVec 8
  /-- hold-up bank: V0 and V1 in mV (R435) -/
  v0 : BitVec 16
  v1 : BitVec 16
  /-- VB, VA and VO come into window (R437) -/
  mainRailsGood : Bool
  /-- regions whose VC or EN_A rails do not come into window -/
  deadRegions : List Nat
  /-- the first readings of the temperature sensors at step 4 (R466): square, hottest panel sensor, hottest sensor of the part above -/
  temps : List (Nat × BitVec 16 × BitVec 16) := []
  /-- CLK_REF in its window at step 4 (R429) -/
  clkRefGood : Bool
  findings : TestFindings
  /-- DRAM channels that fail three attempts: stack and position (R440) -/
  dramFailures : List (Nat × Nat)
  /-- quads that find a partner (R370): the HELLO flit that ends each training, and the tick of its arrival; the others that train fail -/
  hellos : List (Nat × Flit × BitVec 64)
  /-- unflushed records the power-fail flush lost (R476) -/
  recordsLost : BitVec 32
  /-- VSTEP bytes measured by self-test, by region (R458) -/
  vstep : List (Nat × BitVec 64)
  deriving DecidableEq, Repr

/-- The commands of the block: one constructor for each row of spec/opcode_table.json. -/
inductive Instr where
  -- mailbox commands (Table 9.11)
  | deviceInfo (c : Cmd)
  | deviceSiteEnable (c : Cmd) (site : BitVec 8)
  | deviceSiteReserve (c : Cmd) (site : BitVec 8)
  | deviceFwStage (c : Cmd) (addr : Word) (len : BitVec 32)
  | deviceGrantFleet (c : Cmd) (part ring : BitVec 8)
  | partitionForm (c : Cmd) (regions : BitVec 16) (number headless : BitVec 8) (found : TestFindings)
  | partitionDissolve (c : Cmd)
  | partitionComputeReset (c : Cmd) (found : TestFindings)
  | partitionFullReset (c : Cmd) (found : TestFindings)
  | hostDieReset (c : Cmd) (die : HostDieTest)
  | partitionCacheLayout (c : Cmd) (pin tail hsc : BitVec 8)
  | partitionPublish (c : Cmd) (base : Word) (lines : BitVec 32) (direction : BitVec 8)
  | partitionPolicySet (c : Cmd) (id : BitVec 16) (value : Word)
  | partitionPolicyGet (c : Cmd) (id : BitVec 16)
  | partitionGrant (c : Cmd) (page grants : BitVec 8) (ringMask tenant : BitVec 16)
  | bookLoad (c : Cmd) (addr len : Word)
  | bookUnload (c : Cmd) (flags : BitVec 8)
  | bookMap (c : Cmd) (map : BitVec 8)
  | bookPreempt (c : Cmd)
  | streamOpen (c : Cmd) (tenant : BitVec 16) (prio : BitVec 8)
  | streamAppend (c : Cmd) (handle : Handle) (positions : BitVec 32) (prompt : Word)
  | streamAdvance (c : Cmd) (handle : Handle) (positions : BitVec 16)
  | streamClose (c : Cmd) (handle : Handle)
  | streamPark (c : Cmd) (handle : Handle)
  | streamUnpark (c : Cmd) (handle : Handle)
  | streamMigrate (c : Cmd) (handle : Handle) (module : BitVec 16) (part : BitVec 8)
  | streamFork (c : Cmd) (handle : Handle) (positions : BitVec 32)
  | stateInvalidate (c : Cmd) (handle : Handle) (first pages : BitVec 32)
  | stateTier (c : Cmd) (handle : Handle) (first pages : BitVec 32) (tier : BitVec 8)
  | stateQuery (c : Cmd) (handle : Handle) (page : BitVec 32)
  | linkStatus (c : Cmd) (quad : BitVec 8)
  | linkRetrain (c : Cmd) (quad : BitVec 8)
  | linkRoleSetRole (c : Cmd) (quad role : BitVec 8) (module : BitVec 16)
  | linkRoleSetModuleId (c : Cmd) (role : BitVec 8) (module : BitVec 16)
  | logFreeze (c : Cmd)
  | logThaw (c : Cmd)
  | logRead (c : Cmd) (dest : Word) (first max : BitVec 32)
  | logClearKeep (c : Cmd)
  | logRate (c : Cmd) (code rate : BitVec 16)
  | debugChallenge (c : Cmd)
  | debugRespond (c : Cmd) (response : BitVec 384)
  | debugHalt (c : Cmd) (site : BitVec 8)
  | debugResume (c : Cmd) (site : BitVec 8)
  | debugTrace (c : Cmd) (enable : BitVec 8)
  | powerPolicySet (c : Cmd) (id : BitVec 16) (value : Word)
  | powerPolicyGet (c : Cmd) (id : BitVec 16)
  | powerStatus (c : Cmd)
  -- moves of a compute die (Table 7.3) and sequencer events
  | nop (m : MoveHdr)
  | check (m : MoveHdr) (ctr : BitVec 8) (count grace : BitVec 24)
  | lateData (site : Nat) (cycle : Word)
  | yield (m : MoveHdr)
  | trace (m : MoveHdr) (label : BitVec 16)
  | pass (m : MoveHdr) (first count : BitVec 8) (adesc bdesc : BitVec 12) (k : BitVec 20) (buf acc shareA shareB orient : Bool)
      (w : Waits)
  | drain (m : MoveHdr) (first count : BitVec 8) (buf : Bool) (w : Waits)
  | drainHeld (m : MoveHdr) (first count : BitVec 8) (buf : Bool) (w : Waits)
  | gang (m : MoveHdr) (mode : BitVec 3) (w : Waits)
  | add (m : MoveHdr) (v : VecFields)
  | sub (m : MoveHdr) (v : VecFields)
  | mul (m : MoveHdr) (v : VecFields)
  | fma (m : MoveHdr) (v : VecFields)
  | min (m : MoveHdr) (v : VecFields)
  | max (m : MoveHdr) (v : VecFields)
  | select (m : MoveHdr) (v : VecFields)
  | div (m : MoveHdr) (v : VecFields)
  | sqrt (m : MoveHdr) (v : VecFields)
  | recip (m : MoveHdr) (v : VecFields)
  | exp (m : MoveHdr) (v : VecFields)
  | log (m : MoveHdr) (v : VecFields)
  | rsqrt (m : MoveHdr) (v : VecFields)
  | tanh (m : MoveHdr) (v : VecFields)
  | sigmoid (m : MoveHdr) (v : VecFields)
  | iadd (m : MoveHdr) (v : VecFields)
  | imul (m : MoveHdr) (v : VecFields)
  | cvt (m : MoveHdr) (v : VecFields)
  | rsum (m : MoveHdr) (v : VecFields)
  | rmax (m : MoveHdr) (v : VecFields)
  | rmin (m : MoveHdr) (v : VecFields)
  | csum (m : MoveHdr) (v : VecFields)
  | cmax (m : MoveHdr) (v : VecFields)
  | cmin (m : MoveHdr) (v : VecFields)
  | softmax (m : MoveHdr) (v : VecFields)
  | lnorm (m : MoveHdr) (v : VecFields)
  | rmsnorm (m : MoveHdr) (v : VecFields)
  | topk (m : MoveHdr) (v : VecFields)
  | rand (m : MoveHdr) (v : VecFields)
  | sample (m : MoveHdr) (v : VecFields)
  | sb3enc (m : MoveHdr) (v : VecFields)
  | load (m : MoveHdr) (ddesc : BitVec 12) (chan : BitVec 3)
  | store (m : MoveHdr) (ddesc : BitVec 12) (chan : BitVec 3)
  | send (m : MoveHdr) (ddesc : BitVec 12) (chan : BitVec 3)
  | twin (m : MoveHdr) (oplist : BitVec 12)
  | moveComplete (site : Nat) (index : BitVec 18) (cycle : Word)
  | sendArrival (site : Nat) (p : BnetPacket) (cycle : Word)
  | sackReceipt (site : Nat) (xid : BitVec 16) (cycle : Word)
  -- turns and clocks
  | playStart (site : Nat)
  | dieDone (site : Nat) (cycle : Word)
  | plannedBoundary (part : Nat)
  | slipChangeoverStart (part : Nat)
  | slipLimit (part : Nat)
  | abortDrainEnd (part : Nat) (chosenP : Nat)
  | changeoverStart (part : Nat) (chosenP : Nat)
  | clockStepChange (part : Nat)
  | changeoverWork (part : Nat) (lines ops : Nat) (nodes : List Addr)
  | rookWindow (site : Nat) (sheets : List (Nat × Byte)) (failing : List (Nat × Nat)) (copied : Bool)
  | rookReady (site : Nat)
  | startOfPlayBarrier (part : Nat)
  | stretchTimeout (part : Nat)
  | preemptionComplete (part : Nat)
  | gameClockTick
  | slewAdjust
  | time (square : Nat) (value : BitVec 56)
  | timeBroadcast
  | boundary (square : Nat) (turn : BitVec 56)
  | done (square : Nat) (fromDir : Nat)
  | ready (square : Nat) (fromDir : Nat)
  | yielded (square : Nat) (fromDir : Nat)
  | preempt (square : Nat)
  | abort (square : Nat)
  | clkRefLoss
  | clkRefRelock (difference : BitVec 32)
  | gcSet (r : Requester) (value : Word)
  | gcSlew (r : Requester) (value : Word)
  | crossingMarginLow (square : Nat)
  -- registers and the Referee
  | registerWrite (r : Requester) (addr : Addr) (size : Nat) (value : Word)
  | refWdog (r : Requester) (value : Word)
  | watchdogExpiry
  | lockstep (cycle : Word)
  | warmRestartComplete
  | mbRingProd (r : Requester) (part ring : Nat) (value : BitVec 32)
  | mbRingCqCons (r : Requester) (part ring : Nat) (value : BitVec 32)
  | ringEnable (r : Requester) (part ring : Nat) (value : Word)
  | ringDisable (r : Requester) (part ring : Nat) (value : Word)
  | ringDrained (part ring : Nat)
  | ringVisit (part ring : Nat) (found : TestFindings)
  | msiHoldoffExpiry (part ring : Nat)
  | bmcCommand (bytes : List Byte) (found : TestFindings)
  | mctpRecovery (image : ImageInfo)
  -- networks
  | bnetPacket (square link : Nat) (check : BitVec 32) (p : BnetPacket)
  | bnetNak (square link lane : Nat)
  | bnetReplayTimeout (square link lane : Nat)
  | circuitForward (square : Nat) (circ : BitVec 8) (waited : BitVec 32)
  | cnetPacket (square link : Nat) (p : CnetPacket)
  | cnetInjectionRelease (square : Nat) (waited : BitVec 32)
  -- hosts and memory
  | hartAccess (die core : Nat) (mode : HartMode) (addr : Addr) (op : HartOp) (pbmtNonCacheable : Bool)
  | cacheBlockClean (die core : Nat) (addr : Addr) (flush : Bool)
  | hscRequest (r : Requester) (addr : Addr) (op : HartOp) (evictBlock evictLine : Option Addr)
  | generalLineEviction (addr : Addr)
  | dramRead (addr : Addr) (errors : List (Nat × Nat × Byte)) (host : Bool) (r : Requester)
  | dramWrite (addr : Addr) (bytes : List Byte) (poisoned : List Nat)
  | sramRead (addr : Addr) (square : Nat) (double : Bool) (r : Requester)
  | bucketLeak (cls inst sub : Nat)
  | bankZeroComplete (site bank : Nat)
  | releaseFillComplete (stack : Nat)
  | msiWrite (source : Nat) (addr : Addr) (value : BitVec 32)
  | hdMtimecmp (die core : Nat)
  | hostClockChange (die : Nat) (value : BitVec 6)
  | inboundPcieRequest (die : Nat) (addr : Addr) (op : PcieOp)
  | intxMessage (die : Nat)
  | pcieWake (die : Nat)
  | hostProbe (die : Nat)
  | hostProbeMiss (die : Nat)
  -- state translation and its registers
  | faultResolved (site : Nat) (chan : Nat)
  | faultUnresolvable (site : Nat) (chan : Nat)
  | holdBudgetExhausted (site : Nat)
  | cowResolve (site : Nat) (handle : Handle) (page : BitVec 21) (newPage : Addr)
  | farRecall (site : Nat) (handle : Handle) (page : BitVec 21) (newPage : Addr) (lines : List (List Byte))
  | tierCopyDone (part : Nat) (handle : Handle) (page : BitVec 21) (newPage : Addr)
  | stPinLend (r : Requester) (part : Nat) (value : BitVec 8)
  | ccPubWrite (r : Requester) (part range : Nat) (isLen : Bool) (value : Word)
  | olPoolMap (r : Requester) (window : Nat) (isQuads : Bool) (value : Word)
  | mcErase (r : Requester) (stack : Nat) (value : BitVec 5)
  | migrationCopyDone (part : Nat) (handle : Handle) (destPart : Nat)
  | migrationFail (part : Nat) (handle : Handle) (status : BitVec 8)
  -- optical ports
  | flitReceipt (quad : Nat) (f : Flit)
  | retryReq (quad : Nat) (ack : BitVec 16)
  | flitReplayTimeout (quad : Nat)
  | quadDown (quad : Nat) (cause : DownCause)
  | knockSend (quad : Nat)
  | knock (quad : Nat) (f : Flit)
  | knockWindowExpiry (quad : Nat)
  | csyncRequest
  | csync (quad : Nat) (f : Flit) (arrival : Word)
  | hello (quad : Nat) (f : Flit) (arrival : Word)
  | trainingAttemptTimeout (quad : Nat)
  | backgroundAttempt (quad : Nat)
  | fecRetrain (quad : Nat) (corrected : BitVec 32)
  | prd (quad : Nat) (m : LinkMsg)
  | pdata (quad : Nat) (m : LinkMsg)
  | pwr (quad : Nat) (m : LinkMsg)
  | pwack (quad : Nat) (m : LinkMsg)
  | opticalSend (quad : Nat) (m : LinkMsg)
  | opticalSack (quad : Nat) (m : LinkMsg)
  | copy (quad : Nat) (m : LinkMsg)
  | cack (quad : Nat) (m : LinkMsg)
  | err (quad : Nat) (m : LinkMsg)
  | e2eKnock (quad : Nat) (m : LinkMsg)
  | e2eKnockMiss (module : BitVec 13)
  | poolLineTimeout (xid : BitVec 16) (seq : BitVec 16)
  | command (quad : Nat) (m : LinkMsg) (found : TestFindings)
  | completion (quad : Nat) (m : LinkMsg)
  | spanConfirm (quad : Nat) (m : LinkMsg)
  | spanConfirmTimeout (part : Nat)
  | spanLoadFail (quad : Nat) (m : LinkMsg)
  | spanAbort (quad : Nat) (m : LinkMsg)
  | spanChange (quad : Nat) (m : LinkMsg)
  | debugPause (quad : Nat) (m : LinkMsg)
  | migrateReq (quad : Nat) (m : LinkMsg)
  | migrateAdmit (quad : Nat) (m : LinkMsg)
  | migrateDone (quad : Nat) (m : LinkMsg)
  -- power, cooling, start-up
  | voltageLoop (region : Nat) (minCode hostCode : BitVec 8) (current : BitVec 16)
  | powerMeasurement (module : BitVec 32) (parts : List (Nat × BitVec 32 × BitVec 32)) (module100 : BitVec 32) (regions : List (Nat × BitVec 48))
  | supplyOutOfWindow (region : Nat) (isC : Bool)
  | regionOvercurrent (region : Nat)
  | vaOutOfWindow
  | thermalSample (square : Nat) (panel above : BitVec 16)
  | thermTrip (square : Nat) (junction : BitVec 16)
  | coolingRead (inlet flow : Option (BitVec 16))
  | coldStart (i : ColdStartInputs)
  | holdupRetry (v0 v1 : BitVec 16)
  | resetNAssert
  | pwrFailNAssert
  | pwrFailNRelease (i : ColdStartInputs)
  | dramRetrain (stack channel : Nat) (urgent : Bool)
  | reserveSelfTest (site : Nat) (failing : List (Nat × Nat))
  | maintenanceTurn (part : Nat)
  -- the event recorder
  | eventReport (r : Report)
  | flush
  | flushComplete (good : Bool)
  | flashFailRetry (good : Bool)
  | rateWindowClose (code : BitVec 16) (part : BitVec 4)
  | opsecSecond
  | freezeTimeout
  -- debug
  | dmRegisterAccess (r : Requester) (site : Nat) (reg : Nat) (a : DmAccess)
  | rookHalt (site : Nat) (cause : HaltCause)
  | rookResume (site : Nat)
  | sessionExpiry (part : Nat)
  | challengeLockoutEnd (part : Nat)
  | traceRecord (site : Nat)
  | jtagInstruction (t : TapInstr)
  | jtagUnlock (response : BitVec 384)
  | computeDieClockLoss (site : Nat)
  | hostDieClockLoss (die : Nat)
  | shadowMismatch (addr : Addr) (bit : Nat)
  | computeDieReset (site : Nat) (found : TestFindings)
  | doneReport (quad : Nat) (m : LinkMsg)
  | helloSend (quad : Nat)
  | e2eKnockSend (module : BitVec 13)
  | laneLock (quad : Nat)
  | supplyInWindow (region : Nat) (isC : Bool)
  | pcieLinkChange (die sub : Nat) (up : Bool) (rate : BitVec 3) (width : BitVec 4)
  | dramRetrainComplete (stack channel : Nat) (good : Bool)
  | batchStaging (part : Nat) (slices : List (Nat × List Handle))
  deriving DecidableEq, Repr

end Sys2Proof
end

