-- ==== Sys2Proof/Decode.lean ====
section
/-! DEFINITION. The command that a word of the opcode table spells. The table gives no row any bits: commands reach the block
as the rules of their chapters say, and no word spells one. -/

namespace Sys2Proof

/-- The command that a word of nbits spells by the bits of the opcode table: none, for no row has bits. -/
def decodeTableWord (nbits w : Nat) : Option Instr :=
  match nbits, w with
  | _, _ => none

end Sys2Proof
end

