-- ==== Sys2Proof/Machine/Bits.lean ====
section
/-! DEFINITION. Bit fields, little-endian byte lists, and the check codes the spec names: CRC-32, CRC-32C and CRC-64/XZ. -/

namespace Sys2Proof.Machine

/-- The value of the n bits of v from bit lo up. -/
def bitsAt {w : Nat} (v : BitVec w) (lo n : Nat) : Nat := v.toNat / 2 ^ lo % 2 ^ n

/-- Bit n of v. -/
def bitAt {w : Nat} (v : BitVec w) (n : Nat) : Bool := v.getLsbD n

/-- v with its n bits from bit lo up replaced by x. -/
def putBits {w : Nat} (v : BitVec w) (lo n x : Nat) : BitVec w :=
  (v &&& ~~~ (BitVec.ofNat w ((2 ^ n - 1) * 2 ^ lo))) ||| BitVec.ofNat w (x % 2 ^ n * 2 ^ lo)

/-- v with bit n set to b. -/
def putBit {w : Nat} (v : BitVec w) (n : Nat) (b : Bool) : BitVec w := putBits v n 1 (if b then 1 else 0)

/-- The n little-endian bytes of x (R6). -/
def leBytes : Nat → Nat → List Byte
  | 0, _ => []
  | n + 1, x => BitVec.ofNat 8 x :: leBytes n (x / 256)

/-- The number that little-endian bytes spell (R6). -/
def leNat : List Byte → Nat
  | [] => 0
  | b :: l => b.toNat + 256 * leNat l

/-- The number spelled by n bytes of l from byte i (bytes beyond the end are zero). -/
def bytesAt (l : List Byte) (i n : Nat) : Nat := leNat ((l.drop i).take n)

/-- l padded with zero bytes, or cut, to n bytes. -/
def padTo (n : Nat) (l : List Byte) : List Byte := (l ++ List.replicate (n - l.length) 0).take n

/-- l with the bytes of d from index i. -/
def overlay (l : List Byte) (i : Nat) (d : List Byte) : List Byte :=
  l.take i ++ d ++ l.drop (i + d.length)

/-- n numbers from a up. -/
def rangeFrom (a n : Nat) : List Nat := (List.range n).map (fun k => a + k)

/-- The place of each true bit of the low n bits of v. -/
def bitList {w : Nat} (n : Nat) (v : BitVec w) : List Nat := (List.range n).filter (fun k => v.getLsbD k)

/-- The word whose set bits are the numbers listed. -/
def maskOf (w : Nat) (l : List Nat) : BitVec w :=
  l.foldl (fun m k => m ||| BitVec.ofNat w (2 ^ k)) 0

/-- One bit of a reflected CRC register. -/
def crcBit {w : Nat} (poly c : BitVec w) : BitVec w :=
  if c.getLsbD 0 then (c >>> 1) ^^^ poly else c >>> 1

/-- One byte into a reflected CRC register. -/
def crcByte {w : Nat} (poly c : BitVec w) (b : Byte) : BitVec w :=
  let c := c ^^^ BitVec.ofNat w b.toNat
  crcBit poly (crcBit poly (crcBit poly (crcBit poly (crcBit poly (crcBit poly (crcBit poly (crcBit poly c)))))))

/-- A reflected CRC with all-ones start and final XOR, over a byte list; poly is the reflected polynomial. -/
def crcRun {w : Nat} (poly : BitVec w) (start : BitVec w) (l : List Byte) : BitVec w :=
  l.foldl (crcByte poly) start

/-- CRC-32 of IEEE 802.3 (R353). -/
def crc32 (l : List Byte) : BitVec 32 := ~~~ (crcRun (0xEDB88320 : BitVec 32) (BitVec.allOnes 32) l)

/-- CRC-32C (R140, R178, R212). -/
def crc32c (l : List Byte) : BitVec 32 := ~~~ (crcRun (0x82F63B78 : BitVec 32) (BitVec.allOnes 32) l)

/-- CRC-64/XZ (R37, R178, R188): polynomial 0x42F0_E1EB_A9EA_3693, reflected. -/
def crc64 (l : List Byte) : Word := ~~~ (crcRun (0xC96C5795D7870F42 : BitVec 64) (BitVec.allOnes 64) l)

/-- The quotient of n by d, rounded up. -/
def ceilDiv (n d : Nat) : Nat := (n + d - 1) / d

end Sys2Proof.Machine
end

