-- ==== Sys2Proof/Machine/Panel.lean ====
section
/-! DEFINITION. The panel: squares, the parts above them, supply regions, reticle fields, home stacks and the routes
between squares (chapters 1, 2 and 8). -/

namespace Sys2Proof.Machine

/-- The kinds of square (Table 1.1). Kind and index are fixed in the silicon (R22). -/
inductive SquareKind where
  | optical (n : Nat) | dram (n : Nat) | host (n : Nat) | site (n : Nat) | openSq | referee | clock | sense | service
  deriving DecidableEq, Repr

def sqX (q : Nat) : Nat := q % 16
def sqY (q : Nat) : Nat := q / 16
def sqAt (x y : Nat) : Nat := 16 * y + x

/-- Squares of the compute sites, by site: sites are numbered in ascending square ID (Table 1.1). -/
def siteSquares : List Nat :=
  [19, 20, 22, 25, 27, 28, 33, 35, 36, 38, 41, 43, 44, 46, 49, 51, 52, 54, 57, 59, 60, 62, 65, 67, 68, 70] ++
  [71, 72, 73, 75, 76, 78, 81, 83, 84, 86, 87, 88, 89, 91, 92, 94, 97, 99, 100, 102, 103, 104, 105, 107, 108, 110] ++
  [145, 147, 148, 150, 151, 152, 153, 155, 156, 158, 161, 163, 164, 166, 167, 168, 169, 171, 172, 174, 177, 179, 180, 182, 183, 184] ++
  [185, 187, 188, 190, 193, 195, 196, 198, 201, 203, 204, 206, 209, 211, 212, 214, 217, 219, 220, 222, 227, 228, 230, 233, 235, 236]

/-- Squares of the optical engines, clockwise from (1,0) (Table 1.1). -/
def opticalSquares : List Nat :=
  [1, 2, 3, 4, 5, 6, 7, 8, 9, 10, 11, 12, 13, 14, 31, 47, 63, 79, 95, 111, 127, 143, 159, 175, 191, 207] ++
  [223, 239, 254, 253, 252, 251, 250, 249, 248, 247, 246, 245, 244, 243, 242, 241, 224, 208, 192, 176, 160, 144, 128, 112, 96, 80] ++
  [64, 48, 32, 16]

/-- The square of a compute site. -/
def siteSquare (i : Nat) : Nat := siteSquares.getD i 0

/-- The square of an optical engine. -/
def engineSquare (e : Nat) : Nat := opticalSquares.getD e 0

/-- The square of a DRAM stack: column 2, 5, 10, 13 by s mod 4 (rule beneath Table 1.1). -/
def stackSquare (s : Nat) : Nat :=
  sqAt ([2, 5, 10, 13].getD (s % 4) 0) (if s < 24 then 1 + s / 4 else 9 + (s - 24) / 4)

/-- The left square of a host die. -/
def hostSquare (h : Nat) : Nat := sqAt ([2, 5, 9, 12].getD (h % 4) 0) (if h < 4 then 7 else 8)

/-- The index of x in l. -/
def indexOf? (l : List Nat) (x : Nat) : Option Nat := l.findIdx? (fun y => y = x)

/-- The kind of a square (R21). -/
def squareKind (q : Nat) : SquareKind :=
  if q = 0 then .referee else if q = 15 then .clock else if q = 240 then .sense else if q = 255 then .service
  else match indexOf? siteSquares q with
    | some i => .site i
    | none => match indexOf? opticalSquares q with
      | some e => .optical e
      | none => match (List.range 48).find? (fun s => stackSquare s = q) with
        | some s => .dram s
        | none => match (List.range 8).find? (fun h => hostSquare h = q || hostSquare h + 1 = q) with
          | some h => .host h
          | none => .openSq

/-- The site of a square, if it is a compute square. -/
def squareSite (q : Nat) : Option Nat := indexOf? siteSquares q

/-- Supply region of a square (R27). -/
def squareRegion (q : Nat) : Nat := 4 * (sqY q / 4) + sqX q / 4

def siteRegion (i : Nat) : Nat := squareRegion (siteSquare i)
def stackRegion (s : Nat) : Nat := squareRegion (stackSquare s)
def hostRegion (h : Nat) : Nat := squareRegion (hostSquare h)
def engineRegion (e : Nat) : Nat := squareRegion (engineSquare e)

/-- The squares of a region, in square-ID order. -/
def regionSquares (r : Nat) : List Nat :=
  (List.range 16).map (fun k => sqAt (4 * (r % 4) + k % 4) (4 * (r / 4) + k / 4))

/-- Field column or row of a square column or row (Table 1.2). -/
def fieldOf (x : Nat) : Nat :=
  if x ≤ 1 then 0 else if x ≤ 4 then 1 else if x ≤ 6 then 2 else if x ≤ 8 then 3 else if x ≤ 10 then 4
  else if x ≤ 13 then 5 else 6

/-- Home field of a square (R23). -/
def homeField (q : Nat) : Nat := 7 * fieldOf (sqY q) + fieldOf (sqX q)

/-- The neighbour of a square toward 0 N, 1 E, 2 S, 3 W, if the link does not leave the panel. -/
def neighbour (q : Nat) (d : Nat) : Option Nat :=
  match d with
  | 0 => if sqY q = 0 then none else some (q - 16)
  | 1 => if sqX q = 15 then none else some (q + 1)
  | 2 => if sqY q = 15 then none else some (q + 16)
  | _ => if sqX q = 0 then none else some (q - 1)

/-- XL_FIELD_LAT of a square after calibration: 3 panel cycles toward each neighbour in another home field
(R24, Table 3.2, Table 3.5). -/
def fieldLat (q : Nat) : Word :=
  (List.range 4).foldl (fun w d =>
    match neighbour q d with
    | some n => if homeField n = homeField q then w else putBits w (4 * d) 4 3
    | none => w) 0

/-- Home-stack columns of a site by its x (Table 2.2): primary, secondary. -/
def homeColumns (x : Nat) : Nat × Nat :=
  match x with
  | 1 => (2, 5) | 3 => (2, 5) | 4 => (5, 2) | 6 => (5, 10) | 7 => (5, 10)
  | 8 => (10, 5) | 9 => (10, 5) | 11 => (10, 13) | 12 => (13, 10) | _ => (13, 10)

/-- The stack at a DRAM column and row (rule beneath Table 1.1). -/
def stackAt (x y : Nat) : Nat :=
  let c := if x = 2 then 0 else if x = 5 then 1 else if x = 10 then 2 else 3
  if y ≤ 6 then 4 * (y - 1) + c else 24 + 4 * (y - 9) + c

/-- MC_HOME of a site (R48, R49). -/
def mcHome (i : Nat) : Word :=
  let q := siteSquare i
  let (p, s) := homeColumns (sqX q)
  BitVec.ofNat 64 (stackAt s (sqY q) * 256 + stackAt p (sqY q))

/-- DRAM lines are 1 KiB (R46); the line number of an address. -/
def lineOf (a : Nat) : Nat := a / 1024

/-- The stack of a DRAM address (R42). -/
def stackOf (a : Nat) : Nat := a / 2 ^ 36

/-- The compute-side home slice of the line at an address (R61). -/
def homeSlice (a : Nat) : Nat :=
  let q := stackSquare (stackOf a)
  let k := (a / 2 ^ 10 % 16) ^^^ (a / 2 ^ 14 % 16)
  sqAt (4 * (sqX q / 4) + k % 4) (4 * (sqY q / 4) + k / 4)

/-- Quad index device-wide: engine × 4 + quad. -/
def quadEngine (n : Nat) : Nat := n / 4

end Sys2Proof.Machine
end

