-- ==== Sys2Proof/Machine/Regs.lean ====
section
/-! DEFINITION. The registers of the PX-49: one name for every row of every register table of spec/,
its window, offset, change class, reset value and field masks, and the address it lies at. -/

namespace Sys2Proof.Machine

/-- Every register named by a register table of spec/ (Tables 1.5, 1.7, 2.3, 2.4, 2.6, 2.8, 3.5, 3.7, 4.6, 6.6, 7.11,
7.12, 8.10, 9.1, 9.5, 10.4, 11.4 to 11.6, 12.5, 12.7, 13.7 to 13.9, 14.3 to 14.5, 15.6, 15.7, 16.5 to 16.7,
17.5 to 17.8, 18.3, 19.3, 19.4). A row with an index n is one name whose key carries the index.
bktCfg is the row of the six *_BKT_CFG registers of Table 14.5. -/
inductive RegName where
  | mxRowMap0 | mxRowMap1 | refSamLo | refSamHi | refSamDigest | refRsvLo | refRsvHi | refRetLo | refRetHi
  | refOutLo | refOutHi | refSamGen | mcHome | dmSize | dmBankEn | dmZeroBusy | dmRgn | ccLayout | ccUnmapped
  | ccGenDirty | ccPubBase | ccPubLen | gcNow | gcFix | gcStatus | gcSlew | gcSet | xlFieldLat | xlDieLat
  | xlMargin | tnTurnLen | tnChgLen | tnStep | tnMinStep | tnSpan | tnStatus | tnTurn | tnStart | tnOverruns
  | tnAborts | tnStretches | tnLastSlip | tnMaint | mxModeInit | mxStatus | mxFlags | mxQueue | mxMacFp4
  | mxMacFp6 | mxMacFp8 | mxMacInt4 | mxMacInt8 | mxMacHalf | mxMacFp32 | mxMacSb3 | mxPasses | mxGranules
  | mxStall | mxBankStall | mxQueueStall | mxHeldStall | vxStatus | vxFlags | vxProgress | vxOpsEw | vxOpsTr
  | vxOpsCvt | vxOpsRed | vxOpsFused | vxOpsSel | vxGranules | vxElements | vxQueueWait | vxBankWait
  | vxSliceWait | vxTilesDropped | sqStatus | sqTables | sqNext | sqCycle | sqLate | sqSlack | sqMoves
  | sqCheckWait | sqAbandoned | sqCtr | sqDmaProg | sqDmaFlt | sqBook | sqMapReq | sqMapNow | sqEpoch
  | sqPreempt | sqYields | bnStatus | bnTxBytes | bnRxBytes | bnDups | bnStaleArrivals | bnReplays | bnFenceDrop
  | bnCircWait | bnPortFull | bnResetErr | bnCroute | bnSlot | cnStatus | cnInj | cnInjWait | cnTxPkts
  | cnRxPkts | cnFenceDrop | snTree | snTimeLat | snMsgs | refStatus | refWdog | refRestarts | refLastRestart
  | refFwVersion | mbRingSq | mbRingCq | mbRingCtl | mbRingProd | mbRingCons | mbRingCqProd | mbRingCqCons
  | mbRingMsiAddr | mbRingMsiData | mbRingStatus | stRows | stLive | stActive | stParked | stDirCap | stTailsFree
  | stOpens | stParks | stUnparks | stFullRefused | stNotAdv | stGivenUp | stTailSaves | stMigrations
  | stBlock | stPinLend | stFaults | stResolved | stSkipped | stRecalls | stCowCopies | stTierMoves | ccSealDrop
  | stTcHits | stTcMisses | stTcWalkReads | stTcFaults | stTcInvals | stSeals | hdStatus | hdBootAddr
  | hdClk | hdPcieCfg | hdPcieStatus | hdResets | hdLostDirty | hdPrivFaults | hdMsiDrop | hdIntxDrop
  | hdEccCe | hdEccUe | hdBkt | hdTurn | hdTurnStart | hdWhere | hdMpriv | hdMtimecmp | olQstatus | olRole
  | olRtt | olTxFlits | olRxFlits | olCrcErr | olReplays | olFecCorr | olFecUncorr | olKnockMiss | olAttempts
  | olRetrains | olLaser | olSpanOfs | olModuleId | olSyncStatus | olSyncOffset | olCapacity | olVacant
  | olPoolTmo | olPoolMap | olPoolQuads | mcEccStatus | mcErase | mcCeLines | mcUeLines | mcPoisonWr
  | mcLastCe | mcLastUe | mcBktL | mcZfPending | ccEccCe | ccEccUe | ccBkt | ccPoisoned | dmEccCe | dmEccUe
  | dmBkt | rkEccCe | rkEccUe | rkBkt | refBkt | bktCfg | mcCeMsiAddr | mcCeMsiData | sfFence | sfShadow
  | sfClk | sfTwinMiss | sfPipFails | sfSeqFail | ptRegions | ptStatus | ptViewDigest | ptHostsFenced
  | ptPeer | ptFences | ptLastFence | ptPipSpan | refBoot | refHoldup | refFwSvn | refStraps | mcTrainStatus
  | mcRetrains | xlRepair | thTemp | thMax | pwStatus | pwLimit | pwModule | pwCapEvents | thHot | thThrottles
  | thRth | thCoolant | thWarnings | pwRgnStatus | pwVstep | pwRgnRead | pwOcLimit | pwOcEvents | pwPartBudget
  | pwPartPower | pwDutyTurns | evStatus | evSeq | evOpsec | evPwrcyc | evUnflushed | evFlushes | evSuppressed
  | evSideLost | evKeep | evIntakeLost | evLost | dbSession | dbHaltedLo | dbHaltedHi | dbTraceCtl | dbPauses
  | dbIdcode | dbJtagStatus | dbTraceHead | dbTraceLost | dbTraceBuf
  deriving DecidableEq, Repr

/-- Which instances of a register exist, and so what the index i of its key counts. -/
inductive Window where
  /-- every square, i = square ID -/
  | square
  /-- compute sites, i = site -/
  | site
  /-- memory squares, i = stack -/
  | stack
  /-- left squares of host dies, i = host die -/
  | host
  /-- quads, i = device-wide quad index -/
  | quad
  /-- optical squares, i = engine -/
  | engine
  /-- the Clock square -/
  | clock
  /-- the Service square -/
  | service
  /-- the Referee window, once -/
  | referee
  /-- the Referee window, i = partition -/
  | partition
  /-- the Referee window, i = supply region -/
  | region
  /-- the Referee window, i = partition and j = ring -/
  | ring
  /-- custom CSRs, i = hart -/
  | csr
  deriving DecidableEq, Repr

/-- The change classes of Table 0.3 (R8). -/
inductive RegClass where
  /-- T: turn-latched -/
  | turn
  /-- L: live -/
  | live
  /-- K: locked while the owning block runs -/
  | locked
  /-- B: boot-only -/
  | boot
  deriving DecidableEq, Repr

/-- One row of a register table. -/
structure RegInfo where
  window : Window
  /-- offset of instance 0 in its window, or the CSR number -/
  offset : Nat
  /-- distance between instances of a Referee-window block -/
  stride : Nat
  /-- number of values of the index j, and their distance -/
  count : Nat
  step : Nat
  cls : RegClass
  /-- the bits of a row of class K that are class L -/
  liveMask : Word
  /-- bits that belong to a field; the others are reserved (R7) -/
  defined : Word
  /-- bits of read-only fields (R523) -/
  readOnly : Word
  /-- bits of write-1-to-clear fields (R523) -/
  writeOneClear : Word
  /-- a counter described as write 0 to clear (R523) -/
  clearOnZero : Bool
  /-- the row or its chapter says that the Referee alone writes it -/
  refereeOnly : Bool
  /-- the register stands in Table 15.3, so it has two copies (R418) -/
  shadowed : Bool
  /-- block number of Table 18.2 -/
  block : Nat
  /-- the row's reset value; a field set by HW or FW is 0 until start-up writes it -/
  reset : Word
  deriving DecidableEq, Repr

/-- A read-only row of class L, the commonest shape. -/
def RegInfo.status (w : Window) (off stride count step : Nat) (defined w1c : Word) (block : Nat) (reset : Word) : RegInfo :=
  { window := w, offset := off, stride := stride, count := count, step := step, cls := .live, liveMask := 0,
    defined := defined, readOnly := defined &&& ~~~ w1c, writeOneClear := w1c, clearOnZero := false,
    refereeOnly := false, shadowed := false, block := block, reset := reset }

/-- A writable row: its class and its field mask. -/
def RegInfo.writable (w : Window) (off stride count step : Nat) (c : RegClass) (defined : Word) (block : Nat) (reset : Word) : RegInfo :=
  { window := w, offset := off, stride := stride, count := count, step := step, cls := c, liveMask := 0,
    defined := defined, readOnly := 0, writeOneClear := 0, clearOnZero := false,
    refereeOnly := false, shadowed := false, block := block, reset := reset }

/-- The register tables, one row a register: window, offset, strides, class, field masks and reset value. -/
def RegName.info : RegName → RegInfo
  | .mxRowMap0 => { RegInfo.writable .site 0x200000 0 1 8 .boot 0x9f9f9f9f9f9f9f9f 3 0 with shadowed := true }
  | .mxRowMap1 => { RegInfo.writable .site 0x200008 0 1 8 .boot 0x9f9f9f9f9f9f9f9f 3 0 with shadowed := true }
  | .refSamLo => { RegInfo.writable .referee 0x2000 0 1 8 .locked 0xffffffffffffffff 0x10 0 with shadowed := true }
  | .refSamHi => { RegInfo.writable .referee 0x2008 0 1 8 .locked 0xffffffffff 0x10 0 with shadowed := true }
  | .refSamDigest => { RegInfo.writable .referee 0x2010 0 1 8 .locked 0xffffffffffffffff 0x10 0 with shadowed := true }
  | .refRsvLo => { RegInfo.writable .referee 0x2018 0 1 8 .locked 0xffffffffffffffff 0x10 0 with shadowed := true }
  | .refRsvHi => { RegInfo.writable .referee 0x2020 0 1 8 .locked 0xffffffffff 0x10 0 with shadowed := true }
  | .refRetLo => { RegInfo.writable .referee 0x2028 0 1 8 .locked 0xffffffffffffffff 0x10 0 with shadowed := true }
  | .refRetHi => { RegInfo.writable .referee 0x2030 0 1 8 .locked 0xffffffffff 0x10 0 with shadowed := true }
  | .refOutLo => { RegInfo.writable .referee 0x2038 0 1 8 .locked 0xffffffffffffffff 0x10 0 with shadowed := true }
  | .refOutHi => { RegInfo.writable .referee 0x2040 0 1 8 .locked 0xffffffffff 0x10 0 with shadowed := true }
  | .refSamGen => { RegInfo.writable .referee 0x2048 0 1 8 .locked 0xffffffff 0x10 0 with shadowed := true }
  | .mcHome => { RegInfo.writable .site 0x800000 0 1 8 .boot 0x3f3f 0xc 0 with shadowed := true }
  | .dmSize => RegInfo.writable .site 0x600000 0 1 8 .boot 0xffffffffffffffff 6 0x6000000
  | .dmBankEn => { RegInfo.writable .site 0x600008 0 1 8 .locked 0xffff 6 0 with shadowed := true }
  | .dmZeroBusy => RegInfo.status .site 0x600010 0 1 8 0xffff 0 6 0
  | .dmRgn => { RegInfo.writable .site 0x600100 0 32 8 .locked 0xe000ffff0000ffff 6 0 with shadowed := true }
  | .ccLayout => { RegInfo.writable .square 0x400000 0 1 8 .locked 0xffffff 0xb 0 with shadowed := true }
  | .ccUnmapped => { RegInfo.writable .square 0x400008 0 1 8 .live 0xffffffff 0xb 0 with clearOnZero := true }
  | .ccGenDirty => RegInfo.status .square 0x400010 0 1 8 0xffff 0 0xb 0
  | .ccPubBase => { RegInfo.writable .partition 0x400000 0x1000 16 0x10 .turn 0x8000fffffffffc01 0xb 0 with shadowed := true }
  | .ccPubLen => { RegInfo.writable .partition 0x400008 0x1000 16 0x10 .turn 0xffffffff 0xb 0 with shadowed := true }
  | .gcNow => RegInfo.status .square 0x100 0 1 8 0xffffffffffffffff 0 1 0
  | .gcFix => { RegInfo.writable .square 0x108 0 1 8 .live 0xffffffff 1 0 with clearOnZero := true }
  | .gcStatus => RegInfo.status .clock 0x200 0 1 8 7 0 1 0
  | .gcSlew => { RegInfo.writable .clock 0x208 0 1 8 .live 0xffffffff 1 0 with refereeOnly := true }
  | .gcSet => RegInfo.writable .clock 0x210 0 1 8 .boot 0xffffffffffffffff 1 0
  | .xlFieldLat => RegInfo.writable .square 0xa00000 0 1 8 .boot 0xffff 0xe 0
  | .xlDieLat => { RegInfo.writable .site 0xa00008 0 1 8 .boot 0xffffffffffffffff 0xe 0 with shadowed := true }
  | .xlMargin => { RegInfo.writable .square 0xa00010 0 1 8 .live 0xffffffff 0xe 0 with clearOnZero := true }
  | .tnTurnLen => { RegInfo.writable .partition 0x100000 0x1000 1 8 .turn 0xfffff 2 0x30d40 with shadowed := true }
  | .tnChgLen => { RegInfo.writable .partition 0x100008 0x1000 1 8 .turn 0x3fff 2 0x7d0 with shadowed := true }
  | .tnStep => { RegInfo.writable .partition 0x100010 0x1000 1 8 .turn 7 2 0 with refereeOnly := true, shadowed := true }
  | .tnMinStep => { RegInfo.writable .partition 0x100018 0x1000 1 8 .locked 0xf 2 0 with shadowed := true }
  | .tnSpan => { RegInfo.writable .partition 0x100020 0x1000 1 8 .locked 0xf 2 0 with shadowed := true }
  | .tnStatus => RegInfo.status .partition 0x100028 0x1000 1 8 0x7071f 1 2 0
  | .tnTurn => RegInfo.status .partition 0x100030 0x1000 1 8 0xffffffffffffffff 0 2 0
  | .tnStart => RegInfo.status .partition 0x100038 0x1000 1 8 0xffffffffffffffff 0 2 0
  | .tnOverruns => RegInfo.status .partition 0x100040 0x1000 1 8 0xffffffffffffffff 0 2 0
  | .tnAborts => RegInfo.status .partition 0x100048 0x1000 1 8 0xffffffffffffffff 0 2 0
  | .tnStretches => RegInfo.status .partition 0x100050 0x1000 1 8 0xffffffffffffffff 0 2 0
  | .tnLastSlip => RegInfo.status .partition 0x100058 0x1000 1 8 0xffffffff 0 2 0
  | .tnMaint => RegInfo.status .partition 0x100060 0x1000 1 8 0x800003ffffffffff 0 2 0
  | .mxModeInit => { RegInfo.writable .site 0x200010 0 1 8 .locked 7 3 0 with shadowed := true }
  | .mxStatus => RegInfo.status .site 0x200018 0 1 8 0x700000007 1 3 0
  | .mxFlags => RegInfo.status .site 0x200020 0 1 8 0x7f 0x7f 3 0
  | .mxQueue => { RegInfo.writable .site 0x200028 0 1 8 .locked 1 3 0 with shadowed := true }
  | .mxMacFp4 => RegInfo.status .site 0x200100 0 1 8 0xffffffffffffffff 0 3 0
  | .mxMacFp6 => RegInfo.status .site 0x200108 0 1 8 0xffffffffffffffff 0 3 0
  | .mxMacFp8 => RegInfo.status .site 0x200110 0 1 8 0xffffffffffffffff 0 3 0
  | .mxMacInt4 => RegInfo.status .site 0x200118 0 1 8 0xffffffffffffffff 0 3 0
  | .mxMacInt8 => RegInfo.status .site 0x200120 0 1 8 0xffffffffffffffff 0 3 0
  | .mxMacHalf => RegInfo.status .site 0x200128 0 1 8 0xffffffffffffffff 0 3 0
  | .mxMacFp32 => RegInfo.status .site 0x200130 0 1 8 0xffffffffffffffff 0 3 0
  | .mxMacSb3 => RegInfo.status .site 0x200138 0 1 8 0xffffffffffffffff 0 3 0
  | .mxPasses => RegInfo.status .site 0x200140 0 1 8 0xffffffffffffffff 0 3 0
  | .mxGranules => RegInfo.status .site 0x200148 0 1 8 0xffffffffffffffff 0 3 0
  | .mxStall => RegInfo.status .site 0x200150 0 1 8 0xffffffffffffffff 0 3 0
  | .mxBankStall => RegInfo.status .site 0x200158 0 1 8 0xffffffffffffffff 0 3 0
  | .mxQueueStall => RegInfo.status .site 0x200160 0 1 8 0xffffffffffffffff 0 3 0
  | .mxHeldStall => RegInfo.status .site 0x200168 0 1 8 0xffffffffffffffff 0 3 0
  | .vxStatus => RegInfo.status .site 0x300000 0 1 8 0x1ffff 0 4 0
  | .vxFlags => RegInfo.status .site 0x300008 0 1 8 0x3f 0x3f 4 0
  | .vxProgress => RegInfo.status .site 0x300010 0 1 8 0xffffffffffffffff 0 4 0
  | .vxOpsEw => RegInfo.status .site 0x300100 0 1 8 0xffffffffffffffff 0 4 0
  | .vxOpsTr => RegInfo.status .site 0x300108 0 1 8 0xffffffffffffffff 0 4 0
  | .vxOpsCvt => RegInfo.status .site 0x300110 0 1 8 0xffffffffffffffff 0 4 0
  | .vxOpsRed => RegInfo.status .site 0x300118 0 1 8 0xffffffffffffffff 0 4 0
  | .vxOpsFused => RegInfo.status .site 0x300120 0 1 8 0xffffffffffffffff 0 4 0
  | .vxOpsSel => RegInfo.status .site 0x300128 0 1 8 0xffffffffffffffff 0 4 0
  | .vxGranules => RegInfo.status .site 0x300130 0 1 8 0xffffffffffffffff 0 4 0
  | .vxElements => RegInfo.status .site 0x300138 0 1 8 0xffffffffffffffff 0 4 0
  | .vxQueueWait => RegInfo.status .site 0x300140 0 1 8 0xffffffffffffffff 0 4 0
  | .vxBankWait => RegInfo.status .site 0x300148 0 1 8 0xffffffffffffffff 0 4 0
  | .vxSliceWait => RegInfo.status .site 0x300150 0 1 8 0xffffffffffffffff 0 4 0
  | .vxTilesDropped => RegInfo.status .site 0x300158 0 1 8 0xffffffffffffffff 0 4 0
  | .sqStatus => RegInfo.status .site 0x500000 0 1 8 0x3f0001 1 5 0
  | .sqTables => { RegInfo.writable .site 0x500008 0 1 8 .locked 0x1f1f1f 5 0 with shadowed := true }
  | .sqNext => RegInfo.status .site 0x500010 0 1 8 0x3ffff 0 5 0
  | .sqCycle => RegInfo.status .site 0x500018 0 1 8 0xffffffffffffffff 0 5 0
  | .sqLate => RegInfo.status .site 0x500020 0 1 8 0x3ffffffffffffff 0 5 0
  | .sqSlack => RegInfo.status .site 0x500028 0 1 8 0xffffffff 0 5 0
  | .sqMoves => RegInfo.status .site 0x500100 0 1 8 0xffffffffffffffff 0 5 0
  | .sqCheckWait => RegInfo.status .site 0x500108 0 1 8 0xffffffffffffffff 0 5 0
  | .sqAbandoned => RegInfo.status .site 0x500110 0 1 8 0xffffffffffffffff 0 5 0
  | .sqCtr => RegInfo.status .site 0x501000 0 255 8 0xffffffff 0 5 0
  | .sqDmaProg => RegInfo.status .site 0x500200 0 8 8 0xffffff000001ffff 0 5 0
  | .sqDmaFlt => RegInfo.status .site 0x500240 0 8 8 0xffffffffffffffff 0 5 0
  | .sqBook => RegInfo.status .partition 0x300000 0x1000 1 8 0xffffffffffffffff 0 5 0
  | .sqMapReq => { RegInfo.writable .partition 0x300008 0x1000 1 8 .turn 7 5 0 with refereeOnly := true, shadowed := true }
  | .sqMapNow => RegInfo.status .partition 0x300010 0x1000 1 8 0x10107 0 5 0
  | .sqEpoch => { RegInfo.status .partition 0x300018 0x1000 1 8 0xffff 0 5 0 with shadowed := true }
  | .sqPreempt => { RegInfo.writable .partition 0x300020 0x1000 1 8 .live 1 5 0 with refereeOnly := true }
  | .sqYields => RegInfo.status .partition 0x300028 0x1000 1 8 0xffffffffffffffff 0 5 0
  | .bnStatus => RegInfo.status .square 0xb00000 0 1 8 0x3f1 1 8 0
  | .bnTxBytes => RegInfo.status .square 0xb00008 0 1 8 0xffffffffffffffff 0 8 0
  | .bnRxBytes => RegInfo.status .square 0xb00010 0 1 8 0xffffffffffffffff 0 8 0
  | .bnDups => RegInfo.status .square 0xb00018 0 1 8 0xffffffffffffffff 0 8 0
  | .bnStaleArrivals => RegInfo.status .square 0xb00020 0 1 8 0xffffffffffffffff 0 8 0
  | .bnReplays => RegInfo.status .square 0xb00028 0 1 8 0xffffffffffffffff 0 8 0
  | .bnFenceDrop => RegInfo.status .square 0xb00030 0 1 8 0xffffffffffffffff 0 8 0
  | .bnCircWait => RegInfo.status .square 0xb00038 0 1 8 0xffffffffffffffff 0 8 0
  | .bnPortFull => RegInfo.status .square 0xb00040 0 1 8 0xffffffffffffffff 0 8 0
  | .bnResetErr => RegInfo.status .square 0xb00048 0 1 8 0xffffffffffffffff 0 8 0
  | .bnCroute => { RegInfo.writable .square 0xb01000 0 32 8 .turn 0x707070707070707 8 0 with refereeOnly := true, shadowed := true }
  | .bnSlot => { RegInfo.writable .square 0xb02000 0 40 8 .turn 0xffffffffffffffff 8 0xffffffffffffffff with refereeOnly := true, shadowed := true }
  | .cnStatus => RegInfo.status .square 0xc00000 0 1 8 0x1e 0 9 0
  | .cnInj => { RegInfo.writable .square 0xc00008 0 1 8 .boot 0xffffff 9 0 with shadowed := true }
  | .cnInjWait => RegInfo.status .square 0xc00010 0 1 8 0xffffffffffffffff 0 9 0
  | .cnTxPkts => RegInfo.status .square 0xc00018 0 1 8 0xffffffffffffffff 0 9 0
  | .cnRxPkts => RegInfo.status .square 0xc00020 0 1 8 0xffffffffffffffff 0 9 0
  | .cnFenceDrop => RegInfo.status .square 0xc00028 0 1 8 0xffffffffffffffff 0 9 0
  | .snTree => { RegInfo.writable .square 0xd00000 0 1 8 .locked 0xff0f07 0xa 0 with shadowed := true }
  | .snTimeLat => RegInfo.writable .square 0xd00008 0 1 8 .boot 0xff 0xa 0
  | .snMsgs => RegInfo.status .square 0xd00010 0 1 8 0xffffffffffffffff 0 0xa 0
  | .refStatus => RegInfo.status .referee 0x1000 0 1 8 0xf 1 0x10 0
  | .refWdog => { RegInfo.writable .referee 0x1008 0 1 8 .live 0xffffffffffffffff 0x10 0 with refereeOnly := true }
  | .refRestarts => RegInfo.status .referee 0x1010 0 1 8 0xffffffff 0 0x10 0
  | .refLastRestart => RegInfo.status .referee 0x1018 0 1 8 0xffffffffffffffff 0 0x10 0
  | .refFwVersion => RegInfo.writable .referee 0x1020 0 1 8 .boot 0xffffffff 0x10 0
  | .mbRingSq => RegInfo.writable .ring 0x500000 0x1000 16 0x100 .locked 0xfffffffff00f 0x11 0
  | .mbRingCq => RegInfo.writable .ring 0x500008 0x1000 16 0x100 .locked 0xfffffffff00f 0x11 0
  | .mbRingCtl => { RegInfo.writable .ring 0x500010 0x1000 16 0x100 .locked 0xffffffff0007 0x11 0 with liveMask := 1 }
  | .mbRingProd => RegInfo.writable .ring 0x500018 0x1000 16 0x100 .live 0xffffffff 0x11 0
  | .mbRingCons => RegInfo.status .ring 0x500020 0x1000 16 0x100 0xffffffff 0 0x11 0
  | .mbRingCqProd => RegInfo.status .ring 0x500028 0x1000 16 0x100 0xffffffff 0 0x11 0
  | .mbRingCqCons => RegInfo.writable .ring 0x500030 0x1000 16 0x100 .live 0xffffffff 0x11 0
  | .mbRingMsiAddr => RegInfo.writable .ring 0x500038 0x1000 16 0x100 .locked 0xffffffffffffffff 0x11 0
  | .mbRingMsiData => RegInfo.writable .ring 0x500040 0x1000 16 0x100 .locked 0xffffffff 0x11 0
  | .mbRingStatus => RegInfo.status .ring 0x500048 0x1000 16 0x100 0xf 1 0x11 0
  | .stRows => RegInfo.status .partition 0x600000 0x1000 1 8 0x1fffff 0 0xd 0
  | .stLive => RegInfo.status .partition 0x600008 0x1000 1 8 0x1fffff 0 0xd 0
  | .stActive => RegInfo.status .partition 0x600010 0x1000 1 8 0x1ffff 0 0xd 0
  | .stParked => RegInfo.status .partition 0x600018 0x1000 1 8 0x1ffffff 0 0xd 0
  | .stDirCap => RegInfo.status .partition 0x600020 0x1000 1 8 0x1ffffff 0 0xd 0
  | .stTailsFree => RegInfo.status .partition 0x600028 0x1000 1 8 0xffffff 0 0xd 0
  | .stOpens => RegInfo.status .partition 0x600030 0x1000 1 8 0xffffffffffffffff 0 0xd 0
  | .stParks => RegInfo.status .partition 0x600038 0x1000 1 8 0xffffffffffffffff 0 0xd 0
  | .stUnparks => RegInfo.status .partition 0x600040 0x1000 1 8 0xffffffffffffffff 0 0xd 0
  | .stFullRefused => RegInfo.status .partition 0x600048 0x1000 1 8 0xffffffffffffffff 0 0xd 0
  | .stNotAdv => RegInfo.status .partition 0x600050 0x1000 1 8 0xffffffffffffffff 0 0xd 0
  | .stGivenUp => RegInfo.status .partition 0x600058 0x1000 1 8 0xffffffffffffffff 0 0xd 0
  | .stTailSaves => RegInfo.status .partition 0x600060 0x1000 1 8 0xffffffffffffffff 0 0xd 0
  | .stMigrations => RegInfo.status .partition 0x600068 0x1000 1 8 0xffffffffffffffff 0 0xd 0
  | .stBlock => { RegInfo.status .partition 0x600070 0x1000 4 8 0xffffffffffffffff 0 0xd 0 with shadowed := true }
  | .stPinLend => { RegInfo.writable .partition 0x600090 0x1000 1 8 .turn 0xff 0xd 0 with shadowed := true }
  | .stFaults => RegInfo.status .partition 0x600098 0x1000 1 8 0xffffffffffffffff 0 0xd 0
  | .stResolved => RegInfo.status .partition 0x6000a0 0x1000 1 8 0xffffffffffffffff 0 0xd 0
  | .stSkipped => RegInfo.status .partition 0x6000a8 0x1000 1 8 0xffffffffffffffff 0 0xd 0
  | .stRecalls => RegInfo.status .partition 0x6000b0 0x1000 1 8 0xffffffffffffffff 0 0xd 0
  | .stCowCopies => RegInfo.status .partition 0x6000b8 0x1000 1 8 0xffffffffffffffff 0 0xd 0
  | .stTierMoves => RegInfo.status .partition 0x6000c0 0x1000 1 8 0xffffffffffffffff 0 0xd 0
  | .ccSealDrop => RegInfo.status .square 0x400018 0 1 8 0xffffffffffffffff 0 0xb 0
  | .stTcHits => RegInfo.status .square 0x700000 0 1 8 0xffffffffffffffff 0 0xd 0
  | .stTcMisses => RegInfo.status .square 0x700008 0 1 8 0xffffffffffffffff 0 0xd 0
  | .stTcWalkReads => RegInfo.status .square 0x700010 0 1 8 0xffffffffffffffff 0 0xd 0
  | .stTcFaults => RegInfo.status .square 0x700018 0 1 8 0xffffffffffffffff 0 0xd 0
  | .stTcInvals => RegInfo.status .square 0x700020 0 1 8 0xffffffffffffffff 0 0xd 0
  | .stSeals => RegInfo.status .square 0x700028 0 1 8 0x7ff 0 0xd 0
  | .hdStatus => RegInfo.status .host 0xe00000 0 1 8 0x1f 1 0xf 0
  | .hdBootAddr => RegInfo.writable .host 0xe00008 0 1 8 .locked 0xfffffffff000 0xf 0
  | .hdClk => RegInfo.status .host 0xe00010 0 1 8 0x3f 0 0xf 8
  | .hdPcieCfg => RegInfo.writable .host 0xe00018 0 1 8 .boot 3 0xf 0
  | .hdPcieStatus => RegInfo.status .host 0xe00020 0 1 8 0xffffffff 0 0xf 0
  | .hdResets => RegInfo.status .host 0xe00028 0 1 8 0xffffffffffffffff 0 0xf 0
  | .hdLostDirty => RegInfo.status .host 0xe00030 0 1 8 0xffffffffffffffff 0 0xf 0
  | .hdPrivFaults => RegInfo.status .host 0xe00038 0 1 8 0xffffffffffffffff 0 0xf 0
  | .hdMsiDrop => RegInfo.status .host 0xe00040 0 1 8 0xffffffffffffffff 0 0xf 0
  | .hdIntxDrop => RegInfo.status .host 0xe00048 0 1 8 0xffffffffffffffff 0 0xf 0
  | .hdEccCe => RegInfo.status .host 0xe00050 0 1 8 0xffffffffffffffff 0 0xf 0
  | .hdEccUe => RegInfo.status .host 0xe00058 0 1 8 0xffffffffffffffff 0 0xf 0
  | .hdBkt => RegInfo.status .host 0xe00060 0 1 8 0xffff0000ffff 0 0xf 0
  | .hdTurn => RegInfo.status .csr 0xcc0 0 1 8 0xffffffffffffffff 0 0xf 0
  | .hdTurnStart => RegInfo.status .csr 0xcc1 0 1 8 0xffffffffffffffff 0 0xf 0
  | .hdWhere => RegInfo.status .csr 0xdc0 0 1 8 0x7071f 0 0xf 0
  | .hdMpriv => RegInfo.writable .csr 0x7c0 0 1 8 .live 1 0xf 0
  | .hdMtimecmp => RegInfo.writable .csr 0x7c1 0 1 8 .live 0xffffffffffffffff 0xf 0xffffffffffffffff
  | .olQstatus => RegInfo.status .quad 0xf00000 0 1 8 0xffffff030003f007 1 0x12 0xfff8000000000000
  | .olRole => { RegInfo.writable .quad 0xf00008 0 1 8 .boot 3 0x12 0 with refereeOnly := true, shadowed := true }
  | .olRtt => RegInfo.status .quad 0xf00010 0 1 8 0xffffff 0 0x12 0
  | .olTxFlits => RegInfo.status .quad 0xf00018 0 1 8 0xffffffffffffffff 0 0x12 0
  | .olRxFlits => RegInfo.status .quad 0xf00020 0 1 8 0xffffffffffffffff 0 0x12 0
  | .olCrcErr => RegInfo.status .quad 0xf00028 0 1 8 0xffffffffffffffff 0 0x12 0
  | .olReplays => RegInfo.status .quad 0xf00030 0 1 8 0xffffffffffffffff 0 0x12 0
  | .olFecCorr => RegInfo.status .quad 0xf00038 0 1 8 0xffffffffffffffff 0 0x12 0
  | .olFecUncorr => RegInfo.status .quad 0xf00040 0 1 8 0xffffffffffffffff 0 0x12 0
  | .olKnockMiss => RegInfo.status .quad 0xf00048 0 1 8 0xffffffffffffffff 0 0x12 0
  | .olAttempts => RegInfo.status .quad 0xf00050 0 1 8 0xffffffffffffffff 0 0x12 0
  | .olRetrains => RegInfo.status .quad 0xf00058 0 1 8 0xffffffffffffffff 0 0x12 0
  | .olLaser => RegInfo.status .engine 0xf00400 0 1 8 3 0 0x12 0
  | .olSpanOfs => { RegInfo.writable .engine 0xf00408 0 1 8 .turn 0xffffffff 0x12 0 with refereeOnly := true, shadowed := true }
  | .olModuleId => { RegInfo.writable .referee 0x700000 0 1 8 .boot 0x1fff 0x12 0 with shadowed := true }
  | .olSyncStatus => RegInfo.status .referee 0x700008 0 1 8 0x1fffffff0007 0 0x12 0x1fffff000000
  | .olSyncOffset => RegInfo.status .referee 0x700010 0 1 8 0xffffffff 0 0x12 0
  | .olCapacity => RegInfo.status .referee 0x700018 0 1 8 0xffffff 0 0x12 0
  | .olVacant => RegInfo.status .referee 0x700020 0 4 8 0xffffffffffffffff 0 0x12 0
  | .olPoolTmo => RegInfo.writable .referee 0x700040 0 1 8 .live 0xffff 0x12 0x64
  | .olPoolMap => { RegInfo.writable .referee 0x701000 0 64 0x10 .locked 0x80071fff00000000 0x12 0 with shadowed := true }
  | .olPoolQuads => { RegInfo.writable .referee 0x701008 0 64 0x10 .locked 0xffffffffffffffff 0x12 0xffffffffffffffff with shadowed := true }
  | .mcEccStatus => RegInfo.status .stack 0x801000 0 1 8 0xf 1 0xc 0
  | .mcErase => { RegInfo.writable .stack 0x801008 0 1 8 .live 0x1f 0xc 0x1f with refereeOnly := true, shadowed := true }
  | .mcCeLines => RegInfo.status .stack 0x801010 0 1 8 0xffffffffffffffff 0 0xc 0
  | .mcUeLines => RegInfo.status .stack 0x801018 0 1 8 0xffffffffffffffff 0 0xc 0
  | .mcPoisonWr => RegInfo.status .stack 0x801020 0 1 8 0xffffffffffffffff 0 0xc 0
  | .mcLastCe => RegInfo.status .stack 0x801028 0 1 8 0xfff0fffffffffc00 0 0xc 0
  | .mcLastUe => RegInfo.status .stack 0x801030 0 1 8 0x1f0fffffffffc00 0 0xc 0
  | .mcBktL => RegInfo.status .stack 0x801100 0 18 8 0xffff0000ffff 0 0xc 0
  | .mcZfPending => RegInfo.status .stack 0x801200 0 1 8 0xfffffffff 0 0xc 0
  | .ccEccCe => RegInfo.status .square 0x400020 0 1 8 0xffffffffffffffff 0 0xb 0
  | .ccEccUe => RegInfo.status .square 0x400028 0 1 8 0xffffffffffffffff 0 0xb 0
  | .ccBkt => RegInfo.status .square 0x400030 0 1 8 0xffff0000ffff 0 0xb 0
  | .ccPoisoned => RegInfo.status .square 0x400038 0 1 8 0xffff 0 0xb 0
  | .dmEccCe => RegInfo.status .site 0x600020 0 1 8 0xffffffffffffffff 0 6 0
  | .dmEccUe => RegInfo.status .site 0x600028 0 1 8 0xffffffffffffffff 0 6 0
  | .dmBkt => RegInfo.status .site 0x600200 0 16 8 0xffff0000ffff 0 6 0
  | .rkEccCe => RegInfo.status .site 0x900000 0 1 8 0xffffffffffffffff 0 7 0
  | .rkEccUe => RegInfo.status .site 0x900008 0 1 8 0xffffffffffffffff 0 7 0
  | .rkBkt => RegInfo.status .site 0x900010 0 1 8 0xffff0000ffff 0 7 0
  | .refBkt => RegInfo.status .referee 0x1028 0 1 8 0xffff0000ffff 0 0x10 0
  | .bktCfg => { RegInfo.writable .referee 0x800000 0 6 8 .live 0xffffffffffff 0xc 0 with refereeOnly := true }
  | .mcCeMsiAddr => RegInfo.writable .partition 0x801000 0x10 1 8 .live 0xffffffffffffffff 0xc 0
  | .mcCeMsiData => RegInfo.writable .partition 0x801008 0x10 1 8 .live 0xffffffff 0xc 0
  | .sfFence => { RegInfo.writable .square 0x100000 0 1 8 .locked 0xff 0x18 0 with refereeOnly := true, shadowed := true }
  | .sfShadow => RegInfo.status .square 0x100008 0 1 8 0x8000000000ffffff 0 0x18 0
  | .sfClk => RegInfo.status .square 0x100010 0 1 8 3 0 0x18 0
  | .sfTwinMiss => RegInfo.status .site 0x100018 0 1 8 0xffffffffffffffff 0 0x18 0
  | .sfPipFails => RegInfo.status .site 0x100020 0 1 8 0xffffffffffffffff 0 0x18 0
  | .sfSeqFail => RegInfo.status .site 0x100028 0 1 8 0xffffffffffffffff 0 0x18 0
  | .ptRegions => { RegInfo.writable .partition 0x900000 0x1000 1 8 .locked 0x1ffff 0x13 0 with refereeOnly := true, shadowed := true }
  | .ptStatus => RegInfo.status .partition 0x900008 0x1000 1 8 0xf00f 1 0x13 0
  | .ptViewDigest => RegInfo.status .partition 0x900010 0x1000 1 8 0xffffffffffffffff 0 0x13 0
  | .ptHostsFenced => RegInfo.status .partition 0x900018 0x1000 1 8 0xff 0 0x13 0
  | .ptPeer => RegInfo.status .partition 0x900020 0x1000 8 8 0x8000000000001fff 0 0x13 0
  | .ptFences => RegInfo.status .partition 0x900060 0x1000 1 8 0xffffffffffffffff 0 0x13 0
  | .ptLastFence => RegInfo.status .partition 0x900068 0x1000 1 8 0xffffffffffffffff 0 0x13 0
  | .ptPipSpan => RegInfo.status .partition 0x900070 0x1000 1 8 0xffffffffffffffff 0 0x13 0
  | .refBoot => RegInfo.status .referee 0x1030 0 1 8 0xff000f030f 0 0x10 0x300
  | .refHoldup => RegInfo.status .referee 0x1038 0 1 8 0xffffffffffffffff 0 0x10 0
  | .refFwSvn => RegInfo.status .referee 0x1040 0 1 8 0xff 0 0x10 0
  | .refStraps => { RegInfo.writable .referee 0x1048 0 1 8 .boot 7 0x10 0 with readOnly := 7 }
  | .mcTrainStatus => RegInfo.status .stack 0x801300 0 1 8 0xfffffffff 0 0xc 0
  | .mcRetrains => RegInfo.status .stack 0x801308 0 1 8 0xffffffffffffffff 0 0xc 0
  | .xlRepair => RegInfo.status .square 0xa00018 0 1 8 0xffff 0 0xe 0
  | .thTemp => RegInfo.status .square 0x400 0 1 8 0xffffffff 0 0x15 0
  | .thMax => { RegInfo.writable .square 0x408 0 1 8 .live 0xffff 0x15 0 with clearOnZero := true }
  | .pwStatus => RegInfo.status .referee 0xa00000 0 1 8 0xff 1 0x14 0
  | .pwLimit => { RegInfo.writable .referee 0xa00008 0 1 8 .boot 0xffff 0x14 0 with refereeOnly := true }
  | .pwModule => RegInfo.status .referee 0xa00010 0 1 8 0xffffffffffffffff 0 0x14 0
  | .pwCapEvents => RegInfo.status .referee 0xa00018 0 1 8 0xffffffffffffffff 0 0x14 0
  | .thHot => RegInfo.status .referee 0xa00020 0 1 8 0xffffffff 0 0x15 0
  | .thThrottles => RegInfo.status .referee 0xa00028 0 1 8 0xffffffffffffffff 0 0x15 0
  | .thRth => RegInfo.status .referee 0xa00030 0 1 8 0xffffffffffffffff 0 0x15 0
  | .thCoolant => RegInfo.status .referee 0xa00038 0 1 8 0x7ffffffff 0 0x15 0
  | .thWarnings => RegInfo.status .referee 0xa00040 0 1 8 0xffffffffffffffff 0 0x15 0
  | .pwRgnStatus => RegInfo.status .region 0xa01000 0x40 1 8 0xffffffff001f 1 0x14 0xff0000000000
  | .pwVstep => RegInfo.status .region 0xa01008 0x40 1 8 0xffffffffffffffff 0 0x14 0
  | .pwRgnRead => RegInfo.status .region 0xa01010 0x40 1 8 0xffffffffffff 0 0x14 0
  | .pwOcLimit => { RegInfo.writable .region 0xa01018 0x40 1 8 .live 0xffff 0x14 0 with refereeOnly := true }
  | .pwOcEvents => RegInfo.status .region 0xa01020 0x40 1 8 0xffffffffffffffff 0 0x14 0
  | .pwPartBudget => RegInfo.status .partition 0xa02000 0x100 1 8 0xffff 0 0x14 0
  | .pwPartPower => RegInfo.status .partition 0xa02008 0x100 1 8 0xffffffffffffffff 0 0x14 0
  | .pwDutyTurns => RegInfo.status .partition 0xa02010 0x100 1 8 0xffffffffffffffff 0 0x14 0
  | .evStatus => RegInfo.status .referee 0xb00000 0 1 8 0x3f 0 0 0
  | .evSeq => RegInfo.status .referee 0xb00008 0 1 8 0xffffffff 0 0 0
  | .evOpsec => RegInfo.status .referee 0xb00010 0 1 8 0xffffffff 0 0 0
  | .evPwrcyc => RegInfo.status .referee 0xb00018 0 1 8 0xffffff 0 0 0
  | .evUnflushed => RegInfo.status .referee 0xb00020 0 1 8 0xfffff 0 0 0
  | .evFlushes => RegInfo.status .referee 0xb00028 0 1 8 0xffffffffffffffff 0 0 0
  | .evSuppressed => RegInfo.status .referee 0xb00030 0 1 8 0xffffffffffffffff 0 0 0
  | .evSideLost => RegInfo.status .referee 0xb00038 0 1 8 0xffffffffffffffff 0 0 0
  | .evKeep => RegInfo.status .referee 0xb00040 0 1 8 0xffffffff0000007f 0 0 0
  | .evIntakeLost => RegInfo.status .referee 0xb00048 0 1 8 0xffffffffffffffff 0 0 0
  | .evLost => RegInfo.status .referee 0xb00100 0 7 8 0xffffffffffffffff 0 0 0
  | .dbSession => RegInfo.status .partition 0xc20000 0x100 1 8 0x800f0000ffffffff 0 0x16 0
  | .dbHaltedLo => RegInfo.status .partition 0xc20008 0x100 1 8 0xffffffffffffffff 0 0x16 0
  | .dbHaltedHi => RegInfo.status .partition 0xc20010 0x100 1 8 0xffffffffff 0 0x16 0
  | .dbTraceCtl => RegInfo.status .partition 0xc20018 0x100 1 8 3 0 0x16 0
  | .dbPauses => RegInfo.status .partition 0xc20020 0x100 1 8 0xffffffffffffffff 0 0x16 0
  | .dbIdcode => { RegInfo.writable .service 0xf40000 0 1 8 .boot 0xffffffff 0x16 0 with readOnly := 0xffffffff }
  | .dbJtagStatus => RegInfo.status .service 0xf40008 0 1 8 3 0 0x16 0
  | .dbTraceHead => RegInfo.status .service 0xf40010 0 1 8 0xfff 0 0x16 0
  | .dbTraceLost => RegInfo.status .service 0xf40018 0 1 8 0xffffffffffffffff 0 0x16 0
  | .dbTraceBuf => RegInfo.status .service 0xf80000 0 32768 8 0xffffffffffffffff 0 0x16 0

def RegName.namesPart0 : List RegName :=
  [.mxRowMap0, .mxRowMap1, .refSamLo, .refSamHi, .refSamDigest, .refRsvLo, .refRsvHi, .refRetLo, .refRetHi, .refOutLo, .refOutHi, .refSamGen, .mcHome, .dmSize, .dmBankEn, .dmZeroBusy, .dmRgn, .ccLayout, .ccUnmapped, .ccGenDirty, .ccPubBase, .ccPubLen, .gcNow, .gcFix, .gcStatus, .gcSlew, .gcSet, .xlFieldLat, .xlDieLat, .xlMargin, .tnTurnLen, .tnChgLen, .tnStep, .tnMinStep, .tnSpan, .tnStatus, .tnTurn, .tnStart, .tnOverruns, .tnAborts]
def RegName.namesPart1 : List RegName :=
  [.tnStretches, .tnLastSlip, .tnMaint, .mxModeInit, .mxStatus, .mxFlags, .mxQueue, .mxMacFp4, .mxMacFp6, .mxMacFp8, .mxMacInt4, .mxMacInt8, .mxMacHalf, .mxMacFp32, .mxMacSb3, .mxPasses, .mxGranules, .mxStall, .mxBankStall, .mxQueueStall, .mxHeldStall, .vxStatus, .vxFlags, .vxProgress, .vxOpsEw, .vxOpsTr, .vxOpsCvt, .vxOpsRed, .vxOpsFused, .vxOpsSel, .vxGranules, .vxElements, .vxQueueWait, .vxBankWait, .vxSliceWait, .vxTilesDropped, .sqStatus, .sqTables, .sqNext, .sqCycle]
def RegName.namesPart2 : List RegName :=
  [.sqLate, .sqSlack, .sqMoves, .sqCheckWait, .sqAbandoned, .sqCtr, .sqDmaProg, .sqDmaFlt, .sqBook, .sqMapReq, .sqMapNow, .sqEpoch, .sqPreempt, .sqYields, .bnStatus, .bnTxBytes, .bnRxBytes, .bnDups, .bnStaleArrivals, .bnReplays, .bnFenceDrop, .bnCircWait, .bnPortFull, .bnResetErr, .bnCroute, .bnSlot, .cnStatus, .cnInj, .cnInjWait, .cnTxPkts, .cnRxPkts, .cnFenceDrop, .snTree, .snTimeLat, .snMsgs, .refStatus, .refWdog, .refRestarts, .refLastRestart, .refFwVersion]
def RegName.namesPart3 : List RegName :=
  [.mbRingSq, .mbRingCq, .mbRingCtl, .mbRingProd, .mbRingCons, .mbRingCqProd, .mbRingCqCons, .mbRingMsiAddr, .mbRingMsiData, .mbRingStatus, .stRows, .stLive, .stActive, .stParked, .stDirCap, .stTailsFree, .stOpens, .stParks, .stUnparks, .stFullRefused, .stNotAdv, .stGivenUp, .stTailSaves, .stMigrations, .stBlock, .stPinLend, .stFaults, .stResolved, .stSkipped, .stRecalls, .stCowCopies, .stTierMoves, .ccSealDrop, .stTcHits, .stTcMisses, .stTcWalkReads, .stTcFaults, .stTcInvals, .stSeals, .hdStatus]
def RegName.namesPart4 : List RegName :=
  [.hdBootAddr, .hdClk, .hdPcieCfg, .hdPcieStatus, .hdResets, .hdLostDirty, .hdPrivFaults, .hdMsiDrop, .hdIntxDrop, .hdEccCe, .hdEccUe, .hdBkt, .hdTurn, .hdTurnStart, .hdWhere, .hdMpriv, .hdMtimecmp, .olQstatus, .olRole, .olRtt, .olTxFlits, .olRxFlits, .olCrcErr, .olReplays, .olFecCorr, .olFecUncorr, .olKnockMiss, .olAttempts, .olRetrains, .olLaser, .olSpanOfs, .olModuleId, .olSyncStatus, .olSyncOffset, .olCapacity, .olVacant, .olPoolTmo, .olPoolMap, .olPoolQuads, .mcEccStatus]
def RegName.namesPart5 : List RegName :=
  [.mcErase, .mcCeLines, .mcUeLines, .mcPoisonWr, .mcLastCe, .mcLastUe, .mcBktL, .mcZfPending, .ccEccCe, .ccEccUe, .ccBkt, .ccPoisoned, .dmEccCe, .dmEccUe, .dmBkt, .rkEccCe, .rkEccUe, .rkBkt, .refBkt, .bktCfg, .mcCeMsiAddr, .mcCeMsiData, .sfFence, .sfShadow, .sfClk, .sfTwinMiss, .sfPipFails, .sfSeqFail, .ptRegions, .ptStatus, .ptViewDigest, .ptHostsFenced, .ptPeer, .ptFences, .ptLastFence, .ptPipSpan, .refBoot, .refHoldup, .refFwSvn, .refStraps]
def RegName.namesPart6 : List RegName :=
  [.mcTrainStatus, .mcRetrains, .xlRepair, .thTemp, .thMax, .pwStatus, .pwLimit, .pwModule, .pwCapEvents, .thHot, .thThrottles, .thRth, .thCoolant, .thWarnings, .pwRgnStatus, .pwVstep, .pwRgnRead, .pwOcLimit, .pwOcEvents, .pwPartBudget, .pwPartPower, .pwDutyTurns, .evStatus, .evSeq, .evOpsec, .evPwrcyc, .evUnflushed, .evFlushes, .evSuppressed, .evSideLost, .evKeep, .evIntakeLost, .evLost, .dbSession, .dbHaltedLo, .dbHaltedHi, .dbTraceCtl, .dbPauses, .dbIdcode, .dbJtagStatus]
def RegName.namesPart7 : List RegName :=
  [.dbTraceHead, .dbTraceLost, .dbTraceBuf]

/-- Every register name, in the order of the spec's chapters. -/
def RegName.all : List RegName :=
  RegName.namesPart0 ++ RegName.namesPart1 ++ RegName.namesPart2 ++ RegName.namesPart3 ++ RegName.namesPart4 ++ RegName.namesPart5 ++ RegName.namesPart6 ++ RegName.namesPart7

/-- One register of the device: its name, its instance and its index within the instance. -/
structure RegKey where
  name : RegName
  i : Nat := 0
  j : Nat := 0
  deriving DecidableEq, Repr

/-- A number for each register, distinct for distinct registers: the order the register file is kept in. -/
def RegKey.num (k : RegKey) : Nat := Nat.pair k.name.ctorIdx (Nat.pair k.i k.j)

/-- Reset value of a *_BKT_CFG register: LEAK in ms above CAPACITY (Table 14.1). -/
def bucketDefault : Nat → Word
  | 0 => (1000 <<< 16) + 64
  | 1 => (10000 <<< 16) + 16
  | 2 => (10000 <<< 16) + 16
  | 3 => (60000 <<< 16) + 8
  | 4 => (10000 <<< 16) + 16
  | _ => (60000 <<< 16) + 4

/-- CN_INJ of a square (R230): the interval in panel cycles above the burst. The Referee square's one packet a cycle is interval 1, burst 1
(DEDUCED). -/
def injectionLimit (q : Nat) : Word :=
  match squareKind q with
  | .host _ => 64 * 256 + 16
  | .referee => 256 + 1
  | _ => 512 * 256 + 4

/-- The value a register holds at reset: its row's Reset column, and for MC_HOME and CN_INJ what hardware sets at the place (R48, R230). -/
def RegKey.reset (k : RegKey) : Word :=
  match k.name with
  | .bktCfg => bucketDefault k.j
  | .mcHome => mcHome k.i
  | .cnInj => injectionLimit k.i
  | n => n.info.reset

end Sys2Proof.Machine
end

