-- ==== Sys2Proof/Machine/State.lean ====
section
/-! DEFINITION. The state of the PX-49: plain data, holding every register (the register file), every memory, and every
piece of state the rules give the Referee, the partitions, the dies, the squares, the quads, the recorder and the pins. -/

namespace Sys2Proof.Machine

/-- The reasons a command could stop the block. There are none: every condition the spec describes is a status, an
event, a bus error carried as a status, or an aborted turn, after which the device goes on. -/
inductive Fault where
  deriving DecidableEq, Repr

/-- The reasons a command has no meaning. -/
inductive Refusal where
  /-- Raised by an arm of exec whose command has no meaning yet. Safe: nothing is claimed of it. -/
  | notModelled (mnemonic : String)
  deriving DecidableEq, Repr

/-- The three states of a compute site (R32). -/
inductive SiteState where
  | enabled | reserve | retired
  deriving DecidableEq, Repr

/-- A cached copy of DRAM data, in a general unit (a line of 16 blocks) or on the host side (one 64-byte block): the blocks
modified since it was filled, the poisoned blocks (R388), and its bytes. -/
structure CacheCopy where
  dirty : List Nat
  bad : List Nat
  data : List Byte
  deriving DecidableEq, Repr

/-- One operation of a stream or state command that waits for a changeover (R85, R261, R275). -/
inductive QueuedOp where
  | streamOpen (tenant : BitVec 16) (prio : BitVec 8)
  | streamAppend (handle : Handle) (positions : BitVec 32) (prompt : Word)
  | streamAdvance (handle : Handle) (positions : BitVec 16)
  | streamClose (handle : Handle)
  | streamPark (handle : Handle)
  | streamUnpark (handle : Handle)
  | streamMigrate (handle : Handle) (module : BitVec 16) (part : BitVec 8)
  | streamFork (handle : Handle) (positions : BitVec 32)
  | stateTier (handle : Handle) (first pages : BitVec 32) (tier : BitVec 8)
  | policySet (id : BitVec 16) (value : Word)
  | debugTrace (enable : BitVec 8)
  | bookUnload
  | bookPreempt
  deriving DecidableEq, Repr

/-- A queued operation with the command it completes and the tenant the command acts for. -/
structure Queued where
  cmd : Cmd
  op : QueuedOp
  deriving DecidableEq, Repr

/-- A one-time publish that waits or is under way (R67). -/
structure Publish where
  cmd : Cmd
  base : Nat
  lines : Nat
  toHost : Bool
  deriving DecidableEq, Repr

/-- A stream-table entry (Table 10.1). State codes are those of the table. -/
structure StreamEntry where
  handle : Handle := 0
  part : BitVec 3 := 0
  prio : BitVec 2 := 0
  state : BitVec 3 := 0
  retries : BitVec 2 := 0
  notAdv : Bool := false
  pinned : Bool := false
  far : Bool := false
  displaced : Bool := false
  shared : Bool := false
  tails : Bool := false
  tenant : BitVec 16 := 0
  length : BitVec 32 := 0
  advPending : BitVec 32 := 0
  appPending : BitVec 32 := 0
  parent : Handle := 0
  root : Addr := 0
  lastTurn : Word := 0
  epoch : BitVec 16 := 0
  tailset : BitVec 32 := 0
  seed : Word := 0
  prompt : Addr := 0
  deriving DecidableEq, Repr

/-- An accepted stream.append or stream.advance that has not completed (R277, R278). -/
structure PendingPositions where
  cmd : Cmd
  handle : Handle
  isAppend : Bool
  left : BitVec 32
  prompt : Word
  /-- the turn that played the last position and LENGTH then, while an earlier command of the stream is outstanding -/
  played : Option (Word × BitVec 32) := none
  deriving DecidableEq, Repr

/-- A run of tails given to a stream for one site (R286): site, square of the slice, first tail, count, and the index of the tail set that it
belongs to (Table 10.1). -/
structure TailRun where
  handle : Handle
  site : Nat
  square : Nat
  first : Nat
  count : Nat
  set : Nat := 0
  deriving DecidableEq, Repr

/-- A batch-sheet row with its tail-map ROW (Tables 7.8, R286). -/
structure BatchRow where
  handle : Handle := 0
  pos : BitVec 32 := 0
  new : BitVec 16 := 0
  live : Bool := false
  prefill : Bool := false
  tail : BitVec 32 := 0
  seed : Word := 0
  counter : Word := 0
  slot : BitVec 20 := 0
  prompt : Word := 0
  promptFirst : BitVec 32 := 0
  deriving DecidableEq, Repr

/-- A tier move of one page under way (R307, R308). copied says its copy has finished, to newPage. -/
structure TierMove where
  cmd : Cmd
  handle : Handle
  page : Nat
  tier : BitVec 8
  copied : Bool
  newPage : Nat
  deriving DecidableEq, Repr

/-- A migration that has left its source changeover and is not finished (R296). -/
structure Migration where
  cmd : Cmd
  handle : Handle
  slot : Nat
  module : BitVec 16
  part : BitVec 8
  xid : BitVec 16
  staging : Nat
  newHandle : Handle
  deriving DecidableEq, Repr

/-- A stream arriving by migration (R296): the quad and exchange it came by, or for a move within the module the source
partition and handle; its entry as the source sent it, the row and handle it was given, and whether its copy has ended. -/
structure Arrival where
  quad : Option Nat
  /-- the module it comes from -/
  module : BitVec 13
  xid : BitVec 16
  source : Nat
  handle : Handle
  entry : StreamEntry
  slot : Nat
  newHandle : Handle
  bytes : Nat
  staging : Nat
  /-- the COPY lines received: transfer and line -/
  lines : List (BitVec 16 × BitVec 16)
  copied : Bool
  deriving DecidableEq, Repr

/-- The declarations of a site in a book's SITES section (Table 7.2). -/
structure SiteDecl where
  site : Nat
  banks : BitVec 16
  tableA : BitVec 5
  tableB : BitVec 5
  sheet : BitVec 5
  deriving DecidableEq, Repr

/-- A site's entry in a book's MAP section (Table 7.2). -/
structure MapEntry where
  map : Nat
  site : Nat
  mode : BitVec 3
  qdis : Bool
  moves : Nat
  regions : List Word
  deriving DecidableEq, Repr

/-- The four descriptor tables of a map and site (Table 7.2). -/
structure DescTables where
  map : Nat
  site : Nat
  matrix : List (BitVec 256)
  vector : List (BitVec 256)
  dma : List (BitVec 256)
  oplist : List (BitVec 256)
  deriving DecidableEq, Repr

/-- A move table: its map and site, or for a reshard plan source map × 16 + target map, and its moves. -/
structure MoveTable where
  map : Nat
  site : Nat
  reshard : Bool
  moves : List (BitVec 128)
  crc : BitVec 32
  deriving DecidableEq, Repr

/-- A site's entry in a book's SHEETS section (Table 7.2, R286). -/
structure SheetDecl where
  map : Nat
  site : Nat
  rows : Nat
  masks : Nat
  extents : List (Nat × Nat)
  tails : Nat
  positions : Nat
  holdBudget : Nat
  prefill : Bool
  deriving DecidableEq, Repr

/-- One entry of a circuit plan (Table 8.5). -/
structure Circuit where
  map : Nat
  slots : BitVec 64
  yThenX : Bool
  dest : BitVec 8
  src : BitVec 8
  deriving DecidableEq, Repr

/-- A book as read from its image (R178, R179). -/
structure Book where
  crc : Word
  version : BitVec 16
  traceSlots : Bool
  span : Bool
  mapCount : Nat
  minStep : BitVec 3
  modules : Nat
  samDigest : Word
  regions : BitVec 16
  chgMin : Nat
  turnMin : Nat
  turnMax : Nat
  rookBudget : Nat
  sites : List SiteDecl
  entries : List MapEntry
  descs : List DescTables
  tables : List MoveTable
  reshardDescs : List DescTables
  circuits : List Circuit
  sheets : List SheetDecl
  rook : List Byte
  deriving DecidableEq, Repr

/-- A book load between its verification and its completion (R206, R376). -/
structure Loading where
  cmd : Cmd
  book : Book
  image : Nat
  installed : Bool
  heard : List Nat
  firstFail : Option (BitVec 8 × BitVec 13)
  reload : Bool
  deriving DecidableEq, Repr

/-- A map switch under way (R202): target, whether a reshard turn is playing, and the sites whose copy is complete. -/
structure Switch where
  target : Nat
  reshardNext : Bool
  played : Bool
  copied : List Nat
  deriving DecidableEq, Repr

/-- Where a partition stands within its turn, beside PHASE (R80, R85, R94). -/
inductive TurnStage where
  /-- no turns -/
  | stopped
  /-- play, slip or debug pause -/
  | play
  /-- a changeover has begun and its work has not -/
  | begun
  /-- the 500-tick drain of an aborted turn -/
  | draining
  /-- offset 0 to 16 done -/
  | started
  /-- context-cache work done, rooks at work -/
  | worked
  /-- every rook ready at the barrier; play begins at the next play tick -/
  | ready
  deriving DecidableEq, Repr

/-- The grants of one user page (R265). -/
structure Grant where
  doorbells : Bool := false
  counters : Bool := false
  logView : Bool := false
  ringMask : BitVec 16 := 0
  tenant : BitVec 16 := 0
  deriving DecidableEq, Repr

/-- An open debug challenge (R488). -/
structure Challenge where
  bytes : List Byte
  ring : Nat
  tick : Word
  deriving DecidableEq, Repr

/-- What a partition holds beside its registers. -/
structure Part where
  stage : TurnStage := .stopped
  /-- the planned end of play, and the play tick that the barrier has set -/
  boundary : Word := 0
  nextPlay : Option Word := none
  chgStart : Word := 0
  /-- length of the changeover in progress, and the tick its offsets count from -/
  chgNow : Nat := 0
  chgBase : Word := 0
  p : Nat := 0
  /-- the next play is the first since turns started or resumed, so no turn ends as it begins -/
  startsFresh : Bool := false
  /-- heat has lowered the step, which recovers one step a changeover (R464) -/
  recovering : Bool := false
  /-- steps that Tolerabor still owes downward for a region at its ceiling (R457) -/
  stepDrops : Nat := 0
  /-- cause of the abort of the turn that is ending, in the codes of OUTCOME (Table 19.1) -/
  abortCause : Nat := 0
  aborted : Bool := false
  overran : Bool := false
  holdTurn : Bool := false
  maintTurn : Bool := false
  reshardTurn : Bool := false
  emptyNext : Bool := false
  emptyTurn : Bool := false
  hadHalt : Bool := false
  /-- the tick since which some rook of the partition has been halted (R493) -/
  haltSince : Option Word := none
  pausePending : Bool := false
  stopNext : Bool := false
  overrunsInRow : Nat := 0
  reshardAborts : Nat := 0
  lateRooks : List Nat := []
  uncorrectable : Bool := false
  maintNext : Bool := false
  /-- DRAM retrains that wait for a maintenance turn, by stack and channel (R449) -/
  retrains : List (Nat × Nat) := []
  maintHistory : List Bool := []
  /-- which of the last 99 turns played a prefill map, newest first (Table 9.4) -/
  prefillHistory : List Bool := []
  /-- the map that the staged batch was composed for (R284) -/
  stagedMap : Nat := 0
  /-- lines of the book area in use (R206) -/
  bookLines : Nat := 0
  dutyFlip : Bool := false
  stepPending : Option (BitVec 3) := none
  publishes : List Publish := []
  queue : List Queued := []
  pendingPositions : List PendingPositions := []
  /-- policy values in effect and pending, by ID -/
  policy : List (Nat × Word) := []
  policyNext : List (Nat × Word) := []
  /-- batch in play, and batch staged with its stamp: the slice of each site (R197, R245) -/
  batch : List (Nat × List BatchRow) := []
  staged : Option (Word × List (Nat × List BatchRow)) := none
  /-- the parked directory (R271, R292): entries of parked streams and host rows of displaced streams, by handle -/
  parked : List (Nat × StreamEntry) := []
  forwards : List (Nat × Nat) := []
  tailRuns : List TailRun := []
  /-- tails saved to tail-save lines (R287): handle, site, tail of the run, its 2,048 bytes -/
  savedTails : List (Handle × Nat × Nat × List Byte) := []
  /-- tables of closed parked streams whose pages wait for room among the seals (R320) -/
  releases : List (Handle × Nat) := []
  tierMoves : List TierMove := []
  migrations : List Migration := []
  /-- failed migrations whose streams become IDLE at the next changeover (R297) -/
  migrateFailed : List Handle := []
  arrivals : List Arrival := []
  nextXid : BitVec 16 := 0
  /-- publishes and queued operations accepted before the changeover in progress began (R67, R261) -/
  pubsDue : Nat := 0
  opsDue : Nat := 0
  /-- a load or unload was accepted before it began (R206, R261) -/
  bookDue : Bool := false
  /-- its boundary has been taken: T fields are latched (R11) -/
  opened : Bool := false
  /-- the planned end of play of this turn has passed (R100) -/
  pastEnd : Bool := false
  /-- the partition reset in progress (R443, R444): its command, whether it is a full reset, and what its tests find -/
  resetCmd : Option (Cmd × Bool × TestFindings) := none
  /-- commands that complete once no bank of the partition is being zeroed (R53): opcode and turn -/
  zeroWaits : List (Cmd × BitVec 16 × Word) := []
  book : Option Book := none
  bookImage : Nat := 0
  loading : Option Loading := none
  unload : Option Cmd := none
  preemptCmds : List Cmd := []
  switch : Option Switch := none
  traceNext : Option (BitVec 2) := none
  grants : List (Nat × Grant) := []
  sessionOpened : Option (Nat × Word) := none
  challenge : Option Challenge := none
  wrongResponses : Nat := 0
  lockout : Bool := false
  counterPage : List (Nat × Word) := []
  snapshotGen : Word := 0
  members : List (Nat × Nat) := []
  spanChanges : List (Word × Word × Word × BitVec 3 × BitVec 8 × Bool) := []
  doneStamps : List (Nat × Word) := []
  twinTurns : List (Nat × Word) := []
  liveRows : Nat := 0
  notAdvanced : Nat := 0
  sharers : List (Nat × Nat) := []
  /-- the window of the live view (R483): its bytes that are not zero, the records whole in it (offset, size, SEQ, oldest
  first), and where the next one goes -/
  viewMem : List Host.Cell := []
  viewRecs : List (Nat × Nat × BitVec 32) := []
  viewNext : Nat := 0
  viewNewest : BitVec 32 := 0
  viewDropped : Word := 0
  viewSuppressed : Word := 0
  deriving DecidableEq, Repr

/-- What a ring holds beside its registers (R250 to R257): outstanding commands, and the state of its MSI. -/
structure Ring where
  outstanding : Nat := 0
  closing : Bool := false
  lastMsi : Option Word := none
  msiOwed : Bool := false
  deriving DecidableEq, Repr

/-- The state of an accumulator buffer of a cell (R114 to R118), by buffer × 256 + cell. -/
inductive BufState where
  /-- released, reading +0 -/
  | empty
  /-- holds results of a pass that no drain has taken: binary32, or int32 words -/
  | undrained (integer : Bool)
  /-- named by a held drain and not yet released -/
  | held
  deriving DecidableEq, Repr

/-- A tile in a tile queue (R115): array, cell, buffer, the drain's move index, and 1,024 words. -/
structure Tile where
  array : Nat
  cell : Nat
  buf : Bool
  label : BitVec 18
  words : List (BitVec 32)
  deriving DecidableEq, Repr

/-- The units a move may hold (Table 7.3). -/
inductive MoveUnit where
  | sequencer | matrix | vector | dma (chan : Nat) | signature
  deriving DecidableEq, Repr

/-- A move in flight: itself, its index in the table, its completion counter, its unit and slices, and the register that counts
such moves at completion. waits says that it has not been performed to its end: what it waits for has not come (R117, R118,
R149, R167, R168); started, that it has begun, in a ganging mode that it keeps (R170), and stands before a row, with the
translations it has taken (R155). stopped says that a translation fault holds it; a SEND completes on the SACK of its transfer
(R216). -/
structure Flight where
  index : BitVec 18
  cdone : BitVec 8
  unit : MoveUnit
  move : Instr
  slices : List Nat := []
  counter : Option RegName := none
  waits : Bool := false
  started : Bool := false
  mode : Nat := 0
  row : Nat := 0
  kept : List (Handle × Nat × Word) := []
  skips : List Handle := []
  stopped : Bool := false
  sendXid : Option (BitVec 16) := none
  deriving DecidableEq, Repr

/-- A CHECK that holds issue (R192, R193): its index, START and completion counter, the counter and count it waits for, the grace, the
die cycle at which the grace ends and the one at which the wait began. -/
structure CheckWait where
  index : BitVec 18
  start : BitVec 24
  cdone : BitVec 8
  ctr : BitVec 8
  count : BitVec 24
  grace : BitVec 24
  deadline : Word
  since : Word
  deriving DecidableEq, Repr

/-- A state-path operation stopped by a translation fault (R317 to R319): its move, the row it stopped at, the fault, the
handles skipped, and the translations it keeps: handle, page, leaf. -/
structure Stopped where
  move : Instr
  row : Nat
  code : BitVec 4
  handle : Handle
  line : BitVec 32
  skips : List Handle
  kept : List (Handle × Nat × Word)
  deriving DecidableEq, Repr

/-- An inbound SEND transfer (R216): source square, XID, lines, and the line indexes held. -/
structure Inbound where
  src : BitVec 8
  xid : BitVec 16
  lines : BitVec 16
  seqs : List (BitVec 16)
  counted : Bool
  deriving DecidableEq, Repr

/-- What a compute die and its rook hold beside their registers. -/
structure Die where
  /-- the header switches are closed; the die and rook are held in reset; the die is fenced (R421) -/
  powered : Bool := false
  inReset : Bool := true
  fenced : Bool := false
  /-- the 1,024 words of a cell's buffer, row by row, by buffer × 256 + cell; unlisted words are +0 -/
  accum : List (Nat × List (BitVec 32)) := []
  bufs : List (Nat × BufState) := []
  tiles : List (Nat × List Tile) := []
  flights : List Flight := []
  check : Option CheckWait := none
  lastStart : Option (BitVec 24) := none
  /-- the die cycle in which the last move issued (R190) -/
  lastCycle : Option Word := none
  /-- a YIELD has stopped issue, and the moves in flight are not at rest yet (R196) -/
  yielding : Bool := false
  issuedCrc : BitVec 32 := 0xFFFFFFFF
  /-- the table in force: its length and the CRC-32C of its section; the standby copy -/
  tableLen : Nat := 0
  tableCrc : BitVec 32 := 0
  standbyReady : Bool := false
  seqFailed : Bool := false
  playing : Bool := false
  rookReady : Bool := false
  /-- stopped operations, by DMA channel, or 8 + first slice for a vector move -/
  stopped : List (Nat × Stopped) := []
  notAdvanced : List Handle := []
  holdTime : Word := 0
  holdSince : Option Word := none
  arrivalTurn : BitVec 16 := 0
  arrivalEpoch : BitVec 16 := 0
  inbound : List Inbound := []
  nextXid : BitVec 16 := 0
  halted : Bool := false
  haltPending : Bool := false
  batchCopy : List BatchRow := []
  /-- the rook met uncorrectable data in the rook window (Table 14.2) -/
  rookFault : Bool := false
  tailMap : List TailRun := []
  lastPip : Word := 0
  pipNext : Bool := false
  dm : List (Nat × BitVec 32) := []
  traceQueue : List (List Byte) := []
  traceLost : Word := 0
  /-- physical cells known bad by self-test, by row and column -/
  badCells : List (Nat × Nat) := []
  deriving DecidableEq, Repr

/-- An entry of a square's leaf cache or walk cache (R309). level 3 is a leaf. -/
structure Translation where
  handle : Handle
  level : Nat
  index : Nat
  entry : Word
  epoch : BitVec 16
  deriving DecidableEq, Repr

/-- What a square holds beside its registers. -/
structure Square where
  leaves : List Translation := []
  walks : List Translation := []
  /-- replay buffers of the four outgoing links and two lanes: packets sent and not acknowledged -/
  replay : List (Nat × List BnetPacket) := []
  /-- packets that failed at a link, with how often each has in a row (R214) -/
  linkFails : List (Nat × BnetPacket × Nat) := []
  /-- negative acknowledgements on their way to the sender at the other end of a link -/
  naks : List (Nat × BnetPacket) := []
  /-- buffers of the five inputs for the six channels (R226), and the buffer each output serves next -/
  bnetBufs : List (Nat × List BnetPacket) := []
  bnetNext : List (Nat × Nat) := []
  /-- packets that wait at the local port, and the ingress buffer of an optical square (R227) -/
  bnetHeld : List BnetPacket := []
  ingress : List BnetPacket := []
  circuitQueues : List (Nat × List BnetPacket) := []
  /-- SEND lines that wait for a tracking entry of the die (R217) -/
  sendWait : List BnetPacket := []
  /-- lines received: source, XID, SEQ (R216) -/
  seen : List (BitVec 8 × BitVec 16 × BitVec 16) := []
  /-- buffers of the five C-net inputs for requests and responses, packets on the links, and the buffer each output serves next (R229) -/
  cnetBufs : List (Nat × List CnetPacket) := []
  cnetWire : List (Nat × List CnetPacket) := []
  cnetNext : List (Nat × Nat) := []
  /-- responses that wait for room, requests that wait at injection, and when the token bucket is full again, in panel cycles (R230) -/
  cnetAnswers : List CnetPacket := []
  cnetHeld : List CnetPacket := []
  injDue : Nat := 0
  /-- packets and messages that have left toward a neighbour or the local port -/
  bnetOut : List BnetPacket := []
  cnetOut : List CnetPacket := []
  /-- S-net messages sent, each with its link -/
  snetOut : List (Nat × BitVec 64) := []
  snDone : List Nat := []
  snReady : List Nat := []
  snYielded : List Nat := []
  /-- sealed pages (R320): page number, turn of the seal, whether it has been zero-filled since -/
  sealed : List (Nat × Word × Bool) := []
  deriving DecidableEq, Repr

/-- What a host die holds beside its registers. -/
structure HostDie where
  /-- pending identities by interrupt-file number: core × 9, then 0 for M, 1 for S, 2 to 8 for guest files -/
  pending : List (Nat × List Nat) := []
  /-- MTIP, by core -/
  mtip : List Nat := []
  probeMisses : Nat := 0
  probeOpen : Bool := false
  wakes : Word := 0
  portInReset : Bool := true
  /-- LR reservations of the harts: core and block (R330) -/
  reservations : List (Nat × Nat) := []
  /-- bytes of the IOMMU's register page, as last written (Table 12.6) -/
  iommu : List Host.Cell := []
  deriving DecidableEq, Repr

/-- What a quad holds beside its registers (R351 to R372). -/
structure Quad where
  replay : List Flit := []
  nextSeq : BitVec 16 := 0
  expected : BitVec 16 := 0
  lastAck : BitVec 16 := 0xFFFF
  retrySent : Bool := false
  failedReplays : Nat := 0
  credits : List (Nat × BitVec 16) := []
  freed : List (Nat × BitVec 8) := []
  partnerFreed : List (Nat × BitVec 8) := []
  reassembly : List (Nat × List Byte) := []
  outFlits : List Flit := []
  outMsgs : List LinkMsg := []
  /-- those of them that came by circuit, outside the port class (R227) -/
  circMsgs : List LinkMsg := []
  knockCount : BitVec 32 := 0
  windowOpen : Bool := false
  misses : Nat := 0
  hellos : Nat := 0
  locked : Bool := false
  /-- the training under way began from DOWN (Table 13.7: OL_RETRAINS) -/
  fromDown : Bool := false
  lastHelloStamp : Word := 0
  lastHelloArrival : Word := 0
  partnerRole : BitVec 2 := 0
  peerLost : Bool := false
  /-- VL0 goes before VL1 at the next choice between the two (R356) -/
  requestNext : Bool := false
  retrainCmds : List Cmd := []
  maintWanted : Bool := false
  deriving DecidableEq, Repr

/-- A pool transfer line that waits for its answer (R362). -/
structure PoolLine where
  part : Nat
  xid : BitVec 16
  seq : BitVec 16
  addr : Nat
  isWrite : Bool
  retried : Bool
  data : List Byte
  handle : Handle
  page : Nat
  deriving DecidableEq, Repr

/-- A record of the event recorder (Table 18.1), with its flush mark. -/
structure Record where
  report : Report
  seq : BitVec 32
  opsec : BitVec 32
  pwrcyc : BitVec 24
  flushed : Bool
  deriving DecidableEq, Repr

/-- An open rate window (R480). -/
structure RateWindow where
  code : BitVec 16
  part : BitVec 4
  count : Nat
  suppressed : Nat
  highest : Severity
  firstTick : Word
  lastTick : Word
  deriving DecidableEq, Repr

/-- The event recorder beside its registers (R470 to R487). -/
structure Recorder where
  ring : List Record := []
  /-- segments 2 to 1023 of the log area, oldest first -/
  log : List (List Record) := []
  keep : List Record := []
  keepMirror : List Record := []
  side : List Record := []
  /-- hardware SAFETY records in the must-keep area that Tolerabor has not numbered yet (R479) -/
  unnumbered : Nat := 0
  intake : List Report := []
  /-- reports lost at intake in this second of OPSEC (R482) -/
  intakeLostSecond : Nat := 0
  windows : List RateWindow := []
  limits : List (Nat × Nat) := []
  frozenBy : Option CmdPath := none
  flushDue : Bool := false
  flushing : Bool := false
  /-- the SEQs that the flush in progress writes -/
  flushSeqs : List (BitVec 32) := []
  flushRetry : Bool := false
  flashLost : Word := 0
  keepFullReported : Bool := false
  opsec : BitVec 32 := 0
  pwrcyc : BitVec 24 := 0
  nextSeq : BitVec 32 := 1
  /-- the log header: the last SEQ, OPSEC and PWRCYC of the last flush, and the unflushed count of the last power-fail flush (R474) -/
  headerSeq : BitVec 32 := 0
  headerOpsec : BitVec 32 := 0
  headerPwrcyc : BitVec 24 := 0
  headerUnflushed : Nat := 0
  deriving DecidableEq, Repr

/-- An image slot of the boot flash (R432). -/
structure ImageSlot where
  image : Option ImageInfo := none
  deriving DecidableEq, Repr

/-- The records kept in the boot flash (Table 16.2). -/
structure Flash where
  sites : List (Nat × SiteState) := []
  /-- pending site-state changes (R40) -/
  sitesNext : List (Nat × SiteState) := []
  moduleId : BitVec 13 := 0x1FFF
  roles : List (Nat × BitVec 2) := []
  /-- the partition record: number, regions, HEADLESS (R404) -/
  partitions : List (Nat × BitVec 16 × Bool) := [(0, 0xFFFF, false)]
  erased : List (Nat × Nat) := []
  slotA : ImageSlot := {}
  slotB : ImageSlot := {}
  preferB : Bool := false
  lastReady : Option Bool := none
  cooling : List (Nat × Word) := []
  /-- the baseline of thermal resistance that Tolerabor has learnt, in µK/W; 0 for none (R467) -/
  learnt : BitVec 32 := 0
  svn : BitVec 8 := 0
  samGen : BitVec 32 := 0
  deriving DecidableEq, Repr

/-- The pins the spec names (Table 20.2), those that carry state of the device's own. -/
structure Pins where
  resetN : Bool := true
  pwrFailN : Bool := true
  alertN : Bool := true
  thermTripN : Bool := true
  heartbeat : Bool := false
  holdTest : Bool := false
  enA : List Nat := []
  enC : List Nat := []
  deriving DecidableEq, Repr

/-- An entry of the command journal (R246): the command and its opcode, whether its operation has reached the hardware, and the CRC-32C over
these. -/
structure JournalEntry where
  cmd : Cmd
  opcode : BitVec 16
  reached : Bool
  crc : BitVec 32
  deriving DecidableEq, Repr

/-- The Referee beside its registers (R241 to R247). -/
structure Referee where
  restartTicks : List Word := []
  lastToggle : Word := 0
  lastWdog : Word := 0
  wdogWritten : Bool := false
  runningB : Bool := false
  /-- commands accepted and not completed (R246) -/
  journal : List JournalEntry := []
  /-- completions that wait for the end of a warm restart: command, opcode, status, turn, result (R246) -/
  held : List (Cmd × BitVec 16 × BitVec 8 × Option Word × List Byte) := []
  /-- completions and messages sent on paths that are not rings -/
  bmcOut : List (List Byte) := []
  pldmOut : List (BitVec 8 × BitVec 8) := []
  /-- a cold start that has stopped at a step and may go on: what its tests find (R433, R435) -/
  startup : Option ColdStartInputs := none
  deriving DecidableEq, Repr

/-- Time, slew and synchronisation beside the registers (R70 to R74, R98, R367 to R369). -/
structure Clock where
  counter : Word := 0
  /-- slew still to be used up, in ticks -/
  slew : Int := 0
  /-- game-clock copies that differ from the counter, by square, and the corrections under way (R71) -/
  offsets : List (Nat × Int) := []
  fixing : List (Nat × Int) := []
  syncOffsets : List Int := []
  goodOffsets : Nat := 0
  announce : List (Nat × BitVec 16 × BitVec 8) := []
  csyncT1 : Word := 0
  running : Bool := false
  deriving DecidableEq, Repr

/-- Power and cooling beside the registers (R452 to R468). -/
structure Power where
  /-- regions whose header switches are held open (R413) -/
  held : List Nat := []
  railsIn : List Nat := []
  railsCIn : List Nat := []
  /-- regions whose signals the isolation clamps of other regions let pass (R407, R436): their clamps are open -/
  clampsOpen : List Nat := []
  current : List (Nat × BitVec 16) := []
  /-- regions whose setpoint lies half a millivolt above VC_SET, which the 2.5 mV step leaves (Table 17.2) -/
  halfMv : List Nat := []
  /-- the VH setpoint of each host die in half millivolts, which no register shows (R457, Table 17.1); 0 before step 4 of the start-up -/
  vhSet : List (Nat × Nat) := []
  /-- the tick at which the supply of a host die came into its window (R509) -/
  vhSince : List (Nat × Word) := []
  hostClockCap : List (Nat × BitVec 6) := []
  /-- owners that throttle, with the tick of their last reading at or above 92.0 °C (R464): a partition p, 100 + a host die, 200 + an
  unassigned region -/
  throttled : List (Nat × Word) := []
  coolSamples : Nat := 0
  coolSum : Nat := 0
  overE : Nat := 0
  overInlet : Nat := 0
  overFlow : Nat := 0
  /-- reads in a row that the inlet and the flow sensor did not answer (R468) -/
  noInlet : Nat := 0
  noFlow : Nat := 0
  clearFor : Nat := 0
  deriving DecidableEq, Repr

/-- The TAP and boundary scan (R501, R502). -/
structure Jtag where
  instr : TapInstr := .bypass
  heldInstr : Option TapInstr := none
  challenge : List Byte := []
  tick : Word := 0
  deriving DecidableEq, Repr

/-- What went back to the requester of the last access: its status (Table 9.10), its data, and whether a hart or rook took
an access fault. The model's own record of the response. -/
structure Answer where
  status : BitVec 8 := 0
  data : List Byte := []
  fault : Bool := false
  deriving DecidableEq, Repr

/-- The state of the PX-49. -/
structure State where
  /-- the commands that wait, first in first out -/
  pending : List Instr := []
  /-- the register file: the values last written, and the values T fields have in effect -/
  regs : List (RegKey × Word) := []
  latched : List (RegKey × Word) := []
  /-- the second copies of the registers of Table 15.3 -/
  shadow : List (RegKey × Word) := []
  /-- the second copies of the latched values of T fields (R419) -/
  shadowLatched : List (RegKey × Word) := []
  /-- DRAM, pinned units, die memories and rook pads, by physical address -/
  mem : List Host.Cell := []
  /-- compute-side copies in general units, by line number -/
  general : List (Nat × CacheCopy) := []
  /-- sectors of the host system caches, by block number -/
  hsc : List (Nat × CacheCopy) := []
  /-- blocks in the L1 and L2 of a host die, by pair of die and block number -/
  hartBlocks : List (Nat × CacheCopy) := []
  /-- poisoned 64-byte blocks -/
  poison : List Nat := []
  /-- the tick at which the bucket of a layer last overflowed, by 18 × stack + layer (R385) -/
  overflows : List (Nat × Word) := []
  /-- tails resident in tail units: bytes that are not zero, by square, tail and byte -/
  tailMem : List Host.Cell := []
  /-- released DRAM lines queued for zero-fill: ranges of a first line and a count -/
  fills : List (Nat × Nat) := []
  filledRegions : List Nat := []
  rows : List (Nat × StreamEntry) := []
  generations : List (Nat × BitVec 12) := []
  parts : List (Nat × Part) := []
  rings : List (Nat × Ring) := []
  dies : List (Nat × Die) := []
  squares : List (Nat × Square) := []
  hosts : List (Nat × HostDie) := []
  quads : List (Nat × Quad) := []
  poolLines : List PoolLine := []
  exchanges : List (BitVec 13 × Nat) := []
  /-- E2E_KNOCKs missed in a row, by module (R366) -/
  e2eMisses : List (Nat × Nat) := []
  fencedModules : List (BitVec 13) := []
  clock : Clock := {}
  referee : Referee := {}
  recorder : Recorder := {}
  flash : Flash := {}
  pins : Pins := {}
  power : Power := {}
  jtag : Jtag := {}
  /-- supply regions barred from partition.form until a device reset: a crossing of theirs failed calibration, or a shadow of an
  unassigned square differed (R401, R418) -/
  barred : List Nat := []
  /-- the response to the last access -/
  answer : Answer := {}
  /-- the model's own counter of free values drawn (Config) -/
  fresh : Nat := 0
  deriving DecidableEq, Repr

/-- The machine right after reset: every register at its reset value, nothing listed in any memory, no command waiting,
every unit at the values above. Start-up is the command COLD_START. -/
def State.reset : State := {}

end Sys2Proof.Machine
end

