-- ==== Sys2Proof/Config.lean ====
section
/-! DEFINITION. What one device fixes and what the spec leaves open. A constant here has no body: nothing can be proved
of its value, so a claim holds whatever the value is. -/

namespace Sys2Proof

/-- The ordering variants of Table 0.1. -/
inductive Variant where
  | x15 | s12 | e10
  deriving DecidableEq, Repr, Inhabited

/-- The variant fused into the module (R1). -/
opaque Config.variant : Variant

/-- Code of the variant in the result of device.info (Table 9.11). -/
def Variant.code : Variant → Nat
  | .x15 => 0 | .s12 => 1 | .e10 => 2

/-- Fastest compute step of a variant, as a TN_STEP code (Table 0.1). -/
def Variant.fusedStep : Variant → Nat
  | .x15 => 0 | .s12 => 1 | .e10 => 3

/-- Module power limit of a variant in W (Table 0.1). -/
def Variant.powerLimit : Variant → Nat
  | .x15 => 15000 | .s12 => 12500 | .e10 => 10000

/-- A free 64-bit value, one for each number drawn from State.fresh. -/
opaque Config.freeWord : Nat → Word

/-- The FREE row that Tolerabor takes where several are FREE (R291 names none). -/
opaque Config.pickRow : Nat → Nat

/-- A free choice between two outcomes that a rule allows (R69, R313). -/
opaque Config.freeBool : Nat → Bool

/-- Which of the binary32 values within 2 ulp of the exact one EXP, LOG, RSQRT, TANH and SIGMOID give (R159: a fixed method that is not
given), by function number and operand: its place among them. -/
opaque Config.transcendental : Nat → BitVec 32 → Nat

/-- The SEED that a stream.open gives (R280: a fixed function of the handle and the tick that is not given). -/
opaque Config.seed : Handle → Word → Word

/-- The fields of a book's SITES, MAP, DESCRIPTORS and SHEETS sections. Table 7.2 says what each section holds and not where
its fields lie; none is what a section that cannot be read gives. -/
opaque Config.bookSites : List Byte → Option (List Machine.SiteDecl)
opaque Config.bookMap : List Byte → Option (List Machine.MapEntry)
opaque Config.bookDescriptors : List Byte → Option (List Machine.DescTables)
opaque Config.bookReshardDescriptors : List Byte → Option (List Machine.DescTables)
opaque Config.bookTables : List Byte → Option (List Machine.MoveTable)
opaque Config.bookSheets : List Byte → Option (List Machine.SheetDecl)

/-- Where the mask sheet of a site begins in its SHEET region (Table 7.2 names the SHEETS section's extents and R199 the sheet,
neither its place). -/
opaque Config.maskSheet : Nat → Nat

/-- Where Tolerabor keeps line k of a partition's book area (R206), and where the slice of a site lies in the staging area (R197): DRAM addresses
that the spec does not give. -/
opaque Config.bookArea : Nat → Nat → Nat
opaque Config.stagingArea : Nat → Nat → Nat

/-- Where the record of a parked stream lies in the DRAM area that Tolerabor owns (R292), by partition and handle. -/
opaque Config.parkedRecord : Nat → Handle → Nat

/-- Where a site's copy of its slice begins in its SHEET region (R197 names the copy and not its place). -/
opaque Config.sliceCopy : Nat → Nat

/-- The verdict of the boot ROM's checks on an image (SHA-384 and ECDSA P-384, R432, R434): what it reads from the
image's bytes. -/
opaque Config.image : List Byte → Option ImageInfo

/-- The challenge bytes that the device draws (R488, R501). -/
opaque Config.challenge : Nat → List Byte

/-- Whether a response answers a challenge (R488, R501: an HMAC under the debug key). -/
opaque Config.responseGood : List Byte → BitVec 384 → Bool

/-- The device address that the IOMMU of a host die gives an inbound PCIe address (R340: the standard's tables, which the
spec does not restate), or none for a fault. -/
opaque Config.iommu : Nat → Addr → Option Addr

/-- DB_IDCODE (R501 gives the register; its version and part number fields are set by HW). -/
opaque Config.idcode : BitVec 32

end Sys2Proof
end

