-- ==== Sys2Proof/Machine/Sparse.lean ====
section
/-! DEFINITION. Sparse data by key: a list of key and value pairs in one canonical form, strictly rising in the number of
their keys and holding no value equal to what an unlisted key reads as. Memory, the register file and every numbered
unit of the device are held this way, so that equal contents are equal data. -/

namespace Sys2Proof.Sparse

/-- The value at a key: the listed one, or d where the key is not listed. -/
def get {K V : Type} (num : K → Nat) (d : V) : List (K × V) → K → V
  | [], _ => d
  | (k', v) :: m, k => if num k' = num k then v else get num d m k

/-- Put a pair into its place, over any pair of the same key. -/
def put {K V : Type} (num : K → Nat) : List (K × V) → K → V → List (K × V)
  | [], k, v => [(k, v)]
  | (k', v') :: m, k, v =>
    if num k < num k' then (k, v) :: (k', v') :: m
    else if num k = num k' then (k, v) :: m
    else (k', v') :: put num m k v

/-- Drop every pair of a key. -/
def drop {K V : Type} (num : K → Nat) : List (K × V) → K → List (K × V)
  | [], _ => []
  | (k', v') :: m, k => if num k' = num k then drop num m k else (k', v') :: drop num m k

/-- Write a value at a key and keep the canonical form: writing what an unlisted key reads as removes the pair. -/
def set {K V : Type} [DecidableEq V] (num : K → Nat) (d : V) (m : List (K × V)) (k : K) (v : V) : List (K × V) :=
  if v = d then drop num m k else put num m k v

/-- The keys rise strictly in number. -/
def rising {K V : Type} (num : K → Nat) : List (K × V) → Bool
  | [] => true
  | [_] => true
  | (k, _) :: (k', v') :: m => decide (num k < num k') && rising num ((k', v') :: m)

/-- The canonical form: keys rise strictly, and no pair holds the value an unlisted key reads as. -/
def wf {K V : Type} [DecidableEq V] (num : K → Nat) (d : K → V) (m : List (K × V)) : Bool :=
  rising num m && m.all (fun p => decide (p.2 ≠ d p.1))

/-- get, set and drop for keys that are numbers. -/
def nget {V : Type} (d : V) (m : List (Nat × V)) (k : Nat) : V := get id d m k

def nset {V : Type} [DecidableEq V] (d : V) (m : List (Nat × V)) (k : Nat) (v : V) : List (Nat × V) := set id d m k v

/-- The value listed at a number, if any. -/
def nfind {V : Type} : List (Nat × V) → Nat → Option V
  | [], _ => none
  | (k', v) :: m, k => if k' = k then some v else nfind m k

/-- List a value at a number, over any listed there. -/
def nput {V : Type} (m : List (Nat × V)) (k : Nat) (v : V) : List (Nat × V) := put id m k v

/-- Drop a number. -/
def ndrop {V : Type} (m : List (Nat × V)) (k : Nat) : List (Nat × V) := drop id m k

/-- Insert into a sorted list of numbers with no repeats. -/
def insertNat : List Nat → Nat → List Nat
  | [], n => [n]
  | a :: l, n => if n < a then n :: a :: l else if n = a then a :: l else a :: insertNat l n

end Sys2Proof.Sparse
end

