-- ==== Sys2Proof/Machine/Ops.lean ====
section
/-! DEFINITION. The named operations over State that every command uses: the register file, the numbered units, the
ownership of squares, the clock, free values and bytes of memory. -/

namespace Sys2Proof.Machine

/-- The status codes every chapter shares (R263, Table 9.10). -/
inductive Status where
  | ok | busy | notPermitted | badArgument | streamTableFull | noSuchStream | staleHandle | mapMismatch | bookCorrupt
  | turnOverrun | turnAborted | lateData | peerFenced | partitionFenced | linkVacant | holdupLow | uncorrectable
  deriving DecidableEq, Repr

/-- The 8-bit encoding of a status (Table 9.10). -/
def Status.code : Status → Nat
  | .ok => 0x00 | .busy => 0x01 | .notPermitted => 0x02 | .badArgument => 0x03 | .streamTableFull => 0x10
  | .noSuchStream => 0x11 | .staleHandle => 0x12 | .mapMismatch => 0x20 | .bookCorrupt => 0x21 | .turnOverrun => 0x30
  | .turnAborted => 0x31 | .lateData => 0x32 | .peerFenced => 0x40 | .partitionFenced => 0x41 | .linkVacant => 0x42
  | .holdupLow => 0x50 | .uncorrectable => 0x60

/-- The status an encoding names, if it is not reserved. -/
def Status.ofCode (n : Nat) : Option Status :=
  [Status.ok, .busy, .notPermitted, .badArgument, .streamTableFull, .noSuchStream, .staleHandle, .mapMismatch, .bookCorrupt,
   .turnOverrun, .turnAborted, .lateData, .peerFenced, .partitionFenced, .linkVacant, .holdupLow, .uncorrectable].find?
    (fun x => x.code = n)

/-! The register file -/

/-- A register key. -/
def rk (n : RegName) (i : Nat := 0) (j : Nat := 0) : RegKey := { name := n, i := i, j := j }

/-- What a read of a register returns: the value most recently written (R9). -/
def State.reg (s : State) (n : RegName) (i : Nat := 0) (j : Nat := 0) : Word :=
  Sparse.get RegKey.num (rk n i j).reset s.regs (rk n i j)

/-- The value of a T register in effect: the one latched at the last changeover (R9). -/
def State.latchedReg (s : State) (n : RegName) (i : Nat := 0) (j : Nat := 0) : Word :=
  Sparse.get RegKey.num (rk n i j).reset s.latched (rk n i j)

/-- An update that takes effect, in both copies where the register is shadowed (R16, R419). -/
def State.setReg (s : State) (n : RegName) (i j : Nat) (v : Word) : State :=
  let d := (rk n i j).reset
  { s with
    regs := Sparse.set RegKey.num d s.regs (rk n i j) v
    shadow := if n.info.shadowed then Sparse.set RegKey.num d s.shadow (rk n i j) v else s.shadow }

/-- Put a value of a T register into effect, in both copies (R10, R419). -/
def State.latchReg (s : State) (n : RegName) (i j : Nat) (v : Word) : State :=
  let d := (rk n i j).reset
  { s with
    latched := Sparse.set RegKey.num d s.latched (rk n i j) v
    shadowLatched := if n.info.shadowed then Sparse.set RegKey.num d s.shadowLatched (rk n i j) v else s.shadowLatched }

/-- Write and latch a T register at once (R12, and start-up). -/
def State.setBoth (s : State) (n : RegName) (i j : Nat) (v : Word) : State := (s.setReg n i j v).latchReg n i j v

/-- Add to a counter, modulo the width of its field. -/
def State.bump (s : State) (n : RegName) (i : Nat := 0) (j : Nat := 0) (k : Nat := 1) : State :=
  s.setReg n i j ((s.reg n i j + BitVec.ofNat 64 k) &&& n.info.defined)

/-- The field of a register of n bits from bit lo. -/
def State.field (s : State) (r : RegName) (i j lo n : Nat) : Nat := bitsAt (s.reg r i j) lo n

/-- Replace a field of a register. -/
def State.setField (s : State) (r : RegName) (i j lo n x : Nat) : State := s.setReg r i j (putBits (s.reg r i j) lo n x)

/-- One bit of a register. -/
def State.flag (s : State) (r : RegName) (i j b : Nat) : Bool := bitAt (s.reg r i j) b

/-- Set or clear one bit of a register. -/
def State.setFlag (s : State) (r : RegName) (i j b : Nat) (x : Bool) : State := s.setReg r i j (putBit (s.reg r i j) b x)

/-! The numbered units -/

def State.part (s : State) (p : Nat) : Part := Sparse.nget {} s.parts p
def State.setPart (s : State) (p : Nat) (v : Part) : State := { s with parts := Sparse.nset {} s.parts p v }
def State.modPart (s : State) (p : Nat) (f : Part → Part) : State := s.setPart p (f (s.part p))

def State.die (s : State) (i : Nat) : Die := Sparse.nget {} s.dies i
def State.setDie (s : State) (i : Nat) (v : Die) : State := { s with dies := Sparse.nset {} s.dies i v }
def State.modDie (s : State) (i : Nat) (f : Die → Die) : State := s.setDie i (f (s.die i))

def State.square (s : State) (q : Nat) : Square := Sparse.nget {} s.squares q
def State.setSquare (s : State) (q : Nat) (v : Square) : State := { s with squares := Sparse.nset {} s.squares q v }
def State.modSquare (s : State) (q : Nat) (f : Square → Square) : State := s.setSquare q (f (s.square q))

def State.hostDie (s : State) (h : Nat) : HostDie := Sparse.nget {} s.hosts h
def State.setHost (s : State) (h : Nat) (v : HostDie) : State := { s with hosts := Sparse.nset {} s.hosts h v }
def State.modHost (s : State) (h : Nat) (f : HostDie → HostDie) : State := s.setHost h (f (s.hostDie h))

def State.quad (s : State) (n : Nat) : Quad := Sparse.nget {} s.quads n
def State.setQuad (s : State) (n : Nat) (v : Quad) : State := { s with quads := Sparse.nset {} s.quads n v }
def State.modQuad (s : State) (n : Nat) (f : Quad → Quad) : State := s.setQuad n (f (s.quad n))

def State.ring (s : State) (p n : Nat) : Ring := Sparse.nget {} s.rings (Nat.pair p n)
def State.setRing (s : State) (p n : Nat) (v : Ring) : State := { s with rings := Sparse.nset {} s.rings (Nat.pair p n) v }
def State.modRing (s : State) (p n : Nat) (f : Ring → Ring) : State := s.setRing p n (f (s.ring p n))

def State.row (s : State) (slot : Nat) : StreamEntry := Sparse.nget {} s.rows slot
def State.setRow (s : State) (slot : Nat) (v : StreamEntry) : State := { s with rows := Sparse.nset {} s.rows slot v }

/-! Free values -/

/-- A free 64-bit value, and the state in which it has been drawn. -/
def State.draw (s : State) : Word × State := (Config.freeWord s.fresh, { s with fresh := s.fresh + 1 })

/-- A free choice between two outcomes. -/
def State.drawBool (s : State) : Bool × State := (Config.freeBool s.fresh, { s with fresh := s.fresh + 1 })

/-! Time -/

/-- The game-clock copy of a square (R71). -/
def State.now (s : State) (q : Nat := 0) : Word :=
  s.clock.counter + BitVec.ofInt 64 (Sparse.nget 0 s.clock.offsets q)

/-! Partitions, sites and dies -/

def State.formed (s : State) (p : Nat) : Bool := s.flag .ptStatus p 0 1
def State.partFenced (s : State) (p : Nat) : Bool := s.flag .ptStatus p 0 2
def State.dissolving (s : State) (p : Nat) : Bool := s.flag .ptStatus p 0 3

/-- The partitions that are formed. -/
def State.formedParts (s : State) : List Nat := (List.range 8).filter (fun p => s.formed p)

/-- The supply regions of a partition. -/
def State.partRegions (s : State) (p : Nat) : List Nat := bitList 16 (s.reg .ptRegions p)

/-- The partition that owns a region, if it is assigned (R400, R403). -/
def State.regionOwner (s : State) (r : Nat) : Option Nat :=
  (List.range 8).find? (fun p => bitAt (s.reg .ptRegions p) r)

/-- The partition that owns a square (R44). -/
def State.owner (s : State) (q : Nat) : Option Nat := s.regionOwner (squareRegion q)

def State.siteOwner (s : State) (i : Nat) : Option Nat := s.owner (siteSquare i)
def State.stackOwner (s : State) (k : Nat) : Option Nat := s.owner (stackSquare k)
def State.hostOwner (s : State) (h : Nat) : Option Nat := s.owner (hostSquare h)

def State.partSquares (s : State) (p : Nat) : List Nat := (s.partRegions p).flatMap regionSquares
def State.partSites (s : State) (p : Nat) : List Nat := (List.range 104).filter (fun i => siteRegion i ∈ s.partRegions p)
def State.partStacks (s : State) (p : Nat) : List Nat := (List.range 48).filter (fun k => stackRegion k ∈ s.partRegions p)
def State.partHosts (s : State) (p : Nat) : List Nat := (List.range 8).filter (fun h => hostRegion h ∈ s.partRegions p)
def State.partQuads (s : State) (p : Nat) : List Nat :=
  (List.range 224).filter (fun n => engineRegion (quadEngine n) ∈ s.partRegions p)

/-- The SAM bit of a site (R37): REF_SAM_LO and REF_SAM_HI. -/
def State.siteEnabled (s : State) (i : Nat) : Bool :=
  if i < 64 then s.flag .refSamLo 0 0 i else s.flag .refSamHi 0 0 (i - 64)

/-- The REF_OUT bit of a site (R36). -/
def State.siteOut (s : State) (i : Nat) : Bool :=
  if i < 64 then s.flag .refOutLo 0 0 i else s.flag .refOutHi 0 0 (i - 64)

def State.setSiteOut (s : State) (i : Nat) (b : Bool) : State :=
  if i < 64 then s.setFlag .refOutLo 0 0 i b else s.setFlag .refOutHi 0 0 (i - 64) b

/-- The physical column that a row of a die excludes: EXCL of its byte of MX_ROW_MAP (R28, Table 1.6). -/
def State.exclCol (s : State) (i row : Nat) : Nat :=
  if row < 8 then s.field .mxRowMap0 i 0 (8 * row) 5 else s.field .mxRowMap1 i 0 (8 * (row - 8)) 5

/-- The physical column of a logical column of a row (R28): logical columns 0 to 15 map in ascending order to the physical columns that the
exclusion leaves. -/
def State.physicalColumn (s : State) (i row col : Nat) : Nat := if col < s.exclCol i row then col else col + 1

/-- A physical cell that carries a logical column, and so takes part in every pass. -/
def State.activeCell (s : State) (i row c : Nat) : Bool := (List.range 16).any (fun col => decide (s.physicalColumn i row col = c))

/-- Write the byte of a row of MX_ROW_MAP (Table 1.6). -/
def State.setRowMap (s : State) (i row v : Nat) : State :=
  if row < 8 then s.setField .mxRowMap0 i 0 (8 * row) 8 v else s.setField .mxRowMap1 i 0 (8 * (row - 8)) 8 v

/-- Set SPARE_BAD of a row (R30). -/
def State.setSpareBad (s : State) (i row : Nat) : State :=
  if row < 8 then s.setFlag .mxRowMap0 i 0 (8 * row + 7) true else s.setFlag .mxRowMap1 i 0 (8 * (row - 8) + 7) true

/-- The ENABLED sites of a partition. -/
def State.enabledSites (s : State) (p : Nat) : List Nat := (s.partSites p).filter (fun i => s.siteEnabled i)

/-- The state of a site in the site record (R32). At the factory 100 sites are ENABLED and the surplus of R33 is RESERVE. -/
def factorySite (i : Nat) : SiteState := if i ∈ [0, 5, 98, 103] then .reserve else .enabled

def State.siteState (s : State) (i : Nat) : SiteState := Sparse.nget (factorySite i) s.flash.sites i
def State.setSiteState (s : State) (i : Nat) (v : SiteState) : State :=
  { s with flash := { s.flash with sites := Sparse.nset (factorySite i) s.flash.sites i v } }

/-- The book loaded in a partition. -/
def State.book (s : State) (p : Nat) : Option Book := (s.part p).book

/-- SQ_BOOK [0]: a book is loaded. -/
def State.bookLoaded (s : State) (p : Nat) : Bool := (s.part p).book.isSome

/-! Turn registers -/

def State.turnLen (s : State) (p : Nat) : Nat := bitsAt (s.latchedReg .tnTurnLen p) 0 20
def State.chgLen (s : State) (p : Nat) : Nat := bitsAt (s.latchedReg .tnChgLen p) 0 14
def State.phase (s : State) (p : Nat) : Nat := s.field .tnStatus p 0 8 3
def State.setPhase (s : State) (p x : Nat) : State := s.setField .tnStatus p 0 8 3 x
def State.stepNow (s : State) (p : Nat) : Nat := s.field .tnStatus p 0 16 3
def State.turn (s : State) (p : Nat) : Word := s.reg .tnTurn p

/-- Die cycles in one tick at a step (Table 3.4). -/
def cyclesPerTick (step : Nat) : Nat := [12, 11, 10, 9, 8, 7, 6, 4].getD step 4

/-- The policy parameters of Tables 9.4 and 17.x: value in effect. The default stands beside the table that gives it. -/
def State.policyValue (s : State) (p id : Nat) (dflt : Word) : Word := Sparse.nget dflt (s.part p).policy id

/-- What a partition's power budget may come to (R3, R461): the larger of the one in effect and one that waits for a changeover. -/
def State.budgetClaim (s : State) (p : Nat) : Nat :=
  max (s.field .pwPartBudget p 0 0 16) (bitsAt (Sparse.nget 0 (s.part p).policyNext 0x0100) 0 16)

/-! Bytes of memory -/

/-- A byte of DRAM, a pinned unit, die memory or a rook pad. Memory that nothing has written reads zero: the map is filled
with zeros when it is formed (R402). -/
def unlistedByte : Byte := 0

def State.byte (s : State) (a : Nat) : Byte := Sparse.nget unlistedByte s.mem a
def State.bytes (s : State) (a n : Nat) : List Byte := (rangeFrom a n).map s.byte
def State.setByte (s : State) (a : Nat) (b : Byte) : State := { s with mem := Sparse.nset unlistedByte s.mem a b }
def State.setBytes (s : State) (a : Nat) : List Byte → State
  | [] => s
  | b :: l => (s.setByte a b).setBytes (a + 1) l

/-- Write zero to every byte of a range: no listed byte remains in it (R53, R396). -/
def State.zeroRange (s : State) (a n : Nat) : State :=
  { s with mem := s.mem.filter (fun c => ¬(a ≤ c.1 ∧ c.1 < a + n)) }

/-- The canonical form of memory: addresses rise strictly and no byte equal to an unlisted one is listed. -/
def Memory.wf (m : List Host.Cell) : Bool := Sparse.wf id (fun _ => unlistedByte) m

/-! The pins -/

/-- Assert ALERT_N. -/
def State.alert (s : State) : State := { s with pins := { s.pins with alertN := false } }

/-- A condition that asserts ALERT_N is present: holdover (R73), a warm restart or a lost Referee (R242, R247), a failed or
degraded start (R435), a failed flash (R487), or pins under boundary scan (R502). -/
def State.alertHeld (s : State) : Bool :=
  s.flag .gcStatus 0 0 0 || s.flag .refStatus 0 0 2 || s.flag .refStatus 0 0 3 || s.flag .refBoot 0 0 17 || s.flag .refBoot 0 0 19 ||
  s.flag .evStatus 0 0 5 || s.flag .dbJtagStatus 0 0 1

/-- Release ALERT_N where no condition asserts it. -/
def State.releaseAlert (s : State) : State := if s.alertHeld then s else { s with pins := { s.pins with alertN := true } }

/-- What every command answers: the block goes on. -/
abbrev Answered := Host.Outcome State Fault Refusal

end Sys2Proof.Machine
end

