-- ==== Sys2Proof/Machine/Events.lean ====
section
/-! DEFINITION. Recording an event (chapter 18): rate windows, numbering, the ring, the must-keep area, the side buffer of
a freeze, the live views and the flush. Every command that records an event calls State.event. -/

namespace Sys2Proof.Machine

def sevCode : Severity → Nat
  | .debug => 0 | .info => 1 | .notice => 2 | .warning => 3 | .error => 4 | .critical => 5 | .safety => 6

/-- LEN of a report: the tick and the payload after it, a multiple of 8 (R470). -/
def reportLen (r : Report) : Nat := 8 + 8 * ceilDiv r.payload.length 8

/-- The bytes a record occupies wherever it is stored (R470). -/
def Record.size (r : Record) : Nat := 16 + reportLen r.report

/-- The bytes of a record: the header of Table 18.1 and the payload. -/
def Record.bytes (r : Record) : List Byte :=
  leBytes 2 r.report.code.toNat ++ [BitVec.ofNat 8 (16 * sevCode r.report.sev + r.report.part.toNat)] ++
  [BitVec.ofNat 8 (reportLen r.report), r.report.source] ++ leBytes 4 r.seq.toNat ++ leBytes 4 r.opsec.toNat ++
  leBytes 3 r.pwrcyc.toNat ++ leBytes 8 r.report.tick.toNat ++ padTo (reportLen r.report - 8) r.report.payload

def sizeSum (l : List Record) : Nat := l.foldl (fun n r => n + r.size) 0

/-- A record of severity NOTICE or above that is not yet in flash awaits a flush (R475), unless the recorder runs from
the ring only (R487). -/
def State.awaits (s : State) (r : Record) : Bool :=
  decide (2 ≤ sevCode r.report.sev) && !r.flushed && !s.flag .evStatus 0 0 5

def State.setRecorder (s : State) (r : Recorder) : State := { s with recorder := r }
def State.modRecorder (s : State) (f : Recorder → Recorder) : State := s.setRecorder (f s.recorder)

/-- Bring EV_UNFLUSHED up to date (Table 18.3). -/
def State.countUnflushed (s : State) : State :=
  s.setReg .evUnflushed 0 0
    (BitVec.ofNat 64 (sizeSum (s.recorder.ring.filter (fun r => decide (2 ≤ sevCode r.report.sev) && !r.flushed)) % 2 ^ 20))

/-- The next sequence number: 0 is never issued (R471). -/
def nextSeqAfter (n : BitVec 32) : BitVec 32 := if n = 0xFFFFFFFF then 1 else n + 1

/-- Remove, oldest first, qualifying records until need bytes are free; what is left and what was removed (R478). -/
def makeRoom (ok : Record → Bool) : Nat → List Record → List Record × List Record
  | _, [] => ([], [])
  | need, r :: l =>
    if need = 0 then (r :: l, [])
    else if ok r then let (k, g) := makeRoom ok (need - r.size) l; (k, r :: g)
    else let (k, g) := makeRoom ok need l; (r :: k, g)

/-- The ring holds 1 MiB (R473). -/
def ringBytes : Nat := 1048576

/-- Put a record into the window of a live view (R483): a record that would run past the end starts again at 0x8040, and
the records it runs over have their SEQ written 0 first. Offsets here count from 0x8040. -/
def Part.view (v : Part) (r : Record) : Part :=
  let n := r.size
  let clear (m : List Host.Cell) (o k : Nat) : List Host.Cell :=
    (rangeFrom o k).foldl (fun m a => Sparse.nset 0 m a 0) m
  let wraps := decide (32704 < v.viewNext + n)
  let mem := if wraps ∧ v.viewNext + 16 ≤ 32704 then clear v.viewMem v.viewNext 16 else v.viewMem
  let start := if wraps then 0 else v.viewNext
  let gone := v.viewRecs.filter (fun (o, k, _) => (o < start + n ∧ start < o + k) ∨ (wraps ∧ v.viewNext ≤ o))
  let mem := gone.foldl (fun m (o, _, _) => clear m (o + 5) 4) mem
  let b := r.bytes
  let mem := (rangeFrom start n).foldl (fun m a => Sparse.nset 0 m a (b.getD (a - start) 0)) mem
  { v with
    viewMem := mem
    viewRecs := v.viewRecs.filter (fun (o, k, _) => ¬((o < start + n ∧ start < o + k) ∨ (wraps ∧ v.viewNext ≤ o))) ++
      [(start, n, r.seq)]
    viewNext := start + n
    viewNewest := r.seq }

/-- The partitions whose views and counts a record concerns: its own, or every one for 0xF. -/
def partsOf (p : BitVec 4) : List Nat := if p.toNat < 8 then [p.toNat] else List.range 8

/-- Place a record in the live views (R483): severity NOTICE or above, PART p or 0xF. -/
def State.viewRecord (s : State) (r : Record) : State :=
  if sevCode r.report.sev < 2 then s
  else (partsOf r.report.part).foldl (fun s p => s.modPart p (fun v => v.view r)) s

/-- A record dropped under R478: EV_LOSTs of its severity, and the view headers of its partitions. -/
def State.dropRecord (s : State) (r : Record) : State :=
  let s := s.bump .evLost 0 (sevCode r.report.sev)
  (partsOf r.report.part).foldl (fun s p => s.modPart p (fun v => { v with viewDropped := v.viewDropped + 1 })) s

/-- Put records, in order, into segments of 64 KiB. -/
def packSegments (l : List Record) : List (List Record) :=
  (l.foldl (fun (segs : List (List Record)) r =>
    match segs with
    | [] => [[r]]
    | g :: rest => if sizeSum g + r.size ≤ 65536 then (g ++ [r]) :: rest else [r] :: g :: rest) []).reverse

/-- Reclaim segments of the log area for a record, oldest first, carrying forward what is of higher severity (R478);
none where every record in the log is of higher severity. -/
def reclaim (r : Record) : Nat → List (List Record) → List Record → Nat → Option (List (List Record))
  | 0, _, _, _ => none
  | fuel + 1, segs, carry, freed =>
    match segs.findIdx? (fun g => g.any (fun x => decide (sevCode x.report.sev ≤ sevCode r.report.sev))) with
    | none => none
    | some i =>
      let g := segs.getD i []
      let carry := carry ++ g.filter (fun x => decide (sevCode r.report.sev < sevCode x.report.sev))
      let new := packSegments (carry ++ [r])
      if new.length ≤ freed + 1 then some (segs.eraseIdx i ++ new)
      else reclaim r fuel (segs.eraseIdx i) carry (freed + 1)

/-- Append a record to the log area of 1,022 record segments; none where it is dropped from the log (R474, R478). -/
def appendLog (log : List (List Record)) (r : Record) : Option (List (List Record)) :=
  match log.getLast? with
  | some g =>
    if sizeSum g + r.size ≤ 65536 then some (log.dropLast ++ [g ++ [r]])
    else if log.length < 1022 then some (log ++ [[r]])
    else reclaim r log.length log [] 0
  | none => some [[r]]

/-- Write one record to the log area (R474, R478): a record dropped from the log counts in EV_LOSTs. -/
def State.logRecord (s : State) (r : Record) : State :=
  match appendLog s.recorder.log { r with flushed := true } with
  | some l => s.modRecorder (fun x => { x with log := l })
  | none => s.dropRecord r

/-- A flush begins (R475); during a freeze, or while one is in progress, it is due (R484). -/
def State.beginFlush (s : State) : State :=
  if s.flag .evStatus 0 0 1 || s.recorder.flushing then s.modRecorder (fun x => { x with flushDue := true })
  else
    (s.modRecorder (fun x => { x with
      flushing := true, flushDue := false, flushRetry := false,
      flushSeqs := (x.ring.filter (fun r => decide (2 ≤ sevCode r.report.sev) && !r.flushed)).map (fun r => r.seq) })).setFlag
      .evStatus 0 0 3 true

/-- Enter a numbered record into the ring (R473, R475, R477, R478, R483). -/
def State.enterRing (s : State) (r : Record) : State :=
  let writeThrough := s.flag .evStatus 0 0 2 && decide (2 ≤ sevCode r.report.sev)
  let s := if writeThrough then s.logRecord r else s
  let r := { r with flushed := writeThrough }
  let need := sizeSum s.recorder.ring + r.size - ringBytes
  let ok (x : Record) : Bool := !s.awaits x && (decide (r.report.sev = .safety) || decide (sevCode x.report.sev ≤ sevCode r.report.sev))
  let (kept, gone) := makeRoom ok need s.recorder.ring
  if sizeSum gone < need ∧ r.report.sev ≠ .safety then s.dropRecord r
  else
    let lost := (gone.filter (fun x => decide (2 ≤ sevCode x.report.sev) && !x.flushed)).length
    let s := s.modRecorder (fun x => { x with ring := kept ++ [r], flashLost := x.flashLost + BitVec.ofNat 64 lost })
    let s := (s.viewRecord r).countUnflushed
    if 4 ≤ sevCode r.report.sev ∨ 65536 ≤ s.field .evUnflushed 0 0 0 20 then s.beginFlush else s

/-- Give a report its number and its place: the ring, or the 16 KiB side buffer during a freeze (R471, R484). -/
def State.numberRecord (s : State) (r : Report) : State :=
  let x := s.recorder
  let numbered : Record := { report := r, seq := x.nextSeq, opsec := x.opsec, pwrcyc := x.pwrcyc, flushed := false }
  let frozen := s.flag .evStatus 0 0 1
  if frozen ∧ r.sev ≠ .safety ∧ 16384 < sizeSum x.side + numbered.size then s.bump .evSideLost
  else
    let s := s.modRecorder (fun x => { x with nextSeq := nextSeqAfter x.nextSeq })
    let s := s.setReg .evSeq 0 0 (numbered.seq.setWidth 64)
    if frozen then s.modRecorder (fun x => { x with side := x.side ++ [numbered] }) else s.enterRing numbered

/-- Write a SAFETY record to the must-keep area (R479). -/
def State.keepRecord (s : State) (r : Record) : State :=
  if s.recorder.keep.length < 64 then
    (s.modRecorder (fun x => { x with keep := x.keep ++ [r] })).setField .evKeep 0 0 0 7 (s.recorder.keep.length + 1)
  else
    let s := s.setField .evKeep 0 0 32 32 (s.field .evKeep 0 0 32 32 + 1)
    let s := s.setFlag .evStatus 0 0 4 true
    if s.recorder.keepFullReported then s
    else
      let s := s.modRecorder (fun x => { x with keepFullReported := true })
      s.numberRecord
        { code := 0x0082, sev := .critical, part := 0xF, source := 0, tick := s.now,
          payload := leBytes 8 (s.field .evKeep 0 0 32 32) }

/-- Record a report that rate windows let through (R471, R479). -/
def State.accept (s : State) (r : Report) : State :=
  if r.sev = .safety then
    let x := s.recorder
    (s.numberRecord r).keepRecord { report := r, seq := x.nextSeq, opsec := x.opsec, pwrcyc := x.pwrcyc, flushed := false }
  else s.numberRecord r

/-- The limit of a code in records per second (R481); none where the limit is removed. -/
def State.rateLimit (s : State) (code : BitVec 16) : Option Nat :=
  match Sparse.nget 0 s.recorder.limits code.toNat with
  | 0 => some 16
  | 0xFFFF => none
  | n => some n

/-- Record a report, subject to its rate window (R480): SAFETY and SUPPRESSED records are never limited. -/
def State.record (s : State) (r : Report) : State :=
  if r.sev = .safety ∨ r.code = 0x0080 then s.accept r
  else
    match s.recorder.windows.find? (fun w => w.code = r.code ∧ w.part = r.part) with
    | none =>
      (s.modRecorder (fun x => { x with
        windows := x.windows ++ [{ code := r.code, part := r.part, count := 1, suppressed := 0, highest := .debug,
                                   firstTick := r.tick, lastTick := r.tick }] })).accept r
    | some w =>
      let full := match s.rateLimit r.code with
        | none => false
        | some n => decide (n ≤ w.count)
      let w' : RateWindow :=
        if full then
          { w with
            suppressed := w.suppressed + 1
            highest := if w.suppressed = 0 ∨ sevCode w.highest < sevCode r.sev then r.sev else w.highest
            firstTick := if w.suppressed = 0 then r.tick else w.firstTick
            lastTick := r.tick }
        else { w with count := w.count + 1 }
      let s := s.modRecorder (fun x => { x with
        windows := x.windows.map (fun y => if y.code = r.code ∧ y.part = r.part then w' else y) })
      if full then
        let s := s.bump .evSuppressed
        (partsOf r.part).foldl (fun s p => s.modPart p (fun v => { v with viewSuppressed := v.viewSuppressed + 1 })) s
      else s.accept r

/-- REF_STATUS.UP: Tolerabor runs (Table 9.2). -/
def State.up (s : State) : Bool := s.flag .refStatus 0 0 1

/-- The Referee's cores run: neither frozen by a restart nor lost (R242, R247). -/
def State.coresRun (s : State) : Bool := !s.flag .refStatus 0 0 2 && !s.flag .refStatus 0 0 3

/-- Tolerabor runs and gives records their numbers: from the end of step 2 of a cold start (R471), and not while its cores are frozen or lost. -/
def State.recording (s : State) : Bool :=
  s.up || (s.coresRun && decide (3 ≤ s.field .refBoot 0 0 0 4 ∧ s.field .refBoot 0 0 0 4 < 13))

/-- A report reaches the Referee square (R482): recorded while Tolerabor runs; otherwise held in the intake queue of 512 entries, and lost where the
queue is full. The Referee's own records are never lost there: they are held and numbered when Tolerabor starts (R471). -/
def State.report (s : State) (r : Report) : State :=
  if s.recording then s.record r
  else if r.source = 0 ∨ s.recorder.intake.length < 512 then s.modRecorder (fun x => { x with intake := x.intake ++ [r] })
  else (s.modRecorder (fun x => { x with intakeLostSecond := x.intakeLostSecond + 1 })).bump .evIntakeLost

/-- An event of a block: event byte, severity, partition (none: the device), reporting square, payload after the tick
(R470, R472). -/
def State.event (s : State) (block ev : Nat) (sev : Severity) (part : Option Nat) (source : Nat) (payload : List Byte := []) : State :=
  s.report
    { code := BitVec.ofNat 16 (256 * block + ev), sev := sev,
      part := BitVec.ofNat 4 (part.getD 15), source := BitVec.ofNat 8 source, tick := s.now source,
      payload := payload }

/-- A severity that the spec does not state: a free value, SAFETY excluded. -/
def State.drawSeverity (s : State) : Severity × State :=
  let (w, s) := s.draw
  (match w.toNat % 6 with
    | 0 => .debug | 1 => .info | 2 => .notice | 3 => .warning | 4 => .error | _ => .critical, s)

/-- An event that the spec records without stating its severity. -/
def State.eventAny (s : State) (block ev : Nat) (part : Option Nat) (source : Nat) (payload : List Byte := []) : State :=
  let (v, s) := s.drawSeverity
  s.event block ev v part source payload

/-- An event for a condition that reports no status: 0x7F with the offset of the register that the condition sets or
counts (R472). -/
def State.event7F (s : State) (sev : Severity) (part : Option Nat) (source : Nat) (n : RegName) (i j : Nat := 0)
    (more : List Byte := []) : State :=
  s.event n.info.block 0x7F sev part source (leBytes 4 (n.info.offset + i * n.info.stride + j * n.info.step) ++ more)

/-- An event 0x7F whose severity the spec does not state. -/
def State.event7FAny (s : State) (part : Option Nat) (source : Nat) (n : RegName) (i j : Nat := 0) (more : List Byte := []) : State :=
  let (v, s) := s.drawSeverity
  s.event7F v part source n i j more

/-- An event that reports a status (R472). -/
def State.eventStatus (s : State) (block : Nat) (st : Status) (sev : Severity) (part : Option Nat) (source : Nat)
    (payload : List Byte := []) : State :=
  s.event block st.code sev part source payload

/-- A SAFETY record for a dangerous failure (R412): it names the failure by its block and event, and the unit. -/
def State.safety (s : State) (block ev : Nat) (part : Option Nat) (source : Nat) (unit : Nat) : State :=
  s.event block ev .safety part source (leBytes 8 unit)

/-- A register write that is dropped and recorded (R472): NOTICE, the register's block, the event byte, its owner and its
address. -/
def State.dropped (s : State) (block ev : Nat) (part : Option Nat) (source addr : Nat) : State :=
  s.event block ev .notice part source (leBytes 8 addr)

/-- An INFO event of a decision of Tolerabor that takes effect from a turn (R248). -/
def State.decision (s : State) (p : Nat) (n : RegName) (turn : Word) : State :=
  s.event7F .info (some p) 0 n p 0 (leBytes 4 0 ++ leBytes 8 turn.toNat)

end Sys2Proof.Machine
end

