-- ==== Sys2Proof/Machine/Memory.lean ====
section
/-! DEFINITION. Memory: DRAM lines as the compute side and the host side see them, publishes between the two, poison,
seals and release zero-fill (chapters 2, 12 and 14). -/

namespace Sys2Proof.Machine

/-- The 64-byte blocks that n bytes from a touch. -/
def blocksOf (a n : Nat) : List Nat := if n = 0 then [] else rangeFrom (a / 64) ((a + n - 1) / 64 - a / 64 + 1)

/-- The DRAM lines that n bytes from a touch. -/
def linesOf (a n : Nat) : List Nat := if n = 0 then [] else rangeFrom (a / 1024) ((a + n - 1) / 1024 - a / 1024 + 1)

/-- The 64 KiB page of an address. -/
def pageOf (a : Nat) : Nat := a / 65536

/-- An address lies in DRAM (Table 2.1). -/
def inDram (a : Nat) : Bool := decide (a < 48 * 2 ^ 36)

/-- Mark or clear poison of a stored block (R388). -/
def State.setPoison (s : State) (b : Nat) (x : Bool) : State :=
  { s with poison := if x then Sparse.insertNat s.poison b else s.poison.filter (fun y => y ≠ b) }

def State.poisoned (s : State) (b : Nat) : Bool := decide (b ∈ s.poison)

/-- The blocks of a line. -/
def lineBlocks (line : Nat) : List Nat := rangeFrom (16 * line) 16

/-- A line reads as uncorrectable when any of its blocks was written poisoned (R388). -/
def State.linePoisoned (s : State) (line : Nat) : Bool := (lineBlocks line).any s.poisoned

/-- The reservations that harts hold on the blocks that satisfy a test end: the blocks have been written or taken away. -/
def State.breakReservations (s : State) (ok : Nat → Bool) : State :=
  (List.range 8).foldl (fun s h =>
    if (s.hostDie h).reservations.any (fun x => ok x.2) then
      s.modHost h (fun v => { v with reservations := v.reservations.filter (fun x => !ok x.2) })
    else s) s

/-! Release zero-fill -/

/-- Mark the seals of the pages of a range as filled: a seal is lifted only when its page is zero-filled (R320). -/
def Square.fillSeals (v : Square) (ok : Nat → Bool) : Square :=
  { v with sealed := v.sealed.map (fun (p, t, f) => (p, t, f || ok p)) }

/-- Zero-fill DRAM lines (R397): zeros with zero check symbols, poison cleared, every copy invalidated, seals filled. -/
def State.fillLines (s : State) (first count : Nat) : State :=
  let inside (line : Nat) : Bool := decide (first ≤ line ∧ line < first + count)
  let s := (s.zeroRange (1024 * first) (1024 * count)).breakReservations (fun b => inside (b / 16))
  let s := { s with
    poison := s.poison.filter (fun b => !inside (b / 16))
    general := s.general.filter (fun c => !inside c.1)
    hsc := s.hsc.filter (fun c => !inside (c.1 / 16))
    hartBlocks := s.hartBlocks.filter (fun c => !inside ((Nat.unpair c.1).2 / 16)) }
  { s with squares := s.squares.map (fun (q, v) => (q, v.fillSeals (fun p => inside (64 * p) && inside (64 * p + 63)))) }

/-- A line still queued for fill. -/
def State.fillPending (s : State) (line : Nat) : Bool :=
  s.fills.any (fun (f, n) => decide (f ≤ line ∧ line < f + n))

/-- A request for a line that is queued for fill is served after that line's fill (R397). -/
def State.applyFill (s : State) (line : Nat) : State :=
  if s.fillPending line then
    let s := s.fillLines line 1
    { s with fills := s.fills.flatMap (fun (f, n) =>
        if f ≤ line ∧ line < f + n then
          (if f < line then [(f, line - f)] else []) ++ (if line + 1 < f + n then [(line + 1, f + n - line - 1)] else [])
        else [(f, n)]) }
  else s

/-- Queue released lines for fill (R396). -/
def State.queueFill (s : State) (first count : Nat) : State :=
  if count = 0 then s else { s with fills := s.fills ++ [(first, count)] }

/-- Lines of a stack that are queued for fill: MC_ZF_PENDING (R398). -/
def State.fillsOfStack (s : State) (k : Nat) : Nat :=
  (s.fills.filter (fun (f, _) => stackOf (1024 * f) = k)).foldl (fun n (_, c) => n + c) 0

/-! Seals -/

/-- The squares that hold the seal of a page: the home slices of its lines (R61, R320); for a pinned page, its slice. -/
def sealSquares (page : Nat) : List Nat :=
  let a := 65536 * page
  if inDram a then regionSquares (stackRegion (stackOf a))
  else if 0x080000000000 ≤ a ∧ a < 0x080400000000 then [(a - 0x080000000000) / 0x04000000]
  else []

/-- Every slice that would hold the seal has room among its 1,024 (R320). -/
def State.sealRoom (s : State) (page : Nat) : Bool :=
  (sealSquares page).all (fun q => decide ((s.square q).sealed.length < 1024))

/-- Seal a page in the home slices of its lines (R320). -/
def State.sealPage (s : State) (page : Nat) (turn : Word) : State :=
  (sealSquares page).foldl (fun s q => s.modSquare q (fun v => { v with sealed := v.sealed ++ [(page, turn, false)] })) s

/-- The page of an address is sealed in the line's home slice. -/
def State.isSealed (s : State) (a : Nat) : Bool :=
  (sealSquares (pageOf a)).any (fun q => (s.square q).sealed.any (fun x => x.1 = pageOf a))

/-- A write dropped at a sealed page (R320): counted in CC_SEAL_DROP of the home slice. -/
def State.sealDrop (s : State) (a : Nat) : State :=
  s.bump .ccSealDrop (if inDram a then homeSlice a else (a - 0x080000000000) / 0x04000000)

/-- Lift the seals that are due: filled, and no earlier than the partition's second changeover after the seal (R320). -/
def State.liftSeals (s : State) (p : Nat) (turn : Word) : State :=
  (s.partSquares p).foldl (fun s q => s.modSquare q (fun v =>
    { v with sealed := v.sealed.filter (fun (_, t, f) => ¬(f ∧ t.toNat + 2 ≤ turn.toNat)) })) s

/-! DRAM -/

/-- Write one block of a line back to DRAM. -/
def State.putBlock (s : State) (b : Nat) (d : List Byte) : State := s.setBytes (64 * b) (padTo 64 d)

/-- Write blocks of a cached line back to DRAM (R46, R62). R46 has the cache write the whole line back, and R65 and R69 have a block that only the
host side wrote since the fill survive it: the model writes the blocks modified since the fill, and the others keep what DRAM holds then
(DEDUCED). A line with a poisoned block is a poisoned write: the whole line reads as
uncorrectable afterwards, and MC_POISON_WR counts it (R388). A write of a line without poison clears the line's. -/
def State.writeBackLine (s : State) (line : Nat) (c : CacheCopy) : State :=
  if c.dirty = [] then s
  else
    let s := c.dirty.foldl (fun s k => s.putBlock (16 * line + k) ((c.data.drop (64 * k)).take 64)) s
    if c.bad = [] then { s with poison := s.poison.filter (fun b => b / 16 ≠ line) }
    else ((lineBlocks line).foldl (fun s b => s.setPoison b true) s).bump .mcPoisonWr (stackOf (1024 * line))

/-- Count an uncorrectable DRAM read (R395): MC_UE_LINES, MC_LAST_UE with no position known, and an ERROR event that names the
address and the requester. -/
def State.dramUe (s : State) (line pos : Nat) (requester : Nat) : State :=
  let k := stackOf (1024 * line)
  let s := s.bump .mcUeLines k
  let s := s.setReg .mcLastUe k 0 (BitVec.ofNat 64 (pos * 2 ^ 52 + 1024 * line))
  s.eventStatus 0xC .uncorrectable .error (s.stackOwner k) (stackSquare k)
    (leBytes 8 (1024 * line) ++ leBytes 1 pos ++ leBytes 7 requester)

/-- Count an uncorrectable read of an SRAM (R395): its UE register, and an ERROR event that names the address, no position, and the requester. -/
def State.sramUe (s : State) (n : RegName) (i square addr requester : Nat) : State :=
  (s.bump n i).eventStatus n.info.block .uncorrectable .error (s.owner square) square (leBytes 8 addr ++ [0x1F] ++ leBytes 7 requester)

/-- An uncorrectable read of a cached block: CC_ECC_UE of the slice. -/
def State.sliceUe (s : State) (q addr requester : Nat) : State := s.sramUe .ccEccUe q q addr requester

/-! The compute side -/

/-- The compute-side copy of a line after it has been brought into its home slice; a line that reads as uncorrectable is
held with all its blocks poisoned (R388). -/
def State.computeCopy (s : State) (line : Nat) : State × CacheCopy :=
  let s := s.applyFill line
  match Sparse.nfind s.general line with
  | some c => (s, c)
  | none =>
    let c : CacheCopy :=
      { dirty := [], bad := if s.linePoisoned line then List.range 16 else [], data := s.bytes (1024 * line) 1024 }
    ({ s with general := Sparse.nput s.general line c }, c)

/-- Read n bytes of one line on the compute side (R61). A poisoned block gives a bus error (R395). -/
def State.computeReadIn (s : State) (line off n requester : Nat) : State × Except Status (List Byte) :=
  let s := s.applyFill line
  match Sparse.nfind s.general line with
  | none =>
    if s.linePoisoned line then (s.dramUe line 0x1F requester, .error .uncorrectable)
    else
      let (s, c) := s.computeCopy line
      (s, .ok ((c.data.drop off).take n))
  | some c =>
    if (blocksOf off n).any (fun b => decide (b ∈ c.bad)) then
      (s.sliceUe (homeSlice (1024 * line)) (1024 * line + off) requester, .error .uncorrectable)
    else (s, .ok ((c.data.drop off).take n))

/-- Write bytes of one line on the compute side (R46, R61): the line is read, merged and held dirty. Blocks written whole lose
their poison; other poisoned blocks keep it (R388). -/
def State.computeWriteIn (s : State) (line off : Nat) (d : List Byte) : State :=
  let (s, c) := s.computeCopy line
  let whole (b : Nat) : Bool := decide (off ≤ 64 * b ∧ 64 * b + 64 ≤ off + d.length)
  let c' : CacheCopy :=
    { dirty := (blocksOf off d.length).foldl Sparse.insertNat c.dirty
      bad := c.bad.filter (fun b => !whole b)
      data := overlay c.data off d }
  { s with general := Sparse.nput s.general line c' }

/-- Split n bytes from a into the pieces of one line each: line, offset, length. -/
def linePieces (a n : Nat) : List (Nat × Nat × Nat) :=
  (linesOf a n).map (fun l =>
    let lo := max a (1024 * l)
    let hi := min (a + n) (1024 * l + 1024)
    (l, lo - 1024 * l, hi - lo))

/-- Read n bytes from a DRAM address on the compute side. -/
def State.computeRead (s : State) (a n requester : Nat) : State × Except Status (List Byte) :=
  (linePieces a n).foldl (fun (s, r) (l, o, k) =>
    match r with
    | .error e => (s, .error e)
    | .ok d =>
      match s.computeReadIn l o k requester with
      | (s, .ok x) => (s, .ok (d ++ x))
      | (s, .error e) => (s, .error e)) (s, .ok [])

/-- Write bytes to a DRAM address on the compute side. -/
def State.computeWrite (s : State) (a : Nat) (d : List Byte) : State :=
  (linePieces a d.length).foldl (fun s (l, o, k) =>
    s.computeWriteIn l o ((d.drop (1024 * l + o - a)).take k)) s

/-- A write of the state path, of a tier move, of a pool return or of a migration copy (R320): dropped at a sealed page. -/
def State.stateWrite (s : State) (a : Nat) (d : List Byte) : State :=
  if s.isSealed a then s.sealDrop a
  else if inDram a then s.computeWrite a d
  else s.setBytes a d

/-! The host side -/

/-- The blocks that the L1 and L2 caches of a host die hold are keyed by die and block. -/
def hartKey (die b : Nat) : Nat := Nat.pair die b

/-- The host dies that hold a block. -/
def State.holders (s : State) (b : Nat) : List Nat :=
  (List.range 8).filter (fun h => (Sparse.nfind s.hartBlocks (hartKey h b)).isSome)

/-- Put a block into the host system cache. -/
def State.putHsc (s : State) (b : Nat) (c : CacheCopy) : State := { s with hsc := Sparse.nput s.hsc b c }

/-- Put a block into the caches of a host die. -/
def State.putHart (s : State) (h b : Nat) (c : CacheCopy) : State :=
  { s with hartBlocks := Sparse.nput s.hartBlocks (hartKey h b) c }

/-- Move a modified block of a hart's caches into the host system cache (R335); the hart keeps a clean copy. -/
def State.cleanHart (s : State) (h b : Nat) : State :=
  match Sparse.nfind s.hartBlocks (hartKey h b) with
  | some c => if c.dirty = [] then s else (s.putHsc b c).putHart h b { c with dirty := [] }
  | none => s

/-- Invalidate a block in the caches of a host die. -/
def State.dropHart (s : State) (h b : Nat) : State := { s with hartBlocks := Sparse.ndrop s.hartBlocks (hartKey h b) }

/-- Write back every modified hart copy of a block to the host system cache. -/
def State.gather (s : State) (b : Nat) : State := (s.holders b).foldl (fun s h => s.cleanHart h b) s

/-- Invalidate every hart copy of a block, writing a modified one back first (R334). -/
def State.evictDirectory (s : State) (b : Nat) : State :=
  let s := s.gather b
  (s.holders b).foldl (fun s h => s.dropHart h b) s

/-- The block as the host system cache holds it, read from DRAM where it is absent (R334); none where the line reads as
uncorrectable, which is counted. The hash of host lines over the slices is not exposed (R63): the access counts at
the home slice. -/
def State.hscFetch (s : State) (b requester : Nat) : State × Except Status CacheCopy :=
  let line := b / 16
  let s := s.applyFill line
  match Sparse.nfind s.hsc b with
  | some c =>
    if c.bad = [] then (s, .ok c) else (s.sliceUe (homeSlice (64 * b)) (64 * b) requester, .error .uncorrectable)
  | none =>
    if s.linePoisoned line then (s.dramUe line 0x1F requester, .error .uncorrectable)
    else
      let c : CacheCopy := { dirty := [], bad := [], data := s.bytes (64 * b) 64 }
      (s.putHsc b c, .ok c)

/-- Read a block on the host side without allocation in a hart's caches: the Referee, the walker, PCIe and non-cacheable
pages (R253, R304, R330). -/
def State.hostReadBlock (s : State) (b requester : Nat) : State × Except Status (List Byte) :=
  match (s.gather b).hscFetch b requester with
  | (s, .ok c) => (s, .ok c.data)
  | (s, .error e) => (s, .error e)

/-- Write part of a block on the host side into the host system cache, invalidating every hart copy (R335). A whole block
allocates without a read and clears poison; a partial write into a poisoned block is applied and stays poisoned (R388). -/
def State.hostWriteBlock (s : State) (b off : Nat) (d : List Byte) : State :=
  let s := ((s.applyFill (b / 16)).evictDirectory b).breakReservations (fun x => decide (x = b))
  if off = 0 ∧ 64 ≤ d.length then s.putHsc b { dirty := [0], bad := [], data := d.take 64 }
  else
    let old := match Sparse.nfind s.hsc b with
      | some c => c
      | none => { dirty := [], bad := if s.linePoisoned (b / 16) then [0] else [], data := s.bytes (64 * b) 64 }
    s.putHsc b { old with dirty := [0], data := overlay old.data off d }

/-- Split n bytes from a into the pieces of one block each: block, offset, length. -/
def blockPieces (a n : Nat) : List (Nat × Nat × Nat) :=
  (blocksOf a n).map (fun b =>
    let lo := max a (64 * b)
    let hi := min (a + n) (64 * b + 64)
    (b, lo - 64 * b, hi - lo))

/-- Read n bytes of DRAM as a coherent host-side requester. -/
def State.hostRead (s : State) (a n requester : Nat) : State × Except Status (List Byte) :=
  (blockPieces a n).foldl (fun (s, r) (b, o, k) =>
    match r with
    | .error e => (s, .error e)
    | .ok d =>
      match s.hostReadBlock b requester with
      | (s, .ok x) => (s, .ok (d ++ (x.drop o).take k))
      | (s, .error e) => (s, .error e)) (s, .ok [])

/-- Write bytes of DRAM as a coherent host-side requester. -/
def State.hostWrite (s : State) (a : Nat) (d : List Byte) : State :=
  (blockPieces a d.length).foldl (fun s (b, o, k) => s.hostWriteBlock b o ((d.drop (64 * b + o - a)).take k)) s

/-- A block for a hart: its own caches, or filled from another hart's modified copy, the host system cache or DRAM (R334). -/
def State.hartFetch (s : State) (h b requester : Nat) : State × Except Status CacheCopy :=
  let s := s.applyFill (b / 16)
  match Sparse.nfind s.hartBlocks (hartKey h b) with
  | some c => if c.bad = [] then (s, .ok c) else (s.sramUe .hdEccUe h (hostSquare h) (64 * b) requester, .error .uncorrectable)
  | none =>
    match (s.gather b).hscFetch b requester with
    | (s, .ok c) => (s.putHart h b { c with dirty := [] }, .ok { c with dirty := [] })
    | (s, .error e) => (s, .error e)

/-- Read n bytes of cacheable DRAM by a hart of a die. -/
def State.hartRead (s : State) (h a n requester : Nat) : State × Except Status (List Byte) :=
  (blockPieces a n).foldl (fun (s, r) (b, o, k) =>
    match r with
    | .error e => (s, .error e)
    | .ok d =>
      match s.hartFetch h b requester with
      | (s, .ok c) => (s, .ok (d ++ (c.data.drop o).take k))
      | (s, .error e) => (s, .error e)) (s, .ok [])

/-- Write bytes of cacheable DRAM by a hart of a die: every block is fetched first, and nothing is written where a fill is
uncorrectable (Table 14.2); other dies' copies are invalidated. -/
def State.hartWrite (s : State) (h a : Nat) (d : List Byte) (requester : Nat) : State × Except Status Unit :=
  match s.hartRead h a d.length requester with
  | (s, .error e) => (s, .error e)
  | (s, .ok _) =>
    ((blockPieces a d.length).foldl (fun s (b, o, k) =>
      let s := (((s.holders b).filter (fun x => x ≠ h)).foldl (fun s x => s.dropHart x b) s).breakReservations (fun x => decide (x = b))
      match Sparse.nfind s.hartBlocks (hartKey h b) with
      | some c => s.putHart h b { c with dirty := [0], data := overlay c.data o ((d.drop (64 * b + o - a)).take k) }
      | none => s) s, .ok ())

/-! Host system cache lines and publishes -/

/-- The blocks of a line that the host system cache holds modified. -/
def State.hscDirty (s : State) (line : Nat) : List Nat :=
  (lineBlocks line).filter (fun b => match Sparse.nfind s.hsc b with
    | some c => decide (c.dirty ≠ [])
    | none => false)

/-- Write the modified sectors of a host line to DRAM and keep clean copies (R64, R335). The line leaves as a whole: missing
sectors are completed by a read, so a poisoned sector makes it a poisoned write (R388). A block that keep names goes to DRAM
in another version (R69) and is left out. -/
def State.writeBackHost (s : State) (line : Nat) (skip : List Nat) : State :=
  let ds := s.hscDirty line
  if ds = [] then s
  else
    let bad := (lineBlocks line).any (fun b => match Sparse.nfind s.hsc b with
      | some c => decide (c.bad ≠ [])
      | none => s.poisoned b)
    let s := (ds.filter (fun b => decide (b ∉ skip))).foldl (fun s b => match Sparse.nfind s.hsc b with
      | some c => s.putBlock b c.data
      | none => s) s
    let s := ds.foldl (fun s b => match Sparse.nfind s.hsc b with
      | some c => s.putHsc b { c with dirty := [] }
      | none => s) s
    if bad then ((lineBlocks line).foldl (fun s b => s.setPoison b true) s).bump .mcPoisonWr (stackOf (1024 * line))
    else { s with poison := s.poison.filter (fun b => b / 16 ≠ line) }

/-- Evict a line of the host system cache (R334, R335): hart copies go first. -/
def State.evictHostLine (s : State) (line : Nat) : State :=
  let s := (lineBlocks line).foldl (fun s b => s.evictDirectory b) s
  let s := s.writeBackHost line []
  { s with hsc := s.hsc.filter (fun c => c.1 / 16 ≠ line) }

/-- Write back a dirty compute-side line and keep the copy clean. -/
def State.writeBackCompute (s : State) (line : Nat) (skip : List Nat) : State :=
  match Sparse.nfind s.general line with
  | some c =>
    let s := s.writeBackLine line { c with dirty := c.dirty.filter (fun k => decide (16 * line + k ∉ skip)) }
    { s with general := Sparse.nput s.general line { c with dirty := [] } }
  | none => s

/-- Evict a general line (R62): a dirty line is written to DRAM. -/
def State.evictGeneral (s : State) (line : Nat) : State :=
  let s := s.writeBackCompute line []
  { s with general := Sparse.ndrop s.general line }

/-- The blocks of a line that both sides hold modified: each afterwards holds either version (R69). The first list is those
that keep the compute version. -/
def State.settleBoth (s : State) (line : Nat) : State × List Nat × List Nat :=
  let mine := match Sparse.nfind s.general line with
    | some c => c.dirty.map (fun k => 16 * line + k)
    | none => []
  let both := (s.hscDirty line).filter (fun b => decide (b ∈ mine))
  both.foldl (fun (s, cs, hs) b =>
    let (x, s) := s.drawBool
    if x then (s, cs ++ [b], hs) else (s, cs, hs ++ [b])) (s, [], [])

/-- Publish one line TO_COMPUTE (R64): modified sectors of the host system cache go to DRAM and stay clean; every compute-side
copy is then invalidated, a dirty one written back first. -/
def State.publishToCompute (s : State) (line : Nat) : State :=
  let s := s.applyFill line
  let (s, compute, host) := s.settleBoth line
  let s := s.writeBackHost line compute
  let s := s.writeBackCompute line host
  { s with general := Sparse.ndrop s.general line }

/-- Publish one line TO_HOST (R64): a dirty compute copy goes to DRAM and stays clean; every host-side copy is then
invalidated, a dirty one discarded. A block that both sides wrote keeps either version (R69). -/
def State.publishToHost (s : State) (line : Nat) : State :=
  let s := s.applyFill line
  let (s, compute, host) := s.settleBoth line
  let s := host.foldl (fun s b => match Sparse.nfind s.hsc b with
    | some c => s.putBlock b c.data
    | none => s) s
  let s := (s.writeBackCompute line host).breakReservations (fun b => decide (b / 16 = line))
  let _ := compute
  { s with
    hsc := s.hsc.filter (fun c => c.1 / 16 ≠ line)
    hartBlocks := s.hartBlocks.filter (fun c => (Nat.unpair c.1).2 / 16 ≠ line) }

/-- The lines of a range of which some copy is held; the others need no work. -/
def State.heldLines (s : State) (first count : Nat) : List Nat :=
  ((s.general.map Prod.fst ++ s.hsc.map (fun (c : Nat × CacheCopy) => c.1 / 16) ++ s.hartBlocks.map (fun (c : Nat × CacheCopy) => (Nat.unpair c.1).2 / 16)).filter
    (fun l => decide (first ≤ l ∧ l < first + count))).eraseDups

/-- Publish count lines from a first line. -/
def State.publishLines (s : State) (toHost : Bool) (first count : Nat) : State :=
  let ls := (s.heldLines first count)
  ls.foldl (fun s l => if toHost then s.publishToHost l else s.publishToCompute l) s

/-- Write back every dirty general line homed in a square and invalidate its lines (R60). -/
def State.flushSlice (s : State) (q : Nat) : State :=
  let ls := (s.general.map Prod.fst).filter (fun l => homeSlice (1024 * l) = q)
  ls.foldl (fun s l => s.evictGeneral l) s

/-- Write back every modified line of a partition's host system cache and invalidate it (R60). -/
def State.flushHsc (s : State) (p : Nat) : State :=
  let ls := ((s.hsc.map (fun c => c.1 / 16)).filter (fun l => s.stackOwner (stackOf (1024 * l)) = some p)).eraseDups
  ls.foldl (fun s l => s.evictHostLine l) s

/-- Dirty general lines held in a slice: CC_GEN_DIRTY (Table 2.6). -/
def State.genDirty (s : State) (q : Nat) : Nat :=
  (s.general.filter (fun (l, c) => c.dirty ≠ [] ∧ homeSlice (1024 * l) = q)).length

/-- Poisoned blocks held in a slice: CC_POISONED (Table 14.4). -/
def State.slicePoisoned (s : State) (q : Nat) : Nat :=
  (s.general.filter (fun (l, _) => homeSlice (1024 * l) = q)).foldl (fun n (_, c) => n + c.bad.length) 0 +
  (s.hsc.filter (fun (b, _) => homeSlice (64 * b) = q)).foldl (fun n (_, c) => n + c.bad.length) 0 +
  (s.poison.filter (fun b => decide (0x080000000000 + q * 0x04000000 ≤ 64 * b ∧ 64 * b < 0x080000000000 + (q + 1) * 0x04000000))).length

end Sys2Proof.Machine
end

