-- ==== Sys2Proof/Machine/DieMem.lean ====
section
/-! DEFINITION. Die memory: banks, region descriptors, and the sheets that a rook writes into it (R51 to R55, R199). -/

namespace Sys2Proof.Machine

/-- Where the die memory and the rook pad of a site lie (Table 2.1). -/
def dieBase (i : Nat) : Nat := 0x090000000000 + i * 0x08000000

/-- The site whose die memory holds an address. -/
def dieAt (a : Nat) : Option Nat := if dieBase 0 ≤ a ∧ a < dieBase 104 then some ((a - dieBase 0) / 0x08000000) else none
def padBase (i : Nat) : Nat := 0x0A0000000000 + i * 0x400000

def State.dmSize (s : State) (i : Nat) : Nat := (s.reg .dmSize i).toNat

/-- Every byte of a range of die memory lies in an enabled bank (R51, R52). -/
def State.banksOn (s : State) (i off n : Nat) : Bool :=
  let bank := s.dmSize i / 16
  decide (off + n ≤ s.dmSize i) &&
  (n = 0 || (rangeFrom (off / max 1 bank) ((off + n - 1) / max 1 bank - off / max 1 bank + 1)).all (fun b => s.flag .dmBankEn i 0 b))

/-- A region descriptor of a site (Table 2.5): start and length in bytes, if it is valid. -/
def State.region (s : State) (i n : Nat) : Option (Nat × Nat) :=
  let v := s.reg .dmRgn i n
  if bitAt v 63 then some (4096 * bitsAt v 0 16, 4096 * bitsAt v 32 16) else none

/-- A region grants an outside access (R55): HOST 0b01 read, 0b11 read and write. -/
def State.hostGrants (s : State) (i off n : Nat) (write : Bool) : Bool :=
  (List.range 32).any (fun k =>
    let v := s.reg .dmRgn i k
    match s.region i k with
    | some (b, z) => decide (b ≤ off ∧ off + n ≤ b + z) && decide (if write then bitsAt v 61 2 = 3 else bitsAt v 61 2 = 1 ∨ bitsAt v 61 2 = 3)
    | none => false)

/-- Read or write bytes of die memory at a window offset. -/
def State.dieBytes (s : State) (i off n : Nat) : List Byte := s.bytes (dieBase i + off) n
def State.setDieBytes (s : State) (i off : Nat) (d : List Byte) : State := s.setBytes (dieBase i + off) d

/-- Write zero to every byte of some banks of a die's memory (R53): they show busy until their zeroing ends. -/
def State.zeroBanks (s : State) (i : Nat) (banks : Word) : State :=
  let size := s.dmSize i / 16
  let s := (bitList 16 banks).foldl (fun s b => s.zeroRange (dieBase i + b * size) size) s
  s.setReg .dmZeroBusy i 0 ((s.reg .dmZeroBusy i ||| banks) &&& RegName.dmZeroBusy.info.defined)

/-- Some bank of a site is being zeroed. -/
def State.zeroing (s : State) (i : Nat) : Bool := decide (s.reg .dmZeroBusy i ≠ 0)

/-- The start and length of the SHEET region of a site (R180). -/
def State.sheetRegion (s : State) (i : Nat) : Option (Nat × Nat) := s.region i (s.field .sqTables i 0 16 5)

/-- Bit b of a mask of the mask sheet: 0x3FF leaves every lane live (Table 7.6, R199). Where the mask sheet begins in the SHEET
region is the book's, in a part of SHEETS whose layout the spec does not give. -/
def State.maskBit (s : State) (i : Nat) (m : BitVec 10) (b : Nat) : Bool :=
  if m = 0x3FF then true
  else match s.sheetRegion i with
    | none => true
    | some (base, _) => bitAt (s.byte (dieBase i + base + Config.maskSheet i + 1024 * m.toNat + b / 8)) (b % 8)

end Sys2Proof.Machine
end

