-- ==== Sys2Proof/Machine/Flags.lean ====
section
/-! DEFINITION. The sticky flags of the matrix and vector engines (Tables 4.8 and 6.8): what one operation sets, and setting
them in MX_FLAGS and VX_FLAGS. -/

namespace Sys2Proof.Machine

/-- The flags that an operation sets. -/
structure Flags where
  nanIn : Bool := false
  nv : Bool := false
  dz : Bool := false
  of : Bool := false
  sat : Bool := false
  iovf : Bool := false
  clamped : Bool := false
  sb3Bad : Bool := false
  accDiscard : Bool := false
  deriving DecidableEq, Repr

/-- No flag. -/
def Flags.none : Flags := {}

/-- The flags that two operations set between them. -/
def Flags.join (a b : Flags) : Flags :=
  { nanIn := a.nanIn || b.nanIn, nv := a.nv || b.nv, dz := a.dz || b.dz, of := a.of || b.of, sat := a.sat || b.sat,
    iovf := a.iovf || b.iovf, clamped := a.clamped || b.clamped, sb3Bad := a.sb3Bad || b.sb3Bad,
    accDiscard := a.accDiscard || b.accDiscard }

/-- The flags of a step inside an operation: NAN_IN tells of inputs alone (Table 6.8), so a step inside does not set it. -/
def Flags.inner (f : Flags) : Flags := { f with nanIn := false }

/-- The bits of MX_FLAGS (Table 4.8). -/
def Flags.matrixBits (f : Flags) : Word :=
  maskOf 64 ((if f.nanIn then [0] else []) ++ (if f.nv then [1] else []) ++ (if f.of then [2] else []) ++
    (if f.iovf then [3] else []) ++ (if f.clamped then [4] else []) ++ (if f.sb3Bad then [5] else []) ++
    (if f.accDiscard then [6] else []))

/-- The bits of VX_FLAGS (Table 6.8). -/
def Flags.vectorBits (f : Flags) : Word :=
  maskOf 64 ((if f.nanIn then [0] else []) ++ (if f.nv then [1] else []) ++ (if f.dz then [2] else []) ++
    (if f.of then [3] else []) ++ (if f.sat then [4] else []) ++ (if f.clamped then [5] else []))

/-- Set flags of MX_FLAGS: they are sticky (R127). -/
def State.raiseMatrix (s : State) (i : Nat) (f : Flags) : State := s.setReg .mxFlags i 0 (s.reg .mxFlags i ||| f.matrixBits)

/-- Set flags of VX_FLAGS (R174). -/
def State.raiseVector (s : State) (i : Nat) (f : Flags) : State := s.setReg .vxFlags i 0 (s.reg .vxFlags i ||| f.vectorBits)

end Sys2Proof.Machine
end

