-- ==== Sys2Proof/Machine/Formats.lean ====
section
/-! DEFINITION. Number formats (chapter 5): exact values, the element encodings of Table 5.1, rounding, and conversion. -/

namespace Sys2Proof.Machine

/-- A number as a unit reads it: a NaN, an infinity, or the exact value ±m × 2^e; zero keeps its sign (R130). -/
inductive Number where
  | nan
  | inf (neg : Bool)
  | fin (neg : Bool) (m : Nat) (e : Int)
  deriving DecidableEq, Repr

/-- The rounding modes of Table 5.2. -/
inductive Rnd where
  | rne | rtz | rdn | rup | sr
  deriving DecidableEq, Repr

/-- The mode of an RND code. A reserved code is refused at verification and stands for the default of R135. -/
def rndOf (c : Nat) : Rnd :=
  match c with
  | 1 => .rtz | 2 => .rdn | 3 => .rup | 4 => .sr | _ => .rne

/-- The mode in which a binary32 intermediate rounds: SR serves only the final rounding into an output (R136, R164). -/
def Rnd.inner : Rnd → Rnd
  | .sr => .rne
  | r => r

/-! Exact arithmetic -/

def Number.neg : Number → Number
  | .nan => .nan
  | .inf b => .inf (!b)
  | .fin b m e => .fin (!b) m e

def Number.isNan : Number → Bool
  | .nan => true
  | _ => false

def Number.isFin : Number → Bool
  | .fin _ _ _ => true
  | _ => false

def Number.isZero : Number → Bool
  | .fin _ 0 _ => true
  | _ => false

def Number.isNeg : Number → Bool
  | .nan => false
  | .inf b => b
  | .fin b _ _ => b

/-- An integer. -/
def Number.ofInt (i : Int) : Number := .fin (decide (i < 0)) i.natAbs 0

/-- m × 2^e as a multiple of 2^q, where q is at most e. -/
def scaleTo (m : Nat) (e q : Int) : Nat := m * 2 ^ (e - q).toNat

/-- m1 × 2^e1 is at most m2 × 2^e2. -/
def magLe (m1 : Nat) (e1 : Int) (m2 : Nat) (e2 : Int) : Bool :=
  let q := min e1 e2
  decide (scaleTo m1 e1 q ≤ scaleTo m2 e2 q)

/-- The exact sum. A zero sum of numbers of unlike sign is +0, or −0 under RDN (IEEE 754). Infinities of opposite sign are invalid
(R112). -/
def Number.add (r : Rnd) : Number → Number → Number × Flags
  | .nan, _ => (.nan, { nanIn := true })
  | _, .nan => (.nan, { nanIn := true })
  | .inf a, .inf b => if a = b then (.inf a, {}) else (.nan, { nv := true })
  | .inf a, _ => (.inf a, {})
  | _, .inf b => (.inf b, {})
  | .fin a m1 e1, .fin b m2 e2 =>
    let q := min e1 e2
    let x : Int := scaleTo m1 e1 q
    let y : Int := scaleTo m2 e2 q
    let t := (if a then -x else x) + (if b then -y else y)
    if t = 0 then (.fin (if a = b then a else decide (r = .rdn)) 0 0, {}) else (.fin (decide (t < 0)) t.natAbs q, {})

/-- The exact product; Inf × 0 is invalid (R112). -/
def Number.mul : Number → Number → Number × Flags
  | .nan, _ => (.nan, { nanIn := true })
  | _, .nan => (.nan, { nanIn := true })
  | .inf a, .inf b => (.inf (a != b), {})
  | .inf a, .fin b m _ => if m = 0 then (.nan, { nv := true }) else (.inf (a != b), {})
  | .fin a m _, .inf b => if m = 0 then (.nan, { nv := true }) else (.inf (a != b), {})
  | .fin a m1 e1, .fin b m2 e2 => (.fin (a != b) (m1 * m2) (e1 + e2), {})

/-- The exact a × b + c, before its one rounding (R109, R157). Inf × 0 is invalid whatever the addend (R112). -/
def Number.fma (r : Rnd) (a b c : Number) : Number × Flags :=
  let (p, f) := a.mul b
  let (x, g) := p.add r c
  (x, f.join { g with nanIn := c.isNan })

/-- A quotient to far more bits than any format holds, its last bit telling an inexact quotient (correct rounding of DIV and RECIP). -/
def quotient (m1 m2 : Nat) (e : Int) : Nat × Int :=
  let k : Nat := 600
  let n := m1 * 2 ^ k
  (2 * (n / m2) + (if n % m2 = 0 then 0 else 1), e - k - 1)

/-- The quotient before rounding: a finite number by zero raises DZ, 0 / 0 and Inf / Inf are invalid. -/
def Number.div : Number → Number → Number × Flags
  | .nan, _ => (.nan, { nanIn := true })
  | _, .nan => (.nan, { nanIn := true })
  | .inf _, .inf _ => (.nan, { nv := true })
  | .inf a, .fin b _ _ => (.inf (a != b), {})
  | .fin a _ _, .inf b => (.fin (a != b) 0 0, {})
  | .fin a m1 e1, .fin b m2 e2 =>
    if m2 = 0 then (if m1 = 0 then (.nan, { nv := true }) else (.inf (a != b), { dz := true }))
    else
      let (m, e) := quotient m1 m2 (e1 - e2)
      (.fin (a != b) m e, {})

/-- The square root before rounding, its last bit telling an inexact root; a negative number is invalid, and −0 stays. -/
def Number.sqrt : Number → Number × Flags
  | .nan => (.nan, { nanIn := true })
  | .inf b => if b then (.nan, { nv := true }) else (.inf false, {})
  | .fin b m e =>
    if m = 0 then (.fin b 0 0, {})
    else if b then (.nan, { nv := true })
    else
      let k : Nat := if e % 2 = 0 then 600 else 601
      let n := m * 2 ^ k
      let x := Nat.sqrt n
      (.fin false (2 * x + (if x * x = n then 0 else 1)) ((e - k) / 2 - 1), {})

/-! Formats -/

/-- A floating element format (Table 5.1): exponent and significand widths, bias, exponent field and significand of the largest
finite number, whether it has infinities, and the NaN it produces. -/
structure FloatFmt where
  eb : Nat
  mb : Nat
  bias : Int
  maxE : Nat
  maxM : Nat
  hasInf : Bool
  nanCode : Option Nat
  deriving DecidableEq, Repr

def fp32 : FloatFmt := { eb := 8, mb := 23, bias := 127, maxE := 254, maxM := 2 ^ 24 - 1, hasInf := true, nanCode := some 0x7FC00000 }
def bf16 : FloatFmt := { eb := 8, mb := 7, bias := 127, maxE := 254, maxM := 255, hasInf := true, nanCode := some 0x7FC0 }
def fp16 : FloatFmt := { eb := 5, mb := 10, bias := 15, maxE := 30, maxM := 2047, hasInf := true, nanCode := some 0x7E00 }
def e5m2 : FloatFmt := { eb := 5, mb := 2, bias := 15, maxE := 30, maxM := 7, hasInf := true, nanCode := some 0x7E }
def e4m3 : FloatFmt := { eb := 4, mb := 3, bias := 7, maxE := 15, maxM := 14, hasInf := false, nanCode := some 0x7F }
def e3m2 : FloatFmt := { eb := 3, mb := 2, bias := 3, maxE := 7, maxM := 7, hasInf := false, nanCode := none }
def e2m3 : FloatFmt := { eb := 2, mb := 3, bias := 1, maxE := 3, maxM := 15, hasInf := false, nanCode := none }
def e2m1 : FloatFmt := { eb := 2, mb := 1, bias := 1, maxE := 3, maxM := 3, hasInf := false, nanCode := none }

/-- An element format: floating, or two's complement of a width whose last bit weighs 2^lsb. -/
inductive Elem where
  | flt (f : FloatFmt)
  | int (w : Nat) (lsb : Int)
  deriving DecidableEq, Repr

def FloatFmt.width (f : FloatFmt) : Nat := 1 + f.eb + f.mb

def Elem.width : Elem → Nat
  | .flt f => f.width
  | .int w _ => w

/-- The element formats of the codes of Table 6.3, and whether the code is that of an MX format. SB3 and RAW8 are none. -/
def fmtElem (c : Nat) : Option (Elem × Bool) :=
  match c with
  | 0 => some (.flt fp32, false) | 1 => some (.flt bf16, false) | 2 => some (.flt fp16, false)
  | 3 => some (.flt e5m2, false) | 4 => some (.flt e4m3, false) | 5 => some (.flt e3m2, false)
  | 6 => some (.flt e2m3, false) | 7 => some (.flt e2m1, false)
  | 8 => some (.int 8 0, false) | 9 => some (.int 4 0, false) | 10 => some (.int 32 0, false)
  | 11 => some (.flt e5m2, true) | 12 => some (.flt e4m3, true) | 13 => some (.flt e3m2, true)
  | 14 => some (.flt e2m3, true) | 15 => some (.flt e2m1, true) | 16 => some (.int 8 (-6), true)
  | _ => none

def fmtSb3 : Nat := 17
def fmtRaw8 : Nat := 18

/-- The exponent limit emax of an MX element format (R134). -/
def Elem.emax : Elem → Int
  | .flt f => f.maxE - f.bias
  | .int _ _ => 0

/-! Decoding (R129 to R131) -/

def FloatFmt.decode (f : FloatFmt) (c : Nat) : Number :=
  let neg := decide (c / 2 ^ (f.eb + f.mb) % 2 = 1)
  let e := c / 2 ^ f.mb % 2 ^ f.eb
  let m := c % 2 ^ f.mb
  if f.hasInf ∧ e = 2 ^ f.eb - 1 then (if m = 0 then .inf neg else .nan)
  else if f.hasInf = false ∧ f.nanCode.isSome ∧ e = 2 ^ f.eb - 1 ∧ m = 2 ^ f.mb - 1 then .nan
  else if e = 0 then .fin neg m (1 - f.bias - f.mb)
  else .fin neg (2 ^ f.mb + m) (e - f.bias - f.mb)

def Elem.decode : Elem → Nat → Number
  | .flt f, c => f.decode c
  | .int w lsb, c =>
    let i : Int := if c < 2 ^ (w - 1) then c else c - 2 ^ w
    .fin (decide (i < 0)) i.natAbs lsb

/-! Rounding -/

/-- ±m × 2^e rounded to a multiple of 2^q, as the number of those multiples; draw is the 16-bit draw of SR (R135, R136). -/
def roundMag (r : Rnd) (neg : Bool) (m : Nat) (e q : Int) (draw : Nat) : Nat :=
  if q ≤ e then scaleTo m e q
  else
    let sh := (q - e).toNat
    let t := m / 2 ^ sh
    let rest := m % 2 ^ sh
    let up := match r with
      | .rne => decide (2 ^ sh < 2 * rest ∨ (2 * rest = 2 ^ sh ∧ t % 2 = 1))
      | .rtz => false
      | .rdn => neg && decide (rest ≠ 0)
      | .rup => !neg && decide (rest ≠ 0)
      | .sr => decide (2 ^ 16 ≤ rest * 2 ^ 16 / 2 ^ sh + draw)
    if up then t + 1 else t

/-- The spacing exponent of a format at the magnitude of m × 2^e: the subnormal spacing below the smallest normal. -/
def FloatFmt.spacing (f : FloatFmt) (m : Nat) (e : Int) : Int := max ((m.log2 : Int) + e) (1 - f.bias) - f.mb

/-- The largest finite number of a format. -/
def FloatFmt.top (f : FloatFmt) : Nat × Int := (f.maxM, f.maxE - f.bias - f.mb)

/-- Round a number to a format (R135 to R137); saturate says that a value beyond range takes the largest finite number in every mode
(SR, and MX elements). -/
def FloatFmt.round (f : FloatFmt) (r : Rnd) (draw : Nat) (saturate : Bool) : Number → Number × Flags
  | .nan => (.nan, {})
  | .inf b => (.inf b, {})
  | .fin neg m e =>
    if m = 0 then (.fin neg 0 0, {})
    else
      let q := f.spacing m e
      let n := roundMag r neg m e q draw
      if magLe n q f.top.1 f.top.2 then (.fin neg n q, {})
      else if f.hasInf ∧ ¬saturate ∧ r ≠ .sr then
        let keep := match r with
          | .rtz => true
          | .rdn => !neg
          | .rup => neg
          | _ => false
        (if keep then .fin neg f.top.1 f.top.2 else .inf neg, { of := true })
      else (.fin neg f.top.1 f.top.2, { sat := true })

/-- The code of a number that a format holds exactly. -/
def FloatFmt.code (f : FloatFmt) : Number → Nat
  | .nan => f.nanCode.getD 0
  | .inf b => (if b then 2 ^ (f.eb + f.mb) else 0) + (2 ^ f.eb - 1) * 2 ^ f.mb
  | .fin b m e =>
    let sign := if b then 2 ^ (f.eb + f.mb) else 0
    if m = 0 then sign
    else
      let q := f.spacing m e
      let n := if q ≤ e then scaleTo m e q else m / 2 ^ (q - e).toNat
      if n < 2 ^ f.mb then sign + n else sign + (q + f.mb + f.bias).toNat * 2 ^ f.mb + (n - 2 ^ f.mb)

/-- Convert a number to a floating format (Table 5.3). -/
def FloatFmt.encode (f : FloatFmt) (r : Rnd) (draw : Nat) (mx : Bool) (x : Number) : Nat × Flags :=
  match x with
  | .nan => match f.nanCode with
    | some c => (c, {})
    | none => (0, { nv := true })
  | .inf b =>
    if f.hasInf then (f.code (.inf b), {})
    else match f.nanCode with
      | some c => (c, { nv := true })
      | none => (f.code (.fin b f.top.1 f.top.2), { nv := true })
  | .fin _ _ _ =>
    let (y, g) := f.round r draw mx x
    (f.code y, g)

/-- Convert a number to a two's complement format (Table 5.3). -/
def intEncode (w : Nat) (lsb : Int) (r : Rnd) (draw : Nat) (x : Number) : Nat × Flags :=
  let top : Int := 2 ^ (w - 1)
  let code (i : Int) : Nat := (i % 2 ^ w).toNat
  match x with
  | .nan => (0, { nv := true })
  | .inf b => (code (if b then -top else top - 1), { nv := true })
  | .fin neg m e =>
    let n : Int := roundMag r neg m e lsb draw
    let i := if neg then -n else n
    if i < -top then (code (-top), { sat := true })
    else if top ≤ i then (code (top - 1), { sat := true })
    else (code i, {})

/-- Convert a number to an element format: its code, and the flags raised (R137, R138). -/
def Elem.encode (el : Elem) (r : Rnd) (draw : Nat) (mx : Bool) (x : Number) : Nat × Flags :=
  match el with
  | .flt f => f.encode r draw mx x
  | .int w lsb => intEncode w lsb r draw x

/-- SR is permitted toward a target (R136). -/
def Elem.allowsSr : Elem → Bool
  | .flt f => decide (f.width ≤ 8)
  | .int w _ => decide (w ≤ 8)

/-- Round a number to binary32. -/
def Number.to32 (r : Rnd) (x : Number) : Number × Flags := fp32.round r 0 false x

/-! Microscaling (R133, R134) -/

/-- An element times its block's E8M0 scale; under the scale 0xFF it is NaN. -/
def scaled (scale : Nat) (x : Number) : Number :=
  if scale = 0xFF then .nan
  else match x with
    | .fin b m e => .fin b m (e + scale - 127)
    | y => y

/-- floor(log2) of the largest magnitude of a block of finite numbers, if one is not zero. -/
def topLog (l : List Number) : Option Int :=
  l.foldl (fun t x =>
    match x with
    | .fin _ m e =>
      if m = 0 then t
      else some (max ((m.log2 : Int) + e) (t.getD ((m.log2 : Int) + e)))
    | _ => t) none

/-- Convert a block of numbers to an MX format (R134): the scale, the codes, and the flags. draws gives the draw of each element. -/
def mxEncode (el : Elem) (r : Rnd) (draws : List Nat) (l : List Number) : Nat × List Nat × Flags :=
  if l.any (fun x => !x.isFin) then (0xFF, l.map (fun _ => 0), { nv := true })
  else
    match topLog l with
    | none => (0, l.map (fun x => (el.encode .rne 0 true x).1), {})
    | some t =>
      let x : Int := max (-127) (min 127 (t - el.emax))
      let out := l.zipIdx.map (fun (v, k) =>
        el.encode r (draws.getD k 0) true (match v with
          | .fin b m e => .fin b m (e - x)
          | y => y))
      ((x + 127).toNat, out.map (fun o => o.1), out.foldl (fun f o => f.join o.2) {})

end Sys2Proof.Machine
end

