-- ==== Sys2Proof/Machine/Sb3.lean ====
section
/-! DEFINITION. SB3 granules (chapter 5): the checks of R121, decoding under R143, and the encoder of R144 and R145. -/

namespace Sys2Proof.Machine

/-- The header fields of a granule (Table 5.6). -/
structure Sb3Header where
  handle : Nat
  firstPos : Nat
  layer : Nat
  head : Nat
  kind : Bool
  deriving DecidableEq, Repr

/-- Block of value i (R140). -/
def sb3Block (i : Nat) : Nat := 2 * (i / 128) + i / 32 % 2

/-- The magnitude of code level k (0 to 3), in eighths (Table 5.7). -/
def sb3Level (k : Nat) : Nat := [3, 8, 14, 24].getD k 24

/-- A code's level, in eighths: bit 2 is the sign, 1 positive; the negative codes run from −3.0 upward. -/
def sb3Code (c : Nat) : Number :=
  if c < 4 then .fin true (sb3Level (3 - c)) (-3) else .fin false (sb3Level (c - 4)) (-3)

def sb3Valid (g : List Byte) : Nat := bytesAt g 12 2 % 4096
def sb3Outliers (g : List Byte) : Nat := bytesAt g 14 1

/-- Outlier entry j of a granule, as its 24 bits (R142). -/
def sb3Entry (g : List Byte) (j : Nat) : Nat := bytesAt g (832 + 3 * j) 3

/-- The CRC of a granule: over its 1,024 bytes with bytes 16 to 19 taken as zero (Table 5.6). -/
def sb3Crc (g : List Byte) : BitVec 32 := crc32c (overlay (padTo 1024 g) 16 [0, 0, 0, 0])

/-- The checks of R121. -/
def sb3Good (g : List Byte) : Bool :=
  let n := sb3Outliers g
  decide (bytesAt g 16 4 = (sb3Crc g).toNat) &&
  decide (bytesAt g 12 2 / 2 ^ 14 = 0 ∧ bytesAt g 15 1 = 0 ∧ bytesAt g 20 12 = 0) &&
  decide (n ≤ 64) &&
  (List.range 64).all (fun j =>
    let e := sb3Entry g j
    decide (e / 256 % 32 = 0) &&
    (if j < n then decide (j = 0 ∨ sb3Entry g (j - 1) / 8192 < e / 8192) else decide (e = 0xFFE000)))

/-- The element and scale of value i, before the scale is applied (R120, R143). -/
def sb3Element (g : List Byte) (i : Nat) : Number :=
  match (List.range (sb3Outliers g)).find? (fun j => decide (sb3Entry g j / 8192 = i)) with
  | some j => e4m3.decode (sb3Entry g j % 256)
  | none => sb3Code (bytesAt g (64 + 3 * i / 8) 2 / 2 ^ (3 * i % 8) % 8)

/-- The exact decoded value of value i (R143). -/
def sb3Value (g : List Byte) (i : Nat) : Number :=
  if sb3Valid g ≤ i then .fin false 0 0 else scaled (bytesAt g (32 + sb3Block i) 1) (sb3Element g i)

/-! The encoder (R144, R145) -/

/-- The nearest level to the quotient of a finite number by 2^k: its code (R145). A zero keeps its sign. -/
def sb3Nearest (k : Int) (x : Number) : Nat :=
  match x with
  | .fin neg m e =>
    let le (n : Nat) : Bool := magLe m e n (k - 4)
    let j := if le 11 then 0 else if le 22 then 1 else if le 38 then 2 else 3
    if neg then 3 - j else 4 + j
  | _ => 4

/-- The residual of a value under a provisional scale: |x − q × 2^k|, as a multiple of 2^e. -/
def sb3Residual (k : Int) (x : Number) : Nat × Int :=
  match (x.add .rne (match (sb3Code (sb3Nearest k x)).neg with
    | .fin b m e => .fin b m (e + k)
    | y => y)).1 with
  | .fin _ m e => (m, e)
  | _ => (0, 0)

/-- The smallest scale from 0 to 254 that meets a bound, and whether one does. -/
def smallestScale (ok : Int → Bool) : Nat × Bool :=
  match (List.range 255).find? (fun c => ok (Int.ofNat c - 127)) with
  | some c => (c, true)
  | none => (254, false)

/-- |x| ≤ n × 2^k / 8. -/
def within8 (x : Number) (n : Nat) (k : Int) : Bool :=
  match x with
  | .fin _ m e => magLe m e n (k - 3)
  | _ => false

/-- Insert a residual into the list of the largest, which is in falling order; ties stay behind, so the lower index goes first. -/
def insertResidual (x : Nat × Nat × Int) : List (Nat × Nat × Int) → List (Nat × Nat × Int)
  | [] => [x]
  | y :: l =>
    if magLe x.2.1 x.2.2 y.2.1 y.2.2 then y :: insertResidual x l else x :: y :: l

/-- Encode 2,048 values, of which the first valid are valid, into a granule (R144); the flags raised. -/
def sb3Encode (h : Sb3Header) (valid : Nat) (xs : List Number) : List Byte × Flags :=
  let x (i : Nat) : Number := xs.getD i (.fin false 0 0)
  let idx (b : Nat) : List Nat := (List.range 2048).filter (fun i => decide (sb3Block i = b ∧ i < valid))
  let bad (b : Nat) : Bool := (idx b).any (fun i => !(x i).isFin)
  let live := (List.range 32).filter (fun b => !bad b && decide (idx b ≠ []))
  let provisional (b : Nat) : Int :=
    let sum := (idx b).foldl (fun (t : Number) i => (t.add .rne (match x i with
      | .fin _ m e => .fin false m e
      | y => y)).1) (.fin false 0 0)
    ((smallestScale (fun k => match sum with
      | .fin _ m e => magLe m e (idx b).length k
      | _ => false)).1 : Int) - 127
  let residuals := live.flatMap (fun b =>
    let k := provisional b
    (idx b).map (fun i => (i, sb3Residual k (x i))))
  let nonzero := residuals.filter (fun r => decide (r.2.1 ≠ 0))
  let byIndex := (List.range 2048).filterMap (fun i => nonzero.find? (fun r => decide (r.1 = i)))
  let outliers := ((byIndex.foldl (fun l r => insertResidual (r.1, r.2.1, r.2.2) l) []).take 64).map (fun r => r.1)
  let isOut (i : Nat) : Bool := decide (i ∈ outliers)
  let final (b : Nat) : Nat × Bool :=
    let inl := (idx b).filter (fun i => !isOut i)
    let outl := (idx b).filter isOut
    if inl.any (fun i => !(x i).isZero) then smallestScale (fun k => inl.all (fun i => within8 (x i) 24 k))
    else if outl = [] then (0, true)
    else smallestScale (fun k => outl.all (fun i => within8 (x i) 3584 k))
  let finals := (List.range 32).map (fun b => if bad b then (0xFF, true) else if idx b = [] then (0, true) else final b)
  let scale (b : Nat) : Nat := (finals.getD b (0, true)).1
  let codes := (List.range 2048).map (fun i =>
    if i < valid ∧ scale (sb3Block i) ≠ 0xFF then sb3Nearest ((scale (sb3Block i) : Int) - 127) (x i) else 4)
  let entries := ((List.range 2048).filter isOut).map (fun i =>
    let z := match x i with
      | .fin b m e => .fin b m (e - (scale (sb3Block i) : Int) + 127)
      | y => y
    (i * 8192 + (e4m3.encode .rne 0 false z).1, !within8 z 3584 0))
  let flags : Flags :=
    { nv := (List.range 32).any bad
      sat := finals.any (fun f => !f.2) || entries.any (fun e => e.2) }
  let codeBytes := (List.range 256).flatMap (fun t =>
    leBytes 3 (((codes.drop (8 * t)).take 8).zipIdx.foldl (fun n (c, k) => n + c * 2 ^ (3 * k)) 0))
  let entryList := (List.range 64).flatMap (fun j => leBytes 3 ((entries.map (fun e => e.1)).getD j 0xFFE000))
  let head :=
    leBytes 4 h.handle ++ leBytes 4 h.firstPos ++ leBytes 2 h.layer ++ leBytes 2 h.head ++
    leBytes 2 (valid + (if h.kind then 4096 else 0) + (if valid < 2048 then 8192 else 0)) ++
    [BitVec.ofNat 8 entries.length, 0] ++ List.replicate 16 0
  let g := head ++ ((List.range 32).map (fun b => BitVec.ofNat 8 (scale b))) ++ codeBytes ++ entryList
  (overlay g 16 (leBytes 4 (sb3Crc g).toNat), flags)

end Sys2Proof.Machine
end

