-- ==== Sys2Proof/Machine/Registers.lean ====
section
/-! DEFINITION. Register access: which register lies at an address, what a read returns, and what a write does under the
change classes and the rules of R7, R14, R15, R18 and R523, with the registers whose write is an operation of its own. -/

namespace Sys2Proof.Machine

/-- Window bases (Table 2.1). -/
def squareWindow (q : Nat) : Nat := 0xF00000000000 + q * 0x1000000
def refereeWindow : Nat := 0xF10000000000

/-- Index j of an offset among count values that lie step bytes apart. -/
def slotIndex (off base step count : Nat) : Option Nat :=
  if base ≤ off ∧ (off - base) % step = 0 ∧ (off - base) / step < count then some ((off - base) / step) else none

/-- The instance of a register name in the window of a square. -/
def squareInstance (q off : Nat) (r : RegInfo) : Option Nat :=
  match r.window, squareKind q with
  | .square, _ => some q
  | .site, .site i => some i
  | .stack, .dram k => some k
  | .host, .host h => if q = hostSquare h then some h else none
  | .engine, .optical e => some e
  | .quad, .optical e => if r.offset ≤ off ∧ (off - r.offset) / 0x100 < 4 then some (4 * e + (off - r.offset) / 0x100) else none
  | .clock, .clock => some 0
  | .service, .service => some 0
  | _, _ => none

/-- The register at an 8-byte offset of a square's window. -/
def squareReg (q off : Nat) : Option RegKey :=
  RegName.all.findSome? (fun n =>
    let r := n.info
    match squareInstance q off r with
    | none => none
    | some i =>
      let base := if r.window = .quad then r.offset + (i % 4) * 0x100 else r.offset
      (slotIndex off base r.step r.count).map (fun j => rk n i j))

/-- The register at an 8-byte offset of the Referee window. -/
def refereeReg (off : Nat) : Option RegKey :=
  RegName.all.findSome? (fun n =>
    let r := n.info
    let block (count : Nat) : Option RegKey :=
      if r.offset ≤ off ∧ (off - r.offset) / r.stride < count then
        let i := (off - r.offset) / r.stride
        (slotIndex off (r.offset + i * r.stride) r.step r.count).map (fun j => rk n i j)
      else none
    match r.window with
    | .referee => (slotIndex off r.offset r.step r.count).map (fun j => rk n 0 j)
    | .partition => block 8
    | .region => block 16
    | .ring => block 8
    | _ => none)

/-- The address of a register. -/
def RegKey.addr (k : RegKey) : Nat :=
  let r := k.name.info
  match r.window with
  | .square => squareWindow k.i + r.offset + k.j * r.step
  | .site => squareWindow (siteSquare k.i) + r.offset + k.j * r.step
  | .stack => squareWindow (stackSquare k.i) + r.offset + k.j * r.step
  | .host => squareWindow (hostSquare k.i) + r.offset + k.j * r.step
  | .engine => squareWindow (engineSquare k.i) + r.offset + k.j * r.step
  | .quad => squareWindow (engineSquare (k.i / 4)) + r.offset + (k.i % 4) * 0x100 + k.j * r.step
  | .clock => squareWindow 15 + r.offset + k.j * r.step
  | .service => squareWindow 255 + r.offset + k.j * r.step
  | .csr => r.offset
  | _ => refereeWindow + r.offset + k.i * r.stride + k.j * r.step

/-- The square whose window holds a register; square (0,0) for the Referee window. -/
def RegKey.square (k : RegKey) : Nat :=
  match k.name.info.window with
  | .square => k.i
  | .site => siteSquare k.i
  | .stack => stackSquare k.i
  | .host => hostSquare k.i
  | .engine => engineSquare k.i
  | .quad => engineSquare (k.i / 4)
  | .clock => 15
  | .service => 255
  | _ => 0

/-- The partition a register belongs to, if any (R12, R418, R472): pool-map registers belong to PART while VALID is 1. -/
def State.regOwner (s : State) (k : RegKey) : Option Nat :=
  match k.name with
  | .olPoolMap | .olPoolQuads =>
    if s.flag .olPoolMap 0 k.j 63 then some (s.field .olPoolMap 0 k.j 48 3) else none
  | n => match n.info.window with
    | .partition | .ring => some k.i
    | .region => s.regionOwner k.i
    | .referee | .clock | .service | .csr => none
    | _ => s.owner k.square

/-! Reads -/

/-- The egress buffer of an optical square toward its engine is full (R227): 256 lines of the port class wait for the engine's four quads. -/
def State.portFull (s : State) (q : Nat) : Bool :=
  match squareKind q with
  | .optical e => decide (256 ≤ ((rangeFrom (4 * e) 4).map (fun n =>
      ((s.quad n).outMsgs.filter (fun m => decide (m.op ∈ [2, 3, 5]))).length - (s.quad n).circMsgs.length)).sum)
  | _ => false

/-- What a read of a register returns. Registers that report the state of a unit are read from that unit. -/
def State.readReg (s : State) (k : RegKey) : Word :=
  match k.name with
  | .gcNow => s.now k.i
  | .gcSlew => BitVec.ofNat 64 (BitVec.ofInt 32 s.clock.slew).toNat
  | .ccGenDirty => BitVec.ofNat 64 (s.genDirty k.i % 2 ^ 16)
  | .ccPoisoned => BitVec.ofNat 64 (s.slicePoisoned k.i % 2 ^ 16)
  | .mcZfPending => BitVec.ofNat 64 (s.fillsOfStack k.i)
  | .mcEccStatus => putBit (s.reg .mcEccStatus k.i) 2 (decide (s.fillsOfStack k.i ≠ 0))
  | .bnStatus => putBit (s.reg .bnStatus k.i) 9 (s.portFull k.i)
  | .stSeals => BitVec.ofNat 64 (s.square k.i).sealed.length
  -- R208 gives SQ_CYCLE no value outside play and slip: 0 (DESIGN CHOICE, log 78).
  | .sqCycle => match s.siteOwner k.i with
    | some p => if s.phase p = 1 ∨ s.phase p = 3 then (s.now (siteSquare k.i) - s.reg .tnStart p) * BitVec.ofNat 64 (cyclesPerTick (s.stepNow p)) else 0
    | none => 0
  | .dbSession => match (s.part k.i).sessionOpened with
    | some (_, t) => putBits (s.reg .dbSession k.i) 0 32 (3600 - (s.now - t).toNat / 100000000)
    | none => s.reg .dbSession k.i
  | .hdTurn => match s.hostOwner (k.i / 32) with
    | some p => if s.turn p = 0 then 0 else s.turn p - 1
    | none => 0
  | .hdTurnStart => match s.hostOwner (k.i / 32) with
    | some p => s.reg .tnStart p
    | none => 0
  | .hdWhere => BitVec.ofNat 64 (((s.hostOwner (k.i / 32)).getD 0) * 2 ^ 16 + (k.i / 32) * 2 ^ 8 + k.i % 32)
  | .dbIdcode => Config.idcode.setWidth 64
  | n => s.reg n k.i k.j

/-! The rules of a write -/

/-- REF_BOOT.READY (Table 16.8). -/
def State.ready (s : State) : Bool := s.flag .refBoot 0 0 18

/-- FAR leaves of a partition's streams that point into a pool window (R361), read through the tables as the host side
holds them. -/
def State.peek (s : State) (b : Nat) : List Byte :=
  match (s.holders b).findSome? (fun h => match Sparse.nfind s.hartBlocks (hartKey h b) with
    | some c => if c.dirty = [] then none else some c.data
    | none => none) with
  | some d => d
  | none => match Sparse.nfind s.hsc b with
    | some c => c.data
    | none => s.bytes (64 * b) 64

/-- Entry i of a page-table node at an address, as the host side holds it (R301, R304). -/
def State.peekEntry (s : State) (node i : Nat) : Word :=
  BitVec.ofNat 64 (bytesAt (s.peek ((node + 8 * i) / 64)) ((node + 8 * i) % 64) 8)

/-- The node address of a valid entry. -/
def entryAddr (e : Word) : Nat := bitsAt e 10 38 * 1024

/-- Every leaf of a page table that a predicate holds of. -/
def State.anyLeaf (s : State) (root : Nat) (ok : Word → Bool) : Bool :=
  (List.range 128).any (fun i1 =>
    let e1 := s.peekEntry root i1
    bitAt e1 63 && (List.range 128).any (fun i2 =>
      let e2 := s.peekEntry (entryAddr e1) i2
      bitAt e2 63 && (List.range 128).any (fun i3 =>
        let e3 := s.peekEntry (entryAddr e2) i3
        bitAt e3 63 && ok e3)))

/-- Some FAR leaf of any partition points into pool window n (Table 13.9). -/
def State.poolRunning (s : State) (n : Nat) : Bool :=
  let holds (e : StreamEntry) : Bool := decide (e.root ≠ 0) && s.anyLeaf e.root.toNat
    (fun l => decide (bitsAt l 61 2 = 2 ∧ bitsAt l 40 8 = 0x80 + n))
  s.rows.any (fun (_, e) => holds e) || (List.range 8).any (fun p => (s.part p).parked.any (fun (_, e) => holds e))

/-- What "running" means for the block that owns a K register (R14 and each block's chapter). -/
def State.blockRunning (s : State) (k : RegKey) : Bool :=
  match k.name with
  | .refSamLo | .refSamHi | .refSamDigest | .refRsvLo | .refRsvHi | .refRetLo | .refRetHi | .refOutLo | .refOutHi
  | .refSamGen => true
  | .mbRingSq | .mbRingCq | .mbRingCtl | .mbRingMsiAddr | .mbRingMsiData => s.flag .mbRingCtl k.i k.j 0
  | .hdBootAddr => decide (s.field .hdStatus k.i 0 1 2 ≠ 0)
  | .olPoolMap | .olPoolQuads => s.poolRunning k.j
  | .ptRegions => s.formed k.i
  | .tnMinStep | .tnSpan => s.bookLoaded k.i
  | .sfFence | .snTree => match s.owner k.square with
    | some p => s.formed p
    | none => false
  | _ => match s.owner k.square with
    | some p => s.bookLoaded p
    | none => false

/-- The status register in which a block sets BUSY_WRITE, if it has one (R14). -/
def busyRegister : RegName → Option RegName
  | .refSamLo | .refSamHi | .refSamDigest | .refRsvLo | .refRsvHi | .refRetLo | .refRetHi | .refOutLo | .refOutHi
  | .refSamGen => some .refStatus
  | .tnMinStep | .tnSpan => some .tnStatus
  | .mxModeInit | .mxQueue => some .mxStatus
  | .sqTables => some .sqStatus
  | .mbRingSq | .mbRingCq | .mbRingCtl | .mbRingMsiAddr | .mbRingMsiData => some .mbRingStatus
  | .hdBootAddr => some .hdStatus
  | .ptRegions => some .ptStatus
  | _ => none

/-- The encoded fields of a register that do not take every value: the field's lowest bit and width, and the values that it may hold. A
value that a table calls reserved or lists nowhere, or that lies outside the range its row gives, is not one (R7, R81). Byte 7 of
BN_CROUTE31 is reserved, since no circuit has that number (Table 8.10). -/
def fieldChecks (k : RegKey) : List (Nat × Nat × (Nat → Bool)) :=
  match k.name with
  | .dmRgn => [(61, 2, fun x => decide (x ≠ 2))]
  | .ccLayout => [(0, 24, fun x => decide (x % 256 + x / 256 % 256 + x / 65536 ≤ 239))]
  | .tnTurnLen => [(0, 20, fun x => decide (25000 ≤ x ∧ x ≤ 800000))]
  | .tnChgLen => [(0, 14, fun x => decide (1000 ≤ x ∧ x ≤ 10000))]
  | .mxModeInit => [(0, 3, fun x => decide (x ≤ 4))]
  | .mbRingSq | .mbRingCq => [(0, 4, fun x => decide (4 ≤ x))]
  | .mbRingCtl => [(1, 2, fun x => decide (x ≠ 3))]
  | .hdPcieCfg => [(0, 2, fun x => decide (x ≠ 3))]
  | .olPoolTmo => [(0, 16, fun x => decide (10 ≤ x ∧ x ≤ 10000))]
  | .bktCfg => [(0, 16, fun x => decide (1 ≤ x)), (16, 32, fun x => decide (1 ≤ x))]
  | .mcErase => [(0, 5, fun x => decide (x ≤ 17 ∨ x = 0x1F))]
  | .snTree => [(0, 3, fun x => decide (x ≤ 4))]
  | .bnCroute => (List.range 8).map (fun b => (8 * b, 3, fun x => if k.j = 31 ∧ b = 7 then decide (x = 0) else decide (x ≠ 7)))
  | _ => []

/-- The value v that a write of the bytes in mask would leave may be held: every encoded field that the write touches takes it (R7). A
field outside the written bytes is not written at all (R523). -/
def valueAllowed (k : RegKey) (mask v : Word) : Bool :=
  (fieldChecks k).all (fun (lo, n, ok) => decide (bitsAt mask lo n = 0) || ok (bitsAt v lo n))

/-- A write is dropped and recorded (R472). -/
def State.dropWrite (s : State) (k : RegKey) (ev : Nat) : State :=
  s.dropped k.name.info.block ev (s.regOwner k) k.square k.addr

/-- A refusal by a register's own check: the field keeps its value, and a WARNING event is recorded (R68, R251, R306, R361). -/
def State.refuseWrite (s : State) (k : RegKey) : State :=
  s.event k.name.info.block 0x02 .warning (s.regOwner k) k.square (leBytes 8 k.addr)

/-! Registers whose write is an operation -/

/-- Entries of a ring (Table 9.5). -/
def ringEntries (v : Word) : Nat := 2 ^ bitsAt v 0 4

/-- Base address of a ring. -/
def ringBase (v : Word) : Nat := bitsAt v 12 36 * 4096

/-- A range of addresses lies wholly in DRAM of a partition. -/
def State.inPartDram (s : State) (p a n : Nat) : Bool :=
  decide (a + n ≤ 48 * 2 ^ 36) &&
  (rangeFrom (stackOf a) (stackOf (a + n - 1) - stackOf a + 1)).all (fun k => decide (s.stackOwner k = some p))

/-- The bases and counts with which a ring may be enabled (R251). -/
def State.ringBasesGood (s : State) (p n : Nat) : Bool :=
  let sq := s.reg .mbRingSq p n
  let cq := s.reg .mbRingCq p n
  decide (bitsAt sq 0 4 = bitsAt cq 0 4) && s.inPartDram p (ringBase sq) (64 * ringEntries sq) &&
  s.inPartDram p (ringBase cq) (64 * ringEntries cq)

/-- A doorbell write (R252): the producer index, accepted while it is at most the entry count ahead of CONS; any other value
stops the ring. -/
def State.doorbell (s : State) (p n : Nat) (v : BitVec 32) : State :=
  let cons := s.field .mbRingCons p n 0 32
  let ahead := (v.toNat + 2 ^ 32 - cons) % 2 ^ 32
  if ahead ≤ ringEntries (s.reg .mbRingSq p n) then s.setReg .mbRingProd p n (v.setWidth 64)
  else
    let s := (s.setFlag .mbRingStatus p n 1 true).setFlag .mbRingStatus p n 2 true
    s.event7F .warning (some p) 0 .mbRingStatus p n

/-- End a debug session (R489). -/
def State.endSession (s : State) (p : Nat) : State :=
  (s.setReg .dbSession p 0 0).modPart p (fun v => { v with sessionOpened := none })

/-- A disabled ring with no command outstanding: ENABLE reads 0, the four indices and STATUS are zero (R257), and a session
of the ring ends (R489). -/
def State.closeRing (s : State) (p n : Nat) : State :=
  let s := s.setFlag .mbRingCtl p n 0 false
  let s := [RegName.mbRingProd, .mbRingCons, .mbRingCqProd, .mbRingCqCons, .mbRingStatus].foldl (fun s r => s.setReg r p n 0) s
  let s := s.modRing p n (fun r => { r with outstanding := 0, closing := false })
  if s.flag .dbSession p 0 63 ∧ s.field .dbSession p 0 48 4 = n then s.endSession p else s

/-- Software writes ENABLE = 0 (R257): the ring accepts no more, and reads enabled until its commands have completed. The indices and STATUS
of a ring with none outstanding are zeroed at once, those that a doorbell to a disabled ring has set too. -/
def State.disableRing (s : State) (p n : Nat) : State :=
  if (s.ring p n).outstanding = 0 then s.closeRing p n
  else s.modRing p n (fun r => { r with closing := true })

/-- Software writes ENABLE = 1 (R251). -/
def State.enableRing (s : State) (p n : Nat) : State :=
  if s.flag .mbRingCtl p n 0 then s
  else if s.ringBasesGood p n then s.setFlag .mbRingCtl p n 0 true
  else s.event7F .warning (some p) 0 .mbRingCtl p n

/-- A write of MB_RINGn_CTL whose K fields have been settled: v is the value to hold (R250, R251, R257). ENABLE acts only where the bytes
written hold it (R523). -/
def State.writeRingCtl (s : State) (p n : Nat) (r : Requester) (mask v : Word) : State :=
  let old := s.reg .mbRingCtl p n
  if bitsAt v 1 2 = 2 ∧ bitsAt old 1 2 ≠ 2 ∧ r ≠ .referee then s.dropWrite (rk .mbRingCtl p n) 0x02
  else
    let s := s.setReg .mbRingCtl p n (putBit v 0 (bitAt old 0))
    if !bitAt mask 0 then s else if bitAt v 0 then s.enableRing p n else s.disableRing p n

/-- CHG_MIN of the loaded book, or 1,000 with no book (R525). -/
def State.chgMin (s : State) (p : Nat) : Nat := ((s.part p).book.map (fun b => b.chgMin)).getD 1000

/-- Lines of the enabled standing ranges of a partition, from the values given for range n (R525). -/
def standingLines (base len : Nat → Word) : Nat :=
  (List.range 16).foldl (fun t n => if bitAt (base n) 0 then t + bitsAt (len n) 0 32 else t) 0

/-- The checks of a write to a standing publish range (R68), on the ranges as they would stand after it. -/
def State.pubAllowed (s : State) (p n : Nat) (base len : Nat → Word) : Bool :=
  let cap := 64 * (s.partRegions p).length * (s.chgLen p - s.chgMin p)
  let b := base n
  let l := bitsAt (len n) 0 32
  decide (standingLines base len ≤ cap) &&
  (!bitAt b 0 || decide (l = 0) || (s.inPartDram p (bitsAt b 10 38 * 1024) (1024 * l) && decide (l ≤ 2 ^ 22)))

/-- A write of CC_PUBn_BASE or CC_PUBn_LEN (R68). -/
def State.writePub (s : State) (p n : Nat) (isLen : Bool) (v : Word) : State :=
  let base (m : Nat) := if m = n ∧ !isLen then v else s.reg .ccPubBase p m
  let len (m : Nat) := if m = n ∧ isLen then v else s.reg .ccPubLen p m
  let k := rk (if isLen then .ccPubLen else .ccPubBase) p n
  if s.pubAllowed p n base len then s.setReg k.name p n v else s.refuseWrite k

/-- A pinned unit of a square holds a state page of the partition: of a resident stream, or of a parked one. -/
def State.unitHoldsPage (s : State) (p q u : Nat) : Bool :=
  let holds (e : StreamEntry) : Bool := decide (e.root ≠ 0) && s.anyLeaf e.root.toNat (fun l =>
    decide (bitsAt l 61 2 = 1 ∧ entryAddr l / 0x40000 = (0x080000000000 + q * 0x04000000 + u * 0x40000) / 0x40000))
  s.rows.any (fun (_, e) => decide (e.part.toNat = p) && holds e) || (s.part p).parked.any (fun (_, e) => holds e)

/-- A write of ST_PIN_LEND (R306): refused above PIN of some square, or where it would take back a unit that holds a page. -/
def State.writePinLend (s : State) (p n : Nat) : State :=
  let old := s.field .stPinLend p 0 0 8
  let bad (q : Nat) : Bool :=
    let pin := s.field .ccLayout q 0 0 8
    decide (pin < n) || (rangeFrom (pin - old + 1) (old - n)).any (fun u => s.unitHoldsPage p q u)
  if (s.partSquares p).any bad then s.refuseWrite (rk .stPinLend p 0) else s.setReg .stPinLend p 0 (BitVec.ofNat 64 n)

/-- The quads of a pool window's list (Table 13.9). -/
def poolQuads (v : Word) : List Nat := (((List.range 8).map (fun k => bitsAt v (8 * k) 8)).filter (fun q => q ≠ 0xFF))

/-- A write of OL_POOL_MAPn or OL_POOL_QUADSn (R361): the window's quads must lie in the regions of PART. -/
def State.writePool (s : State) (n : Nat) (isQuads : Bool) (v : Word) : State :=
  let m := if isQuads then s.reg .olPoolMap 0 n else v
  let l := if isQuads then v else s.reg .olPoolQuads 0 n
  let p := bitsAt m 48 3
  let good := !bitAt m 63 || (s.formed p && (poolQuads l).all (fun q => decide (q < 224) && decide (q ∈ s.partQuads p)))
  let k := rk (if isQuads then .olPoolQuads else .olPoolMap) 0 n
  if good then s.setReg k.name 0 n v else s.refuseWrite k

/-- A write of MC_ERASE (R382, R385): ERASED follows it. -/
def State.writeErase (s : State) (k : Nat) (v : Nat) : State :=
  (s.setReg .mcErase k 0 (BitVec.ofNat 64 v)).setFlag .mcEccStatus k 0 1 (decide (v ≠ 0x1F))

/-- A write of REF_WDOG (R243): HEARTBEAT toggles at a write at least 1 ms after the previous toggle. During a warm restart, and once the Referee
is lost, HEARTBEAT is held low and no write leaves the Referee (R242, R247). -/
def State.watchdog (s : State) (v : Word) : State :=
  let t := s.now
  let r := s.referee
  let toggle := !r.wdogWritten || decide (r.lastToggle.toNat + 100000 ≤ t.toNat)
  if !s.coresRun then s else
  let s := s.setReg .refWdog 0 0 v
  { s with
    referee := { r with lastWdog := t, wdogWritten := true, lastToggle := if toggle then t else r.lastToggle }
    pins := { s.pins with heartbeat := if toggle then !s.pins.heartbeat else s.pins.heartbeat } }

/-- A write of GC_SET before Ready (R70, R74): the counter takes the value at once. -/
def State.setClock (s : State) (v : Word) : State :=
  let d : Int := s.clock.counter.toNat - v.toNat
  let offsets := (List.range 256).foldl (fun l q =>
    if q = 15 then l else Sparse.nset 0 l q (Sparse.nget 0 s.clock.offsets q + d)) s.clock.offsets
  { s.setReg .gcSet 0 0 v with clock := { s.clock with counter := v, offsets := offsets, fixing := [] } }

/-- A write of GC_SLEW (R74). -/
def State.setSlew (s : State) (v : BitVec 32) : State :=
  let s := { s with clock := { s.clock with slew := v.toInt } }
  s.setFlag .gcStatus 0 0 2 (decide (v ≠ 0))

/-! Writes -/

/-- Put the value of a permitted write into effect under the register's class: a T register is latched at the next changeover,
or at once where no partition owns it (R8, R12). Registers with an operation of their own perform it. mask names the bytes written. -/
def State.applyWrite (s : State) (r : Requester) (k : RegKey) (mask v : Word) : State :=
  match k.name with
  | .gcSet => s.setClock v
  | .gcSlew => s.setSlew (v.setWidth 32)
  | .refWdog => s.watchdog v
  | .mbRingProd => s.doorbell k.i k.j (v.setWidth 32)
  | .mbRingCtl => s.writeRingCtl k.i k.j r mask v
  | .ccPubBase => s.writePub k.i k.j false v
  | .ccPubLen => s.writePub k.i k.j true v
  | .stPinLend => s.writePinLend k.i (bitsAt v 0 8)
  | .olPoolMap => s.writePool k.j false v
  | .olPoolQuads => s.writePool k.j true v
  | .mcErase => s.writeErase k.i v.toNat
  | .dmBankEn => (s.setReg .dmBankEn k.i 0 v).zeroBanks k.i (v &&& ~~~ (s.reg .dmBankEn k.i))
  | .mbRingCqCons =>
    let moved := decide (s.reg .mbRingCqCons k.i k.j ≠ v)
    let s := s.setReg .mbRingCqCons k.i k.j v
    if moved then s.setFlag .mbRingStatus k.i k.j 3 false else s
  | n =>
    if n.info.cls = .turn ∧ s.regOwner k = none then s.setBoth n k.i k.j v else s.setReg n k.i k.j v

/-- The 64-bit mask of n bytes from byte o. -/
def laneMask (o n : Nat) : Word := BitVec.ofNat 64 ((2 ^ (8 * n) - 1) * 2 ^ (8 * o))

/-- A write of n bytes at byte o of a register by a requester (R7, R8, R14, R15, R18, R81, R523). One that covers no byte of any field
writes nothing. -/
def State.writeReg (s : State) (r : Requester) (k : RegKey) (o n : Nat) (value : Word) : State :=
  let info := k.name.info
  let mask := laneMask o n
  let lanes := (value <<< (8 * o)) &&& mask
  let old := s.readReg k
  let merged := (old &&& ~~~ mask) ||| lanes
  if lanes &&& ~~~ info.defined ≠ 0 then s.dropWrite k 0x03
  else if info.refereeOnly ∧ r ≠ .referee then s.dropWrite k 0x02
  else if info.readOnly = info.defined then s.dropWrite k 0x02
  else if mask &&& info.defined = 0 then s
  else if info.clearOnZero then
    if lanes = 0 then s.setReg k.name k.i k.j merged else s.dropWrite k 0x02
  else if info.cls = .boot ∧ s.ready then s.dropWrite k 0x02
  else
    let kbits := if info.cls = .locked then info.defined &&& ~~~ info.liveMask else 0
    let refused := decide (info.cls = .locked) && s.blockRunning k && decide ((merged ^^^ old) &&& kbits ≠ 0)
    let s := if refused then
        let s := match busyRegister k.name with
          | some b => s.setFlag b k.i (if b = RegName.mbRingStatus then k.j else 0) 0 true
          | none => s
        s.dropWrite k 0x01
      else s
    let keep := info.readOnly ||| info.writeOneClear ||| (if refused then kbits else 0)
    let new := ((merged &&& ~~~ keep) ||| (old &&& keep)) &&& ~~~ (lanes &&& info.writeOneClear)
    if refused ∧ info.liveMask = 0 then s
    else if !valueAllowed k mask new then s.dropWrite k 0x03
    else s.applyWrite r k mask new

/-- The byte lanes of an access of n bytes at an offset: the 8-byte offset and the byte within it. -/
def lanesOf (off : Nat) : Nat × Nat := (off / 8 * 8, off % 8)

/-- Read n bytes at an offset of a register. -/
def State.readLanes (s : State) (k : RegKey) (o n : Nat) : List Byte := ((leBytes 8 (s.readReg k).toNat).drop o).take n

end Sys2Proof.Machine
end

