-- ==== Sys2Proof/Machine/Completion.lean ====
section
/-! DEFINITION. Message-signalled interrupts, management messages, and the completion of a command: the completion entry of
its path, its MSI and its journal entry (R246, R253 to R258, R266, R337, R338, R406). -/

namespace Sys2Proof.Machine

/-! Interrupt files -/

/-- The interrupt-file page at an address (R337): host die, and file number core × 9 + 0 for M, + 1 for S, + 1 + g for guest
file g. -/
def interruptFile (a : Nat) : Option (Nat × Nat × Nat) :=
  (List.range 8).findSome? (fun h =>
    let w := squareWindow (hostSquare h)
    if w + 0x200000 ≤ a ∧ a < w + 0x300000 then
      let o := a - (w + 0x200000)
      some (h, o / 0x8000 * 9 + 1 + o % 0x8000 / 0x1000, o % 0x1000)
    else if w + 0x300000 ≤ a ∧ a < w + 0x320000 then
      let o := a - (w + 0x300000)
      some (h, o / 0x1000 * 9, o % 0x1000)
    else none)

/-- Make an identity pending in an interrupt file (R337): identity 0 and identities above 255 are ignored. -/
def State.setPending (s : State) (h file id : Nat) : State :=
  if id = 0 ∨ 255 < id then s
  else s.modHost h (fun v =>
    { v with pending := Sparse.nset [] v.pending file (Sparse.insertNat (Sparse.nget [] v.pending file) id) })

/-- HD_STATUS.STATE is RUNNING (Table 12.8). -/
def State.hostRunning (s : State) (h : Nat) : Bool := decide (s.field .hdStatus h 0 1 2 = 1)

/-- HD_STATUS.FENCED. -/
def State.hostFenced (s : State) (h : Nat) : Bool := s.flag .hdStatus h 0 3

/-- A device interrupt (R338): a 32-bit write to the seteipnum_le offset of an interrupt-file page of a host die of the source's
partition. Any other address sends nothing and records a WARNING; a die in reset or fenced drops it. -/
def State.sendMsi (s : State) (part : Option Nat) (block source addr : Nat) (data : BitVec 32) : State :=
  match interruptFile addr with
  | some (h, file, 0) =>
    if s.hostOwner h = part ∧ part ≠ none then
      if s.hostRunning h && !s.hostFenced h then s.setPending h file data.toNat else s.bump .hdMsiDrop h
    else s.event block 0x02 .warning part source (leBytes 8 addr)
  | _ => s.event block 0x02 .warning part source (leBytes 8 addr)

/-! Management messages -/

/-- The module ID of this module (OL_MODULE_ID). -/
def State.moduleId (s : State) : BitVec 13 := BitVec.ofNat 13 (s.field .olModuleId 0 0 0 13)

/-- A message put on a quad's queue of messages to send (R359). -/
def State.pushMsg (s : State) (quad : Nat) (m : LinkMsg) : State :=
  s.modQuad quad (fun v => { v with outMsgs := v.outMsgs ++ [m] })

/-- The partner module ID of a quad: OL_QSTATUS [63:51]. -/
def State.partnerOf (s : State) (quad : Nat) : BitVec 13 := BitVec.ofNat 13 (s.field .olQstatus quad 0 51 13)

/-- A MGMT message (R360): KIND and the tick in the first unit, then the units of Table 13.6c. -/
def State.mgmtMsg (s : State) (dst : BitVec 13) (kind : Nat) (srcPart dstPart : Nat) (xid : BitVec 16) (units : List Byte) : LinkMsg :=
  { op := 0x09, status := 0, dst := dst, src := s.moduleId, srcPart := BitVec.ofNat 3 srcPart,
    dstPart := BitVec.ofNat 3 dstPart, xid := xid, seq := 0, lines := 0, epoch := 0, turn := 0, rctr := 0, addr := 0,
    payload := leBytes 8 kind ++ leBytes 8 s.now.toNat ++ units }

/-- Send a MGMT message to a module on a quad. -/
def State.sendMgmt (s : State) (quad : Nat) (dst : BitVec 13) (kind srcPart dstPart : Nat) (xid : BitVec 16) (units : List Byte) : State :=
  s.pushMsg quad (s.mgmtMsg dst kind srcPart dstPart xid units)

/-! States and roles of a quad (Tables 13.3, 13.10) -/

def quadDark : Nat := 0
def quadTraining : Nat := 1
def quadUp : Nat := 2
def quadDownState : Nat := 3
def quadVacant : Nat := 4

def roleFabric : Nat := 0
def roleDirect : Nat := 1
def rolePool : Nat := 2
def roleDark : Nat := 3

def State.quadState (s : State) (n : Nat) : Nat := s.field .olQstatus n 0 12 4
def State.quadRole (s : State) (n : Nat) : Nat := s.field .olQstatus n 0 16 2
def State.quadIsUp (s : State) (n : Nat) : Bool := decide (s.quadState n = quadUp)

/-- The first UP DIRECT or FABRIC quad of a partition that leads to a module (R296). -/
def State.quadTo (s : State) (p : Nat) (m : BitVec 13) : Option Nat :=
  (s.partQuads p).find? (fun n => s.quadIsUp n &&
    ((decide (s.quadRole n = roleDirect) && decide (s.partnerOf n = m)) || decide (s.quadRole n = roleFabric)))

/-- The first UP DIRECT quad that leads to a member of a spanning book (R100, R376). -/
def State.memberQuad (s : State) (p m : Nat) : Option Nat := s.quadTo p (BitVec.ofNat 13 m)

/-- Send a MGMT message to every other member of the spanning book of a partition, on the quads that reach it. -/
def State.tellMembers (s : State) (p kind : Nat) (units : List Byte) : State :=
  (s.part p).members.foldl (fun s (m, dest) =>
    match s.memberQuad p m with
    | some q => s.sendMgmt q (BitVec.ofNat 13 m) kind p dest 0 units
    | none => s) s

/-! Completions -/

/-- The 64 bytes of a completion (Table 9.9). -/
def completionBytes (opcode : BitVec 16) (st : Status) (phase replay : Bool) (tag : BitVec 32) (turn : Option Word)
    (result : List Byte) : List Byte :=
  leBytes 2 opcode.toNat ++ [BitVec.ofNat 8 st.code] ++
  [BitVec.ofNat 8 ((if phase then 1 else 0) + (if replay then 2 else 0))] ++ leBytes 4 tag.toNat ++
  leBytes 8 ((turn.getD (BitVec.allOnes 64)).toNat) ++ padTo 48 result

/-- Send the MSI of a ring now (R256). -/
def State.ringMsi (s : State) (p n : Nat) : State :=
  let s := s.modRing p n (fun r => { r with lastMsi := some s.now, msiOwed := false })
  s.sendMsi (some p) 0x11 0 (s.reg .mbRingMsiAddr p n).toNat ((s.reg .mbRingMsiData p n).setWidth 32)

/-- A completion whose command had NOTIFY set (R256): an MSI, not sooner than HOLDOFF after the ring's previous one. -/
def State.notifyRing (s : State) (p n : Nat) : State :=
  let hold := 100 * s.field .mbRingCtl p n 32 16
  match (s.ring p n).lastMsi with
  | some t => if t.toNat + hold ≤ s.now.toNat then s.ringMsi p n else s.modRing p n (fun r => { r with msiOwed := true })
  | none => s.ringMsi p n

/-- Write a completion into the next entry of a ring's completion ring, as a coherent host-side requester (R253, R255). -/
def State.writeCompletion (s : State) (p n : Nat) (opcode : BitVec 16) (st : Status) (replay : Bool) (c : Cmd)
    (turn : Option Word) (result : List Byte) : State :=
  let cq := s.reg .mbRingCq p n
  let i := s.field .mbRingCqProd p n 0 32
  let size := ringEntries cq
  let phase := decide (i / size % 2 = 0)
  let s := s.hostWrite (ringBase cq + i % size * 64) (completionBytes opcode st phase replay c.tag turn result)
  let s := s.setReg .mbRingCqProd p n (BitVec.ofNat 64 ((i + 1) % 2 ^ 32))
  let s := s.modRing p n (fun r => { r with outstanding := r.outstanding - 1 })
  if c.notify then s.notifyRing p n else s

/-- The bytes of a journal entry that its CRC-32C covers (R246). DESIGN CHOICE (log 81): the spec gives the entry no layout. -/
def journalBytes (c : Cmd) (opcode : BitVec 16) (reached : Bool) : List Byte :=
  let flags := (if c.notify then 1 else 0) + (if c.fence then 2 else 0) + (if c.reserved then 4 else 0) + (if reached then 8 else 0)
  let path : List Byte := match c.path with
    | .ring p n => [0, BitVec.ofNat 8 p, BitVec.ofNat 8 n]
    | .bmc => [1]
    | .mgmt p q m x => [2, BitVec.ofNat 8 p, BitVec.ofNat 8 q] ++ leBytes 2 m.toNat ++ leBytes 2 x.toNat
  leBytes 2 opcode.toNat ++ leBytes 4 c.tag.toNat ++ [c.target, BitVec.ofNat 8 flags] ++ path

/-- The journal entry of an accepted command. -/
def journalEntry (c : Cmd) (opcode : BitVec 16) (reached : Bool) : JournalEntry :=
  { cmd := c, opcode := opcode, reached := reached, crc := crc32c (journalBytes c opcode reached) }

/-- An entry passes its CRC. -/
def JournalEntry.good (e : JournalEntry) : Bool := decide (e.crc = crc32c (journalBytes e.cmd e.opcode e.reached))

/-- An entry is that of a command. -/
def JournalEntry.isOf (e : JournalEntry) (c : Cmd) (opcode : BitVec 16) : Bool := decide (e.cmd = c ∧ e.opcode = opcode)

/-- The operation of a command reaches the hardware (R246). -/
def State.markReached (s : State) (c : Cmd) (opcode : BitVec 16) : State :=
  { s with referee := { s.referee with
    journal := s.referee.journal.map (fun e => if e.isOf c opcode then journalEntry c opcode true else e) } }

/-- The partition that a command's path belongs to, if it is a ring's or a quad's. -/
def cmdPart (c : Cmd) : Option Nat :=
  match c.path with
  | .ring p _ => some p
  | .mgmt p _ _ _ => some p
  | .bmc => none

/-- Complete a command on its path, and remove its journal entry (R246): no command completes twice, so one with no entry left gives nothing. -/
def State.completeNow (s : State) (c : Cmd) (opcode : BitVec 16) (st : Status) (replay : Bool) (turn : Option Word)
    (result : List Byte) : State :=
  if !s.referee.journal.any (fun e => e.isOf c opcode) then s else
  let s := { s with referee := { s.referee with journal := s.referee.journal.eraseP (fun e => e.isOf c opcode) } }
  let s := match cmdPart c with
    | some p => if st = Status.streamTableFull then s.bump .stFullRefused p else s
    | none => s
  match c.path with
  | .ring p n => s.writeCompletion p n opcode st replay c turn result
  | .bmc =>
    { s with referee := { s.referee with
        bmcOut := s.referee.bmcOut ++ [completionBytes opcode st true replay c.tag turn result] } }
  | .mgmt p quad m xid =>
    s.sendMgmt quad m 0x02 p 0 xid (completionBytes opcode st true replay c.tag turn result)

/-- Complete a command; while the Referee is down the completion waits for the end of its restart (R245, R246). -/
def State.completeWith (s : State) (c : Cmd) (opcode : BitVec 16) (st : Status) (replay : Bool) (turn : Option Word)
    (result : List Byte) : State :=
  if s.up then s.completeNow c opcode st replay turn result
  else
    { s with referee := { s.referee with
        held := s.referee.held ++ [(c, opcode, BitVec.ofNat 8 st.code, turn, result)] } }

/-- Complete a command with a status and no result. -/
def State.complete (s : State) (c : Cmd) (opcode : BitVec 16) (st : Status) (turn : Option Word := none)
    (result : List Byte := []) : State :=
  s.completeWith c opcode st false turn result

/-- A partition reset completes (R443): it is no longer in progress. -/
def State.completeReset (s : State) (p : Nat) (c : Cmd) (st : Status) (turn : Option Word) (result : List Byte := []) : State :=
  (s.modPart p (fun v => { v with resetCmd := none })).complete c 0x0202 st turn result

/-- A result that begins at byte 16 with fields at given bytes: pieces of (byte, bytes). -/
def resultOf (l : List (Nat × List Byte)) : List Byte :=
  l.foldl (fun r (i, d) => overlay (padTo 48 r) (i - 16) d) (List.replicate 48 0)

end Sys2Proof.Machine
end

