-- ==== Sys2Proof/Machine/Pages.lean ====
section
/-! DEFINITION. The page tables of streams (chapter 11): entries, walks, translation caches, sharing and release. -/

namespace Sys2Proof.Machine

/-- Indices of a line index into the three levels (R301). -/
def levelIndex (line lvl : Nat) : Nat :=
  match lvl with
  | 1 => line / 2 ^ 20 % 128
  | 2 => line / 2 ^ 13 % 128
  | _ => line / 2 ^ 6 % 128

/-- First line index that belongs to Tolerabor (R300). -/
def toleraborLines : Nat := 0x07000000

def entryValid (e : Word) : Bool := bitAt e 63
def leafTier (e : Word) : Nat := bitsAt e 61 2
def leafCow (e : Word) : Bool := bitAt e 60
def leafLin (e : Word) : Bool := bitAt e 59
def leafMoving (e : Word) : Bool := bitAt e 58

/-- A valid entry with an address, and for a leaf its tier and its COW and LIN bits (Table 11.1). -/
def mkEntry (addr tier : Nat) (cow lin moving : Bool) : Word :=
  putBits (putBit (putBit (putBit (putBits (putBit (0 : Word) 63 true) 61 2 tier) 60 cow) 59 lin) 58 moving) 10 38 (addr / 1024)

/-- Write an entry of a table node, as a coherent host-side requester. -/
def State.writeEntry (s : State) (node i : Nat) (e : Word) : State := s.hostWrite (node + 8 * i) (leBytes 8 e.toNat)

/-- The leaf entry of a page of a table, with its node and index, as the tables stand (for Tolerabor's own use). -/
def State.leafOf (s : State) (root page : Nat) : Option (Nat × Nat × Word) :=
  if root = 0 then none
  else
    let line := 64 * page
    let e1 := s.peekEntry root (levelIndex line 1)
    if !entryValid e1 then none
    else
      let e2 := s.peekEntry (entryAddr e1) (levelIndex line 2)
      if !entryValid e2 then none
      else
        let e3 := s.peekEntry (entryAddr e2) (levelIndex line 3)
        if entryValid e3 then some (entryAddr e2, levelIndex line 3, e3) else none

/-- Every valid leaf of a table: page number, node, index, entry. -/
def State.leaves (s : State) (root : Nat) : List (Nat × Nat × Nat × Word) :=
  if root = 0 then []
  else
    (List.range 128).flatMap (fun i1 =>
      let e1 := s.peekEntry root i1
      if !entryValid e1 then []
      else (List.range 128).flatMap (fun i2 =>
        let e2 := s.peekEntry (entryAddr e1) i2
        if !entryValid e2 then []
        else (List.range 128).filterMap (fun i3 =>
          let e3 := s.peekEntry (entryAddr e2) i3
          if entryValid e3 then some (i1 * 2 ^ 14 + i2 * 2 ^ 7 + i3, entryAddr e2, i3, e3) else none)))

/-- The nodes of a table. -/
def State.tableNodes (s : State) (root : Nat) : List Nat :=
  if root = 0 then []
  else
    root :: (List.range 128).flatMap (fun i1 =>
      let e1 := s.peekEntry root i1
      if !entryValid e1 then []
      else entryAddr e1 :: (List.range 128).filterMap (fun i2 =>
        let e2 := s.peekEntry (entryAddr e1) i2
        if entryValid e2 then some (entryAddr e2) else none))

/-- Drop the entries of pages of a stream from every leaf and walk cache of a partition (R312, R314). A count of 0 names all
of the stream's pages. ST_TC_INVALS counts the entries dropped. -/
def State.invalidate (s : State) (p : Nat) (h : Handle) (first count : Nat) : State :=
  (s.partSquares p).foldl (fun s q =>
    let v := s.square q
    let hit (t : Translation) : Bool :=
      decide (t.handle = h) && (decide (count = 0) ||
        (if t.level = 3 then decide (first ≤ t.index ∧ t.index < first + count)
         else
          let span := if t.level = 2 then 2 ^ 7 else 2 ^ 14
          decide (first < (t.index + 1) * span ∧ t.index * span < first + count)))
    let n := (v.leaves.filter hit).length + (v.walks.filter hit).length
    if n = 0 then s
    else
      (s.setSquare q { v with
        leaves := v.leaves.filter (fun t => !hit t), walks := v.walks.filter (fun t => !hit t) }).bump .stTcInvals q 0 n) s

/-- Write the leaf of a page and carry the invalidation of the change (R314). -/
def State.setLeaf (s : State) (p : Nat) (h : Handle) (root page : Nat) (e : Word) : State :=
  match s.leafOf root page with
  | some (node, i, _) => (s.writeEntry node i e).invalidate p h page 1
  | none => s

/-- The next of the table lines that Tolerabor has chosen for new nodes; a free address where it gave none. Tolerabor owns the
area that nodes lie in (R303), and the spec does not place it. -/
def State.takeNode (s : State) (nodes : List Addr) : State × Nat × List Addr :=
  match nodes with
  | a :: rest =>
    let n := a.toNat / 1024 * 1024
    (s.hostWrite n (List.replicate 1024 0), n, rest)
  | [] =>
    let (w, s) := s.draw
    let n := w.toNat % (48 * 2 ^ 26) * 1024
    (s.hostWrite n (List.replicate 1024 0), n, [])

/-- The node below an entry, allocated zeroed where the entry is not valid (Table 11.3, NOT_PRESENT on a write). -/
def State.ensureNode (s : State) (node i : Nat) (nodes : List Addr) : State × Nat × List Addr :=
  let e := s.peekEntry node i
  if entryValid e then (s, entryAddr e, nodes)
  else
    let (s, n, rest) := s.takeNode nodes
    (s.writeEntry node i (mkEntry n 0 false false false), n, rest)

/-- Put a leaf into a table, allocating the nodes above it. -/
def State.placeLeaf (s : State) (root page : Nat) (e : Word) (nodes : List Addr) : State × List Addr :=
  let line := 64 * page
  let (s, n2, nodes) := s.ensureNode root (levelIndex line 1) nodes
  let (s, n3, nodes) := s.ensureNode n2 (levelIndex line 2) nodes
  (s.writeEntry n3 (levelIndex line 3) e, nodes)

/-! Pages that Tolerabor allocates. The spec leaves the choice of a free page to Tolerabor, and a command that needs one and
does not name it takes a free value. -/

/-- A page of DRAM of a partition, as a free value: its address. -/
def State.takePage (s : State) (p : Nat) : State × Nat :=
  let (w, s) := s.draw
  let ks := s.partStacks p
  let k := ks.getD (w.toNat / 2 ^ 20 % max 1 ks.length) 0
  (s, k * 2 ^ 36 + w.toNat % 2 ^ 20 * 65536)

/-- Write a page on the compute side: a tier-move or migration-copy write, dropped at a sealed page (R320). -/
def State.writePage (s : State) (a : Nat) (d : List Byte) : State :=
  (List.range 64).foldl (fun s k => s.stateWrite (a + 1024 * k) ((d.drop (1024 * k)).take 1024)) s

/-- Write 2 KiB to the save lines of tail n of a stream's tail set (R287, R300), in a DRAM page that is allocated zeroed where none holds them. -/
def State.writeSaveLines (s : State) (p root n : Nat) (d : List Byte) : State :=
  let line := toleraborLines + 2 * n
  match s.leafOf root (line / 64) with
  | some (_, _, e) => if leafTier e = 2 then s else s.stateWrite (entryAddr e + 1024 * (line % 64)) d
  | none =>
    let (s, a) := s.takePage p
    let s := s.writePage a (List.replicate 65536 0)
    let s := (s.placeLeaf root (line / 64) (mkEntry a 0 false false false) []).1
    s.stateWrite (a + 1024 * (line % 64)) d

/-- Sharers of a page, by page frame (R316); a page that is not listed has one. -/
def State.sharersOf (s : State) (p frame : Nat) : Nat := Sparse.nget 1 (s.part p).sharers frame
def State.setSharers (s : State) (p frame n : Nat) : State :=
  s.modPart p (fun v => { v with sharers := Sparse.nset 1 v.sharers frame n })

/-- Zero-fill a released page of the DRAM or pinned tier: DRAM lines are queued for fill (R396). -/
def State.fillPage (s : State) (frame : Nat) : State :=
  let a := 65536 * frame
  if inDram a then s.queueFill (64 * frame) 64
  else if a < 0x090000000000 then
    let s := s.zeroRange a 65536
    { s with
      poison := s.poison.filter (fun b => decide (¬(1024 * frame ≤ b ∧ b < 1024 * frame + 1024)))
      squares := s.squares.map (fun (q, v) => (q, v.fillSeals (fun x => decide (x = frame)))) }
  else s

/-- Seal a page that leaves a stream and release it for fill (R320, R396). -/
def State.releasePage (s : State) (p frame : Nat) : State := (s.sealPage frame (s.turn p)).fillPage frame

/-- Release one leaf of a closing stream: a page still shared stays with the other sharers (R283). -/
def State.releaseLeaf (s : State) (p : Nat) (e : Word) : State :=
  let frame := pageOf (entryAddr e)
  let n := s.sharersOf p frame
  if 1 < n then s.setSharers p frame (n - 1) else s.releasePage p frame

/-- Every page of a table could be sealed now (R320). -/
def State.releaseRoom (s : State) (root : Nat) : Bool :=
  (s.leaves root).all (fun (_, _, _, e) => s.sealRoom (pageOf (entryAddr e)))

/-- Release the pages and the nodes of a table. -/
def State.releaseTable (s : State) (p root : Nat) : State :=
  let ls := s.leaves root
  let ns := s.tableNodes root
  let s := ls.foldl (fun s (_, _, _, e) => s.releaseLeaf p e) s
  ns.foldl (fun s n => s.queueFill (n / 1024) 1) s

/-- The tiers of a stream's pages as its entry reports them (R305). -/
def State.tierBits (s : State) (root : Nat) : Bool × Bool :=
  let ls := s.leaves root
  (ls.any (fun (_, _, _, e) => decide (leafTier e = 1)), ls.any (fun (_, _, _, e) => decide (leafTier e = 2)))

end Sys2Proof.Machine
end

