-- ==== Sys2Proof/Machine/StreamOps.lean ====
section
/-! DEFINITION. The stream table and the operations that changeovers apply to it (chapter 10): handles, rows, admission, the
stream commands, tails, batches and their outcomes. -/

namespace Sys2Proof.Machine

def slotOf (h : Handle) : Nat := bitsAt h 0 20
def genOf (h : Handle) : Nat := bitsAt h 20 12
def mkHandle (gen slot : Nat) : Handle := BitVec.ofNat 32 (gen * 2 ^ 20 + slot)

/-! States of Table 10.1 -/
def stFree : BitVec 3 := 0
def stOpen : BitVec 3 := 1
def stIdle : BitVec 3 := 2
def stActive : BitVec 3 := 3
def stParked : BitVec 3 := 4
def stMigrating : BitVec 3 := 5
def stClosing : BitVec 3 := 6

/-- The 64 bytes of an entry (Table 10.1). -/
def entryBytes (e : StreamEntry) : List Byte :=
  let bit (b : Bool) (n : Nat) : Nat := if b then 2 ^ n else 0
  leBytes 4 e.handle.toNat ++
  [BitVec.ofNat 8 (e.part.toNat * 32 + e.prio.toNat * 8 + e.state.toNat)] ++
  [BitVec.ofNat 8 (e.retries.toNat * 64 + bit e.notAdv 5 + bit e.pinned 4 + bit e.far 3 + bit e.displaced 2 + bit e.shared 1 +
    bit e.tails 0)] ++
  leBytes 2 e.tenant.toNat ++ leBytes 4 e.length.toNat ++ leBytes 4 e.advPending.toNat ++ leBytes 4 e.appPending.toNat ++
  leBytes 4 e.parent.toNat ++ leBytes 8 e.root.toNat ++ leBytes 8 e.lastTurn.toNat ++ leBytes 2 e.epoch.toNat ++ leBytes 2 0 ++
  leBytes 4 e.tailset.toNat ++ leBytes 8 e.seed.toNat ++ leBytes 8 e.prompt.toNat

/-- The entry that 64 bytes spell (Table 10.1), as a migration carries it (R296). -/
def entryOfBytes (l : List Byte) : StreamEntry :=
  let b4 := bytesAt l 4 1
  let b5 := bytesAt l 5 1
  { handle := BitVec.ofNat 32 (bytesAt l 0 4), part := BitVec.ofNat 3 (b4 / 32), prio := BitVec.ofNat 2 (b4 / 8),
    state := BitVec.ofNat 3 b4, retries := BitVec.ofNat 2 (b5 / 64), notAdv := b5 / 32 % 2 = 1, pinned := b5 / 16 % 2 = 1,
    far := b5 / 8 % 2 = 1, displaced := b5 / 4 % 2 = 1, shared := b5 / 2 % 2 = 1, tails := b5 % 2 = 1,
    tenant := BitVec.ofNat 16 (bytesAt l 6 2), length := BitVec.ofNat 32 (bytesAt l 8 4),
    advPending := BitVec.ofNat 32 (bytesAt l 12 4), appPending := BitVec.ofNat 32 (bytesAt l 16 4),
    parent := BitVec.ofNat 32 (bytesAt l 20 4), root := BitVec.ofNat 48 (bytesAt l 24 6),
    lastTurn := BitVec.ofNat 64 (bytesAt l 32 8), epoch := BitVec.ofNat 16 (bytesAt l 40 2),
    tailset := BitVec.ofNat 32 (bytesAt l 44 4), seed := BitVec.ofNat 64 (bytesAt l 48 8),
    prompt := BitVec.ofNat 48 (bytesAt l 56 6) }

/-! Rows -/

/-- A live state holds a row (R268, Table 10.2). -/
def liveState (x : BitVec 3) : Bool := decide (x = stOpen ∨ x = stIdle ∨ x = stActive ∨ x = stMigrating ∨ x = stClosing)

/-- The slot blocks of a partition (R267): ST_BLOCK0 to ST_BLOCK3. -/
def State.ownsSlot (s : State) (p slot : Nat) : Bool :=
  bitAt (s.reg .stBlock p (slot / 4096 / 64)) (slot / 4096 % 64)

/-- The blocks a partition owns. -/
def State.ownBlocks (s : State) (p : Nat) : List Nat :=
  (List.range 256).filter (fun k => bitAt (s.reg .stBlock p (k / 64)) (k % 64))

/-- The live rows of a partition. -/
def State.liveRows (s : State) (p : Nat) : List (Nat × StreamEntry) :=
  s.rows.filter (fun (k, e) => s.ownsSlot p k && liveState e.state)

/-- A row of a partition is FREE. -/
def State.rowFree (s : State) (p slot : Nat) : Bool := s.ownsSlot p slot && decide ((s.row slot).state = stFree)

/-- A FREE row of the partition: the one Tolerabor takes is its choice (R291). -/
def State.freeRow (s : State) (p : Nat) : Option Nat :=
  let k := Config.pickRow s.fresh
  if s.rowFree p k then some k
  else (s.ownBlocks p).findSome? (fun b => (rangeFrom (4096 * b) 4096).find? (fun k => s.rowFree p k))

/-- Bring ST_LIVE, ST_PARKED and ST_ACTIVE up to date (Table 10.4). -/
def State.countStreams (s : State) (p : Nat) : State :=
  let s := s.setReg .stLive p 0 (BitVec.ofNat 64 (s.liveRows p).length)
  let s := s.setReg .stParked p 0 (BitVec.ofNat 64 (s.part p).parked.length)
  s.setReg .stActive p 0 (BitVec.ofNat 64
    ((((s.part p).batch.flatMap (fun x => (x.2.filter (fun r => r.live)).map (fun r => r.handle))).eraseDups).length))

/-- What a row reads once it is FREE: the handle last issued for its slot, and zero (R272). -/
def State.freeEntry (s : State) (slot : Nat) : StreamEntry :=
  match Sparse.nget 0 s.generations slot with
  | 0 => {}
  | g => { handle := mkHandle g.toNat slot }

/-- Free a row; the forward record of a displaced stream in it is removed (R294). -/
def State.freeRowAt (s : State) (p slot : Nat) : State :=
  let e := s.row slot
  let s := s.setRow slot (s.freeEntry slot)
  if e.displaced then s.modPart p (fun v => { v with forwards := Sparse.ndrop v.forwards e.handle.toNat }) else s

/-- A generation of a slot is still held by a parked or displaced stream (R270). -/
def State.genHeld (s : State) (p slot g : Nat) : Bool :=
  let h := (mkHandle g slot).toNat
  (Sparse.nfind (s.part p).parked h).isSome || (Sparse.nfind (s.part p).forwards h).isSome

/-- The generation after one: 1 to 4,095, wrapping to 1 (R270). -/
def genAfter (g : Nat) : Nat := if g = 4095 then 1 else g + 1

/-- The next generation of a slot, skipping those still held (R270). -/
def State.nextGen (s : State) (p slot : Nat) : Nat → Nat → Nat
  | 0, g => genAfter g
  | fuel + 1, g => if s.genHeld p slot (genAfter g) then s.nextGen p slot fuel (genAfter g) else genAfter g

/-- Issue the next handle of a slot. -/
def State.issue (s : State) (p slot : Nat) : State × Handle :=
  let g := s.nextGen p slot 4096 (Sparse.nget (0 : BitVec 12) s.generations slot).toNat
  ({ s with generations := Sparse.nset 0 s.generations slot (BitVec.ofNat 12 g) }, mkHandle g slot)

/-- An event of a stream: block ST, status OK, severity INFO, with its entry (R248, R472). -/
def State.streamEvent (s : State) (p : Nat) (e : StreamEntry) : State :=
  s.eventStatus 0xD .ok .info (some p) 0 (entryBytes e)

/-- Write the entry of a stream where it lives: its row, or the parked directory. -/
inductive Found where
  | row (slot : Nat)
  | parked (h : Handle)
  deriving DecidableEq, Repr

/-- The entry that a resolution found. -/
def State.entryAt (s : State) (p : Nat) : Found → StreamEntry
  | .row k => s.row k
  | .parked h => (Sparse.nfind (s.part p).parked h.toNat).getD {}

/-- Write the 64 bytes of a parked record to the partition's directory in DRAM (R272, R292). The spec does not say where a record lies: a place
of Config outside the partition's DRAM is not written. -/
def State.writeRecord (s : State) (p : Nat) (h : Handle) (d : List Byte) : State :=
  let a := Config.parkedRecord p h
  if s.inPartDram p a 64 then s.computeWrite a d else s

/-- Put a record into the parked directory (R292). -/
def State.setParked (s : State) (p : Nat) (h : Handle) (e : StreamEntry) : State :=
  (s.modPart p (fun v => { v with parked := Sparse.nput v.parked h.toNat e })).writeRecord p h (entryBytes e)

/-- Take a record out of the parked directory. -/
def State.dropParked (s : State) (p : Nat) (h : Handle) : State :=
  (s.modPart p (fun v => { v with parked := Sparse.ndrop v.parked h.toNat })).writeRecord p h (List.replicate 64 0)

def State.setEntryAt (s : State) (p : Nat) (f : Found) (e : StreamEntry) : State :=
  match f with
  | .row k => s.setRow k e
  | .parked h => s.setParked p h e

/-- Resolution of a handle named in a command (R260, R271). tenant is none where the command acts for the whole partition. A row that holds
another tenant's stream under another generation does not exist for a tenant (R260). -/
def State.resolve (s : State) (p : Nat) (tenant : Option (BitVec 16)) (h : Handle) : Except Status Found :=
  let k := slotOf h
  if !s.ownsSlot p k then .error .noSuchStream
  else
    let found : Option Found :=
      if (s.row k).handle = h ∧ (s.row k).state ≠ stFree ∧ h ≠ 0 then some (.row k)
      else if (Sparse.nfind (s.part p).parked h.toNat).isSome then some (.parked h)
      else (Sparse.nfind (s.part p).forwards h.toNat).map Found.row
    match found with
    | some f =>
      if tenant = none ∨ tenant = some (s.entryAt p f).tenant then .ok f else .error .noSuchStream
    | none =>
      if (s.row k).state = stFree ∨ (tenant ≠ none ∧ tenant ≠ some (s.row k).tenant) then .error .noSuchStream
      else .error .staleHandle

/-- The row of a resident stream, if the handle names one (R310). -/
def State.residentRow (s : State) (p : Nat) (h : Handle) : Option Nat :=
  match s.resolve p none h with
  | .ok (.row k) => some k
  | _ => none

/-! Parking and admission -/

/-- The parked directory has room (R291, R299). -/
def State.directoryRoom (s : State) (p : Nat) : Bool :=
  decide ((s.part p).parked.length + (s.part p).forwards.length < s.field .stDirCap p 0 0 25)

/-- A stream is named by an operation that has not been applied. -/
def opHandle : QueuedOp → Option Handle
  | .streamAppend h _ _ | .streamAdvance h _ | .streamClose h | .streamPark h | .streamUnpark h | .streamMigrate h _ _
  | .streamFork h _ | .stateTier h _ _ _ => some h
  | _ => none

def State.namedByQueue (s : State) (p : Nat) (h : Handle) : Bool :=
  (s.part p).queue.any (fun q => decide (opHandle q.op = some h))

/-- Park the stream of a row (R292, R294): its entry moves to the parked directory, and the row is freed. -/
def State.parkRow (s : State) (p slot : Nat) : State :=
  let e := s.row slot
  let s := s.freeRowAt p slot
  let e' := { e with state := stParked, displaced := false }
  ((s.setParked p e.handle e').bump .stParks p).streamEvent p e'

/-- The victim of an admission (R291): the IDLE stream with nothing pending, no unapplied operation and the oldest LAST_TURN,
the lowest slot where they are equal. -/
def State.victim (s : State) (p : Nat) : Option Nat :=
  let c := s.rows.filter (fun (k, e) => s.ownsSlot p k && decide (e.state = stIdle ∧ e.advPending = 0 ∧ e.appPending = 0) &&
    !s.namedByQueue p e.handle)
  (c.foldl (fun (b : Option (Nat × StreamEntry)) x => match b with
    | none => some x
    | some y => if x.2.lastTurn.toNat < y.2.lastTurn.toNat then some x else some y) none).map Prod.fst

/-- The admission rule (R291). -/
def State.admitStream (s : State) (p : Nat) : State × Option Nat :=
  match s.freeRow p with
  | some k => ({ s with fresh := s.fresh + 1 }, some k)
  | none =>
    if s.policyValue p 0x0001 1 = 0 then (s, none)
    else match s.victim p with
      | some k => if s.directoryRoom p then (s.parkRow p k, some k) else (s, none)
      | none => (s, none)

/-- Return a parked stream to a row (R293): its home row where that is FREE, else the row it is given, as a displaced stream. -/
def State.unparkStream (s : State) (p : Nat) (h : Handle) : State × Option Nat :=
  let e := s.entryAt p (.parked h)
  let home := slotOf h
  let back (s : State) (k : Nat) (displaced : Bool) : State :=
    let s := (s.dropParked p h).modPart p (fun v =>
      { v with forwards := if displaced then Sparse.nput v.forwards h.toNat k else v.forwards })
    let e' := { e with state := if e.length = 0 then stOpen else stIdle, displaced := displaced }
    ((s.setRow k e').bump .stUnparks p).streamEvent p e'
  if s.rowFree p home then (back s home false, some home)
  else match s.admitStream p with
    | (s, some k) => if s.rowFree p home then (back s home false, some home) else (back s k (decide (k ≠ home)), some k)
    | (s, none) => (s, none)

/-! Tails (R286 to R288) -/

/-- Tail t of a slice as memory: 2,048 bytes. -/
def tailKey (q t b : Nat) : Nat := (q * 65536 + t) * 2048 + b

def State.tailByte (s : State) (q t b : Nat) : Byte := Sparse.nget 0 s.tailMem (tailKey q t b)
def State.tailBytes (s : State) (q t b n : Nat) : List Byte := (rangeFrom b n).map (s.tailByte q t)
def State.setTailBytes (s : State) (q t : Nat) : Nat → List Byte → State
  | _, [] => s
  | b, x :: l => ({ s with tailMem := Sparse.nset 0 s.tailMem (tailKey q t b) x }).setTailBytes q t (b + 1) l

/-- Clear count tails from a first one. -/
def State.clearTails (s : State) (q first count : Nat) : State :=
  { s with tailMem := s.tailMem.filter (fun c => decide (¬(tailKey q first 0 ≤ c.1 ∧ c.1 < tailKey q (first + count) 0))) }

/-- Tails a slice holds: 128 for each of its TAIL units (R58, R286). -/
def State.sliceTails (s : State) (q : Nat) : Nat := 128 * s.field .ccLayout q 0 8 8

/-- A tail of a slice belongs to no run. -/
def State.tailFree (s : State) (p q t : Nat) : Bool :=
  !(s.part p).tailRuns.any (fun r => decide (r.square = q ∧ r.first ≤ t ∧ t < r.first + r.count))

/-- A free run of n consecutive tails of a slice. -/
def State.findRun (s : State) (p q n : Nat) : Option Nat :=
  (List.range (s.sliceTails q + 1 - n)).find? (fun f => (rangeFrom f n).all (fun t => s.tailFree p q t))

/-- Bring ST_TAILS_FREE up to date. -/
def State.countTails (s : State) (p : Nat) : State :=
  let total := (s.partSquares p).foldl (fun n q => n + s.sliceTails q) 0
  let used := (s.part p).tailRuns.foldl (fun n r => n + r.count) 0
  s.setReg .stTailsFree p 0 (BitVec.ofNat 64 (total - used))

/-- The runs of a stream. -/
def State.runsOf (s : State) (p : Nat) (h : Handle) : List TailRun := (s.part p).tailRuns.filter (fun r => decide (r.handle = h))

/-- A stream has a run at every site of a map that keeps tails. -/
def State.hasRuns (s : State) (p : Nat) (h : Handle) (sheets : List SheetDecl) : Bool :=
  sheets.all (fun x => decide (x.tails = 0) || (s.runsOf p h).any (fun r => decide (r.site = x.site)))

/-- Give back the runs of a stream. -/
def State.dropRuns (s : State) (p : Nat) (h : Handle) : State :=
  (s.modPart p (fun v => { v with tailRuns := v.tailRuns.filter (fun r => decide (r.handle ≠ h)) })).countTails p

/-- The resident tails of a stream in the order of its tail set: site, tail of the site's run, bytes. -/
def State.residentTails (s : State) (p : Nat) (h : Handle) : List (Nat × Nat × List Byte) :=
  (s.runsOf p h).flatMap (fun r => (List.range r.count).map (fun t => (r.site, t, s.tailBytes r.square (r.first + t) 0 2048)))

/-- The saved tails of a stream, in the same form. -/
def State.savedOf (s : State) (p : Nat) (h : Handle) : List (Nat × Nat × List Byte) :=
  ((s.part p).savedTails.filter (fun x => decide (x.1 = h))).map Prod.snd

/-- Save tails of a stream (R287, R300): each is copied unchanged to the stream's tail-save lines. Part.savedTails tells which site's tail each
is, and a restore takes the bytes from there. -/
def State.putSaved (s : State) (p : Nat) (h : Handle) (root : Nat) (l : List (Nat × Nat × List Byte)) : State :=
  let s := s.modPart p (fun v => { v with savedTails := v.savedTails.filter (fun x => decide (x.1 ≠ h)) ++ l.map (fun x => (h, x)) })
  l.zipIdx.foldl (fun s (x, n) => s.writeSaveLines p root n x.2.2) s

/-- Save the tails of a stream (R287): TAILS is cleared and the runs are free. -/
def State.saveTails (s : State) (p : Nat) (f : Found) : State :=
  let e := s.entryAt p f
  let s := (s.putSaved p e.handle e.root.toNat (s.residentTails p e.handle)).dropRuns p e.handle
  (s.setEntryAt p f { e with tails := false, tailset := 0xFFFFFFFF }).bump .stTailSaves p

/-- The stream whose tails Tolerabor saves when it needs room: oldest LAST_TURN among those IDLE or PARKED with tails. -/
def State.saveVictim (s : State) (p : Nat) (keep : Handle) : Option Found :=
  let rows := (s.rows.filter (fun (k, e) => s.ownsSlot p k && decide (e.state = stIdle ∧ e.tails ∧ e.handle ≠ keep))).map
    (fun (k, e) => (Found.row k, e))
  let parked := ((s.part p).parked.filter (fun (_, e) => decide (e.tails ∧ e.handle ≠ keep))).map
    (fun (_, e) => (Found.parked e.handle, e))
  ((rows ++ parked).foldl (fun (b : Option (Found × StreamEntry)) x => match b with
    | none => some x
    | some y => if x.2.lastTurn.toNat < y.2.lastTurn.toNat then some x else some y) none).map Prod.fst

/-- The index of a new tail set of a partition (Table 10.1): the lowest that no resident set has. -/
def State.freeSet (s : State) (p : Nat) : Nat :=
  let l := (s.part p).tailRuns
  ((List.range (l.length + 1)).find? (fun n => l.all (fun r => decide (r.set ≠ n)))).getD 0

/-- Give a stream a run of n tails for a site, in a slice of the site's region, where one is free. The run is cleared (R287). -/
def State.takeRun (s : State) (p : Nat) (h : Handle) (set site n : Nat) : Option State :=
  ((regionSquares (siteRegion site)).findSome? (fun q => (s.findRun p q n).map (fun f => (q, f)))).map (fun (q, f) =>
    (s.clearTails q f n).modPart p (fun v =>
      { v with tailRuns := v.tailRuns ++ [{ handle := h, site := site, square := q, first := f, count := n, set := set }] }))

/-- Give a stream a run of n tails for a site; where none is free, after the tails of up to a number of idle streams have been saved (R287). -/
def State.giveRun (s : State) (p : Nat) (h : Handle) (set site n : Nat) : Nat → State × Bool
  | 0 => match s.takeRun p h set site n with
    | some s => (s, true)
    | none => (s, false)
  | saves + 1 => match s.takeRun p h set site n with
    | some s => (s, true)
    | none => match s.saveVictim p h with
      | some v => (s.saveTails p v).giveRun p h set site n saves
      | none => (s, false)

/-- The SHEETS entries of a map. -/
def Book.sheetsOf (b : Book) (m : Nat) : List SheetDecl := b.sheets.filter (fun x => decide (x.map = m))

/-- Give a stream the runs of tails that it has not got, one for each site whose SHEETS entry has a tail count, and copy saved tails back
(R287). A stream that does not get all of them keeps the runs it had. -/
def State.giveTails (s : State) (p slot : Nat) (sheets : List SheetDecl) (saves : Nat) : State × Bool :=
  let e := s.row slot
  let had := s.runsOf p e.handle
  let set := match had with
    | r :: _ => r.set
    | [] => s.freeSet p
  let (s, ok) := (sheets.filter (fun x => decide (x.tails ≠ 0) && !had.any (fun r => decide (r.site = x.site)))).foldl (fun (s, ok) x =>
    if ok then s.giveRun p e.handle set x.site x.tails saves else (s, false)) (s, true)
  if !ok then
    ((s.modPart p (fun v => { v with tailRuns := v.tailRuns.filter (fun r => decide (r.handle ≠ e.handle)) ++ had })).countTails p, false)
  else
    let runs := s.runsOf p e.handle
    let s := (s.savedOf p e.handle).foldl (fun s (site, t, d) =>
      match runs.find? (fun r => decide (r.site = site)) with
      | some r => s.setTailBytes r.square (r.first + t) 0 d
      | none => s) s
    let s := s.modPart p (fun v => { v with savedTails := v.savedTails.filter (fun x => decide (x.1 ≠ e.handle)) })
    let index := if runs = [] then 0xFFFFFFFF else set
    ((s.setRow slot { s.row slot with tails := true, tailset := BitVec.ofNat 32 index }).countTails p, true)

/-- Write zero to every tail byte of a stream beyond its LENGTH (R147, R288). -/
def State.trimTails (s : State) (p : Nat) (h : Handle) (length : Nat) : State :=
  ((s.part p).tailRuns.filter (fun r => decide (r.handle = h))).foldl (fun s r =>
    (List.range r.count).foldl (fun s t =>
      let a := tailKey r.square (r.first + t) (length % 16 * 128)
      let b := tailKey r.square (r.first + t) 2048
      { s with tailMem := s.tailMem.filter (fun c => decide (¬(a ≤ c.1 ∧ c.1 < b))) }) s) s

/-- Release the tails of a stream (R283): resident runs are cleared, saved ones dropped. -/
def State.releaseTails (s : State) (p : Nat) (h : Handle) : State :=
  let s := ((s.part p).tailRuns.filter (fun r => decide (r.handle = h))).foldl (fun s r => s.clearTails r.square r.first r.count) s
  (s.modPart p (fun v =>
    { v with
      tailRuns := v.tailRuns.filter (fun r => decide (r.handle ≠ h))
      savedTails := v.savedTails.filter (fun x => decide (x.1 ≠ h)) })).countTails p

/-! Pending positions and completions -/

/-- Result of a stream command: the handle and LENGTH after it (R277). -/
def streamResult (h : Handle) (length : BitVec 32) : List Byte := leBytes 4 h.toNat ++ leBytes 4 length.toNat

/-- The opcode of an accepted append or advance (Table 9.11). -/
def pendingOpcode (x : PendingPositions) : BitVec 16 := if x.isAppend then 0x0401 else 0x0402

/-- Complete every outstanding append and advance of a stream with a status (R283, R296). -/
def State.failPending (s : State) (p : Nat) (h : Handle) (st : Status) (length : BitVec 32) : State :=
  let xs := (s.part p).pendingPositions.filter (fun x => decide (x.handle = h))
  let s := s.modPart p (fun v => { v with pendingPositions := v.pendingPositions.filter (fun x => decide (x.handle ≠ h)) })
  xs.foldl (fun s x => s.complete x.cmd (pendingOpcode x) st none (streamResult h length)) s

/-- Play n positions of a stream from a LENGTH in a turn: its oldest outstanding commands of the kind played use them up (R277, R290). A command
whose last position has played holds the turn and the LENGTH after it. -/
def playPositions (isAppend : Bool) (h : Handle) (turn : Word) (length : BitVec 32) : Nat → List PendingPositions → List PendingPositions
  | _, [] => []
  | n, x :: l =>
    if x.handle = h ∧ x.isAppend = isAppend ∧ x.played = none then
      if x.left.toNat ≤ n then
        { x with left := 0, played := some (turn, length + x.left) } ::
          playPositions isAppend h turn (length + x.left) (n - x.left.toNat) l
      else { x with left := x.left - BitVec.ofNat 32 n } :: l
    else x :: playPositions isAppend h turn length n l

/-- The outstanding commands of a stream that have played, up to the first that has not: they complete in order of arrival (R278). -/
def playedFirst (h : Handle) (l : List PendingPositions) : List PendingPositions :=
  (l.filter (fun x => decide (x.handle = h))).takeWhile (fun x => x.played.isSome)

/-- Complete the oldest commands of a stream that have played (R277, R278). -/
def State.completePlayed (s : State) (p : Nat) (h : Handle) : State :=
  let done := playedFirst h (s.part p).pendingPositions
  let s := s.modPart p (fun v => { v with pendingPositions := v.pendingPositions.filter (fun x => decide (x ∉ done)) })
  done.foldl (fun s x => match x.played with
    | some (t, n) => s.complete x.cmd (pendingOpcode x) .ok (some t) (streamResult h n)
    | none => s) s

/-- 64 commands are outstanding for a stream (R278). -/
def State.manyPending (s : State) (p : Nat) (h : Handle) : Bool :=
  decide (64 ≤ ((s.part p).pendingPositions.filter (fun x => decide (x.handle = h))).length)

/-- The prompt record of the oldest outstanding append of a stream; 0 when none (Table 10.1). -/
def promptOf (l : List PendingPositions) (h : Handle) : Addr :=
  match l.find? (fun x => decide (x.handle = h ∧ x.isAppend ∧ x.played = none)) with
  | some x => x.prompt.setWidth 48
  | none => 0

/-! Staged rows -/

/-- Clear LIVE in the staged rows of a stream (R276, R323). -/
def Part.unstage (v : Part) (h : Handle) : Part :=
  { v with staged := v.staged.map (fun (t, l) =>
      (t, l.map (fun (i, rows) => (i, rows.map (fun r => if r.handle = h then { r with live := false } else r))))) }

/-! The bytes of a slice (R197, R198, R285, R286) -/

/-- The tail-map entry of a batch row at a site (R286): a count of 0 where the stream has no run there. -/
def State.tailEntry (s : State) (p i : Nat) (r : BatchRow) : TailRun :=
  ((s.part p).tailRuns.find? (fun x => decide (x.handle = r.handle ∧ x.site = i) && r.live)).getD
    { handle := r.handle, site := i, square := 0, first := 0, count := 0 }

/-- A batch-sheet row (Table 7.8): KEY holds the SEED and the counter base (R285). -/
def BatchRow.bytes (r : BatchRow) : List Byte :=
  leBytes 4 r.handle.toNat ++ leBytes 4 r.pos.toNat ++ leBytes 2 r.new.toNat ++
  leBytes 1 ((if r.live then 1 else 0) + (if r.prefill then 2 else 0)) ++ [0] ++ leBytes 4 r.tail.toNat ++ leBytes 8 r.seed.toNat ++
  leBytes 8 r.counter.toNat

/-- A tail-map entry (R286), with ROW of the batch row. -/
def tailBytes16 (r : BatchRow) (t : TailRun) : List Byte :=
  leBytes 4 t.handle.toNat ++ leBytes 1 t.square ++ [0] ++ leBytes 2 t.first ++ leBytes 2 t.count ++ [0, 0] ++
  leBytes 4 (if r.live then r.slot.toNat else 0)

/-- A prompt-list entry (R285): zero for rows without PREFILL. -/
def BatchRow.promptBytes (r : BatchRow) : List Byte :=
  if r.prefill then leBytes 8 r.prompt.toNat ++ leBytes 4 r.promptFirst.toNat ++ leBytes 4 0 else List.replicate 16 0

/-- The slice of a site: batch rows, tail-map entries, prompt-list entries, in this order (R285). -/
def State.sliceBytes (s : State) (p i : Nat) (rows : List BatchRow) : List Byte :=
  rows.flatMap BatchRow.bytes ++ rows.flatMap (fun r => tailBytes16 r (s.tailEntry p i r)) ++ rows.flatMap BatchRow.promptBytes

/-- Row k of n of a slice, and its tail-map entry at a site, as the slice's bytes give them. -/
def sliceRow (d : List Byte) (n i k : Nat) : BatchRow × TailRun :=
  let b := (d.drop (32 * k)).take 32
  let t := (d.drop (32 * n + 16 * k)).take 16
  let q := (d.drop (48 * n + 16 * k)).take 16
  let fl := bytesAt b 10 1
  ({ handle := BitVec.ofNat 32 (bytesAt b 0 4), pos := BitVec.ofNat 32 (bytesAt b 4 4), new := BitVec.ofNat 16 (bytesAt b 8 2),
     live := fl % 2 = 1, prefill := fl / 2 % 2 = 1, tail := BitVec.ofNat 32 (bytesAt b 12 4), seed := BitVec.ofNat 64 (bytesAt b 16 8),
     counter := BitVec.ofNat 64 (bytesAt b 24 8), slot := BitVec.ofNat 20 (bytesAt t 12 4), prompt := BitVec.ofNat 64 (bytesAt q 0 8),
     promptFirst := BitVec.ofNat 32 (bytesAt q 8 4) },
   { handle := BitVec.ofNat 32 (bytesAt t 0 4), site := i, square := bytesAt t 4 1, first := bytesAt t 6 2, count := bytesAt t 8 2 })

/-- A site's slice has a place in the partition's DRAM (R197): the place is a constant of Config, and one outside it holds no slice. -/
def State.sliceInDram (s : State) (p i n : Nat) : Bool := decide (0 < n) && s.inPartDram p (Config.stagingArea p i) (64 * n)

/-- Write a site's slice to the staging area as a compute-side requester (R57, R197). -/
def State.stageSlice (s : State) (p i : Nat) (rows : List BatchRow) : State :=
  if s.sliceInDram p i rows.length then s.computeWrite (Config.stagingArea p i) (s.sliceBytes p i rows) else s

/-- Write every staged slice anew. -/
def State.writeSlices (s : State) (p : Nat) : State :=
  match (s.part p).staged with
  | some (_, l) => l.foldl (fun s (i, rows) => s.stageSlice p i rows) s
  | none => s

/-- Take a stream out of the staged batch (R276, R323): LIVE is cleared in its rows, also in the staging area. -/
def State.unstage (s : State) (p : Nat) (h : Handle) : State := (s.modPart p (fun v => v.unstage h)).writeSlices p

/-- A stream has a LIVE row in a staged batch. -/
def Part.isStaged (v : Part) (h : Handle) : Bool :=
  match v.staged with
  | some (_, l) => l.any (fun (_, rows) => rows.any (fun r => decide (r.handle = h ∧ r.live)))
  | none => false

/-! The commands of Table 10.3, as a changeover applies them. T is the turn that the changeover ends. -/

/-- The state a stream rests in (Table 10.2). -/
def restState (e : StreamEntry) : BitVec 3 := if e.length = 0 then stOpen else stIdle

/-- The state a stream takes that is in no batch any more (Table 10.2): every ACTIVE row of the partition that neither the batch in play nor the
staged one names rests. -/
def State.restUnbatched (s : State) (p : Nat) : State :=
  let v := s.part p
  ((s.liveRows p).filter (fun (_, e) => decide (e.state = stActive) && !v.isStaged e.handle &&
    !v.batch.any (fun (_, rows) => rows.any (fun r => decide (r.handle = e.handle ∧ r.live))))).foldl (fun s (k, e) =>
      let e' := { e with state := restState e }
      (s.setRow k e').streamEvent p e') s

/-- stream.open (R280, R291). -/
def State.applyOpen (s : State) (p : Nat) (c : Cmd) (tenant : BitVec 16) (prio : BitVec 8) (nodes : List Addr) :
    State × List Addr :=
  match s.admitStream p with
  | (s, none) => (s.complete c 0x0400 .streamTableFull, nodes)
  | (s, some k) =>
    let (s, h) := s.issue p k
    let (s, root, nodes) := s.takeNode nodes
    let turn := s.turn p + 1
    let e : StreamEntry :=
      { handle := h, part := BitVec.ofNat 3 p, prio := prio.setWidth 2, state := stOpen, tenant := tenant,
        root := BitVec.ofNat 48 root, lastTurn := turn, seed := Config.seed h (s.part p).chgStart, tailset := 0xFFFFFFFF }
    let s := ((s.setRow k e).bump .stOpens p).streamEvent p e
    (s.complete c 0x0400 .ok (some turn) (streamResult h 0), nodes)

/-- The tenant a command acts for (R260): that of its TENANT ring. -/
def State.cmdTenant (s : State) (c : Cmd) : Option (BitVec 16) :=
  match c.path with
  | .ring p n => if s.field .mbRingCtl p n 1 2 = 0 then some (BitVec.ofNat 16 (s.field .mbRingCtl p n 16 16)) else none
  | _ => none

/-- A resident row for a stream that append, advance or unpark names, unparking it where it is PARKED (R293). -/
def State.makeResident (s : State) (p : Nat) (f : Found) : State × Option Nat :=
  match f with
  | .row k => (s, some k)
  | .parked h => s.unparkStream p h

/-- The sum of LENGTH and the pending counts of an entry (R282). -/
def StreamEntry.reach (e : StreamEntry) : Nat := e.length.toNat + e.appPending.toNat + e.advPending.toNat

/-- The header of the prompt record matches the command (R281). Tolerabor reads it on the compute side; a record that breaks the rule of its
place is not detected. -/
def State.promptGood (s : State) (h : Handle) (positions : BitVec 32) (a : Nat) : Bool :=
  let hdr := (linePieces a 64).flatMap (fun (l, o, k) => match Sparse.nfind s.general l with
    | some c => (c.data.drop o).take k
    | none => s.bytes (1024 * l + o) k)
  decide (bytesAt hdr 0 4 = h.toNat ∧ bytesAt hdr 4 4 = positions.toNat ∧ bytesAt hdr 16 48 = 0)

/-- The status that a state of Table 10.3 gives append, advance, park, unpark, fork and migrate alike, if it refuses them. -/
def refusedIn (x : BitVec 3) : Option Status :=
  if x = stMigrating then some .busy else if x = stClosing then some .noSuchStream else none

/-- stream.append (R281, R282). -/
def State.applyAppend (s : State) (p : Nat) (c : Cmd) (h : Handle) (positions : BitVec 32) (prompt : Word) : State :=
  let op : BitVec 16 := 0x0401
  match s.resolve p (s.cmdTenant c) h with
  | .error e => s.complete c op e
  | .ok f =>
    let e := s.entryAt p f
    match refusedIn e.state with
    | some st => s.complete c op st none (streamResult h e.length)
    | none =>
      if s.manyPending p h then s.complete c op .busy none (streamResult h e.length)
      else if !s.promptGood h positions prompt.toNat ∨ 0xFFFFFFF0 < e.reach + positions.toNat then
        s.complete c op .badArgument none (streamResult h e.length)
      else match s.makeResident p f with
        | (s, none) => s.complete c op .streamTableFull none (streamResult h e.length)
        | (s, some k) =>
          let s := s.modPart p (fun v => { v with pendingPositions := v.pendingPositions ++
            [{ cmd := c, handle := h, isAppend := true, left := positions, prompt := prompt }] })
          let e := s.row k
          s.setRow k { e with
            appPending := e.appPending + positions
            prompt := if e.prompt = 0 then prompt.setWidth 48 else e.prompt }

/-- stream.advance (R279, R282). -/
def State.applyAdvance (s : State) (p : Nat) (c : Cmd) (h : Handle) (positions : BitVec 16) : State :=
  let op : BitVec 16 := 0x0402
  match s.resolve p (s.cmdTenant c) h with
  | .error e => s.complete c op e
  | .ok f =>
    let e := s.entryAt p f
    match refusedIn e.state with
    | some st => s.complete c op st none (streamResult h e.length)
    | none =>
      if s.manyPending p h then s.complete c op .busy none (streamResult h e.length)
      else if e.state = stOpen ∧ e.appPending = 0 then s.complete c op .notPermitted none (streamResult h e.length)
      else if 0xFFFFFFF0 < e.reach + positions.toNat then s.complete c op .badArgument none (streamResult h e.length)
      else match s.makeResident p f with
        | (s, none) => s.complete c op .streamTableFull none (streamResult h e.length)
        | (s, some k) =>
          let s := s.modPart p (fun v => { v with pendingPositions := v.pendingPositions ++
            [{ cmd := c, handle := h, isAppend := false, left := positions.setWidth 32, prompt := 0 }] })
          let e := s.row k
          s.setRow k { e with advPending := e.advPending + positions.setWidth 32 }

/-- Release the pages and tails of a stream (R283); where the seals of some slice have no room, a later changeover does (R320). -/
def State.releaseStream (s : State) (p : Nat) (h : Handle) (root : Nat) : State :=
  if s.releaseRoom root then (s.releaseTable p root).releaseTails p h
  else s.modPart p (fun v => { v with releases := v.releases ++ [(h, root)] })

/-- SHARED of every stream that shared a page, as the sharer counts stand (Table 10.1). -/
def State.settleShared (s : State) (p : Nat) : State :=
  let still (e : StreamEntry) : Bool := (s.leaves e.root.toNat).any (fun (_, _, _, l) => decide (1 < s.sharersOf p (pageOf (entryAddr l))))
  let gone (l : List (Nat × StreamEntry)) : List (Nat × StreamEntry) := l.filter (fun (_, e) => e.shared && !still e)
  let s1 := (gone (s.liveRows p)).foldl (fun t (k, e) => t.setRow k { e with shared := false }) s
  (gone (s.part p).parked).foldl (fun t (_, e) => t.setParked p e.handle { e with shared := false }) s1

/-- stream.close (R276, R283): a PARKED stream's record is removed and its memory released; any other becomes CLOSING. -/
def State.applyClose (s : State) (p : Nat) (c : Cmd) (h : Handle) : State :=
  let op : BitVec 16 := 0x0403
  match s.resolve p (s.cmdTenant c) h with
  | .error e => s.complete c op e
  | .ok f =>
    let e := s.entryAt p f
    match refusedIn e.state with
    | some st => s.complete c op st none (streamResult h e.length)
    | none =>
      let s := s.failPending p h .noSuchStream e.length
      let s := match f with
        | .row k =>
          let e' := { e with state := stClosing, advPending := 0, appPending := 0, prompt := 0 }
          ((s.setRow k e').unstage p h).streamEvent p e'
        | .parked _ => (s.dropParked p h).releaseStream p h e.root.toNat
      s.complete c op .ok none (streamResult h e.length)

/-- stream.park (R292). -/
def State.applyPark (s : State) (p : Nat) (c : Cmd) (h : Handle) : State :=
  let op : BitVec 16 := 0x0404
  match s.resolve p (s.cmdTenant c) h with
  | .error e => s.complete c op e
  | .ok f =>
    let e := s.entryAt p f
    let r := streamResult h e.length
    match f with
    | .parked _ => s.complete c op .ok none r
    | .row k =>
      if e.state = stClosing then s.complete c op .noSuchStream none r
      else if e.state ≠ stIdle then s.complete c op .busy none r
      else if !s.directoryRoom p ∧ !e.displaced then s.complete c op .streamTableFull none r
      else (s.parkRow p k).complete c op .ok none r

/-- stream.unpark (R293). -/
def State.applyUnpark (s : State) (p : Nat) (c : Cmd) (h : Handle) : State :=
  let op : BitVec 16 := 0x0405
  match s.resolve p (s.cmdTenant c) h with
  | .error e => s.complete c op e
  | .ok f =>
    let e := s.entryAt p f
    let r := streamResult h e.length
    match refusedIn e.state with
    | some st => s.complete c op st none r
    | none => match s.makeResident p f with
      | (s, none) => s.complete c op .streamTableFull none r
      | (s, some _) => s.complete c op .ok none r

/-- A page holds a position below a prefix: some granule in it has FIRST_POS below it (R139, R295). -/
def State.pageBelow (s : State) (frame : Nat) (pre : Nat) : Bool :=
  (List.range 64).any (fun l =>
    let line := 64 * frame + l
    let hdr := match Sparse.nfind s.general line with
      | some c => c.data.take 16
      | none => s.bytes (1024 * line) 16
    decide (bytesAt hdr 0 4 ≠ 0 ∧ bytesAt hdr 4 4 < pre))

/-- Share the pages below a prefix copy-on-write with a child (R316). -/
def State.sharePages (s : State) (p : Nat) (parent : Handle) (parentRoot childRoot pre : Nat) (nodes : List Addr) :
    State × List Addr :=
  ((s.leaves parentRoot).filter (fun (page, _, _, e) => decide (64 * page < toleraborLines) &&
    s.pageBelow (pageOf (entryAddr e)) pre)).foldl (fun (s, nodes) (page, _, _, e) =>
      let frame := pageOf (entryAddr e)
      let s := s.setLeaf p parent parentRoot page (putBit e 60 true)
      let (s, nodes) := s.placeLeaf childRoot page (putBit (putBit e 60 true) 59 true) nodes
      (s.setSharers p frame (s.sharersOf p frame + 1), nodes)) (s, nodes)

/-- Copy the parent's tails, resident or saved, to a child as saved tails (R295). -/
def State.copyTails (s : State) (p : Nat) (parent child : Handle) (root : Nat) : State :=
  s.putSaved p child root (s.residentTails p parent ++ s.savedOf p parent)

/-- stream.fork (R295, R316). A fork that fails names the stream it was to fork from; Table 9.11 names no TURN. -/
def State.applyFork (s : State) (p : Nat) (c : Cmd) (h : Handle) (pre : BitVec 32) (nodes : List Addr) :
    State × List Addr :=
  let op : BitVec 16 := 0x0407
  match s.resolve p (s.cmdTenant c) h with
  | .error e => (s.complete c op e, nodes)
  | .ok f =>
    let e := s.entryAt p f
    match refusedIn e.state with
    | some st => (s.complete c op st none (streamResult h e.length), nodes)
    | none =>
      if e.length.toNat < pre.toNat ∨ (pre.toNat % 16 ≠ 0 ∧ pre ≠ e.length) then
        (s.complete c op .badArgument none (streamResult h e.length), nodes)
      else match s.admitStream p with
        | (s, none) => (s.complete c op .streamTableFull none (streamResult h e.length), nodes)
        | (s, some k) =>
          let (s, child) := s.issue p k
          let (s, root, nodes) := s.takeNode nodes
          let f := match s.resolve p none h with
            | .ok f => f
            | .error _ => f
          let e := s.entryAt p f
          let (s, nodes) := s.sharePages p h e.root.toNat root pre.toNat nodes
          let s := s.setEntryAt p f { e with shared := e.shared || decide (pre ≠ 0) }
          let s := if pre.toNat % 16 ≠ 0 then s.copyTails p h child root else s
          let turn := s.turn p + 1
          let (pin, far) := s.tierBits root
          let ce : StreamEntry :=
            { handle := child, part := BitVec.ofNat 3 p, prio := e.prio, state := if pre = 0 then stOpen else stIdle,
              tenant := e.tenant, length := pre, parent := h, root := BitVec.ofNat 48 root, lastTurn := turn,
              shared := decide (pre ≠ 0), pinned := pin, far := far, seed := Config.seed child (s.part p).chgStart,
              tailset := 0xFFFFFFFF }
          let s := ((s.setRow k ce).bump .stOpens p).streamEvent p ce
          (s.complete c op .ok none (streamResult child pre), nodes)

/-! Outcomes of a turn (R290) -/

/-- The status that ends a command at its third not-advanced outcome (R290): by the cause of the abort in the codes of
OUTCOME (Table 19.1). -/
def State.givenUpStatus (s : State) (p : Nat) : Status :=
  if (s.part p).uncorrectable then .uncorrectable
  else if (s.part p).abortCause = 2 then .lateData
  else .turnAborted

/-- A batched stream advanced by NEW positions in turn T (R290), and its commands that have played complete in order (R278). The positions of its open granule that are not yet written read as zero
(R147). -/
def State.advanceStream (s : State) (p slot : Nat) (r : BatchRow) : State :=
  let e := s.row slot
  let n := r.new.setWidth 32
  let left := playPositions r.prefill e.handle (s.turn p) e.length r.new.toNat (s.part p).pendingPositions
  let s := s.modPart p (fun v => { v with pendingPositions := left })
  let e' := { e with
    length := e.length + n
    appPending := if r.prefill then e.appPending - n else e.appPending
    advPending := if r.prefill then e.advPending else e.advPending - n
    lastTurn := s.turn p, notAdv := false, retries := 0
    prompt := promptOf left e.handle
    state := if e.state = stActive ∧ !(s.part p).isStaged e.handle then stIdle else e.state }
  ((s.setRow slot e').trimTails p e.handle e'.length.toNat).completePlayed p e.handle

/-- The oldest outstanding command of a stream ends at its third not-advanced outcome in a row (R290). -/
def State.giveUp (s : State) (p slot : Nat) : State :=
  let e := s.row slot
  match (s.part p).pendingPositions.find? (fun x => decide (x.handle = e.handle ∧ x.played = none)) with
  | none => s
  | some x =>
    let rest := (s.part p).pendingPositions.erase x
    let s := s.modPart p (fun v => { v with pendingPositions := rest })
    let s := s.setRow slot { e with
      retries := 0
      appPending := if x.isAppend then e.appPending - x.left else e.appPending
      advPending := if x.isAppend then e.advPending else e.advPending - x.left
      prompt := promptOf rest e.handle }
    ((s.bump .stGivenUp p).complete x.cmd (pendingOpcode x) (s.givenUpStatus p) none (streamResult e.handle e.length)).completePlayed p e.handle

/-- A batched stream not advanced (R288, R290, R323). keepRetries: the turn was pre-empted or ended by debug (R290, R495). -/
def State.notAdvanceStream (s : State) (p slot : Nat) (keepRetries : Bool) : State :=
  let e := s.row slot
  let s := (s.trimTails p e.handle e.length.toNat).unstage p e.handle
  let s := s.bump .stNotAdv p
  let last := decide (e.retries.toNat = 2) && !keepRetries
  let s := s.setRow slot { e with
    notAdv := true
    retries := if keepRetries then e.retries else if last then 0 else e.retries + 1
    state := if e.state = stActive then restState e else e.state }
  if last then s.giveUp p slot else s

/-- The LIVE rows of a batch, one for each stream. -/
def batchStreams (l : List (Nat × List BatchRow)) : List BatchRow :=
  (l.flatMap (fun (_, rows) => rows.filter (fun r => r.live))).foldl
    (fun acc r => if acc.any (fun x => decide (x.handle = r.handle)) then acc else acc ++ [r]) []

/-- Advance or not advance each batched stream of the turn that ended (R96, R290). A hold turn reports nothing (R245), a
reshard turn has no batch (R204). -/
def State.batchOutcome (s : State) (p : Nat) : State :=
  let v := s.part p
  if v.holdTurn ∨ v.reshardTurn then s
  else
    let off := (s.partSites p).flatMap (fun i => (s.die i).notAdvanced)
    let s := s.modPart p (fun v => { v with notAdvanced := 0 })
    let s := (batchStreams v.batch).foldl (fun s r =>
      let k := r.slot.toNat
      if (s.row k).handle ≠ r.handle ∨ (s.row k).state ≠ stActive then s
      else if v.aborted ∨ r.handle ∈ off then
        (s.notAdvanceStream p k (decide (v.aborted ∧ (v.abortCause = 5 ∨ v.abortCause = 6)))).modPart p
          (fun v => { v with notAdvanced := v.notAdvanced + 1 })
      else s.advanceStream p k r) s
    s.countStreams p

/-- Rows that have been CLOSING since an earlier changeover become FREE, and their pages and tails are released (R274, R283);
a row whose seals do not fit waits, and so does what is left of a parked stream (R320). -/
def State.freeClosing (s : State) (p : Nat) : State :=
  let due := (s.part p).releases
  let s := due.foldl (fun s (h, root) => s.releaseStream p h root) (s.modPart p (fun v => { v with releases := [] }))
  let rows := (s.rows.filter (fun (k, e) => s.ownsSlot p k && decide (e.state = stClosing))).map Prod.fst
  let s := rows.foldl (fun s k =>
    let e := s.row k
    if s.releaseRoom e.root.toNat then
      ((s.releaseTable p e.root.toNat).releaseTails p e.handle).freeRowAt p k
    else s) s
  (s.settleShared p).countStreams p

end Sys2Proof.Machine
end

