-- ==== Sys2Proof/Machine/Operands.lean ====
section
/-! DEFINITION. Every operand form of a move: the addresses of matrix operands (Table 7.4, R104, R119, R181), vector streams
(Tables 6.1 and 6.2) and DMA descriptors (Table 7.5), the reads and writes they make, and what lies beyond a region (R128, R155,
R170, R171). -/

namespace Sys2Proof.Machine

/-- A signed field of 32 bits. -/
def signed32 (d : BitVec 256) (lo : Nat) : Int := (BitVec.ofNat 32 (bitsAt d lo 32)).toInt

/-! Where the bytes of an operand lie -/

/-- A range of bytes that an operand addresses by offset: in die memory, or in half a run of tails. -/
inductive Place where
  /-- a region of die memory: site, start, size -/
  | die (site base size : Nat)
  /-- a run of tails: square, first tail, size in bytes -/
  | tails (square first size : Nat)
  /-- a region descriptor that is not valid -/
  | none
  deriving DecidableEq, Repr

def Place.size : Place → Nat
  | .die _ _ n => n
  | .tails _ _ n => n
  | .none => 0

/-- A region of a site, by its index (R54). -/
def State.placeOf (s : State) (i reg : Nat) : Place :=
  match s.region i reg with
  | some (b, n) => .die i b n
  | none => .none

/-- Every bank that a range of a place lies in is powered (R52). -/
def State.placeOn (s : State) (pl : Place) (off n : Nat) : Bool :=
  match pl with
  | .die i b _ => s.banksOn i (b + off) n
  | _ => true

def State.placeBytes (s : State) (pl : Place) (off n : Nat) : List Byte :=
  match pl with
  | .die i b _ => s.dieBytes i (b + off) n
  | .tails q first _ => s.tailBytes q (first + off / 2048) (off % 2048) n
  | .none => []

def State.setPlaceBytes (s : State) (pl : Place) (off : Nat) (d : List Byte) : State :=
  match pl with
  | .die i b _ => s.setDieBytes i (b + off) d
  | .tails q first _ => s.setTailBytes q (first + off / 2048) (off % 2048) d
  | .none => s

/-- Bytes of an operand (R128): beyond its region a read is a bus error in G1, and otherwise takes the region's last 64-byte block at
its own address modulo 64, which the second part of the answer tells. DEDUCED (log 29): an element is clamped whole where any byte of it
lies beyond, and each of its bytes is then taken at its own address modulo 64, so that one whose bytes cross a 64-byte boundary goes on
at the start of that block. -/
def State.fetchAt (s : State) (pl : Place) (g1 : Bool) (off : Int) (n : Nat) : Except Status (List Byte × Bool) :=
  if pl = .none then .error .badArgument
  else if 0 ≤ off ∧ off + n ≤ pl.size then
    if s.placeOn pl off.toNat n then .ok (s.placeBytes pl off.toNat n, false) else .error .notPermitted
  else if g1 then .error .badArgument
  else
    let o := pl.size - 64
    if s.placeOn pl o 64 then
      let block := s.placeBytes pl o 64
      .ok ((List.range n).map (fun j => block.getD ((off + j) % 64).toNat 0), true)
    else .error .notPermitted

/-- A whole granule of an operand: one that lies beyond the region in any byte is read from the region's last KiB (R128). -/
def State.fetchGranule (s : State) (pl : Place) (g1 : Bool) (off : Int) : Except Status (List Byte × Bool) :=
  if pl = .none then .error .badArgument
  else if 0 ≤ off ∧ off + 1024 ≤ pl.size then
    if s.placeOn pl off.toNat 1024 then .ok (s.placeBytes pl off.toNat 1024, false) else .error .notPermitted
  else if g1 then .error .badArgument
  else if s.placeOn pl (pl.size - 1024) 1024 then .ok (s.placeBytes pl (pl.size - 1024) 1024, true) else .error .notPermitted

/-- Write bytes of an output (R170, R171): beyond its region a bus error in G1, and otherwise discarded, which the second part of the
answer tells. -/
def State.storeAt (s : State) (pl : Place) (g1 : Bool) (off : Int) (d : List Byte) : Except Status (State × Bool) :=
  if pl = .none then .error .badArgument
  else if 0 ≤ off ∧ off + d.length ≤ pl.size then
    if s.placeOn pl off.toNat d.length then .ok (s.setPlaceBytes pl off.toNat d, false) else .error .notPermitted
  else if g1 then .error .badArgument
  else .ok (s, true)

/-- The bytes that element k of a packed row of width w occupies: the first of them and how many (R132). -/
def elementSpan (w k : Nat) : Nat × Nat := (w * k / 8, (w * k % 8 + w + 7) / 8)

/-- Read element k of a row of elements of width w that begins at an offset (R132): its code. -/
def State.fetchElement (s : State) (pl : Place) (g1 : Bool) (row : Int) (w k : Nat) : Except Status (Nat × Bool) :=
  let (b, n) := elementSpan w k
  match s.fetchAt pl g1 (row + b) n with
  | .ok (d, c) => .ok (leNat d / 2 ^ (w * k % 8) % 2 ^ w, c)
  | .error e => .error e

/-- Write element k of a row. -/
def State.storeElement (s : State) (pl : Place) (g1 : Bool) (row : Int) (w k code : Nat) : Except Status (State × Bool) :=
  let (b, n) := elementSpan w k
  if w % 8 = 0 then s.storeAt pl g1 (row + b) (leBytes n code)
  else
    match s.fetchAt pl g1 (row + b) n with
    | .error e => .error e
    | .ok (_, true) => .ok (s, true)
    | .ok (d, false) =>
      let old := leNat d
      let sh := w * k % 8
      let keep := old % 2 ^ sh + old / 2 ^ (sh + w) * 2 ^ (sh + w)
      s.storeAt pl g1 (row + b) (leBytes n (keep + code % 2 ^ w * 2 ^ sh))

/-! Descriptors -/

/-- The descriptor tables of a site under the table in force: those of its map, or of its reshard plan (R182, R204). -/
def State.descTables (s : State) (p i : Nat) : Option DescTables :=
  match s.book p with
  | none => none
  | some b =>
    let map := s.field .sqMapNow p 0 0 3
    if (s.part p).reshardTurn then
      let target := ((s.part p).switch.map (fun w => w.target)).getD 0
      b.reshardDescs.find? (fun d => decide (d.map = 16 * map + target ∧ d.site = i))
    else b.descs.find? (fun d => decide (d.map = map ∧ d.site = i))

/-- A vector stream descriptor by its index; 0xFFF is none (R181 of chapter 7's descriptors). -/
def State.vectorDesc (s : State) (p i n : Nat) : Option (BitVec 256) :=
  if n = 0xFFF then none else (s.descTables p i).bind (fun t => t.vector[n]?)

def State.matrixDesc (s : State) (p i n : Nat) : Option (BitVec 256) :=
  if n = 0xFFF then none else (s.descTables p i).bind (fun t => t.matrix[n]?)

def State.dmaDesc (s : State) (p i n : Nat) : Option (BitVec 256) :=
  if n = 0xFFF then none else (s.descTables p i).bind (fun t => t.dma[n]?)

def State.opList (s : State) (p i n : Nat) : Option (BitVec 256) :=
  if n = 0xFFF then none else (s.descTables p i).bind (fun t => t.oplist[n]?)

/-- The descriptor index in slot k of an operand list (R183): IN0 to IN7, then OUT0 and OUT1. -/
def opSlot (l : BitVec 256) (k : Nat) : Nat := bitsAt l (108 - 12 * k) 12

/-! Matrix operands -/

/-- Arrays per side and cells per array side of a ganging mode (Table 4.1). -/
def gangArrays (mode : Nat) : Nat := [1, 2, 4, 8, 16].getD mode 1
def gangCells (mode : Nat) : Nat := 16 / gangArrays mode

/-- The cells of an array, by their number 16 × row + column (R102). -/
def arrayCells (mode a : Nat) : List Nat :=
  let n := gangArrays mode
  let g := gangCells mode
  (List.range g).flatMap (fun r => (List.range g).map (fun c => 16 * (a / n * g + r) + a % n * g + c))

/-- The position under which an array of a group reads an operand (R104): its place in the group, or its array row under SHARE_A or
its array column under SHARE_B, from the lowest that the group touches. -/
def groupPosition (mode first count a : Nat) (shareRow shareCol : Bool) : Nat :=
  let n := gangArrays mode
  let group := rangeFrom first count
  if shareRow then a / n - (group.map (fun x => x / n)).foldl min (a / n)
  else if shareCol then a % n - (group.map (fun x => x % n)).foldl min (a % n)
  else a - first

/-- A matrix operand as a pass reads it: its descriptor, and where its elements and scales lie. -/
structure MatrixOperand where
  fmt : Nat
  place : Place
  scales : Place
  offset : Int
  astride : Int
  kstride : Int
  scaleOffset : Int
  sstride : Int
  deriving DecidableEq, Repr

/-- Read a matrix operand descriptor (Table 7.4). -/
def State.matrixOperand (s : State) (i : Nat) (d : BitVec 256) : MatrixOperand :=
  { fmt := bitsAt d 120 5, place := s.placeOf i (bitsAt d 110 5), scales := s.placeOf i (bitsAt d 115 5),
    offset := bitsAt d 160 32, astride := signed32 d 224, kstride := signed32 d 192, scaleOffset := bitsAt d 128 32,
    sstride := signed32 d 78 }

/-- A value of a plain or MX operand: K step k, position a, edge element e of an edge of the given length (R105, R181). -/
def State.matrixElement (s : State) (o : MatrixOperand) (g1 : Bool) (edge a k e : Nat) : Except (Status × Flags) (Number × Flags) :=
  match fmtElem o.fmt with
  | none => .error (.badArgument, {})
  | some (el, mx) =>
    match s.fetchElement o.place g1 (o.offset + a * o.astride + k * o.kstride) el.width e with
    | .error x => .error (x, {})
    | .ok (c, f) =>
      if mx then
        match s.fetchAt o.scales g1 (o.scaleOffset + a * o.sstride + ((k / 32 * edge + e : Nat) : Int)) 1 with
        | .error x => .error (x, { clamped := f })
        | .ok (d, f2) => .ok (scaled (leNat d) (el.decode c), { clamped := f || f2 })
      else .ok (el.decode c, { clamped := f })

/-- The granule that an SB3 operand reads, and the value within it (R119): by orientation, edge length, position, K step, column. -/
def granuleAt (o : MatrixOperand) (pos : Bool) (edge a k e : Nat) : Int × Nat :=
  if !pos then (o.offset + a * o.astride + ((k / 128 : Nat) : Int) * o.kstride + ((e / 16 * 1024 : Nat) : Int), 128 * (e % 16) + k % 128)
  else if 128 ≤ edge then
    (o.offset + a * o.astride + ((e / 128 : Nat) : Int) * o.kstride + ((k / 16 * 1024 : Nat) : Int), 128 * (k % 16) + e % 128)
  else
    let per := 128 / max 1 edge
    (o.offset + ((a / per : Nat) : Int) * o.astride + ((k / 16 * 1024 : Nat) : Int), 128 * (k % 16) + edge * (a % per) + e)

/-! Vector streams -/

/-- A stream descriptor (Table 6.1). -/
structure VStream where
  desc : BitVec 256
  deriving DecidableEq, Repr

def VStream.region (v : VStream) : Nat := bitsAt v.desc 0 5
def VStream.kind (v : VStream) : Nat := bitsAt v.desc 7 3
def VStream.fmt (v : VStream) : Nat := bitsAt v.desc 10 5
def VStream.rep0 (v : VStream) : Bool := bitAt v.desc 15
def VStream.sel (v : VStream) : Nat := bitsAt v.desc 16 24
def VStream.aux (v : VStream) : Nat := bitsAt v.desc 52 12
def VStream.offset (v : VStream) : Int := bitsAt v.desc 64 32
/-- Extents of the four dimensions. -/
def VStream.n0 (v : VStream) : Nat := bitsAt v.desc 96 16 + 1
def VStream.n1 (v : VStream) : Nat := bitsAt v.desc 112 16 + 1
def VStream.n2 (v : VStream) : Nat := bitsAt v.desc 128 16 + 1
def VStream.n3 (v : VStream) : Nat := bitsAt v.desc 144 16 + 1
def VStream.stride1 (v : VStream) : Int := signed32 v.desc 160
def VStream.stride2 (v : VStream) : Int := signed32 v.desc 192
def VStream.stride3 (v : VStream) : Int := signed32 v.desc 224
def VStream.rows (v : VStream) : Nat := v.n1 * v.n2 * v.n3

/-- The indices of row r in a stream's own shape: i1, i2, i3. -/
def VStream.split (v : VStream) (r : Nat) : Nat × Nat × Nat := (r % v.n1, r / v.n1 % v.n2, r / (v.n1 * v.n2))

/-- Where the row with given indices begins, i1 taken as given (R151, R154). -/
def VStream.rowAt (v : VStream) (i1 : Int) (i2 i3 : Nat) : Int := v.offset + i1 * v.stride1 + i2 * v.stride2 + i3 * v.stride3

/-- The element format of a stream, and whether it is MX. -/
def VStream.elem (v : VStream) : Elem × Bool := (fmtElem v.fmt).getD (.int 8 0, false)

/-- The half of a run of tails that row r of a TAIL stream addresses (R155): none where the batch row's entry is empty. -/
def State.tailPlace (s : State) (i : Nat) (v : VStream) (i3 : Nat) : Option Place :=
  match (s.die i).tailMap[v.sel % 65536 + i3]? with
  | none => none
  | some t =>
    let half := t.count / 2
    if t.count = 0 then none
    else some (.tails t.square (t.first + (if v.sel / 65536 % 2 = 1 then half else 0)) (2048 * half))

/-- The INT32 index of row r in an index stream (R154, R155): a CONST gives every row one index, and an empty tail entry reads as zero. -/
def State.indexOf (s : State) (p i : Nat) (g1 : Bool) (aux r : Nat) : Except Status (Int × Bool) :=
  match s.vectorDesc p i aux with
  | none => .error .badArgument
  | some d =>
    let v : VStream := { desc := d }
    let (a, b, c) := v.split r
    let at' (pl : Place) (row : Int) : Except Status (Int × Bool) :=
      match s.fetchElement pl g1 row 32 0 with
      | .error e => .error e
      | .ok (x, f) => .ok ((BitVec.ofNat 32 x).toInt, f)
    match v.kind with
    | 1 => .ok ((BitVec.ofNat 32 (bitsAt v.desc 64 32)).toInt, false)
    | 6 => match s.tailPlace i v c with
      | none => .ok (0, true)
      | some pl => at' pl (v.offset + a * v.stride1 + b * v.stride2)
    | _ => at' (s.placeOf i v.region) (v.rowAt a b c)

/-- Where a row of a stream that lies in memory begins: its place and offset; no place for an empty tail entry. -/
structure RowPlace where
  place : Option Place
  start : Int
  clamped : Bool
  deriving DecidableEq, Repr

/-- The place of row r of a MEM, INDEX or TAIL stream. -/
def State.rowPlace (s : State) (p i : Nat) (g1 : Bool) (v : VStream) (r : Nat) : Except Status RowPlace :=
  let (i1, i2, i3) := v.split r
  if v.kind = 4 then
    match s.indexOf p i g1 v.aux r with
    | .error e => .error e
    | .ok (x, f) => .ok { place := some (s.placeOf i v.region), start := v.rowAt x i2 i3, clamped := f }
  else if v.kind = 6 then
    .ok { place := s.tailPlace i v i3, start := v.offset + i1 * v.stride1 + i2 * v.stride2, clamped := false }
  else .ok { place := some (s.placeOf i v.region), start := v.rowAt i1 i2 i3, clamped := false }

/-- The tiles of the columns that a TILEQ stream reads: its first column, the columns, and the tiles of each (R167). -/
def VStream.tileColumns (v : VStream) : List Nat := (List.range (v.sel / 16 % 16 + 1)).map (fun k => v.sel % 16 + k)

/-- The cells of an ACC stream, in the order of R115, as keys of buffer and cell (R168). -/
def VStream.accCells (v : VStream) (mode : Nat) : List Nat :=
  let buf := v.sel % 2
  (rangeFrom (v.sel / 256 % 256) (v.sel / 65536 % 256 + 1)).flatMap (fun a => (arrayCells mode a).map (fun c => buf * 256 + c))

/-- The words of a cell's buffer (R114): +0 where nothing is listed. -/
def zeroWords : List (BitVec 32) := List.replicate 1024 0
def State.cellWords (s : State) (i key : Nat) : List (BitVec 32) := Sparse.nget zeroWords (s.die i).accum key
def State.setCellWords (s : State) (i key : Nat) (w : List (BitVec 32)) : State :=
  s.modDie i (fun d => { d with accum := Sparse.nset zeroWords d.accum key w })
def State.bufState (s : State) (i key : Nat) : BufState := Sparse.nget .empty (s.die i).bufs key
def State.setBuf (s : State) (i key : Nat) (b : BufState) : State :=
  s.modDie i (fun d => { d with bufs := Sparse.nset .empty d.bufs key b })

/-- The place in its column's queue of the tile that row r of a TILEQ stream reads, where rows before row u have been read and their
tiles popped (R167). -/
def VStream.tileIndex (v : VStream) (u r : Nat) : Nat × Nat :=
  let (_, a2, a3) := v.split u
  let (_, i2, i3) := v.split r
  (v.sel % 16 + i3, if i3 = a3 then i2 - a2 else i2)

/-- The cell whose buffer row r of an ACC stream reads (R168). DESIGN CHOICE (log 77): the tiles of the stream are numbered by i2 and i3, i2
first, since R168 gives their order and not the dimensions that count them. -/
def VStream.accCell (v : VStream) (mode r : Nat) : Nat :=
  let (_, i2, i3) := v.split r
  (v.accCells mode).getD (i2 + v.n2 * i3) 0

/-- The code of one element of a row of a stream, rows before u having been read; the row's place is given for streams that lie in
memory, and STATE lines as their bytes. DESIGN CHOICE (log 77): OFFSET counts within a STATE line, and an element past its 1 KiB is a bus
error with BAD_ARGUMENT. -/
def State.streamCode (s : State) (i mode : Nat) (v : VStream) (pl : RowPlace) (line : List Byte) (u r k0 : Nat) :
    Except Status (Nat × Flags) :=
  let k := if v.rep0 then 0 else k0
  let w := v.elem.1.width
  let (i1, _, _) := v.split r
  match v.kind with
  | 1 => .ok (bitsAt v.desc 64 32, {})
  | 2 =>
    let (c, n) := v.tileIndex u r
    .ok (((((Sparse.nget [] (s.die i).tiles c)[n]?).bind (fun t => t.words[32 * i1 + k]?)).getD 0).toNat, {})
  | 3 => .ok (((s.cellWords i (v.accCell mode r)).getD (32 * i1 + k) 0).toNat, {})
  | 5 =>
    let (b, n) := elementSpan w k
    let o := v.offset.toNat + b
    if 1024 < o + n then .error .badArgument else .ok (bytesAt line o n / 2 ^ (w * k % 8) % 2 ^ w, {})
  | _ =>
    match pl.place with
    | none => .ok (0, { clamped := true })
    | some place =>
      match s.fetchElement place (decide (mode = 0)) pl.start w k with
      | .error e => .error e
      | .ok (c, f) => .ok (c, { clamped := f || pl.clamped })

/-- One element of a row of a stream, as a number. -/
def State.streamElement (s : State) (p i mode : Nat) (v : VStream) (pl : RowPlace) (line : List Byte) (u r k0 : Nat) :
    Except Status (Number × Flags) :=
  let (el, mx) := v.elem
  match s.streamCode i mode v pl line u r k0 with
  | .error e => .error e
  | .ok (c, f) =>
    if !mx ∨ pl.place = none then .ok (el.decode c, f)
    else
      match s.vectorDesc p i v.aux with
      | none => .error .badArgument
      | some d =>
        let w : VStream := { desc := d }
        let (i1, i2, i3) := v.split r
        match s.fetchElement (s.placeOf i w.region) (decide (mode = 0)) (w.rowAt i1 i2 i3) 8 ((if v.rep0 then 0 else k0) / 32) with
        | .error e => .error e
        | .ok (sc, f2) => .ok (scaled sc (el.decode c), f.join { clamped := f2 })

/-- Where row r of a stream lies, for those that lie in memory. -/
def State.streamPlace (s : State) (p i mode : Nat) (v : VStream) (r : Nat) : Except Status RowPlace :=
  if v.kind = 0 ∨ v.kind = 4 ∨ v.kind = 6 then s.rowPlace p i (decide (mode = 0)) v r
  else .ok { place := none, start := 0, clamped := false }

/-- The elements of a row of a stream. -/
def State.streamRow (s : State) (p i mode : Nat) (v : VStream) (line : List Byte) (n u r : Nat) :
    Except Status (List Number × Flags) :=
  match s.streamPlace p i mode v r with
  | .error e => .error e
  | .ok pl =>
    (List.range n).foldl (fun acc k =>
      match acc with
      | .error e => .error e
      | .ok (l, f) =>
        match s.streamElement p i mode v pl line u r k with
        | .error e => .error e
        | .ok (x, g) => .ok (l ++ [x], f.join g)) (.ok ([], {}))

/-- Write the codes of a row of an output stream, and for an MX stream the scales of its blocks. -/
def State.writeRow (s : State) (p i mode : Nat) (v : VStream) (r : Nat) (codes scales : List Nat) : Except Status (State × Flags) :=
  let g1 := decide (mode = 0)
  let (el, mx) := v.elem
  match s.rowPlace p i g1 v r with
  | .error e => .error e
  | .ok pl =>
    match pl.place with
    | none => .ok (s, { clamped := true })
    | some place =>
      let put (place : Place) (row : Int) (w : Nat) (l : List Nat) (start : Except Status (State × Flags)) : Except Status (State × Flags) :=
        l.zipIdx.foldl (fun acc (c, k) =>
          match acc with
          | .error e => .error e
          | .ok (s, f) =>
            match s.storeElement place g1 row w k c with
            | .error e => .error e
            | .ok (s, d) => .ok (s, f.join { clamped := d })) start
      let out := put place pl.start el.width codes (.ok (s, { clamped := pl.clamped }))
      if !mx then out
      else
        match s.vectorDesc p i v.aux with
        | none => .error .badArgument
        | some d =>
          let w : VStream := { desc := d }
          let (i1, i2, i3) := w.split r
          put (s.placeOf i w.region) (w.rowAt i1 i2 i3) 8 scales out

/-! DMA descriptors (Table 7.5) -/

structure DmaDesc where
  desc : BitVec 256
  deriving DecidableEq, Repr

def DmaDesc.paddr (d : DmaDesc) : Int := bitsAt d.desc 208 48
def DmaDesc.len (d : DmaDesc) : Nat := bitsAt d.desc 176 32
def DmaDesc.rows (d : DmaDesc) : Nat := bitsAt d.desc 160 16 + 1
def DmaDesc.pstride (d : DmaDesc) : Int := signed32 d.desc 128
def DmaDesc.dstride (d : DmaDesc) : Int := signed32 d.desc 96
def DmaDesc.doffset (d : DmaDesc) : Int := bitsAt d.desc 64 32
def DmaDesc.dregion (d : DmaDesc) : Nat := bitsAt d.desc 59 5
def DmaDesc.path (d : DmaDesc) : Nat := bitsAt d.desc 56 2
def DmaDesc.circ (d : DmaDesc) : Nat := bitsAt d.desc 48 8
def DmaDesc.sel (d : DmaDesc) : Nat := bitsAt d.desc 32 16
def DmaDesc.aux (d : DmaDesc) : Nat := bitsAt d.desc 20 12
def DmaDesc.rctr (d : DmaDesc) : Nat := bitsAt d.desc 12 8

/-- The far-side address of row r. -/
def DmaDesc.far (d : DmaDesc) (r : Nat) : Nat := ((d.paddr + r * d.pstride) % 2 ^ 48).toNat

/-- The offset of row r in its die-memory region. -/
def DmaDesc.near (d : DmaDesc) (r : Nat) : Int := d.doffset + r * d.dstride

/-- The die-side bytes of a DMA row (R54): in G1 a row that reaches beyond its region is a bus error; in the other modes bytes
beyond the region are read from its last 64-byte block. -/
def State.dmaFetch (s : State) (i mode : Nat) (d : DmaDesc) (r : Nat) : Except Status (List Byte) :=
  let pl := s.placeOf i d.dregion
  (List.range d.len).foldl (fun acc k =>
    match acc with
    | .error e => .error e
    | .ok l =>
      match s.fetchAt pl (decide (mode = 0)) (d.near r + k) 1 with
      | .error e => .error e
      | .ok (b, _) => .ok (l ++ b)) (.ok [])

/-- Write the die-side bytes of a DMA row: those beyond the region are discarded, and in G1 the row is a bus error. -/
def State.dmaStore (s : State) (i mode : Nat) (d : DmaDesc) (r : Nat) (data : List Byte) : Except Status State :=
  let pl := s.placeOf i d.dregion
  if mode = 0 ∧ ¬(0 ≤ d.near r ∧ d.near r + data.length ≤ pl.size) then .error .badArgument
  else
    data.zipIdx.foldl (fun acc (b, k) =>
      match acc with
      | .error e => .error e
      | .ok s =>
        match s.storeAt pl (decide (mode = 0)) (d.near r + k) [b] with
        | .error e => .error e
        | .ok (s, _) => .ok s) (.ok s)

end Sys2Proof.Machine
end

