-- ==== Sys2Proof/Machine/Matrix.lean ====
section
/-! DEFINITION. The matrix engine (chapter 4): what a PASS, a DRAIN and a GANG do to the accumulators, the tile queues, the flags and
the counters, and what each waits for. -/

namespace Sys2Proof.Machine

/-- The fields of a PASS (Table 7.7). -/
structure PassFields where
  mask : BitVec 10
  first : Nat
  count : Nat
  adesc : Nat
  bdesc : Nat
  k : Nat
  buf : Bool
  acc : Bool
  shareA : Bool
  shareB : Bool
  pos : Bool
  deriving DecidableEq, Repr

/-- The mode in force on a site (MX_STATUS.MODE_NOW). -/
def State.modeNow (s : State) (i : Nat) : Nat := s.field .mxStatus i 0 32 3

def bufKey (buf : Bool) (cell : Nat) : Nat := (if buf then 256 else 0) + cell

/-- The cells of a group of arrays, in the order of R115. -/
def groupCells (mode first count : Nat) : List Nat := (rangeFrom first count).flatMap (arrayCells mode)

/-- MX_STATUS.HELD and ACTIVE show what is held and in flight (Table 4.7). -/
def State.matrixStatus (s : State) (i : Nat) : State :=
  let d := s.die i
  let s := s.setFlag .mxStatus i 0 2 (d.bufs.any (fun b => decide (b.2 = .held)))
  s.setFlag .mxStatus i 0 1 (d.flights.any (fun f => decide (f.unit = .matrix)))

/-! Multiply-accumulate (R109 to R112) -/

/-- One step of a floating accumulator chain: one binary32 fused multiply-add, to nearest, ties to even. -/
def macFloat (acc : BitVec 32) (a b : Number) : BitVec 32 × Flags :=
  let c := fp32.decode acc.toNat
  let (x, f) := a.fma .rne b c
  let (y, g) := fp32.round .rne 0 false x
  (BitVec.ofNat 32 (fp32.code y), { nanIn := a.isNan || b.isNan, nv := f.nv, of := g.of })

/-- The integer that an element of an integer format is. -/
def Number.toInt : Number → Int
  | .fin neg m _ => if neg then -m else m
  | _ => 0

/-- One step of an integer accumulator chain: the exact product is added, and overflow wraps (R109). -/
def macInt (acc : BitVec 32) (a b : Number) : BitVec 32 × Flags :=
  let t := acc.toInt + a.toInt * b.toInt
  (BitVec.ofInt 32 t, { iovf := decide (t < -(2 ^ 31) ∨ 2 ^ 31 ≤ t) })

/-- A chain over K steps in ascending k (R110). -/
def macChain (integer : Bool) (start : BitVec 32) (a b : List Number) : BitVec 32 × Flags :=
  (a.zip b).foldl (fun (acc, f) (x, y) =>
    let (r, g) := if integer then macInt acc x y else macFloat acc x y
    (r, f.join g)) (start, {})

/-! Rates and counters -/

/-- The rate class of a format, as its die cycles per K step (Table 4.2). -/
def fmtCycles (fmt : Nat) : Nat :=
  if fmt = 0 then 16 else if fmt = 1 ∨ fmt = 2 then 4 else if fmt = 7 ∨ fmt = 15 ∨ fmt = 9 then 1 else 2

/-- The counter of a format's MACs (Table 4.6). -/
def fmtCounter (fmt : Nat) : RegName :=
  if fmt = 0 then .mxMacFp32 else if fmt = 1 ∨ fmt = 2 then .mxMacHalf
  else if fmt = 7 ∨ fmt = 15 then .mxMacFp4
  else if fmt = 5 ∨ fmt = 6 ∨ fmt = 13 ∨ fmt = 14 then .mxMacFp6
  else if fmt = 9 then .mxMacInt4 else if fmt = 8 ∨ fmt = 16 then .mxMacInt8
  else if fmt = fmtSb3 then .mxMacSb3 else .mxMacFp8

/-- The counter of a pair (R126): the format of the lower rate, the B format between equal rates, SB3 alone with an SB3 operand. -/
def pairCounter (a b : Nat) : RegName :=
  if b = fmtSb3 then .mxMacSb3 else if fmtCycles b < fmtCycles a then fmtCounter a else fmtCounter b

/-! PASS -/

/-- Take the results of a step over a list in order, with the flags they raise; an error keeps the flags raised before it. -/
def inOrder {α β : Type} (l : List α) (step : α → Except (Status × Flags) (β × Flags)) : Except (Status × Flags) (List β × Flags) :=
  l.foldl (fun acc x =>
    match acc with
    | .error e => .error e
    | .ok (r, f) =>
      match step x with
      | .error (e, g) => .error (e, f.join g)
      | .ok (y, g) => .ok (r ++ [y], f.join g)) (.ok ([], {}))

/-- A granule of a B operand, read and checked (R121, R128): one that was clamped is checked like any. -/
def State.passGranule (s : State) (o : MatrixOperand) (g1 : Bool) (off : Int) : Except (Status × Flags) (List Byte × Bool) :=
  match s.fetchGranule o.place g1 off with
  | .error e => .error (e, {})
  | .ok (g, c) => if sb3Good g then .ok (g, c) else .error (.uncorrectable, { sb3Bad := true, clamped := c })

/-- The granules that an array reads, with their bytes; they are read once each. -/
def State.passGranules (s : State) (o : MatrixOperand) (g1 pos : Bool) (edge a k : Nat) (known : List (Int × List Byte × Bool)) :
    Except (Status × Flags) (List (Int × List Byte × Bool)) :=
  let want := ((List.range k).flatMap (fun j => (List.range edge).map (fun e => (granuleAt o pos edge a j e).1))).eraseDups
  want.foldl (fun acc off =>
    match acc with
    | .error e => .error e
    | .ok l =>
      if l.any (fun x => decide (x.1 = off)) then .ok l
      else match s.passGranule o g1 off with
        | .error (e, f) => .error (e, f.join { clamped := l.any (fun x => x.2.2) })
        | .ok x => .ok (l ++ [(off, x)])) (.ok known)

/-- The values of one operand along K for edge element e. -/
def State.operandChain (s : State) (o : MatrixOperand) (g1 : Bool) (edge a k e : Nat) : Except (Status × Flags) (List Number × Flags) :=
  inOrder (List.range k) (fun j => s.matrixElement o g1 edge a j e)

/-- Gather the chains of a list of edge elements. -/
def State.operandChains (s : State) (o : MatrixOperand) (g1 : Bool) (edge a k : Nat) (es : List Nat) :
    Except (Status × Flags) (List (List Number) × Flags) :=
  inOrder es (s.operandChain o g1 edge a k)

/-- What a pass has computed so far: the words of the cells written, its flags, MACs, and the granules it has read. -/
structure PassWork where
  cells : List (Nat × List (BitVec 32)) := []
  flags : Flags := {}
  macs : Nat := 0
  granules : List (Int × List Byte × Bool) := []
  deriving Repr

/-- A pass at one array (R104, R109 to R113, R119, R120). -/
def State.passArray (s : State) (i mode : Nat) (f : PassFields) (oa ob : MatrixOperand) (w : PassWork) (a : Nat) :
    Except (Status × Flags) PassWork :=
  let g := gangCells mode
  let edge := 32 * g
  let g1 := decide (mode = 0)
  let live := (List.range edge).map (fun r => s.maskBit i f.mask ((a - f.first) * edge + r))
  let liveRows := (List.range edge).filter (fun r => live.getD r false)
  let pa := groupPosition mode f.first f.count a f.shareA false
  let pb := groupPosition mode f.first f.count a false f.shareB
  let integer := decide (oa.fmt = 8 ∨ oa.fmt = 9)
  match s.operandChains oa g1 edge pa f.k liveRows with
  | .error x => .error x
  | .ok (as, fa) =>
    let bs : Except (Status × Flags) (List (List Number) × Flags × List (Int × List Byte × Bool)) :=
      if liveRows = [] then .ok ([], {}, w.granules)
      else if ob.fmt = fmtSb3 then
        match s.passGranules ob g1 f.pos edge pb f.k w.granules with
        | .error x => .error x
        | .ok l =>
          .ok ((List.range edge).map (fun e => (List.range f.k).map (fun j =>
              let (off, v) := granuleAt ob f.pos edge pb j e
              match l.find? (fun x => decide (x.1 = off)) with
              | some x => sb3Value x.2.1 v
              | none => .fin false 0 0)), { clamped := l.any (fun x => x.2.2) }, l)
      else match s.operandChains ob g1 edge pb f.k (List.range edge) with
        | .error x => .error x
        | .ok (l, fb) => .ok (l, fb, w.granules)
    match bs with
    | .error (e, f) => .error (e, fa.join f)
    | .ok (bs, fb, gran) =>
      let start (cell m : Nat) : BitVec 32 := if f.acc then (s.cellWords i (bufKey f.buf cell)).getD m 0 else 0
      let cellWork : List ((Nat × List (BitVec 32)) × Flags) := (arrayCells mode a).zipIdx.map (fun (cell, n) =>
        let words : List (BitVec 32 × Flags) := (List.range 1024).map (fun m =>
          let row := 32 * (n / g) + m / 32
          let col := 32 * (n % g) + m % 32
          match indexOf? liveRows row with
          | some x => macChain integer (start cell m) (as.getD x []) (bs.getD col [])
          | none => (start cell m, {}))
        ((bufKey f.buf cell, words.map (fun x => x.1)), words.foldl (fun fl x => fl.join x.2) {}))
      .ok
        { cells := w.cells ++ cellWork.map (fun x => x.1)
          flags := cellWork.foldl (fun fl x => fl.join x.2) ((w.flags.join fa).join fb)
          macs := w.macs + liveRows.length * edge * f.k
          granules := gran }

/-- A pass as a whole: its flags and counters, the accumulators, or the bus error it takes. -/
def State.performPass (s : State) (p i : Nat) (f : PassFields) : State × Option Status :=
  let mode := s.modeNow i
  match s.matrixDesc p i f.adesc, s.matrixDesc p i f.bdesc with
  | some da, some db =>
    let oa := s.matrixOperand i da
    let ob := s.matrixOperand i db
    let r : Except (Status × Flags) PassWork := (rangeFrom f.first f.count).foldl (fun acc a =>
      match acc with
      | .error x => .error x
      | .ok w =>
        match s.passArray i mode f oa ob w a with
        | .error (e, g) => .error (e, w.flags.join g)
        | .ok w => .ok w) (.ok {})
    match r with
    | .error (st, fl) => (s.raiseMatrix i fl, some st)
    | .ok w =>
      let integer := decide (oa.fmt = 8 ∨ oa.fmt = 9)
      let s := w.cells.foldl (fun s (k, ws) => (s.setCellWords i k ws).setBuf i k (.undrained integer)) s
      let s := (s.raiseMatrix i w.flags).bump (pairCounter oa.fmt ob.fmt) i 0 w.macs
      (s.bump .mxGranules i 0 w.granules.length, none)
  | _, _ => (s, some .badArgument)

/-! DRAIN and GANG -/

/-- Every drain behaves as held (R116): MX_QUEUE.DISABLE. -/
def State.queueOff (s : State) (i : Nat) : Bool := s.flag .mxQueue i 0 0

/-- A drain (R115, R116): the words of each cell go to the tile queue of its column as one tile and read +0; a held drain leaves them
in the buffer. -/
def State.performDrain (s : State) (i : Nat) (label : BitVec 18) (first count : Nat) (buf held : Bool) : State :=
  let mode := s.modeNow i
  (rangeFrom first count).foldl (fun s a =>
    (arrayCells mode a).foldl (fun s cell =>
      let key := bufKey buf cell
      if held || s.queueOff i then s.setBuf i key .held
      else
        let t : Tile := { array := a, cell := cell, buf := buf, label := label, words := s.cellWords i key }
        let s := s.modDie i (fun d =>
          { d with tiles := Sparse.nset [] d.tiles (cell % 16) (Sparse.nget [] d.tiles (cell % 16) ++ [t]) })
        (s.setCellWords i key zeroWords).setBuf i key .empty) s) s

/-- A word counts as zero: +0, −0 or integer 0 (R118). -/
def zeroValue (integer : Bool) (w : BitVec 32) : Bool := if integer then decide (w = 0) else decide (w.toNat % 2 ^ 31 = 0)

/-- A GANG (R118): the mode, +0 in both buffers of every MAC, and ACC_DISCARD where an undrained result that is not zero is lost. -/
def State.performGang (s : State) (i mode : Nat) : State :=
  let lost := (s.die i).bufs.any (fun (k, b) =>
    match b with
    | .undrained integer => (s.cellWords i k).any (fun w => !zeroValue integer w)
    | _ => false)
  let s := (s.setField .mxStatus i 0 32 3 mode).modDie i (fun d => { d with accum := [], bufs := [] })
  s.raiseMatrix i { accDiscard := lost }

/-! What matrix moves wait for (R117, R118) -/

/-- The tiles of a column beyond its 64 entries wait behind a full queue (R115, R117). -/
def Die.waitingTiles (d : Die) : List Tile := d.tiles.flatMap (fun c => c.2.drop 64)

/-- The group of a matrix move: buffer, first array, count; every array for a GANG. -/
def matrixGroup : Instr → Option (Option Bool × Nat × Nat)
  | .pass _ first count _ _ _ buf _ _ _ _ _ => some (some buf, first.toNat, count.toNat + 1)
  | .drain _ first count buf _ => some (some buf, first.toNat, count.toNat + 1)
  | .drainHeld _ first count buf _ => some (some buf, first.toNat, count.toNat + 1)
  | .gang _ _ _ => some (none, 0, 256)
  | _ => none

/-- The path that a matrix move holds (R122): a PASS and a GANG the MAC path, a DRAIN the drain path. -/
def macPath : Instr → Bool
  | .pass .. | .gang .. => true
  | _ => false

/-- Two matrix moves must keep their order on some array (R117, R122, R123): they need the same path, one is a GANG, or they name one
buffer. The arrays of a move that waits stall, so that no later move takes its path there before it. -/
def ordered (a b : Instr) : Bool :=
  match matrixGroup a, matrixGroup b with
  | some (x, f, n), some (y, g, m) =>
    (decide (x = none) || decide (y = none) || decide (x = y) || decide (macPath a = macPath b)) && decide (f < g + m ∧ g < f + n)
  | _, _ => false

/-- The results that a DRAIN names are not final yet (R117): a PASS of its buffer on some array of its group is in flight. -/
def passFeeds (a b : Instr) : Bool :=
  macPath a && !macPath b && ordered a b && (match matrixGroup a, matrixGroup b with
    | some (x, _, _), some (y, _, _) => decide (x = y)
    | _, _ => false)

/-- A matrix move may start: none that waits stands before it in its way, no PASS that feeds it is in flight, no buffer it names is held or
still being emptied, and a GANG is the only matrix move in flight. -/
def State.matrixReady (s : State) (i : Nat) (before : List Flight) (c : Instr) : Bool :=
  let d := s.die i
  let mode := s.modeNow i
  let clear := before.all (fun f => !(f.waits && ordered f.move c) && !passFeeds f.move c)
  clear && (match c with
    | .pass _ first count _ _ _ buf _ _ _ _ _ =>
      (groupCells mode first.toNat (count.toNat + 1)).all (fun cell =>
        decide (s.bufState i (bufKey buf cell) ≠ .held) &&
        !d.waitingTiles.any (fun t => decide (t.cell = cell ∧ t.buf = buf)))
    | .gang _ _ _ =>
      before.all (fun f => decide (f.unit ≠ .matrix)) && d.bufs.all (fun b => decide (b.2 ≠ .held)) && decide (d.waitingTiles = [])
    | _ => true)

end Sys2Proof.Machine
end

