-- ==== Sys2Proof/Machine/Routes.lean ====
section
/-! DEFINITION. The routes of packets between squares (R210), and where a route crosses a partition boundary (R237, R408). -/

namespace Sys2Proof.Machine

/-- Squares along a row from column x to column x2, both included. -/
def alongX (y x x2 : Nat) : List Nat :=
  if x ≤ x2 then (rangeFrom x (x2 - x + 1)).map (fun c => sqAt c y) else ((rangeFrom x2 (x - x2 + 1)).reverse).map (fun c => sqAt c y)

/-- Squares along a column from row y to row y2, both included. -/
def alongY (x y y2 : Nat) : List Nat :=
  if y ≤ y2 then (rangeFrom y (y2 - y + 1)).map (fun r => sqAt x r) else ((rangeFrom y2 (y - y2 + 1)).reverse).map (fun r => sqAt x r)

/-- The dimension order of two squares that are not corners (R210): Y then X where the source lies in row 0 or 15 or the
destination in column 0 or 15, else X then Y. -/
def yFirst (a b : Nat) : Bool := decide (sqY a = 0 ∨ sqY a = 15 ∨ sqX b = 0 ∨ sqX b = 15)

/-- The route between two squares that are not corners, both ends included. -/
def meshRoute (a b : Nat) : List Nat :=
  if yFirst a b then alongY (sqX a) (sqY a) (sqY b) ++ (alongX (sqY b) (sqX a) (sqX b)).drop 1
  else alongX (sqY a) (sqX a) (sqX b) ++ (alongY (sqX b) (sqY a) (sqY b)).drop 1

/-- A corner square's neighbour in row 0 or 15, and its inner corner (R210). -/
def cornerPath (q : Nat) : Option (Nat × Nat) :=
  if q = 0 then some (1, 17) else if q = 15 then some (14, 30) else if q = 240 then some (241, 225)
  else if q = 255 then some (254, 238) else none

/-- The route of a B-net or C-net packet, both ends included (R210). -/
def route (a b : Nat) : List Nat :=
  if a = b then [a]
  else match cornerPath a, cornerPath b with
    | none, none => meshRoute a b
    | some (n, c), none => if b = n then [a, n] else if b = c then [a, n, c] else [a, n] ++ meshRoute c b
    | none, some (n, c) => if a = n then [n, b] else if a = c then [c, n, b] else meshRoute a c ++ [n, b]
    | some (n, c), some (n2, c2) => [a, n] ++ meshRoute c c2 ++ [n2, b]

/-- The direction from a square to a neighbour: 0 N, 1 E, 2 S, 3 W. -/
def directionTo (a b : Nat) : Nat := if b + 16 = a then 0 else if b = a + 1 then 1 else if b = a + 16 then 2 else 3

/-- The direction from which a packet from a square comes in at its neighbour. -/
def opposite (d : Nat) : Nat := (d + 2) % 4

/-- The hops of a route, as pairs of neighbours. -/
def hops (l : List Nat) : List (Nat × Nat) := l.zip (l.drop 1)

/-- The first boundary link of a route (R237, R408): the square whose router drops the packet. -/
def State.boundaryOn (s : State) (l : List Nat) : Option Nat :=
  ((hops l).find? (fun (a, b) => decide (s.owner a ≠ s.owner b))).map Prod.snd

/-- The first failed link of a route in a status register with failed links from bit lo: the router that answers (R239). -/
def State.failedOn (s : State) (n : RegName) (lo : Nat) (l : List Nat) : Option Nat :=
  ((hops l).find? (fun (a, b) => s.flag n a 0 (lo + directionTo a b) || s.flag n b 0 (lo + directionTo b a))).map Prod.fst

end Sys2Proof.Machine
end

