-- ==== Sys2Proof/Machine/Access.lean ====
section
/-! DEFINITION. Access to the physical windows of Table 2.1 by every requester: what each reaches, what a read returns, what a write
does, and which bus error an access takes (R17, R18, R42 to R45, R55 to R59, R237 to R239, R264, R331, R341, R490, R524). -/

namespace Sys2Proof

/-- The square from which a requester's accesses come (R43). -/
def Requester.square : Requester → Nat
  | .hart d _ _ => Machine.hostSquare d
  | .pcie d => Machine.hostSquare d
  | .hostDma d => Machine.hostSquare d
  | .rook i => Machine.siteSquare i
  | .move i => Machine.siteSquare i
  | .referee => 0
  | .bmc => 0

/-- The Referee and what acts for it. -/
def Requester.isReferee : Requester → Bool
  | .referee => true
  | _ => false

/-- A compute-side requester (R57, R61): moves, rooks and Tolerabor's staging writes. The others are host-side (R63, R253). -/
def Requester.computeSide : Requester → Bool
  | .rook _ => true
  | .move _ => true
  | _ => false

end Sys2Proof

namespace Sys2Proof.Machine

/-! Requesters -/

/-- The partition of a requester; the Referee belongs to none. -/
def State.partOf (s : State) (r : Requester) : Option Nat :=
  match r with
  | .referee | .bmc => none
  | _ => s.owner r.square

/-- A hart with privilege (R18, R331): M-mode, or HS-mode with HD_MPRIV bit 0. -/
def State.privileged (s : State) (r : Requester) : Bool :=
  match r with
  | .hart _ _ .m => true
  | .hart d c .hs => s.flag .hdMpriv (32 * d + c) 0 0
  | .referee => true
  | _ => false

/-! Bus errors -/

/-- An access refused under R43: CC_UNMAPPED of the square that detects it, and a WARNING event with the status of Table 2.10. -/
def State.unmapped (s : State) (q : Nat) (st : Status) (a : Nat) : State :=
  let n := s.field .ccUnmapped q 0 0 32
  (s.setField .ccUnmapped q 0 0 32 (n + 1)).eventStatus 0xB st .warning (s.owner q) q (leBytes 8 a)

/-- An access that would cross a partition boundary (R44, R237): the boundary router drops it and counts it. The C-net lets
packets of the Referee square pass. -/
def State.crossing (s : State) (cnet : Bool) (src dst : Nat) : Option Nat :=
  if cnet ∧ (src = 0 ∨ dst = 0) then none else s.boundaryOn (route src dst)

/-! Registers and user pages -/

/-- A DM register of the rook at a Referee-window offset (R490): site and register. -/
def dmAt (off : Nat) : Option (Nat × Nat) :=
  if 0xC00000 ≤ off ∧ off < 0xC00000 + 104 * 0x400 ∧ off % 4 = 0 then some ((off - 0xC00000) / 0x400, (off - 0xC00000) % 0x400 / 4) else none

/-- A debug session is open for a partition (R488). -/
def State.sessionOpen (s : State) (p : Nat) : Bool := s.flag .dbSession p 0 63

/-- The site's Debug Module answers: a session is open for the site's partition (R490). -/
def State.dmOpen (s : State) (i : Nat) : Bool := match s.siteOwner i with
  | some p => s.sessionOpen p
  | none => false

/-- A Debug Module register: sbcs reads 0, since system bus access is not implemented (R490). -/
def State.readDm (s : State) (i a : Nat) : BitVec 32 := if a = 0x38 then 0 else Sparse.nget 0 (s.die i).dm a

/-- The doorbell, or completion index, of a ring is granted to a page (R264). -/
def State.ringGranted (s : State) (p page n : Nat) : Bool :=
  let g := Sparse.nget {} (s.part p).grants page
  g.doorbells && bitAt g.ringMask n && decide (s.field .mbRingCtl p n 1 2 = 0 ∧ s.field .mbRingCtl p n 16 16 = g.tenant.toNat)

/-- The live-view header of a partition (R483). -/
def State.viewByte (s : State) (p off : Nat) : Byte :=
  let v := s.part p
  if off < 0x40 then
    (leBytes 4 v.viewNewest.toNat ++ leBytes 4 ((v.viewRecs.head?.map (fun x => x.2.2.toNat)).getD 0) ++
      leBytes 8 v.viewDropped.toNat ++ leBytes 8 v.viewSuppressed.toNat).getD off 0
  else Sparse.nget 0 v.viewMem (off - 0x40)

/-- A byte of a user page (R17, R264): zero where it is not granted. -/
def State.userByte (s : State) (p page off : Nat) : Byte :=
  let g := Sparse.nget {} (s.part p).grants page
  let word (w : Word) : Byte := (leBytes 8 w.toNat).getD (off % 8) 0
  if off < 0x80 then if s.ringGranted p page (off / 8) then word (s.reg .mbRingCons p (off / 8)) else 0
  else if 0x100 ≤ off ∧ off < 0x180 then
    if s.ringGranted p page ((off - 0x100) / 8) then word (s.reg .mbRingCqProd p ((off - 0x100) / 8)) else 0
  else if 0x1000 ≤ off ∧ off < 0x8000 then
    if g.counters then word (Sparse.nget 0 (s.part p).counterPage ((off - 0x1000) / 8 * 8)) else 0
  else if 0x8000 ≤ off ∧ off < 0x10000 then if g.logView then s.viewByte p (off - 0x8000) else 0
  else 0

/-- The block that a dropped write to a user-page offset is recorded under (R17). -/
def userBlock (off : Nat) : Nat := if off < 0x1000 then 0x11 else if off < 0x8000 then 0x17 else 0x00

/-- A write to a user page (R17, R264): a granted doorbell or completion index; any other is dropped and recorded. -/
def State.userWrite (s : State) (r : Requester) (p page off : Nat) (d : List Byte) : State :=
  let v := BitVec.ofNat 64 (leNat d)
  if off < 0x80 ∧ s.ringGranted p page (off / 8) then s.writeReg r (rk .mbRingProd p (off / 8)) (off % 8) d.length v
  else if 0x100 ≤ off ∧ off < 0x180 ∧ s.ringGranted p page ((off - 0x100) / 8) then
    s.writeReg r (rk .mbRingCqCons p ((off - 0x100) / 8)) (off % 8) d.length v
  else s.dropped (userBlock off) 0x02 (some p) 0 (0xF20000000000 + p * 0x100000 + page * 0x10000 + off)

/-- What an offset of a privileged window holds. -/
inductive WindowSpot where
  | reg (k : RegKey) (byte : Nat)
  | dm (site : Nat) (a : Nat)
  | file (h file off : Nat)
  | iommu (h off : Nat)
  | nothing
  deriving DecidableEq, Repr

/-- The privileged register windows (Table 2.1): 256 square windows of 16 MiB, and the Referee window. -/
def registerWindow (a : Nat) : Bool :=
  decide (0xF00000000000 ≤ a ∧ a < 0xF00100000000) || decide (refereeWindow ≤ a ∧ a < refereeWindow + 0x1000000)

/-- The square of a privileged-window address; 0 for the Referee window. -/
def windowSquare (a : Nat) : Nat := if a < refereeWindow then (a - 0xF00000000000) / 0x1000000 else 0

/-- What lies at a privileged-window address (Table 2.1). -/
def spotAt (a : Nat) : WindowSpot :=
  if !registerWindow a then .nothing
  else if a < refereeWindow then
    let q := windowSquare a
    let off := (a - 0xF00000000000) % 0x1000000
    match interruptFile a with
    | some (h, f, o) => .file h f o
    | none =>
      match squareKind q with
      | .host h =>
        if q = hostSquare h ∧ 0xE10000 ≤ off ∧ off < 0xE11000 then .iommu h (off - 0xE10000)
        else match squareReg q (off / 8 * 8) with
          | some k => .reg k (off % 8)
          | none => .nothing
      | _ => match squareReg q (off / 8 * 8) with
        | some k => .reg k (off % 8)
        | none => .nothing
  else
    let off := a - refereeWindow
    match dmAt off with
    | some (i, r) => .dm i r
    | none => match refereeReg (off / 8 * 8) with
      | some k => .reg k (off % 8)
      | none => .nothing

/-- Whether a requester reaches a privileged window as R18 has it. -/
inductive Reach where
  /-- the access is carried out -/
  | yes
  /-- a rook outside its own window: reads zero, a write is dropped and recorded -/
  | blind
  /-- a hart without privilege: access fault, HD_PRIV_FAULTS (R331) -/
  | fault
  /-- a bus error -/
  | no
  deriving DecidableEq, Repr

/-- R18, R331, R341: who reaches a privileged-window address. -/
def State.reach (s : State) (r : Requester) (a : Nat) (write : Bool) : Reach :=
  match r with
  | .referee => .yes
  | .rook i => if a < refereeWindow ∧ windowSquare a = siteSquare i then .yes else .blind
  | .hart _ _ _ =>
    if s.privileged r then .yes
    else match interruptFile a with
      | some (h, _, _) => if write ∧ s.hostOwner h = s.partOf r then .yes else .fault
      | none => .fault
  | .pcie d => match interruptFile a with
    | some (h, _, _) => if h = d then .yes else .no
    | none => .no
  | _ => .no

/-- The block whose number records a dropped write to what lies at an address (R472, Table 18.2). R472 names only the block of a target
register. For the others the model takes DB for a Debug Module, HD for an interrupt file or an IOMMU page, and EV where nothing lies (DESIGN
CHOICE). -/
def WindowSpot.block : WindowSpot → Nat
  | .reg k _ => k.name.info.block
  | .dm _ _ => 0x16
  | .file _ _ _ | .iommu _ _ => 0x0F
  | .nothing => 0x00

/-- The state of a host die that answers for itself (R238, R421). -/
def State.hostAnswer (s : State) (h : Nat) : Option Status := if s.hostFenced h then some .peerFenced else none

/-- What an access to a part of a host die gives while the die is fenced (R238): its square's router answers. -/
def State.behindHost (s : State) (h : Nat) (go : State × Except Status (List Byte)) : State × Except Status (List Byte) :=
  match s.hostAnswer h with
  | some st => (s.bump .bnResetErr (hostSquare h), .error st)
  | none => go

/-- Read n bytes of a privileged window that the requester reaches. -/
def State.spotRead (s : State) (a n : Nat) : State × Except Status (List Byte) :=
  match spotAt a with
  | .reg k b => (s, .ok (s.readLanes k b n))
  | .dm i x => (s, .ok (if s.dmOpen i ∧ n = 4 then leBytes 4 (s.readDm i x).toNat else List.replicate n 0))
  | .file h _ _ => s.behindHost h (s, .ok (List.replicate n 0))
  | .iommu h off => s.behindHost h (s, .ok ((rangeFrom off n).map (fun o => Sparse.nget 0 (s.hostDie h).iommu o)))
  | .nothing => (s.unmapped (windowSquare a) .badArgument a, .error .badArgument)

/-- Write bytes of a privileged window that the requester reaches. -/
def State.spotWrite (s : State) (r : Requester) (a : Nat) (d : List Byte) : State × Except Status (List Byte) :=
  match spotAt a with
  | .reg k b => (s.writeReg r k b d.length (BitVec.ofNat 64 (leNat d)), .ok [])
  | .dm i x =>
    if s.dmOpen i ∧ d.length = 4 then
      (s.modDie i (fun v => { v with dm := Sparse.nset 0 v.dm x (BitVec.ofNat 32 (leNat d)) }), .ok [])
    else (s.dropped 0x16 0x02 (s.siteOwner i) 0 a, .ok [])
  | .file h f o =>
    if o = 0 ∧ d.length = 4 then
      if s.hostRunning h && !s.hostFenced h then (s.setPending h f (leNat d), .ok []) else (s.bump .hdMsiDrop h, .ok [])
    else (s, .ok [])
  | .iommu h off =>
    s.behindHost h (s.modHost h (fun v => { v with
      iommu := (rangeFrom off d.length).foldl (fun m o => Sparse.nset 0 m o (d.getD (o - off) 0)) v.iommu }), .ok [])
  | .nothing => (s.unmapped (windowSquare a) .badArgument a, .error .badArgument)

/-- An access to a privileged window (R18, R237, R331). -/
def State.privAccess (s : State) (r : Requester) (a n : Nat) (data : Option (List Byte)) : State × Except Status (List Byte) :=
  match s.reach r a data.isSome with
  | .fault => (match r with
    | .hart d _ _ => s.bump .hdPrivFaults d
    | _ => s, .error .notPermitted)
  | .no => (s.unmapped r.square .notPermitted a, .error .notPermitted)
  | .blind => match data with
    | none => (s, .ok (List.replicate n 0))
    | some _ => match spotAt a with
      | .reg k _ => (s.dropWrite k 0x02, .ok [])
      | x => (s.dropped x.block 0x02 (s.owner (windowSquare a)) (windowSquare a) a, .ok [])
  | .yes =>
    match s.crossing true r.square (windowSquare a) with
    | some q => (s.bump .cnFenceDrop q, .error .partitionFenced)
    | none => match data with
      | none => s.spotRead a n
      | some d => s.spotWrite r a d

/-- An access to a user page (R17, R18, R264, Table 12.3). -/
def State.userAccess (s : State) (r : Requester) (a n : Nat) (data : Option (List Byte)) : State × Except Status (List Byte) :=
  let p := (a - 0xF20000000000) / 0x100000
  let page := (a - 0xF20000000000) % 0x100000 / 0x10000
  let off := (a - 0xF20000000000) % 0x10000
  let allowed := match r with
    | .hart _ _ _ => decide (s.partOf r = some p)
    | .referee => true
    | _ => false
  match r, data with
  | .rook _, none => (s, .ok (List.replicate n 0))
  | .rook _, some _ => (s.dropped (userBlock off) 0x02 (some p) 0 a, .ok [])
  | _, _ =>
    if !allowed then (s.unmapped r.square .notPermitted a, .error .notPermitted)
    else match data with
      | none => (s, .ok ((rangeFrom off n).map (fun o => s.userByte p page o)))
      | some d => (s.userWrite r p page off d, .ok [])

/-! Memories -/

/-- The state of a unit that answers for itself (R238): PEER_FENCED for a fenced die, BUSY for one in reset. -/
def State.dieAnswer (s : State) (i : Nat) : Option Status :=
  if (s.die i).fenced then some .peerFenced else if (s.die i).inReset then some .busy else none

/-- A requester reaches die memory without regard to HOST (R55). compiled says that the access carries CMP = 1. -/
def State.dieFree (s : State) (r : Requester) (i : Nat) (compiled : Bool) : Bool :=
  match r with
  | .referee => true
  | .rook j => decide (j = i)
  | .move j => decide (j = i) || (compiled && decide (s.siteOwner j = s.siteOwner i))
  | _ => false

/-- An access to die memory (R43, R51, R52, R55, R238). -/
def State.dieAccess (s : State) (r : Requester) (compiled : Bool) (a n : Nat) (data : Option (List Byte)) :
    State × Except Status (List Byte) :=
  let i := (a - 0x090000000000) / 0x08000000
  let off := (a - 0x090000000000) % 0x08000000
  match s.dieAnswer i with
  | some st => (s.bump .bnResetErr (siteSquare i), .error st)
  | none =>
    if s.dmSize i < off + n then (s.unmapped (siteSquare i) .badArgument a, .error .badArgument)
    else if !s.banksOn i off n then (s, .error .notPermitted)
    else if !(s.dieFree r i compiled || s.hostGrants i off n data.isSome) then (s, .error .notPermitted)
    else match data with
      | none => (s, .ok (s.bytes a n))
      | some d => (s.setBytes a d, .ok [])

/-- The units lent to state in a square (R306): units PIN − n + 1 to PIN. -/
def State.lentUnit (s : State) (p q u : Nat) : Bool :=
  let n := bitsAt (s.latchedReg .stPinLend p) 0 8
  let pin := s.field .ccLayout q 0 0 8
  decide (pin + 1 ≤ u + n ∧ u ≤ pin ∧ n ≤ pin)

/-- A unit that only the state path and Tolerabor reach (R306). -/
def State.lentAt (s : State) (q u : Nat) : Bool := match s.owner q with
  | some p => s.lentUnit p q u
  | none => false

/-- An access to a pinned unit (R59): unit 0 and units beyond PIN are unpopulated. -/
def State.pinnedAccess (s : State) (a n : Nat) (data : Option (List Byte)) (requester : Nat) (referee : Bool) :
    State × Except Status (List Byte) :=
  let q := (a - 0x080000000000) / 0x04000000
  let u (x : Nat) : Nat := (x - 0x080000000000) % 0x04000000 / 0x40000
  if u a = 0 ∨ s.field .ccLayout q 0 0 8 < u (a + n - 1) ∨ u (a + n - 1) < u a ∨ (!referee && (s.lentAt q (u a) || s.lentAt q (u (a + n - 1)))) = true then (s.unmapped q .badArgument a, .error .badArgument)
  else match data with
    | none =>
      if (blocksOf a n).any s.poisoned then (s.sliceUe q a requester, .error .uncorrectable) else (s, .ok (s.bytes a n))
    | some d =>
      let s := (blocksOf a n).foldl (fun s b => if a ≤ 64 * b ∧ 64 * b + 64 ≤ a + n then s.setPoison b false else s) s
      (s.setBytes a d, .ok [])

/-- An access to DRAM that its requester's caches do not serve. Compute-side requesters go through the home slice (R61), the
others through the host system cache (R63, R253). -/
def State.dramAccess (s : State) (r : Requester) (a n : Nat) (data : Option (List Byte)) : State × Except Status (List Byte) :=
  match data with
  | none => if r.computeSide then s.computeRead a n r.square else s.hostRead a n r.square
  | some d => ((if r.computeSide then s.computeWrite a d else s.hostWrite a d), .ok [])

/-- The squares of the memory at an address: the home slices of DRAM lines (R61), a slice, a die. -/
def memorySquares (a n : Nat) : List Nat :=
  if inDram a then [stackSquare (stackOf a), stackSquare (stackOf (a + n - 1))]
  else if 0x080000000000 ≤ a ∧ a < 0x080400000000 then [(a - 0x080000000000) / 0x04000000]
  else if 0x090000000000 ≤ a ∧ a < 0x090000000000 + 104 * 0x08000000 then [siteSquare ((a - 0x090000000000) / 0x08000000)]
  else if 0x0A0000000000 ≤ a ∧ a < 0x0A0000000000 + 104 * 0x400000 then [siteSquare ((a - 0x0A0000000000) / 0x400000)]
  else []

/-- The squares to which a requester's access to memory goes: on the compute side the home slices of the DRAM lines (R61). The slices that serve
a host-side access are not exposed (R63): the stack's square stands for them (DESIGN CHOICE). -/
def requestSquares (r : Requester) (a n : Nat) : List Nat :=
  if r.computeSide && inDram a then ((linesOf a n).filter (fun l => inDram (1024 * l))).map (fun l => homeSlice (1024 * l)) else memorySquares a n

/-- The boundary router that would drop an access to memory (R44, R212, R237). The Referee's accesses are not fenced. -/
def State.memoryFence (s : State) (r : Requester) (a n : Nat) : Option Nat :=
  if r.isReferee then none
  else (requestSquares r a n).findSome? (fun q => if s.owner q = s.partOf r then none else some ((s.boundaryOn (route r.square q)).getD q))

/-- A failed link that an access to memory would cross, going or returning (R239). -/
def State.memoryCut (s : State) (r : Requester) (a n : Nat) : Bool :=
  let there := if inDram a then (linesOf a n).map (fun l => homeSlice (1024 * l)) else memorySquares a n
  there.any (fun q => (s.failedOn .bnStatus 4 (route r.square q)).isSome || (s.failedOn .bnStatus 4 (route q r.square)).isSome)

/-- The user pages of Table 2.1. -/
def userWindow (a : Nat) : Bool := decide (0xF20000000000 ≤ a ∧ a < 0xF20000800000)

/-- The MMIO windows of the host dies (Table 2.1). -/
def mmioWindow (a : Nat) : Bool := decide (0xC00000000000 ≤ a ∧ a < 0xC80000000000)

/-- The die of an address in a MMIO window. -/
def mmioHost (a : Nat) : Nat := (a - 0xC00000000000) / 2 ^ 40

/-- Slices and die memories (Table 2.1). -/
def panelMemory (a : Nat) : Bool :=
  decide (0x080000000000 ≤ a ∧ a < 0x080400000000) || decide (0x090000000000 ≤ a ∧ a < 0x090000000000 + 104 * 0x08000000)

/-- An address lies in some window of Table 2.1. -/
def inWindow (a : Nat) : Bool :=
  inDram a || panelMemory a || decide (0x0A0000000000 ≤ a ∧ a < 0x0A0000000000 + 104 * 0x400000) ||
  decide (0x800000000000 ≤ a ∧ a < 0xC00000000000) || mmioWindow a || registerWindow a || userWindow a

/-- The windows that a hart of a die may reach (Table 2.1, R45, R57): not rook pads, far-state windows or another die's MMIO. -/
def hartReaches (h a : Nat) : Bool :=
  inDram a || panelMemory a || (mmioWindow a && decide (mmioHost a = h)) || registerWindow a || userWindow a

/-- A free byte list: what a device outside the module answers. -/
def State.drawBytes (s : State) (n : Nat) : State × List Byte :=
  let k := ceilDiv n 8
  ({ s with fresh := s.fresh + k }, ((rangeFrom s.fresh k).flatMap (fun x => leBytes 8 (Config.freeWord x).toNat)).take n)

/-- An access of n bytes at a physical address by a requester (Table 2.1): a read, or a write of the given bytes. compiled says
that a move issued it (CMP = 1). -/
def State.accessAt (s : State) (r : Requester) (compiled : Bool) (a n : Nat) (data : Option (List Byte)) :
    State × Except Status (List Byte) :=
  match s.memoryFence r a n with
  | some q => (s.bump .bnFenceDrop q, .error .partitionFenced)
  | none =>
    if s.memoryCut r a n then (s, .error .uncorrectable)
    else if inDram a then
      if inDram (a + n - 1) then s.dramAccess r a n data else (s.unmapped r.square .badArgument a, .error .badArgument)
    else if 0x080000000000 ≤ a ∧ a < 0x080400000000 then s.pinnedAccess a n data r.square r.isReferee
    else if 0x090000000000 ≤ a ∧ a < 0x090000000000 + 104 * 0x08000000 then s.dieAccess r compiled a n data
    else if 0x0A0000000000 ≤ a ∧ a < 0x0A0000000000 + 104 * 0x400000 then
      let i := (a - 0x0A0000000000) / 0x400000
      if r = .rook i ∨ r.isReferee = true then
        match s.dieAnswer i, data with
        | some st, _ => (s.bump .bnResetErr (siteSquare i), .error st)
        | none, none => (s, .ok (s.bytes a n))
        | none, some d => (s.setBytes a d, .ok [])
      else (s.unmapped r.square .notPermitted a, .error .notPermitted)
    else if 0x800000000000 ≤ a ∧ a < 0xC00000000000 then (s.unmapped r.square .notPermitted a, .error .notPermitted)
    else if mmioWindow a then
      let h := mmioHost a
      let mine := match r with
        | .hart d _ _ => decide (d = h)
        | .referee => true
        | _ => false
      if mine then
        s.behindHost h (match data with
        | none => let (s, d) := s.drawBytes n; (s, .ok d)
        | some _ => (s, .ok []))
      else (s.unmapped r.square .notPermitted a, .error .notPermitted)
    else if registerWindow a then s.privAccess r a n data
    else if userWindow a then s.userAccess r a n data
    else (s.unmapped r.square .badArgument a, .error .badArgument)

/-- Payload bytes carried from one square to another: BN_TX_BYTES and BN_RX_BYTES of the routers on the route (Table 8.10). -/
def State.carried (s : State) (src dst n : Nat) : State :=
  (hops (route src dst)).foldl (fun s (x, y) => (s.bump .bnTxBytes x 0 n).bump .bnRxBytes y 0 n) s

/-- The B-net payload of an access to memory: from or to each line's home slice on the compute side, a slice, or a die. The slice that
serves a host-side access is not exposed (R63), so that traffic is not counted. -/
def State.countTraffic (s : State) (r : Requester) (a n : Nat) (write : Bool) : State :=
  let go (s : State) (q k : Nat) : State := if write then s.carried r.square q k else s.carried q r.square k
  if inDram a then
    if r.computeSide then (linePieces a n).foldl (fun s (l, _, k) => go s (homeSlice (1024 * l)) k) s else s
  else (memorySquares a n).foldl (fun s q => go s q n) s

/-- The C-net packets of a register access: the request and its RSP (R228, R232). -/
def State.countRegister (s : State) (r : Requester) (a : Nat) : State :=
  let q := if 0xF00000000000 ≤ a ∧ a < 0xF00100000000 then (a - 0xF00000000000) / 0x1000000 else 0
  if q = r.square then s
  else (((s.bump .cnTxPkts r.square).bump .cnRxPkts q).bump .cnTxPkts q).bump .cnRxPkts r.square

/-- An access of n bytes at a physical address by a requester, with the traffic it makes on the networks. compiled says that a move
issued it (CMP = 1). -/
def State.access (s : State) (r : Requester) (compiled : Bool) (a n : Nat) (data : Option (List Byte)) :
    State × Except Status (List Byte) :=
  match s.accessAt r compiled a n data with
  | (s, .ok d) =>
    if registerWindow a || userWindow a then (s.countRegister r a, .ok d) else (s.countTraffic r a n data.isSome, .ok d)
  | (s, .error e) => (s, .error e)

/-- The outputs of frozen cores are blocked (R242): no access of the Referee's leaves it. -/
def State.blocked (s : State) (r : Requester) : Bool := r.isReferee && !s.coresRun

/-- Record what went back to the requester. -/
def State.answered (s : State) (x : Except Status (List Byte)) (fault : Bool := false) : State :=
  match x with
  | .ok d => { s with answer := { status := 0, data := d, fault := false } }
  | .error st => { s with answer := { status := BitVec.ofNat 8 st.code, data := [], fault := fault } }

end Sys2Proof.Machine
end

