-- ==== Sys2Proof/Machine/Latching.lean ====
section
/-! DEFINITION. What a changeover takes at the tick at which it begins: the changes that members of a spanning book announced, policies,
Tolerabor's own choices, the latch of T fields, and the commands accepted so far (R8 to R13, R81, R85, R91, R99, R249, R261). -/

namespace Sys2Proof.Machine

/-! T fields -/

/-- The T registers of a partition (R10). -/
def State.turnFields (s : State) (p : Nat) : List (RegName × Nat × Nat) :=
  [(RegName.tnStep, p, 0), (.sqMapReq, p, 0), (.stPinLend, p, 0)] ++
  (List.range 16).flatMap (fun n => [(RegName.ccPubBase, p, n), (.ccPubLen, p, n)]) ++
  (s.partSquares p).flatMap (fun q =>
    (List.range 32).map (fun n => (RegName.bnCroute, q, n)) ++ (List.range 40).map (fun n => (RegName.bnSlot, q, n))) ++
  (s.partQuads p).filterMap (fun n => if n % 4 = 0 then some (RegName.olSpanOfs, n / 4, 0) else none)

/-- Put the last written value of a T register into effect. -/
def State.latch (s : State) (n : RegName) (i j : Nat) : State :=
  if s.latchedReg n i j = s.reg n i j then s else s.latchReg n i j (s.reg n i j)

/-- Ticks that the standing publish ranges in effect in a partition need (R8, R525). -/
def State.standingTicks (s : State) (p : Nat) : Nat :=
  let l := standingLines (fun n => s.latchedReg .ccPubBase p n) (fun n => s.latchedReg .ccPubLen p n)
  ceilDiv l (64 * max 1 (s.partRegions p).length)

/-- A TURN_LEN that is latched (R81): within the loaded book's bounds. -/
def State.latchTurnLen (s : State) (p : Nat) (v : Word) : State :=
  let n := v.toNat
  let good := match s.book p with
    | some b => decide (b.turnMin ≤ n ∧ n ≤ b.turnMax)
    | none => true
  if n = (s.latchedReg .tnTurnLen p).toNat then s
  else if good then s.latchReg .tnTurnLen p 0 v
  else s.event7F .warning (some p) 0 .tnTurnLen p

/-- A CHG_LEN that is latched (R81): it holds the book's work and the standing publishes. -/
def State.latchChgLen (s : State) (p : Nat) (v : Word) : State :=
  let n := v.toNat
  if n = (s.latchedReg .tnChgLen p).toNat then s
  else if s.chgMin p + s.standingTicks p ≤ n then s.latchReg .tnChgLen p 0 v
  else s.event7F .warning (some p) 0 .tnChgLen p

/-- A partition is a member of a spanning book in force (R99). -/
def State.isMember (s : State) (p : Nat) : Bool := decide ((s.part p).members ≠ [])

/-- The T registers whose changes the members of a spanning book make together (R99, R376). -/
def commonFields : List RegName := [.tnTurnLen, .tnChgLen, .tnStep, .sqMapReq]

/-- Latch the T fields of a partition (R10), those of the standing ranges before CHG_LEN, which must hold them. The common fields of a member
take effect by announcement (R99). -/
def State.latchFields (s : State) (p : Nat) : State :=
  let alone := !s.isMember p
  let s := ((s.turnFields p).filter (fun (n, _, _) => alone || decide (n ∉ commonFields))).foldl (fun s (n, i, j) => s.latch n i j) s
  if alone then (s.latchTurnLen p (s.reg .tnTurnLen p)).latchChgLen p (s.reg .tnChgLen p) else s

/-! The step -/

/-- The slowest step a loaded book allows, as a code (TN_MIN_STEP, R90). -/
def State.slowest (s : State) (p : Nat) : Nat :=
  if s.flag .tnMinStep p 0 3 then s.field .tnMinStep p 0 0 3 else 7

/-- A sensor reading in 1/16 °C, signed; 0x8000 stands for no sensor (Table 17.5). -/
def reading (v : Nat) : Int := if v = 0x8000 then -32768 else (BitVec.ofNat 16 v).toInt

/-- The hottest reading at a square of its panel sensors, and of the part above it. -/
def State.panelTemp (s : State) (q : Nat) : Int := reading (s.field .thTemp q 0 0 16)
def State.aboveTemp (s : State) (q : Nat) : Int := reading (s.field .thTemp q 0 16 16)

/-- The part above a square throttles the compute step (R464): a compute die or a stack. -/
def stepPart (q : Nat) : Bool :=
  match squareKind q with
  | .site _ | .dram _ => true
  | _ => false

/-- A compute die, stack or panel sensor of a partition reads a temperature or more (R464). -/
def State.hotAbove (s : State) (p : Nat) (t : Int) : Bool :=
  (s.partSquares p).any (fun q => decide (t ≤ s.panelTemp q) || (stepPart q && decide (t ≤ s.aboveTemp q)))

/-- A partition's measured power exceeds its budget (R462). -/
def State.overBudget (s : State) (p : Nat) : Bool := decide (s.field .pwPartBudget p 0 0 16 < s.field .pwPartPower p 0 32 32)

/-- A region of the partition is at the VC ceiling, where Tolerabor asks for no faster step (R457). -/
def State.atCeiling (s : State) (p : Nat) : Bool := (s.partRegions p).any (fun r => s.flag .pwRgnStatus r 0 4)

/-- The first turn that a change decided in this changeover governs: the next one, or in a member of a spanning book the one after it, so
that every member can be told (R99). -/
def State.changeTurn (s : State) (p : Nat) : Word := s.turn p + (if s.isMember p then 2 else 1)

/-- Tolerabor writes TN_STEP, and records the decision (R248). -/
def State.askStep (s : State) (p step : Nat) : State :=
  if s.field .tnStep p 0 0 3 = step then s
  else (s.setReg .tnStep p 0 (BitVec.ofNat 64 step)).decision p .tnStep (s.changeTurn p)

/-- A slower step is within the book's MIN_STEP. -/
def State.canSlow (s : State) (p : Nat) : Bool := decide (s.stepNow p < s.slowest p ∧ s.stepNow p < 7)

/-- A faster step is within the fused step and STEP_CEILING (Table 17.3), with no region at its VC ceiling. -/
def State.canRaise (s : State) (p : Nat) : Bool :=
  decide (max Config.variant.fusedStep (s.policyValue p 0x0101 0).toNat < s.stepNow p) && !s.atCeiling p

/-- The last batch had more than one row. -/
def State.canShrink (s : State) (p : Nat) : Bool := decide (1 < (s.part p).liveRows)

/-- OVERRUN_ACTION changes the step first (Table 9.4). -/
def State.stepFirst (s : State) (p : Nat) : Bool := decide (s.policyValue p 0x0006 0 = 1)

/-- After two overruns in a row Tolerabor raises the step, or else shrinks the batch (R91): the means that OVERRUN_ACTION names first, and the
other where that one has nothing left. -/
def State.raisesStep (s : State) (p : Nat) : Bool :=
  decide (2 ≤ (s.part p).overrunsInRow) && s.canRaise p && (s.stepFirst p || !s.canShrink p)

def State.shrinksBatch (s : State) (p : Nat) : Bool :=
  decide (2 ≤ (s.part p).overrunsInRow) && s.canShrink p && !s.raisesStep p

/-- After a turn above its budget a partition takes a slower step, or else a smaller batch (R462), in the same way. -/
def State.slowsForPower (s : State) (p : Nat) : Bool := s.overBudget p && s.canSlow p && (s.stepFirst p || !s.canShrink p)

def State.shrinksForPower (s : State) (p : Nat) : Bool := s.overBudget p && s.canShrink p && !s.slowsForPower p

/-- VSTEP voltage of a region for a step in mV (R458), or none where the byte reads 0xFF. -/
def State.vstep (s : State) (r k : Nat) : Option Nat :=
  let c := s.field .pwVstep r 0 (8 * k) 8
  if c = 0xFF then none else some (500 + 5 * c)

/-- The power projected for a step fits the budget (R462): the last turn's, on the 100 ms average (DESIGN CHOICE, log 82), scaled as in R459 by the
ratio of the two clocks and, region by region, that of the VSTEP voltage to the setpoint. -/
def State.stepFits (s : State) (p k : Nat) : Bool :=
  let power := s.field .pwPartPower p 0 32 32
  let budget := s.field .pwPartBudget p 0 0 16
  decide (power = 0) || (s.partRegions p).all (fun r => match s.vstep r k with
    | none => false
    | some v => decide (power * cyclesPerTick k * v ≤ budget * cyclesPerTick (s.stepNow p) * max 1 (s.field .pwRgnStatus r 0 16 16)))

/-- The rows for which the power projected at the present step fits the budget (R462): the last turn's power scaled by batch rows. At least one. -/
def State.powerRows (s : State) (p : Nat) : Nat :=
  let power := s.field .pwPartPower p 0 32 32
  let rows := (s.part p).liveRows
  if power = 0 ∨ rows = 0 then 65536 else max 1 (s.field .pwPartBudget p 0 0 16 * rows / power)

/-- The least slack of the dies of a partition in the last turn (R194). -/
def State.minSlack (s : State) (p : Nat) : Nat :=
  let l := (s.enabledSites p).map (fun i => s.field .sqSlack i 0 0 32)
  l.foldl min (l.headD 0)

/-- Ticks of play. -/
def State.playTicks (s : State) (p : Nat) : Nat := s.turnLen p - s.chgLen p

/-- The minimum slack of the last turn is below SLACK_TARGET percent of its play (Table 9.4). -/
def State.slackShort (s : State) (p : Nat) : Bool :=
  decide (100 * s.minSlack p < (s.policyValue p 0x0005 5).toNat * (s.playTicks p * cyclesPerTick (s.stepNow p)))

/-- At a step the work of the last turn would leave SLACK_TARGET percent of play free (POWER_MODE 1, Table 17.3). -/
def State.keepsSlack (s : State) (p k : Nat) : Bool :=
  let used := s.playTicks p * cyclesPerTick (s.stepNow p) - s.minSlack p
  decide (100 * used ≤ (100 - (s.policyValue p 0x0005 5).toNat) * (s.playTicks p * cyclesPerTick k))

/-- Every junction that bears on the step stays below THERM_TARGET (Table 17.3). -/
def State.heatRoom (s : State) (p : Nat) : Bool := !s.hotAbove p (16 * (s.policyValue p 0x0104 88).toNat)

/-- The step that Tolerabor asks for where nothing forces it down (R462, R464, Table 17.3): none faster than STEP_CEILING. POWER_MODE 0 takes the fastest within STEP_CEILING, the
budget and heat, after throttling one step faster at a time; POWER_MODE 1 the slowest that keeps SLACK_TARGET. How the two weigh a request for
a step that is not yet applied is not stated: it is judged afresh (DESIGN CHOICE, log 82). -/
def State.normalStep (s : State) (p : Nat) : Nat :=
  let now := s.stepNow p
  let top := max Config.variant.fusedStep (s.policyValue p 0x0101 0).toNat
  if now < top then min top (s.slowest p)
  else if s.policyValue p 0x0102 0 = 0 then
    if s.atCeiling p || !s.heatRoom p then now
    else (((rangeFrom top (now - top)).find? (fun k => s.stepFits p k && (!(s.part p).recovering || decide (k + 1 = now)))).getD now)
  else if s.bookLoaded p then
    (((rangeFrom top (s.slowest p + 1 - top)).reverse.find? (fun k => s.keepsSlack p k && (decide (now ≤ k) ||
      (s.stepFits p k && !s.atCeiling p)))).getD now)
  else now

/-- Tolerabor's own choices of the step at a changeover: down by one for a region at its ceiling (R457), for a hot sensor (R464) and for a
budget that was exceeded (R462), never below the book's MIN_STEP; up after two overruns (R91); and otherwise the step of the power policy, in
place of a faster one that no longer fits. R91 does not say by how much the step rises: the model raises it by one (DESIGN CHOICE, log 82). A
slower step that the Referee has written stands until it has been applied. -/
def State.chooseStep (s : State) (p : Nat) : State :=
  let v := s.part p
  let now := s.stepNow p
  let top := max Config.variant.fusedStep (s.policyValue p 0x0101 0).toNat
  let hot := s.hotAbove p 1520
  let s := if s.overBudget p then (s.setFlag .pwStatus 0 0 2 true).bump .pwCapEvents else s
  let s := s.modPart p (fun v => { v with recovering := hot || (v.recovering && decide (top < now)) })
  if decide (0 < v.stepDrops) || hot || s.slowsForPower p then
    let s := s.modPart p (fun v => { v with stepDrops := v.stepDrops - 1 })
    if s.canSlow p then s.askStep p (now + 1) else s
  else if s.raisesStep p then s.askStep p (now - 1)
  else if now < s.field .tnStep p 0 0 3 then s
  else s.askStep p (s.normalStep p)

/-- The streams that a smaller batch leaves out of the one already staged for the next turn (R91, R462, Table 9.3): those after the first rows of one
less than the last batch, or of the number whose projected power fits the budget. DESIGN CHOICE (log 79). -/
def State.trimBatch (s : State) (p : Nat) : State :=
  let room := min (s.powerRows p) (if s.shrinksBatch p || s.shrinksForPower p then max 1 ((s.part p).liveRows - 1) else 65536)
  match (s.part p).staged with
    | none => s
    | some (_, l) =>
      let out := (batchStreams l).drop room
      if out = [] then s
      else ((out.foldl (fun s r => s.unstage p r.handle) s).restUnbatched p).decision p .stActive (s.turn p + 1)

/-- A map that prefill turns play (R284). -/
def Book.prefillMap (b : Book) (m : Nat) : Bool := b.sheets.any (fun x => decide (x.map = m) && x.prefill)

/-- PREFILL_SHARE (Table 9.4) has room for the two turns of a prefill map that come before it can be left again (R202 rule 3), beside those of
the last 98 turns. -/
def State.prefillRoom (s : State) (p : Nat) : Bool :=
  decide ((((s.part p).prefillHistory.take 98).filter id).length + 2 ≤ (s.policyValue p 0x0003 25).toNat)

/-- TURN_TARGET (Table 9.4): the preferred turn length, clipped to the book's bounds. -/
def State.chooseTurnLen (s : State) (p : Nat) : State :=
  let t := (s.policyValue p 0x0004 0).toNat
  if t = 0 then s
  else
    let n := match s.book p with
      | some b => min (max t b.turnMin) b.turnMax
      | none => t
    if s.reg .tnTurnLen p = BitVec.ofNat 64 n then s
    else (s.setReg .tnTurnLen p 0 (BitVec.ofNat 64 n)).decision p .tnTurnLen (s.changeTurn p)

/-- Tolerabor asks for a map (R202): it writes SQ_MAP_REQ, and records the decision (R248). The members of a spanning book are told at the
changeover (R99). -/
def State.requestMap (s : State) (p m : Nat) : State := (s.setReg .sqMapReq p 0 (BitVec.ofNat 64 m)).decision p .sqMapReq (s.changeTurn p)

/-- Tolerabor leaves a prefill map for which PREFILL_SHARE has no room (Table 9.3, Table 9.4), for the first map of the book that is not one.
DESIGN CHOICE (log 79): its other choices of a map are the Referee's writes of SQ_MAP_REQ. -/
def State.chooseMap (s : State) (p : Nat) : State :=
  match s.book p with
  | none => s
  | some b =>
    if !b.prefillMap (s.field .sqMapNow p 0 0 3) || s.prefillRoom p || (s.part p).switch.isSome then s
    else match (List.range b.mapCount).find? (fun m => !b.prefillMap m) with
      | some m => if s.reg .sqMapReq p = BitVec.ofNat 64 m then s else s.requestMap p m
      | none => s

/-- A value announced for a common field comes into the register too, unless another value has been written since (R9). -/
def State.followChange (s : State) (n : RegName) (p : Nat) (v : Word) : State :=
  if s.reg n p = s.latchedReg n p then s.setReg n p 0 v else s

/-- The changes that members of a spanning book announced for the turn after this one (R99, R376): the turn length, the changeover length, the
step and the map, and a maintenance turn. -/
def State.applySpanChanges (s : State) (p : Nat) : State :=
  let due := (s.part p).spanChanges.filter (fun (t, _) => decide (t.toNat % 2 ^ 32 = (s.turn p + 1).toNat % 2 ^ 32))
  let s := due.foldl (fun s (_, len, chg, step, map, maint) =>
    let s := ((s.followChange .tnTurnLen p len).followChange .tnChgLen p chg).followChange .tnStep p (step.setWidth 64)
    let s := (s.decision p .tnTurnLen (s.turn p + 1)).decision p .tnChgLen (s.turn p + 1)
    let s := ((s.latchTurnLen p len).latchChgLen p chg).latchReg .tnStep p 0 (step.setWidth 64)
    let s := if map = 0xFF then s else (s.followChange .sqMapReq p (map.setWidth 64)).latchReg .sqMapReq p 0 (map.setWidth 64)
    if maint then s.modPart p (fun v => { v with maintNext := true }) else s) s
  s.modPart p (fun v => { v with spanChanges := v.spanChanges.filter (fun x => decide (x ∉ due)) })

/-- Announce the common fields, as they were last written, and a maintenance turn for a turn that every member can still meet (R99, R376, R449):
the second from now. -/
def State.announceChange (s : State) (p : Nat) (maint : Bool) : State :=
  let t := s.turn p + 2
  let (len, chg, step) := (s.reg .tnTurnLen p, s.reg .tnChgLen p, s.reg .tnStep p)
  let map : BitVec 8 := if s.reg .sqMapReq p = s.latchedReg .sqMapReq p then 0xFF else (s.reg .sqMapReq p).setWidth 8
  let s := s.modPart p (fun v => { v with spanChanges := v.spanChanges ++ [(t, len, chg, step.setWidth 3, map, maint)] })
  s.tellMembers p 0x06 (leBytes 4 len.toNat ++ leBytes 2 chg.toNat ++ leBytes 1 step.toNat ++ leBytes 1 map.toNat ++ leBytes 4 t.toNat ++
    leBytes 4 (if maint then 1 else 0))

/-- A member announces values of the common fields that differ from those in effect, once (R99). -/
def State.announceNew (s : State) (p : Nat) : State :=
  let (len, chg, step) := (s.reg .tnTurnLen p, s.reg .tnChgLen p, (s.reg .tnStep p).setWidth 3)
  let known := (s.part p).spanChanges.any (fun (_, l, c, k, m, _) =>
    decide (l = len ∧ c = chg ∧ k = step ∧ (m = (s.reg .sqMapReq p).setWidth 8 ∨ s.reg .sqMapReq p = s.latchedReg .sqMapReq p)))
  if s.isMember p && commonFields.any (fun n => decide (s.reg n p ≠ s.latchedReg n p)) && !known then s.announceChange p false else s

/-- The commands that wait for a policy value to take effect complete with the first turn under it (R249). -/
def State.applyPolicies (s : State) (p : Nat) : State :=
  let v := s.part p
  let s := s.modPart p (fun v => { v with
    policy := v.policyNext.foldl (fun m x => Sparse.nput m x.1 x.2) v.policy, policyNext := [] })
  let now := v.queue.filter (fun q => match q.op with
    | .policySet _ _ => true
    | .debugTrace _ => true
    | _ => false)
  let s := s.modPart p (fun v => { v with
    queue := v.queue.filter (fun q => decide (q ∉ now))
    traceNext := none })
  let s := match v.traceNext with
    | some t => s.setReg .dbTraceCtl p 0 (t.setWidth 64)
    | none => s
  now.foldl (fun s q => match q.op with
    | .policySet id _ => s.complete q.cmd (if 0x0100 ≤ id.toNat then 0x0900 else 0x0205) .ok (some (s.turn p + 1))
    | _ => s.complete q.cmd 0x0804 .ok) s

/-- PART_BUDGET in effect (Table 17.8). -/
def State.budgetStep (s : State) (p : Nat) : State :=
  match Sparse.nfind (s.part p).policy 0x0100 with
  | some w => s.setReg .pwPartBudget p 0 (w &&& 0xFFFF)
  | none => s


/-! The tick at which a changeover begins -/

/-- What the boundary takes: T fields are latched (R10, R11), and the publishes, operations, loads and unloads accepted so far are those of this
changeover (R67, R261). -/
def State.takeBoundary (s : State) (p : Nat) : State :=
  let s := s.latchFields p
  s.modPart p (fun v => { v with
    pubsDue := v.publishes.length, opsDue := v.queue.length, bookDue := v.unload.isSome || v.loading.isSome })

/-- A changeover of a partition begins (R85, R94): announced changes and policies take effect, Tolerabor makes its choices, and the boundary is
taken. -/
def State.openChangeover (s : State) (p : Nat) : State :=
  let s := s.modPart p (fun v => { v with opened := true, overrunsInRow := if v.overran ∧ !v.hadHalt then v.overrunsInRow else 0 })
  let s := ((s.applySpanChanges p).applyPolicies p).budgetStep p
  let s := if s.up then ((((s.trimBatch p).chooseTurnLen p).chooseStep p).chooseMap p).announceNew p else s
  s.takeBoundary p

end Sys2Proof.Machine
end

