-- ==== Sys2Proof/Machine/Net.lean ====
section
/-! DEFINITION. The routers of the three networks: packet layouts, buffers, wheels, round-robin service, replay buffers, injection limits and the
messages of the S-net (R213, R214, R220, R221, R226 to R230, R234, R235). -/

namespace Sys2Proof

/-- KIND of a B-net packet (Table 8.4). -/
def BnetKind.code : BnetKind → Nat
  | .rd => 0 | .rdata => 1 | .wr => 2 | .wack => 3 | .send => 4 | .sack => 5 | .err => 6 | .prd => 7 | .pdata => 8 | .pwr => 9 | .pwack => 10

/-- The header of a B-net packet (Table 8.4); BLKS counts its payload blocks of 64 B. -/
def BnetPacket.header (p : BnetPacket) : BitVec 256 :=
  p.byteEnable ++ p.dest ++ p.src ++ BitVec.ofNat 4 p.kind.code ++ BitVec.ofBool p.compiled ++ (0 : BitVec 1) ++ p.cls ++ p.xid ++ p.seq ++
  p.lines ++ p.epoch ++ p.turn ++ p.rctr ++ BitVec.ofNat 5 (Machine.ceilDiv p.payload.length 64) ++ p.part ++ p.circ ++ p.addr ++ (0 : BitVec 16)

/-- The CRC-32C of header and payload on a lane's check wires (R213). DESIGN CHOICE (log 80): the header's bytes are taken little-endian (R6),
before the payload. -/
def BnetPacket.check (p : BnetPacket) : BitVec 32 := Machine.crc32c (Machine.leBytes 32 p.header.toNat ++ p.payload)

/-- TYPE of a C-net packet (Table 8.7). -/
def CnetType.code : CnetType → Nat
  | .rd => 0 | .wr => 1 | .rsp => 2 | .doorbell => 3 | .fault => 4 | .event => 5 | .debug => 6 | .maint => 7 | .msi => 8

/-- The header of a C-net packet (Table 8.7). -/
def CnetPacket.header (p : CnetPacket) : BitVec 128 :=
  p.dest ++ p.src ++ BitVec.ofNat 4 p.type.code ++ p.part ++ (0 : BitVec 1) ++ p.tag ++ p.status ++ p.size ++ (0 : BitVec 24) ++ p.addr

/-- The 64 bytes of a C-net packet (R228): its header and a payload of 48 bytes. -/
def CnetPacket.bytes (p : CnetPacket) : List Byte := Machine.leBytes 16 p.header.toNat ++ Machine.padTo 48 p.payload

end Sys2Proof

namespace Sys2Proof.Machine

/-! Answers (R213) -/

/-- A packet that answers another from a square: it copies XID, SEQ, EPOCH, TURN and CMP (R213), and its other fields are its own. LINES is the
request's: R213 does not name it (DESIGN CHOICE, log 80). -/
def State.answerTo (s : State) (q : Nat) (p : BnetPacket) (kind : BnetKind) (payload : List Byte) : BnetPacket :=
  { p with byteEnable := BitVec.allOnes 64, dest := p.src, src := BitVec.ofNat 8 q, kind := kind, cls := 1, rctr := 0xFF,
           part := BitVec.ofNat 3 ((s.owner q).getD p.part.toNat), circ := 0xFF, payload := payload }

/-- An ERR with a status in its first block. -/
def State.errFor (s : State) (q : Nat) (p : BnetPacket) (st : Status) : BnetPacket := s.answerTo q p .err (padTo 64 [BitVec.ofNat 8 st.code])

/-! B-net channels and wheels (R220, R221, R226) -/

/-- The next square of a packet's route from a router (R210): the route of its ends where it stands on it, else its own from here. -/
def nextHop (q src dst : Nat) : Option Nat :=
  let r := route src dst
  let r := if q ∈ r then r.dropWhile (fun x => decide (x ≠ q)) else route q dst
  r[1]?

/-- The dimension order of a packet (R210), a corner standing at its inner corner: 1 for Y then X. -/
def routeOrder (src dst : Nat) : Nat :=
  let inner (q : Nat) : Nat := ((cornerPath q).map Prod.snd).getD q
  if yFirst (inner src) (inner dst) then 1 else 0

/-- The channel of a packet: its class in one of the two dimension orders (R226). -/
def packetChannel (p : BnetPacket) : Nat := 2 * p.cls.toNat + routeOrder p.src.toNat p.dest.toNat

/-- Key of an input port's buffer for a channel: inputs 0 N, 1 E, 2 S, 3 W, 4 the local port. -/
def inputKey (input channel : Nat) : Nat := 6 * input + channel

def State.bnetBuf (s : State) (q k : Nat) : List BnetPacket := Sparse.nget [] (s.square q).bnetBufs k
def State.circuitQueue (s : State) (q c : Nat) : List BnetPacket := Sparse.nget [] (s.square q).circuitQueues c

def State.setBnetBuf (s : State) (q k : Nat) (l : List BnetPacket) : State :=
  s.modSquare q (fun v => { v with bnetBufs := Sparse.nset [] v.bnetBufs k l })
def State.setCircuitQueue (s : State) (q c : Nat) (l : List BnetPacket) : State :=
  s.modSquare q (fun v => { v with circuitQueues := Sparse.nset [] v.circuitQueues c l })

/-- A router's wheel runs (R220): CIRC_ACTIVE. -/
def State.wheelRuns (s : State) (q : Nat) : Bool := s.flag .bnStatus q 0 8

/-- The slots of the panel cycles of the present tick at a router (R220): 15 cycles a tick, counted from the tick at which the router's copy of
the game clock reached the start of play. -/
def State.tickSlots (s : State) (q : Nat) : List Nat :=
  match s.owner q with
  | some p => (List.range 15).map (fun k => (15 * (s.now q - s.reg .tnStart p).toNat + k) % 64)
  | none => []

/-- The circuit that owns a slot of an output, 255 for none (BN_SLOTd_n). -/
def State.slotOwner (s : State) (q d n : Nat) : Nat := bitsAt (s.latchedReg .bnSlot q (8 * d + n / 8)) (8 * (n % 8)) 8

/-- A packet may leave by an output in the present tick (R221): the wheel stands, or some slot is unowned or its owner has no packet waiting. -/
def State.packetSlot (s : State) (q d : Nat) : Bool :=
  !s.wheelRuns q || (s.tickSlots q).any (fun n => decide (s.slotOwner q d n = 255 ∨ s.circuitQueue q (s.slotOwner q d n) = []))

/-- A circuit's packet may leave by an output in the present tick (R220, R221): the wheel runs and the circuit owns a slot of it. -/
def State.circuitSlot (s : State) (q d c : Nat) : Bool := s.wheelRuns q && (s.tickSlots q).any (fun n => decide (s.slotOwner q d n = c))

/-! Links (R214, R407) -/

/-- The clamp on the receiving side holds the signals from one square to another at their idle level (R407, R436): their regions differ, and the
sender's is not in its supply window, or its clamp toward the receiver's has not been opened. -/
def State.clamped (s : State) (src dst : Nat) : Bool :=
  decide (squareRegion src ≠ squareRegion dst) &&
  !(decide (squareRegion src ∈ s.power.clampsOpen) && decide (squareRegion dst ∈ s.pins.enC))

/-- Key of a replay buffer: direction and lane. -/
def laneKey (d lane : Nat) : Nat := 2 * d + lane

def State.lane (s : State) (q d lane : Nat) : List BnetPacket := Sparse.nget [] (s.square q).replay (laneKey d lane)

/-- A lane whose replay buffer of 16 packets has room (R214). Which lane a packet takes is not stated: the first with room. -/
def State.freeLane (s : State) (q d : Nat) : Option Nat := [0, 1].find? (fun x => decide ((s.lane q d x).length < 16))

/-- Send a packet over a link: it stays in the replay buffer of a lane until it is acknowledged. -/
def State.sendOver (s : State) (q d : Nat) (p : BnetPacket) : State :=
  match s.freeLane q d with
  | some x =>
    (s.modSquare q (fun v =>
      { v with replay := Sparse.nset [] v.replay (laneKey d x) (Sparse.nget [] v.replay (laneKey d x) ++ [p]), bnetOut := v.bnetOut ++ [p] })).bump
        .bnTxBytes q 0 p.payload.length
  | none => s

/-- Packets of a kind that have left over a link and are not acknowledged. -/
def State.unacked (s : State) (q d : Nat) (f : BnetPacket → Bool) : Nat := ((s.lane q d 0 ++ s.lane q d 1).filter f).length

/-- The next router has a place for a packet (R226, R227): in its channel's buffer of 16, counting those on the way; at its own destination it
is taken at once, unless it is of the port class and the egress buffer is full. -/
def State.roomAhead (s : State) (q d : Nat) (p : BnetPacket) : Bool :=
  match neighbour q d with
  | none => false
  | some n =>
    if p.dest.toNat = n then !(decide (p.cls = 2) && s.portFull n)
    else decide ((s.bnetBuf n (inputKey (opposite d) (packetChannel p))).length +
      s.unacked q d (fun x => decide (x.circ = 0xFF ∧ packetChannel x = (packetChannel p))) < 16)

/-- The next router has a place in a circuit's queue of 4 (R221), counting packets on the way. -/
def State.circuitAhead (s : State) (q d c : Nat) : Bool :=
  match neighbour q d with
  | none => false
  | some n => decide ((s.circuitQueue n c).length + s.unacked q d (fun x => decide (x.circ.toNat = c)) < 4)

/-! Service of a B-net router (R226) -/

/-- The output that a buffered packet waits for. -/
def packetOut (q : Nat) (p : BnetPacket) : Option Nat := (nextHop q p.src.toNat p.dest.toNat).map (directionTo q)

/-- The head of a buffer can go by an output: over the link, or back as an ERR where the link has failed (R239). -/
def State.headGoes (s : State) (q d k : Nat) : Bool :=
  match s.bnetBuf q k with
  | p :: _ => decide (packetOut q p = some d) &&
      (s.flag .bnStatus q 0 (4 + d) || ((s.freeLane q d).isSome && s.roomAhead q d p && s.packetSlot q d))
  | [] => false

/-- Serve an output of a router once: round-robin among the channels of its inputs, one packet per channel in turn (R226). -/
def State.serveOut (s : State) (q d : Nat) : Option State :=
  let first := Sparse.nget 0 (s.square q).bnetNext d
  match ((List.range 30).map (fun k => (first + k) % 30)).find? (fun k => s.headGoes q d k) with
  | none => none
  | some k => match s.bnetBuf q k with
    | [] => none
    | p :: rest =>
      let s := (s.setBnetBuf q k rest).modSquare q (fun v => { v with bnetNext := Sparse.nset 0 v.bnetNext d ((k + 1) % 30) })
      if s.flag .bnStatus q 0 (4 + d) then
        some (if p.kind = .err then s else s.modSquare q (fun v => { v with bnetHeld := v.bnetHeld ++ [s.errFor q p .uncorrectable] }))
      else some (s.sendOver q d p)

/-- A packet of the local port enters its circuit's queue or its channel's buffer, if there is room. -/
def State.enterLocal (s : State) (q : Nat) (p : BnetPacket) : Option State :=
  let c := p.circ.toNat
  let k := inputKey 4 (packetChannel p)
  if p.circ ≠ 0xFF then if (s.circuitQueue q c).length < 4 then some (s.setCircuitQueue q c (s.circuitQueue q c ++ [p])) else none
  else if (s.bnetBuf q k).length < 16 then some (s.setBnetBuf q k (s.bnetBuf q k ++ [p]))
  else none

/-- The packets of a list enter as far as there is room; what is left of the list. -/
def State.enterAll (s : State) (q : Nat) : List BnetPacket → State × List BnetPacket
  | [] => (s, [])
  | p :: l =>
    match s.enterLocal q p with
    | some t => t.enterAll q l
    | none => let (t, r) := s.enterAll q l; (t, p :: r)

/-- Packets that wait at a square's local port enter the router. At an optical square they pass the ingress buffer of 256 lines (R227). -/
def State.refill (s : State) (q : Nat) : State :=
  let v := s.square q
  match squareKind q with
  | .optical _ =>
    let n := 256 - v.ingress.length
    let s := s.modSquare q (fun v => { v with ingress := v.ingress ++ v.bnetHeld.take n, bnetHeld := v.bnetHeld.drop n })
    let (s, r) := s.enterAll q (s.square q).ingress
    s.modSquare q (fun v => { v with ingress := r })
  | _ =>
    let (s, r) := s.enterAll q v.bnetHeld
    s.modSquare q (fun v => { v with bnetHeld := r })

/-- Serve a router's links until nothing can go, within a number of packets. -/
def State.serveFor (s : State) (q : Nat) : Nat → State
  | 0 => s
  | n + 1 =>
    let s := s.refill q
    match [0, 1, 2, 3].findSome? (fun d => s.serveOut q d) with
    | some t => t.serveFor q n
    | none => s

/-- Packets that a router holds or that wait at its port. -/
def State.waitingAt (s : State) (q : Nat) : Nat :=
  let v := s.square q
  (v.bnetBufs.flatMap Prod.snd).length + v.bnetHeld.length + v.ingress.length

/-- Serve a router. -/
def State.serve (s : State) (q : Nat) : State := s.serveFor q (2 * s.waitingAt q + 1)

/-- Serve a router, and its neighbours, whose packets may have waited for its room. -/
def State.serveRouter (s : State) (q : Nat) : State :=
  ((List.range 4).filterMap (neighbour q)).foldl (fun s n => s.serve n) (s.serve q)

/-- A packet leaves a square: it waits at the local port until the router takes it. One to the square itself stays at its port. -/
def State.injectBnet (s : State) (q : Nat) (p : BnetPacket) : State :=
  if p.dest.toNat = q then s.modSquare q (fun v => { v with bnetOut := v.bnetOut ++ [p] })
  else (s.modSquare q (fun v => { v with bnetHeld := v.bnetHeld ++ [p] })).serveRouter q

/-! The C-net (R229, R230) -/

/-- Key of an input's buffer, or of a link's wires: input or direction, then requests 0 and responses 1 (R229). -/
def cnetKey (input : Nat) (p : CnetPacket) : Nat := 2 * input + (if p.type = .rsp then 1 else 0)

def State.cnetBuf (s : State) (q k : Nat) : List CnetPacket := Sparse.nget [] (s.square q).cnetBufs k
def State.cnetWires (s : State) (q k : Nat) : List CnetPacket := Sparse.nget [] (s.square q).cnetWire k

def State.setCnetBuf (s : State) (q k : Nat) (l : List CnetPacket) : State :=
  s.modSquare q (fun v => { v with cnetBufs := Sparse.nset [] v.cnetBufs k l })

/-- The RSP to a C-net request: its tag, a status, and data, from the partition of the square that answers (R228). -/
def State.rspFor (s : State) (q : Nat) (p : CnetPacket) (st : Nat) (d : List Byte) : CnetPacket :=
  { p with dest := p.src, src := BitVec.ofNat 8 q, type := .rsp, part := BitVec.ofNat 3 ((s.owner q).getD p.part.toNat),
           status := BitVec.ofNat 8 st, size := BitVec.ofNat 8 d.length, payload := padTo 48 d }

/-- The head of a C-net buffer can go by an output: the next router's buffer of 8 has room, counting packets on the wires (R229), or the link has
failed and it is answered (R239). -/
def State.cnetGoes (s : State) (q d k : Nat) : Bool :=
  match s.cnetBuf q k, neighbour q d with
  | p :: _, some n =>
    decide ((nextHop q p.src.toNat p.dest.toNat) = some n) &&
    (s.flag .cnStatus q 0 (1 + d) ||
      decide ((s.cnetBuf n (cnetKey (opposite d) p)).length + (s.cnetWires q (cnetKey d p)).length < 8))
  | _, _ => false

/-- The order in which an output serves buffers: each input in turn, its requests in one round and its responses in the next (R229; DESIGN
CHOICE, log 80: how the two buffers of an input take turns is not stated). -/
def cnetOrder (first : Nat) : List Nat :=
  (List.range 10).map (fun k => let j := (first + k) % 10; 2 * (j % 5) + j / 5)

/-- The place of a buffer in that order. -/
def cnetPlace (k : Nat) : Nat := k / 2 + 5 * (k % 2)

/-- Serve an output of a C-net router once (R229). -/
def State.cnetServeOut (s : State) (q d : Nat) : Option State :=
  match (cnetOrder (Sparse.nget 0 (s.square q).cnetNext d)).find? (fun k => s.cnetGoes q d k) with
  | none => none
  | some k => match s.cnetBuf q k with
    | [] => none
    | p :: rest =>
      let s := (s.setCnetBuf q k rest).modSquare q (fun v => { v with cnetNext := Sparse.nset 0 v.cnetNext d ((cnetPlace k + 1) % 10) })
      if s.flag .cnStatus q 0 (1 + d) then
        some (if p.type = .rsp then s
          else s.modSquare q (fun v => { v with cnetAnswers := v.cnetAnswers ++ [s.rspFor q p Status.uncorrectable.code []] }))
      else some (s.modSquare q (fun v =>
        { v with cnetWire := Sparse.nset [] v.cnetWire (cnetKey d p) (Sparse.nget [] v.cnetWire (cnetKey d p) ++ [p])
                 cnetOut := v.cnetOut ++ [p] }))

/-- A packet of the local port enters its buffer of 8, and counts in CN_TX_PKTS. -/
def State.cnetEnter (s : State) (q : Nat) (p : CnetPacket) : Option State :=
  let k := cnetKey 4 p
  if (s.cnetBuf q k).length < 8 then some ((s.setCnetBuf q k (s.cnetBuf q k ++ [p])).bump .cnTxPkts q) else none

/-- The responses of a square enter as far as there is room. -/
def State.cnetRefill (s : State) (q : Nat) : State :=
  match (s.square q).cnetAnswers with
  | [] => s
  | p :: l => match s.cnetEnter q p with
    | some t => t.modSquare q (fun v => { v with cnetAnswers := l })
    | none => s

/-- Serve a C-net router's links until nothing can go, within a number of packets. -/
def State.cnetServeFor (s : State) (q : Nat) : Nat → State
  | 0 => s
  | n + 1 =>
    let s := s.cnetRefill q
    match [0, 1, 2, 3].findSome? (fun d => s.cnetServeOut q d) with
    | some t => t.cnetServeFor q n
    | none => s

def State.cnetServe (s : State) (q : Nat) : State :=
  let v := s.square q
  s.cnetServeFor q (2 * ((v.cnetBufs.flatMap Prod.snd).length + v.cnetAnswers.length) + 1)

/-- Serve a C-net router and its neighbours. -/
def State.cnetServeRouter (s : State) (q : Nat) : State :=
  ((List.range 4).filterMap (neighbour q)).foldl (fun s n => s.cnetServe n) (s.cnetServe q)

/-- Panel cycles at a square's game-clock copy: 15 a tick. -/
def State.panelCycle (s : State) (q : Nat) : Nat := 15 * (s.now q).toNat

/-- The token bucket of a square holds a token (R230): the sustained interval and the burst are those that CN_INJ reports, and injDue is the panel
cycle at which the bucket would be full again. -/
def State.hasToken (s : State) (q : Nat) : Bool :=
  let (t, b) := (s.field .cnInj q 0 8 16, s.field .cnInj q 0 0 8)
  decide ((s.square q).injDue ≤ s.panelCycle q + 14 + (b - 1) * t)

/-- Take a token. -/
def State.takeToken (s : State) (q : Nat) : State :=
  s.modSquare q (fun v => { v with injDue := max v.injDue (s.panelCycle q) + s.field .cnInj q 0 8 16 })

/-- A requester's packet enters its square's router with a token (R230); a full buffer holds it. -/
def State.cnetAdmit (s : State) (q : Nat) (p : CnetPacket) : State :=
  match s.cnetEnter q p with
  | some t => (t.takeToken q).cnetServeRouter q
  | none => s.modSquare q (fun v => { v with cnetHeld := v.cnetHeld ++ [p] })

/-- Inject a C-net packet: it waits at injection while its square is over its limit (R230). Requests and responses share the limit (R500). One to
the square itself stays at its port. -/
def State.injectCnet (s : State) (q : Nat) (p : CnetPacket) : State :=
  if p.dest.toNat = q then (s.modSquare q (fun v => { v with cnetOut := v.cnetOut ++ [p] })).bump .cnTxPkts q
  else if (s.square q).cnetHeld = [] ∧ s.hasToken q = true then s.cnetAdmit q p
  else s.modSquare q (fun v => { v with cnetHeld := v.cnetHeld ++ [p] })

/-! The S-net (R234, R235) -/

/-- Message types (Table 8.9). -/
def snTime : Nat := 1
def snBoundary : Nat := 2
def snDoneType : Nat := 3
def snReadyType : Nat := 4
def snYieldedType : Nat := 5
def snPreempt : Nat := 6
def snAbort : Nat := 7

/-- An S-net message of 8 bytes: its type in the first (R234). -/
def snMessage (type : Nat) (v : BitVec 56) : BitVec 64 := v ++ BitVec.ofNat 8 type

/-- The children of a router (SN_TREE [11:8]). -/
def State.treeChildren (s : State) (q : Nat) : List Nat := bitList 4 (BitVec.ofNat 4 (s.field .snTree q 0 8 4))

/-- Send a message over some of a square's S-net links. -/
def State.snSend (s : State) (q : Nat) (dirs : List Nat) (m : BitVec 64) : State :=
  s.modSquare q (fun v => { v with snetOut := v.snetOut ++ dirs.map (fun d => (d, m)) })

/-- A router passes a message down its tree (Table 8.9). -/
def State.snDown (s : State) (q : Nat) (m : BitVec 64) : State := s.snSend q (s.treeChildren q) m

/-- The root of a partition's tree: its square of lowest ID (R235). -/
def State.treeRoot (s : State) (p : Nat) : Option Nat := (s.partSquares p).head?

/-- The root of a partition sends a message down the tree. -/
def State.rootSends (s : State) (p : Nat) (m : BitVec 64) : State :=
  match s.treeRoot p with
  | some q => s.snDown q m
  | none => s

/-- A message to the parent of a router (SN_TREE [2:0]); the root has none. -/
def State.snUp (s : State) (q : Nat) (m : BitVec 64) : State :=
  let c := s.field .snTree q 0 0 3
  if c = 0 then s else s.snSend q [c - 1] m

end Sys2Proof.Machine
end

