-- ==== Sys2Proof/Machine/Fences.lean ====
section
/-! DEFINITION. Aborting a turn, and the fences of chapter 15: of a partition, a compute die, a host die, a supply region
and a peer module (R94, R95, R411, R413, R421, R422). -/

namespace Sys2Proof.Machine

/-! Causes of an abort, in the codes of OUTCOME (Table 19.1). The table has no code for an abort that a fence, a clock loss, a
supply fault or a shadow mismatch causes: abortFence stands for it, and OUTCOME then holds a free value. -/

def abortSlip : Nat := 1
def abortLate : Nat := 2
def abortBus : Nat := 3
def abortTwin : Nat := 4
def abortPreempt : Nat := 5
def abortDebug : Nat := 6
def abortTable : Nat := 7
def abortReset : Nat := 8
def abortStretch : Nat := 9
def abortFence : Nat := 256

/-! Causes of a partition fence (Table 15.8) -/

def causeClock : Nat := 0x1
def causeSupply : Nat := 0x2
def causeOvercurrent : Nat := 0x3
def causeLockup : Nat := 0x4
def causePip : Nat := 0x5
def causeTwin : Nat := 0x6
def causeShadow : Nat := 0x7
def causeTable : Nat := 0x8
def causePeer : Nat := 0x9
def causeSpan : Nat := 0xA

/-- Run or stop the wheels of a partition's routers (R220): CIRC_ACTIVE shows a wheel that runs with a circuit plan in force. -/
def State.runWheels (s : State) (p : Nat) (on : Bool) : State :=
  let plan := match s.book p with
    | some b => b.circuits.any (fun c => decide (c.map = s.field .sqMapNow p 0 0 3))
    | none => false
  (s.partSquares p).foldl (fun s q => s.setFlag .bnStatus q 0 8 (on && plan)) s

/-- Mark the turn of a partition aborted (R94): TN_ABORTS, LAST_ABORT and the event TURN_ABORTED, once a turn. -/
def State.markAborted (s : State) (p cause : Nat) : State :=
  if (s.part p).aborted then s
  else
    let s := s.modPart p (fun v => { v with aborted := true, abortCause := cause })
    let s := (s.bump .tnAborts p).setFlag .tnStatus p 0 2 true
    s.eventAny 0x2 0x31 (some p) 0 (leBytes 8 cause ++ leBytes 8 (s.turn p).toNat)

/-- Some rook of the partition is halted (R493). -/
def State.anyHalted (s : State) (p : Nat) : Bool := (s.partSites p).any (fun i => (s.die i).halted)

/-- Abort the turn of a partition (R94, R95): in play or slip the changeover begins now and takes its boundary, with a drain of 500 ticks; while
a rook is halted a debug pause follows the drain, and the boundary is taken when it ends (R13, R493). In a changeover whose stream advances have not been applied, the turn's streams are reported not advanced (R411). -/
def State.abortTurn (s : State) (p cause : Nat) : State :=
  let v := s.part p
  match v.stage with
  | .play =>
    let s := (((s.markAborted p cause).runWheels p false).setPhase p 2).rootSends p (snMessage snAbort ((s.turn p).setWidth 56))
    let s := s.modPart p (fun v => { v with stage := .draining, chgStart := s.now, chgBase := s.now + 500, chgNow := s.chgLen p })
    if s.anyHalted p then s else s.openChangeover p
  | .begun | .started => s.markAborted p cause
  | _ => s

/-- The dies of a partition that issue moves in its play: none in a fenced partition, in a maintenance turn, in the empty
turn after a stretch, or with no book (R79, R87, R422, R449). -/
def State.partIssues (s : State) (p : Nat) : Bool :=
  s.bookLoaded p && !s.partFenced p && !(s.part p).maintTurn && !(s.part p).emptyTurn

/-- A site in service (R36, R421): ENABLED, not out of service, and its die not held in reset. -/
def State.inService (s : State) (i : Nat) : Bool :=
  s.siteEnabled i && !s.siteOut i && !(s.die i).inReset && !(s.die i).fenced

/-- A die has moves to issue this turn. -/
def State.dieIssues (s : State) (p i : Nat) : Bool :=
  s.partIssues p && s.inService i && decide (0 < (s.die i).tableLen)

/-- A die is done with the turn (R84): its sequencer says so, or it has nothing to do. -/
def State.dieDone (s : State) (p i : Nat) : Bool := !s.dieIssues p i || s.flag .sqStatus i 0 16

/-- Every die of the partition is done. -/
def State.allDone (s : State) (p : Nat) : Bool := (s.enabledSites p).all (fun i => s.dieDone p i)

/-- Fence a partition (R422, Table 15.7): once; a partition already fenced keeps the first cause. -/
def State.fencePartition (s : State) (p cause : Nat) : State :=
  if !s.formed p || s.partFenced p then s
  else
    let s := (s.setFlag .ptStatus p 0 2 true).setField .ptStatus p 0 12 4 cause
    let s := s.bump .ptFences p
    s.setReg .ptLastFence p 0 (BitVec.ofNat 64 (cause * 2 ^ 60 + s.now.toNat % 2 ^ 60))

/-- Fence a compute die (R421): held in reset, its REF_OUT bit set. -/
def State.fenceDie (s : State) (i : Nat) : State :=
  (s.modDie i (fun d => { d with fenced := true, inReset := true, playing := false, flights := [], check := none })).setSiteOut i true

/-- Fence a host die (R421): HD_STATUS.FENCED, PT_HOSTS_FENCED, and its root port held in reset. -/
def State.fenceHost (s : State) (h : Nat) : State :=
  let s := (s.setFlag .hdStatus h 0 3 true).modHost h (fun v => { v with portInReset := true })
  match s.hostOwner h with
  | some p => s.setFlag .ptHostsFenced p 0 h true
  | none => s

/-- Take a site of a partition out of service (R36): its die fenced, and the partition with it (R422). -/
def State.takeOut (s : State) (p i cause : Nat) : State := (s.fenceDie i).fencePartition p cause

/-- The SAFETY record of a reaction (R412, R472): the register that the reaction sets, and the unit. -/
def State.safetyAt (s : State) (p : Option Nat) (source : Nat) (n : RegName) (i j unit : Nat) (more : List Byte := []) : State :=
  s.event7F .safety p source n i j (leBytes 4 unit ++ more)

/-- The SAFETY record of a site taken out of service: its REF_OUT register and the site. -/
def State.safetyOut (s : State) (p i : Nat) (more : List Byte := []) : State :=
  s.safetyAt (some p) 0 (if i < 64 then .refOutLo else .refOutHi) 0 0 i more

/-- Enter a fenced module in PT_PEERn of a partition (R421); a ninth entry fences the partition. -/
def State.enterPeer (s : State) (p : Nat) (m : BitVec 13) : State :=
  let slot (n : Nat) : Word := s.reg .ptPeer p n
  if (List.range 8).any (fun n => bitAt (slot n) 63 && decide (bitsAt (slot n) 0 13 = m.toNat)) then s
  else match (List.range 8).find? (fun n => !bitAt (slot n) 63) with
    | some n => s.setReg .ptPeer p n (BitVec.ofNat 64 (2 ^ 63 + m.toNat))
    | none => s.fencePartition p causePeer

/-- A partition runs a spanning book with a module (R100). -/
def State.runsWith (s : State) (p : Nat) (m : BitVec 13) : Bool :=
  s.bookLoaded p && (s.part p).members.any (fun x => decide (x.1 = m.toNat))

/-- An exchange of a partition with a module is in progress: a migration toward it (R366, R421). -/
def State.exchangesWith (s : State) (p : Nat) (m : BitVec 13) : Bool :=
  (s.part p).migrations.any (fun x => decide (x.module = m.setWidth 16)) ||
  s.exchanges.any (fun x => decide (x.1 = m ∧ x.2 = p))

/-- Fence a peer module (R421): entered in PT_PEERn of every partition that runs a book with it, which aborts and is fenced
(R100, Table 15.2), and of every partition with an exchange with it. -/
def State.fencePeer (s : State) (m : BitVec 13) : State :=
  let s := { s with fencedModules := if m ∈ s.fencedModules then s.fencedModules else s.fencedModules ++ [m] }
  s.formedParts.foldl (fun s p =>
    if s.runsWith p m then ((s.enterPeer p m).abortTurn p abortFence).fencePartition p causePeer
    else if s.exchangesWith p m then s.enterPeer p m
    else s) s

/-- The compute sites of a supply region. -/
def regionSites (r : Nat) : List Nat := (List.range 104).filter (fun i => siteRegion i = r)

/-- The host dies of a supply region (R400). -/
def regionHosts (r : Nat) : List Nat := (List.range 8).filter (fun h => hostRegion h = r)

/-- PW_OC_LIMIT of every region: 115 A for each powered compute site, and 40 A (Table 17.1, R454). -/
def State.writeOcLimits (s : State) : State :=
  (List.range 16).foldl (fun s r =>
    s.setReg .pwOcLimit r 0 (BitVec.ofNat 64 (115 * ((regionSites r).filter (fun i => (s.die i).powered)).length + 40))) s

/-- The clamps toward the other regions close (R407): the region's signals stand at their idle level there. -/
def Power.close (w : Power) (r : Nat) : Power := { w with clampsOpen := w.clampsOpen.filter (fun x => decide (x ≠ r)) }

/-- VC of a region, and with it the VH rail of its host die (R515), comes into its window at a tick, or leaves it. -/
def Power.railC (w : Power) (r : Nat) (present : Option Word) : Power :=
  match present with
  | some t => { w with
      railsCIn := Sparse.insertNat w.railsCIn r
      vhSince := if r ∈ w.railsCIn then w.vhSince else (regionHosts r).foldl (fun l h => Sparse.nput l h t) w.vhSince }
  | none => { w with
      railsCIn := w.railsCIn.filter (fun x => decide (x ≠ r))
      vhSince := (regionHosts r).foldl (fun l h => Sparse.ndrop l h) w.vhSince }

/-- PCIE_PERST_Nh is asserted while the host die is in reset, and for 100 ms after its supply comes into window (R509). -/
def State.perst (s : State) (h : Nat) : Bool :=
  decide (s.field .hdStatus h 0 1 2 = 0) || match Sparse.nfind s.power.vhSince h with
    | some t => decide ((s.now - t).toNat < 10000000)
    | none => true

/-- A region is powered down (R516): EN_Cr and EN_Ar fall, its rails with them, and its clamps hold its signals. -/
def State.dropRegion (s : State) (r : Nat) : State :=
  let others (l : List Nat) : List Nat := l.filter (fun x => decide (x ≠ r))
  { s with
    pins := { s.pins with enA := others s.pins.enA, enC := others s.pins.enC }
    power := { (s.power.close r).railC r none with railsIn := others s.power.railsIn } }

/-- A region is powered up again (R437, R515): its enables are high, its rails in their windows, and its clamps open. -/
def State.liftRegion (s : State) (r : Nat) : State :=
  { s with
    pins := { s.pins with enA := Sparse.insertNat s.pins.enA r, enC := Sparse.insertNat s.pins.enC r }
    power := { s.power.railC r (some s.now) with
      railsIn := Sparse.insertNat s.power.railsIn r
      clampsOpen := Sparse.insertNat s.power.clampsOpen r, held := s.power.held.filter (fun x => decide (x ≠ r)) } }

/-- The supply or overcurrent reaction in a region (Table 15.2, R413): its header switches open and stay open, its dies count
as fenced, the partition's turn aborts and the partition is fenced. The region is powered down (R516). -/
def State.holdRegion (s : State) (r cause : Nat) : State :=
  let s := { s.dropRegion r with power := { (s.dropRegion r).power with held := Sparse.insertNat s.power.held r } }
  let s := s.setFlag .pwStatus 0 0 1 true
  let s := (regionSites r).foldl (fun s i => s.modDie i (fun d =>
    { d with powered := false, fenced := true, inReset := true, playing := false, flights := [], check := none })) s
  let s := ((regionHosts r).foldl (fun s h => s.fenceHost h) s).writeOcLimits
  match s.regionOwner r with
  | some p => (s.abortTurn p abortFence).fencePartition p cause
  | none => s

/-- A partition's SQ_PREEMPT is set, so its dies stop at their next YIELD (R195), and PREEMPT goes down the tree (R234). -/
def State.preemptTurn (s : State) (p : Nat) : State :=
  if (s.part p).stage = .play then (s.setReg .sqPreempt p 0 1).rootSends p (snMessage snPreempt 0) else s

end Sys2Proof.Machine
end

