-- ==== Sys2Proof/Machine/StatePath.lean ====
section
/-! DEFINITION. State translation (chapter 11): the walk, the leaf and walk caches of a square, the faults of Table 11.3, and the rows
that a state-path DMA or a STATE stream moves. -/

namespace Sys2Proof.Machine

/-! Fault codes (Table 11.3) -/

def faultNotPresent : Nat := 1
def faultFar : Nat := 2
def faultMoving : Nat := 3
def faultCow : Nat := 4
def faultRange : Nat := 5
def faultHeader : Nat := 6
def faultStream : Nat := 7

/-- Why a translation ends without a leaf: a fault of Table 11.3, or the bus error of an uncorrectable node (R325). -/
inductive WalkFail where
  | fault (code : Nat)
  | bus (st : Status)
  deriving DecidableEq, Repr

/-! The checks of a walk (R302) -/

/-- A reserved bit of an entry is set. -/
def entryReserved (e : Word) : Bool := decide (bitsAt e 48 10 ≠ 0 ∨ bitsAt e 0 10 ≠ 0)

/-- An upper-level entry that a walk may follow, or the fault it meets. -/
def State.upperFault (s : State) (p : Nat) (e : Word) : Option Nat :=
  if !entryValid e then some faultNotPresent
  else if entryReserved e || decide (bitsAt e 58 5 ≠ 0) || !s.inPartDram p (entryAddr e) 1024 then some faultRange
  else none

/-- A pinned address lies in a unit lent to state of a square of the partition. -/
def State.pinnedLent (s : State) (p a : Nat) : Bool :=
  if 0x080000000000 ≤ a ∧ a < 0x080400000000 then
    let o := a - 0x080000000000
    let q := o / 0x04000000
    decide (s.owner q = some p) && s.lentUnit p q (o % 0x04000000 / 0x40000)
  else false

/-- A leaf that a walk may use, or the fault it meets. -/
def State.leafFault (s : State) (p : Nat) (e : Word) : Option Nat :=
  let a := entryAddr e
  if !entryValid e then some faultNotPresent
  else if entryReserved e || decide (a % 65536 ≠ 0) then some faultRange
  else match leafTier e with
    | 0 => if s.inPartDram p a 65536 then none else some faultRange
    | 1 => if s.pinnedLent p a then none else some faultRange
    | 2 => if 0x800000000000 ≤ a ∧ a < 0xC00000000000 then none else some faultRange
    | _ => some faultRange

/-- What an access does at a leaf (R305, R308, R316): a FAR page faults, and a write faults at MOVING or COW. -/
def accessFault (e : Word) (write : Bool) : Option Nat :=
  if leafTier e = 2 then some faultFar
  else if write && leafMoving e then some faultMoving
  else if write && leafCow e then some faultCow
  else none

/-! The caches of a square (R309) -/

/-- Set of a page in the leaf cache. -/
def leafSet (h : Handle) (page : Nat) : Nat := (page % 512) ^^^ (slotOf h % 512)

/-- Enter a leaf, most recent first: eight ways in a set, least recently used replaced. -/
def enterLeaf (l : List Translation) (t : Translation) : List Translation :=
  let same (x : Translation) : Bool := decide (x.handle = t.handle ∧ x.index = t.index)
  let rest := l.filter (fun x => !same x)
  let way := (rest.filter (fun x => decide (leafSet x.handle x.index = leafSet t.handle t.index))).take 7
  t :: rest.filter (fun x => decide (leafSet x.handle x.index ≠ leafSet t.handle t.index) || decide (x ∈ way))

/-- Enter an upper-level entry: 64 entries, oldest replaced. R309 states no replacement for the walk cache. -/
def enterWalk (l : List Translation) (t : Translation) : List Translation :=
  (t :: l.filter (fun x => decide (¬(x.handle = t.handle ∧ x.level = t.level ∧ x.index = t.index)))).take 64

/-- Read one entry of a table node as the walker does, as a coherent host-side requester (R304); counted in ST_TC_WALK_READS. -/
def State.walkRead (s : State) (q node i : Nat) : State × Except Status Word :=
  let s := s.bump .stTcWalkReads q
  match s.hostReadBlock ((node + 8 * i) / 64) q with
  | (s, .ok b) => (s, .ok (BitVec.ofNat 64 (bytesAt b ((node + 8 * i) % 64) 8)))
  | (s, .error e) => (s, .error e)

/-- An upper-level entry, from the walk cache or from its node. -/
def State.upperEntry (s : State) (p q : Nat) (h : Handle) (epoch : BitVec 16) (level node page : Nat) : State × Except WalkFail Word :=
  let index := page / 2 ^ (if level = 1 then 14 else 7)
  match (s.square q).walks.find? (fun t => decide (t.handle = h ∧ t.level = level ∧ t.index = index ∧ t.epoch = epoch)) with
  | some t => (s, .ok t.entry)
  | none =>
    match s.walkRead q node (levelIndex (64 * page) level) with
    | (s, .error e) => (s, .error (.bus e))
    | (s, .ok e) =>
      match s.upperFault p e with
      | some c => (s, .error (.fault c))
      | none =>
        (s.modSquare q (fun v =>
          { v with walks := enterWalk v.walks { handle := h, level := level, index := index, entry := e, epoch := epoch } }), .ok e)

/-- A walk from the root (R301, R302). A walk-cache entry of level 2 leaves one node read (Table 11.2). -/
def State.walk (s : State) (p q : Nat) (h : Handle) (epoch : BitVec 16) (root page : Nat) : State × Except WalkFail Word :=
  let known := (s.square q).walks.find? (fun t => decide (t.handle = h ∧ t.level = 2 ∧ t.index = page / 128 ∧ t.epoch = epoch))
  let low : State × Except WalkFail Word :=
    match known with
    | some t => (s, .ok t.entry)
    | none =>
      if root = 0 ∨ ¬ s.inPartDram p root 1024 then (s, .error (.fault (if root = 0 then faultNotPresent else faultRange)))
      else match s.upperEntry p q h epoch 1 root page with
        | (s, .error e) => (s, .error e)
        | (s, .ok e1) => s.upperEntry p q h epoch 2 (entryAddr e1) page
  match low with
  | (s, .error e) => (s, .error e)
  | (s, .ok e2) =>
    match s.walkRead q (entryAddr e2) (levelIndex (64 * page) 3) with
    | (s, .error e) => (s, .error (.bus e))
    | (s, .ok e) =>
      match s.leafFault p e with
      | some c => (s, .error (.fault c))
      | none => (s, .ok e)

/-- The leaf of a page of a resident stream, by the square's leaf cache or a walk (R309, R310). Where the tables have changed since
the entry was cached, the operation may use either (R313). -/
def State.translate (s : State) (p q slot page : Nat) : State × Except WalkFail Word :=
  let e := s.row slot
  let h := e.handle
  let hit := (s.square q).leaves.find? (fun t => decide (t.handle = h ∧ t.level = 3 ∧ t.index = page ∧ t.epoch = e.epoch))
  let fresh := (s.leafOf e.root.toNat page).map (fun x => x.2.2)
  let (old, s) := match hit with
    | some t => if fresh = some t.entry then (true, s) else s.drawBool
    | none => (false, s)
  match hit, old with
  | some t, true => ((s.bump .stTcHits q).modSquare q (fun v => { v with leaves := enterLeaf v.leaves t }), .ok t.entry)
  | _, _ =>
    match (s.bump .stTcMisses q).walk p q h e.epoch e.root.toNat page with
    | (s, .error x) => (s, .error x)
    | (s, .ok l) =>
      (s.modSquare q (fun v =>
        { v with leaves := enterLeaf v.leaves { handle := h, level := 3, index := page, entry := l, epoch := e.epoch } }), .ok l)

/-! Rows of a state-path operation (R310, R315) -/

/-- One row of an operation: its number, its handle, its table row, and its record. -/
structure StateRow where
  row : Nat
  handle : Handle
  slot : Nat
  line : Nat
  layer : Nat
  head : Nat
  kind : Bool
  raw : Bool
  reserved : Bool
  deriving DecidableEq, Repr

/-- The batch row that row r names: its handle, and the table row that its tail-map entry gives (R286, R310). -/
def State.rowStream (s : State) (i base r : Nat) : Handle × Nat :=
  match (s.die i).batchCopy[base + r]? with
  | some b => (b.handle, b.slot.toNat)
  | none => (0, 0)

/-- The row that a state-path DMA row names, with its record (R182, R315). -/
def State.dmaStateRow (s : State) (p i mode : Nat) (d : DmaDesc) (r : Nat) : Except Status StateRow :=
  let (h, slot) := s.rowStream i d.sel r
  match s.vectorDesc p i d.aux with
  | none => .error .badArgument
  | some v =>
    match s.streamRow p i mode { desc := v } [] 4 r r with
    | .error e => .error e
    | .ok (l, _) =>
      let w (k : Nat) : Nat := ((BitVec.ofInt 32 (match l.getD k (.fin false 0 0) with
        | .fin neg m _ => if neg then -m else m
        | _ => 0)).toNat)
      .ok { row := r, handle := h, slot := slot, line := w 0, layer := w 1, head := w 2, kind := w 3 % 2 = 1, raw := w 3 / 2 % 2 = 1,
            reserved := decide (w 3 / 4 ≠ 0) }

/-- A resident stream that an operation may name (R310): its row holds the handle and is ACTIVE. -/
def State.streamGood (s : State) (p : Nat) (x : StateRow) : Bool :=
  s.ownsSlot p x.slot && decide ((s.row x.slot).handle = x.handle ∧ (s.row x.slot).state = stActive)

/-- The translations an operation holds: handle, page, and the leaf or what stopped it. -/
abbrev Held := List (Handle × Nat × Except WalkFail Word)

def heldAt (l : Held) (h : Handle) (page : Nat) : Option (Except WalkFail Word) :=
  (l.find? (fun x => decide (x.1 = h ∧ x.2.1 = page))).map (fun x => x.2.2)

/-- The translations of an operation: each distinct page of its rows once, in row order, beside those it has kept (R310, R318). -/
def State.translateRows (s : State) (p q : Nat) (rows : List StateRow) (kept : Held) : State × Held :=
  rows.foldl (fun (s, l) x =>
    if !s.streamGood p x || x.reserved || decide (0x06FFFFFF < x.line) then (s, l)
    else match heldAt l x.handle (x.line / 64) with
      | some _ => (s, l)
      | none =>
        let (s, e) := s.translate p q x.slot (x.line / 64)
        (s, l ++ [(x.handle, x.line / 64, e)])) (s, kept)

/-- What stops a row before it moves, or its leaf. -/
def State.rowLeaf (s : State) (p : Nat) (held : Held) (write : Bool) (x : StateRow) : Except WalkFail Word :=
  if !s.streamGood p x then .error (.fault faultStream)
  else if x.reserved || decide (0x06FFFFFF < x.line) then .error (.fault faultRange)
  else match heldAt held x.handle (x.line / 64) with
    | none => .error (.fault faultNotPresent)
    | some (.error e) => .error e
    | some (.ok l) =>
      match accessFault l write with
      | some c => .error (.fault c)
      | none => .ok l

/-- The address of a line of a page. -/
def lineAddr (leaf : Word) (line : Nat) : Nat := entryAddr leaf + 1024 * (line % 64)

/-- Read a state line (R305): DRAM as a compute-side requester, or a pinned unit. -/
def State.readStateLine (s : State) (q a : Nat) : State × Except Status (List Byte) :=
  if inDram a then s.computeRead a 1024 q
  else if (blocksOf a 1024).any s.poisoned then (s.sliceUe ((a - 0x080000000000) / 0x04000000) a q, .error .uncorrectable)
  else (s, .ok (s.bytes a 1024))

/-- A line agrees with the record it was read for (R315). -/
def headerGood (leaf : Word) (x : StateRow) (d : List Byte) : Bool :=
  x.raw ||
  ((leafLin leaf || decide (bytesAt d 0 4 = x.handle.toNat)) &&
   decide (bytesAt d 8 2 = x.layer ∧ bytesAt d 10 2 = x.head ∧ (bytesAt d 12 2 / 4096 % 2 = 1) = (x.kind = true)))

/-! Stopping (R317) -/

/-- The FAULT message of a rook (R317): the site, the DMA channel or vector unit, and the two fault registers. Table 8.7 fixes no
layout of its payload. -/
def State.reportFault (s : State) (p i chan : Nat) (prog flt : Word) : State :=
  let q := siteSquare i
  let m : CnetPacket :=
    { dest := 0, src := BitVec.ofNat 8 q, type := .fault, part := BitVec.ofNat 3 p, tag := 0, status := 0, size := 24, addr := 0,
      payload := leBytes 8 (i + 256 * chan) ++ leBytes 8 prog.toNat ++ leBytes 8 flt.toNat }
  (s.injectCnet q m).bump .stFaults p

/-- SQ_DMA_PROGn and SQ_DMA_FLTn of an operation that stops or resumes (Table 11.5). -/
def progWord (state code : Nat) (index : BitVec 18) (rows : Nat) : Word :=
  BitVec.ofNat 64 (state * 2 ^ 62 + code % 16 * 2 ^ 58 + index.toNat * 2 ^ 40 + rows % 2 ^ 17)

def fltWord (h : Handle) (skips line : Nat) : Word := BitVec.ofNat 64 (h.toNat * 2 ^ 32 + skips % 32 * 2 ^ 27 + line % 2 ^ 27)

/-- An operation stops at a row (R317, R171): its progress and fault are recorded, the rook reports it, and ST_TC_FAULTS counts it. -/
def State.stopOperation (s : State) (p i chan : Nat) (index : BitVec 18) (done : Nat) (st : Stopped) : State :=
  let prog := progWord 1 st.code.toNat index done
  let flt := fltWord st.handle st.skips.length st.line.toNat
  let s :=
    if chan < 8 then (s.setReg .sqDmaProg i chan prog).setReg .sqDmaFlt i chan flt
    else (s.setReg .vxProgress i 0 (BitVec.ofNat 64 (index.toNat * 2 ^ 32 + done % 2 ^ 32))).setFlag .vxStatus i 0 16 true
  let s := s.modDie i (fun d =>
    { d with
      stopped := Sparse.nput d.stopped chan st
      flights := d.flights.map (fun f => if f.index = index then { f with stopped := true } else f) })
  (s.bump .stTcFaults (siteSquare i)).reportFault p i chan prog flt

/-- The leaves that an operation keeps where it stops: all it has taken but those that faulted (R318). -/
def keptOf (l : Held) (write : Bool) : List (Handle × Nat × Word) :=
  l.filterMap (fun (h, p, e) => match e with
    | .ok w => if accessFault w write = none then some (h, p, w) else none
    | .error _ => none)

def heldOf (l : List (Handle × Nat × Word)) : Held := l.map (fun (h, p, w) => (h, p, .ok w))

end Sys2Proof.Machine
end

