-- ==== Sys2Proof/Machine/Snet.lean ====
section
/-! DEFINITION. The S-net tree: what a router holds of DONE, READY and YIELDED, and what it has passed on (R234, R235). -/

namespace Sys2Proof.Machine

/-- The combined messages of the tree (Table 8.9). -/
inductive TreeMsg where
  | done | ready | yielded
  deriving DecidableEq, Repr

/-- What a router holds of a message: directions 0 N, 1 E, 2 S, 3 W of children that sent it, 4 for its own die, 5 once it has
passed it on. -/
def State.held (s : State) (k : TreeMsg) (q : Nat) : List Nat :=
  let v := s.square q
  match k with
  | .done => v.snDone
  | .ready => v.snReady
  | .yielded => v.snYielded

def State.hold (s : State) (k : TreeMsg) (q : Nat) (l : List Nat) : State :=
  s.modSquare q (fun v => match k with
    | .done => { v with snDone := l }
    | .ready => { v with snReady := l }
    | .yielded => { v with snYielded := l })

/-- The router has a die of its own that takes part. -/
def State.ownDie (s : State) (q : Nat) : Bool := match squareSite q with
  | some i => s.siteEnabled i
  | none => false

/-- Type of a combined message (Table 8.9). -/
def TreeMsg.type : TreeMsg → Nat
  | .done => snDoneType
  | .ready => snReadyType
  | .yielded => snYieldedType

/-- A router that holds a message from every child, and from its own die if it has one, sends it to its parent, once (R235). -/
def State.passUp (s : State) (k : TreeMsg) (q : Nat) : State :=
  let l := s.held k q
  let whole := (s.treeChildren q).all (fun c => decide (c ∈ l)) && (!s.ownDie q || decide (4 ∈ l))
  if whole ∧ 5 ∉ l then (s.hold k q (Sparse.insertNat l 5)).snUp q (snMessage k.type 0) else s

/-- Put a message at a router (R235). -/
def State.gatherTree (s : State) (k : TreeMsg) (q dir : Nat) : State := (s.hold k q (Sparse.insertNat (s.held k q) dir)).passUp k q

/-- The routers of a partition with neither children nor a die of their own send a message at once (R235): they await none. -/
def State.passLeaves (s : State) (k : TreeMsg) (p : Nat) : State := (s.partSquares p).foldl (fun s q => s.passUp k q) s

/-- The link of a direction stands at its idle level at a square (R407). -/
def State.linkIdle (s : State) (q dir : Nat) : Bool :=
  match neighbour q dir with
  | some n => s.clamped n q
  | none => true

/-- A combined message that arrives at a square from a child: counted in SN_MSGS; one from any other link is not of the tree. -/
def State.treeReceipt (s : State) (k : TreeMsg) (q dir : Nat) : State :=
  if s.linkIdle q dir then s else
  let s := s.bump .snMsgs q
  if dir ∈ s.treeChildren q then s.gatherTree k q dir else s

end Sys2Proof.Machine
end

