-- ==== Sys2Proof/Machine/Turns.lean ====
section
/-! DEFINITION. The turn machinery: latching of T fields, the compute step, the counter snapshot, map switches and the
installation of books at a changeover, and the start of play (chapters 3, 7, 16, 17 and 19). -/

namespace Sys2Proof.Machine

/-! The step -/

/-- Every supply region of the partition reports margin for a step (R459). -/
def State.margin (s : State) (p step : Nat) : Bool :=
  (s.partRegions p).all (fun r => s.flag .pwRgnStatus r 0 (40 + step))

/-- Every region of the partition reports margin for a step, and every other member of its spanning book does (R99). The spec gives no message
that tells a member of another's margin: the answer of the others is a free value. -/
def State.allMargin (s : State) (p step : Nat) : Bool × State :=
  if s.isMember p then let (b, s) := s.drawBool; (s.margin p step && b, s) else (s.margin p step, s)

/-- Settle the step to apply (R90). A request faster than the fused step is carried out at the fused step and recorded (R2). -/
def State.settleStep (s : State) (p : Nat) : State :=
  let fused := Config.variant.fusedStep
  let s := if bitsAt (s.latchedReg .tnStep p) 0 3 < fused then s.event7F .notice (some p) 0 .tnStep p else s
  let asked := max (bitsAt (s.latchedReg .tnStep p) 0 3) fused
  let now := s.stepNow p
  let (margin, s) := s.allMargin p asked
  if s.slowest p < asked then
    (s.event7F .notice (some p) 0 .tnStep p).modPart p (fun v => { v with stepPending := none })
  else if asked < now then
    if margin then
      (s.setFlag .tnStatus p 0 3 false).modPart p (fun v => { v with stepPending := some (BitVec.ofNat 3 asked) })
    else (s.setFlag .tnStatus p 0 3 true).modPart p (fun v => { v with stepPending := none })
  else
    let s := s.setFlag .tnStatus p 0 3 false
    s.modPart p (fun v => { v with stepPending := if asked = now then none else some (BitVec.ofNat 3 asked) })

/-! The counter page (R496) -/

def State.sumOver (s : State) (l : List Nat) (n : RegName) : Nat := l.foldl (fun t i => t + (s.reg n i).toNat) 0

/-- The slots of a list of registers of a partition, from an offset. -/
def slotsFrom (o : Nat) (l : List Nat) : List (Nat × Word) := l.mapIdx (fun k v => (o + 8 * k, BitVec.ofNat 64 v))

/-- OUTCOME (Table 19.1) with a cause. -/
def State.outcome (s : State) (p cause : Nat) : Nat :=
  let v := s.part p
  let bit (b : Bool) (n : Nat) : Nat := if b then 2 ^ n else 0
  bit v.maintTurn 26 + bit v.holdTurn 25 + bit v.reshardTurn 24 + s.stepNow p * 2 ^ 16 + (if v.aborted then cause * 256 + 1 else 0)

/-- One site record (Table 19.2). -/
def State.siteRecord (s : State) (p i : Nat) : List (Nat × Word) :=
  let q := siteSquare i
  let o := 0x800 + 0x100 * i
  let regs : List RegName :=
    [.mxMacFp4, .mxMacFp6, .mxMacFp8, .mxMacInt4, .mxMacInt8, .mxMacHalf, .mxMacFp32, .mxMacSb3, .mxPasses, .mxGranules,
     .mxStall, .mxBankStall, .mxQueueStall, .mxHeldStall, .vxOpsEw, .vxOpsTr, .vxOpsCvt, .vxOpsRed, .vxOpsFused, .vxOpsSel,
     .vxGranules, .vxElements, .vxQueueWait, .vxBankWait, .vxSliceWait, .vxTilesDropped, .sqMoves, .sqCheckWait, .sqAbandoned]
  let last :=
    (if s.siteEnabled i then 2 ^ 63 else 0) + (if s.siteOut i then 2 ^ 62 else 0) + s.field .vxFlags i 0 0 6 * 2 ^ 48 +
    s.field .mxFlags i 0 0 7 * 2 ^ 40 + s.field .sqSlack i 0 0 32
  if s.siteOwner i = some p then
    slotsFrom o (regs.map (fun n => (s.reg n i).toNat) ++ [(s.reg .bnTxBytes q).toNat, (s.reg .bnRxBytes q).toNat, last])
  else []

/-- The counter page of a partition (Table 19.1), as slots that are not zero. -/
def State.pageSlots (s : State) (p cause : Nat) : List (Nat × Word) :=
  let v := s.part p
  let qs := s.partSquares p
  let sites := s.partSites p
  let own (l : List RegName) : List Nat := l.map (fun n => (s.reg n p).toNat)
  let sum (is : List Nat) (l : List RegName) : List Nat := l.map (fun n => s.sumOver is n)
  let slots :=
    slotsFrom 0x08
      [(s.turn p).toNat, v.chgStart.toNat, s.outcome p cause, v.p, s.minSlack p,
       s.sumOver qs .bnStaleArrivals + s.sumOver qs .ccSealDrop, v.liveRows, v.notAdvanced,
       sites.foldl (fun t i => t + (s.die i).traceLost.toNat) 0] ++
    slotsFrom 0x100 (own [.tnOverruns, .tnAborts, .tnStretches, .tnLastSlip, .tnMaint, .sqYields, .sqEpoch]) ++
    slotsFrom 0x140 (own [.stRows, .stLive, .stActive, .stParked, .stDirCap, .stTailsFree, .stOpens, .stParks, .stUnparks,
      .stFullRefused, .stNotAdv, .stGivenUp, .stTailSaves, .stMigrations]) ++
    slotsFrom 0x1C0 (own [.stFaults, .stResolved, .stSkipped, .stRecalls, .stCowCopies, .stTierMoves]) ++
    slotsFrom 0x200 (sum qs [.bnTxBytes, .bnRxBytes, .bnDups, .bnStaleArrivals, .bnReplays, .bnFenceDrop, .bnCircWait,
      .bnPortFull, .bnResetErr, .cnInjWait, .cnTxPkts, .cnRxPkts, .cnFenceDrop, .snMsgs]) ++
    slotsFrom 0x280 (sum qs [.ccUnmapped, .ccSealDrop, .ccEccCe, .ccEccUe, .stTcHits, .stTcMisses, .stTcWalkReads, .stTcFaults,
      .stTcInvals, .gcFix, .xlMargin]) ++
    slotsFrom 0x300 (sum sites [.dmEccCe, .dmEccUe, .rkEccCe, .rkEccUe, .sfTwinMiss, .sfPipFails, .sfSeqFail]) ++
    slotsFrom 0x340 (sum (s.partStacks p) [.mcCeLines, .mcUeLines, .mcPoisonWr, .mcRetrains]) ++
    slotsFrom 0x380 (sum (s.partQuads p) [.olTxFlits, .olRxFlits, .olCrcErr, .olReplays, .olFecCorr, .olFecUncorr,
      .olKnockMiss, .olAttempts, .olRetrains]) ++
    slotsFrom 0x3D0 (sum (s.partHosts p) [.hdResets, .hdLostDirty, .hdPrivFaults, .hdMsiDrop, .hdIntxDrop, .hdEccCe, .hdEccUe]) ++
    slotsFrom 0x408
      [(s.reg .pwPartPower p).toNat, (s.reg .pwPartBudget p).toNat, (s.reg .pwDutyTurns p).toNat, (s.reg .pwCapEvents).toNat,
       (s.reg .thThrottles).toNat, (s.reg .thWarnings).toNat] ++
    sites.flatMap (fun i => s.siteRecord p i)
  slots.filter (fun x => decide (x.2 ≠ 0))

/-- The snapshot (R496): GEN increments before and after. An abort that Table 19.1 has no code for leaves a free value in the
cause of OUTCOME. -/
def State.snapshot (s : State) (p : Nat) : State :=
  let (w, s) := if (s.part p).abortCause = abortFence then s.draw else (BitVec.ofNat 64 (s.part p).abortCause, s)
  let slots := s.pageSlots p (w.toNat % 256)
  s.modPart p (fun v =>
    let g := v.snapshotGen + 2
    { v with snapshotGen := g, counterPage := if g = 0 then slots else (0, g) :: slots })

/-- Flush the translation caches of a partition (R309). -/
def State.flushTranslations (s : State) (p : Nat) : State :=
  (s.partSquares p).foldl (fun s q => s.modSquare q (fun v => { v with leaves := [], walks := [] })) s

/-! The engines at the end of play -/

/-- Clear a register family of a site. -/
def State.zeroCounters (s : State) (i : Nat) : State :=
  let keep (k : RegKey) : Bool := !(decide (k.name = .sqCtr) && decide (k.i = i))
  { s with regs := s.regs.filter (fun (k, _) => keep k) }

/-- End of play at a die: tiles left are discarded and counted (R169), flags stay for the snapshot, the counters are zeroed and
the arrival turn and epoch recorded (R191, R218), stopped operations discarded (R324). The epoch is the one in force for the
next play. -/
def State.endDie (s : State) (p i : Nat) (epoch : BitVec 16) : State :=
  let s := s.zeroCounters i
  let s := (s.setFlag .mxStatus i 0 1 false).setField .vxStatus i 0 0 17 0
  let s := (s.setFlag .sqStatus i 0 17 false).setFlag .sqStatus i 0 18 false
  (s.modSquare (siteSquare i) (fun v => { v with seen := [] })).modDie i (fun d =>
    { d with
      tiles := [], flights := [], check := none, stopped := [], inbound := [], playing := false, rookReady := false
      yielding := false, holdTime := 0, holdSince := none, arrivalTurn := (s.turn p + 1).setWidth 16, arrivalEpoch := epoch })

/-- Tiles still in a site's tile queues when play ends are counted in VX_TILES_DROPPED (R169): at most 64 a column, since those beyond wait
outside the queue (R117). -/
def State.dropTiles (s : State) (i : Nat) : State :=
  let n := (s.die i).tiles.foldl (fun t x => t + min x.2.length 64) 0
  if n = 0 then s else s.bump .vxTilesDropped i 0 n

/-- MX_FLAGS and VX_FLAGS are cleared after the snapshot (R127, R174). -/
def State.clearFlags (s : State) (i : Nat) : State := (s.setReg .mxFlags i 0 0).setReg .vxFlags i 0 0

/-! Maps (R202, R203) -/

/-- The site entry of a map. -/
def Book.entry? (b : Book) (m i : Nat) : Option MapEntry := b.entries.find? (fun e => decide (e.map = m ∧ e.site = i))

/-- The table of a map and site, or of a reshard plan. -/
def Book.table? (b : Book) (reshard : Bool) (m i : Nat) : Option MoveTable :=
  b.tables.find? (fun t => decide (t.map = m ∧ t.site = i ∧ t.reshard = reshard))

/-- The reshard plan from one map to another has moves. -/
def Book.hasPlan (b : Book) (source target : Nat) : Bool :=
  b.tables.any (fun t => decide (t.map = 16 * source + target ∧ t.reshard = true ∧ 0 < t.moves.length))

/-- Write MX_MODE_INIT, MX_QUEUE and DM_RGN0 to DM_RGN31 of a site from a map's site entry (R203). -/
def State.writeSiteEntry (s : State) (i : Nat) (e : MapEntry) : State :=
  let s := (s.setReg .mxModeInit i 0 (e.mode.setWidth 64)).setReg .mxQueue i 0 (if e.qdis then 1 else 0)
  (List.range 32).foldl (fun s n => s.setReg .dmRgn i n (e.regions.getD n 0)) s

/-- The moves of a table as they lie in a table region (R184): 16 bytes each. -/
def MoveTable.bytes (t : MoveTable) : List Byte := t.moves.flatMap (fun m => leBytes 16 m.toNat)

/-- The rook of a site copies a table into one of the site's table regions (R202, R206). -/
def State.copyTable (s : State) (b : Book) (reshard : Bool) (m i : Nat) (tableB : Bool) : State :=
  match s.region i (s.field .sqTables i 0 (if tableB then 8 else 0) 5), b.table? reshard m i with
  | some (base, size), some t => s.setDieBytes i base (t.bytes.take size)
  | _, _ => s

/-- The rook of a site copies a table into the region that is not in force (R202): TABLE_A while the book is being loaded (R206). -/
def State.copyStandby (s : State) (p : Nat) (b : Book) (reshard : Bool) (m i : Nat) : State :=
  s.copyTable b reshard m i (!s.flag .sqStatus i 0 21 && (s.part p).loading.isNone)

/-- Put a move table in force at a site (R191, R415): the other table region becomes the active one. -/
def State.putTable (s : State) (b : Book) (reshard : Bool) (m i : Nat) : State :=
  let t := b.table? reshard m i
  let active := s.flag .sqStatus i 0 21
  (s.setFlag .sqStatus i 0 21 (!active)).modDie i (fun d =>
    { d with tableLen := (t.map (fun t => t.moves.length)).getD 0, tableCrc := (t.map (fun t => t.crc)).getD 0, standbyReady := false })

/-- The links on the route of a circuit (R221, R223): the square and its output, 0 N, 1 E, 2 S, 3 W, 4 engine port; the last
square's output is its port or its local side. -/
def circuitRoute (c : Circuit) : List (Nat × Nat) :=
  let src := c.src.toNat
  let dst := c.dest.toNat
  let xs (y : Nat) : List (Nat × Nat) :=
    if sqX src ≤ sqX dst then (rangeFrom (sqX src) (sqX dst - sqX src)).map (fun x => (sqAt x y, 1))
    else ((rangeFrom (sqX dst + 1) (sqX src - sqX dst)).reverse).map (fun x => (sqAt x y, 3))
  let ys (x : Nat) : List (Nat × Nat) :=
    if sqY src ≤ sqY dst then (rangeFrom (sqY src) (sqY dst - sqY src)).map (fun y => (sqAt x y, 2))
    else ((rangeFrom (sqY dst + 1) (sqY src - sqY dst)).reverse).map (fun y => (sqAt x y, 0))
  let links := if c.yThenX then ys (sqX src) ++ xs (sqY dst) else xs (sqY src) ++ ys (sqX dst)
  match squareKind dst with
  | .optical _ => links ++ [(dst, 4)]
  | _ => links

/-- Output port codes of BN_CROUTEn (Table 8.10): from the output of a route. -/
def croutePort (o : Nat) : Nat := if o = 4 then 6 else o + 1

/-- Write the circuit plan of a map into the routers of the partition (R225). -/
def State.writePlan (s : State) (p : Nat) (b : Book) (m : Nat) : State :=
  let plan := (b.circuits.filter (fun c => decide (c.map = m))).mapIdx (fun k c => (k, c))
  (s.partSquares p).foldl (fun s q =>
    let route := plan.filterMap (fun (k, c) =>
      match (circuitRoute c).find? (fun x => decide (x.1 = q)) with
      | some (_, o) => some (k, croutePort o)
      | none => if c.dest.toNat = q then some (k, 5) else none)
    let s := (List.range 32).foldl (fun s n =>
      let v := (List.range 8).foldl (fun (w : Word) j =>
        match route.find? (fun x => decide (x.1 = 8 * n + j)) with
        | some (_, o) => putBits w (8 * j) 8 o
        | none => w) 0
      s.setBoth .bnCroute q n v) s
    (List.range 40).foldl (fun s n =>
      let d := n / 8
      let v := (List.range 8).foldl (fun (w : Word) j =>
        match plan.find? (fun (_, c) => bitAt c.slots (8 * (n % 8) + j) && (circuitRoute c).any (fun x => decide (x = (q, d)))) with
        | some (k, _) => putBits w (8 * j) 8 k
        | none => w) (BitVec.allOnes 64)
      s.setBoth .bnSlot q n v) s) s

/-- Increment SQ_EPOCH (R203). -/
def State.nextEpoch (s : State) (p : Nat) : State :=
  s.setReg .sqEpoch p 0 (BitVec.ofNat 64 ((s.field .sqEpoch p 0 0 16 + 1) % 2 ^ 16))

/-- The sites that a book's map covers in a partition. -/
def State.bookSites (s : State) (p : Nat) : List Nat := s.enabledSites p

/-- Put a map in force (R203, R225). -/
def State.enterMap (s : State) (p : Nat) (b : Book) (m : Nat) : State :=
  let s := (s.bookSites p).foldl (fun s i =>
    let s := match b.entry? m i with
      | some e => s.writeSiteEntry i e
      | none => s
    s.putTable b false m i) s
  let s := (s.writePlan p b m).nextEpoch p
  let s := s.setReg .sqMapNow p 0 (BitVec.ofNat 64 m)
  (s.modPart p (fun v => { v with switch := none, reshardAborts := 0 })).decision p .sqMapNow (s.turn p + 1)

/-- Put a reshard plan in force (R202, rule 2): the source map's circuit plan stays (R225). -/
def State.enterReshard (s : State) (p : Nat) (b : Book) (target : Nat) : State :=
  let source := s.field .sqMapNow p 0 0 3
  let s := (s.bookSites p).foldl (fun s i => (s.copyStandby p b true (16 * source + target) i).putTable b true (16 * source + target) i) s
  let s := ((s.nextEpoch p).setFlag .sqMapNow p 0 8 true).setFlag .sqMapNow p 0 16 false
  s.modPart p (fun v => { v with switch := some { target := target, reshardNext := true, played := false, copied := [] } })

/-- Every site has its copy of the table that a switch needs. -/
def State.copiesDone (s : State) (p : Nat) (copied : List Nat) : Bool :=
  (s.bookSites p).all (fun i => decide (i ∈ copied) || !s.inService i)

/-- A reshard turn aborted (R204): it runs again; after three in a row SQ_MAP_REQ is restored to the source map, which
returns under rule 3 of R202. The plan's table stays in force until then, so the turn in between is a reshard turn (DESIGN CHOICE, log 78). -/
def State.reshardAborted (s : State) (p : Nat) : State :=
  let n := (s.part p).reshardAborts + 1
  let s := s.modPart p (fun v => { v with reshardAborts := n })
  if n < 3 then s
  else
    let source := s.field .sqMapNow p 0 0 3
    let s := s.setBoth .sqMapReq p 0 (BitVec.ofNat 64 source)
    let s := s.event7F .error (some p) 0 .sqMapReq p
    s.modPart p (fun v => { v with
      reshardAborts := 0
      switch := some { target := source, reshardNext := false, played := false, copied := [] } })

/-- Compare the latched request with the map in force, with no reshard plan in force (R202 rules 1 to 3). A prefill map for which
PREFILL_SHARE has no room waits. -/
def State.startSwitch (s : State) (p : Nat) (b : Book) (want : Nat) : State :=
  let here := s.field .sqMapNow p 0 0 3
  if want = here ∨ (b.prefillMap want && !b.prefillMap here && !s.prefillRoom p) = true then
    (s.setFlag .sqMapNow p 0 16 false).modPart p (fun v => { v with switch := none })
  else if b.hasPlan here want then s.enterReshard p b want
  else (s.setFlag .sqMapNow p 0 16 false).modPart p (fun v =>
    { v with switch := some { target := want, reshardNext := false, played := false, copied := [] } })

/-- The target map goes into force if every site has its table, and otherwise waits a turn (R202). While a switch out of a reshard turn waits,
the plan's table stays in force and plays again, which only copies (R204; DESIGN CHOICE, log 78). -/
def State.trySwitch (s : State) (p : Nat) (b : Book) (w : Switch) : State :=
  if s.copiesDone p w.copied then s.enterMap p b w.target else s.setFlag .sqMapNow p 0 16 true

/-- The map switch of a changeover (R202, R204). A reshard turn that completes ends the row of aborted ones; a turn of another kind before
the reshard turn (a maintenance turn) changes nothing. -/
def State.switchMaps (s : State) (p : Nat) : State :=
  match s.book p with
  | none => s
  | some b =>
    let v := s.part p
    let want := bitsAt (s.latchedReg .sqMapReq p) 0 3
    match v.switch with
    | none => s.startSwitch p b want
    | some w =>
      if w.reshardNext then
        if v.reshardTurn ∧ v.aborted then s.reshardAborted p
        else if v.reshardTurn ∨ w.played then
          (s.modPart p (fun v => { v with reshardAborts := 0, switch := some { w with played := true } })).trySwitch p b w
        else s
      else if w.target = want ∨ s.flag .sqMapNow p 0 8 then s.trySwitch p b w
      else s.startSwitch p b want

/-! Books -/

/-- Some bank of a die of the partition is being zeroed (R53). -/
def State.zeroingIn (s : State) (p : Nat) : Bool := (s.partSites p).any (fun i => s.zeroing i)

/-- Complete a command with OK once no bank of the partition is being zeroed (R53). -/
def State.completeZeroed (s : State) (p : Nat) (c : Cmd) (opcode : BitVec 16) (turn : Word) : State :=
  if s.zeroingIn p then s.modPart p (fun v => { v with zeroWaits := v.zeroWaits ++ [(c, opcode, turn)] })
  else s.complete c opcode .ok (some turn)

/-- The commands that waited for the end of a zeroing complete (R53). -/
def State.zeroDone (s : State) (p : Nat) : State :=
  if s.zeroingIn p then s
  else
    let l := (s.part p).zeroWaits
    l.foldl (fun s (c, o, t) => if o = 0x0202 then s.completeReset p c .ok (some t) else s.complete c o .ok (some t)) (s.modPart p (fun v => { v with zeroWaits := [] }))

/-- Zero every bank of a die's memory (R53): the declared banks show busy until their zeroing ends. -/
def State.zeroDie (s : State) (i : Nat) : State :=
  let size := (s.reg .dmSize i).toNat
  let s := s.zeroRange (dieBase i) size
  s.setReg .dmZeroBusy i 0 (s.reg .dmBankEn i)

/-- The install of a verified book at a changeover (R206 step 4). -/
def State.installBook (s : State) (p : Nat) (l : Loading) : State :=
  let b := l.book
  let s := (s.bookSites p).foldl (fun s i =>
    let banks := ((b.sites.find? (fun d => decide (d.site = i))).map (fun d => d.banks)).getD 0
    let s := (s.setReg .dmBankEn i 0 (banks.setWidth 64)).zeroDie i
    let s := match b.sites.find? (fun d => decide (d.site = i)) with
      | some d => s.setReg .sqTables i 0 (BitVec.ofNat 64 (d.tableA.toNat + d.tableB.toNat * 256 + d.sheet.toNat * 65536))
      | none => s
    let s := match b.entry? 0 i with
      | some e => s.writeSiteEntry i e
      | none => s
    s.setBytes (padBase i) b.rook) s
  let s := s.setReg .tnMinStep p 0 (BitVec.ofNat 64 (8 + b.minStep.toNat))
  let s := if b.minStep.toNat < s.field .tnStep p 0 0 3 then s.askStep p b.minStep.toNat else s
  let s := s.setReg .tnSpan p 0 (BitVec.ofNat 64 (if b.span then 1 + 2 * (b.modules - 1) else 0))
  let t := (s.reg .tnTurnLen p).toNat
  let t' := min (max t b.turnMin) b.turnMax
  let s := if t' = t then s else (s.setReg .tnTurnLen p 0 (BitVec.ofNat 64 t')).decision p .tnTurnLen (s.turn p + 1)
  let need := b.chgMin + s.standingTicks p
  let s := if (s.reg .tnChgLen p).toNat < need then (s.setReg .tnChgLen p 0 (BitVec.ofNat 64 need)).decision p .tnChgLen (s.turn p + 1) else s
  let s := ((s.latch .tnTurnLen p 0).latch .tnChgLen p 0)
  s.modPart p (fun v => { v with
    loading := some { l with installed := true }
    switch := some { target := 0, reshardNext := false, played := false, copied := [] } })

/-- The step that the next turn runs at is within TN_MIN_STEP (R90, R177). -/
def State.stepAllowed (s : State) (p : Nat) : Bool :=
  decide ((((s.part p).stepPending.map (fun k => k.toNat)).getD (s.stepNow p)) ≤ s.slowest p)

/-- The book of a finished load plays from the next turn (R206 steps 5 and 6), map 0's table in TABLE_A: the completion of book.load, or of the
reset that reloads the book (R426), reports it. -/
def State.finishLoad (s : State) (p : Nat) (l : Loading) : State :=
  let s := s.modPart p (fun v => { v with book := some l.book, loading := none })
  let s := (s.setReg .sqBook p 0 l.book.crc).enterMap p l.book 0
  let s := (s.bookSites p).foldl (fun s i => s.setFlag .sqStatus i 0 21 false) s
  let s := if s.reg .sqMapReq p = 0 then s else (s.setBoth .sqMapReq p 0 0).decision p .sqMapReq (s.turn p + 1)
  if l.reload then s.completeReset p l.cmd .ok (some (s.turn p + 1)) else s.complete l.cmd 0x0300 .ok (some (s.turn p + 1))

/-- The step of a book load at a changeover: installation, then play once map 0's table is copied (R206) and the step is one that the book is
timed for (R177). A spanning book waits until every member has confirmed (R376). -/
def State.loadStep (s : State) (p : Nat) : State :=
  match (s.part p).loading with
  | none => s
  | some l =>
    if !l.installed then
      if l.book.span ∧ l.heard.length + 1 < l.book.modules then s else s.installBook p l
    else match (s.part p).switch with
      | some w => if s.copiesDone p w.copied && !s.zeroingIn p && s.stepAllowed p then s.finishLoad p l else s
      | none => s

/-- Release the lines of the book area for zero-fill (R396). -/
def State.releaseBookArea (s : State) (p : Nat) : State :=
  ((List.range (s.part p).bookLines).foldl (fun s k =>
    if s.inPartDram p (Config.bookArea p k) 1024 then s.queueFill (Config.bookArea p k / 1024) 1 else s) s).modPart p
      (fun v => { v with bookLines := 0 })

/-- End the loaded book (R205): die memory zeroed, TN_MIN_STEP and TN_SPAN cleared, the book area released. -/
def State.endBook (s : State) (p : Nat) : State :=
  let s := (s.bookSites p).foldl (fun s i => (s.zeroDie i).modDie i (fun d => { d with tableLen := 0, tableCrc := 0 })) s
  let s := (((s.setReg .tnMinStep p 0 0).setReg .tnSpan p 0 0).setReg .sqBook p 0 0).setField .sqMapNow p 0 8 9 0
  (s.releaseBookArea p).modPart p (fun v => { v with book := none, switch := none, unload := none, members := [], staged := none })

/-- A pending unload takes effect at the changeover (Table 7.9): the completion reports the last turn that ran the book, once die memory has
been zeroed (R53). -/
def State.unloadStep (s : State) (p : Nat) : State :=
  match (s.part p).unload with
  | none => s
  | some c => (s.endBook p).completeZeroed p c 0x0301 (s.turn p)

/-! Margins -/

/-- A region has margin for a step (R459). -/
def State.regionMargin (s : State) (r k : Nat) : Bool :=
  match s.regionOwner r with
  | none => true
  | some p =>
    let now := s.stepNow p
    if now ≤ k then true
    else match s.vstep r k with
      | none => false
      | some v =>
        let set := s.field .pwRgnStatus r 0 16 16
        let i := (Sparse.nget 0 s.power.current r).toNat
        decide (v ≤ set) && !s.flag .pwRgnStatus r 0 4 &&
        decide (i * cyclesPerTick k * v * 10 ≤ 9 * s.field .pwOcLimit r 0 0 16 * cyclesPerTick now * set)

/-- Bring MARGIN_OK of a region up to date (R459). -/
def State.setMargins (s : State) (r : Nat) : State :=
  (List.range 8).foldl (fun s k => s.setFlag .pwRgnStatus r 0 (40 + k) (s.regionMargin r k)) s

/-! The changeover -/

/-- TN_MAINT: the maintenance turns of the last 1,000 turns (Table 16.7). -/
def State.countMaint (s : State) (p : Nat) : State :=
  let m := (s.part p).maintTurn
  let h := (m :: (s.part p).maintHistory).take 1000
  let s := s.modPart p (fun v => { v with maintHistory := h })
  let s := if m then s.setField .tnMaint p 0 0 32 (s.field .tnMaint p 0 0 32 + 1) else s
  s.setField .tnMaint p 0 32 10 (h.filter id).length

/-- The commands that a pre-emption serves complete with the turn ended (Table 7.9). -/
def State.preemptDone (s : State) (p : Nat) : State :=
  let cs := (s.part p).preemptCmds
  let s := (s.setReg .sqPreempt p 0 0).modPart p (fun v => { v with preemptCmds := [] })
  cs.foldl (fun s c => s.complete c 0x0303 .ok (some (s.turn p))) s

/-- The work at offset 0 to 16 of a changeover (Table 3.3). chosenP is Tolerabor's P (R86), never earlier than R525 allows. -/
def State.beginChangeover (s : State) (p chosenP : Nat) : State :=
  let chg := (s.part p).chgNow
  let s := if (s.part p).opened then s else s.openChangeover p
  let s := s.modPart p (fun v => { v with p := max chosenP (16 + (chg - s.chgMin p)) })
  let s := s.settleStep p
  let s := (s.partSites p).foldl (fun s i => s.dropTiles i) s
  let s := ((s.partSquares p).foldl (fun s q => s.modSquare q (fun v => { v with snReady := [] })) s).passLeaves .ready p
  let s := s.countMaint p
  let s := (s.snapshot p).flushTranslations p
  let s := if s.up ∧ (s.part p).bookDue = true then (s.unloadStep p).loadStep p else s
  let s := if (s.part p).loading.isSome then s else s.switchMaps p
  let epoch := BitVec.ofNat 16 (s.field .sqEpoch p 0 0 16)
  let s := (s.partSites p).foldl (fun s i => (s.endDie p i epoch).clearFlags i) s
  (s.preemptDone p).modPart p (fun v => { v with stage := .started })

/-- The changeover of a partition begins at a tick (R84, R93, R196): PHASE becomes CHANGEOVER and the wheels stop (R220), and the boundary is
taken. -/
def State.enterChangeover (s : State) (p : Nat) (tick : Word) : State :=
  ((((s.runWheels p false).setPhase p 2).rootSends p (snMessage snBoundary ((s.turn p).setWidth 56))).modPart p (fun v =>
    { v with stage := .begun, chgStart := tick, chgBase := tick, chgNow := s.chgLen p })).openChangeover p

/-! Play -/

/-- The share of maintenance turns allows another (R450). -/
def State.maintRoom (s : State) (p : Nat) : Bool :=
  decide ((((s.part p).maintHistory.take 999).filter id).length < (s.policyValue p 0x0007 2).toNat)

/-- Every second turn is a hold turn for power or heat (R462, R464); every turn where a sensor reads 105.0 °C. -/
def State.dutyHold (s : State) (p : Nat) : Bool :=
  let atMin := decide (s.slowest p ≤ s.stepNow p)
  let capped := s.overBudget p && decide ((s.part p).liveRows ≤ 1)
  s.hotAbove p 1680 || (atMin && (s.hotAbove p 1520 || capped) && !(s.part p).dutyFlip)

/-- Begin the play of the next turn (R80, R82): the number increases by one unless turns are only now starting. The kind of the
turn is settled: a maintenance turn, a reshard turn, a hold turn (R245), or the empty turn after a stretch (R87). -/
def State.beginPlay (s : State) (p : Nat) (tick : Word) : State :=
  let v := s.part p
  let s := (((s.setFlag .tnStatus p 0 1 (v.overran && !v.startsFresh)).setFlag .tnStatus p 0 2 (v.aborted && !v.startsFresh)).setFlag
    .tnStatus p 0 4 (decide (s.phase p = 4)))
  let s := if v.startsFresh then s else s.setReg .tnTurn p 0 (s.turn p + 1)
  let s := (s.setReg .tnStart p 0 tick).setPhase p 1
  let maint := v.maintNext && !v.emptyNext
  let reshard := s.flag .sqMapNow p 0 8 && !maint
  let duty := s.dutyHold p
  let stamped := match v.staged with
    | some (t, _) => decide (t = s.turn p ∧ v.stagedMap = s.field .sqMapNow p 0 0 3)
    | none => false
  let hold := !maint && !reshard && (s.partFenced p || duty || (s.bookLoaded p && !stamped))
  let rows := match v.staged with
    | some (_, l) => if hold || maint || reshard then [] else l
    | none => []
  let s := if duty && !maint then s.bump .pwDutyTurns p else s
  let prefill := !reshard && (match s.book p with
    | some b => b.prefillMap (s.field .sqMapNow p 0 0 3)
    | none => false)
  let s := s.modPart p (fun v => { v with
    stage := .play
    boundary := tick + BitVec.ofNat 64 (s.turnLen p - s.chgLen p)
    nextPlay := none, opened := false, pastEnd := false, aborted := false, abortCause := 0, overran := false, hadHalt := s.anyHalted p
    holdTurn := hold, maintTurn := maint, reshardTurn := reshard, startsFresh := false, uncorrectable := false
    maintNext := false, emptyNext := false, emptyTurn := v.emptyNext
    dutyFlip := duty && !v.dutyFlip
    batch := rows, staged := none, doneStamps := [], pausePending := false
    prefillHistory := (prefill :: v.prefillHistory).take 99
    liveRows := (batchStreams rows).length })
  let s := s.setFlag .pwStatus 0 0 4 (s.formedParts.any (fun x => (s.part x).dutyFlip))
  let s := ((s.partSquares p).foldl (fun s q => s.modSquare q (fun v => { v with snDone := [], snYielded := [] })) s).passLeaves .done p
  let s := if rows = [] then (s.partSites p).foldl (fun s i => s.modDie i (fun d => { d with batchCopy := [], tailMap := [] })) s else s
  let s := (s.partSites p).foldl (fun s i => s.setField .sqStatus i 0 16 5 0) s
  ((s.restUnbatched p).runWheels p true).countStreams p

/-- Turns have stopped for good (R79): the Referee is lost, the device has tripped, or boundary scan takes the pins. Only RESET_N starts turns
again. -/
def State.turnsBarred (s : State) : Bool :=
  s.flag .refStatus 0 0 3 || s.flag .pwStatus 0 0 7 || s.flag .dbJtagStatus 0 0 1 || s.jtag.heldInstr.isSome

/-- The turn and epoch whose compiled packets a die takes are those of its next play (R218). -/
def State.setArrival (s : State) (p i : Nat) : State :=
  let v := s.part p
  let t := if v.stage = .stopped ∨ v.startsFresh then s.turn p else s.turn p + 1
  s.modDie i (fun d => { d with arrivalTurn := t.setWidth 16, arrivalEpoch := BitVec.ofNat 16 (s.field .sqEpoch p 0 0 16) })

/-- Start the turns of a partition from rest (R79, R402): the next play begins at a tick. -/
def State.startTurns (s : State) (p : Nat) (tick : Word) : State :=
  let s := (s.partSites p).foldl (fun s i => s.setArrival p i) s
  if s.turnsBarred then s else s.modPart p (fun v => { v with stage := .ready, nextPlay := some tick, startsFresh := true })

/-- A TAP instruction that drives pins takes effect once every partition has stopped (R502): every die is held in reset, ALERT_N asserted and
PINS_FREE set. -/
def State.freePins (s : State) : State :=
  match s.jtag.heldInstr with
  | none => s
  | some t =>
    if s.formedParts.any (fun p => decide ((s.part p).stage ≠ .stopped)) then s
    else
      let s := (List.range 104).foldl (fun s i => s.modDie i (fun d => { d with inReset := true, playing := false })) s
      let s := (s.setFlag .dbJtagStatus 0 0 1 true).alert
      { s with jtag := { s.jtag with instr := t, heldInstr := none } }

/-- Stop the turns of a partition (R79). -/
def State.stopTurns (s : State) (p : Nat) : State :=
  (((s.runWheels p false).setPhase p 0).modPart p (fun v => { v with stage := .stopped, nextPlay := none, stopNext := false })).freePins

/-- Stop the turns of a partition at the end of a changeover (R79, R247, R445, R502): the turn ends, and no further turn begins. -/
def State.endTurns (s : State) (p : Nat) : State :=
  let v := s.part p
  let s := (s.setFlag .tnStatus p 0 1 v.overran).setFlag .tnStatus p 0 2 v.aborted
  (s.setReg .tnTurn p 0 (s.turn p + 1)).stopTurns p

end Sys2Proof.Machine
end

