-- ==== Sys2Proof/Machine/Dma.lean ====
section
/-! DEFINITION. The moves of the DMA channels: LOAD, STORE and SEND on the physical, circuit and state paths (R182, R216, R310 to
R319). -/

namespace Sys2Proof.Machine

/-- How a DMA ended: it has moved its rows, it took a bus error, it stopped at a row of the state path, or its transfer is on its way. -/
inductive DmaEnd where
  | done
  | bus (st : Status)
  | stopped (x : StateRow) (code : Nat) (kept : List (Handle × Nat × Word))
  | sent (xid : BitVec 16)
  deriving Repr

/-- Which of the three moves a DMA is. -/
inductive DmaKind where
  | load | store | send
  deriving DecidableEq, Repr

/-- The unmasked rows of a DMA from a row on (R187). -/
def State.dmaLive (s : State) (i : Nat) (d : DmaDesc) (mask : BitVec 10) (start : Nat) : List Nat :=
  (List.range d.rows).filter (fun r => decide (start ≤ r) && s.maskBit i mask r)

/-- A circuit of the plan in force: its entry in the book's plan for the map in force (R225). -/
def State.circuitOf (s : State) (p c : Nat) : Option Circuit :=
  (s.book p).bind (fun b => ((b.circuits.filter (fun x => decide (x.map = s.field .sqMapNow p 0 0 3)))[c]?))

/-- Circuit packets stop at a failed link (R239). -/
def State.circuitCut (s : State) (p c : Nat) : Bool :=
  match s.circuitOf p c with
  | some x => (s.failedOn .bnStatus 4 ((circuitRoute x).map Prod.fst ++ [x.dest.toNat])).isSome
  | none => false

/-- One row on the physical path or on a circuit. -/
def State.dmaRow (s : State) (i mode : Nat) (kind : DmaKind) (d : DmaDesc) (r : Nat) : State × Option Status :=
  match kind with
  | .load =>
    match s.access (.move i) true (d.far r) d.len none with
    | (s, .error e) => (s, some e)
    | (s, .ok b) =>
      match s.dmaStore i mode d r b with
      | .error e => (s, some e)
      | .ok s => (s, none)
  | _ =>
    match s.dmaFetch i mode d r with
    | .error e => (s, some e)
    | .ok b =>
      match s.access (.move i) true (d.far r) d.len (some b) with
      | (s, .error e) => (s, some e)
      | (s, .ok _) => (s, none)

/-- Run rows until one takes a bus error. -/
def State.dmaRows (s : State) (i mode : Nat) (kind : DmaKind) (d : DmaDesc) (rows : List Nat) : State × Option Status :=
  rows.foldl (fun (s, e) r => match e with
    | some x => (s, some x)
    | none => s.dmaRow i mode kind d r) (s, none)

/-! SEND packets (R213, R216) -/

/-- The packets that carry bytes to an address: a whole-block piece of one line, or single blocks with byte enables. -/
def sendPieces (a : Nat) (b : List Byte) : List (Nat × List Byte × BitVec 64) :=
  (linePieces a b.length).flatMap (fun (l, o, n) =>
    let at' := 1024 * l + o
    let part := (b.drop (at' - a)).take n
    if o % 64 = 0 ∧ n % 64 = 0 then [(at', part, BitVec.allOnes 64)]
    else (blockPieces at' n).map (fun (k, x, m) =>
      (64 * k, padTo 64 (List.replicate x 0 ++ (part.drop (64 * k + x - at')).take m), maskOf 64 (rangeFrom x m))))

/-- The transfers that a LOAD or STORE over some lines takes (R216): of 4,096 lines at most, with consecutive XIDs. Its lines move within the
move itself. -/
def State.takeTransfers (s : State) (i lines : Nat) : State :=
  s.modDie i (fun x => { x with nextXid := x.nextXid + BitVec.ofNat 16 (ceilDiv lines 4096) })

/-- The lines of the far side of some rows of a DMA. -/
def DmaDesc.lines (d : DmaDesc) (rows : List Nat) : Nat := rows.foldl (fun n r => n + (d.far r % 1024 + d.len + 1023) / 1024) 0

/-- Send the packets of a SEND: SEQ in order, LINES one less than their number, the EPOCH and TURN of the sender. -/
def State.sendPackets (s : State) (p i : Nat) (d : DmaDesc) (l : List (Nat × List Byte × BitVec 64)) : State × BitVec 16 :=
  let xid := (s.die i).nextXid
  let q := siteSquare i
  let dest (a : Nat) : Nat := siteSquare ((a - 0x090000000000) / 0x08000000)
  let pk := l.zipIdx.map (fun ((a, b, be), n) =>
    { byteEnable := be, dest := BitVec.ofNat 8 (dest a), src := BitVec.ofNat 8 q, kind := .send, compiled := true, cls := 0, xid := xid,
      seq := BitVec.ofNat 16 n, lines := BitVec.ofNat 16 (l.length - 1), epoch := BitVec.ofNat 16 (s.field .sqEpoch p 0 0 16),
      turn := BitVec.ofNat 16 (s.turn p).toNat, rctr := BitVec.ofNat 8 d.rctr, part := BitVec.ofNat 3 p,
      circ := if d.path = 1 then BitVec.ofNat 8 d.circ else 0xFF, addr := BitVec.ofNat 48 a, payload := b : BnetPacket })
  let s := s.modDie i (fun x => { x with nextXid := xid + 1 })
  (pk.foldl (fun s k => s.injectBnet q k) s, xid)

/-! The state path -/

/-- One row of the state path (R182, R305, R315): LEN bytes of a line that has been read and compared go to die memory, or LEN bytes of die
memory to the start of the line. Verification holds LEN to the whole line. -/
def State.stateRow (s : State) (i mode : Nat) (kind : DmaKind) (d : DmaDesc) (leaf : Word) (x : StateRow) :
    State × Except WalkFail Unit :=
  let a := lineAddr leaf x.line
  match kind with
  | .load =>
    match s.readStateLine (siteSquare i) a with
    | (s, .error e) => (s, .error (.bus e))
    | (s, .ok b) =>
      if headerGood leaf x b then
        match s.dmaStore i mode d x.row (b.take d.len) with
        | .error e => (s, .error (.bus e))
        | .ok s => (s.countTraffic (.move i) a 1024 false, .ok ())
      else (s, .error (.fault faultHeader))
  | _ =>
    match s.dmaFetch i mode d x.row with
    | .error e => (s, .error (.bus e))
    | .ok b => ((s.stateWrite a (b.take 1024)).countTraffic (.move i) a (min d.len 1024) true, .ok ())

/-- A state-path DMA from a row on (R310, R317 to R319). -/
def State.performState (s : State) (p i mode : Nat) (kind : DmaKind) (d : DmaDesc) (mask : BitVec 10) (start : Nat)
    (skips : List Handle) (kept : List (Handle × Nat × Word)) : State × DmaEnd :=
  let live := (s.dmaLive i d mask start).filter (fun r => decide ((s.rowStream i d.sel r).1 ∉ skips))
  let rows : Except Status (List StateRow) := live.foldl (fun acc r =>
    match acc with
    | .error e => .error e
    | .ok l => match s.dmaStateRow p i mode d r with
      | .error e => .error e
      | .ok x => .ok (l ++ [x])) (.ok [])
  match rows with
  | .error e => (s, .bus e)
  | .ok rows =>
    let write := decide (kind ≠ .load)
    let (s, held) := s.translateRows p (siteSquare i) rows (heldOf kept)
    rows.foldl (fun (s, e) x =>
      match e with
      | .done =>
        match s.rowLeaf p held write x with
        | .error (.bus st) => (s, .bus st)
        | .error (.fault c) => (s, .stopped x c (keptOf held write))
        | .ok leaf =>
          match s.stateRow i mode kind d leaf x with
          | (s, .ok _) => (s, .done)
          | (s, .error (.bus st)) => (s, .bus st)
          | (s, .error (.fault c)) => (s, .stopped x c (keptOf held write))
      | other => (s, other)) (s, .done)

/-- Perform a DMA from a row on. A circuit that is not in the plan in force finds no route (R225). -/
def State.performDma (s : State) (p i mode : Nat) (kind : DmaKind) (ddesc : Nat) (mask : BitVec 10) (start : Nat) (skips : List Handle)
    (kept : List (Handle × Nat × Word)) : State × DmaEnd :=
  match s.dmaDesc p i ddesc with
  | none => (s, .bus .badArgument)
  | some b =>
    let d : DmaDesc := { desc := b }
    if d.path = 2 ∧ kind ≠ .send then s.performState p i mode kind d mask start skips kept
    else if d.path = 1 ∧ (s.circuitOf p d.circ).isNone then (s, .bus .badArgument)
    else if kind = .send then
      let bytes : Except Status (List (Nat × List Byte × BitVec 64)) := (s.dmaLive i d mask start).foldl (fun acc r =>
        match acc with
        | .error e => .error e
        | .ok l => match s.dmaFetch i mode d r with
          | .error e => .error e
          | .ok x => .ok (l ++ sendPieces (d.far r) x)) (.ok [])
      match bytes with
      | .error e => (s, .bus e)
      | .ok l => if l = [] then (s, .done) else
        let (s, xid) := s.sendPackets p i d l
        (s, .sent xid)
    else
      let rows := s.dmaLive i d mask start
      match (s.takeTransfers i (d.lines rows)).dmaRows i mode kind d rows with
      | (s, some e) => (s, .bus e)
      | (s, none) => (s, .done)

end Sys2Proof.Machine
end

