-- ==== Sys2Proof/Machine/Pool.lean ====
section
/-! DEFINITION. Pool transfers and quads (chapter 13): which quad a far line goes by, its request, and what reaches a module. -/

namespace Sys2Proof.Machine

/-! Pool windows -/

/-- The pool window of a far address (R361), if the address lies in one. -/
def windowOf (a : Nat) : Option Nat :=
  if 0x800000000000 ≤ a ∧ a < 0xC00000000000 then some ((a - 0x800000000000) / 2 ^ 40) else none

/-- The window serves a partition (R361). -/
def State.windowServes (s : State) (n p : Nat) : Bool :=
  s.flag .olPoolMap 0 n 63 && decide (s.field .olPoolMap 0 n 48 3 = p)

/-- The UP quads of a window, in list order (R362). -/
def State.windowQuads (s : State) (n : Nat) : List Nat := (poolQuads (s.reg .olPoolQuads 0 n)).filter (fun q => s.quadIsUp q)

/-- The quad that serves a far address for a partition, or the next one of the list at a retry (R362): none where the window belongs to another
partition, for whose streams alone its transfers are issued (R361). -/
def State.poolQuad (s : State) (p a : Nat) (retry : Bool) : Option Nat :=
  match windowOf a with
  | none => none
  | some n =>
    if !s.windowServes n p then none else
    let l := s.windowQuads n
    let k := ((a / 2 ^ 10 % 16) ^^^ (a / 2 ^ 14 % 16)) % max 1 l.length + (if retry then 1 else 0)
    l[k % max 1 l.length]?

/-- A pool message on the quad that serves an address: PRD or PWR (Table 13.6b). -/
def State.sendPool (s : State) (p a : Nat) (op : BitVec 8) (xid seq lines epoch : BitVec 16) (retry : Bool) (data : List Byte) : State :=
  match s.poolQuad p a retry, windowOf a with
  | some q, some n =>
    s.pushMsg q
      { op := op, status := 0, dst := BitVec.ofNat 13 (s.field .olPoolMap 0 n 32 13), src := s.moduleId,
        srcPart := BitVec.ofNat 3 p, dstPart := 0, xid := xid, seq := seq, lines := lines, epoch := epoch, turn := 0, rctr := 0,
        addr := BitVec.ofNat 48 (a % 2 ^ 40), payload := data }
  | _, _ => s

/-- The next transfer ID of a partition. -/
def State.takeXid (s : State) (p : Nat) : State × BitVec 16 :=
  let x := (s.part p).nextXid
  (s.modPart p (fun v => { v with nextXid := x + 1 }), x)

/-- Request the 64 lines of a far page for a recall (R362): one PRD. -/
def State.readFarPage (s : State) (p : Nat) (h : Handle) (page a : Nat) (epoch : BitVec 16) : State :=
  let (s, x) := s.takeXid p
  let s := { s with poolLines := s.poolLines ++ (List.range 64).map (fun k =>
    ({ part := p, xid := x, seq := BitVec.ofNat 16 k, addr := a + 1024 * k, isWrite := false, retried := false, data := [],
       handle := h, page := page } : PoolLine)) }
  s.sendPool p a 0x01 x 0 63 epoch false []

/-- Send the lines of a page to a far page (R307, R362): one PWR a line. -/
def State.writeFarPage (s : State) (p : Nat) (h : Handle) (page a : Nat) (epoch : BitVec 16) (lines : List (List Byte)) : State :=
  (lines.mapIdx (fun k d => (k, d))).foldl (fun s (k, d) =>
    let (s, x) := s.takeXid p
    let s := { s with poolLines := s.poolLines ++
      [({ part := p, xid := x, seq := 0, addr := a + 1024 * k, isWrite := true, retried := false, data := d, handle := h, page := page } : PoolLine)] }
    s.sendPool p (a + 1024 * k) 0x03 x 0 0 epoch false d) s

/-- A read line of a pool transfer has its data (R362). -/
def State.poolData (s : State) (p : Nat) (xid seq : BitVec 16) (d : List Byte) : State :=
  { s with poolLines := s.poolLines.map (fun l =>
      if l.part = p ∧ l.xid = xid ∧ l.seq = seq ∧ l.isWrite = false then { l with data := padTo 1024 d } else l) }

/-- A written line of a pool transfer has been acknowledged (R362). -/
def State.poolAck (s : State) (p : Nat) (xid seq : BitVec 16) : State :=
  { s with poolLines := s.poolLines.filter (fun l => decide (¬(l.part = p ∧ l.xid = xid ∧ l.seq = seq ∧ l.isWrite = true))) }

end Sys2Proof.Machine
end

