-- ==== Sys2Proof/Machine/Migrate.lean ====
section
/-! DEFINITION. The stream operations that reach beyond the table: migration, tier moves and batch staging, and the
context-cache work of a changeover (R85, R197, R275 to R297, R305 to R308, R525). -/

namespace Sys2Proof.Machine

/-! Pages that Tolerabor allocates in the far tier, as in DRAM -/

/-- A page of a pool window that serves a partition, as a free value; none where no window does. -/
def State.takeFarPage (s : State) (p : Nat) : State × Option Nat :=
  let ws := (List.range 64).filter (fun n => s.windowServes n p && decide (s.windowQuads n ≠ []))
  if ws = [] then (s, none)
  else
    let (w, s) := s.draw
    (s, some (0x800000000000 + ws.getD (w.toNat / 2 ^ 24 % ws.length) 0 * 2 ^ 40 + w.toNat % 2 ^ 24 * 65536))

/-- The 64 KiB of a page as the compute side reads it; a far page, whose bytes lie in a pool, gives free values. -/
def State.pageBytes (s : State) (a : Nat) : State × List Byte :=
  if inDram a then
    match s.computeRead a 65536 0 with
    | (s, .ok d) => (s, d)
    | (s, .error _) => (s, s.bytes a 65536)
  else if a < 0x800000000000 then (s, s.bytes a 65536)
  else
    ({ s with fresh := s.fresh + 8192 }, (rangeFrom s.fresh 8192).flatMap (fun k => leBytes 8 (Config.freeWord k).toNat))

/-- Rewrite a granule for its new handle (R296): bytes 0 to 3 take the handle and the CRC of Table 5.6 is recomputed; a granule whose
old CRC does not match is copied unchanged. -/
def rehandle (h : Handle) (g : List Byte) : List Byte :=
  let crc (x : List Byte) : BitVec 32 := crc32c (overlay x 16 [0, 0, 0, 0])
  if bytesAt g 16 4 = (crc g).toNat then
    let g := overlay g 0 (leBytes 4 h.toNat)
    overlay g 16 (leBytes 4 (crc g).toNat)
  else g

/-- Rewrite every granule of a page. -/
def rehandlePage (h : Handle) (d : List Byte) : List Byte :=
  (List.range 64).flatMap (fun k => rehandle h ((d.drop (1024 * k)).take 1024))

/-! Migration -/

/-- Bytes of state that a migration copies: its pages, in which its saved tails lie, and its resident tails. -/
def State.stateSize (s : State) (p : Nat) (e : StreamEntry) : Nat :=
  65536 * (s.leaves e.root.toNat).length +
  2048 * ((s.part p).tailRuns.filter (fun r => decide (r.handle = e.handle))).foldl (fun n r => n + r.count) 0

/-- The failures of a migration that are known when it is applied (R297). -/
def State.migrateRefused (s : State) (p : Nat) (module : BitVec 16) (dest : Nat) : Option Status :=
  let m : BitVec 13 := module.setWidth 13
  if m = s.moduleId then
    if dest = p then some .notPermitted
    else if !s.formed dest then some .badArgument
    else if s.partFenced dest then some .peerFenced
    else none
  else if m ∈ s.fencedModules then some .peerFenced
  else if (s.quadTo p m).isNone then some .linkVacant
  else none

/-- stream.migrate (R296, step 1). -/
def State.applyMigrate (s : State) (p : Nat) (c : Cmd) (h : Handle) (module : BitVec 16) (dest : BitVec 8) : State :=
  let op : BitVec 16 := 0x0406
  match s.resolve p (s.cmdTenant c) h with
  | .error e => s.complete c op e
  | .ok f =>
    match refusedIn (s.entryAt p f).state, s.migrateRefused p module dest.toNat with
    | some st, _ => s.complete c op st
    | none, some st => s.complete c op st
    | none, none =>
      match s.makeResident p f with
      | (s, none) => s.complete c op .streamTableFull
      | (s, some k) =>
        let e := s.row k
        let s := (s.failPending p h .busy e.length).unstage p h
        let e' := { e with state := stMigrating, epoch := e.epoch + 1, advPending := 0, appPending := 0, prompt := 0 }
        let s := (s.setRow k e').streamEvent p e'
        let (s, x) := s.takeXid p
        let s := s.modPart p (fun v => { v with migrations := v.migrations ++
          [{ cmd := c, handle := h, slot := k, module := module, part := dest, xid := x, staging := 0, newHandle := 0 }] })
        let m : BitVec 13 := module.setWidth 13
        if m = s.moduleId then s
        else match s.quadTo p m with
          | some q =>
            { s with exchanges := s.exchanges ++ [(m, p)] }.sendMgmt q m 0x08 p dest.toNat x
              (padTo 16 (leBytes 4 h.toNat ++ [dest, 0, 0, 0] ++ leBytes 8 (s.stateSize p e')) ++ entryBytes e')
          | none => s

/-- The admission of an arriving stream (R291, R296): a row, a handle and a root, MIGRATING until the next changeover. -/
def State.admitArrival (s : State) (p : Nat) (e : StreamEntry) (a : Arrival) : State × Option Handle :=
  match s.admitStream p with
  | (s, none) => (s, none)
  | (s, some k) =>
    let (s, h) := s.issue p k
    let (s, root, _) := s.takeNode []
    let s := s.setRow k { e with
      handle := h, part := BitVec.ofNat 3 p, state := stMigrating, epoch := e.epoch + 1, advPending := 0, appPending := 0
      root := BitVec.ofNat 48 root, retries := 0, notAdv := false, pinned := false, far := false, displaced := false
      shared := false, tails := false, parent := 0, prompt := 0, tailset := 0xFFFFFFFF }
    (s.modPart p (fun v => { v with arrivals := v.arrivals ++ [{ a with slot := k, newHandle := h, entry := e }] }), some h)

/-- Copy the pages and tails of a stream to a stream of another partition of the module (R296, step 2). LIN goes with each leaf
(R316). -/
def State.copyStream (s : State) (p dest : Nat) (src dst : StreamEntry) : State :=
  let s := (s.leaves src.root.toNat).foldl (fun s (page, _, _, e) =>
    let (s, d) := s.pageBytes (entryAddr e)
    let (s, a) := s.takePage dest
    let s := s.writePage a (rehandlePage dst.handle d)
    (s.placeLeaf dst.root.toNat page (mkEntry a 0 false (leafLin e) false) []).1) s
  s.putSaved dest dst.handle dst.root.toNat (s.residentTails p src.handle ++ s.savedOf p src.handle)

/-- A migration ends at its source (R296, step 4): the row becomes CLOSING, and the command completes with the new handle. -/
def State.migrated (s : State) (p : Nat) (x : Migration) (h : Handle) : State :=
  let s := s.setRow x.slot { s.row x.slot with state := stClosing }
  let s := s.modPart p (fun v => { v with migrations := v.migrations.filter (fun y => decide (y.handle ≠ x.handle)) })
  let s := { s with exchanges := s.exchanges.erase (x.module.setWidth 13, p) }
  ((s.bump .stMigrations p).streamEvent p (s.row x.slot)).complete x.cmd 0x0406 .ok none (leBytes 4 h.toNat)

/-- Discard an arrival: its pages are sealed and released, its row freed (R297). -/
def State.dropArrival (s : State) (p : Nat) (a : Arrival) : State :=
  let s := (s.releaseStream p a.newHandle (s.row a.slot).root.toNat).freeRowAt p a.slot
  s.modPart p (fun v => { v with arrivals := v.arrivals.filter (fun b => decide (b.newHandle ≠ a.newHandle)) })

/-- A migration fails (R297): the command completes with the status, the EPOCH increments again, and the stream becomes IDLE at
the next changeover. -/
def State.failMigration (s : State) (p : Nat) (h : Handle) (st : Status) : State :=
  match (s.part p).migrations.find? (fun x => decide (x.handle = h)) with
  | none => s
  | some x =>
    let e := s.row x.slot
    let s := s.setRow x.slot { e with epoch := e.epoch + 1 }
    let s := s.modPart p (fun v => { v with
      migrations := v.migrations.filter (fun y => decide (y.handle ≠ h)), migrateFailed := v.migrateFailed ++ [h] })
    let s := { s with exchanges := s.exchanges.erase (x.module.setWidth 13, p) }
    let s := match (s.part x.part.toNat).arrivals.find? (fun a => decide (a.quad = none ∧ a.source = p ∧ a.handle = h)) with
      | some a => s.dropArrival x.part.toNat a
      | none => s
    s.complete x.cmd 0x0406 st

/-- The arrivals whose copy has ended become IDLE at the destination's changeover (R296, step 3); within the module the source's
command completes, across modules MIGRATE_DONE goes back. -/
def State.settleArrivals (s : State) (p : Nat) : State :=
  ((s.part p).arrivals.filter (fun a => a.copied)).foldl (fun s a =>
    let e := s.row a.slot
    let s := (s.setRow a.slot { e with state := restState e }).streamEvent p { e with state := restState e }
    let s := s.modPart p (fun v => { v with arrivals := v.arrivals.filter (fun b => decide (b.newHandle ≠ a.newHandle)) })
    match a.quad with
    | some q => s.sendMgmt q a.module 0x0A p a.source a.xid (padTo 16 ([0, 0, 0, 0] ++ leBytes 4 a.newHandle.toNat))
    | none => match (s.part a.source).migrations.find? (fun x => decide (x.handle = a.handle)) with
      | some x => s.migrated a.source x a.newHandle
      | none => s) s

/-- Streams whose migration failed become IDLE (R297). -/
def State.settleFailed (s : State) (p : Nat) : State :=
  let l := (s.part p).migrateFailed
  let s := s.modPart p (fun v => { v with migrateFailed := [] })
  l.foldl (fun s h =>
    match s.residentRow p h with
    | some k =>
      let e := s.row k
      if e.state = stMigrating then (s.setRow k { e with state := restState e }).streamEvent p { e with state := restState e } else s
    | none => s) s

/-! Tiers -/

/-- Free pages of the pinned units that a partition lends to state (R306). -/
def State.pinnedRoom (s : State) (p : Nat) : Nat :=
  let lent := 4 * bitsAt (s.latchedReg .stPinLend p) 0 8 * (s.partSquares p).length
  let used := (s.liveRows p).foldl (fun n (_, e) =>
    n + ((s.leaves e.root.toNat).filter (fun (_, _, _, l) => decide (leafTier l = 1))).length) 0
  lent - used

/-- Bring PINNED and FAR of a stream's entry in step with its leaves (R305). -/
def State.syncTiers (s : State) (p : Nat) (h : Handle) : State :=
  match s.resolve p none h with
  | .ok f =>
    let e := s.entryAt p f
    let (pin, far) := s.tierBits e.root.toNat
    s.setEntryAt p f { e with pinned := pin, far := far }
  | .error _ => s

/-- The pages that a state.tier names and that are not yet in the tier. -/
def State.tierPages (s : State) (root : Nat) (first pages tier : Nat) : List (Nat × Word) :=
  ((s.leaves root).filter (fun (page, _, _, e) => decide ((pages = 0 ∨ (first ≤ page ∧ page < first + pages)) ∧ leafTier e ≠ tier))).map
    (fun (page, _, _, e) => (page, e))

/-- state.tier at its changeover (R307, step 1): MOVING in each named leaf. A move to the far tier is sent to the pool. -/
def State.applyTier (s : State) (p : Nat) (c : Cmd) (h : Handle) (first pages : BitVec 32) (tier : BitVec 8) : State :=
  let op : BitVec 16 := 0x0501
  match s.resolve p (s.cmdTenant c) h with
  | .error e => s.complete c op e
  | .ok f =>
    let e := s.entryAt p f
    let l := s.tierPages e.root.toNat first.toNat pages.toNat tier.toNat
    if l = [] then s.complete c op .ok
    else if tier = 1 ∧ s.pinnedRoom p < l.length then s.complete c op .busy
    else if (tier = 2 ∧ (s.takeFarPage p).2 = none) ∨
        l.any (fun (_, e) => decide (leafTier e = 2) && (s.poolQuad p (entryAddr e) false).isNone) then s.complete c op .linkVacant
    else
      l.foldl (fun s (page, leaf) =>
        let s := s.setLeaf p h e.root.toNat page (putBit leaf 58 true)
        let (s, a) := if tier = 2 then
            match s.takeFarPage p with
            | (s, some a) =>
              let (s, d) := s.pageBytes (entryAddr leaf)
              (s.writeFarPage p h page a e.epoch ((List.range 64).map (fun k => (d.drop (1024 * k)).take 1024)), a)
            | (s, none) => (s, 0)
          else if leafTier leaf = 2 then (s.readFarPage p h page (entryAddr leaf) e.epoch, 0)
          else (s, 0)
        s.modPart p (fun v => { v with tierMoves := v.tierMoves ++
          [{ cmd := c, handle := h, page := page, tier := tier, copied := false, newPage := a }] })) s

/-- Every stream of a partition whose table has a leaf at a page frame, with the page's number (R307: the sharers of a page). -/
def State.sharersAt (s : State) (p frame : Nat) : List (Handle × Nat × Nat × Word) :=
  let rows := (s.rows.filter (fun (k, e) => s.ownsSlot p k && decide (e.state ≠ stFree ∧ e.root ≠ 0))).map Prod.snd
  let parked := (s.part p).parked.map Prod.snd
  (rows ++ parked).flatMap (fun e => ((s.leaves e.root.toNat).filter (fun (_, _, _, l) => decide (pageOf (entryAddr l) = frame))).map
    (fun (page, _, _, l) => (e.handle, e.root.toNat, page, l)))

/-- A page moves to another (R307, R320): the old page is sealed before the leaves change, the leaf of every sharer takes the new tier and
address, and the old page is released. moving gives each leaf its MOVING bit. -/
def State.relocatePage (s : State) (p old new tier : Nat) (moving : Word → Bool) : State :=
  let sharers := s.sharersAt p (pageOf old)
  let s := s.sealPage (pageOf old) (s.turn p)
  let s := sharers.foldl (fun s (h, root, page, l) =>
    (s.setLeaf p h root page (mkEntry new tier (leafCow l) (leafLin l) (moving l))).syncTiers p h) s
  let s := (s.setSharers p (pageOf new) (s.sharersOf p (pageOf old))).setSharers p (pageOf old) 1
  s.fillPage (pageOf old)

/-- Switch one page whose copy has finished (R307, step 3): its leaf takes the new tier and address and MOVING is cleared. A page whose seal
has no room waits for a later changeover (R320). -/
def State.switchPage (s : State) (p : Nat) (t : TierMove) : State :=
  match s.resolve p none t.handle with
  | .error _ => s
  | .ok f => match s.leafOf (s.entryAt p f).root.toNat t.page with
    | none => s
    | some (_, _, e) =>
      let old := entryAddr e
      if !s.sealRoom (pageOf old) then s
      else
        let s := (s.relocatePage p old t.newPage t.tier.toNat (fun _ => false)).bump .stTierMoves p
        s.modPart p (fun v => { v with tierMoves := v.tierMoves.filter (fun x => decide (x ≠ t)) })

/-- Every leaf of the streams of a partition, resident and parked. -/
def State.partLeaves (s : State) (p : Nat) : List Word :=
  let rows := (s.rows.filter (fun (k, e) => s.ownsSlot p k && decide (e.state ≠ stFree ∧ e.root ≠ 0))).map Prod.snd
  (rows ++ (s.part p).parked.map Prod.snd).flatMap (fun e => (s.leaves e.root.toNat).map (fun (_, _, _, l) => l))

/-- A pinned page stays among the lent units of its slice where PIN is pin and n units are lent (R306). -/
def lentAfter (pin n a : Nat) : Bool :=
  let u := (a - 0x080000000000) % 0x04000000 / 0x40000
  decide (u ≤ pin ∧ pin < u + n)

/-- Before a layout that takes lent units out of the pinned range (R306): the state pages in them go to DRAM pages of Tolerabor's choice, and
ST_PIN_LEND falls by as many units. A page that a copy in progress had for its target is no longer one. -/
def State.reclaimLent (s : State) (p pin : Nat) : State :=
  let gone := (s.partSquares p).foldl (fun n q => max n (s.field .ccLayout q 0 0 8 - pin)) 0
  let n := s.field .stPinLend p 0 0 8
  if gone = 0 ∨ n = 0 then s
  else
    let pages := (((s.partLeaves p).filter (fun l => decide (leafTier l = 1) && !lentAfter pin (n - gone) (entryAddr l))).map entryAddr).eraseDups
    let s := pages.foldl (fun s a =>
      let (s, d) := s.pageBytes a
      let (s, b) := s.takePage p
      (s.writePage b d).relocatePage p a b 0 leafMoving) s
    let s := s.modPart p (fun v => { v with tierMoves := v.tierMoves.map (fun t =>
      if t.tier = 1 ∧ !lentAfter pin (n - gone) t.newPage then { t with copied := false } else t) })
    let v := BitVec.ofNat 64 (n - gone)
    (s.setReg .stPinLend p 0 v).latchReg .stPinLend p 0 v

/-- The tier switches of a changeover (R307, R308): finished pages are switched, a page whose move was cancelled is marked MOVING
again, and each command completes after the switch of its last page. -/
def State.switchTiers (s : State) (p : Nat) : State :=
  let s := ((s.part p).tierMoves.filter (fun t => t.copied)).foldl (fun s t => s.switchPage p t) s
  let s := ((s.part p).tierMoves.filter (fun t => !t.copied)).foldl (fun s t =>
    match s.resolve p none t.handle with
    | .ok f =>
      let root := (s.entryAt p f).root.toNat
      match s.leafOf root t.page with
      | some (_, _, e) => if leafMoving e then s else s.setLeaf p t.handle root t.page (putBit e 58 true)
      | none => s
    | .error _ => s.modPart p (fun v => { v with tierMoves := v.tierMoves.filter (fun x => decide (x ≠ t)) })) s
  let waits := (s.part p).tierMoves.map (fun t => t.cmd) ++ (s.part p).queue.map (fun q => q.cmd) ++ s.referee.held.map (fun h => h.1)
  let done := (s.referee.journal.filter (fun (e : JournalEntry) => decide (e.opcode = 0x0501) && decide (e.cmd ∉ waits))).map (fun e => e.cmd)
  (done.filter (fun c => decide (cmdPart c = some p))).foldl (fun s c => s.complete c 0x0501 .ok) s

/-! The queue of operations -/

/-- Apply one queued operation (R279). -/
def State.applyQueued (s : State) (p : Nat) (q : Queued) (nodes : List Addr) : State × List Addr :=
  match q.op with
  | .streamOpen tenant prio => s.applyOpen p q.cmd tenant prio nodes
  | .streamAppend h n a => (s.applyAppend p q.cmd h n a, nodes)
  | .streamAdvance h n => (s.applyAdvance p q.cmd h n, nodes)
  | .streamClose h => (s.applyClose p q.cmd h, nodes)
  | .streamPark h => (s.applyPark p q.cmd h, nodes)
  | .streamUnpark h => (s.applyUnpark p q.cmd h, nodes)
  | .streamMigrate h m d => (s.applyMigrate p q.cmd h m d, nodes)
  | .streamFork h n => s.applyFork p q.cmd h n nodes
  | .stateTier h f n t => (s.applyTier p q.cmd h f n t, nodes)
  | _ => (s, nodes)

/-- Apply queued operations in order of arrival (R85, R275): those accepted before the changeover began, as many as fit. -/
def State.applyOps (s : State) (p : Nat) : Nat → List Addr → State
  | 0, _ => s
  | n + 1, nodes =>
    match (s.part p).queue with
    | [] => s
    | q :: rest =>
      if (s.part p).opsDue = 0 then s
      else
        let s := s.modPart p (fun v => { v with queue := rest, opsDue := v.opsDue - 1 })
        let (s, nodes) := s.applyQueued p q nodes
        s.applyOps p n nodes

/-! Publishes -/

/-- Apply one publish as far as lines allow: what is left of the lines, and what is left of the publish. The completion reports the turn that
follows the changeover of its last line (R67). -/
def State.applyPublish (s : State) (p lines : Nat) (x : Publish) : State × Nat × Option Publish :=
  let n := min lines x.lines
  let s := s.publishLines x.toHost (x.base / 1024) n
  if n = x.lines then (s.complete x.cmd 0x0204 .ok (some (s.turn p + 1)), lines - n, none)
  else (s, 0, some { x with base := x.base + 1024 * n, lines := x.lines - n })

/-- One-time publishes in order (R67, R525): those accepted before the changeover began, up to a number of lines. What does not fit is carried
over; a range of no lines completes all the same. -/
def State.applyPublishes (s : State) (p lines : Nat) : State :=
  let v := s.part p
  let (s, _, kept) := (v.publishes.take v.pubsDue).foldl (fun (x : State × Nat × List Publish) y =>
    let (s, lines, kept) := x
    let (s, lines, left) := s.applyPublish p lines y
    (s, lines, kept ++ left.toList)) (s, lines, [])
  s.modPart p (fun v => { v with publishes := kept ++ v.publishes.drop v.pubsDue, pubsDue := 0 })

/-- The standing ranges of a partition (R68, Table 2.6). -/
def State.applyStanding (s : State) (p : Nat) : State :=
  (List.range 16).foldl (fun s n =>
    let b := s.latchedReg .ccPubBase p n
    if bitAt b 0 then
      s.publishLines (bitAt b 63) (bitsAt b 10 38) (bitsAt (s.latchedReg .ccPubLen p n) 0 32)
    else s) s

/-- Lines of one-time publish that fit before P beside the standing ranges (R525). -/
def State.publishRoom (s : State) (p : Nat) : Nat :=
  64 * (s.partRegions p).length * ((s.part p).p - 16 - s.standingTicks p)

/-! Tails of streams to be batched -/

/-- The map of the next turn, as far as Tolerabor can tell during play (R202): the target of a switch whose copies are complete, if the turn
in play is the last before it, and otherwise the map in force. -/
def State.nextMap (s : State) (p : Nat) : Nat :=
  match (s.part p).switch with
  | some w => if (!w.reshardNext || (s.part p).reshardTurn) && s.copiesDone p w.copied then w.target else s.field .sqMapNow p 0 0 3
  | none => s.field .sqMapNow p 0 0 3

/-- The SHEETS entries of a map of the loaded book. -/
def State.sheetsFor (s : State) (p m : Nat) : List SheetDecl :=
  match s.book p with
  | some b => b.sheetsOf m
  | none => []

/-- The SHEETS entries of the map in force. -/
def State.sheetsNow (s : State) (p : Nat) : List SheetDecl := s.sheetsFor p (s.field .sqMapNow p 0 0 3)

/-- The tails of resident streams with pending positions (R287): saved ones are restored, and for a stream that has none yet room is made, so
that its runs are there when it is selected. Tails of idle streams are saved for either; what does not fit waits. -/
def State.restoreTails (s : State) (p : Nat) : State :=
  ((s.liveRows p).filter (fun (_, e) => !e.tails && decide (e.advPending ≠ 0 ∨ e.appPending ≠ 0))).foldl (fun s (k, e) =>
    if s.savedOf p e.handle ≠ [] then (s.giveTails p k (s.sheetsNow p) 1024).1
    else
      let s := (s.giveTails p k (s.sheetsNow p) 1024).1
      (s.setRow k { s.row k with tails := false, tailset := 0xFFFFFFFF }).dropRuns p e.handle) s

/-! Batch staging (R275, R284 to R286) -/

/-- The row of the batch in play of a stream, if any. -/
def playRow (v : Part) (h : Handle) : Option BatchRow :=
  (batchStreams v.batch).find? (fun r => decide (r.handle = h))

/-- The row that a stream gets in the batch of the next turn: none where it is not eligible (R284). What the turn in play will have
used is taken off (R323). prefill says that the next turn plays a prefill map. -/
def State.stageRow (s : State) (p : Nat) (h : Handle) (sheet : SheetDecl) : Option BatchRow :=
  match s.residentRow p h with
  | none => none
  | some k =>
    let e := s.row k
    let v := s.part p
    let named := v.queue.any (fun q => match q.op with
      | .streamClose x | .streamMigrate x _ _ => decide (x = h)
      | _ => false)
    let cur := playRow v h
    let used := (cur.map (fun r => r.new.toNat)).getD 0
    let inPrefill := (cur.map (fun r => r.prefill)).getD false
    let app := e.appPending.toNat - (if inPrefill then used else 0)
    let adv := e.advPending.toNat - (if inPrefill then 0 else used)
    let pos := e.length.toNat + used
    let pend := if sheet.prefill then app else if app = 0 then adv else 0
    let new := min pend (min sheet.positions 65535)
    if (e.state ≠ stOpen ∧ e.state ≠ stIdle ∧ e.state ≠ stActive) ∨ named ∨ new = 0 ∨ !e.tails then none
    else
      let ps := v.pendingPositions.filter (fun x => decide (x.handle = h ∧ x.isAppend))
      let left := (playPositions true h 0 0 (if inPrefill then used else 0) ps).filter (fun x => decide (x.played = none))
      let prompt := (left.head?.map (fun x => x.prompt)).getD 0
      let total := (left.head?.map (fun x => bytesAt (s.peek (x.prompt.toNat / 64)) 4 4)).getD 0
      some
        { handle := h, pos := BitVec.ofNat 32 pos, new := BitVec.ofNat 16 new, live := true, prefill := sheet.prefill
          tail := 0xFFFFFFFF, seed := e.seed, counter := BitVec.ofNat 64 pos, slot := BitVec.ofNat 20 k
          prompt := if sheet.prefill then prompt else 0
          promptFirst := if sheet.prefill then BitVec.ofNat 32 (total - (left.head?.map (fun x => x.left.toNat)).getD 0) else 0 }

/-- The tail-map index of a row: its place in the site's tail map, or none for a site with no tails (Table 7.8). -/
def withTail (k : Nat) (sheet : SheetDecl) (r : BatchRow) : BatchRow :=
  { r with tail := if sheet.tails = 0 then 0xFFFFFFFF else BitVec.ofNat 32 k }

/-- Rows that the batch may hold: BATCH_MAX, 65,536, one less than the last batch after two overruns or over the power budget where the
policy shrinks the batch first (R91, R462), those whose projected power fits the budget (R462), and no more than the last batch while its slack is short (Table 9.4). -/
def State.batchRoom (s : State) (p : Nat) : Nat :=
  let cap := min (min 65536 (s.policyValue p 0x0002 65536).toNat) (s.powerRows p)
  let last := (s.part p).liveRows
  if s.shrinksBatch p || s.shrinksForPower p then min cap (max 1 (last - 1))
  else if last ≠ 0 ∧ s.slackShort p then min cap last
  else cap

/-- The tails of the streams chosen for a batch, allocated on their first selection (R287): no stream's tails are saved for them during play, and
saved ones wait for their restore. -/
def State.allotTails (s : State) (p : Nat) (sheets : List SheetDecl) (handles : List Handle) : State :=
  handles.foldl (fun s h => match s.residentRow p h with
    | some k => if s.hasRuns p h sheets ∨ s.savedOf p h ≠ [] then s else (s.giveTails p k sheets 0).1
    | none => s) s

/-- The weight of a priority class (Table 9.4). -/
def classWeight (w : Word) (c : Nat) : Nat := bitsAt w (8 * c) 8

/-- A stream is selected before another (R284): within a class the older LAST_TURN, in a list by slot the first on equal ones; between classes
the one with the fewer streams taken for its weight. DESIGN CHOICE (log 79): R284 gives the weights, and not how they are applied; the
lower class comes first where the shares are equal. taken counts the streams of each class selected so far. -/
def selectedFirst (w : Word) (taken : List (Nat × Nat)) (x y : StreamEntry) : Bool :=
  let (c, d) := (x.prio.toNat, y.prio.toNat)
  let (a, b) := ((Sparse.nget 0 taken c + 1) * classWeight w d, (Sparse.nget 0 taken d + 1) * classWeight w c)
  if c = d then decide (x.lastTurn.toNat < y.lastTurn.toNat) else decide (a < b ∨ (a = b ∧ c < d))

/-- The first n streams of a list in the order of selection. -/
def selectStreams (w : Word) : Nat → List (Nat × Nat) → List StreamEntry → List Handle
  | 0, _, _ => []
  | n + 1, taken, l =>
    match l.foldl (fun (b : Option StreamEntry) x => match b with
      | none => some x
      | some y => if selectedFirst w taken x y then some x else some y) none with
    | none => []
    | some x => x.handle :: selectStreams w n (Sparse.nput taken x.prio.toNat (Sparse.nget 0 taken x.prio.toNat + 1)) (l.erase x)

/-- A stream is eligible for the next batch by everything but its tails, which are given on its first selection (R284, R287). -/
def State.eligible (s : State) (p : Nat) (prefill : Bool) (k : Nat) : Bool :=
  (({ s with rows := Sparse.nset {} s.rows k { s.row k with tails := true } }).stageRow p (s.row k).handle
    { map := 0, site := 0, rows := 1, masks := 0, extents := [], tails := 0, positions := 1, holdBudget := 0, prefill := prefill }).isSome

/-- The streams of the next batch in order of selection (R284): as many as the batch has room for, and those that come first of them while
Tolerabor names a place for each. -/
def State.chooseStreams (s : State) (p : Nat) (prefill : Bool) (named : List Handle) : List Handle :=
  let l := ((s.liveRows p).filter (fun (k, _) => s.eligible p prefill k)).map Prod.snd
  (selectStreams (s.policyValue p 0x0008 0x08010204) (min (s.batchRoom p) l.length) [] l).takeWhile (fun h => decide (h ∈ named))

/-- Compose and stage the batch of the next turn (R275, R284): slices gives the place of each stream in the slices of the sites, which the book
knows. The slices are written to the staging area (R197), and each stream that joins the batch is recorded (R248). -/
def State.stageBatch (s : State) (p : Nat) (slices : List (Nat × List Handle)) : State :=
  let m := s.nextMap p
  let sheets := s.sheetsFor p m
  let chosen := s.chooseStreams p (sheets.any (fun x => x.prefill)) ((slices.flatMap Prod.snd).eraseDups)
  let s := s.allotTails p sheets chosen
  let chosen := chosen.filter (fun h => s.hasRuns p h sheets)
  let rows := slices.filterMap (fun (i, hs) => (sheets.find? (fun x => decide (x.site = i))).map (fun sh =>
    (i, ((hs.take (min 8192 sh.rows)).mapIdx (fun k h =>
      if h ∈ chosen then ((s.stageRow p h sh).map (withTail k sh)).getD {} else {})))))
  let s := (batchStreams rows).foldl (fun s r =>
    let e := s.row r.slot.toNat
    if e.state = stActive then s else (s.setRow r.slot.toNat { e with state := stActive }).streamEvent p { e with state := stActive }) s
  let s := (s.modPart p (fun v => { v with staged := some (s.turn p + 1, rows), stagedMap := m })).writeSlices p
  (s.restUnbatched p).countStreams p

/-! Changeover work -/

/-- The context-cache work of a changeover, from offset 16 to P (Table 3.3, R290, R525): rows closed earlier are freed and the
outcome of the turn is applied; one-time publishes, standing publishes and queued operations follow, then tier switches,
arrivals, restores and the lifting of seals. -/
def State.contextWork (s : State) (p lines ops : Nat) (nodes : List Addr) : State :=
  let s := (s.freeClosing p).batchOutcome p
  let s := s.applyPublishes p (min lines (s.publishRoom p))
  let s := s.applyStanding p
  let s := s.applyOps p ops nodes
  let s := (s.switchTiers p).settleArrivals p
  let s := ((s.settleFailed p).restoreTails p).liftSeals p (s.turn p)
  (s.countStreams p).modPart p (fun v => { v with stage := .worked })

end Sys2Proof.Machine
end

