-- ==== Sys2Proof/Machine/TurnCommands.lean ====
section
/-! DEFINITION. The commands of turns and clocks: play, boundaries, slips, changeovers and barriers; the S-net messages; the game
clock (chapters 3, 7, 8, 15 and 19). -/

namespace Sys2Proof.Machine

/-! Messages between the members of a spanning book -/

/-- The overrun notice of a member, or its done report with its stamp (R100). The spec gives the report no MGMT kind: its code is a
free value. -/
def State.reportDone (s : State) (p : Nat) (isDone : Bool) (stamp : Word) : State :=
  if (s.part p).members = [] then s
  else
    let (k, s) := s.draw
    s.tellMembers p (k.toNat % 256) ([if isDone then 1 else 0] ++ List.replicate 7 0 ++ leBytes 8 stamp.toNat)

/-- The halted member announces its debug pause (R494): turn and halted site. -/
def State.announcePause (s : State) (p : Nat) : State :=
  match (s.partSites p).find? (fun i => (s.die i).halted) with
  | some i => s.tellMembers p 0x07 (padTo 16 (leBytes 4 ((s.turn p).toNat % 2 ^ 32) ++ leBytes 1 i))
  | none => s

/-! Play -/

/-- A play that a die may take part in: the partition is in play or slip (R79, R80). -/
def State.inPlay (s : State) (p : Nat) : Bool := decide ((s.part p).stage = .play)

/-- A rook halts (R492, R491): its bit is set and it stays so until it resumes. -/
def State.haltRook (s : State) (i : Nat) : State :=
  let s := s.modDie i (fun d => { d with halted := true, haltPending := false })
  match s.siteOwner i with
  | some p =>
    let s := s.modPart p (fun v => { v with hadHalt := true, haltSince := some (v.haltSince.getD s.now) })
    if i < 64 then s.setFlag .dbHaltedLo p 0 i true else s.setFlag .dbHaltedHi p 0 (i - 64) true
  | none => s

/-- A member whose dies are all done stamps its done report and sends it (R100), once a turn. -/
def State.stampDone (s : State) (p : Nat) (stamp : Word) : State :=
  if !s.isMember p || s.anyHalted p || (s.part p).doneStamps.any (fun x => decide (x.1 = s.moduleId.toNat)) then s
  else (s.modPart p (fun v => { v with doneStamps := Sparse.nput v.doneStamps s.moduleId.toNat stamp })).reportDone p true stamp

/-- A die is done with the turn (R84, R194): SQ_STATUS.DONE, its slack, and DONE on the S-net. A die that ends after the end of
play has no slack that the spec states: a free value. -/
def State.signalDone (s : State) (p i : Nat) (cycle : Nat) : State :=
  let len := (s.turnLen p - s.chgLen p) * cyclesPerTick (s.stepNow p)
  let (w, s) := if cycle ≤ len then (BitVec.ofNat 64 (len - cycle), s) else s.draw
  let s := (s.setFlag .sqStatus i 0 16 true).setReg .sqSlack i 0 (BitVec.ofNat 64 (w.toNat % 2 ^ 32))
  let s := s.gatherTree .done (siteSquare i) 4
  let s := if s.flag .sqPreempt p 0 0 then (s.setFlag .sqStatus i 0 19 true).gatherTree .yielded (siteSquare i) 4 else s
  if s.allDone p then s.stampDone p s.now else s

/-- A die begins play when its own square's game-clock copy has reached the turn's start tick (R83): the mode is MX_MODE_INIT (R103), both buffers of every MAC hold +0 (R114), and bits [20:16] of
SQ_STATUS are cleared. A die with no moves is done at once. A halt that waited takes place (R491). -/
def State.playStart (s : State) (i : Nat) : State :=
  match s.siteOwner i with
  | none => s
  | some p =>
    if !s.inPlay p || !s.inService i || (s.die i).playing || decide ((s.now (siteSquare i)).toNat < (s.reg .tnStart p).toNat) then s
    else
      let s := s.setField .sqStatus i 0 16 5 0
      let s := s.setField .mxStatus i 0 32 3 (s.field .mxModeInit i 0 0 3)
      let s := (s.setFlag .mxStatus i 0 2 false).setReg .sqNext i 0 0
      let s := s.modDie i (fun d =>
        { d with accum := [], bufs := [], lastStart := none, lastCycle := none, issuedCrc := 0xFFFFFFFF, playing := true, rookReady := false })
      let s := if (s.die i).haltPending then s.haltRook i else s
      if (s.die i).rookFault then
        ((s.modDie i (fun d => { d with rookFault := false })).modPart p (fun v => { v with uncorrectable := true })).abortTurn p abortBus
      else if s.dieIssues p i then s else s.signalDone p i 0

/-- A die whose sequencer has passed its last move, and whose moves are all complete, is done (R84, R114, R169). -/
def State.finishDie (s : State) (i : Nat) (cycle : Word) : State :=
  let d := s.die i
  match s.siteOwner i with
  | none => s
  | some p =>
    if s.inPlay p && d.playing && s.dieIssues p i && decide (s.field .sqNext i 0 0 18 = d.tableLen ∧ d.flights = [] ∧ d.check = none) &&
        !s.flag .sqStatus i 0 16 && !d.halted then
      s.signalDone p i cycle.toNat
    else s

/-! Boundaries -/

/-- Every other member of the spanning book has sent its done report (R100). -/
def State.membersDone (s : State) (p : Nat) : Bool :=
  (s.part p).members.all (fun (m, _) => (s.part p).doneStamps.any (fun x => decide (x.1 = m)))

/-- The dies that are not done at the planned boundary raise TURN_OVERRUN (R92), and the members of a spanning book are told (R100). Tolerabor
counts the overruns in a row, but not those of turns that had a halted rook (R91, R495). -/
def State.overrun (s : State) (p : Nat) : State :=
  let late := (s.enabledSites p).filter (fun i => !s.dieDone p i || (s.die i).halted)
  let s := late.foldl (fun s i => s.eventAny 0x2 0x30 (some p) 0 (leBytes 8 i)) s
  let halted := s.anyHalted p
  let s := (((s.bump .tnOverruns p).setFlag .tnStatus p 0 1 true).setPhase p 3).modPart p (fun v =>
    { v with overran := true, hadHalt := v.hadHalt || halted, overrunsInRow := if v.hadHalt || halted then v.overrunsInRow else v.overrunsInRow + 1 })
  (if halted then s.announcePause p else s).reportDone p false s.now

/-- End of play (R84, R92): the changeover begins where every die is done, and otherwise the turn overruns. A member of a spanning book that is done
while another is not, as far as it has heard, slips with it (R100). The turn that follows a stretch timeout ends aborted (R87). -/
def State.plannedBoundary (s : State) (p : Nat) : State :=
  let v := s.part p
  if v.stage ≠ .play ∨ v.pastEnd = true ∨ (s.phase p ≠ 1 ∧ s.phase p ≠ 3) then s
  else
    let s := s.modPart p (fun v => { v with pastEnd := true })
    if v.emptyTurn then (s.markAborted p abortStretch).enterChangeover p v.boundary
    else if s.allDone p ∧ ¬s.anyHalted p then
      let s := s.stampDone p v.boundary
      if s.membersDone p ∧ s.phase p = 1 then s.enterChangeover p v.boundary else s.setPhase p 3
    else s.overrun p

/-- The last done report of a spanning book carries this stamp (R100). -/
def State.lastStamp (s : State) (p : Nat) : Nat := (s.part p).doneStamps.foldl (fun n x => max n x.2.toNat) 0

/-- The changeover of a slip (R93, R100): 8 ticks after the last die is done, or for a spanning book 100 ticks after the stamp of
the last done report, which every member hears. Where no stamp is later than the boundary, no member has overrun, and the changeover is the
planned one. -/
def State.slipChangeover (s : State) (p : Nat) : State :=
  let v := s.part p
  if v.stage ≠ .play ∨ s.phase p ≠ 3 ∨ ¬s.allDone p ∨ s.anyHalted p ∨ ¬s.membersDone p then s
  else if !s.isMember p then
    (s.setReg .tnLastSlip p 0 (BitVec.ofNat 64 ((s.now - v.boundary).toNat % 2 ^ 32))).enterChangeover p s.now
  else
    let s := s.stampDone p s.now
    if s.lastStamp p ≤ v.boundary.toNat then s.enterChangeover p v.boundary
    else
      let tick := BitVec.ofNat 64 (s.lastStamp p + 100)
      (s.setReg .tnLastSlip p 0 (BitVec.ofNat 64 ((tick - v.boundary).toNat % 2 ^ 32))).enterChangeover p tick

/-- A partition enters debug pause (R97, R493, R494). -/
def State.debugPauseEntry (s : State) (p : Nat) : State := (s.setPhase p 5).bump .dbPauses p

/-- Expiry of the slip limit (R94, R97). -/
def State.slipLimit (s : State) (p : Nat) : State :=
  let v := s.part p
  if v.stage ≠ .play ∨ s.phase p ≠ 3 then s
  else if s.anyHalted p ∨ v.pausePending then s.debugPauseEntry p
  else if s.allDone p ∧ s.membersDone p then s
  else s.abortTurn p abortSlip

/-- A retrain of a resource of the partition waits for a maintenance turn (R449). -/
def State.maintWaits (s : State) (p : Nat) : Bool :=
  decide ((s.part p).retrains ≠ []) || (s.partQuads p).any (fun n => (s.quad n).maintWanted)

/-- At a changeover Tolerabor marks the next turn a maintenance turn where a retrain waits and the share allows it (R449, R450). The members of a
spanning book are told of a turn number that all of them can still meet. -/
def State.markMaint (s : State) (p : Nat) : State :=
  let v := s.part p
  if !s.up ∨ !s.maintWaits p then s.setFlag .tnMaint p 0 63 false
  else if !s.maintRoom p then s.setFlag .tnMaint p 0 63 true
  else
    let s := s.setFlag .tnMaint p 0 63 false
    if v.members = [] then s.modPart p (fun v => { v with maintNext := true })
    else if v.maintNext ∨ v.spanChanges.any (fun (_, _, _, _, _, maint) => maint) then s
    else s.announceChange p true

/-- End of the 500-tick drain (R94): the changeover work begins, or the partition enters debug pause while a rook is halted
(R493). -/
def State.drainEnd (s : State) (p chosenP : Nat) : State :=
  if (s.part p).stage ≠ .draining ∨ s.phase p ≠ 2 then s
  else if s.anyHalted p then s.debugPauseEntry p
  else (s.beginChangeover p chosenP).markMaint p

/-- The changeover's work at offset 0 to 16 (Table 3.3). -/
def State.changeoverStart (s : State) (p chosenP : Nat) : State :=
  if (s.part p).stage ≠ .begun then s else (s.beginChangeover p chosenP).markMaint p

/-- The clocks of a partition's dies change within offsets 16 to 216 (R88). -/
def State.clockStep (s : State) (p : Nat) : State :=
  let v := s.part p
  match v.stepPending with
  | some k =>
    if v.stage = .started ∨ v.stage = .worked then
      let s := (s.setField .tnStatus p 0 16 3 k.toNat).modPart p (fun v => { v with stepPending := none })
      (s.partRegions p).foldl (fun s r => s.setMargins r) s
    else s
  | none => s

/-- Context-cache work of a changeover in progress (R85, R525). -/
def State.changeoverWork (s : State) (p lines ops : Nat) (nodes : List Addr) : State :=
  if (s.part p).stage ≠ .started then s else s.contextWork p lines ops nodes

/-! The rook window -/

/-- The cell in a row's excluded column fails the pip check (R30, Table 1.8): SPARE_BAD, and an event whose severity the spec does not
state. -/
def State.spareFails (s : State) (p i row : Nat) : State :=
  (s.setSpareBad i row).event7FAny (some p) (siteSquare i) (if row < 8 then .mxRowMap0 else .mxRowMap1) 0 0 (leBytes 4 row)

/-- The pip check of a site (R124, R30, R414, R417): failing lists the physical cells that fail, row and column. -/
def State.pipCheck (s : State) (p i : Nat) (failing : List (Nat × Nat)) : State :=
  let d := s.die i
  let active := failing.any (fun (r, c) => s.activeCell i r c)
  let spare := failing.filter (fun (r, c) => decide (c = s.exclCol i r))
  let s := spare.foldl (fun s x => s.spareFails p i x.1) s
  let s := if failing = [] then s else s.bump .sfPipFails i
  let s := s.modDie i (fun d => { d with accum := [], bufs := [], pipNext := false, badCells := failing })
  if active then
    let first := ((d.lastPip + 1).toNat) % 2 ^ 32
    let last := (s.turn p).toNat % 2 ^ 32
    let s := s.setReg .ptPipSpan p 0 (BitVec.ofNat 64 (first * 2 ^ 32 + last))
    ((s.abortTurn p abortFence).takeOut p i causePip).safetyOut p i (leBytes 4 first ++ leBytes 4 last)
  else
    let s := s.modDie i (fun d => { d with lastPip := s.turn p })
    if d.pipNext then
      let s := s.bump .sfTwinMiss i
      let recent := ((s.part p).twinTurns.filter (fun (j, t) => decide (j = i ∧ (s.turn p - t).toNat ≤ 256))).length
      if 2 ≤ recent then ((s.abortTurn p abortFence).takeOut p i causeTwin).safetyOut p i else s
    else s

/-- The slice staged for a site, if its stamp is that of the turn that comes next (R245); otherwise an empty batch sheet. -/
def State.stagedRows (s : State) (p i : Nat) : List BatchRow :=
  match (s.part p).staged with
  | some (t, l) => if t = s.turn p + 1 then ((l.find? (fun x => decide (x.1 = i))).map Prod.snd).getD [] else []
  | none => []

/-- The rook reads its site's slice from the staging area (R57, R197): rows, tail-map entries, and the bytes that its copy takes. A slice with no
place in DRAM is taken as it was composed. Uncorrectable data leaves the site an empty sheet, and the rook reports it (Table 14.2). -/
def State.readSlice (s : State) (p i : Nat) : State × List (BatchRow × TailRun) × List Byte :=
  let rows := s.stagedRows p i
  let n := rows.length
  if s.sliceInDram p i n then
    match s.computeRead (Config.stagingArea p i) (64 * n) (siteSquare i) with
    | (s, .ok d) => (s, (List.range n).map (sliceRow d n i), d)
    | (s, .error _) => (s.modDie i (fun x => { x with rookFault := true }), [], [])
  else (s, rows.map (fun r => (r, s.tailEntry p i r)), s.sliceBytes p i rows)

/-- Bytes written into a site's SHEET region, those within it and in powered banks. -/
def State.writeSheet (s : State) (i : Nat) (l : List (Nat × Byte)) : State :=
  match s.sheetRegion i with
  | some (base, size) => l.foldl (fun (s : State) (o, b) =>
      if o < size ∧ s.banksOn i (base + o) 1 then s.setDieBytes i (base + o) [b] else s) s
  | none => s

/-- The table that the rook of a site copies for the map switch or the load in progress (R202, R206): the target map's. -/
def State.copyNext (s : State) (p i : Nat) : State :=
  let book := match (s.part p).loading with
    | some l => some l.book
    | none => s.book p
  match (s.part p).switch, book with
  | some w, some b => s.copyStandby p b false w.target i
  | _, _ => s

/-- The rook window at one site (R124, R197, R199): the slice is copied into the SHEET region, the rook program writes the sheets, the tail map is
installed, the pip check runs where it is due, and the table copy that a map switch awaits may end. -/
def State.rookWindow (s : State) (i : Nat) (sheets : List (Nat × Byte)) (failing : List (Nat × Nat)) (copied : Bool) : State :=
  match s.siteOwner i with
  | none => s
  | some p =>
    if (s.part p).stage ≠ .worked ∨ ¬s.inService i then s
    else
      let (s, rows, bytes) := s.readSlice p i
      let s := (s.writeSheet i (bytes.mapIdx (fun k b => (Config.sliceCopy i + k, b)))).writeSheet i sheets
      let s := s.modDie i (fun d => { d with batchCopy := rows.map Prod.fst, tailMap := rows.map Prod.snd, notAdvanced := [] })
      let s := if copied then
          ((s.copyNext p i).modDie i (fun d => { d with standbyReady := true })).modPart p (fun v =>
            { v with switch := v.switch.map (fun w => { w with copied := Sparse.insertNat w.copied i }) })
        else s
      if (s.die i).pipNext || decide ((s.turn p).toNat % 256 = i) then s.pipCheck p i failing else s

/-- The rooks that the start-of-play barrier waits for (R87): those of sites in service, while a book is loaded. -/
def State.awaitedRooks (s : State) (p : Nat) : List Nat :=
  if s.bookLoaded p then (s.enabledSites p).filter (fun i => s.inService i) else []

/-- The rooks not ready for play. -/
def State.lateRooks (s : State) (p : Nat) : List Nat := (s.awaitedRooks p).filter (fun i => !(s.die i).rookReady)

/-- Every rook is ready: play begins at a tick (R80, R87). -/
def State.setPlay (s : State) (p : Nat) (tick : Word) : State :=
  s.modPart p (fun v => { v with stage := .ready, nextPlay := some tick })

/-- A rook reports that it is ready (R87): in a stretched changeover play begins 64 ticks after the last. -/
def State.rookIsReady (s : State) (i : Nat) : State :=
  match s.siteOwner i with
  | none => s
  | some p =>
    if (s.part p).stage ≠ .worked ∨ ¬s.inService i ∨ (s.die i).rookReady = true then s
    else
      let s := (s.modDie i (fun d => { d with rookReady := true })).gatherTree .ready (siteSquare i) 4
      if s.phase p = 4 ∧ s.lateRooks p = [] then (s.setPlay p (s.now + 64)).modPart p (fun v => { v with lateRooks := [] }) else s

/-- The start-of-play barrier (R87). A partition that is to stop does so here: its turn ends and no other begins (R247, R502). -/
def State.playBarrier (s : State) (p : Nat) : State :=
  let v := s.part p
  if v.stage ≠ .worked ∨ s.phase p ≠ 2 then s
  else if v.stopNext then s.endTurns p
  else if s.lateRooks p = [] then
    (s.setPlay p (v.chgBase + BitVec.ofNat 64 v.chgNow)).modPart p (fun v => { v with lateRooks := [] })
  else (s.setPhase p 4).bump .tnStretches p

/-- Some rook is still not ready at c + 2 × CHG_LEN (R87): the next turn begins with no moves; a rook late a second time in
consecutive changeovers is locked up, and its site goes out of service (R36, Table 15.2). -/
def State.stretchTimeout (s : State) (p : Nat) : State :=
  let v := s.part p
  if v.stage ≠ .worked ∨ s.phase p ≠ 4 then s
  else
    let late := s.lateRooks p
    let twice := late.filter (fun i => decide (i ∈ v.lateRooks))
    let s := (s.setPlay p (v.chgBase + BitVec.ofNat 64 (2 * v.chgNow))).modPart p (fun v =>
      { v with lateRooks := late, emptyNext := true })
    twice.foldl (fun s i => (s.takeOut p i causeLockup).safetyOut p i) s

/-- Every die has yielded (R196): the changeover begins 8 ticks later and the turn ends aborted, with the cause PREEMPTED. -/
def State.preempted (s : State) (p : Nat) : State :=
  let yielded := (s.enabledSites p).all (fun i => s.dieDone p i || s.flag .sqStatus i 0 19 || s.flag .sqStatus i 0 18)
  if !s.inPlay p || !s.flag .sqPreempt p 0 0 || !yielded || s.anyHalted p then s
  else ((s.markAborted p abortPreempt).bump .sqYields p).enterChangeover p s.now

/-! The game clock -/

/-- The corrections of local copies on a tick at which the counter advances by n (R71): a copy ahead is held until the counter has come up to it, and
a copy behind advances by two. Neither makes a copy go back (R72). -/
def Clock.converge (c : Clock) (n : Nat) : Clock :=
  c.fixing.foldl (fun c (q, d) =>
    let k : Int := if 0 < d then -(min (n : Int) d) else min (2 - (n : Int)) (-d)
    { c with
      offsets := Sparse.nset 0 c.offsets q (Sparse.nget 0 c.offsets q + k)
      fixing := Sparse.nset 0 c.fixing q (d + k) }) c

/-- The partitions whose next play begins at the present tick (R80, R83). -/
def State.beginPlays (s : State) : State :=
  s.formedParts.foldl (fun s p =>
    match (s.part p).nextPlay with
    | some t => if (s.part p).stage = .ready ∧ t.toNat ≤ s.now.toNat then s.beginPlay p t else s
    | none => s) s

/-- One tick, on which the counter advances by n: 1, or 0 or 2 where it is slewed (R70, R74). -/
def State.advanceClock (s : State) (n : Nat) : State :=
  ({ s with clock := { s.clock with counter := s.clock.counter + BitVec.ofNat 64 n }.converge n }).beginPlays

/-- The game clock advances by one (R70). -/
def State.gameTick (s : State) : State := if s.clock.running then s.advanceClock 1 else s

/-- On one tick in 10,000 the counter advances by 2 or 0 while slew remains (R74). -/
def State.slewTick (s : State) : State :=
  if !s.clock.running || decide (s.clock.slew = 0) then s
  else
    let k : Int := if 0 < s.clock.slew then 1 else -1
    let s := { s with clock := { s.clock with slew := s.clock.slew - k } }
    let s := s.setFlag .gcStatus 0 0 2 (decide (s.clock.slew ≠ 0))
    s.advanceClock (if k = 1 then 2 else 0)

/-- A TIME message at a square (R71, R236): the carried value plus SN_TIME_LAT in ticks, rounded to nearest, at 15 panel cycles a
tick. Before Ready the copy takes it; afterwards a copy off by more than 2 ticks is corrected, and GC_FIX counts it. -/
def State.timeMessage (s : State) (q : Nat) (value : BitVec 56) : State :=
  let s := s.bump .snMsgs q
  let lat := (2 * s.field .snTimeLat q 0 0 8 + 15) / 30
  let d : Int := ((s.now q).setWidth 56 - (value + BitVec.ofNat 56 lat)).toInt
  if !s.ready then
    { s with clock := { s.clock with
      offsets := Sparse.nset 0 s.clock.offsets q (Sparse.nget 0 s.clock.offsets q - d), fixing := Sparse.ndrop s.clock.fixing q } }
  else if d.natAbs ≤ 2 then s
  else ({ s with clock := { s.clock with fixing := Sparse.nset 0 s.clock.fixing q d } }).bump .gcFix q

/-- CLK_REF is lost (R73). -/
def State.refLoss (s : State) : State :=
  let s := ((s.setFlag .gcStatus 0 0 0 true).setFlag .gcStatus 0 0 1 false).alert
  s.event7F .error none 15 .gcStatus

/-- CLK_REF is back (R73): the PLL relocks, and the difference is removed by slewing. -/
def State.refRelock (s : State) (difference : BitVec 32) : State :=
  if !s.flag .gcStatus 0 0 0 then s
  else
    let s := ((s.setFlag .gcStatus 0 0 0 false).setFlag .gcStatus 0 0 1 true).releaseAlert
    s.setSlew (BitVec.ofInt 32 (s.clock.slew + difference.toInt))

/-! The meanings -/

def execPlayStart (site : Nat) (s : State) : Answered := .next (s.playStart site)
def execDieDone (site : Nat) (cycle : Word) (s : State) : Answered := .next (s.finishDie site cycle)
def execPlannedBoundary (part : Nat) (s : State) : Answered := .next (s.plannedBoundary part)
def execSlipChangeoverStart (part : Nat) (s : State) : Answered := .next (s.slipChangeover part)
def execSlipLimit (part : Nat) (s : State) : Answered := .next (s.slipLimit part)
def execClockStepChange (part : Nat) (s : State) : Answered := .next (s.clockStep part)
def execChangeoverWork (part lines ops : Nat) (nodes : List Addr) (s : State) : Answered := .next (s.changeoverWork part lines ops nodes)
def execRookWindow (site : Nat) (sheets : List (Nat × Byte)) (failing : List (Nat × Nat)) (copied : Bool) (s : State) : Answered :=
  .next (s.rookWindow site sheets failing copied)
def execRookReady (site : Nat) (s : State) : Answered := .next (s.rookIsReady site)
def execStartOfPlayBarrier (part : Nat) (s : State) : Answered := .next (s.playBarrier part)
def execStretchTimeout (part : Nat) (s : State) : Answered := .next (s.stretchTimeout part)
def execPreemptionComplete (part : Nat) (s : State) : Answered := .next (s.preempted part)
def execGameClockTick (s : State) : Answered := .next s.gameTick
def execSlewAdjust (s : State) : Answered := .next s.slewTick
def execTime (square : Nat) (value : BitVec 56) (s : State) : Answered := .next (s.timeMessage square value)

/-- The Clock square sends its value to every square (R71, R234); each receipt is a TIME of its own. -/
def execTimeBroadcast (s : State) : Answered :=
  .next ((s.bump .snMsgs 15).snSend 15 ((List.range 4).filter (fun d => (neighbour 15 d).isSome)) (snMessage snTime ((s.now 15).setWidth 56)))

/-- BOUNDARY at a square (R234, R220): the changeover begins, and the square's wheel stops. -/
def execBoundary (square : Nat) (turn : BitVec 56) (s : State) : Answered :=
  let s := (s.bump .snMsgs square).snDown square (snMessage snBoundary turn)
  match s.owner square with
  | some p => if (s.turn p).toNat % 2 ^ 56 = turn.toNat ∧ s.phase p = 2 then .next (s.setFlag .bnStatus square 0 8 false) else .next s
  | none => .next s

def execDone (square fromDir : Nat) (s : State) : Answered := .next (s.treeReceipt .done square fromDir)
def execReady (square fromDir : Nat) (s : State) : Answered := .next (s.treeReceipt .ready square fromDir)
def execYielded (square fromDir : Nat) (s : State) : Answered := .next (s.treeReceipt .yielded square fromDir)

/-- PREEMPT at a square (R234, R196): a die that is done counts as yielded. -/
def execPreempt (square : Nat) (s : State) : Answered :=
  let s := (s.bump .snMsgs square).snDown square (snMessage snPreempt 0)
  match s.owner square, squareSite square with
  | some p, some i =>
    if s.flag .sqPreempt p 0 0 && s.inPlay p && s.dieDone p i && s.siteEnabled i then
      .next ((s.setFlag .sqStatus i 0 19 true).gatherTree .yielded square 4)
    else .next (s.passUp .yielded square)
  | some _, none => .next (s.passUp .yielded square)
  | none, _ => .next s

/-- ABORT at a square (R234, R94): the sequencer of its die stops at its next move boundary and discards what it has not started. -/
def execAbort (square : Nat) (s : State) : Answered :=
  let s := (s.bump .snMsgs square).snDown square (snMessage snAbort 0)
  match s.owner square, squareSite square with
  | some p, some i =>
    if (s.part p).stage = .draining then .next (s.modDie i (fun d => { d with playing := false, check := none })) else .next s
  | _, _ => .next s

def execClkRefLoss (s : State) : Answered := .next s.refLoss
def execClkRefRelock (difference : BitVec 32) (s : State) : Answered := .next (s.refRelock difference)

/-- A crossing's phase margin falls below its threshold (R78). -/
def execCrossingMarginLow (square : Nat) (s : State) : Answered :=
  .next ((s.bump .xlMargin square).event7F .warning (s.owner square) square .xlMargin)

end Sys2Proof.Machine
end

