-- ==== Sys2Proof/Machine/Transcend.lean ====
section
/-! DEFINITION. What the transcendental functions may give (R159): the exact value of EXP, LOG, RSQRT, TANH and SIGMOID at a finite
binary32 operand, to far more bits than binary32 holds, and the binary32 values within 2 units in the last place of it. -/

namespace Sys2Proof.Machine

/-! Fixed point with 320 bits of fraction. Every function below is exact to more than 100 significant bits on the operands it is used for. -/

/-- One, in fixed point. -/
def fixOne : Nat := 2 ^ 320

/-- A finite number in fixed point, its magnitude held to 200: beyond, EXP, TANH and SIGMOID have no other results. -/
def fixOf : Number → Int
  | .fin neg m e =>
    let a : Nat := if magLe 200 0 m e then 200 * fixOne else if 0 ≤ e + 320 then m * 2 ^ (e + 320).toNat else m / 2 ^ (-e - 320).toNat
    if neg then -(a : Int) else a
  | _ => 0

/-- 2 × atanh z for z between 0 and 1/3: the odd powers of z over their exponents. -/
def fixAtanh2 (z : Nat) : Nat :=
  ((List.range 110).foldl (fun ((t, p) : Nat × Nat) k => (t + p / (2 * k + 1), p * z / fixOne * z / fixOne)) (0, z)).1 * 2

/-- ln 2 = 2 × atanh (1/3). -/
def fixLn2 : Nat := fixAtanh2 (fixOne / 3)

/-- e^x: a fixed-point number from 1 to 2, and the power of two that it counts. -/
def fixExp (x : Int) : Nat × Int :=
  let k := x / (fixLn2 : Int)
  let r := (x - k * (fixLn2 : Int)).toNat
  (((List.range 80).foldl (fun ((t, p) : Nat × Nat) n => (t + p, p * r / fixOne / (n + 1))) (0, fixOne)).1, k)

/-- e^x in fixed point, for x at most 0. -/
def fixExpNeg (x : Int) : Nat := let (t, k) := fixExp x; t / 2 ^ (-k).toNat

/-- ln of m × 2^e, m not zero, as a number. -/
def exactLog (m : Nat) (e : Int) : Number :=
  let l := m.log2
  let z := (m - 2 ^ l) * fixOne / (m + 2 ^ l)
  let v : Int := ((l : Int) + e) * (fixLn2 : Int) + (fixAtanh2 z : Int)
  .fin (decide (v < 0)) v.natAbs (-320)

/-- The exact value of a transcendental function, by its code, at a finite operand in its domain. -/
def exactly (code : Nat) (x : Number) : Number :=
  let v := fixOf x
  match code, x with
  | 0x10, _ => let (t, k) := fixExp v; .fin false t (k - 320)
  | 0x11, .fin _ m e => exactLog m e
  | 0x12, _ => ((Number.ofInt 1).div x.sqrt.1).1
  | 0x13, .fin neg _ _ =>
    let t := fixExpNeg (-2 * (v.natAbs : Int))
    .fin neg ((fixOne - t) * fixOne / (fixOne + t)) (-320)
  | _, _ =>
    let t := fixExpNeg (-(v.natAbs : Int))
    .fin false ((if v < 0 then t else fixOne) * fixOne / (fixOne + t)) (-320)

/-! The results within 2 ulp -/

/-- n × 2^q as binary32, with its sign turned where asked: the number itself, or infinity where it is past the largest finite one; none
where binary32 does not hold it. A zero may have either sign. -/
def asFp32 (neg : Bool) (n q : Int) : List Number :=
  if n = 0 then [.fin false 0 0, .fin true 0 0]
  else
    let x : Number := .fin (neg != decide (n < 0)) n.natAbs q
    match (fp32.round .rtz 0 false x).1 with
    | .fin b m e => if magLe m e n.natAbs q && magLe n.natAbs q m e then [.fin b m e]
        else if magLe (2 ^ 24) 104 n.natAbs q then [.inf b] else []
    | _ => []

/-- The binary32 values within 2 ulp of a finite number, the ulp being that of the number's own magnitude. A margin of one part in 2^40 of
that distance covers the error of the fixed-point arithmetic. -/
def near2ulp : Number → List Number
  | .fin neg m e =>
    let q := fp32.spacing m e - 1
    let low := min e q
    let v : Int := scaleTo m e low
    let unit : Int := scaleTo 1 q low
    let t := v / unit
    ((List.range 11).map (fun k => t + (k : Int) - 5)).flatMap (fun n =>
      if ((n * unit - v).natAbs : Int) * 2 ^ 40 ≤ 4 * unit * (2 ^ 40 + 1) then asFp32 neg n q else [])
  | x => [x]

/-- One of the values within 2 ulp of a number, by its place among them. -/
def within2ulp (x : Number) (choice : Nat) : Number :=
  let l := near2ulp x
  l.getD (choice % l.length) ((fp32.round .rne 0 false x).1)

end Sys2Proof.Machine
end

