-- ==== Sys2Proof/Machine/VecFunc.lean ====
section
/-! DEFINITION. The arithmetic of the vector engine (R157 to R165): element functions, reductions, normalisations, top-k, the random
generator and sampling, on rows of exact numbers. -/

namespace Sys2Proof.Machine

/-- The functions of Table 6.4. -/
inductive VecFunc where
  | add | sub | mul | fma | min | max | select | div | sqrt | recip | exp | log | rsqrt | tanh | sigmoid | iadd | imul | cvt
  | rsum | rmax | rmin | csum | cmax | cmin | softmax | lnorm | rmsnorm | topk | rand | sample | sb3enc
  deriving DecidableEq, Repr

/-- The data inputs of a function in the order of Table 6.4, before any key record of SR (R164). -/
def VecFunc.inputs : VecFunc → Nat
  | .add | .sub | .mul | .min | .max | .div | .iadd | .imul | .rmsnorm | .sb3enc => 2
  | .fma | .select | .softmax | .lnorm | .sample => 3
  | _ => 1

/-- The operand-list slots that hold a key record or a header record, and not data (R152). -/
def VecFunc.records (f : VecFunc) (sb3Out : Bool) : List Nat :=
  match f with
  | .rand => [0]
  | .sample => [1]
  | .sb3enc => [1]
  | .cvt => if sb3Out then [1] else []
  | _ => []

/-- The counter of a function's moves (Table 6.6). -/
def VecFunc.counter : VecFunc → Option RegName
  | .add | .sub | .mul | .fma | .min | .max | .select | .iadd | .imul => some .vxOpsEw
  | .div | .sqrt | .recip | .exp | .log | .rsqrt | .tanh | .sigmoid => some .vxOpsTr
  | .cvt => some .vxOpsCvt
  | .rsum | .rmax | .rmin | .csum | .cmax | .cmin => some .vxOpsRed
  | .softmax | .lnorm | .rmsnorm => some .vxOpsFused
  | .topk | .rand | .sample => some .vxOpsSel
  | .sb3enc => none

/-! Element functions -/

/-- The functions that ignore RND (R159, R161) and round to nearest even throughout, as R135 has an operation that names no mode do.
DEDUCED (log 30): to ignore RND covers the conversions into and out of binary32 too. -/
def VecFunc.ignoresRnd (f : VecFunc) : Bool := decide (f ∈ [VecFunc.exp, .log, .rsqrt, .tanh, .sigmoid, .rsum, .csum])

/-- Round a result to the working format: binary32, or the stream format of a packed operation (R157, R158). -/
def rounded (f : FloatFmt) (r : Rnd) (x : Number × Flags) : Number × Flags :=
  let (y, g) := f.round r.inner 0 false x.1
  (y, x.2.join g)

/-- An input as binary32 (R157). A NaN that is read sets NAN_IN (Table 6.8). -/
def read32 (r : Rnd) (x : Number) : Number × Flags :=
  let (y, g) := x.to32 r.inner
  (y, g.join { nanIn := x.isNan })

/-- Strictly less, as numbers; −0 before +0 where signed. No NaN is passed. -/
def numberLt (signedZero : Bool) (a b : Number) : Bool :=
  match a, b with
  | .inf true, .inf true => false
  | .inf true, _ => true
  | _, .inf true => false
  | .inf false, _ => false
  | _, .inf false => true
  | .fin n1 m1 e1, .fin n2 m2 e2 =>
    if m1 = 0 ∧ m2 = 0 then signedZero && n1 && !n2
    else
      let q := min e1 e2
      let x : Int := scaleTo m1 e1 q
      let y : Int := scaleTo m2 e2 q
      decide ((if n1 then -x else x) < (if n2 then -y else y))
  | _, _ => false

/-- MIN and MAX (R159): the other operand where one is NaN, with NAN_IN; −0 is smaller than +0. -/
def minOf (a b : Number) : Number × Flags :=
  if a.isNan then (b, { nanIn := true }) else if b.isNan then (a, { nanIn := true })
  else (if numberLt true b a then b else a, {})

def maxOf (a b : Number) : Number × Flags :=
  if a.isNan then (b, { nanIn := true }) else if b.isNan then (a, { nanIn := true })
  else (if numberLt true a b then b else a, {})

/-- A transcendental function (R159): its fixed cases, and otherwise a result of the fixed method, which lies within 2 ulp. log(+Inf) and
rsqrt(+Inf) are those of IEEE 754 (Table 6.9). -/
def transcend (f : VecFunc) (x : Number) : Number × Flags :=
  let free (k : Nat) : Number × Flags :=
    let y := within2ulp (exactly k x) (Config.transcendental k (BitVec.ofNat 32 (fp32.code x)))
    (y, { of := decide (y = .inf false) })
  if x.isNan then (.nan, { nanIn := true })
  else match f with
    | .exp => match x with
      | .inf neg => if neg then (.fin false 0 0, {}) else (.inf false, {})
      | _ => free 0x10
    | .log =>
      if x.isZero then (.inf true, { dz := true })
      else if x.isNeg then (.nan, { nv := true })
      else if x = .inf false then (.inf false, {})
      else free 0x11
    | .rsqrt =>
      if x.isZero then (.inf x.isNeg, { dz := true })
      else if x.isNeg then (.nan, { nv := true })
      else if x = .inf false then (.fin false 0 0, {})
      else free 0x12
    | .tanh => match x with
      | .inf neg => (.fin neg 1 0, {})
      | _ => free 0x13
    | _ => match x with
      | .inf neg => (if neg then .fin false 0 0 else .fin false 1 0, {})
      | _ => free 0x14

/-- One element of an element-wise function on numbers of the working format. -/
def element (f : VecFunc) (w : FloatFmt) (r : Rnd) (a b c : Number) : Number × Flags :=
  match f with
  | .add => rounded w r (a.add r.inner b)
  | .sub => rounded w r (a.add r.inner b.neg)
  | .mul => rounded w r (a.mul b)
  | .fma => rounded w r (a.fma r.inner b c)
  | .min => minOf a b
  | .max => maxOf a b
  | .select => (if c.isZero then b else a, {})
  | .div => rounded w r (a.div b)
  | .sqrt => rounded w r a.sqrt
  | .recip => rounded w r ((Number.ofInt 1).div a)
  | _ => transcend f a

/-- A number as INT32, by its bits (R159: IADD and IMUL work on INT32). -/
def toInt32 (r : Rnd) (x : Number) : BitVec 32 × Flags :=
  let (c, f) := intEncode 32 0 r.inner 0 x
  (BitVec.ofNat 32 c, f)

/-- IADD and IMUL, which wrap without a flag. -/
def intElement (f : VecFunc) (r : Rnd) (a b : Number) : Number × Flags :=
  let (x, fx) := toInt32 r a
  let (y, fy) := toInt32 r b
  let z := if f = .iadd then x + y else x * y
  (Number.ofInt z.toInt, fx.join fy)

/-! Reductions (R161) -/

/-- Combine two numbers of a reduction: a sum to nearest even, the larger, or the smaller. -/
def combine (f : VecFunc) (a b : Number) : Number × Flags :=
  match f with
  | .rsum | .csum => rounded fp32 .rne (a.add .rne b)
  | .rmax | .cmax => maxOf a b
  | _ => minOf a b

/-- Fold a list from its first element. -/
def foldCombine (f : VecFunc) : List Number → Option (Number × Flags)
  | [] => none
  | x :: l => some (l.foldl (fun (a, g) y =>
      let (z, h) := combine f a y
      (z, g.join h)) (x, {}))

/-- One level of the lane-end tree: neighbours in pairs, the lower index first; a partial with no element takes no part. -/
def treeLevel (f : VecFunc) : List (Option (Number × Flags)) → List (Option (Number × Flags))
  | a :: b :: l =>
    (match a, b with
      | some (x, g), some (y, h) =>
        let (z, k) := combine f x y
        some (z, (g.join h).join k)
      | some x, none => some x
      | none, y => y) :: treeLevel f l
  | l => l

/-- A row reduction: 32 partials, then five levels of the tree. -/
def rowReduce (f : VecFunc) (l : List Number) : Number × Flags :=
  let partials := (List.range 32).map (fun j =>
    foldCombine f ((List.range (l.length / 32 + 1)).filterMap (fun k => l[j + 32 * k]?)))
  let t := treeLevel f (treeLevel f (treeLevel f (treeLevel f (treeLevel f partials))))
  (t.headD none).getD (.fin false 0 0, {})

/-! Fused rows (R162) -/

def joinAll (l : List (Number × Flags)) : Flags := l.foldl (fun f x => f.join x.2) {}
def firsts (l : List (Number × Flags)) : List Number := l.map (fun x => x.1)

def add32 (a b : Number) : Number × Flags := rounded fp32 .rne (a.add .rne b)
def sub32 (a b : Number) : Number × Flags := rounded fp32 .rne (a.add .rne b.neg)
def mul32 (a b : Number) : Number × Flags := rounded fp32 .rne (a.mul b)
def fma32 (a b c : Number) : Number × Flags := rounded fp32 .rne (a.fma .rne b c)
def div32 (a b : Number) : Number × Flags := rounded fp32 .rne (a.div b)

def softmaxRow (x scale bias : List Number) : List Number × Flags :=
  let z := x.zipIdx.map (fun (v, k) => fma32 (scale.getD k (Number.ofInt 1)) v (bias.getD k (.fin false 0 0)))
  let (m, fm) := rowReduce .rmax (firsts z)
  if m = .inf true then (x.map (fun _ => .fin false 0 0), {})
  else
    let d := (firsts z).map (fun v => sub32 v m)
    let e := (firsts d).map (fun v => transcend .exp v)
    let (t, ft) := rowReduce .rsum (firsts e)
    let (q, fq) := div32 (Number.ofInt 1) t
    let y := (firsts e).map (fun v => mul32 v q)
    (firsts y, (((((joinAll z).join fm).join (joinAll d)).join (joinAll e)).join (ft.join fq)).join (joinAll y))

def lnormRow (x gamma beta : List Number) (eps : Number) : List Number × Flags :=
  let n := (Number.ofInt x.length).to32 .rne
  let (t, f1) := rowReduce .rsum x
  let (mu, f2) := div32 t n.1
  let d := x.map (fun v => sub32 v mu)
  let p := (firsts d).map (fun v => mul32 v v)
  let (u, f3) := rowReduce .rsum (firsts p)
  let (v, f4) := div32 u n.1
  let (w, f5) := add32 v eps
  let (q, f6) := transcend .rsqrt w
  let g := (firsts d).map (fun v => mul32 v q)
  let y := (firsts g).zipIdx.map (fun (v, k) => fma32 v (gamma.getD k (.fin false 0 0)) (beta.getD k (.fin false 0 0)))
  (firsts y, ((((((f1.join f2).join (joinAll d)).join (joinAll p)).join (f3.join f4)).join (f5.join f6)).join (joinAll g)).join
    (joinAll y))

def rmsnormRow (x gamma : List Number) (eps : Number) : List Number × Flags :=
  let n := (Number.ofInt x.length).to32 .rne
  let p := x.map (fun v => mul32 v v)
  let (t, f1) := rowReduce .rsum (firsts p)
  let (ms, f2) := div32 t n.1
  let (w, f3) := add32 ms eps
  let (q, f4) := transcend .rsqrt w
  let g := x.map (fun v => mul32 v q)
  let y := (firsts g).zipIdx.map (fun (v, k) => mul32 v (gamma.getD k (.fin false 0 0)))
  (firsts y, (((((joinAll p).join f1).join (f2.join f3)).join f4).join (joinAll g)).join (joinAll y))

/-! Top-k (R163) -/

/-- An element comes before another: larger, NaN below −Inf, equal values in index order. -/
def ranksBefore (a b : Nat × Number) : Bool :=
  if a.2.isNan then b.2.isNan && decide (a.1 < b.1)
  else if b.2.isNan then true
  else numberLt false b.2 a.2 || (!numberLt false a.2 b.2 && decide (a.1 < b.1))

def insertRank (x : Nat × Number) : List (Nat × Number) → List (Nat × Number)
  | [] => [x]
  | y :: l => if ranksBefore x y then x :: y :: l else y :: insertRank x l

/-- The k largest elements of a row and their indices; places left over hold −Inf and −1. -/
def topkRow (k : Nat) (x : List Number) : List Number × List Number :=
  let sorted := (x.zipIdx.foldl (fun l (v, n) => (insertRank (n, v) l).take k) []).take k
  let pad := k - sorted.length
  (sorted.map (fun y => y.2) ++ List.replicate pad (.inf true),
   sorted.map (fun y => Number.ofInt y.1) ++ List.replicate pad (Number.ofInt (-1)))

/-! The random generator (R164) -/

def drawStep (key x : Word) (n : Nat) : Word :=
  let x := x + key + BitVec.ofNat 64 n
  let x := x ^^^ (x >>> 29)
  let x := x * 0xB51E36C92A7DF043
  x ^^^ (x >>> 32)

def drawNumber (key ctr : Word) : Word :=
  let k1 := key.rotateLeft 23
  let k2 := k1.rotateLeft 23
  let k3 := k2.rotateLeft 23
  drawStep k3 (drawStep k2 (drawStep k1 (drawStep key ctr 0) 1) 2) 3

/-- The key and counter base of a record of four INT32 words. -/
def keyRecord (l : List Number) : Word × Word :=
  let w (k : Nat) : Nat := (toInt32 .rne (l.getD k (.fin false 0 0))).1.toNat
  (BitVec.ofNat 64 (w 0 + w 1 * 2 ^ 32), BitVec.ofNat 64 (w 2 + w 3 * 2 ^ 32))

def drawOf (rec : Word × Word) (d : Nat) : Word := drawNumber rec.1 (rec.2 + BitVec.ofNat 64 d)

/-- Draw bits [63:40] × 2^−24. -/
def unitDraw (w : Word) : Number := .fin false (bitsAt w 40 24) (-24)

/-- SAMPLE of a row (R165). -/
def sampleRow (p ids : List Number) (useIds : Bool) (rec : Word × Word) : Number × Flags :=
  let clean (x : Number) : Number × Flags :=
    if x.isNan then (.fin false 0 0, { nv := true, nanIn := true })
    else if x.isNeg ∧ x.isZero = false then (.fin false 0 0, { nv := true })
    else (x, {})
  let ps := p.map clean
  let run := (firsts ps).foldl (fun ((c, l, f) : Number × List Number × Flags) x =>
    if l = [] then (x, [x], f)
    else
      let (y, g) := add32 c x
      (y, l ++ [y], f.join g)) (.fin false 0 0, [], {})
  let last := run.1
  let (t, ft) := mul32 (unitDraw (drawOf rec 0)) last
  let pick := if last.isZero ∨ t.isNan then none else run.2.1.findIdx? (fun c => numberLt false t c)
  let id := match pick with
    | some k => if useIds then ids.getD k (Number.ofInt (-1)) else Number.ofInt k
    | none => Number.ofInt (-1)
  (id, ((joinAll ps).join run.2.2).join ft)

end Sys2Proof.Machine
end

