-- ==== Sys2Proof/Machine/Vector.lean ====
section
/-! DEFINITION. A vector operation on its streams (R148 to R173): shapes, masks, the rows it computes and writes, SB3 groups, tiles and
accumulators it consumes, and where it stops. -/

namespace Sys2Proof.Machine

/-- A vector operation as it runs: function, rounding, streams by slot, output streams, parameter, mask and ganging mode. -/
structure VecOp where
  func : VecFunc
  rnd : Rnd
  ins : List (Option VStream)
  outs : List (Option VStream)
  param : BitVec 32
  mask : BitVec 10
  mode : Nat
  deriving Repr

def VecOp.input (o : VecOp) (k : Nat) : Option VStream := (o.ins.getD k none)
def VecOp.output (o : VecOp) (k : Nat) : Option VStream := (o.outs.getD k none)
/-- The rounding mode that the operation takes: nearest even where its function ignores RND (R159, R161, R135). -/
def VecOp.mode? (o : VecOp) : Rnd := if o.func.ignoresRnd then .rne else o.rnd
def VecOp.sb3Out (o : VecOp) : Bool := match o.output 0 with
  | some v => decide (v.fmt = fmtSb3)
  | none => false

/-- The stream that gives the operation's shape (R152). -/
def VecOp.shape (o : VecOp) : Option VStream :=
  let data := (List.range o.func.inputs).filter (fun k => decide (k ∉ o.func.records o.sb3Out))
  match data.findSome? (fun k => match o.input k with
    | some v => if v.kind = 1 then none else some v
    | none => none) with
  | some v => some v
  | none => o.output 0

/-- The slot of the key record of an operation under SR (R164). -/
def VecOp.srSlot (o : VecOp) : Nat := o.func.inputs

/-- Read the operation that a VEC move names (R183), in the ganging mode that it runs in; none where a descriptor it needs is missing. -/
def State.vecOp (s : State) (p i : Nat) (func : VecFunc) (mask : BitVec 10) (v : VecFields) (mode : Nat) : Option VecOp :=
  (s.opList p i v.oplist.toNat).map (fun l =>
    let slot (k : Nat) : Option VStream := (s.vectorDesc p i (opSlot l k)).map (fun d => { desc := d })
    { func := func, rnd := rndOf v.rnd.toNat, ins := (List.range 8).map slot, outs := [slot 8, slot 9], param := v.param,
      mask := mask, mode := mode })

/-- What stops an operation part way. -/
inductive VecStop where
  | bus (st : Status) (flags : Flags)
  deriving Repr

/-! Writing a row -/

/-- Encode a row of results for an output stream and write it (R134 to R137): draws gives the draw of each element under SR. -/
def State.putRow (s : State) (p i mode : Nat) (v : VStream) (r : Nat) (rnd : Rnd) (draws : List Nat) (l : List Number) :
    Except VecStop (State × Flags) :=
  let (el, mx) := v.elem
  let rnd := if rnd = .sr ∧ el.allowsSr = false then .rne else rnd
  let out : List Nat × List Nat × Flags :=
    if mx then
      (List.range (l.length / 32)).foldl (fun (cs, sc, f) b =>
        let (x, c, g) := mxEncode el rnd ((draws.drop (32 * b)).take 32) ((l.drop (32 * b)).take 32)
        (cs ++ c, sc ++ [x], f.join g)) ([], [], {})
    else
      let cs := l.zipIdx.map (fun (x, k) => el.encode rnd (draws.getD k 0) false x)
      (cs.map (fun c => c.1), [], cs.foldl (fun f c => f.join c.2) {})
  match s.writeRow p i mode v r out.1 out.2.1 with
  | .error e => .error (.bus e out.2.2)
  | .ok (s, g) => .ok (s, out.2.2.join g)

/-! Reading rows -/

/-- The granule that row r of an SB3 stream belongs to, read and checked (R143, R527). A granule that fails its checks is a bus error
in every mode, and the event names its address. -/
def State.vecGranule (s : State) (p i mode : Nat) (v : VStream) (r : Nat) : State × Except VecStop (List Byte × Bool) :=
  match s.rowPlace p i (decide (mode = 0)) v (16 * (r / 16)) with
  | .error e => (s, .error (.bus e {}))
  | .ok pl =>
    match pl.place with
    | none => (s, .ok (List.replicate 1024 0, true))
    | some place =>
      match s.fetchGranule place (decide (mode = 0)) pl.start with
      | .error e => (s, .error (.bus e {}))
      | .ok (g, c) =>
        if sb3Good g then (s, .ok (g, c || pl.clamped))
        else
          let a := match place with
            | .die j b _ => dieBase j + b + pl.start.toNat
            | _ => 0
          (s.eventStatus (RegName.vxStatus).info.block .uncorrectable .error (some p) (siteSquare i) (leBytes 8 a), .error (.bus .uncorrectable {}))

/-- The state line that row r of a STATE stream reads, if the stream is one (R155). -/
def State.vecStateRow (s : State) (p i mode : Nat) (v : VStream) (r : Nat) : Except Status StateRow :=
  match s.indexOf p i (decide (mode = 0)) v.aux r with
  | .error e => .error e
  | .ok (x, _) =>
    let (h, slot) := s.rowStream i (v.sel % 65536) r
    .ok { row := r, handle := h, slot := slot, line := (BitVec.ofInt 32 x).toNat, layer := 0, head := 0, kind := false, raw := true,
          reserved := false }

/-- One input stream at row r, n elements; the rows before row u have been read (R167). -/
def State.vecInput (s : State) (p i mode : Nat) (v : VStream) (n u r : Nat) (held : Held) : State × Except VecStop (List Number × Flags) :=
  if v.fmt = fmtSb3 then
    match s.vecGranule p i mode v r with
    | (s, .error e) => (s, .error e)
    | (s, .ok (g, c)) =>
      (s, .ok ((List.range n).map (fun k => sb3Value g (128 * (r % 16) + if v.rep0 then 0 else k)), { clamped := c }))
  else if v.kind = 5 then
    match s.vecStateRow p i mode v r with
    | .error e => (s, .error (.bus e {}))
    | .ok x =>
      match heldAt held x.handle (x.line / 64) with
      | some (.ok leaf) =>
        match s.readStateLine (siteSquare i) (lineAddr leaf x.line) with
        | (s, .error e) => (s, .error (.bus e {}))
        | (s, .ok d) =>
          match s.streamRow p i mode v d n u r with
          | .error e => (s, .error (.bus e {}))
          | .ok y => (s, .ok y)
      | _ => (s, .error (.bus .badArgument {}))
  else match s.streamRow p i mode v [] n u r with
    | .error e => (s, .error (.bus e {}))
    | .ok y => (s, .ok y)

/-- The key record of row r of a stream, or the default of a missing one. -/
def State.vecKey (s : State) (p i mode : Nat) (v : Option VStream) (r : Nat) : Except VecStop (Word × Word) :=
  match v with
  | none => .error (.bus .badArgument {})
  | some v =>
    match s.streamRow p i mode v [] 4 r r with
    | .error e => .error (.bus e {})
    | .ok (l, _) => .ok (keyRecord l)

/-- The 16-bit draws of n elements of a row under SR, from element number e0 (R136, R164). -/
def srDraws (key : Option (Word × Word)) (e0 n : Nat) : List Nat :=
  match key with
  | some k => (List.range n).map (fun j => bitsAt (drawOf k (e0 + j)) 48 16)
  | none => []

/-- The numbers of an input as the function takes them: CVT takes them as they are, the others as binary32 (R157), or as they are where
the operation is packed or on INT32. -/
def takeInput (f : VecFunc) (packed : Bool) (r : Rnd) (l : List Number) : List (Number × Flags) :=
  match f with
  | .cvt | .iadd | .imul | .sb3enc => l.map (fun x => (x, { nanIn := x.isNan }))
  | _ => if packed then l.map (fun x => (x, { nanIn := x.isNan })) else l.map (read32 r)

/-- The working format of an element function (R158): that of the streams where all are BF16 or all FP16. -/
def VecOp.working (o : VecOp) : FloatFmt × Bool :=
  let fmts := (o.ins.take o.func.inputs).filterMap (fun v => v.map (fun x => x.fmt)) ++ (o.output 0).toList.map (fun x => x.fmt)
  let packs := decide (o.func ∈ [VecFunc.add, .sub, .mul, .fma, .min, .max])
  if packs && fmts.all (fun f => decide (f = 1)) then (bf16, true)
  else if packs && fmts.all (fun f => decide (f = 2)) then (fp16, true)
  else (fp32, false)

/-- The results of one row: the elements for OUT0 and for OUT1, and flags. -/
def rowResults (o : VecOp) (ins : List (List Number)) (key : Word × Word) (n : Nat) (intOut : Bool) :
    List Number × List Number × Flags :=
  let (w, packed) := o.working
  let taken := ins.map (takeInput o.func packed o.mode?)
  let fin := taken.foldl (fun f l => f.join (joinAll l)) {}
  let v (k : Nat) : List Number := firsts (taken.getD k [])
  let at' (k j : Nat) : Number := (v k).getD j (.fin false 0 0)
  let eps := fp32.decode o.param.toNat
  match o.func with
  | .iadd | .imul =>
    let out := (List.range n).map (fun j => intElement o.func o.rnd (at' 0 j) (at' 1 j))
    (firsts out, [], fin.join (joinAll out))
  | .cvt => (v 0, [], fin)
  | .rsum | .rmax | .rmin =>
    let (x, f) := rowReduce o.func (v 0)
    ([x], [], fin.join f.inner)
  | .softmax =>
    let (y, f) := softmaxRow (v 0) (v 1) (v 2)
    (y, [], if f = {} ∧ y.all Number.isZero then {} else fin.join f.inner)
  | .lnorm =>
    let (y, f) := lnormRow (v 0) (v 1) (v 2) eps
    (y, [], fin.join f.inner)
  | .rmsnorm =>
    let (y, f) := rmsnormRow (v 0) (v 1) eps
    (y, [], fin.join f.inner)
  | .topk =>
    let (x, k) := topkRow (bitsAt o.param 0 7) (v 0)
    (x, k, fin)
  | .rand =>
    ((List.range n).map (fun j =>
      let d := drawOf key j
      if intOut then Number.ofInt (BitVec.ofNat 32 (bitsAt d 32 32)).toInt else unitDraw d), [], {})
  | .sample =>
    let (x, f) := sampleRow (v 0) (ins.getD 2 []) (decide (ins.getD 2 [] ≠ [])) key
    ([x], [], (joinAll (taken.getD 0 [])).join f.inner)
  | _ =>
    let out := (List.range n).map (fun j => element o.func w o.rnd (at' 0 j) (at' 1 j) (at' 2 j))
    (firsts out, [], fin.join (joinAll out))

/-- Read the data inputs of a row. An input that is missing reads as an empty row. -/
def State.vecInputs (s : State) (p i : Nat) (o : VecOp) (n r : Nat) (held : Held) : State × Except VecStop (List (List Number) × Flags) :=
  let recs := o.func.records o.sb3Out
  (List.range o.func.inputs).foldl (fun (s, acc) k =>
    match acc with
    | .error e => (s, .error e)
    | .ok (l, f) =>
      match (if k ∈ recs then none else o.input k) with
      | none => (s, .ok (l ++ [[]], f))
      | some v =>
        match s.vecInput p i o.mode v n r r held with
        | (s, .error e) => (s, .error e)
        | (s, .ok (x, g)) => (s, .ok (l ++ [x], f.join g))) (s, .ok ([], {}))

/-- Compute and write one row (R157 to R165). -/
def State.vecRow (s : State) (p i : Nat) (o : VecOp) (shape : VStream) (sr : Option (Word × Word)) (held : Held) (r : Nat) :
    State × Except VecStop Flags :=
  let n := shape.n0
  match s.vecInputs p i o n r held with
  | (s, .error e) => (s, .error e)
  | (s, .ok (ins, f)) =>
    let key : Except VecStop (Word × Word) :=
      match o.func with
      | .rand => s.vecKey p i o.mode (o.input 0) r
      | .sample => s.vecKey p i o.mode (o.input 1) r
      | _ => .ok (0, 0)
    match key with
    | .error e => (s, .error e)
    | .ok key =>
      let intOut := match o.output 0 with
        | some v => decide (v.fmt = 10)
        | none => false
      let (a, b, g) := rowResults o ins key n intOut
      let put (s : State) (v : Option VStream) (l : List Number) : Except VecStop (State × Flags) :=
        match v with
        | none => .ok (s, {})
        | some v => s.putRow p i o.mode v r o.mode? (srDraws sr (r * n) l.length) l
      match put s (o.output 0) a with
      | .error (.bus e h) => (s, .error (.bus e (f.join (g.join h))))
      | .ok (s, h0) =>
        match (if o.func = .topk then put s (o.output 1) b else .ok (s, {})) with
        | .error (.bus e h) => (s, .error (.bus e ((f.join g).join (h0.join h))))
        | .ok (s, h1) => (s, .ok ((f.join g).join (h0.join h1)))

/-- The 1,024 bytes of a granule whose masked rows are not its group's last: R166 gives it none, since book verification cannot see the
masks that the rook program writes (log 60), and the model draws them. -/
def State.drawGranule (s : State) : State × List Byte :=
  ({ s with fresh := s.fresh + 128 }, (rangeFrom s.fresh 128).flatMap (fun x => leBytes 8 (Config.freeWord x).toNat))

/-- Read the rows of a group one after another, the rows before row u having been read. -/
def State.vecRows (s : State) (p i : Nat) (o : VecOp) (v : VStream) (n u : Nat) (held : Held) (rows : List Nat) :
    State × Except VecStop (List (List Number) × Flags) :=
  rows.foldl (fun (s, acc) r =>
    match acc with
    | .error e => (s, .error e)
    | .ok (l, f) =>
      match s.vecInput p i o.mode v n u r held with
      | (s, .error (.bus e k)) => (s, .error (.bus e (f.join k)))
      | (s, .ok (x, k)) => (s, .ok (l ++ [x], f.join k))) (s, .ok ([], {}))

/-- The header record of a granule (R166). -/
def headerRecord (w : List Number) : Sb3Header :=
  let word (k : Nat) : Nat := (toInt32 .rne (w.getD k (.fin false 0 0))).1.toNat
  { handle := word 0, firstPos := word 1, layer := word 2 % 65536, head := word 2 / 65536, kind := word 3 % 2 = 1 }

/-- Encode the unmasked rows of group g of 16 rows into a granule and write it (R138, R166, R201); it counts in VX_GRANULES. -/
def State.vecGroup (s : State) (p i : Nat) (o : VecOp) (held : Held) (g : Nat) (rows : List Nat) : State × Except VecStop Flags :=
  match o.input 0, o.input 1, o.output 0 with
  | some v, some h, some out =>
    match s.vecRows p i o v 128 (16 * g) held rows with
    | (s, .error e) => (s, .error e)
    | (s, .ok (l, f)) =>
      match s.streamRow p i o.mode h [] 4 g g with
      | .error e => (s, .error (.bus e f))
      | .ok (w, f2) =>
        let xs := l.flatten
        let (d, f3) := sb3Encode (headerRecord w) (128 * rows.length) xs
        let fl := ((f.join f2).join f3).join { nanIn := xs.any Number.isNan }
        let (s, d) := if rows = rangeFrom (16 * g) rows.length then (s, d) else s.drawGranule
        match s.rowPlace p i (decide (o.mode = 0)) out (16 * g) with
        | .error e => (s, .error (.bus e fl))
        | .ok pl =>
          match pl.place with
          | none => (s.bump .vxGranules i, .ok (fl.join { clamped := true }))
          | some place =>
            match s.storeAt place (decide (o.mode = 0)) pl.start d with
            | .error e => (s, .error (.bus e fl))
            | .ok (s, c) => (s.bump .vxGranules i, .ok (fl.join { clamped := c || pl.clamped }))
  | _, _, _ => (s, .error (.bus .badArgument {}))

/-- A column reduction of the unmasked rows of group g of i1 (R161), written as row g of the result. DESIGN CHOICE (log 30): under SR
an element of the result takes the draw of the first row of its group, since R164 numbers draws by the rows of the operation's shape. -/
def State.vecColumn (s : State) (p i : Nat) (o : VecOp) (shape : VStream) (sr : Option (Word × Word)) (held : Held) (g : Nat)
    (rows : List Nat) : State × Except VecStop Flags :=
  match o.input 0, o.output 0 with
  | some v, some out =>
    match s.vecRows p i o v shape.n0 (g * shape.n1) held rows with
    | (s, .error e) => (s, .error e)
    | (s, .ok (l, f)) =>
      let taken := l.map (takeInput o.func false o.mode?)
      let f := f.join (joinAll taken.flatten)
      let cols := (List.range shape.n0).map (fun k =>
        (foldCombine o.func (taken.map (fun x => (firsts x).getD k (.fin false 0 0)))).getD (.fin false 0 0, {}))
      match s.putRow p i o.mode out g o.mode? (srDraws sr (g * shape.n1 * shape.n0) shape.n0) (firsts cols) with
      | .error (.bus e h) => (s, .error (.bus e (f.join h)))
      | .ok (s, h) => (s, .ok ((f.join (joinAll cols).inner).join h))
  | _, _ => (s, .error (.bus .badArgument {}))

/-! Tiles and held buffers (R116, R167, R168) -/

/-- What the rows of a unit of work read is there: the tile of every row of a TILEQ stream, masked or not, and the held buffer of every
unmasked row of an ACC stream. -/
def State.rowsReady (s : State) (i : Nat) (o : VecOp) (u : Nat) (rows : List Nat) : Bool :=
  o.ins.all (fun v => match v with
    | none => true
    | some v =>
      if v.kind = 2 then rows.all (fun r => let (c, n) := v.tileIndex u r; decide (n < (Sparse.nget [] (s.die i).tiles c).length))
      else if v.kind = 3 then rows.all (fun r => !s.maskBit i o.mask r || decide (s.bufState i (v.accCell o.mode r) = .held))
      else true)

/-- Row r is the last of its tile. -/
def VStream.endsTile (v : VStream) (r : Nat) : Bool := decide (r % v.n1 + 1 = v.n1)

/-- Pop the tiles and release the buffers whose last row is among the rows that have been read. DEDUCED (log 27): the buffer of a tile all
of whose rows are masked is released when the operation passes it, as such a tile of a queue is popped (R167). -/
def State.consume (s : State) (i : Nat) (o : VecOp) (rows : List Nat) : State :=
  let s := o.ins.foldl (fun s v =>
    match v with
    | none => s
    | some v =>
      if v.kind = 2 then
        (rows.filter v.endsTile).foldl (fun s r => s.modDie i (fun d =>
          let c := (v.tileIndex r r).1
          { d with tiles := Sparse.nset [] d.tiles c ((Sparse.nget [] d.tiles c).drop 1) })) s
      else if v.kind = 3 then
        (rows.filter v.endsTile).foldl (fun s r => (s.setCellWords i (v.accCell o.mode r) zeroWords).setBuf i (v.accCell o.mode r) .empty) s
      else s) s
  s.matrixStatus i

/-! The whole operation -/

/-- How an operation ended: it has run, it took a bus error, it waits for a tile or a buffer before a row, or it stopped at a row of a
STATE stream. -/
inductive VecEnd where
  | done
  | bus (st : Status)
  | waiting (row : Nat) (kept : List (Handle × Nat × Word))
  | stopped (x : StateRow) (code : Nat) (kept : List (Handle × Nat × Word))
  deriving Repr

/-- Row r is read, computed and written: unmasked, and of no skipped handle (R156, R172, R319). -/
def State.vecLive (s : State) (i : Nat) (o : VecOp) (skips : List Handle) (r : Nat) : Bool :=
  let states := o.ins.filterMap (fun v => v.bind (fun v => if v.kind = 5 then some v else none))
  s.maskBit i o.mask r && states.all (fun v => decide ((s.rowStream i (v.sel % 65536) r).1 ∉ skips))

/-- The rows of the shape that one step of an operation takes: one row; the rows of a column reduction's group; the 16 of a granule. -/
def VecOp.unit (o : VecOp) (shape : VStream) : Nat :=
  if o.func = .sb3enc ∨ (o.func = .cvt ∧ o.sb3Out = true) then 16 else if o.func ∈ [VecFunc.csum, .cmax, .cmin] then shape.n1 else 1

/-- One step of an operation over its unmasked rows. -/
def State.vecUnit (s : State) (p i : Nat) (o : VecOp) (shape : VStream) (sr : Option (Word × Word)) (held : Held) (u : Nat)
    (rows : List Nat) : State × Except VecStop Flags :=
  match rows with
  | [] => (s, .ok {})
  | r :: _ =>
    if o.func = .sb3enc ∨ (o.func = .cvt ∧ o.sb3Out = true) then s.vecGroup p i o held u rows
    else if o.func ∈ [VecFunc.csum, .cmax, .cmin] then s.vecColumn p i o shape sr held u rows
    else s.vecRow p i o shape sr held r

/-- How far the steps of an operation came: the elements of unmasked rows, the flags, and where they ended, if not at the last. -/
structure VecRun where
  elements : Nat := 0
  flags : Flags := {}
  fail : Option Status := none
  wait : Option Nat := none

/-- Take the steps of an operation in order, up to the one that a faulting row stops, one whose tiles are missing, or a bus error. -/
def State.vecSteps (s : State) (p i : Nat) (o : VecOp) (shape : VStream) (sr : Option (Word × Word)) (held : Held) (skips : List Handle) :
    List Nat → VecRun → State × VecRun
  | [], w => (s, w)
  | u :: l, w =>
    let n := o.unit shape
    let rows := (rangeFrom (n * u) n).filter (fun r => decide (r < shape.rows))
    let live := rows.filter (s.vecLive i o skips)
    if s.rowsReady i o (n * u) rows then
      match s.vecUnit p i o shape sr held u live with
      | (s, .error (.bus st f)) => (s, { w with flags := w.flags.join f, fail := some st })
      | (s, .ok f) =>
        (s.consume i o rows).vecSteps p i o shape sr held skips l
          { w with flags := w.flags.join f, elements := w.elements + live.length * shape.n0 }
    else (s, { w with wait := some (n * u) })

/-- The STATE lines that rows of an operation read. -/
def State.vecStateRows (s : State) (p i : Nat) (o : VecOp) (live : List Nat) : Except Status (List StateRow) :=
  let states := o.ins.filterMap (fun v => v.bind (fun v => if v.kind = 5 then some v else none))
  live.foldl (fun acc r =>
    states.foldl (fun acc v =>
      match acc with
      | .error e => .error e
      | .ok l => match s.vecStateRow p i o.mode v r with
        | .error e => .error e
        | .ok x => .ok (l ++ [x])) acc) (.ok [])

/-- Perform a vector operation from a row on (R150 to R173): its translations are taken first, and the steps up to the first row that
faults are performed while what they read is there. -/
def State.performVec (s : State) (p i : Nat) (o : VecOp) (start : Nat) (skips : List Handle) (kept : List (Handle × Nat × Word)) :
    State × VecEnd :=
  match o.shape with
  | none => (s, .bus .badArgument)
  | some shape =>
    let live := (rangeFrom start (shape.rows - start)).filter (s.vecLive i o skips)
    match s.vecStateRows p i o live with
    | .error e => (s, .bus e)
    | .ok rows =>
      let (s, held) := s.translateRows p (siteSquare i) rows (heldOf kept)
      let busNode := held.findSome? (fun x => match x.2.2 with
        | .error (.bus e) => some e
        | _ => none)
      let bad := rows.findSome? (fun x => match s.rowLeaf p held false x with
        | .error (.fault c) => some (x, c)
        | _ => none)
      let sr : Except VecStop (Option (Word × Word)) :=
        if o.mode? = .sr ∧ o.sb3Out = false then
          match s.vecKey p i o.mode (o.input o.srSlot) 0 with
          | .error e => .error e
          | .ok k => .ok (some k)
        else .ok none
      match busNode, sr with
      | some e, _ => (s, .bus e)
      | _, .error (.bus e _) => (s, .bus e)
      | none, .ok sr =>
        let n := o.unit shape
        let last := match bad with
          | some (x, _) => x.row / n
          | none => (shape.rows + n - 1) / n
        let (s, w) := s.vecSteps p i o shape sr held skips (rangeFrom (start / n) (last - start / n)) {}
        let s := (s.raiseVector i w.flags).bump .vxElements i 0 w.elements
        match w.fail, w.wait, bad with
        | some e, _, _ => (s, .bus e)
        | none, some r, _ => (s, .waiting r (keptOf held false))
        | none, none, some (x, c) => (s, .stopped { x with row := n * last } c (keptOf held false))
        | none, none, none => (s, .done)

/-- An operation that has started and waits before a row may go on (R167, R168). -/
def State.vecGoes (s : State) (i : Nat) (o : VecOp) (row : Nat) : Bool :=
  match o.shape with
  | none => true
  | some shape => s.rowsReady i o row ((rangeFrom row (o.unit shape)).filter (fun r => decide (r < shape.rows)))

end Sys2Proof.Machine
end

