-- ==== Sys2Proof/Machine/Sequencer.lean ====
section
/-! DEFINITION. The sequencer (chapter 7): issue and its checks, moves in flight and what they wait for, completion counters, CHECK and
fault hold, YIELD, trace, and the stop and resumption of state-path operations (chapters 7, 11, 15 and 19). -/

namespace Sys2Proof.Machine

/-! The 128 bits of a move (Tables 7.6 and 7.7) -/

def vecCode : VecFunc → Nat
  | .add => 0x01 | .sub => 0x02 | .mul => 0x03 | .fma => 0x04 | .min => 0x05 | .max => 0x06 | .select => 0x07 | .div => 0x08
  | .sqrt => 0x09 | .recip => 0x0A | .exp => 0x10 | .log => 0x11 | .rsqrt => 0x12 | .tanh => 0x13 | .sigmoid => 0x14
  | .iadd => 0x18 | .imul => 0x19 | .cvt => 0x20 | .rsum => 0x28 | .rmax => 0x29 | .rmin => 0x2A | .csum => 0x2B | .cmax => 0x2C
  | .cmin => 0x2D | .softmax => 0x38 | .lnorm => 0x39 | .rmsnorm => 0x3A | .topk => 0x40 | .rand => 0x48 | .sample => 0x49
  | .sb3enc => 0x50

/-- The function and fields of a VEC move. -/
def vecMove : Instr → Option (VecFunc × VecFields)
  | .add _ v => some (.add, v) | .sub _ v => some (.sub, v) | .mul _ v => some (.mul, v) | .fma _ v => some (.fma, v)
  | .min _ v => some (.min, v) | .max _ v => some (.max, v) | .select _ v => some (.select, v) | .div _ v => some (.div, v)
  | .sqrt _ v => some (.sqrt, v) | .recip _ v => some (.recip, v) | .exp _ v => some (.exp, v) | .log _ v => some (.log, v)
  | .rsqrt _ v => some (.rsqrt, v) | .tanh _ v => some (.tanh, v) | .sigmoid _ v => some (.sigmoid, v)
  | .iadd _ v => some (.iadd, v) | .imul _ v => some (.imul, v) | .cvt _ v => some (.cvt, v) | .rsum _ v => some (.rsum, v)
  | .rmax _ v => some (.rmax, v) | .rmin _ v => some (.rmin, v) | .csum _ v => some (.csum, v) | .cmax _ v => some (.cmax, v)
  | .cmin _ v => some (.cmin, v) | .softmax _ v => some (.softmax, v) | .lnorm _ v => some (.lnorm, v)
  | .rmsnorm _ v => some (.rmsnorm, v) | .topk _ v => some (.topk, v) | .rand _ v => some (.rand, v)
  | .sample _ v => some (.sample, v) | .sb3enc _ v => some (.sb3enc, v)
  | _ => none

/-- The header of a move. -/
def moveHdr : Instr → Option MoveHdr
  | .nop m | .check m _ _ _ | .yield m | .trace m _ | .pass m _ _ _ _ _ _ _ _ _ _ _ | .drain m _ _ _ _ | .drainHeld m _ _ _ _
  | .gang m _ _ | .load m _ _ | .store m _ _ | .send m _ _ | .twin m _ => some m
  | .add m _ | .sub m _ | .mul m _ | .fma m _ | .min m _ | .max m _ | .select m _ | .div m _ | .sqrt m _ | .recip m _ | .exp m _
  | .log m _ | .rsqrt m _ | .tanh m _ | .sigmoid m _ | .iadd m _ | .imul m _ | .cvt m _ | .rsum m _ | .rmax m _ | .rmin m _
  | .csum m _ | .cmax m _ | .cmin m _ | .softmax m _ | .lnorm m _ | .rmsnorm m _ | .topk m _ | .rand m _ | .sample m _
  | .sb3enc m _ => some m
  | _ => none

/-- The opcode of a move and its OPERANDS field. -/
def moveBody (c : Instr) : Nat × Nat :=
  let bit (b : Bool) (n : Nat) : Nat := if b then 2 ^ n else 0
  match c with
  | .check _ ctr count grace => (0x01, ctr.toNat * 2 ^ 70 + count.toNat * 2 ^ 46 + grace.toNat * 2 ^ 22)
  | .yield _ => (0x02, 0)
  | .trace _ label => (0x03, label.toNat * 2 ^ 62)
  | .pass _ first count adesc bdesc k buf acc sa sb orient _ =>
    (0x10, first.toNat * 2 ^ 70 + count.toNat * 2 ^ 62 + adesc.toNat * 2 ^ 50 + bdesc.toNat * 2 ^ 38 + k.toNat * 2 ^ 18 + bit buf 17 +
      bit acc 16 + bit sa 15 + bit sb 14 + bit orient 13)
  | .drain _ first count buf _ => (0x11, first.toNat * 2 ^ 70 + count.toNat * 2 ^ 62 + bit buf 61)
  | .drainHeld _ first count buf _ => (0x11, first.toNat * 2 ^ 70 + count.toNat * 2 ^ 62 + bit buf 61 + 2 ^ 60)
  | .gang _ mode _ => (0x12, mode.toNat * 2 ^ 75)
  | .load _ d ch => (0x30, d.toNat * 2 ^ 66 + ch.toNat * 2 ^ 63)
  | .store _ d ch => (0x31, d.toNat * 2 ^ 66 + ch.toNat * 2 ^ 63)
  | .send _ d ch => (0x32, d.toNat * 2 ^ 66 + ch.toNat * 2 ^ 63)
  | .twin _ l => (0x40, l.toNat * 2 ^ 66)
  | c => match vecMove c with
    | some (f, v) =>
      (0x20, vecCode f * 2 ^ 70 + v.rnd.toNat * 2 ^ 67 + v.firstSlice.toNat * 2 ^ 63 + v.sliceCount.toNat * 2 ^ 59 +
        v.oplist.toNat * 2 ^ 47 + v.param.toNat * 2 ^ 15)
    | none => (0x00, 0)

/-- The 16 bytes of a move as the table stores it (R184). -/
def moveBytes (c : Instr) : List Byte :=
  match moveHdr c with
  | none => []
  | some m =>
    let (opc, body) := moveBody c
    leBytes 16 (opc * 2 ^ 120 + m.cdone.toNat * 2 ^ 112 + m.start.toNat * 2 ^ 88 + m.mask.toNat * 2 ^ 78 + body)

/-! Trace (R498, R499) -/

/-- Queue a trace record of a site: at most 8 wait for injection. -/
def State.traceRec (s : State) (p i kind : Nat) (index : BitVec 18) (start : BitVec 24) (cycle : Nat) (label : Nat) : State :=
  let rec48 := padTo 48 (leBytes 8 (s.now (siteSquare i)).toNat ++ leBytes 4 (s.turn p).toNat ++ leBytes 1 i ++ leBytes 3 kind ++
    leBytes 4 index.toNat ++ leBytes 4 start.toNat ++ leBytes 4 cycle ++ leBytes 2 label)
  if (s.die i).traceQueue.length < 8 then s.modDie i (fun d => { d with traceQueue := d.traceQueue ++ [rec48] })
  else (s.modDie i (fun d => { d with traceLost := d.traceLost + 1 })).bump .dbTraceLost

/-- EVENTS traces a condition of the sequencer. -/
def State.traceEvent (s : State) (p i kind : Nat) (index : BitVec 18) (start : BitVec 24) (cycle : Nat) : State :=
  if s.flag .dbTraceCtl p 0 1 then s.traceRec p i kind index start cycle 0 else s

/-! Fault hold (R193, R321) -/

/-- A CHECK waits on a counter that a stopped operation feeds. -/
def Die.inFaultHold (d : Die) : Bool :=
  match d.check with
  | some c => d.flights.any (fun f => f.stopped && decide (f.cdone = c.ctr))
  | none => false

/-- The die holds only on stopped operations (R321): a fault hold, or after its last move the wait for them. -/
def State.holding (s : State) (i : Nat) : Bool :=
  let d := s.die i
  d.inFaultHold ||
  (decide (s.field .sqNext i 0 0 18 = d.tableLen ∧ d.check = none) && decide (d.flights ≠ []) && d.flights.all (fun f => f.stopped))

/-- Bring FAULT_HOLD and the hold time up to date at a die cycle. A hold that ends starts the grace again (R193). -/
def State.settleHold (s : State) (p i cycle : Nat) : State :=
  let d := s.die i
  let was := s.flag .sqStatus i 0 18
  let now := d.inFaultHold
  let s := s.setFlag .sqStatus i 0 18 now
  let s := if now ∧ !was then
      match d.check with
      | some c => s.traceEvent p i 2 c.index c.start cycle
      | none => s
    else s
  let s := if was ∧ !now then s.modDie i (fun d =>
      { d with check := d.check.map (fun c => { c with deadline := BitVec.ofNat 64 (cycle + c.grace.toNat) }) }) else s
  if s.holding i then
    s.modDie i (fun d => { d with holdSince := some (d.holdSince.getD (BitVec.ofNat 64 cycle)) })
  else
    s.modDie i (fun d => { d with
      holdTime := match d.holdSince with
        | some t => d.holdTime + (BitVec.ofNat 64 cycle - t)
        | none => d.holdTime
      holdSince := none })

/-! Counters and CHECK (R191, R192) -/

def State.ctr (s : State) (i n : Nat) : Nat := s.field .sqCtr i n 0 32

/-- Add 1 to a completion counter; 0xFF names none. -/
def State.credit (s : State) (i n : Nat) : State := if n = 0xFF then s else s.setField .sqCtr i n 0 32 (s.ctr i n + 1)

/-- A CHECK whose counter has reached its count lets issue go on (R192); its own completion is credited. -/
def State.settleCheck (s : State) (p i cycle : Nat) : State :=
  match (s.die i).check with
  | none => s.settleHold p i cycle
  | some c =>
    if c.count.toNat ≤ s.ctr i c.ctr.toNat then
      let s := s.modDie i (fun d => { d with check := none })
      let s := (s.setFlag .sqStatus i 0 17 false).bump .sqCheckWait i 0 (cycle - c.since.toNat)
      (s.credit i c.cdone.toNat).settleHold p i cycle
    else s.settleHold p i cycle

/-! Slices and units -/

/-- VX_STATUS.SLICE_BUSY and FAULT_WAIT (Table 6.7), and the status of the matrix engine. -/
def State.unitStatus (s : State) (i : Nat) : State :=
  let d := s.die i
  let s := s.setField .vxStatus i 0 0 16 (maskOf 16 ((d.flights.filter (fun f => f.started)).flatMap (fun f => f.slices))).toNat
  (s.setFlag .vxStatus i 0 16 (d.stopped.any (fun x => decide (8 ≤ x.1)))).matrixStatus i

/-- The slices of a VEC move (R149). -/
def sliceList (v : VecFields) : List Nat := rangeFrom v.firstSlice.toNat (v.sliceCount.toNat + 1)

/-- A move as it is issued: its unit, slices and completion counter; it waits until it is performed. -/
def flightOf (m : MoveHdr) (c : Instr) : Flight :=
  let f (u : MoveUnit) (k : Option RegName) : Flight := { index := m.index, cdone := m.cdone, unit := u, move := c, counter := k, waits := true }
  match c with
  | .pass _ _ _ _ _ _ _ _ _ _ _ _ => f .matrix (some .mxPasses)
  | .drain _ _ _ _ _ | .drainHeld _ _ _ _ _ | .gang _ _ _ => f .matrix none
  | .load _ _ ch | .store _ _ ch | .send _ _ ch => f (.dma ch.toNat) none
  | .twin _ _ => f .signature none
  | c => match vecMove c with
    | some (g, v) => { f .vector g.counter with slices := sliceList v }
    | none => f .sequencer none

/-- The key under which a move stops on a translation fault: its channel, or 8 + its first slice. -/
def stopKey (c : Instr) : Nat :=
  match c with
  | .load _ _ ch | .store _ _ ch | .send _ _ ch => ch.toNat
  | c => match vecMove c with
    | some (_, v) => 8 + v.firstSlice.toNat
    | none => 8

/-! Performing a move -/

/-- A move takes a bus error: the die's turn aborts (R95). -/
def State.busMove (s : State) (p : Nat) (st : Status) : State :=
  let s := if st = .uncorrectable then s.modPart p (fun v => { v with uncorrectable := true }) else s
  s.abortTurn p abortBus

/-- The line that row r of a TWIN's STATE stream reads, and nothing for any other stream. DESIGN CHOICE (log 27): R188 does not say what a
translation fault does to a TWIN; it is a bus error with BAD_ARGUMENT. -/
def State.twinLine (s : State) (p i mode : Nat) (v : VStream) (r : Nat) : State × Except Status (List Byte) :=
  if v.kind ≠ 5 then (s, .ok [])
  else match s.vecStateRow p i mode v r with
    | .error e => (s, .error e)
    | .ok x =>
      let (s, held) := s.translateRows p (siteSquare i) [x] []
      match s.rowLeaf p held false x with
      | .error (.bus e) => (s, .error e)
      | .error (.fault _) => (s, .error .badArgument)
      | .ok leaf => s.readStateLine (siteSquare i) (lineAddr leaf x.line)

/-- The codes of row r of a stream of a TWIN: zeros where it is masked (R188). -/
def State.twinRow (s : State) (p i mode : Nat) (mask : BitVec 10) (v : VStream) (r : Nat) : State × Except Status (List Nat) :=
  if !s.maskBit i mask r then (s, .ok (List.replicate v.n0 0))
  else match s.twinLine p i mode v r, s.streamPlace p i mode v r with
    | (s, .error e), _ => (s, .error e)
    | (s, _), .error e => (s, .error e)
    | (s, .ok d), .ok pl =>
      (s, (List.range v.n0).foldl (fun acc k =>
        match acc with
        | .error e => .error e
        | .ok l => match s.streamCode i mode v pl d 0 r k with
          | .error e => .error e
          | .ok (c, _) => .ok (l ++ [c])) (.ok []))

/-- The bytes of a stream of a TWIN, its elements packed as R132 packs them. -/
def State.twinStream (s : State) (p i mode : Nat) (mask : BitVec 10) (v : VStream) : State × Except Status (List Byte) :=
  let w := v.elem.1.width
  let (s, codes) : State × Except Status (List Nat) := (List.range v.rows).foldl (fun (s, acc) r =>
    match acc with
    | .error e => (s, .error e)
    | .ok l => match s.twinRow p i mode mask v r with
      | (s, .error e) => (s, .error e)
      | (s, .ok x) => (s, .ok (l ++ x))) (s, .ok [])
  match codes with
  | .error e => (s, .error e)
  | .ok l => (s, .ok (leBytes ((l.length * w + 7) / 8) (l.zipIdx.foldl (fun n (c, k) => n + c * 2 ^ (w * k)) 0)))

/-- The streams of a TWIN. -/
def State.twinOps (s : State) (p i : Nat) (oplist : Nat) : Option (VStream × VStream) :=
  (s.opList p i oplist).bind (fun l =>
    (s.vectorDesc p i (opSlot l 0)).bind (fun a => (s.vectorDesc p i (opSlot l 1)).map (fun b => ({ desc := a }, { desc := b }))))

/-- A TWIN as an operation on its streams, whose tiles and buffers it reads as a vector operation does (R167, R168). -/
def twinOp (mask : BitVec 10) (mode : Nat) (a b : VStream) : VecOp :=
  { func := .cvt, rnd := .rne, ins := [some a, some b], outs := [], param := 0, mask := mask, mode := mode }

/-- TWIN (R188, R417): the signatures of two streams; where they differ the die's turn aborts, and the next changeover runs the pip
check. -/
def State.performTwin (s : State) (p i mode : Nat) (mask : BitVec 10) (oplist : Nat) : State :=
  match s.twinOps p i oplist with
  | none => s.busMove p .badArgument
  | some (a, b) =>
    let (s, x) := s.twinStream p i mode mask a
    let (s, y) := s.twinStream p i mode mask b
    match x, y with
    | .ok x, .ok y =>
      let cx := crc64 x
      let cy := crc64 y
      let s := s.consume i (twinOp mask mode a b) (List.range (max a.rows b.rows))
      if cx = cy then s
      else
        let s := s.setFlag .sqStatus i 0 20 true
        let s := (s.modDie i (fun d => { d with pipNext := true })).modPart p (fun v => { v with twinTurns := v.twinTurns ++ [(i, s.turn p)] })
        let (v, s) := s.drawSeverity
        let s := s.event7F v (some p) (siteSquare i) .sqStatus i 0 (leBytes 4 i ++ leBytes 8 cx.toNat ++ leBytes 8 cy.toNat)
        s.abortTurn p abortTwin
    | .error e, _ => s.busMove p e
    | _, .error e => s.busMove p e

/-- Tolerabor begins to recall the far page of a fault (Table 11.3), once for every operation that names it. -/
def State.beginRecall (s : State) (p : Nat) (x : StateRow) : State :=
  let page := x.line / 64
  if s.poolLines.any (fun l => decide (l.part = p ∧ l.handle = x.handle ∧ l.page = page ∧ l.isWrite = false)) then s
  else match s.leafOf (s.row x.slot).root.toNat page with
    | some (_, _, e) =>
      if leafTier e = 2 ∧ (s.poolQuad p (entryAddr e) false).isSome then s.readFarPage p x.handle page (entryAddr e) (s.row x.slot).epoch
      else s
    | none => s

/-- A die whose YIELD has stopped issue reports yielded once its moves in flight have completed, or have recorded their progress
where a translation fault stopped them (R196). -/
def State.settleYield (s : State) (i : Nat) : State :=
  let d := s.die i
  if d.yielding && !s.flag .sqStatus i 0 19 && d.flights.all (fun f => f.stopped) then
    (s.setFlag .sqStatus i 0 19 true).gatherTree .yielded (siteSquare i) 4
  else s

/-- Record that an operation stopped at a row (R317). -/
def State.stopMove (s : State) (p i : Nat) (m : MoveHdr) (c : Instr) (x : StateRow) (code : Nat) (skips : List Handle)
    (kept : List (Handle × Nat × Word)) : State :=
  let s := s.stopOperation p i (stopKey c) m.index x.row
    { move := c, row := x.row, code := BitVec.ofNat 4 code, handle := x.handle, line := BitVec.ofNat 32 x.line, skips := skips, kept := kept }
  let s := ((s.unitStatus i).settleHold p i m.cycle.toNat).settleYield i
  if code = faultFar ∧ s.up = true then s.beginRecall p x else s

/-- Change the flight of a move of a site. -/
def State.modFlight (s : State) (i : Nat) (index : BitVec 18) (f : Flight → Flight) : State :=
  s.modDie i (fun d => { d with flights := d.flights.map (fun g => if g.index = index then f g else g) })

/-- A vector move waits before a row (R167, R168). -/
def State.waitMove (s : State) (i : Nat) (index : BitVec 18) (row : Nat) (skips : List Handle) (kept : List (Handle × Nat × Word)) : State :=
  s.modFlight i index (fun g => { g with waits := true, row := row, skips := skips, kept := kept })

/-- Perform a move that has started in a ganging mode, or go on with one from a row, with its skip list and its translations. -/
def State.perform (s : State) (p i mode : Nat) (m : MoveHdr) (c : Instr) (start : Nat) (skips : List Handle)
    (kept : List (Handle × Nat × Word)) : State :=
  let dma (kind : DmaKind) (ddesc : BitVec 12) : State :=
    match s.performDma p i mode kind ddesc.toNat m.mask start skips kept with
    | (s, .done) => s
    | (s, .bus st) => s.busMove p st
    | (s, .stopped x code l) => s.stopMove p i m c x code skips l
    | (s, .sent xid) => s.modFlight i m.index (fun f => { f with sendXid := some xid })
  match c with
  | .pass _ first count adesc bdesc k buf acc sa sb orient _ =>
    match s.performPass p i
        { mask := m.mask, first := first.toNat, count := count.toNat + 1, adesc := adesc.toNat, bdesc := bdesc.toNat, k := k.toNat,
          buf := buf, acc := acc, shareA := sa, shareB := sb, pos := orient } with
    | (s, some st) => s.busMove p st
    | (s, none) => s
  | .drain _ first count buf _ => s.performDrain i m.index first.toNat (count.toNat + 1) buf false
  | .drainHeld _ first count buf _ => s.performDrain i m.index first.toNat (count.toNat + 1) buf true
  | .gang _ mode _ => s.performGang i mode.toNat
  | .load _ d _ => dma .load d
  | .store _ d _ => dma .store d
  | .send _ d _ => dma .send d
  | .twin _ l => s.performTwin p i mode m.mask l.toNat
  | c =>
    match vecMove c with
    | none => s
    | some (f, v) =>
      match s.vecOp p i f m.mask v mode with
      | none => s.busMove p .badArgument
      | some o =>
        match s.performVec p i o start skips kept with
        | (s, .done) => s
        | (s, .bus st) => s.busMove p st
        | (s, .waiting r l) => s.waitMove i m.index r skips l
        | (s, .stopped x code l) => s.stopMove p i m c x code skips l

/-- A move in flight may start, or go on: nothing that it waits for is missing (R117, R118, R149, R167, R168, R239). A vector move starts
once no earlier one names a slice of its (R149; DEDUCED, log 27: one that still waits for a slice keeps its claim to the others), and then
goes on while what its next rows read is there. A circuit whose route has failed keeps its moves back. -/
def State.moveReady (s : State) (p i : Nat) (before : List Flight) (f : Flight) : Bool :=
  match f.move with
  | .load _ d ch | .store _ d ch | .send _ d ch =>
    before.all (fun g => !(decide (g.unit = .dma ch.toNat) && (g.waits || g.stopped))) &&
    (match s.dmaDesc p i d.toNat with
      | some b => !(decide (DmaDesc.path { desc := b } = 1) && s.circuitCut p (DmaDesc.circ { desc := b }))
      | none => true)
  | .twin m l =>
    before.all (fun g => !(decide (g.unit = .signature) && g.waits)) &&
    (match s.twinOps p i l.toNat with
      | some (a, b) => s.rowsReady i (twinOp m.mask (s.modeNow i) a b) 0 (List.range (max a.rows b.rows))
      | none => true)
  | c =>
    match vecMove c, moveHdr c with
    | some (g, v), some m =>
      if f.started then
        match s.vecOp p i g m.mask v f.mode with
        | some o => s.vecGoes i o f.row
        | none => true
      else before.all (fun x => !(sliceList v).any (fun k => decide (k ∈ x.slices)))
    | _, _ => s.matrixReady i before c

/-- The first move in flight that waits and may now go on. -/
def State.nextReady (s : State) (p i : Nat) : List Flight → List Flight → Option Flight
  | _, [] => none
  | before, f :: l =>
    if f.waits && !f.stopped && s.moveReady p i before f then some f else s.nextReady p i (before ++ [f]) l

/-- A move starts, in the ganging mode in force (R170), or goes on in its own. -/
def State.startFlight (s : State) (i : Nat) (index : BitVec 18) : State :=
  let mode := s.modeNow i
  s.modFlight i index (fun g => { g with waits := false, started := true, mode := if g.started then g.mode else mode })

/-- Perform waiting moves until none may go on, at most a number of times. -/
def State.runWaiting (s : State) (p i : Nat) : Nat → State
  | 0 => s
  | fuel + 1 =>
    match s.nextReady p i [] (s.die i).flights with
    | none => s
    | some f =>
      match moveHdr f.move with
      | some m =>
        ((s.startFlight i f.index).perform p i (if f.started then f.mode else s.modeNow i) m f.move f.row f.skips f.kept).runWaiting p i fuel
      | none => s

/-- Steps that the moves in flight can take while nothing completes: each starts once, and goes on at most once for each that ends. -/
def flightSteps (l : List Flight) : Nat := (l.length + 1) * (l.length + 1)

/-- Every move in flight that can be performed is. -/
def State.runFlights (s : State) (p i : Nat) : State := (s.runWaiting p i (flightSteps (s.die i).flights)).unitStatus i

/-! Issue (R190, R415) -/

/-- The table in force fails its check (R415): SF_SEQ_FAIL, a SAFETY record, the turn aborts; a second failure in the next turn that
runs the table takes the site out of service. -/
def State.seqFail (s : State) (p i : Nat) : State :=
  let again := (s.die i).seqFailed
  let s := (s.bump .sfSeqFail i).modDie i (fun d => { d with seqFailed := true })
  let s := (s.safetyAt (some p) (siteSquare i) .sfSeqFail i 0 i).abortTurn p abortTable
  if again then (s.takeOut p i causeTable).safetyOut p i else s

/-- The sequencer may issue a move now: the partition plays, the die has moves, nothing holds its issue, and the move is the next of its
table, not before its START nor in the die cycle of the move before it (R190). -/
def State.canIssue (s : State) (p : Nat) (m : MoveHdr) : Bool :=
  let i := m.site
  let d := s.die i
  s.inPlay p && d.playing && !d.halted && d.check.isNone && !d.yielding && !s.flag .sqStatus i 0 19 && !s.flag .sqStatus i 0 16 &&
  s.dieIssues p i && d.lastCycle.all (fun t => decide (t.toNat < m.cycle.toNat)) &&
  decide (m.index.toNat = s.field .sqNext i 0 0 18 ∧ m.index.toNat < d.tableLen ∧ m.start.toNat ≤ m.cycle.toNat)

/-- The cycles that a move waited go to the counters that Tables 4.6 and 6.6 give them. -/
def State.countWaits (s : State) (i : Nat) (c : Instr) : State :=
  let matrix (w : Waits) : State :=
    (((s.bump .mxStall i 0 w.buffer.toNat).bump .mxBankStall i 0 w.bank.toNat).bump .mxQueueStall i 0 w.queue.toNat).bump .mxHeldStall i 0
      w.held.toNat
  match c with
  | .pass _ _ _ _ _ _ _ _ _ _ _ w | .drain _ _ _ _ w | .drainHeld _ _ _ _ w | .gang _ _ w => matrix w
  | c => match vecMove c with
    | some (_, v) =>
      ((s.bump .vxQueueWait i 0 v.waits.queue.toNat).bump .vxBankWait i 0 v.waits.bank.toNat).bump .vxSliceWait i 0 v.waits.slice.toNat
    | none => s

/-- The sequencer advances past a move (R190, R415): SQ_NEXT, SQ_MOVES and the CRC over the moves issued. -/
def State.advanceSeq (s : State) (m : MoveHdr) (c : Instr) : State :=
  let s := (s.setField .sqNext m.site 0 0 18 (m.index.toNat + 1)).bump .sqMoves m.site
  s.modDie m.site (fun d => { d with lastStart := some m.start, lastCycle := some m.cycle, issuedCrc := crcRun (0x82F63B78 : BitVec 32) d.issuedCrc (moveBytes c) })

/-- Issue a move: what it does is then done by go. A START that does not rise, or a table whose CRC differs at its last move, is the
failure of R415. -/
def State.issueMove (s : State) (m : MoveHdr) (c : Instr) (go : Nat → State → State) : State :=
  match s.siteOwner m.site with
  | none => s
  | some p =>
    if !s.canIssue p m then s
    else
      let d := s.die m.site
      let rises := match d.lastStart with
        | some t => decide (t.toNat < m.start.toNat)
        | none => true
      if !rises then s.seqFail p m.site
      else
        let s := s.advanceSeq m c
        let last := decide (m.index.toNat + 1 = d.tableLen)
        if last ∧ ~~~(s.die m.site).issuedCrc ≠ d.tableCrc then s.seqFail p m.site
        else
          let s := if last then s.modDie m.site (fun d => { d with seqFailed := false }) else s
          go p s

/-- Put an issued move in flight: its waiting cycles are counted, and for a DMA move its channel's progress is cleared. -/
def State.takeFlight (s : State) (m : MoveHdr) (c : Instr) : State :=
  let s := (s.modDie m.site (fun d => { d with flights := d.flights ++ [flightOf m c] })).countWaits m.site c
  match c with
  | .load _ _ ch | .store _ _ ch | .send _ _ ch => (s.setReg .sqDmaProg m.site ch.toNat 0).setReg .sqDmaFlt m.site ch.toNat 0
  | _ => s

/-- Issue a move of the matrix, vector, DMA or signature unit: it is in flight from its start, and is performed once nothing it waits for
is missing. -/
def State.issueUnit (s : State) (m : MoveHdr) (c : Instr) : State :=
  s.issueMove m c (fun p s => (s.takeFlight m c).runFlights p m.site)

/-- A move of the sequencer itself, which completes one cycle after it issues (Table 7.3). -/
def State.issueInstant (s : State) (m : MoveHdr) (c : Instr) (go : Nat → State → State) : State :=
  s.issueMove m c (fun p s => (go p s).credit m.site m.cdone.toNat)

/-- CHECK (R192): satisfied at once, or it holds issue until its counter reaches COUNT. -/
def State.issueCheck (s : State) (m : MoveHdr) (ctr : BitVec 8) (count grace : BitVec 24) : State :=
  s.issueMove m (.check m ctr count grace) (fun p s =>
    if count.toNat ≤ s.ctr m.site ctr.toNat then s.credit m.site m.cdone.toNat
    else
      let s := s.modDie m.site (fun d =>
        { d with check := some { index := m.index, start := m.start, cdone := m.cdone, ctr := ctr, count := count, grace := grace,
                                 deadline := BitVec.ofNat 64 (m.start.toNat + grace.toNat), since := m.cycle } })
      let s := (s.setFlag .sqStatus m.site 0 17 true).traceEvent p m.site 1 m.index m.start m.cycle.toNat
      s.settleHold p m.site m.cycle.toNat)

/-- YIELD (R196): while pre-emption is pending the die stops issuing, and reports yielded once its moves in flight are at rest. -/
def State.issueYield (s : State) (m : MoveHdr) : State :=
  s.issueInstant m (.yield m) (fun p s =>
    if s.flag .sqPreempt p 0 0 then
      ((s.modDie m.site (fun d => { d with yielding := true })).traceEvent p m.site 3 m.index m.start m.cycle.toNat).settleYield m.site
    else s)

/-- TRACE (R498): a record while TAGS is 1, otherwise a NOP. -/
def State.issueTrace (s : State) (m : MoveHdr) (label : BitVec 16) : State :=
  s.issueInstant m (.trace m label) (fun p s =>
    if s.flag .dbTraceCtl p 0 0 then s.traceRec p m.site 0 m.index m.start m.cycle.toNat label.toNat else s)

/-! Completion -/

/-- A move in flight completes (R191): its counter is credited, and what waited for it goes on. -/
def State.landFlight (s : State) (p i : Nat) (f : Flight) (cycle : Nat) : State :=
  let s := s.modDie i (fun d => { d with flights := d.flights.filter (fun g => decide (g.index ≠ f.index)) })
  let s := match f.counter with
    | some n => s.bump n i
    | none => s
  (((s.credit i f.cdone.toNat).runFlights p i).settleCheck p i cycle).settleYield i

/-- A move in flight may complete: it has been performed to its end, its tiles have all been pushed (R115), and it is no SEND, which
completes on its SACK. -/
def Die.mayLand (d : Die) (f : Flight) : Bool :=
  !f.waits && !f.stopped && f.sendXid.isNone && d.waitingTiles.all (fun t => decide (t.label ≠ f.index))

/-- MOVE_COMPLETE: a move that has been performed reaches its completion time (R122, R173, Table 7.3). -/
def State.completeMove (s : State) (i : Nat) (index : BitVec 18) (cycle : Word) : State :=
  match s.siteOwner i with
  | none => s
  | some p =>
    match (s.die i).flights.find? (fun f => decide (f.index = index) && (s.die i).mayLand f) with
    | some f => s.landFlight p i f cycle.toNat
    | none => s

/-- A SACK for a transfer of a site (R216): its SEND completes. -/
def State.sackFor (s : State) (i : Nat) (xid : BitVec 16) (cycle : Word) : State :=
  match s.siteOwner i with
  | none => s
  | some p =>
    match (s.die i).flights.find? (fun f => decide (f.sendXid = some xid)) with
    | some f => s.landFlight p i f cycle.toNat
    | none => s

/-- The grace of a CHECK runs out (R192): LATE_DATA, SQ_LATE, and the turn aborts. Suspended in fault hold (R193) and while a rook of the
partition is halted (R493). -/
def State.lateData (s : State) (i : Nat) (cycle : Word) : State :=
  match s.siteOwner i, (s.die i).check with
  | some p, some c =>
    if s.inPlay p && !s.flag .sqStatus i 0 18 && !s.anyHalted p && decide (c.deadline.toNat ≤ cycle.toNat) then
      let v := s.ctr i c.ctr.toNat
      let s := s.setReg .sqLate i 0 (BitVec.ofNat 64 (c.ctr.toNat * 2 ^ 50 + c.index.toNat * 2 ^ 32 + v))
      let s := s.traceEvent p i 4 c.index c.start cycle.toNat
      let s := s.eventAny 0x5 0x32 (some p) (siteSquare i) (leBytes 8 (s.reg .sqLate i).toNat)
      s.abortTurn p abortLate
    else s
  | _, _ => s

/-! Resumption and skipping (R318, R319) -/

/-- The die cycle of a site at the present tick of a partition's play, counted on its own square's clock copy (R83). -/
def State.dieCycle (s : State) (p i : Nat) : Nat :=
  ((s.now (siteSquare i)).toNat - (s.reg .tnStart p).toNat) * cyclesPerTick (s.stepNow p)

/-- The ganging mode of a move in flight (R170). -/
def State.flightMode (s : State) (i : Nat) (index : BitVec 18) : Nat :=
  (((s.die i).flights.find? (fun f => decide (f.index = index))).map (fun f => f.mode)).getD (s.modeNow i)

/-- A stopped operation goes on from its recorded row, with a skip list (R318). -/
def State.resumeMove (s : State) (p i key : Nat) (x : Stopped) (skips : List Handle) : State :=
  match moveHdr x.move with
  | none => s
  | some m =>
    let s := s.modDie i (fun d =>
      { d with
        stopped := Sparse.ndrop d.stopped key
        flights := d.flights.map (fun f => if f.index = m.index then { f with stopped := false } else f) })
    let s := if key < 8 then
        (s.setField .sqDmaProg i key 62 2 (if skips = [] then 0 else 2)).setField .sqDmaFlt i key 27 5 skips.length
      else s
    let m := { m with cycle := BitVec.ofNat 64 (s.dieCycle p i) }
    let s := s.perform p i (s.flightMode i m.index) m x.move x.row skips x.kept
    (s.runFlights p i).settleHold p i (s.dieCycle p i)

/-- A handle goes on the die's not-advanced list (R193, R319). -/
def State.listNotAdvanced (s : State) (i : Nat) (h : Handle) : State :=
  s.modDie i (fun d => { d with notAdvanced := if h ∈ d.notAdvanced then d.notAdvanced else d.notAdvanced ++ [h] })

/-- The handles of the unmasked rows of an operation from a row on. -/
def State.handlesFrom (s : State) (p i : Nat) (x : Stopped) : List Handle :=
  match x.move, moveHdr x.move with
  | .load _ d _, some m | .store _ d _, some m | .send _ d _, some m =>
    match s.dmaDesc p i d.toNat with
    | some b => (s.dmaLive i { desc := b } m.mask x.row).map (fun r => (s.rowStream i (DmaDesc.sel { desc := b }) r).1)
    | none => []
  | c, some m =>
    match vecMove c with
    | some (f, v) =>
      match s.vecOp p i f m.mask v (s.flightMode i m.index) with
      | some o =>
        match o.shape with
        | some shape => ((rangeFrom x.row (shape.rows - x.row)).filter (s.vecLive i o [])).flatMap (fun r => o.ins.filterMap (fun v => v.bind (fun v =>
            if v.kind = 5 then some (s.rowStream i (v.sel % 65536) r).1 else none)))
        | none => []
      | none => []
    | none => []
  | _, none => []

/-- The rook abandons an operation (R193, R319): it completes as abandoned, and the handles of its rows from the recorded row on go on
the not-advanced list. -/
def State.abandonMove (s : State) (p i key : Nat) (x : Stopped) : State :=
  match moveHdr x.move with
  | none => s
  | some m =>
    let s := (s.handlesFrom p i x).foldl (fun s h => s.listNotAdvanced i h) s
    let s := (s.modDie i (fun d => { d with stopped := Sparse.ndrop d.stopped key })).bump .sqAbandoned i
    let s := if key < 8 then s.setField .sqDmaProg i key 62 2 3 else s
    match (s.die i).flights.find? (fun f => decide (f.index = m.index)) with
    | some f => s.landFlight p i f (s.dieCycle p i)
    | none => s

/-- The rook skips the handle at which an operation stopped (R319). -/
def State.skipHandle (s : State) (p i key : Nat) (x : Stopped) : State :=
  if 16 ≤ x.skips.length then s.abandonMove p i key x
  else ((s.bump .stSkipped p).listNotAdvanced i x.handle).resumeMove p i key x (x.skips ++ [x.handle])

end Sys2Proof.Machine
end

