-- ==== Sys2Proof/Machine/BookImage.lean ====
section
/-! DEFINITION. A book image as bytes: the header and the directory (Table 7.1, R178), the sections (Table 7.2, R179), and the checks of
Table 7.10 that read the image alone. -/

namespace Sys2Proof.Machine

/-- One directory entry (R178): TYPE, MAP, SITE, LEN, OFFSET, the CRC-32C, and whether its reserved bytes are zero. -/
structure BookSection where
  kind : Nat
  map : Nat
  site : Nat
  len : Nat
  offset : Nat
  crc : BitVec 32
  clean : Bool
  deriving DecidableEq, Repr

/-- Directory entry k: the directory follows the 256-byte header (R178). -/
def directoryEntry (img : List Byte) (k : Nat) : BookSection :=
  let e := (img.drop (256 + 24 * k)).take 24
  { kind := bytesAt e 0 2, map := bytesAt e 2 1, site := bytesAt e 3 1, len := bytesAt e 4 4, offset := bytesAt e 8 8,
    crc := BitVec.ofNat 32 (bytesAt e 16 4), clean := decide (bytesAt e 20 4 = 0) }

def bookSections (img : List Byte) : List BookSection := (List.range (bytesAt img 40 4)).map (directoryEntry img)

def BookSection.bytes (x : BookSection) (img : List Byte) : List Byte := (img.drop x.offset).take x.len

/-- ASCII "PX49BOOK" (Table 7.1). -/
def bookMagic : List Byte := [0x50, 0x58, 0x34, 0x39, 0x42, 0x4F, 0x4F, 0x4B]

/-- The first check of Table 7.10: MAGIC, VERSION, IMAGE_LEN, the directory within the image, and every TYPE in Table 7.2. -/
def frameGood (img : List Byte) : Bool :=
  decide (img.take 8 = bookMagic ∧ bytesAt img 8 2 = 1 ∧ bytesAt img 48 8 = img.length ∧ img.length ≤ 2 ^ 32 ∧
    256 + 24 * bytesAt img 40 4 ≤ img.length) &&
  (bookSections img).all (fun x => decide (1 ≤ x.kind ∧ x.kind ≤ 8 ∧ x.offset + x.len ≤ img.length) && x.clean)

/-- Reserved bits and bytes of the header are zero, and its counts are those of Table 7.1. -/
def bookHeaderGood (img : List Byte) : Bool :=
  let flags := bytesAt img 10 2
  let maps := bytesAt img 12 1
  let modules := bytesAt img 14 1
  decide (flags < 4 ∧ 1 ≤ maps ∧ maps ≤ 8 ∧ bytesAt img 13 1 < 8 ∧ bytesAt img 15 1 = 0 ∧ bytesAt img 44 4 = 0 ∧ bytesAt img 64 192 = 0) &&
  decide (if flags / 2 = 1 then 2 ≤ modules ∧ modules ≤ 4 else modules = 1)

/-- The second check: IMAGE_CRC over the image with bytes 56 to 63 taken as zero, and every section's CRC-32C. -/
def crcsGood (img : List Byte) : Bool :=
  decide ((crc64 (overlay img 56 (leBytes 8 0))).toNat = bytesAt img 56 8) &&
  (bookSections img).all (fun x => decide (crc32c (x.bytes img) = x.crc))

/-- Cut a list into pieces of n, dropping an incomplete last one. -/
def piecesOf {α : Type} (n : Nat) (l : List α) : List (List α) := (List.range (l.length / max 1 n)).map (fun k => (l.drop (n * k)).take n)

/-- The moves of a MOVES section: 16 bytes each, in table order. -/
def movesOf (l : List Byte) : List (BitVec 128) := (piecesOf 16 l).map (fun b => BitVec.ofNat 128 (leNat b))

/-- A circuit-plan entry (Table 8.5). -/
def circuitOf (map : Nat) (b : List Byte) : Circuit :=
  let v : BitVec 128 := BitVec.ofNat 128 (leNat b)
  { map := map, slots := BitVec.ofNat 64 (bitsAt v 64 64), yThenX := bitAt v 16, dest := BitVec.ofNat 8 (bitsAt v 8 8),
    src := BitVec.ofNat 8 (bitsAt v 0 8) }

/-- A CIRCUITS section (R223): its count, and as many entries as it holds. -/
def circuitsOf (map : Nat) (l : List Byte) : List Circuit := ((piecesOf 16 (l.drop 8)).take (bytesAt l 0 8)).map (circuitOf map)

/-- A CIRCUITS section is as long as its count says, and the reserved bits of its entries are zero (Table 8.5, R224). -/
def circuitSectionGood (l : List Byte) : Bool :=
  let n := bytesAt l 0 8
  decide (n ≤ 255 ∧ l.length = 8 + 16 * n) && (piecesOf 16 (l.drop 8)).all (fun b => decide (leNat b / 2 ^ 17 % 2 ^ 47 = 0))

/-- The sections of one TYPE. -/
def sectionsOf (img : List Byte) (kind : Nat) : List BookSection := (bookSections img).filter (fun x => decide (x.kind = kind))

/-- Put together what each section of a TYPE holds; none where one of them cannot be read. -/
def gatherSections {α : Type} (img : List Byte) (kind : Nat) (read : BookSection → List Byte → Option (List α)) : Option (List α) :=
  (sectionsOf img kind).foldl (fun acc x =>
    match acc, read x (x.bytes img) with
    | some l, some m => some (l ++ m)
    | _, _ => none) (some [])

/-- A MOVES section as a table: its map and site, its moves and the CRC-32C that table verification compares (R415). -/
def tableOf (x : BookSection) (l : List Byte) : MoveTable :=
  { map := x.map, site := x.site, reshard := false, moves := movesOf l, crc := x.crc }

/-- The sections whose inner layout Table 7.2 does not give, under the map and site of their directory entry. -/
def readMaps (x : BookSection) (l : List Byte) : Option (List MapEntry) := (Config.bookMap l).map (fun r => r.map (fun e => { e with map := x.map }))
def readDescs (x : BookSection) (l : List Byte) : Option (List DescTables) :=
  (Config.bookDescriptors l).map (fun r => r.map (fun d => { d with map := x.map, site := x.site }))
def readReshardDescs (x : BookSection) (l : List Byte) : Option (List DescTables) :=
  (Config.bookReshardDescriptors l).map (fun r => r.map (fun d => { d with map := x.map, site := x.site }))
def readReshardTables (x : BookSection) (l : List Byte) : Option (List MoveTable) :=
  (Config.bookTables l).map (fun r => r.map (fun t => { t with map := x.map, site := x.site, reshard := true, crc := x.crc }))
def readSheets (x : BookSection) (l : List Byte) : Option (List SheetDecl) :=
  (Config.bookSheets l).map (fun r => r.map (fun e => { e with map := x.map }))

/-- A book as its image gives it; none where a section cannot be read. -/
def bookOf (img : List Byte) : Option Book :=
  match gatherSections img 1 (fun _ l => Config.bookSites l), gatherSections img 2 readMaps, gatherSections img 4 readDescs,
    gatherSections img 7 readReshardTables, gatherSections img 7 readReshardDescs, gatherSections img 6 readSheets with
  | some sites, some entries, some descs, some plans, some planDescs, some sheets =>
    some
      { crc := BitVec.ofNat 64 (bytesAt img 56 8), version := BitVec.ofNat 16 (bytesAt img 8 2),
        traceSlots := decide (bytesAt img 10 2 % 2 = 1), span := decide (bytesAt img 10 2 / 2 % 2 = 1), mapCount := bytesAt img 12 1,
        minStep := BitVec.ofNat 3 (bytesAt img 13 1), modules := bytesAt img 14 1, samDigest := BitVec.ofNat 64 (bytesAt img 16 8),
        regions := BitVec.ofNat 16 (bytesAt img 24 2), chgMin := bytesAt img 26 2, turnMin := bytesAt img 28 4,
        turnMax := bytesAt img 32 4, rookBudget := bytesAt img 36 4, sites := sites, entries := entries, descs := descs,
        tables := (sectionsOf img 3).map (fun x => tableOf x (x.bytes img)) ++ plans, reshardDescs := planDescs,
        circuits := (sectionsOf img 5).flatMap (fun x => circuitsOf x.map (x.bytes img)), sheets := sheets,
        rook := (sectionsOf img 8).flatMap (fun x => x.bytes img) }
  | _, _, _, _, _, _ => none

/-- The turn and changeover bounds of Table 7.1. -/
def Book.boundsGood (b : Book) : Bool :=
  decide (1000 ≤ b.chgMin ∧ b.chgMin ≤ 10000 ∧ 25000 ≤ b.turnMin ∧ b.turnMin ≤ b.turnMax ∧ b.turnMax ≤ 800000)

/-- The limits that Table 7.2 sets on the sections themselves: a whole number of moves, the plan of each CIRCUITS section, 4,095 entries
in a descriptor table, and 1 MiB of rook program. -/
def sectionsGood (img : List Byte) (b : Book) : Bool :=
  (sectionsOf img 3).all (fun x => decide (x.len % 16 = 0)) && (sectionsOf img 5).all (fun x => circuitSectionGood (x.bytes img)) &&
  (b.descs ++ b.reshardDescs).all (fun d => decide (d.matrix.length ≤ 4095 ∧ d.vector.length ≤ 4095 ∧ d.dma.length ≤ 4095 ∧
    d.oplist.length ≤ 4095)) &&
  decide (b.rook.length ≤ 2 ^ 20)

/-! The circuit plan (R224) -/

/-- The corner squares of the panel. -/
def cornerSquare (q : Nat) : Bool :=
  match squareKind q with
  | .referee | .clock | .sense | .service => true
  | _ => false

/-- A square on the panel's edge. -/
def perimeterSquare (q : Nat) : Bool :=
  match squareKind q with
  | .referee | .clock | .sense | .service | .optical _ => true
  | _ => false

/-- The far square of an output of a square. -/
def outputEnd (x : Nat × Nat) : Option Nat := if x.2 < 4 then neighbour x.1 x.2 else none

/-- A circuit owns at most 32 slots of a link between two perimeter squares. -/
def Circuit.perimeterGood (c : Circuit) : Bool :=
  decide ((bitList 64 c.slots).length ≤ 32) ||
  !((circuitRoute c).any (fun x => match outputEnd x with
    | some q => perimeterSquare x.1 && perimeterSquare q
    | none => false))

/-- Two circuits share a link or an engine port, and own a common slot of it. -/
def Circuit.clash (c d : Circuit) : Bool := decide (c.slots &&& d.slots ≠ 0) && (circuitRoute c).any (fun x => decide (x ∈ circuitRoute d))

/-- No two entries of a list are related. -/
def noPair {α : Type} (bad : α → α → Bool) : List α → Bool
  | [] => true
  | x :: l => l.all (fun y => !bad x y) && noPair bad l

/-- The plan of one map. -/
def State.planGood (s : State) (p : Nat) (l : List Circuit) : Bool :=
  decide (l.length ≤ 255) && noPair Circuit.clash l &&
  l.all (fun c => decide (c.slots ≠ 0) && c.perimeterGood && !cornerSquare c.src.toNat && !cornerSquare c.dest.toNat &&
    (c.src.toNat :: c.dest.toNat :: (circuitRoute c).map Prod.fst).all (fun q => decide (s.owner q = some p)))

/-! Spanning (R375) -/

/-- The engines that a book names as circuit endpoints. -/
def Book.engines (b : Book) : List Nat :=
  (b.circuits.filterMap (fun c => match squareKind c.dest.toNat with
    | .optical e => some e
    | _ => none)).eraseDups

/-- The module and partition that a quad's partner announced (Table 13.10). -/
def State.partnerPart (s : State) (n : Nat) : Nat × Nat := ((s.partnerOf n).toNat, s.field .olQstatus n 0 40 3)

/-- The quads of an engine that are not DARK. -/
def State.engineQuads (s : State) (e : Nat) : List Nat := (rangeFrom (4 * e) 4).filter (fun n => decide (s.quadRole n ≠ roleDark))

/-- An engine may be a circuit endpoint (R375): its quads are DIRECT and UP and lead to one partner. The length of a fibre is not
state. -/
def State.engineDirect (s : State) (e : Nat) : Bool :=
  let l := s.engineQuads e
  decide (l ≠ []) && l.all (fun n => decide (s.quadRole n = roleDirect) && s.quadIsUp n && decide (s.partnerPart n = s.partnerPart (l.headD 0)))

/-- The other members of a spanning book: the partners of the engines it names. -/
def State.membersOf (s : State) (b : Book) : List (Nat × Nat) :=
  if b.span then (b.engines.map (fun e => s.partnerPart ((s.engineQuads e).headD 0))).eraseDups else []

/-- Every member that a spanning book names can be reached. -/
def State.spanReached (s : State) (b : Book) : Bool := !b.span || b.engines.all s.engineDirect

end Sys2Proof.Machine
end

