-- ==== Sys2Proof/Machine/BookChecks.lean ====
section
/-! DEFINITION. Verification of the sections of a site (Table 7.10): regions, moves, matrix, vector and DMA operands, YIELD spacing. -/

namespace Sys2Proof.Machine

/-! Regions (R52, R54, R180) -/

/-- A region word of a site entry in use: VALID. -/
def regionValid (v : Word) : Bool := bitAt v 63

/-- Start and end of a region word in bytes (Table 2.5). -/
def regionSpan (v : Word) : Nat × Nat := (4096 * bitsAt v 0 16, 4096 * (bitsAt v 0 16 + bitsAt v 32 16))

/-- Every byte of a span lies in a declared bank (R51, R52). -/
def spanDeclared (banks : BitVec 16) (size : Nat) (x : Nat × Nat) : Bool :=
  let bank := max 1 (size / 16)
  (rangeFrom (x.1 / bank) ((x.2 - 1) / bank - x.1 / bank + 1)).all (fun b => bitAt banks b)

/-- A region word lies within die memory and the declared banks, with no reserved value (R52, R54, Table 2.5). -/
def regionGood (banks : BitVec 16) (size : Nat) (v : Word) : Bool :=
  !regionValid v ||
  (decide (bitsAt v 32 16 ≠ 0 ∧ bitsAt v 61 2 ≠ 2 ∧ bitsAt v 48 13 = 0 ∧ bitsAt v 16 16 = 0 ∧ (regionSpan v).2 ≤ size) &&
    spanDeclared banks size (regionSpan v))

/-- A region of a map entry by its index. -/
def MapEntry.region (e : MapEntry) (n : Nat) : Word := e.regions.getD n 0

/-- The indices that R180 sets apart: both table regions and the sheet region. -/
def SiteDecl.fixed (d : SiteDecl) : List Nat := [d.tableA.toNat, d.tableB.toNat, d.sheet.toNat]

/-- The regions of a map entry under R52, R54 and R180. -/
def entryGood (d : SiteDecl) (size : Nat) (first e : MapEntry) : Bool :=
  decide (e.mode.toNat ≤ 4 ∧ e.regions.length ≤ 32) && e.regions.all (regionGood d.banks size) &&
  d.fixed.all (fun n => regionValid (e.region n) && decide (bitsAt (e.region n) 61 2 = 0 ∧ e.region n = first.region n))

/-! Matrix operands (R105, R107, R119, R132, R181) -/

/-- What verification reads of one table: the site and its declarations, the map entry and descriptors in force when it runs, masks, the
size of the circuit plan, the book's flags, and the physical spans of every site's table and sheet regions. -/
structure CheckCtx where
  site : Nat
  decl : SiteDecl
  entry : MapEntry
  guards : List (Int × Int)
  desc : DescTables
  masks : Nat
  circuits : Nat
  traceSlots : Bool
  minStep : Nat
  reshard : Bool
  deriving Repr

/-- A region that a descriptor names is valid in the map in force (R54). -/
def CheckCtx.names (x : CheckCtx) (n : Nat) : Bool := regionValid (x.entry.region n)

/-- Physical bytes that a move may write: none of a table or sheet region of any site (R180), whatever region or window they are
reached through. -/
def CheckCtx.spares (x : CheckCtx) (l : List (Int × Int)) : Bool :=
  l.all (fun a => x.guards.all (fun g => !decide (a.1 < g.2 ∧ g.1 < a.2)))

/-- The physical span of a region of the site. -/
def CheckCtx.regionBytes (x : CheckCtx) (n : Nat) : Int × Int :=
  let (a, b) := regionSpan (x.entry.region n)
  ((dieBase x.site + a : Nat), (dieBase x.site + b : Nat))

/-- The part of a list of die-memory spans that lies in a region: a write beyond its region is discarded, or a bus error (R170, R171). -/
def CheckCtx.inRegion (x : CheckCtx) (n : Nat) (l : List (Int × Int)) : List (Int × Int) :=
  let (lo, hi) := x.regionBytes n
  l.filterMap (fun (a, b) => if max a lo < min b hi then some (max a lo, min b hi) else none)

def isMx (fmt : Nat) : Bool := decide (11 ≤ fmt ∧ fmt ≤ 16)
def sixBit (fmt : Nat) : Bool := decide (fmt = 5 ∨ fmt = 6 ∨ fmt = 13 ∨ fmt = 14)

/-- A matrix operand descriptor (Table 7.4): its reserved and unused fields, its format, its regions, and the starts of a 6-bit
operand. DESIGN CHOICE (log 75): the 3-byte groups of R132 are counted from the region's start, as OFFSET is; R132 does not say from where. -/
def CheckCtx.matrixGood (x : CheckCtx) (d : BitVec 256) : Bool :=
  let fmt := bitsAt d 120 5
  decide (bitsAt d 0 78 = 0 ∧ bitsAt d 125 3 = 0 ∧ fmt ≤ 17 ∧ fmt ≠ 10) && x.names (bitsAt d 110 5) &&
  (if isMx fmt then x.names (bitsAt d 115 5) else decide (bitsAt d 128 32 = 0 ∧ bitsAt d 78 32 = 0)) &&
  decide (!sixBit fmt ∨ (bitsAt d 160 32 % 3 = 0 ∧ signed32 d 192 % 3 = 0 ∧ signed32 d 224 % 3 = 0))

/-- Every region that a descriptor of the site's tables names, used or not, is valid in the map in force (R54, R207). -/
def CheckCtx.descsGood (x : CheckCtx) : Bool :=
  x.desc.matrix.all (fun d => x.names (bitsAt d 110 5) && (!isMx (bitsAt d 120 5) || x.names (bitsAt d 115 5))) &&
  x.desc.vector.all (fun d => decide (bitsAt d 7 3 ≠ 0 ∧ bitsAt d 7 3 ≠ 4) || x.names (bitsAt d 0 5)) &&
  x.desc.dma.all (fun d => x.names (bitsAt d 59 5))

/-- Plain or MX FP4, FP6 or FP8. -/
def smallFloat (fmt : Nat) : Bool := decide ((3 ≤ fmt ∧ fmt ≤ 7) ∨ (11 ≤ fmt ∧ fmt ≤ 15))

/-- The pairs that a pass accepts (R107), A before B. -/
def pairGood (a b : Nat) : Bool :=
  (smallFloat a && smallFloat b) ||
  (decide (b = fmtSb3) && decide (a = 3 ∨ a = 4 ∨ a = 11 ∨ a = 12)) ||
  (decide (a = b) && decide (a = 0 ∨ a = 1 ∨ a = 2 ∨ a = 16)) ||
  (decide (a = 8 ∨ a = 9) && decide (b = 8 ∨ b = 9))

/-- K of a pass (R105). -/
def kGood (a b k : Nat) (pos : Bool) : Bool :=
  decide (1 ≤ k) && (!(isMx a || isMx b) || decide (k % 32 = 0)) &&
  (decide (b ≠ fmtSb3) || decide (k % (if pos then 16 else 128) = 0))

/-- A PASS under the mode in force. -/
def CheckCtx.passGood (x : CheckCtx) (body : BitVec 78) : Bool :=
  let pos := bitAt body 13
  match x.desc.matrix[bitsAt body 50 12]?, x.desc.matrix[bitsAt body 38 12]? with
  | some a, some b =>
    let fa := bitsAt a 120 5
    let fb := bitsAt b 120 5
    x.matrixGood a && x.matrixGood b && pairGood fa fb && kGood fa fb (bitsAt body 18 20) pos &&
    (!(decide (fb = fmtSb3) && pos) || decide (bitsAt b 160 32 % 1024 = 0 ∧ bitsAt b 224 32 % 1024 = 0))
  | _, _ => false

/-- A group of arrays lies within a mode (Table 4.1). -/
def groupGood (mode : Nat) (body : BitVec 78) : Bool :=
  decide (bitsAt body 70 8 + bitsAt body 62 8 + 1 ≤ gangArrays mode * gangArrays mode)

/-! Vector streams (R134, R136, R138, R151 to R155, R527) -/

/-- The companion that an AUX field names: an INT32 index stream, or a RAW8 scale array. -/
def CheckCtx.auxOf (x : CheckCtx) (v : VStream) : Option VStream := (x.desc.vector[v.aux]?).map (fun d => { desc := d })

/-- The scale array of an MX stream (R152). -/
def scaleShape (v a : VStream) : Bool :=
  decide (v.n0 % 32 = 0 ∧ a.fmt = fmtRaw8 ∧ 32 * a.n0 = v.n0 ∧ a.n1 = v.n1 ∧ a.n2 = v.n2 ∧ a.n3 = v.n3)

/-- Where the rows of an SB3 stream's groups begin is 1 KiB-aligned (R527). -/
def sb3Shape (v : VStream) : Bool :=
  decide (v.kind = 0 ∧ v.n0 = 128 ∧ v.rows % 16 = 0) &&
  (List.range (v.rows / 16)).all (fun g => let (a, b, c) := v.split (16 * g); decide (v.rowAt a b c % 1024 = 0))

/-- What a stream descriptor must hold by itself (R132, R151, R154, R155): its reserved bits, KIND and FMT, what SEL may be for its KIND,
the region it names, and its rows on packing-group boundaries (counted from the region's start, as in matrixGood). -/
def CheckCtx.streamBase (x : CheckCtx) (mode : Nat) (v : VStream) : Bool :=
  let k := v.kind
  decide (bitsAt v.desc 40 12 = 0 ∧ bitsAt v.desc 5 2 = 0 ∧ k ≤ 6 ∧ v.fmt ≤ 18) && decide (k ≠ 4 ∧ k ≠ 5 ∨ mode = 0) &&
  (match k with
    | 0 | 4 => decide (v.sel = 0) && x.names v.region
    | 1 => decide (v.fmt = 0 ∨ v.fmt = 10)
    | 2 => decide ((v.fmt = 0 ∨ v.fmt = 10) ∧ v.sel < 256)
    | 3 => decide (v.sel / 2 % 128 = 0)
    | 5 => decide (v.sel < 65536)
    | _ => decide (v.sel < 131072 ∧ v.stride3 = 0)) &&
  decide (!sixBit v.fmt ∨ (v.offset % 3 = 0 ∧ v.stride1 % 3 = 0 ∧ v.stride2 % 3 = 0 ∧ v.stride3 % 3 = 0))

/-- The index stream of an INDEX or STATE stream (R154, R155): INT32, in memory, in tails, or one constant. DESIGN CHOICE (log 76): R154
does not say which kinds an index stream may have; one that is itself INDEX, STATE, TILEQ or ACC is refused. -/
def CheckCtx.indexGood (x : CheckCtx) (mode : Nat) (a : VStream) : Bool :=
  x.streamBase mode a && decide (a.fmt = 10 ∧ (a.kind = 0 ∨ a.kind = 1 ∨ a.kind = 6))

/-- The physical bytes that a MEM stream addresses, one span a row or a granule; as a requester of die memory sees them. -/
def CheckCtx.memSpans (x : CheckCtx) (v : VStream) : List (Int × Int) :=
  let base : Int := (x.regionBytes v.region).1
  if v.fmt = fmtSb3 then
    (List.range (v.rows / 16)).map (fun g => let (a, b, c) := v.split (16 * g); (base + v.rowAt a b c, base + v.rowAt a b c + 1024))
  else
    let w := v.elem.1.width
    let n : Int := if v.rep0 then ((w + 7) / 8 : Nat) else ((w * v.n0 + 7) / 8 : Nat)
    (List.range v.rows).map (fun r => let (a, b, c) := v.split r; (base + v.rowAt a b c, base + v.rowAt a b c + n))

/-- A move that writes a stream leaves the tables and sheets alone (R180): what it can write of its region, which for an INDEX stream
is all of it. -/
def CheckCtx.writeGood (x : CheckCtx) (v : VStream) : Bool :=
  match v.kind with
  | 0 => x.spares (x.inRegion v.region (x.memSpans v))
  | 4 => x.spares [x.regionBytes v.region]
  | _ => decide (v.kind = 6)

/-- One stream of a vector move, read or written, under the mode in force (R151 to R155, R527), with its companion. -/
def CheckCtx.streamGood (x : CheckCtx) (mode : Nat) (write : Bool) (v : VStream) : Bool :=
  x.streamBase mode v && (!write || x.writeGood v) &&
  (decide (v.kind ≠ 4 ∧ v.kind ≠ 5) || (x.auxOf v).any (x.indexGood mode)) &&
  (!isMx v.fmt || (x.auxOf v).any (fun a => x.streamBase mode a && decide (a.kind = 0) && scaleShape v a && (!write || x.writeGood a))) &&
  (decide (v.fmt ≠ fmtSb3) || sb3Shape v)

/-- Two streams have one shape. -/
def sameShape (v w : VStream) : Bool := decide (v.n0 = w.n0 ∧ v.n1 = w.n1 ∧ v.n2 = w.n2 ∧ v.n3 = w.n3)

/-- A key or header record stream: INT32 records of four words, so many of them (R152). -/
def recordShape (v : VStream) (rows : Nat) : Bool := decide (v.fmt = 10 ∧ v.n0 = 4 ∧ v.rows = rows)

/-- The shape of output k of a function beside the operation's shape (R152, R163). -/
def outShape (f : VecFunc) (param : Nat) (s v : VStream) : Bool :=
  match f with
  | .rsum | .rmax | .rmin => decide (v.n0 = 1 ∧ v.n1 = s.n1 ∧ v.n2 = s.n2 ∧ v.n3 = s.n3)
  | .csum | .cmax | .cmin => decide (v.n0 = s.n0 ∧ v.n1 = 1 ∧ v.n2 = s.n2 ∧ v.n3 = s.n3)
  | .topk => decide (v.n0 = param ∧ v.n1 = s.n1 ∧ v.n2 = s.n2 ∧ v.n3 = s.n3)
  | .sample => decide (v.n0 = 1 ∧ v.n1 = s.n1 ∧ v.n2 = s.n2 ∧ v.n3 = s.n3) || sameShape s v
  | _ => sameShape s v

/-- The bytes that a stream addresses, where descriptors alone tell (R153): spans of die memory (space 0), or of the tails of a batch
row's half (space 1), each at 2^40 of its own. -/
def CheckCtx.spans (x : CheckCtx) (v : VStream) : List (Nat × Int × Int) :=
  match v.kind with
  | 0 => (x.memSpans v).map (fun a => (0, a.1, a.2))
  | 6 =>
    let w := v.elem.1.width
    let n : Int := if v.rep0 then ((w + 7) / 8 : Nat) else ((w * v.n0 + 7) / 8 : Nat)
    (List.range v.rows).map (fun r =>
      let (i1, i2, i3) := v.split r
      let o : Int := ((2 * (v.sel % 65536 + i3) + v.sel / 65536 % 2 : Nat) : Int) * 2 ^ 40 + v.offset + i1 * v.stride1 + i2 * v.stride2
      (1, o, o + n))
  | _ => []

def spansMeet (l m : List (Nat × Int × Int)) : Bool :=
  l.any (fun a => m.any (fun b => decide (a.1 = b.1 ∧ a.2.1 < b.2.2 ∧ b.2.1 < a.2.2)))

/-- Two streams address the same bytes, element for element (R153). -/
def CheckCtx.sameBytes (x : CheckCtx) (v w : VStream) : Bool :=
  decide (v.kind = w.kind ∧ x.spans v = x.spans w ∧ v.elem.1.width = w.elem.1.width ∧ v.n0 = w.n0 ∧ v.rep0 = w.rep0)

/-- R153: an output meets another stream only where it works in place on an input. The index streams and scale arrays of inputs are
read, and so are the index streams of outputs. -/
def CheckCtx.overlapGood (x : CheckCtx) (ins outs : List VStream) : Bool :=
  let aux (v : VStream) : List VStream := if isMx v.fmt ∨ v.kind = 4 ∨ v.kind = 5 then (x.auxOf v).toList else []
  let reads := ins ++ ins.flatMap aux ++ outs.flatMap (fun v => if v.kind = 4 then aux v else [])
  let scales := outs.flatMap (fun v => if isMx v.fmt then (x.auxOf v).toList else [])
  let writes := outs ++ scales
  writes.all (fun o => reads.all (fun v => !spansMeet (x.spans o) (x.spans v) || x.sameBytes o v)) &&
  noPair (fun a b => spansMeet (x.spans a) (x.spans b)) writes

/-- The function of a code (Table 6.4). -/
def funcOf (c : Nat) : Option VecFunc :=
  [VecFunc.add, .sub, .mul, .fma, .min, .max, .select, .div, .sqrt, .recip, .exp, .log, .rsqrt, .tanh, .sigmoid, .iadd, .imul, .cvt,
    .rsum, .rmax, .rmin, .csum, .cmax, .cmin, .softmax, .lnorm, .rmsnorm, .topk, .rand, .sample, .sb3enc].find?
      (fun f => decide (vecCode f = c))

/-- Input slots that may be left out (R160, R165). -/
def VecFunc.optional : VecFunc → List Nat
  | .softmax => [1, 2]
  | .sample => [2]
  | _ => []

/-- The formats of an operation (R138, R144, R166): SB3 stands only where CVT reads it, or CVT or SB3ENC writes it; RAW8 only in a CVT
from RAW8 to RAW8. -/
def formatsGood (f : VecFunc) (ins outs : List VStream) : Bool :=
  let src := (ins.headD { desc := 0 }).fmt
  let dst := (outs.headD { desc := 0 }).fmt
  match f with
  | .cvt => decide (src = fmtRaw8 ↔ dst = fmtRaw8)
  | .sb3enc => decide (dst = fmtSb3 ∧ src ≤ 4) && (match (ins.headD { desc := 0 }).kind with
    | 0 | 2 | 6 => true
    | _ => false)
  | _ => (ins ++ outs).all (fun v => decide (v.fmt < 17))

/-- SR is permitted toward the format of a stream (R136): neither SB3 nor RAW8 is among its targets. -/
def VStream.allowsSr (v : VStream) : Bool := decide (v.fmt ≠ fmtSb3 ∧ v.fmt ≠ fmtRaw8) && v.elem.1.allowsSr

/-- A VEC move under the mode in force: function code, RND, PARAM, the slots of its operand list, every stream, the shapes, SR targets,
MX element counts and overlaps. -/
def CheckCtx.vecGood (x : CheckCtx) (mode : Nat) (body : BitVec 78) : Bool :=
  match funcOf (bitsAt body 70 8), x.desc.oplist[bitsAt body 47 12]? with
  | some f, some l =>
    let rnd := bitsAt body 67 3
    let param := bitsAt body 15 32
    let slot (k : Nat) : Option VStream := (x.desc.vector[opSlot l k]?).map (fun d => { desc := d })
    let outs := (if f = .topk then [8, 9] else [8]).filterMap slot
    let sb3Out := decide ((outs.headD { desc := 0 }).fmt = fmtSb3)
    let header : List Nat := if f = .cvt ∧ sb3Out = true then [1] else []
    let key : List Nat := if rnd = 4 ∧ !sb3Out then [f.inputs] else []
    let slots := List.range f.inputs ++ header ++ key
    let present (k : Nat) : Bool := decide (opSlot l k = 0xFFF ∧ k ∈ f.optional) || (slot k).isSome
    let records := f.records sb3Out ++ key
    let data := (List.range f.inputs).filter (fun k => decide (k ∉ records))
    let ins := data.filterMap slot
    let all := slots.filterMap slot
    match (match ins.find? (fun v => decide (v.kind ≠ 1)) with
      | some v => some v
      | none => outs.head?) with
    | none => false
    | some sh =>
      decide (bitsAt l 120 136 = 0 ∧ rnd ≤ 4 ∧ bitsAt body 63 4 + bitsAt body 59 4 + 1 ≤ 16) &&
      slots.all present && decide (outs.length = (if f = .topk then 2 else 1)) &&
      (List.range 8).all (fun k => decide (k ∈ slots ∨ opSlot l k = 0xFFF)) && decide (f = .topk ∨ opSlot l 9 = 0xFFF) &&
      (match f with
        | .topk => decide (1 ≤ param ∧ param ≤ 64)
        | .lnorm | .rmsnorm => true
        | _ => decide (param = 0)) &&
      all.all (x.streamGood mode false) && outs.all (x.streamGood mode true) && formatsGood f ins outs &&
      ins.all (fun v => decide (v.kind = 1) || sameShape sh v) && outs.all (outShape f param sh) &&
      (f.records sb3Out).all (fun k => match slot k with
        | some v => recordShape v (if sb3Out then sh.rows / 16 else sh.rows)
        | none => true) &&
      key.all (fun k => match slot k with
        | some v => recordShape v 1
        | none => true) &&
      outs.all (fun v => !isMx v.fmt || decide (v.n0 * v.rows % 32 = 0)) &&
      (decide (rnd ≠ 4) || (outs.headD { desc := 0 }).allowsSr) &&
      decide (sh.n0 * sh.rows ≤ 16777216) && x.overlapGood all outs
  | _, _ => false

/-- Rows of the first stream of a vector move, which a mask governs (R156, R187). -/
def CheckCtx.vecRows (x : CheckCtx) (oplist : Nat) : Nat :=
  match x.desc.oplist[oplist]? with
  | none => 0
  | some l => ((List.range 10).filterMap (fun k => (x.desc.vector[opSlot l k]?).map (fun d => (VStream.mk d).rows))).foldl max 0

/-- The TILEQ columns that a vector move reads (R167). -/
def CheckCtx.columns (x : CheckCtx) (oplist : Nat) : List Nat :=
  match x.desc.oplist[oplist]? with
  | none => []
  | some l => (List.range 8).flatMap (fun k => match x.desc.vector[opSlot l k]? with
    | some d => if (VStream.mk d).kind = 2 then (VStream.mk d).tileColumns else []
    | none => [])

/-! DMA (R47, R182, R216) -/

/-- A DMA descriptor of a move: opcode 0x30 LOAD, 0x31 STORE, 0x32 SEND. What it writes is no table or sheet (R180). A row of the state
path is one state line of 1 KiB (DEDUCED: R47 has a DRAM operand in whole lines, R182 gives a row one line). -/
def CheckCtx.dmaGood (x : CheckCtx) (mode opc : Nat) (d : DmaDesc) : Bool :=
  let dram := inDram d.paddr.toNat
  let narrow := bitAt d.desc 58
  let near := (List.range d.rows).map (fun r => let o : Int := (x.regionBytes d.dregion).1 + d.near r; (o, o + (d.len : Int)))
  let far := (List.range d.rows).map (fun r => ((d.far r : Int), ((d.far r + d.len : Nat) : Int)))
  decide (bitsAt d.desc 0 12 = 0 ∧ d.path ≠ 3) && x.names d.dregion && (decide (opc ≠ 0x30) || x.spares (x.inRegion d.dregion near)) &&
  (decide (opc = 0x30 ∨ d.path = 2) || x.spares far) &&
  (if d.path = 1 then decide (d.circ < x.circuits) else decide (d.circ = 0)) &&
  (if d.path = 2 then decide (opc ≠ 0x32 ∧ d.len = 1024) && !narrow && (match x.desc.vector[d.aux]? with
      | some a => x.streamGood mode false { desc := a } && decide ((VStream.mk a).fmt = 10 ∧ (VStream.mk a).n0 = 4)
      | none => false)
   else
     decide (d.aux = 0xFFF) && (!narrow || dram) &&
     (!dram || narrow || decide (d.paddr % 1024 = 0 ∧ d.len % 1024 = 0 ∧ (d.rows = 1 ∨ d.pstride % 1024 = 0)))) &&
  (decide (opc ≠ 0x32) || (decide (d.lines (List.range d.rows) ≤ 4096) && (rangeFrom 0 d.rows).all (fun r =>
    decide (dieBase 0 ≤ d.far r ∧ d.far r + d.len ≤ dieBase 104))))

/-! Moves (R184 to R187) -/

def moveOpc (m : BitVec 128) : Nat := bitsAt m 120 8
def moveCdone (m : BitVec 128) : Nat := bitsAt m 112 8
def moveStart (m : BitVec 128) : Nat := bitsAt m 88 24
def moveMask (m : BitVec 128) : Nat := bitsAt m 78 10
def moveOperands (m : BitVec 128) : BitVec 78 := BitVec.ofNat 78 (bitsAt m 0 78)

/-- The number of reserved low bits in OPERANDS of each opcode (Table 7.7), for a defined opcode. -/
def reservedLow (opc : Nat) : Option Nat :=
  match opc with
  | 0x00 | 0x02 => some 78 | 0x01 => some 22 | 0x03 => some 62 | 0x10 => some 13 | 0x11 => some 60 | 0x12 => some 75 | 0x20 => some 15
  | 0x30 | 0x31 | 0x32 => some 63 | 0x40 => some 66
  | _ => none

/-- Rows that a mask of a move governs (R187). -/
def CheckCtx.maskedRows (x : CheckCtx) (mode : Nat) (m : BitVec 128) : Nat :=
  let b := moveOperands m
  match moveOpc m with
  | 0x10 => (bitsAt b 62 8 + 1) * 32 * gangCells mode
  | 0x20 => x.vecRows (bitsAt b 47 12)
  | 0x40 => x.vecRows (bitsAt b 66 12)
  | 0x30 | 0x31 | 0x32 => ((x.desc.dma[bitsAt b 66 12]?).map (fun d => (DmaDesc.mk d).rows)).getD 0
  | _ => 0

/-- One move under the mode in force. -/
def CheckCtx.moveGood (x : CheckCtx) (mode : Nat) (m : BitVec 128) : Bool :=
  let b := moveOperands m
  match reservedLow (moveOpc m) with
  | none => false
  | some n =>
    decide (b.toNat % 2 ^ n = 0) && decide (moveMask m < x.masks ∨ moveMask m = 0x3FF) &&
    decide (moveMask m = 0x3FF ∨ x.maskedRows mode m ≤ 8192) &&
    (match moveOpc m with
      | 0x03 => x.traceSlots
      | 0x10 => groupGood mode b && x.passGood b
      | 0x11 => groupGood mode b
      | 0x12 => decide (bitsAt b 75 3 ≤ 4)
      | 0x20 => x.vecGood mode b
      | 0x40 => (match x.desc.oplist[bitsAt b 66 12]? with
        | some l => decide (bitsAt l 0 96 = 2 ^ 96 - 1 ∧ bitsAt l 120 136 = 0) &&
            [0, 1].all (fun k => match x.desc.vector[opSlot l k]? with
              | some d => x.streamGood mode false { desc := d }
              | none => false)
        | none => false)
      | 0x30 | 0x31 | 0x32 => (match x.desc.dma[bitsAt b 66 12]? with
        | some d => x.dmaGood mode (moveOpc m) { desc := d }
        | none => false)
      | _ => true)

/-- The moves of a table in order, the mode traced through the GANG moves. -/
def CheckCtx.movesGood (x : CheckCtx) : Nat → List (BitVec 128) → Bool
  | _, [] => true
  | mode, m :: l => x.moveGood mode m && x.movesGood (if moveOpc m = 0x12 then bitsAt m 75 3 else mode) l

/-- START is strictly increasing (R190). -/
def startsRise : List (BitVec 128) → Bool
  | a :: b :: l => decide (moveStart a < moveStart b) && startsRise (b :: l)
  | _ => true

/-- The slices of a VEC move (R149). -/
def vecSlices (m : BitVec 128) : List Nat := rangeFrom (bitsAt m 63 4) (bitsAt m 59 4 + 1)

/-- R167: two vector moves could read one column's queue at the same time, the later one following in the list: they share a column and
no slice, and no CHECK on the first one's counter stands between (DEDUCED: what keeps two moves apart in time is a slice or a CHECK). -/
def CheckCtx.queueClash (x : CheckCtx) (a : BitVec 128) : List (BitVec 128) → Bool
  | [] => false
  | b :: l =>
    if moveOpc b = 0x01 ∧ moveCdone a ≠ 0xFF ∧ bitsAt b 70 8 = moveCdone a then false
    else
      (decide (moveOpc b = 0x20) && (x.columns (bitsAt a 47 12)).any (fun c => decide (c ∈ x.columns (bitsAt b 47 12))) &&
        (vecSlices a).all (fun k => decide (k ∉ vecSlices b))) || x.queueClash a l

def CheckCtx.queuesGood (x : CheckCtx) : List (BitVec 128) → Bool
  | [] => true
  | a :: l => (decide (moveOpc a ≠ 0x20) || decide (x.columns (bitsAt a 47 12) = []) || !x.queueClash a l) && x.queuesGood l

/-- YIELD spacing (R175): at most 50 µs at MIN_STEP from one YIELD to the next, and from the last one to the last move. -/
def yieldsFrom (limit : Nat) : Nat → List (BitVec 128) → Bool
  | _, [] => true
  | last, [m] => decide (moveStart m ≤ last + limit)
  | last, m :: l =>
    if moveOpc m = 0x02 then decide (moveStart m ≤ last + limit) && yieldsFrom limit (moveStart m) l else yieldsFrom limit last l

/-- A table that has moves has a YIELD within 50 µs after the start of play, and before its last move as yieldsFrom has it (R175). -/
def yieldsGood (limit : Nat) (l : List (BitVec 128)) : Bool := decide (l = []) || (l.any (fun m => moveOpc m = 0x02) && yieldsFrom limit 0 l)

/-- The whole table of a map and site, or of a reshard plan. -/
def CheckCtx.tableGood (x : CheckCtx) (t : MoveTable) : Bool :=
  x.descsGood &&
  decide (t.moves.length ≤ (if x.reshard then 16384 else 262144)) && startsRise t.moves && x.movesGood x.entry.mode.toNat t.moves &&
  x.queuesGood t.moves && yieldsGood (5000 * cyclesPerTick x.minStep) t.moves

/-! A site's sections -/

/-- The physical spans of the table and sheet regions of every site of a map (R180: the same in every map). -/
def Book.guards (b : Book) (m : Nat) : List (Int × Int) :=
  b.sites.flatMap (fun d => match b.entries.find? (fun e => decide (e.map = m ∧ e.site = d.site)) with
    | some e => d.fixed.map (fun n => (((dieBase d.site + (regionSpan (e.region n)).1 : Nat) : Int), ((dieBase d.site + (regionSpan (e.region n)).2 : Nat) : Int)))
    | none => [])

/-- The context of one table of a book at a site: a reshard plan runs with the regions of its source map. -/
def Book.checkCtx (b : Book) (i : Nat) (d : SiteDecl) (t : MoveTable) : Option CheckCtx :=
  let m := if t.reshard then t.map / 16 else t.map
  let descs := if t.reshard then b.reshardDescs else b.descs
  match b.entries.find? (fun e => decide (e.map = m ∧ e.site = i)) with
  | none => none
  | some e => some
    { site := i, decl := d, entry := e, guards := b.guards m,
      desc := (descs.find? (fun x => decide (x.map = t.map ∧ x.site = i))).getD
        { map := t.map, site := i, matrix := [], vector := [], dma := [], oplist := [] },
      masks := ((b.sheets.find? (fun x => decide (x.map = m ∧ x.site = i))).map (fun x => x.masks)).getD 0,
      circuits := (b.circuits.filter (fun c => decide (c.map = m))).length, traceSlots := b.traceSlots, minStep := b.minStep.toNat,
      reshard := t.reshard }

/-- The tables of a site hold as many moves as its MAP entries say, and every map of the book has its entry (Table 7.2). -/
def Book.siteComplete (b : Book) (i : Nat) : Bool :=
  (List.range b.mapCount).all (fun m => match b.entries.find? (fun e => decide (e.map = m ∧ e.site = i)) with
    | none => false
    | some e => decide (e.moves = ((b.tables.find? (fun t => decide (t.map = m ∧ t.site = i ∧ t.reshard = false))).map
        (fun t => t.moves.length)).getD 0))

/-- SHEETS entries (R199, R286): at most 1,023 masks and an even tail count. -/
def Book.sheetsGood (b : Book) (i : Nat) : Bool :=
  (b.sheets.filter (fun x => decide (x.site = i))).all (fun x => decide (x.masks ≤ 1023 ∧ x.tails % 2 = 0))

/-- What the rook of a site verifies (R206 step 3). -/
def Book.siteGood (b : Book) (i size : Nat) : Bool :=
  match b.sites.find? (fun d => decide (d.site = i)) with
  | none => false
  | some d =>
    let entries := b.entries.filter (fun e => decide (e.site = i))
    b.siteComplete i && b.sheetsGood i && entries.all (fun e => match entries.head? with
      | some first => entryGood d size first e
      | none => true) &&
    (b.tables.filter (fun t => decide (t.site = i))).all (fun t => match b.checkCtx i d t with
      | some x => x.tableGood t
      | none => false)

end Sys2Proof.Machine
end

