-- ==== Sys2Proof/Machine/RegisterCommands.lean ====
section
/-! DEFINITION. The commands that write registers: each is an access by its requester at the register's address (R8, R14 to R18), and the
register's own operation where it has one. -/

namespace Sys2Proof.Machine

/-- A write of a register of the given size by a requester: the access at its address, and what goes back. While the Referee's cores are frozen
no write leaves it (R242). -/
def State.writeKey (s : State) (r : Requester) (k : RegKey) (size : Nat) (value : Word) : State :=
  if s.blocked r then s else
  match s.access r false k.addr size (some (leBytes size value.toNat)) with
  | (s, x) => s.answered x

/-- A register access moves 1, 2, 4 or 8 bytes (R228), here naturally aligned. An access of any other form reaches no register, and
R43 refuses it. -/
def registerForm (a size : Nat) : Bool := decide (size ∈ [1, 2, 4, 8]) && decide (a % size = 0)

/-- REGISTER_WRITE: a write at an address of a privileged window or a user page (R8, R14 to R18, R523). -/
def State.registerWrite (s : State) (r : Requester) (a size : Nat) (value : Word) : State :=
  if s.blocked r then s
  else if registerForm a size then
    match s.access r false a size (some (leBytes size value.toNat)) with
    | (s, x) => s.answered x
  else (s.unmapped r.square .badArgument a).answered (.error .badArgument)

def execRegisterWrite (r : Requester) (addr : Addr) (size : Nat) (value : Word) (s : State) : Answered :=
  .next (s.registerWrite r addr.toNat size value)

/-- GC_SET (R74): a register write, which R15 drops from Ready on. -/
def execGcSet (r : Requester) (value : Word) (s : State) : Answered := .next (s.writeKey r (rk .gcSet) 8 value)

/-- GC_SLEW (R74): a register write by the Referee. -/
def execGcSlew (r : Requester) (value : Word) (s : State) : Answered := .next (s.writeKey r (rk .gcSlew) 8 value)

/-- REF_WDOG (R243). -/
def execRefWdog (r : Requester) (value : Word) (s : State) : Answered := .next (s.writeKey r (rk .refWdog) 8 value)

/-- A doorbell write through the Referee window (R252); the user pages reach the same register (R264). -/
def execMbRingProd (r : Requester) (part ring : Nat) (value : BitVec 32) (s : State) : Answered :=
  .next (s.writeKey r (rk .mbRingProd part ring) 4 (value.setWidth 64))

/-- A write of the completion consumer index (R254). -/
def execMbRingCqCons (r : Requester) (part ring : Nat) (value : BitVec 32) (s : State) : Answered :=
  .next (s.writeKey r (rk .mbRingCqCons part ring) 4 (value.setWidth 64))

/-- A write of MB_RINGn_CTL with ENABLE = 1 (R251). -/
def execRingEnable (r : Requester) (part ring : Nat) (value : Word) (s : State) : Answered :=
  .next (s.writeKey r (rk .mbRingCtl part ring) 8 (putBit value 0 true))

/-- A write of MB_RINGn_CTL with ENABLE = 0 (R257). -/
def execRingDisable (r : Requester) (part ring : Nat) (value : Word) (s : State) : Answered :=
  .next (s.writeKey r (rk .mbRingCtl part ring) 8 (putBit value 0 false))

/-- A write of ST_PIN_LEND (R306). -/
def execStPinLend (r : Requester) (part : Nat) (value : BitVec 8) (s : State) : Answered :=
  .next (s.writeKey r (rk .stPinLend part) 8 (value.setWidth 64))

/-- A write to a standing publish range (R68). -/
def execCcPubWrite (r : Requester) (part range : Nat) (isLen : Bool) (value : Word) (s : State) : Answered :=
  .next (s.writeKey r (rk (if isLen then .ccPubLen else .ccPubBase) part range) 8 value)

/-- A write of a pool window's map or quads (R361). -/
def execOlPoolMap (r : Requester) (window : Nat) (isQuads : Bool) (value : Word) (s : State) : Answered :=
  .next (s.writeKey r (rk (if isQuads then .olPoolQuads else .olPoolMap) 0 window) 8 value)

/-- A write of MC_ERASE (R387). -/
def execMcErase (r : Requester) (stack : Nat) (value : BitVec 5) (s : State) : Answered :=
  .next (s.writeKey r (rk .mcErase stack) 8 (value.setWidth 64))

end Sys2Proof.Machine
end

