-- ==== Sys2Proof/Machine/Mailbox.lean ====
section
/-! DEFINITION. The acceptance of mailbox commands and the commands that act at once or wait for a changeover: device, partition policy,
book.map and book.preempt, stream and state commands (chapters 1, 2, 7, 9, 10 and 11). -/

namespace Sys2Proof.Machine

/-! Levels and ways (Table 9.11) -/

/-- The level of a command or ring (R259): T below K below F. -/
inductive Level where
  | tenant | kernel | fleet
  deriving DecidableEq, Repr

def Level.rank : Level → Nat
  | .tenant => 0 | .kernel => 1 | .fleet => 2

/-- What Table 9.11 and the rules of acceptance say of one command: its opcode and level, whether it is device-level, whether the board
controller's path takes it (R266), and whether a fenced partition still takes it (R423). -/
structure MailRow where
  opcode : BitVec 16
  level : Level
  device : Bool := false
  bmc : Bool := false
  fencedToo : Bool := false
  /-- its operation reaches the hardware when it is accepted (R246) -/
  reached : Bool := false
  deriving Repr

/-- The level of the path that carries a command (R259, R266, R406). -/
def State.pathLevel (s : State) (c : Cmd) : Level :=
  match c.path with
  | .ring p n => match s.field .mbRingCtl p n 1 2 with
    | 0 => .tenant
    | 1 => .kernel
    | _ => .fleet
  | .bmc => .fleet
  | .mgmt _ _ _ _ => .kernel

/-- Completions that a ring's completion ring has room for, beside those owed (R254). -/
def State.ringRoom (s : State) (p n : Nat) : Bool :=
  let used := (s.field .mbRingCqProd p n 0 32 + 2 ^ 32 - s.field .mbRingCqCons p n 0 32) % 2 ^ 32
  decide (used + (s.ring p n).outstanding < ringEntries (s.reg .mbRingCq p n))

/-- A ring takes a command now (R252, R254, R255, R257). -/
def State.ringTakes (s : State) (p n : Nat) (fence : Bool) : Bool :=
  s.flag .mbRingCtl p n 0 && !(s.ring p n).closing && !s.flag .mbRingStatus p n 2 && s.ringRoom p n &&
  !(fence && decide ((s.ring p n).outstanding ≠ 0))

/-- Tolerabor accepts a command that reaches it by its path: while it runs, and where the path is a ring, while the ring takes it (R245,
R254). -/
def State.accepts (s : State) (c : Cmd) : Bool :=
  s.up && (match c.path with
    | .ring p n => s.ringTakes p n c.fence
    | _ => true)

/-- The journal entry and the completion that an accepted command is owed (R246, R254). -/
def State.enterCommand (s : State) (c : Cmd) (w : MailRow) : State :=
  let s := { s with referee := { s.referee with journal := s.referee.journal ++ [journalEntry c w.opcode w.reached] } }
  match c.path with
  | .ring p n => s.modRing p n (fun r => { r with outstanding := r.outstanding + 1 })
  | _ => s

/-- The first check of R259 that a command fails, up to its arguments; badArgs says that a reserved bit or an argument's range is
broken. -/
def State.refusal (s : State) (c : Cmd) (w : MailRow) (badArgs : Bool) : Option Status :=
  let t := c.target.toNat
  let any := decide (s.pathLevel c = .fleet)
  if (s.pathLevel c).rank < w.level.rank then some .notPermitted
  else if c.path = .bmc ∧ w.bmc = false then some .notPermitted
  else if w.device then
    if c.target ≠ 0xFF then some .notPermitted else if c.reserved || badArgs then some .badArgument else none
  else if ¬(cmdPart c = some t ∨ (any ∧ t < 8 ∧ s.formed t)) then some .notPermitted
  else if c.reserved || badArgs then some .badArgument
  else if (s.partFenced t || s.dissolving t) && !w.fencedToo then some .partitionFenced
  else none

/-- Take a command: accept it, check it, and do what it does; a refusal is its completion. -/
def State.take (s : State) (c : Cmd) (w : MailRow) (badArgs : Bool) (go : Nat → State → State) : State :=
  if !s.accepts c then s
  else
    let s := s.enterCommand c w
    match s.refusal c w badArgs with
    | some st => s.complete c w.opcode st
    | none => go c.target.toNat s

/-! device.* -/

/-- The partition whose regions device.info reports: the ring's own. -/
def State.infoRegions (s : State) (c : Cmd) : Nat :=
  match cmdPart c with
  | some p => s.field .ptRegions p 0 0 16
  | none => 0

def rowInfo : MailRow := { opcode := 0x0100, level := .tenant, device := true, bmc := true, fencedToo := true }

/-- device.info (R4, Table 9.11). -/
def State.deviceInfo (s : State) (c : Cmd) : State :=
  s.take c rowInfo false (fun _ s =>
    s.complete c 0x0100 .ok none (resultOf
      [(16, [BitVec.ofNat 8 Config.variant.code]), (17, [BitVec.ofNat 8 Config.variant.fusedStep]),
       (20, leBytes 4 Config.variant.powerLimit), (24, leBytes 8 (s.reg .refSamDigest).toNat),
       (32, leBytes 4 (s.reg .refFwVersion).toNat), (36, leBytes 4 (s.reg .refSamGen).toNat), (40, leBytes 2 (s.infoRegions c))]))

/-- The state a site will have once its pending change has applied. -/
def State.siteNext (s : State) (i : Nat) : SiteState := (Sparse.nfind s.flash.sitesNext i).getD (s.siteState i)

/-- Sites that are ENABLED, pending changes counted (R40). -/
def State.enabledNext (s : State) : Nat := ((List.range 104).filter (fun i => decide (s.siteNext i = .enabled))).length

def rowSiteEnable : MailRow := { opcode := 0x0101, level := .fleet, device := true, bmc := true }

def State.markSite (s : State) (i : Nat) (v : SiteState) : State := { s with flash := { s.flash with sitesNext := Sparse.nput s.flash.sitesNext i v } }

/-- device.site_enable (R40). -/
def State.siteEnable (s : State) (c : Cmd) (site : BitVec 8) : State :=
  s.take c rowSiteEnable (decide (103 < site.toNat)) (fun _ s =>
    let i := site.toNat
    if s.siteState i = .retired ∨ (s.siteNext i ≠ .enabled ∧ 100 ≤ s.enabledNext) then s.complete c 0x0101 .notPermitted
    else (s.markSite i .enabled).complete c 0x0101 .ok)

def rowSiteReserve : MailRow := { opcode := 0x0102, level := .fleet, device := true, bmc := true }

/-- device.site_reserve (R40). -/
def State.siteReserve (s : State) (c : Cmd) (site : BitVec 8) : State :=
  s.take c rowSiteReserve (decide (103 < site.toNat)) (fun _ s =>
    if s.siteState site.toNat = .retired then s.complete c 0x0102 .notPermitted
    else (s.markSite site.toNat .reserve).complete c 0x0102 .ok)

def rowGrantFleet : MailRow := { opcode := 0x0104, level := .fleet, device := true, bmc := true }

/-- device.grant_fleet (R251): a ring of a formed partition. -/
def State.grantFleet (s : State) (c : Cmd) (part ring : BitVec 8) : State :=
  s.take c rowGrantFleet (decide (7 < part.toNat ∨ 15 < ring.toNat) || !s.formed part.toNat) (fun _ s =>
    (s.setField .mbRingCtl part.toNat ring.toNat 1 2 2).complete c 0x0104 .ok)

/-! partition.publish, policy and grants -/

def rowPublish : MailRow := { opcode := 0x0204, level := .kernel, reached := true }

/-- The arguments of a publish (R67, Table 2.9): a range of whole lines in the partition's DRAM, of at most 4 GiB, and a direction. -/
def State.publishArgs (s : State) (p : Nat) (base : Word) (lines : BitVec 32) (direction : BitVec 8) : Bool :=
  decide (direction.toNat ≤ 1) &&
  (decide (lines = 0) ||
    (decide (base.toNat % 1024 = 0 ∧ lines.toNat ≤ 2 ^ 22) && s.inPartDram p base.toNat (1024 * lines.toNat)))

/-- partition.publish (R67). -/
def State.publish (s : State) (c : Cmd) (base : Word) (lines : BitVec 32) (direction : BitVec 8) : State :=
  s.take c rowPublish (!s.publishArgs c.target.toNat base lines direction) (fun p s =>
    if 64 ≤ (s.part p).publishes.length then s.complete c 0x0204 .busy
    else s.modPart p (fun v => { v with publishes := v.publishes ++
      [{ cmd := c, base := base.toNat, lines := lines.toNat, toHost := decide (direction = 1) }] }))

/-- The defaults of Table 9.4. -/
def policyDefault (id : Nat) : Option Word :=
  match id with
  | 1 => some 1 | 2 => some 65536 | 3 => some 25 | 4 => some 0 | 5 => some 5 | 6 => some 0 | 7 => some 2 | 8 => some 0x08010204
  | _ => none

/-- The ranges of Table 9.4. -/
def policyGood (id : Nat) (v : Nat) : Bool :=
  match id with
  | 1 | 6 => decide (v ≤ 1)
  | 2 => decide (1 ≤ v ∧ v ≤ 65536)
  | 3 => decide (v ≤ 100)
  | 4 => decide (v = 0 ∨ (25000 ≤ v ∧ v ≤ 800000))
  | 5 => decide (v ≤ 50)
  | 7 => decide (1 ≤ v ∧ v ≤ 100)
  | 8 => decide (v < 2 ^ 32) && (List.range 4).all (fun k => decide (v / 256 ^ k % 256 ≠ 0))
  | _ => false

/-- Put an operation at the end of a partition's queue (R85, R254). -/
def State.enqueue (s : State) (p : Nat) (c : Cmd) (op : QueuedOp) : State := s.modPart p (fun v => { v with queue := v.queue ++ [{ cmd := c, op := op }] })

/-- A policy value waits for the next changeover (R249): the last one accepted takes effect. -/
def State.queuePolicy (s : State) (p : Nat) (c : Cmd) (id : BitVec 16) (v : Word) : State :=
  (s.modPart p (fun x => { x with policyNext := Sparse.nput x.policyNext id.toNat v })).enqueue p c (.policySet id v)

/-- A policy value in effect and the value pending; with none pending, the value in effect stands for both. -/
def State.policyResult (s : State) (p : Nat) (id : BitVec 16) (dflt : Word) : List Byte :=
  let v := s.policyValue p id.toNat dflt
  resultOf [(16, leBytes 8 v.toNat), (24, leBytes 8 ((Sparse.nfind (s.part p).policyNext id.toNat).getD v).toNat)]

def rowPolicySet : MailRow := { opcode := 0x0205, level := .kernel }

/-- partition.policy_set (R249). -/
def State.policySet (s : State) (c : Cmd) (id : BitVec 16) (v : Word) : State :=
  s.take c rowPolicySet (!policyGood id.toNat v.toNat) (fun p s => s.queuePolicy p c id v)

def rowPolicyGet : MailRow := { opcode := 0x0206, level := .tenant, fencedToo := true }

/-- partition.policy_get (R249). -/
def State.policyGet (s : State) (c : Cmd) (id : BitVec 16) : State :=
  s.take c rowPolicyGet (policyDefault id.toNat).isNone (fun p s =>
    s.complete c 0x0206 .ok none (s.policyResult p id ((policyDefault id.toNat).getD 0)))

def rowGrant : MailRow := { opcode := 0x0207, level := .kernel }

/-- Every ring of a mask is at level TENANT with the page's tenant (R265). -/
def State.grantRings (s : State) (p : Nat) (mask tenant : BitVec 16) : Bool :=
  (bitList 16 mask).all (fun n => decide (s.field .mbRingCtl p n 1 2 = 0 ∧ s.field .mbRingCtl p n 16 16 = tenant.toNat))

/-- partition.grant (R265): a grant of zero revokes the page. -/
def State.grantPage (s : State) (c : Cmd) (page grants : BitVec 8) (mask tenant : BitVec 16) : State :=
  s.take c rowGrant (decide (15 < page.toNat ∨ 7 < grants.toNat) || !s.grantRings c.target.toNat mask tenant) (fun p s =>
    let g : Grant :=
      if grants = 0 then {}
      else { doorbells := bitAt grants 0, counters := bitAt grants 1, logView := bitAt grants 2, ringMask := mask, tenant := tenant }
    (s.modPart p (fun v => { v with grants := Sparse.nset {} v.grants page.toNat g })).complete c 0x0207 .ok)

/-! book.map, book.unload, book.preempt -/

def rowBookMap : MailRow := { opcode := 0x0302, level := .kernel }

/-- book.map (R202, Table 7.9). -/
def State.bookMap (s : State) (c : Cmd) (map : BitVec 8) : State :=
  let known := match s.book c.target.toNat with
    | some b => decide (map.toNat < b.mapCount)
    | none => false
  s.take c rowBookMap (!known) (fun p s => (s.requestMap p map.toNat).complete c 0x0302 .ok)

def rowBookUnload : MailRow := { opcode := 0x0301, level := .kernel }

/-- book.unload (R205): the work of Tolerabor at the next changeover, pre-empting first with IMMEDIATE. With no book loaded there is nothing to end, which Table
7.9 gives no status: BUSY, as a command not possible now. -/
def State.bookUnload (s : State) (c : Cmd) (flags : BitVec 8) : State :=
  s.take c { rowBookUnload with reached := bitAt flags 0 } (decide (1 < flags.toNat)) (fun p s =>
    if !s.bookLoaded p ∨ (s.part p).unload.isSome then s.complete c 0x0301 .busy
    else
      let s := s.modPart p (fun v => { v with unload := some c })
      if bitAt flags 0 then s.preemptTurn p else s)

def rowBookPreempt : MailRow := { opcode := 0x0303, level := .kernel, reached := true }

/-- book.preempt (R195): completes with the turn ended. Out of play there is no turn to pre-empt: the next changeover serves it. -/
def State.bookPreempt (s : State) (c : Cmd) : State :=
  s.take c rowBookPreempt false (fun p s => (s.modPart p (fun v => { v with preemptCmds := v.preemptCmds ++ [c] })).preemptTurn p)

/-! stream.* and state.* (Tables 9.11, 10.3): queued for a changeover -/

/-- Rows of the stream commands that any tenant sends. -/
def streamRow' (opcode : BitVec 16) : MailRow := { opcode := opcode, level := .tenant, reached := true }

/-- The tenant of an open: that of a TENANT ring (R260), else the one given. -/
def State.openTenant (s : State) (c : Cmd) (tenant : BitVec 16) : BitVec 16 := (s.cmdTenant c).getD tenant

def State.streamOpen (s : State) (c : Cmd) (tenant : BitVec 16) (prio : BitVec 8) : State :=
  s.take c (streamRow' 0x0400) (decide (3 < prio.toNat)) (fun p s => s.enqueue p c (.streamOpen (s.openTenant c tenant) prio))

def State.streamAppend (s : State) (c : Cmd) (h : Handle) (positions : BitVec 32) (prompt : Word) : State :=
  s.take c (streamRow' 0x0401) (decide (2 ^ 48 ≤ prompt.toNat)) (fun p s => s.enqueue p c (.streamAppend h positions prompt))

def State.streamAdvance (s : State) (c : Cmd) (h : Handle) (positions : BitVec 16) : State :=
  s.take c (streamRow' 0x0402) (decide (positions = 0)) (fun p s => s.enqueue p c (.streamAdvance h positions))

def State.streamClose (s : State) (c : Cmd) (h : Handle) : State :=
  s.take c (streamRow' 0x0403) false (fun p s => s.enqueue p c (.streamClose h))

def State.streamPark (s : State) (c : Cmd) (h : Handle) : State :=
  s.take c (streamRow' 0x0404) false (fun p s => s.enqueue p c (.streamPark h))

def State.streamUnpark (s : State) (c : Cmd) (h : Handle) : State :=
  s.take c (streamRow' 0x0405) false (fun p s => s.enqueue p c (.streamUnpark h))

def rowMigrate : MailRow := { opcode := 0x0406, level := .kernel, reached := true }

def State.streamMigrate (s : State) (c : Cmd) (h : Handle) (module : BitVec 16) (part : BitVec 8) : State :=
  s.take c rowMigrate (decide (8190 < module.toNat ∨ 7 < part.toNat)) (fun p s => s.enqueue p c (.streamMigrate h module part))

def State.streamFork (s : State) (c : Cmd) (h : Handle) (positions : BitVec 32) : State :=
  s.take c (streamRow' 0x0407) false (fun p s => s.enqueue p c (.streamFork h positions))

/-- A run of pages within a stream's 2^21 pages (R300); a count of 0 names all of them. -/
def pagesGood (first pages : BitVec 32) : Bool := decide (first.toNat < 2 ^ 21 ∧ first.toNat + pages.toNat ≤ 2 ^ 21)

def rowInvalidate : MailRow := { opcode := 0x0500, level := .tenant }

/-- state.invalidate (R312). -/
def State.stateInvalidate (s : State) (c : Cmd) (h : Handle) (first pages : BitVec 32) : State :=
  s.take c rowInvalidate (!pagesGood first pages) (fun p s =>
    match s.resolve p (s.cmdTenant c) h with
    | .error e => s.complete c 0x0500 e
    | .ok f => (s.invalidate p (s.entryAt p f).handle first.toNat pages.toNat).complete c 0x0500 .ok)

def rowTier : MailRow := { opcode := 0x0501, level := .kernel, reached := true }

/-- state.tier (R307). -/
def State.stateTier (s : State) (c : Cmd) (h : Handle) (first pages : BitVec 32) (tier : BitVec 8) : State :=
  s.take c rowTier (!pagesGood first pages || decide (2 < tier.toNat)) (fun p s => s.enqueue p c (.stateTier h first pages tier))

def rowQuery : MailRow := { opcode := 0x0502, level := .tenant }

/-- state.query (R305): the tier and address of a page. A page that has none is an argument out of the stream's range. -/
def State.stateQuery (s : State) (c : Cmd) (h : Handle) (page : BitVec 32) : State :=
  s.take c rowQuery (decide (2 ^ 21 ≤ page.toNat)) (fun p s =>
    match s.resolve p (s.cmdTenant c) h with
    | .error e => s.complete c 0x0502 e
    | .ok f => match s.leafOf (s.entryAt p f).root.toNat page.toNat with
      | none => s.complete c 0x0502 .badArgument
      | some (_, _, e) =>
        s.complete c 0x0502 .ok none (resultOf [(16, [BitVec.ofNat 8 (leafTier e)]), (24, leBytes 8 (entryAddr e))]))

end Sys2Proof.Machine
end

