-- ==== Sys2Proof/Machine/Books.lean ====
section
/-! DEFINITION. book.load (R205 to R207, R376, R377): the image read and verified, and the load that the next changeovers carry out. -/

namespace Sys2Proof.Machine

def rowBookLoad : MailRow := { opcode := 0x0300, level := .kernel, reached := true }

/-- A condition of Table 7.10 and the status that its failure gives. -/
def firstFailing : List (Bool × Status) → Option Status
  | [] => none
  | (ok, st) :: l => if ok then firstFailing l else some st

/-- The checks of Table 7.10 on an image, in order (R207). A section that cannot be read fails with BOOK_CORRUPT. -/
def State.verifyBook (s : State) (p : Nat) (img : List Byte) : Except Status Book :=
  match firstFailing [(frameGood img, .bookCorrupt), (crcsGood img, .bookCorrupt)] with
  | some st => .error st
  | none =>
    match bookOf img with
    | none => .error .bookCorrupt
    | some b =>
      let sites := s.enabledSites p
      match firstFailing
        [(decide (b.regions.toNat = s.field .ptRegions p 0 0 16 ∧ b.samDigest = s.reg .ptViewDigest p), .mapMismatch),
         (decide (Config.variant.fusedStep ≤ b.minStep.toNat), .notPermitted),
         (s.spanReached b, .linkVacant),
         (b.boundsGood && bookHeaderGood img, .bookCorrupt),
         (decide (b.chgMin + s.standingTicks p ≤ 10000), .busy),
         (sectionsGood img b && (List.range b.mapCount).all (fun m => s.planGood p (b.circuits.filter (fun c => decide (c.map = m)))), .bookCorrupt),
         (sites.all (fun i => b.siteGood i (s.dmSize i)), .bookCorrupt)] with
      | some st => .error st
      | none => .ok b

/-- Tell the other members of a spanning book that this one has verified it (R376 step 2): IMAGE_CRC, MODULES and the members heard; the
first turn and the tick at which it starts are proposed two turns on. -/
def State.sendSpanConfirm (s : State) (p : Nat) (b : Book) (heard : Nat) : State :=
  let first := s.turn p + 2
  let tick := (s.part p).boundary.toNat + 2 * s.turnLen p
  (s.part p).members.foldl (fun s (m, dest) =>
    match s.quadTo p (BitVec.ofNat 13 m) with
    | some q => s.sendMgmt q (BitVec.ofNat 13 m) 0x03 p dest 0 (leBytes 8 b.crc.toNat ++ leBytes 1 b.modules ++ leBytes 1 heard ++ leBytes 2 0 ++ leBytes 4 first.toNat ++
        leBytes 8 tick ++ leBytes 8 0)
    | none => s) s

/-- Tell the members that a load has failed here (R377): the status and the module ID of the first failure learned of. -/
def State.sendLoadFail (s : State) (p : Nat) (members : List (Nat × Nat)) (st : Nat) (module : Nat) : State :=
  members.foldl (fun s (m, dest) =>
    match s.quadTo p (BitVec.ofNat 13 m) with
    | some q => s.sendMgmt q (BitVec.ofNat 13 m) 0x04 p dest 0 (leBytes 1 st ++ leBytes 1 0 ++ leBytes 2 module ++ leBytes 12 0)
    | none => s) s

/-- End a load with a status (R262, R377): no book is loaded, and what the install of a load wrote for the book is cleared again. -/
def State.endLoad (s : State) (p : Nat) (st : Status) : State :=
  match (s.part p).loading with
  | none => s
  | some l =>
    let result := match l.firstFail with
      | some (x, m) => resultOf [(16, [x]), (18, leBytes 2 m.toNat)]
      | none => []
    let s := s.modPart p (fun v => { v with loading := none, members := if v.book.isSome then v.members else [] })
    let s := if l.installed then s.endBook p else s.releaseBookArea p
    if l.reload then s.completeReset p l.cmd st none result else s.complete l.cmd 0x0300 st none result

/-- Tolerabor copies the image into the partition's book area as a compute-side requester (R57, R206 step 1). The spec does not say where the
area lies: each line's place is a constant of Config, and a line that it puts outside the partition's DRAM is not written. -/
def State.copyImage (s : State) (p : Nat) (img : List Byte) : State :=
  (List.range (ceilDiv img.length 1024)).foldl (fun s k =>
    let d := (img.drop (1024 * k)).take 1024
    if s.inPartDram p (Config.bookArea p k) 1024 then s.computeWrite (Config.bookArea p k) d else s)
    (s.modPart p (fun v => { v with bookLines := ceilDiv img.length 1024 }))

/-- Begin the load of a verified book. -/
def State.beginLoad (s : State) (p : Nat) (c : Cmd) (b : Book) (addr : Nat) (img : List Byte) : State :=
  let s := s.copyImage p img
  let s := s.modPart p (fun v => { v with
    members := s.membersOf b
    loading := some { cmd := c, book := b, image := addr, installed := false, heard := [], firstFail := none, reload := false } })
  if b.span then
    if (s.part p).members.length + 1 ≠ b.modules then
      let own := s.moduleId
      let s := s.modPart p (fun v => { v with loading := v.loading.map (fun l => { l with firstFail := some (BitVec.ofNat 8 Status.mapMismatch.code, own) }) })
      (s.sendLoadFail p (s.part p).members Status.mapMismatch.code own.toNat).endLoad p .mapMismatch
    else s.sendSpanConfirm p b 0
  else s

/-- A load that fails a check: a spanning book's other members are told (R377). -/
def State.refuseLoad (s : State) (p : Nat) (c : Cmd) (img : List Byte) (st : Status) : State :=
  match bookOf img with
  | some b =>
    if b.span then
      let s := s.sendLoadFail p (s.membersOf b) st.code s.moduleId.toNat
      s.complete c 0x0300 st none (resultOf [(16, [BitVec.ofNat 8 st.code]), (18, leBytes 2 s.moduleId.toNat)])
    else s.complete c 0x0300 st
  | none => s.complete c 0x0300 st

/-- book.load (R205, R206): the image is read as a host-side requester through the directory. -/
def State.bookLoad (s : State) (c : Cmd) (addr len : Word) : State :=
  s.take c rowBookLoad (!s.inPartDram c.target.toNat addr.toNat len.toNat) (fun p s =>
    if s.bookLoaded p ∨ (s.part p).loading.isSome then s.complete c 0x0300 .busy
    else
      match s.hostRead addr.toNat len.toNat 0 with
      | (s, .error e) => s.complete c 0x0300 e
      | (s, .ok img) =>
        match s.verifyBook p img with
        | .error st => s.refuseLoad p c img st
        | .ok b => s.beginLoad p c b addr.toNat img)

end Sys2Proof.Machine
end

