-- ==== Sys2Proof/Machine/MoveCommands.lean ====
section
/-! DEFINITION. The moves of a compute die, their completion, and the arrivals of SENDs (chapters 4, 6, 7 and 8). -/

namespace Sys2Proof.Machine

/-! SEND arrivals (R216 to R218, R238) -/

/-- The bytes that a packet writes, block by block under its byte enables: address and byte. -/
def packetBytes (p : BnetPacket) : List (Nat × Byte) :=
  p.payload.zipIdx.filterMap (fun (b, k) =>
    if p.payload.length = 64 ∧ bitAt p.byteEnable k = false then none else some (p.addr.toNat + k, b))

/-- Who a packet's access is for: CMP marks a move's; otherwise the square it came from. -/
def requesterOf (src : Nat) (compiled : Bool) : Requester :=
  match squareKind src with
  | .site i => if compiled then .move i else .rook i
  | .host h => .hostDma h
  | .referee => .referee
  | _ => .bmc

/-- Write a packet's bytes into die memory, or the status of the bus error. -/
def State.writePacket (s : State) (r : Requester) (compiled : Bool) (p : BnetPacket) : State × Option Status :=
  let bytes := packetBytes p
  if p.payload.length = 64 ∧ p.byteEnable ≠ BitVec.allOnes 64 then
    bytes.foldl (fun (s, e) (a, b) =>
      match e with
      | some x => (s, some x)
      | none => match s.dieAccess r compiled a 1 (some [b]) with
        | (s, .ok _) => (s, none)
        | (s, .error x) => (s, some x)) (s, none)
  else if p.payload = [] then (s, none)
  else match s.dieAccess r compiled p.addr.toNat p.payload.length (some p.payload) with
    | (s, .ok _) => (s, none)
    | (s, .error x) => (s, some x)

/-- A transfer that has all its lines is counted (R191, R216): RCTR, SACK, and what waited for it. -/
def State.countTransfer (s : State) (p i : Nat) (k : BnetPacket) (cycle : Nat) : State :=
  match (s.die i).inbound.find? (fun t => decide (t.src = k.src ∧ t.xid = k.xid)) with
  | none => s
  | some t =>
    if t.counted ∨ t.seqs.length < t.lines.toNat + 1 then s
    else
      let s := s.modDie i (fun d => { d with
        inbound := d.inbound.map (fun x => if x.src = k.src ∧ x.xid = k.xid then { x with counted := true } else x) })
      let s := (s.credit i k.rctr.toNat).injectBnet (siteSquare i) (s.answerTo (siteSquare i) k .sack [])
      s.settleCheck p i cycle

/-- The first line of a transfer, or a further one, at a die that has room for it (R216). A SEND of the moves of this partition, over circuits,
packets or an engine port, reaches die memory whatever HOST is; one with CMP 0 is the access of the square it came from (R55). -/
def State.takeLine (s : State) (p i : Nat) (k : BnetPacket) (cycle : Nat) : State :=
  match s.writePacket (if k.compiled then .move i else requesterOf k.src.toNat false) k.compiled k with
  | (s, some e) => s.injectBnet (siteSquare i) (s.errFor (siteSquare i) k e)
  | (s, none) =>
    let s := s.modDie i (fun d =>
      if d.inbound.any (fun t => decide (t.src = k.src ∧ t.xid = k.xid)) then
        { d with inbound := d.inbound.map (fun t => if t.src = k.src ∧ t.xid = k.xid then { t with seqs := t.seqs ++ [k.seq] } else t) }
      else { d with inbound := d.inbound ++ [{ src := k.src, xid := k.xid, lines := k.lines, seqs := [k.seq], counted := false }] })
    s.countTransfer p i k cycle

/-- Transfers that a die tracks and has not counted. -/
def Die.tracked (d : Die) : Nat := (d.inbound.filter (fun t => !t.counted)).length

/-- A compiled packet at a die is of an earlier turn or epoch than the die's counters (R218). -/
def Die.stale (d : Die) (k : BnetPacket) : Bool := k.compiled && decide (k.turn ≠ d.arrivalTurn ∨ k.epoch ≠ d.arrivalEpoch)

/-- A line of a SEND that has reached its die (R216 to R218): dropped where it is stale, discarded where it is a duplicate, held where it opens a
65th transfer, and otherwise taken. -/
def State.placeLine (s : State) (p i : Nat) (k : BnetPacket) (cycle : Nat) : State :=
  let q := siteSquare i
  let d := s.die i
  if d.stale k then s.bump .bnStaleArrivals q
  else match d.inbound.find? (fun t => decide (t.src = k.src ∧ t.xid = k.xid)) with
    | some t =>
      if k.seq ∈ t.seqs then
        let s := s.bump .bnDups q
        if t.counted then s.injectBnet q (s.answerTo q k .sack []) else s
      else s.takeLine p i k cycle
    | none =>
      if 64 ≤ d.tracked then s.modSquare q (fun v => { v with sendWait := v.sendWait ++ [k] })
      else s.takeLine p i k cycle

/-- The lines that waited for a tracking entry are placed again (R217): those of transfers with an entry by now, and first lines while entries
are free, each checked anew. How long each waited is a free value. -/
def State.takeWaiting (s : State) (p i : Nat) (cycle : Nat) : State :=
  let q := siteSquare i
  let l := (s.square q).sendWait
  l.foldl (fun s k =>
    if (s.die i).inbound.any (fun t => decide (t.src = k.src ∧ t.xid = k.xid)) || (s.die i).stale k || decide ((s.die i).tracked < 64) then
      let (w, s) := s.draw
      (s.bump .bnCircWait q 0 w.toNat).placeLine p i k cycle
    else s.modSquare q (fun v => { v with sendWait := v.sendWait ++ [k] })) (s.modSquare q (fun v => { v with sendWait := [] }))

/-- A SEND packet at the square of its die (R191, R216 to R218, R238). -/
def State.sendArrives (s : State) (i : Nat) (k : BnetPacket) (cycle : Word) : State :=
  let q := siteSquare i
  match s.siteOwner i with
  | none => s
  | some p =>
    if k.kind ≠ .send then s
    else match s.dieAnswer i with
      | some st => (s.bump .bnResetErr q).injectBnet q (s.errFor q k st)
      | none => (s.placeLine p i k cycle.toNat).takeWaiting p i cycle.toNat

/-- The zeroing of a partition's completion counters has freed the tracking entries of its dies (R217, R218): what waited is placed, or dropped as
stale. -/
def State.placeWaiting (s : State) (p : Nat) : State := (s.partSites p).foldl (fun s i => s.takeWaiting p i 0) s

/-! The meanings -/

/-- CHANGEOVER_START, and ABORT_DRAIN_END after an abort: the changeover's work at offset 0 to 16 (Table 3.3). -/
def execChangeoverStart (part chosenP : Nat) (s : State) : Answered := .next ((s.changeoverStart part chosenP).placeWaiting part)
def execAbortDrainEnd (part chosenP : Nat) (s : State) : Answered := .next ((s.drainEnd part chosenP).placeWaiting part)

/-- NOP (Table 7.3). -/
def execNop (m : MoveHdr) (s : State) : Answered := .next (s.issueInstant m (.nop m) (fun _ s => s))
def execCheck (m : MoveHdr) (ctr : BitVec 8) (count grace : BitVec 24) (s : State) : Answered := .next (s.issueCheck m ctr count grace)
def execLateData (site : Nat) (cycle : Word) (s : State) : Answered := .next (s.lateData site cycle)
def execYield (m : MoveHdr) (s : State) : Answered := .next (s.issueYield m)
def execTrace (m : MoveHdr) (label : BitVec 16) (s : State) : Answered := .next (s.issueTrace m label)
def execPass (m : MoveHdr) (first count : BitVec 8) (adesc bdesc : BitVec 12) (k : BitVec 20) (buf acc shareA shareB orient : Bool)
    (w : Waits) (s : State) : Answered :=
  .next (s.issueUnit m (.pass m first count adesc bdesc k buf acc shareA shareB orient w))
def execDrain (m : MoveHdr) (first count : BitVec 8) (buf : Bool) (w : Waits) (s : State) : Answered :=
  .next (s.issueUnit m (.drain m first count buf w))
def execDrainHeld (m : MoveHdr) (first count : BitVec 8) (buf : Bool) (w : Waits) (s : State) : Answered :=
  .next (s.issueUnit m (.drainHeld m first count buf w))
def execGang (m : MoveHdr) (mode : BitVec 3) (w : Waits) (s : State) : Answered := .next (s.issueUnit m (.gang m mode w))
def execLoad (m : MoveHdr) (ddesc : BitVec 12) (chan : BitVec 3) (s : State) : Answered := .next (s.issueUnit m (.load m ddesc chan))
def execStore (m : MoveHdr) (ddesc : BitVec 12) (chan : BitVec 3) (s : State) : Answered := .next (s.issueUnit m (.store m ddesc chan))
def execSend (m : MoveHdr) (ddesc : BitVec 12) (chan : BitVec 3) (s : State) : Answered := .next (s.issueUnit m (.send m ddesc chan))
def execTwin (m : MoveHdr) (oplist : BitVec 12) (s : State) : Answered := .next (s.issueUnit m (.twin m oplist))

/-- ADD: a + b (R157, R158). -/
def execAdd (m : MoveHdr) (v : VecFields) (s : State) : Answered := .next (s.issueUnit m (.add m v))
/-- SUB: a − b. -/
def execSub (m : MoveHdr) (v : VecFields) (s : State) : Answered := .next (s.issueUnit m (.sub m v))
/-- MUL: a × b. -/
def execMul (m : MoveHdr) (v : VecFields) (s : State) : Answered := .next (s.issueUnit m (.mul m v))
/-- FMA: a × b + c, rounded once. -/
def execFma (m : MoveHdr) (v : VecFields) (s : State) : Answered := .next (s.issueUnit m (.fma m v))
/-- MIN (R159). -/
def execMin (m : MoveHdr) (v : VecFields) (s : State) : Answered := .next (s.issueUnit m (.min m v))
/-- MAX (R159). -/
def execMax (m : MoveHdr) (v : VecFields) (s : State) : Answered := .next (s.issueUnit m (.max m v))
/-- SELECT: a where c is not zero, b elsewhere (R159). -/
def execSelect (m : MoveHdr) (v : VecFields) (s : State) : Answered := .next (s.issueUnit m (.select m v))
/-- DIV, correctly rounded. -/
def execDiv (m : MoveHdr) (v : VecFields) (s : State) : Answered := .next (s.issueUnit m (.div m v))
/-- SQRT, correctly rounded. -/
def execSqrt (m : MoveHdr) (v : VecFields) (s : State) : Answered := .next (s.issueUnit m (.sqrt m v))
/-- RECIP, correctly rounded. -/
def execRecip (m : MoveHdr) (v : VecFields) (s : State) : Answered := .next (s.issueUnit m (.recip m v))
/-- EXP (R159). -/
def execExp (m : MoveHdr) (v : VecFields) (s : State) : Answered := .next (s.issueUnit m (.exp m v))
/-- LOG (R159). -/
def execLog (m : MoveHdr) (v : VecFields) (s : State) : Answered := .next (s.issueUnit m (.log m v))
/-- RSQRT (R159). -/
def execRsqrt (m : MoveHdr) (v : VecFields) (s : State) : Answered := .next (s.issueUnit m (.rsqrt m v))
/-- TANH (R159). -/
def execTanh (m : MoveHdr) (v : VecFields) (s : State) : Answered := .next (s.issueUnit m (.tanh m v))
/-- SIGMOID (R159). -/
def execSigmoid (m : MoveHdr) (v : VecFields) (s : State) : Answered := .next (s.issueUnit m (.sigmoid m v))
/-- IADD on INT32, wrapping (R159). -/
def execIadd (m : MoveHdr) (v : VecFields) (s : State) : Answered := .next (s.issueUnit m (.iadd m v))
/-- IMUL on INT32, wrapping (R159). -/
def execImul (m : MoveHdr) (v : VecFields) (s : State) : Answered := .next (s.issueUnit m (.imul m v))
/-- CVT: any format into any other (R138). -/
def execCvt (m : MoveHdr) (v : VecFields) (s : State) : Answered := .next (s.issueUnit m (.cvt m v))
/-- RSUM (R161). -/
def execRsum (m : MoveHdr) (v : VecFields) (s : State) : Answered := .next (s.issueUnit m (.rsum m v))
/-- RMAX (R161). -/
def execRmax (m : MoveHdr) (v : VecFields) (s : State) : Answered := .next (s.issueUnit m (.rmax m v))
/-- RMIN (R161). -/
def execRmin (m : MoveHdr) (v : VecFields) (s : State) : Answered := .next (s.issueUnit m (.rmin m v))
/-- CSUM (R161). -/
def execCsum (m : MoveHdr) (v : VecFields) (s : State) : Answered := .next (s.issueUnit m (.csum m v))
/-- CMAX (R161). -/
def execCmax (m : MoveHdr) (v : VecFields) (s : State) : Answered := .next (s.issueUnit m (.cmax m v))
/-- CMIN (R161). -/
def execCmin (m : MoveHdr) (v : VecFields) (s : State) : Answered := .next (s.issueUnit m (.cmin m v))
/-- SOFTMAX (R162). -/
def execSoftmax (m : MoveHdr) (v : VecFields) (s : State) : Answered := .next (s.issueUnit m (.softmax m v))
/-- LNORM (R162). -/
def execLnorm (m : MoveHdr) (v : VecFields) (s : State) : Answered := .next (s.issueUnit m (.lnorm m v))
/-- RMSNORM (R162). -/
def execRmsnorm (m : MoveHdr) (v : VecFields) (s : State) : Answered := .next (s.issueUnit m (.rmsnorm m v))
/-- TOPK (R163). -/
def execTopk (m : MoveHdr) (v : VecFields) (s : State) : Answered := .next (s.issueUnit m (.topk m v))
/-- RAND (R164). -/
def execRand (m : MoveHdr) (v : VecFields) (s : State) : Answered := .next (s.issueUnit m (.rand m v))
/-- SAMPLE (R165). -/
def execSample (m : MoveHdr) (v : VecFields) (s : State) : Answered := .next (s.issueUnit m (.sample m v))
/-- SB3ENC (R166). -/
def execSb3enc (m : MoveHdr) (v : VecFields) (s : State) : Answered := .next (s.issueUnit m (.sb3enc m v))

def execMoveComplete (site : Nat) (index : BitVec 18) (cycle : Word) (s : State) : Answered := .next (s.completeMove site index cycle)
def execSendArrival (site : Nat) (p : BnetPacket) (cycle : Word) (s : State) : Answered := .next (s.sendArrives site p cycle)
def execSackReceipt (site : Nat) (xid : BitVec 16) (cycle : Word) (s : State) : Answered := .next (s.sackFor site xid cycle)

/-- A trace record in the next entry of the Service square's buffer of 4,096 entries (R499). -/
def State.storeTrace (s : State) (r : List Byte) : State :=
  let k := (s.reg .dbTraceHead).toNat % 4096
  ((List.range 8).foldl (fun s w => s.setReg .dbTraceBuf 0 (8 * k + w) (BitVec.ofNat 64 (bytesAt (padTo 64 r) (8 * w) 8))) s).bump .dbTraceHead

/-- TRACE_RECORD: a queued record reaches the buffer (R499). It takes its share of the site's injection limit, and waits while there is no token
(R500). -/
def State.sendTrace (s : State) (i : Nat) : State :=
  let q := siteSquare i
  match (s.die i).traceQueue with
  | [] => s
  | r :: rest =>
    if !s.hasToken q then s
    else (((s.modDie i (fun d => { d with traceQueue := rest })).storeTrace r).bump .cnTxPkts q).takeToken q

def execTraceRecord (site : Nat) (s : State) : Answered := .next (s.sendTrace site)

end Sys2Proof.Machine
end

