-- ==== Sys2Proof/Machine/TranslationCommands.lean ====
section
/-! DEFINITION. What Tolerabor does about translation faults, far pages, tier copies and migration copies (chapters 10 and 11). -/

namespace Sys2Proof.Machine

/-! Fault resolution (R316 to R321, Table 11.3) -/

/-- Page of the line at which an operation stopped. -/
def Stopped.page (x : Stopped) : Nat := x.line.toNat / 64

/-- A stopped operation writes state pages: a STORE. -/
def Stopped.writes (x : Stopped) : Bool := match x.move with
  | .store _ _ _ => true
  | _ => false

/-- A DRAM page in the primary home stack of a site, at a given offset of the stack (Table 11.3). -/
def homePage (i a : Nat) : Nat := (mcHome i).toNat % 256 * 2 ^ 36 + a % 2 ^ 36 / 65536 * 65536

/-- A page that Tolerabor takes in the primary home stack of a site, as a free value. -/
def State.takeHomePage (s : State) (i : Nat) : State × Nat :=
  let (w, s) := s.draw
  (s, homePage i w.toNat)

/-- The table root of a stream as its entry gives it. -/
def State.rootOf (s : State) (p : Nat) (h : Handle) : Nat :=
  match s.resolve p none h with
  | .ok f => (s.entryAt p f).root.toNat
  | .error _ => 0

/-- The leaf of a page of a stream. -/
def State.leafAt (s : State) (p : Nat) (h : Handle) (page : Nat) : Option Word := (s.leafOf (s.rootOf p h) page).map (fun x => x.2.2)

/-- Tolerabor's resolution of a fault, as far as it is its own work: a page for NOT_PRESENT, the end of the page's move for MOVING. For FAR
and COW the work is FAR_RECALL's and COW_RESOLVE's, and what is asked is that it is done. None: the fault is not resolved. -/
def State.resolveFault (s : State) (p i : Nat) (x : Stopped) : Option State :=
  let root := s.rootOf p x.handle
  if x.code.toNat = faultNotPresent then
    if x.writes ∧ root ≠ 0 then
      let (s, a) := s.takeHomePage i
      let s := s.writePage a (List.replicate 65536 0)
      let s := (s.placeLeaf root x.page (mkEntry a 0 false false false) []).1
      some (s.invalidate p x.handle x.page 1)
    else none
  else if x.code.toNat = faultMoving then
    match s.leafAt p x.handle x.page with
    | some e =>
      let s := s.setLeaf p x.handle root x.page (putBit e 58 false)
      some (s.modPart p (fun v => { v with
        tierMoves := v.tierMoves.map (fun t => if t.handle = x.handle ∧ t.page = x.page then { t with copied := false } else t) }))
    | none => none
  else if x.code.toNat = faultFar ∨ x.code.toNat = faultCow then
    match s.leafAt p x.handle x.page with
    | some e => if accessFault e x.writes = none then some s else none
    | none => none
  else none

/-- FAULT_RESOLVED (R318): the operation goes on from its recorded row with the skip list it had. -/
def State.faultResolved (s : State) (i key : Nat) : State :=
  match s.siteOwner i, Sparse.nfind (s.die i).stopped key with
  | some p, some x =>
    match s.resolveFault p i x with
    | some s => (s.bump .stResolved p).resumeMove p i key x x.skips
    | none => s
  | _, _ => s

/-- The record that a stopped DMA row names, for the event of a HEADER fault. -/
def State.recordHeader (s : State) (p i : Nat) (x : Stopped) : List Byte :=
  match x.move with
  | .load _ d _ | .store _ d _ =>
    match s.dmaDesc p i d.toNat with
    | some b => match s.dmaStateRow p i (s.modeNow i) { desc := b } x.row with
      | .ok r => leBytes 4 r.handle.toNat ++ leBytes 4 r.line ++ leBytes 2 r.layer ++ leBytes 2 r.head ++ leBytes 4 (if r.kind then 1 else 0)
      | .error _ => List.replicate 16 0
    | none => List.replicate 16 0
  | _ => leBytes 4 x.handle.toNat ++ List.replicate 12 0

/-- The first 16 bytes of the line that a stopped row names. -/
def State.lineHeader (s : State) (x : Stopped) : List Byte :=
  match x.kept.find? (fun (h, page, _) => decide (h = x.handle ∧ page = x.page)) with
  | some (_, _, l) =>
    let a := lineAddr l x.line.toNat
    match Sparse.nfind s.general (a / 1024) with
    | some c => c.data.take 16
    | none => s.bytes a 16
  | none => List.replicate 16 0

/-- FAULT_UNRESOLVABLE (R319): the rook skips the handle. A HEADER fault records both headers in its event (Table 11.3), and a NOT_PRESENT
fault has an event too (Table 11.7). -/
def State.faultUnresolvable (s : State) (i key : Nat) : State :=
  match s.siteOwner i, Sparse.nfind (s.die i).stopped key with
  | some p, some x =>
    let s := if x.code.toNat = faultHeader then
        let (v, s) := s.drawSeverity
        s.event7F v (some p) 0 .stSkipped p 0 (leBytes 4 0 ++ s.recordHeader p i x ++ s.lineHeader x)
      else if x.code.toNat = faultNotPresent then s.event7FAny (some p) 0 .stSkipped p
      else s
    s.skipHandle p i key x
  | _, _ => s

/-- Skip every handle of a site that awaits resolution, at most a number of times. -/
def State.skipAll (s : State) (p i : Nat) : Nat → State
  | 0 => s
  | fuel + 1 =>
    match (s.die i).stopped with
    | [] => s
    | (key, x) :: _ => (s.skipHandle p i key x).skipAll p i fuel

/-- HOLD_BUDGET_EXHAUSTED (R321): every operation of the die skips until none waits. An operation skips at most 16 handles and is then
abandoned, and a die has eight channels and sixteen slices. -/
def State.budgetExhausted (s : State) (i : Nat) : State :=
  match s.siteOwner i with
  | some p => s.skipAll p i (24 * 17)
  | none => s

/-! Copies -/

/-- A page may hold a state page of a tier of a partition. -/
def State.pageFits (s : State) (p a tier : Nat) : Bool :=
  decide (a % 65536 = 0) &&
  (if tier = 0 then s.inPartDram p a 65536 else if tier = 1 then s.pinnedLent p a else decide (windowOf a ≠ none))

/-- COW_RESOLVE (R316): the last sharer's COW is cleared; otherwise the writer gets a copy in the site's primary home stack. -/
def State.cowResolve (s : State) (i : Nat) (h : Handle) (page : Nat) (newPage : Nat) : State :=
  match s.siteOwner i with
  | none => s
  | some p =>
    match s.leafAt p h page with
    | none => s
    | some e =>
      if !leafCow e || decide (leafTier e = 2) then s
      else
        let root := s.rootOf p h
        let frame := pageOf (entryAddr e)
        let n := s.sharersOf p frame
        if n ≤ 1 then s.setLeaf p h root page (putBit e 60 false)
        else
          let a := homePage i newPage
          let (s, d) := s.pageBytes (entryAddr e)
          let s := s.writePage a d
          let s := s.setLeaf p h root page (mkEntry a 0 false (leafLin e) (leafMoving e))
          (((s.setSharers p frame (n - 1)).syncTiers p h).settleShared p).bump .stCowCopies p

/-- The lines of a far page that its pool reads have brought, in order; a line that no answer has brought is the one given. -/
def State.recalled (s : State) (p : Nat) (h : Handle) (page : Nat) (given : List (List Byte)) : List Byte :=
  (List.range 64).flatMap (fun k =>
    match s.poolLines.find? (fun l => decide (l.part = p ∧ l.handle = h ∧ l.page = page ∧ l.isWrite = false ∧ l.addr / 1024 % 64 = k ∧ l.data ≠ [])) with
    | some l => padTo 1024 l.data
    | none => padTo 1024 (given.getD k []))

/-- The pool reads of a page are over. -/
def State.dropReads (s : State) (p : Nat) (h : Handle) (page : Nat) : State :=
  { s with poolLines := s.poolLines.filter (fun l => decide (¬(l.part = p ∧ l.handle = h ∧ l.page = page ∧ l.isWrite = false))) }

/-- FAR_RECALL (R305, Table 11.3): the page is in DRAM for every sharer, and the far page is released. -/
def State.farRecall (s : State) (i : Nat) (h : Handle) (page newPage : Nat) (given : List (List Byte)) : State :=
  match s.siteOwner i with
  | none => s
  | some p =>
    match s.leafAt p h page with
    | none => s
    | some e =>
      if leafTier e ≠ 2 then s
      else
        let a := homePage i newPage
        let s := (s.writePage a (s.recalled p h page given)).dropReads p h page
        (s.relocatePage p (entryAddr e) a 0 leafMoving).bump .stRecalls p

/-- TIER_COPY_DONE (R307, step 2): the copy of a page of a tier move is whole at its new page. A copy to the far tier is whole once every
line has been acknowledged. -/
def State.tierCopyDone (s : State) (p : Nat) (h : Handle) (page newPage : Nat) : State :=
  match (s.part p).tierMoves.find? (fun t => decide (t.handle = h ∧ t.page = page)), s.leafAt p h page with
  | some t, some e =>
    let mark (s : State) (a : Nat) : State :=
      s.modPart p (fun v => { v with tierMoves := v.tierMoves.map (fun x => if x = t then { t with copied := true, newPage := a } else x) })
    if t.copied || !leafMoving e then s
    else if t.tier = 2 then
      if s.poolLines.any (fun l => decide (l.part = p ∧ l.handle = h ∧ l.page = page ∧ l.isWrite = true)) then s else mark s t.newPage
    else if !s.pageFits p newPage t.tier.toNat then s
    else
      let (s, d) := if leafTier e = 2 then
          let (s, g) := s.pageBytes (entryAddr e)
          (s.dropReads p h page, s.recalled p h page ((List.range 64).map (fun k => (g.drop (1024 * k)).take 1024)))
        else s.pageBytes (entryAddr e)
      mark (s.writePage newPage d) newPage
  | _, _ => s

/-! Migration copies (R296, R297) -/

/-- MIGRATION_COPY_DONE: within the module the destination admits the stream and holds its pages; an arrival from another module has its
whole copy. -/
def State.migrationCopied (s : State) (p : Nat) (h : Handle) (dest : Nat) : State :=
  match (s.part p).migrations.find? (fun x => decide (x.handle = h ∧ x.part.toNat = dest ∧ x.module.setWidth 13 = s.moduleId)) with
  | some x =>
    if (s.part dest).arrivals.any (fun a => decide (a.quad = none ∧ a.source = p ∧ a.handle = h)) then s
    else
      let e := s.row x.slot
      match s.admitArrival dest e { quad := none, module := s.moduleId, xid := x.xid, source := p, handle := h, entry := e, slot := 0, newHandle := 0,
                                    bytes := 0, staging := 0, lines := [], copied := true } with
      | (s, none) => s.failMigration p h .streamTableFull
      | (s, some n) => match s.residentRow dest n with
        | some k => s.copyStream p dest e (s.row k)
        | none => s
  | none =>
    s.modPart dest (fun v => { v with
      arrivals := v.arrivals.map (fun a => if a.newHandle = h ∧ a.quad ≠ none then { a with copied := true } else a) })

/-- The failures that R297 names. -/
def migrationFailures : List Status := [.linkVacant, .peerFenced, .streamTableFull, .badArgument, .notPermitted]

/-- MIGRATION_FAIL (R297): one of the named failures ends the migration at its source. -/
def State.migrationFailed (s : State) (p : Nat) (h : Handle) (status : BitVec 8) : State :=
  match Status.ofCode status.toNat with
  | some st => if st ∈ migrationFailures then s.failMigration p h st else s
  | none => s

/-! The meanings. Tolerabor does this work, and while the Referee is down it is not done (R245). -/

def execFaultResolved (site chan : Nat) (s : State) : Answered := .next (if s.up then s.faultResolved site chan else s)
def execFaultUnresolvable (site chan : Nat) (s : State) : Answered := .next (if s.up then s.faultUnresolvable site chan else s)
def execHoldBudgetExhausted (site : Nat) (s : State) : Answered := .next (s.budgetExhausted site)
def execCowResolve (site : Nat) (handle : Handle) (page : BitVec 21) (newPage : Addr) (s : State) : Answered :=
  .next (if s.up then s.cowResolve site handle page.toNat newPage.toNat else s)
def execFarRecall (site : Nat) (handle : Handle) (page : BitVec 21) (newPage : Addr) (lines : List (List Byte)) (s : State) : Answered :=
  .next (if s.up then s.farRecall site handle page.toNat newPage.toNat lines else s)
def execTierCopyDone (part : Nat) (handle : Handle) (page : BitVec 21) (newPage : Addr) (s : State) : Answered :=
  .next (if s.up then s.tierCopyDone part handle page.toNat newPage.toNat else s)
def execMigrationCopyDone (part : Nat) (handle : Handle) (destPart : Nat) (s : State) : Answered :=
  .next (if s.up then s.migrationCopied part handle destPart else s)
def execMigrationFail (part : Nat) (handle : Handle) (status : BitVec 8) (s : State) : Answered :=
  .next (if s.up then s.migrationFailed part handle status else s)

end Sys2Proof.Machine
end

