-- ==== Sys2Proof/Machine/NetworkCommands.lean ====
section
/-! DEFINITION. The receipt of B-net and C-net packets at a router, replays, circuits and injection (chapter 8). -/

namespace Sys2Proof.Machine

/-! B-net links (R213, R214, R226, R239) -/

/-- A packet that asks for an answer (R237): the answers themselves get none. -/
def bnetRequest : BnetKind → Bool
  | .rd | .wr | .send | .prd | .pwr => true
  | .rdata | .wack | .sack | .err | .pdata | .pwack => false

/-- A failed link (R239): marked at both of its routers, with an ERROR event. R240 lists the directions of LINK_FAIL as N, E, S, W and does not say
which end N is at; the model has N at the lowest bit, as in the order of the outputs of Table 8.10 (DESIGN CHOICE, log 80). -/
def State.failLink (s : State) (q d : Nat) : State :=
  match neighbour q d with
  | none => s
  | some n =>
    let s := (s.setFlag .bnStatus q 0 (4 + d) true).setFlag .bnStatus n 0 (4 + opposite d) true
    s.event7F .error (s.owner q) q .bnStatus q

/-- How often a packet has failed in a row at a link. -/
def State.failsOf (s : State) (q d : Nat) (p : BnetPacket) : Nat :=
  (((s.square q).linkFails.find? (fun x => decide (x.1 = d ∧ x.2.1 = p))).map (fun x => x.2.2)).getD 0

/-- Forget the failures of a packet at a link. -/
def State.clearFails (s : State) (q d : Nat) (p : BnetPacket) : State :=
  s.modSquare q (fun v => { v with linkFails := v.linkFails.filter (fun x => decide (¬(x.1 = d ∧ x.2.1 = p))) })

/-- One more failure in a row of a packet at a link (R214): the sixteenth fails the link. -/
def State.linkFailure (s : State) (q d : Nat) (p : BnetPacket) : State :=
  let n := s.failsOf q d p + 1
  let s := s.clearFails q d p
  if n = 16 then s.failLink q d else s.modSquare q (fun v => { v with linkFails := v.linkFails ++ [(d, p, n)] })

/-- An acknowledgement reaches the sender of a packet: the packet leaves the replay buffer (R214), and its router is served. -/
def State.acknowledge (s : State) (q d : Nat) (p : BnetPacket) : State :=
  let x := if p ∈ s.lane q d 0 then 0 else 1
  (s.modSquare q (fun v =>
    { v with replay := Sparse.nset [] v.replay (laneKey d x) ((Sparse.nget [] v.replay (laneKey d x)).erase p) })).serveRouter q

/-- The ERR that a router sends for a packet it cannot carry (R225, R237, R239): an ERR itself is not answered. -/
def State.bounce (s : State) (q : Nat) (p : BnetPacket) (st : Status) : State :=
  if p.kind = .err then s else s.injectBnet q (s.errFor q p st)

/-! Delivery (R213, R216, R219) -/

/-- The write of a WR packet, block by block under its byte enables. -/
def State.packetWrite (s : State) (r : Requester) (p : BnetPacket) : State × Option Status :=
  let put (s : State) (a : Nat) (d : List Byte) : State × Option Status :=
    match s.accessAt r p.compiled a d.length (some d) with
    | (s, .ok _) => (s, none)
    | (s, .error e) => (s, some e)
  if p.payload = [] then (s, none)
  else if p.payload.length = 64 ∧ p.byteEnable ≠ BitVec.allOnes 64 then
    (packetBytes p).foldl (fun (s, e) (a, b) => match e with
      | some x => (s, some x)
      | none => put s a [b]) (s, none)
  else put s p.addr.toNat p.payload

/-- Bytes that an RD packet asks for: to the end of its line. A packet carries no length of its own, and a transfer is counted in lines. -/
def readLength (p : BnetPacket) : Nat := 1024 - p.addr.toNat % 1024

/-- An ERR reaches its requester (R213): a SEND in flight takes a bus error with its status (R95, R238). -/
def State.errArrives (s : State) (i : Nat) (p : BnetPacket) : State :=
  match s.siteOwner i, (s.die i).flights.find? (fun f => decide (f.sendXid = some p.xid)), Status.ofCode ((p.payload.headD 0).toNat) with
  | some part, some _, some st => s.busMove part st
  | _, _, _ => s

/-- A message that a port-class packet becomes at a quad: a SEND or a SACK for its partner, or a pool message (Table 13.6b). -/
def portMessage (s : State) (n : Nat) (p : BnetPacket) : LinkMsg :=
  { op := match p.kind with
      | .prd => 0x01
      | .pdata => 0x02
      | .pwr => 0x03
      | .pwack => 0x04
      | .sack => 0x06
      | _ => 0x05
    status := 0, dst := s.partnerOf n, src := s.moduleId, srcPart := p.part, dstPart := BitVec.ofNat 3 (s.field .olQstatus n 0 40 3), xid := p.xid,
    seq := if p.kind = .sack then 0 else p.seq, lines := if p.kind = .sack then 0 else p.lines, epoch := if p.kind = .sack then 0 else p.epoch,
    turn := if p.kind = .send then p.turn else 0, rctr := if p.kind = .send then p.rctr else 0, addr := if p.kind = .sack then 0 else p.addr,
    payload := p.payload }

/-- The quad of an engine that carries a line (R375): the lines are spread over its UP DIRECT quads, here by SEQ (DESIGN CHOICE, log 80). -/
def State.engineQuad (s : State) (e : Nat) (p : BnetPacket) : Nat :=
  let l := (rangeFrom (4 * e) 4).filter (fun n => s.quadIsUp n && decide (s.quadRole n = roleDirect))
  l.getD (p.seq.toNat % max 1 l.length) (4 * e)

/-- A packet leaves by an engine as a message. -/
def State.toEngine (s : State) (e : Nat) (p : BnetPacket) : State :=
  let n := s.engineQuad e p
  s.pushMsg n (portMessage s n p)

/-- An ERR on the B-net reaches the engine that injected a SEND: the other module gets it as the ERR of Table 13.6b, with its own EPOCH. -/
def State.errToEngine (s : State) (e : Nat) (p : BnetPacket) : State :=
  let n := s.engineQuad e p
  s.pushMsg n { portMessage s n p with
    op := 0x0B, status := p.payload.headD 0, lines := 0, addr := 0, epoch := p.epoch - BitVec.ofNat 16 (bitsAt (s.latchedReg .olSpanOfs e) 0 16)
    payload := [0x05] ++ List.replicate 7 0 ++ leBytes 6 p.addr.toNat ++ [0, 0] }

/-- The kinds whose lines a receiver may already hold (R216). A SEND's are tracked at its die. -/
def lineKind : BnetKind → Bool
  | .wr | .rdata | .pwr | .pdata => true
  | _ => false

/-- A line that its receiver already holds (R216). -/
def State.duplicate (s : State) (q : Nat) (p : BnetPacket) : Bool := lineKind p.kind && decide ((p.src, p.xid, p.seq) ∈ (s.square q).seen)

/-- A compiled packet at the square of a die is of an earlier turn or epoch (R218). -/
def State.staleAt (s : State) (q : Nat) (p : BnetPacket) : Bool :=
  match squareSite q with
  | some i => (s.die i).stale p && (s.siteOwner i).isSome
  | none => false

/-- Record a line that a receiver holds. -/
def State.noteLine (s : State) (q : Nat) (p : BnetPacket) : State :=
  if lineKind p.kind then s.modSquare q (fun v => { v with seen := v.seen ++ [(p.src, p.xid, p.seq)] }) else s

/-- A packet at its destination, neither stale nor a duplicate. -/
def State.serveHere (s : State) (q : Nat) (p : BnetPacket) : State :=
  let r := requesterOf p.src.toNat p.compiled
  let part := p.part.toNat
  match p.kind with
  | .rd =>
    match s.accessAt r p.compiled p.addr.toNat (readLength p) none with
    | (s, .ok d) => s.injectBnet q (s.answerTo q p .rdata d)
    | (s, .error e) => s.bounce q p e
  | .wr =>
    match s.packetWrite r p with
    | (s, none) => s.injectBnet q (s.answerTo q p .wack [])
    | (s, some e) => s.bounce q p e
  | .send => match squareKind q with
    | .site i => s.sendArrives i p (BitVec.ofNat 64 (s.dieCycle ((s.siteOwner i).getD 0) i))
    | .optical e =>
      if s.partnerOf (4 * e) ∈ s.fencedModules then (s.bump .bnResetErr q).bounce q p .peerFenced else s.toEngine e p
    | _ => s.bounce q p .badArgument
  | .sack => match squareKind q with
    | .site i => s.sackFor i p.xid (BitVec.ofNat 64 (s.dieCycle ((s.siteOwner i).getD 0) i))
    | .optical e => s.toEngine e p
    | _ => s
  | .err => match squareKind q with
    | .site i => s.errArrives i p
    | .optical e => s.errToEngine e p
    | _ => s
  | .prd | .pwr =>
    match s.poolQuad part p.addr.toNat false with
    | some n => s.pushMsg n (portMessage s n p)
    | none => s.bounce q p .linkVacant
  | .pdata => s.poolData part p.xid p.seq p.payload
  | .pwack => s.poolAck part p.xid p.seq
  | .rdata | .wack => s

/-- A packet at its destination (R216, R218): a compiled one that is stale at its die is dropped, and a line already held is discarded; both are
counted. -/
def State.deliver (s : State) (q : Nat) (p : BnetPacket) : State :=
  if s.staleAt q p then s.bump .bnStaleArrivals q
  else if s.duplicate q p then s.bump .bnDups q
  else (s.noteLine q p).serveHere q p

/-! Receipt -/

/-- Output port of a circuit at a router (BN_CROUTEn). -/
def State.circuitPort (s : State) (q c : Nat) : Nat := bitsAt (s.latchedReg .bnCroute q (c / 8)) (8 * (c % 8)) 3

/-- A circuit packet at a router (R221, R225): it waits in the circuit's queue for its output; at its last router it is delivered. -/
def State.takeCircuit (s : State) (q : Nat) (p : BnetPacket) : State :=
  let c := p.circ.toNat
  let port := s.circuitPort q c
  if port = 0 ∨ port = 7 then s.bounce q p .badArgument
  else if port = 5 then s.deliver q p
  else s.setCircuitQueue q c (s.circuitQueue q c ++ [p])

/-- A router has a place for a packet over a link (R221, R226): in its circuit's queue of 4, or in its channel's buffer of 16, unless it is to go no
further. -/
def State.hasInput (s : State) (q d : Nat) (p : BnetPacket) : Bool :=
  if p.circ ≠ 0xFF then decide (s.circuitPort q p.circ.toNat ∈ [0, 5, 7]) || decide ((s.circuitQueue q p.circ.toNat).length < 4)
  else decide (p.dest.toNat = q) || (nextHop q p.src.toNat p.dest.toNat).isNone ||
    decide ((s.bnetBuf q (inputKey d (packetChannel p))).length < 16)

/-- A good packet over a link at a router: delivered, or put into its buffer and served by its route (R210, R226, R239). -/
def State.carry (s : State) (q d : Nat) (p : BnetPacket) : State :=
  if p.circ ≠ 0xFF then s.takeCircuit q p
  else if p.dest.toNat = q then s.deliver q p
  else match nextHop q p.src.toNat p.dest.toNat with
    | none => s
    | some n =>
      if s.flag .bnStatus q 0 (4 + directionTo q n) then s.bounce q p .uncorrectable
      else
        let k := inputKey d (packetChannel p)
        (s.setBnetBuf q k (s.bnetBuf q k ++ [p])).serveRouter q

/-- A packet from a square's own port (R226, R227): it enters the router as there is room, or is delivered in the square. -/
def State.fromPort (s : State) (q : Nat) (p : BnetPacket) : State :=
  if p.circ ≠ 0xFF ∧ s.circuitPort q p.circ.toNat ∈ [0, 5, 7] then s.takeCircuit q p
  else if p.circ = 0xFF ∧ p.dest.toNat = q then s.deliver q p
  else (s.modSquare q (fun v => { v with bnetHeld := v.bnetHeld ++ [p] })).serveRouter q

/-- A port-class packet finds the egress buffer of an optical square full (R227). -/
def State.portHeld (s : State) (q : Nat) (p : BnetPacket) : Bool := decide (p.cls = 2 ∧ p.circ = 0xFF) && s.portFull q

/-- A full egress buffer holds a packet off: the cycles it was full, which no operand gives, are a free value. -/
def State.portCounts (s : State) (q : Nat) : State :=
  let (w, s) := s.draw
  s.bump .bnPortFull q 0 w.toNat

/-- The squares that only MAINT packets reach (R233): before Ready, all of them; and those of a partition that is being reset. Nothing there uses
the B-net. -/
def State.maintOnly (s : State) (q : Nat) : Bool :=
  !s.ready || (match s.owner q with
    | some p => (s.part p).resetCmd.isSome
    | none => false)

/-- BNET_PACKET: a packet over the link of a direction, or from the square's own port (link 4), which has no check (R213, R214, R227, R237). A packet
whose check fails is discarded and negatively acknowledged; one for which there is no room stays with its sender, and neither is acknowledged. -/
def State.bnetReceipt (s : State) (q d : Nat) (check : BitVec 32) (p : BnetPacket) : State :=
  if s.maintOnly q then s
  else if 4 ≤ d then
    if s.portHeld q p then ((s.portCounts q).modSquare q (fun v => { v with bnetHeld := v.bnetHeld ++ [p] })) else s.fromPort q p
  else match neighbour q d with
    | none => s
    | some n =>
      if s.flag .bnStatus q 0 (4 + d) || s.clamped n q then s
      else if check ≠ p.check then (s.modSquare q (fun v => { v with naks := v.naks ++ [(d, p)] })).linkFailure q d p
      else if s.portHeld q p then s.portCounts q
      else if !s.hasInput q d p then s
      else
        let s := (s.clearFails q d p).bump .bnRxBytes q 0 p.payload.length
        let s := s.acknowledge n (opposite d) p
        if s.owner q ≠ s.owner n then
          let s := s.bump .bnFenceDrop q
          if bnetRequest p.kind then s.bounce q p .partitionFenced else s
        else s.carry q d p

/-- Replay a packet of a lane (R214): BN_REPLAYS counts at the receiver. -/
def State.replayPacket (s : State) (q d : Nat) (p : BnetPacket) : State :=
  match neighbour q d with
  | some n =>
    if s.flag .bnStatus q 0 (4 + d) then s
    else ((s.modSquare q (fun v => { v with bnetOut := v.bnetOut ++ [p] })).bump .bnTxBytes q 0 p.payload.length).bump .bnReplays n
  | none => s

/-- The packet of a lane that a negative acknowledgement names: the first that the other end has refused, or where it has refused none of them the
oldest. -/
def State.nakked (s : State) (q d lane : Nat) : Option BnetPacket :=
  let l := s.lane q d lane
  let bad := match neighbour q d with
    | some n => l.find? (fun p => decide ((opposite d, p) ∈ (s.square n).naks))
    | none => none
  match bad with
  | some p => some p
  | none => l.head?

/-- BNET_NAK: the packet is replayed. -/
def State.replayLane (s : State) (q d lane : Nat) : State :=
  match s.nakked q d lane, neighbour q d with
  | some p, some n => (s.modSquare n (fun v => { v with naks := v.naks.erase (opposite d, p) })).replayPacket q d p
  | _, _ => s

/-- BNET_REPLAY_TIMEOUT: no acknowledgement of the oldest packet has come, which is one more failure of it, and it is replayed. -/
def State.replayTimeout (s : State) (q d lane : Nat) : State :=
  match neighbour q d, s.lane q d lane with
  | some n, p :: _ => if s.flag .bnStatus q 0 (4 + d) then s else (s.linkFailure n (opposite d) p).replayPacket q d p
  | _, _ => s

/-- A circuit message enters a quad's queue, outside the port class (R227). -/
def State.pushCircuit (s : State) (n : Nat) (m : LinkMsg) : State :=
  (s.pushMsg n m).modQuad n (fun v => { v with circMsgs := v.circMsgs ++ [m] })

/-- The head of a circuit's queue can leave by the circuit's output (R220, R221): the wheel runs, a slot of the present tick is the circuit's, and
the next queue has room. -/
def State.circuitGoes (s : State) (q c : Nat) : Bool :=
  let port := s.circuitPort q c
  if port = 6 then s.circuitSlot q 4 c
  else decide (1 ≤ port ∧ port ≤ 4) && !s.flag .bnStatus q 0 (4 + (port - 1)) && s.circuitSlot q (port - 1) c &&
    s.circuitAhead q (port - 1) c && (s.freeLane q (port - 1)).isSome

/-- CIRCUIT_FORWARD (R221): the head of a circuit's queue moves over the next link, or into the engine; the cycles it waited are counted. -/
def State.circuitForward (s : State) (q : Nat) (c : Nat) (waited : Nat) : State :=
  match s.circuitQueue q c with
  | [] => s
  | p :: rest =>
    if !s.circuitGoes q c then s
    else
      let t := (s.setCircuitQueue q c rest).bump .bnCircWait q 0 waited
      if s.circuitPort q c = 6 then
        match squareKind q with
        | .optical e => (t.pushCircuit (s.engineQuad e p) (portMessage s (s.engineQuad e p) p)).serveRouter q
        | _ => s
      else (t.sendOver q (s.circuitPort q c - 1) p).serveRouter q

/-! The C-net (R228 to R239) -/

/-- The types that ask for an RSP (R228, R232). -/
def cnetRequest : CnetType → Bool
  | .rd | .wr | .doorbell | .maint => true
  | _ => false

/-- Who a C-net access is for. A hart's privilege is checked at its own die (R331), so what reaches the C-net from a host square has it. -/
def cnetRequester (src : Nat) : Requester :=
  match squareKind src with
  | .site i => .rook i
  | .host h => .hart h 0 .m
  | .referee => .referee
  | _ => .bmc

/-- An access over the C-net, and its RSP. -/
def State.cnetAccess (s : State) (q : Nat) (p : CnetPacket) (data : Option (List Byte)) : State :=
  match s.accessAt (cnetRequester p.src.toNat) false p.addr.toNat p.size.toNat data with
  | (s, .ok d) => s.injectCnet q (s.rspFor q p 0 d)
  | (s, .error e) => s.injectCnet q (s.rspFor q p e.code [])

/-- An RSP of a host square answers the Referee's probe of its die (R420). -/
def State.probeAnswered (s : State) (src : Nat) : State :=
  match squareKind src with
  | .host h => s.modHost h (fun v => { v with probeOpen := false, probeMisses := 0 })
  | _ => s

/-- The report that an EVENT packet carries (R470, R482): the first 16 bytes of a record's layout with the sequence number, OPSEC and PWRCYC
of the reporter zero, then its tick and payload. -/
def reportOf (p : CnetPacket) : Report :=
  let d := p.payload.take p.size.toNat
  let sev : Severity := match (d.getD 2 0).toNat / 16 with
    | 0 => .debug | 1 => .info | 2 => .notice | 3 => .warning | 4 => .error | 5 => .critical | _ => .safety
  { code := BitVec.ofNat 16 (bytesAt d 0 2), sev := sev, part := BitVec.ofNat 4 (d.getD 2 0).toNat, source := p.src,
    tick := BitVec.ofNat 64 (bytesAt d 16 8), payload := d.drop 24 }

/-- A C-net packet at its destination. -/
def State.ejectCnet (s : State) (q : Nat) (p : CnetPacket) : State :=
  let s := s.bump .cnRxPkts q
  match p.type with
  | .rd => s.cnetAccess q p none
  | .wr | .doorbell => s.cnetAccess q p (some (p.payload.take p.size.toNat))
  | .maint => s.cnetAccess q p (if p.payload = [] then none else some (p.payload.take p.size.toNat))
  | .rsp => if q = 0 then s.probeAnswered p.src.toNat else s
  | .fault => s
  | .event => if q = 0 then s.report (reportOf p) else s
  | .debug => if q = 255 then s.storeTrace (padTo 64 p.payload) else s
  | .msi => s.sendMsi (s.owner p.src.toNat) 0x0F p.src.toNat p.addr.toNat (BitVec.ofNat 32 (bytesAt p.payload 0 4))

/-- A packet that a router has taken is no longer on the wires of the link it came over. -/
def State.offWires (s : State) (q d : Nat) (p : CnetPacket) : State :=
  match neighbour q d with
  | some n => s.modSquare n (fun v =>
      { v with cnetWire := Sparse.nset [] v.cnetWire (cnetKey (opposite d) p) ((Sparse.nget [] v.cnetWire (cnetKey (opposite d) p)).erase p) })
  | none => s

/-- A C-net packet over a link at a router: ejected, or put into its buffer and served (R229); a failed link ahead is answered (R239). A buffer
that is full leaves it on the wires. -/
def State.cnetCarry (s : State) (q d : Nat) (p : CnetPacket) : State :=
  let k := cnetKey d p
  if p.dest.toNat = q then ((s.offWires q d p).ejectCnet q p).cnetServeRouter q
  else match nextHop q p.src.toNat p.dest.toNat with
    | none => s.offWires q d p
    | some n =>
      if s.flag .cnStatus q 0 (1 + directionTo q n) then
        if p.type = .rsp then s.offWires q d p else (s.offWires q d p).injectCnet q (s.rspFor q p Status.uncorrectable.code [])
      else if (s.cnetBuf q k).length < 8 then ((s.offWires q d p).setCnetBuf q k (s.cnetBuf q k ++ [p])).cnetServeRouter q
      else s

/-- CNET_PACKET: a packet over the link of a direction, or from the square's own port (link 4), where the square's injection limit holds (R230). Before
Ready and in recovery the Referee reaches squares only by MAINT packets (R233). -/
def State.cnetReceipt (s : State) (q d : Nat) (p : CnetPacket) : State :=
  if s.maintOnly q && decide (p.src = 0 ∧ p.type ≠ .maint ∧ p.type ≠ .rsp) then s
  else if 4 ≤ d then if p.dest.toNat = q then s.ejectCnet q p else s.injectCnet q p
  else match neighbour q d with
    | none => s
    | some n =>
      if s.flag .cnStatus q 0 (1 + d) || s.clamped n q then s
      else if s.owner q ≠ s.owner n ∧ p.src ≠ 0 ∧ p.dest ≠ 0 then
        let s := (s.offWires q d p).bump .cnFenceDrop q
        if cnetRequest p.type then s.injectCnet q (s.rspFor q p Status.partitionFenced.code []) else s
      else s.cnetCarry q d p

/-- CNET_INJECTION_RELEASE (R230): the cycles that the oldest requester waited are counted, and its packet takes a token and enters the router. -/
def State.injectionRelease (s : State) (q waited : Nat) : State :=
  match (s.square q).cnetHeld with
  | [] => s
  | p :: l => match s.cnetEnter q p with
    | none => s
    | some t => (((t.modSquare q (fun v => { v with cnetHeld := l })).bump .cnInjWait q 0 waited).takeToken q).cnetServeRouter q

/-! The meanings -/

def execBnetPacket (square link : Nat) (check : BitVec 32) (p : BnetPacket) (s : State) : Answered := .next (s.bnetReceipt square link check p)
def execBnetNak (square link lane : Nat) (s : State) : Answered := .next (s.replayLane square link lane)
def execBnetReplayTimeout (square link lane : Nat) (s : State) : Answered := .next (s.replayTimeout square link lane)
def execCircuitForward (square : Nat) (circ : BitVec 8) (waited : BitVec 32) (s : State) : Answered :=
  .next (s.circuitForward square circ.toNat waited.toNat)
def execCnetPacket (square link : Nat) (p : CnetPacket) (s : State) : Answered := .next (s.cnetReceipt square link p)
def execCnetInjectionRelease (square : Nat) (waited : BitVec 32) (s : State) : Answered := .next (s.injectionRelease square waited.toNat)

end Sys2Proof.Machine
end

