-- ==== Sys2Proof/Machine/Resets.lean ====
section
/-! DEFINITION. What start-up, partition.form and the resets share (chapters 1, 12, 14, 15 and 16): filling, fences, the S-net tree, the SAM,
calibration, self-test, the interconnect test, and the reset of dies and host dies. -/

namespace Sys2Proof.Machine

/-! Memory (R396, R397) -/

/-- Fill every DRAM line, slice unit and die-memory bank of a region with zeros, and its rook pads (R57, R396). -/
def State.fillRegion (s : State) (r : Nat) : State :=
  let s := ((List.range 48).filter (fun k => stackRegion k = r)).foldl (fun (s : State) k =>
    { s.fillLines (k * 2 ^ 26) (2 ^ 26) with fills := s.fills.filter (fun x => decide (stackOf (1024 * x.1) ≠ k)) }) s
  let ranges := (regionSquares r).map (fun q => (0x080000000000 + q * 0x04000000, 0x04000000)) ++
    (regionSites r).map (fun i => (dieBase i, 0x08000000)) ++ (regionSites r).map (fun i => (padBase i, 0x400000))
  let s := ranges.foldl (fun s (a, n) => s.zeroRange a n) s
  { s with
    poison := s.poison.filter (fun b => !ranges.any (fun (a, n) => decide (a ≤ 64 * b ∧ 64 * b < a + n)))
    tailMem := s.tailMem.filter (fun c => decide (c.1 / (65536 * 2048) ∉ regionSquares r))
    filledRegions := Sparse.insertNat s.filledRegions r }

/-! Fences of squares (R400, R403, R408) -/

/-- SF_FENCE of every square (Table 15.6): its owner, and its links to squares of different ownership. -/
def State.writeFences (s : State) : State :=
  (List.range 256).foldl (fun s q =>
    let own := s.owner q
    let base := match own with
      | some p => 16 * p
      | none => 128
    let links := (List.range 4).foldl (fun n d =>
      match neighbour q d with
      | some m => if s.owner m = own then n else n + 2 ^ (3 - d)
      | none => n) 0
    s.setReg .sfFence q 0 (BitVec.ofNat 64 (base + links))) s

/-! The S-net tree (R235) -/

/-- The parent of a square in the tree of a partition with a given root: along its row toward the root's column, then along that column
(DESIGN CHOICE: the spec leaves the tree to Tolerabor, within its bound on the root latency). Codes of SN_TREE [2:0]. -/
def treeParent (root q : Nat) : Nat := if q = root then 0 else if sqX root < sqX q then 4 else 1

/-- Panel cycles from the root: 2 a hop and 3 a field seam (Table 3.2, R400's example). -/
def treeLatency (root q : Nat) : Nat :=
  2 * ((sqX q - sqX root) + (sqY q - sqY root)) + 3 * ((fieldOf (sqX q) - fieldOf (sqX root)) + (fieldOf (sqY q) - fieldOf (sqY root)))

/-- Write SN_TREE of a partition's squares. -/
def State.writeTree (s : State) (p : Nat) : State :=
  let l := s.partSquares p
  match l.min? with
  | none => s
  | some root =>
    l.foldl (fun s q =>
      let child (d : Nat) : Nat := match neighbour q d with
        | some n => if n ∈ l ∧ treeParent root n = (if d = 1 then 4 else 1) ∧ (d = 1 ∨ d = 2) then 2 ^ (8 + d) else 0
        | none => 0
      s.setReg .snTree q 0 (BitVec.ofNat 64 (treeParent root q + child 1 + child 2 + treeLatency root q * 2 ^ 16))) s

/-! The SAM (R32 to R39) -/

/-- A 128-bit site image: bit i for the sites of a list. -/
def siteImage (l : List Nat) : BitVec 128 := maskOf 128 l

/-- The digest of a site image (R37). -/
def imageDigest (v : BitVec 128) : Word := crc64 (leBytes 16 v.toNat)

/-- PT_VIEW_DIGEST (R38). -/
def State.writeView (s : State) (p : Nat) : State := s.setReg .ptViewDigest p 0 (imageDigest (siteImage (s.enabledSites p)))

/-- The sites of a state in the site record. -/
def State.sitesIn (s : State) (v : SiteState) : List Nat := (List.range 104).filter (fun i => decide (s.siteState i = v))

/-- Apply the pending change of a site, if it is of the kind asked for. At most 100 sites are ENABLED (R33): an enable that finds 100 stays
pending (DESIGN CHOICE: device.site_enable counts a reserve that is pending in another partition, R40, which may be applied later). -/
def State.applySite (s : State) (enables : Bool) (i : Nat) : State :=
  match Sparse.nfind s.flash.sitesNext i with
  | some v =>
    if decide (v = .enabled) = enables ∧ (enables = false ∨ (s.sitesIn .enabled).length < 100) then
      ({ s with flash := { s.flash with sitesNext := Sparse.ndrop s.flash.sitesNext i } }).setSiteState i v
    else s
  | none => s

/-- The header switches of a die that is not ENABLED are open (R32). -/
def State.openIfDisabled (s : State) (i : Nat) : State :=
  if s.siteState i = .enabled then s else s.modDie i (fun d => { d with powered := false, inReset := true })

/-- Apply the pending changes of some sites, those that take a site out first, and publish the SAM (R39): the registers of Table 1.7.
REF_SAM_GEN increments where the image of the site record changed. -/
def State.publishSam (s : State) (sites : List Nat) : State :=
  let old := s.sitesIn .enabled
  let s := sites.foldl (fun s i => s.applySite true i) (sites.foldl (fun s i => s.applySite false i) s)
  let image (v : SiteState) : BitVec 128 := siteImage (s.sitesIn v)
  let put (s : State) (lo hi : RegName) (v : BitVec 128) : State :=
    (s.setReg lo 0 0 (v.setWidth 64)).setReg hi 0 0 (BitVec.ofNat 64 (bitsAt v 64 40))
  let s := ((put s .refSamLo .refSamHi (image .enabled)).setReg .refSamDigest 0 0 (imageDigest (image .enabled)))
  let s := put (put s .refRsvLo .refRsvHi (image .reserve)) .refRetLo .refRetHi (image .retired)
  let s := if s.sitesIn .enabled = old then s else { s with flash := { s.flash with samGen := s.flash.samGen + 1 } }
  (sites.foldl (fun s i => s.openIfDisabled i) s).setReg .refSamGen 0 0 (s.flash.samGen.setWidth 64)

/-! Self-test (R28 to R31, R35) -/

/-- Self-test of a site: cells lists the failing physical cells, row and column (R29, R30, R35). One in a row becomes its excluded column, and
SPARE_BAD says that it was that already; two retire the site. -/
def State.selfTest (s : State) (i : Nat) (cells : List (Nat × Nat)) : State :=
  let bad (r : Nat) : List Nat := ((cells.filter (fun c => decide (c.1 = r))).map Prod.snd).eraseDups
  let s := s.modDie i (fun d => { d with badCells := cells })
  if (List.range 16).any (fun r => decide (2 ≤ (bad r).length)) then
    { s with flash := { s.flash with sitesNext := Sparse.nput s.flash.sitesNext i .retired } }
  else
    (List.range 16).foldl (fun s r => match bad r with
      | c :: _ => s.setRowMap i r (c + (if c = s.exclCol i r then 128 else 0))
      | [] => s.setRowMap i r 16) s

/-- PW_VSTEP of some regions as self-test measured it (R458): steps faster than the fused one read 0xFF. A region that the test reports nothing
for keeps its bytes. -/
def State.writeVsteps (s : State) (regions : List Nat) (found : List (Nat × BitVec 64)) : State :=
  regions.foldl (fun s r => match found.find? (fun x => decide (x.1 = r)) with
    | some (_, v) => s.setReg .pwVstep r 0 ((List.range 8).foldl (fun w k => if k < Config.variant.fusedStep then putBits w (8 * k) 8 0xFF else w) v)
    | none => s) s

/-- At a cold start no row excludes a column yet, and column 16 is the spare (R28). -/
def State.firstRowMaps (s : State) (i : Nat) : State := (List.range 16).foldl (fun s r => s.setRowMap i r 16) s

/-- The failing cells that a test found at a site. -/
def cellsAt (f : TestFindings) (i : Nat) : List (Nat × Nat) := (f.cells.filter (fun c => decide (c.1 = i))).map Prod.snd

/-! Calibration and the interconnect test (R76, R77, R438, R439) -/

/-- XL_DIE_LAT (Table 3.2): a byte a step, 0 for steps faster than the fused one. -/
def dieLat : Word :=
  ([0x33, 0x33, 0x33, 0x34, 0x24, 0x24, 0x25, 0x26].mapIdx (fun k b => (k, b))).foldl (fun w (k, b) =>
    if k < Config.variant.fusedStep then w else putBits w (8 * k) 8 b) 0

/-- Hold a compute die in reset for a crossing or bond that fails (R77, R439): REF_OUT and an ERROR event. -/
def State.holdDie (s : State) (i : Nat) : State :=
  let s := (s.modDie i (fun d => { d with inReset := true, playing := false, flights := [], check := none })).setSiteOut i true
  let s := { s with barred := Sparse.insertNat s.barred (siteRegion i) }
  s.event7F .error (s.siteOwner i) 0 (if i < 64 then .refOutLo else .refOutHi) 0 0 (leBytes 4 i)

/-- Calibrate the crossings of a compute die. -/
def State.calibrateDie (s : State) (i : Nat) (found : TestFindings) : State :=
  let s := s.setReg .xlDieLat i 0 dieLat
  if i ∈ found.dies then s.holdDie i
  else s.setFlag .sfClk (siteSquare i) 0 0 false

/-- Calibrate a host die's crossings: one that fails keeps the die in reset with CAL_FAIL. -/
def State.calibrateHost (s : State) (h : Nat) (found : TestFindings) : State :=
  if h ∈ found.hosts then
    let s := (s.setFlag .hdStatus h 0 4 true).setField .hdStatus h 0 1 2 0
    let s := { s with barred := Sparse.insertNat s.barred (hostRegion h) }
    s.event7F .error (s.hostOwner h) (hostSquare h) .hdStatus h
  else s.setFlag .hdStatus h 0 4 false

/-- Calibrate the crossings of a stack (R77): one that fails keeps the stack from being released, and its region from partitions (R401). The spec
states no severity for it. -/
def State.calibrateStack (s : State) (k : Nat) (found : TestFindings) : State :=
  if k ∈ found.stackCrossings then
    ({ s with barred := Sparse.insertNat s.barred (stackRegion k) } : State).event7FAny (s.stackOwner k) (stackSquare k) .mcEccStatus k
  else s

/-- A quad counts in OL_CAPACITY: it is UP, or it has left UP and not entered VACANT, which is where capacity falls (R372). -/
def State.quadCounts (s : State) (q : Nat) : Bool :=
  s.quadIsUp q || ((s.quad q).fromDown && decide (s.quadState q = quadTraining ∨ s.quadState q = quadDownState))

/-- The counts of OL_CAPACITY and the bits of OL_VACANT (Table 13.9). -/
def State.countQuads (s : State) : State :=
  let n (role : Nat) : Nat := ((List.range 224).filter (fun q => s.quadCounts q && decide (s.quadRole q = role))).length
  let s := s.setReg .olCapacity 0 0 (BitVec.ofNat 64 (n rolePool + 256 * n roleDirect + 65536 * n roleFabric))
  (List.range 4).foldl (fun s k =>
    s.setReg .olVacant 0 k (maskOf 64 ((List.range 64).filter (fun j => decide (64 * k + j < 224 ∧ s.quadState (64 * k + j) = quadVacant))))) s

/-- A quad enters VACANT (R372): capacity falls, its OL_VACANT bit is set, and a WARNING records it. -/
def State.vacateQuad (s : State) (n : Nat) (sev : Severity := .warning) : State :=
  let s := ((s.setField .olQstatus n 0 12 4 quadVacant).modQuad n (fun v => { v with fromDown := false })).countQuads
  s.event7F sev (s.owner (engineSquare (quadEngine n))) (engineSquare (quadEngine n)) .olQstatus n

/-- The quads of an engine that cannot be released go VACANT (R77, R439). -/
def State.vacateEngine (s : State) (e : Nat) : State :=
  (rangeFrom (4 * e) 4).foldl (fun s n => if s.quadRole n = roleDark then s else s.vacateQuad n .error) s

/-- Calibrate the crossings of an engine (R77): the chapter of the optical ports states no outcome for one that fails, and the model takes that of a
failed bond (DEDUCED). -/
def State.calibrateEngine (s : State) (e : Nat) (found : TestFindings) : State :=
  if e ∈ found.engineCrossings then s.vacateEngine e else s

/-- Calibrate the crossings of a partition beside those of its dies (R76, R77). -/
def State.calibrateParts (s : State) (dram hosts engines : List Nat) (found : TestFindings) : State :=
  let s := dram.foldl (fun s k => s.calibrateStack k found) s
  let s := hosts.foldl (fun s h => s.calibrateHost h found) s
  engines.foldl (fun s e => s.calibrateEngine e found) s

/-- Set a stack DEGRADED (R386, R439, R440). -/
def State.degradeStack (s : State) (k : Nat) (sev : Severity) : State :=
  (s.setFlag .mcEccStatus k 0 3 true).event7F sev (s.stackOwner k) (stackSquare k) .mcEccStatus k

/-- The failed links of a square whose other square is among those tested are no longer failed (R239). -/
def State.clearLinks (s : State) (squares : List Nat) (q : Nat) : State :=
  (List.range 4).foldl (fun s d => match neighbour q d with
    | some n => if n ∈ squares then (s.setFlag .bnStatus q 0 (4 + d) false).setFlag .cnStatus q 0 (1 + d) false else s
    | none => s) s

/-- What the interconnect test finds on the squares of a list (R438, R439): spares in use, failed panel links, and failed bonds of stacks and
engines. Bonds of dies stand with their crossings. A link that leaves the list stays failed if it was (R239). -/
def State.testLinks (s : State) (squares : List Nat) (found : TestFindings) : State :=
  let s := squares.foldl (fun s q =>
    (s.setReg .xlRepair q 0 (BitVec.ofNat 64 (((found.spares.find? (fun x => decide (x.1 = q))).map Prod.snd).getD 0))).clearLinks squares q) s
  let s := (found.links.filter (fun x => decide (x.1 ∈ squares))).foldl (fun s (q, d, cnet) =>
    if !cnet then s.failLink q d
    else match neighbour q d with
      | none => s
      | some n => ((s.setFlag .cnStatus q 0 (1 + d) true).setFlag .cnStatus n 0 (1 + opposite d) true).event7F .error (s.owner q) q .cnStatus q) s
  let s := (found.stackBonds.filter (fun k => decide (stackSquare k ∈ squares))).foldl (fun s k => s.degradeStack k .error) s
  (found.engineBonds.filter (fun e => decide (engineSquare e ∈ squares))).foldl (fun s e => s.vacateEngine e) s

/-! Compute dies -/

/-- A compute-die reset (R441, Table 16.3): die and rook start afresh, die memory and the rook pad are zeroed. What the square's window holds
beside the die's own status and counters of the turn is kept. Lines that waited at its square are answered with BUSY (R238). -/
def State.resetDie (s : State) (i : Nat) : State :=
  let s := (s.zeroRange (dieBase i) 0x08000000).zeroRange (padBase i) 0x400000
  let s := { s with poison := s.poison.filter (fun b =>
    ¬((dieBase i ≤ 64 * b ∧ 64 * b < dieBase i + 0x08000000) ∨ (padBase i ≤ 64 * b ∧ 64 * b < padBase i + 0x400000))) }
  let s := (List.range 255).foldl (fun s n => s.setReg .sqCtr i n 0) s
  let s := [RegName.sqNext, .mxStatus, .vxStatus, .mxFlags, .vxFlags].foldl (fun s n => s.setReg n i 0 0) s
  let s := s.setField .sqStatus i 0 16 6 0
  let q := siteSquare i
  let s := (s.square q).sendWait.foldl (fun s k => (s.bump .bnResetErr q).injectBnet q (s.errFor q k .busy)) s
  let s := s.modSquare q (fun v => { v with sendWait := [], seen := [] })
  let on := s.siteEnabled i
  let s := s.setDie i { powered := on, inReset := !on, lastPip := (s.die i).lastPip, badCells := (s.die i).badCells, traceQueue := (s.die i).traceQueue, traceLost := (s.die i).traceLost }
  match s.siteOwner i with
  | some p => s.setArrival p i
  | none => s

/-! Host dies (R343, R344, Table 12.9) -/

/-- Hold a host die in reset: harts and caches reset, modified blocks discarded and counted, interrupt files and reservations cleared, the
root port and IOMMU reset, and the link down. -/
def State.stopHost (s : State) (h : Nat) : State :=
  let mine (x : Nat × CacheCopy) : Bool := decide ((Nat.unpair x.1).1 = h)
  let lost := (s.hartBlocks.filter (fun x => mine x && decide (x.2.dirty ≠ []))).length
  let s := s.bump .hdLostDirty h 0 lost
  let s := { s with hartBlocks := s.hartBlocks.filter (fun x => !mine x) }
  let s := (s.setField .hdStatus h 0 1 2 0).setReg .hdPcieStatus h 0 0
  let s := (List.range 32).foldl (fun s c => (s.setReg .hdMpriv (32 * h + c) 0 0).setReg .hdMtimecmp (32 * h + c) 0 (BitVec.allOnes 64)) s
  s.setHost h { wakes := (s.hostDie h).wakes }

/-- Release a host die at HD_BOOT_ADDR (R344): an address outside the partition's DRAM, or a failed crossing, keeps it in reset. The answer
says whether it runs. -/
def State.releaseHost (s : State) (p h : Nat) : State × Bool :=
  let a := (s.reg .hdBootAddr h).toNat
  if s.flag .hdStatus h 0 4 ∨ s.flag .hdStatus h 0 3 then (s, false)
  else if !s.inPartDram p a 4096 then (s.event7F .error (some p) (hostSquare h) .hdBootAddr h, false)
  else ((s.setField .hdStatus h 0 1 2 1).modHost h (fun v => { v with portInReset := false }), true)

/-! Rings -/

/-- Ring 0 of a partition (R251): KERNEL, or FLEET in the partition that holds host die 0. -/
def State.setRing0 (s : State) (p : Nat) : State :=
  if s.partHosts p = [] then s else s.setField .mbRingCtl p 0 1 2 (if 0 ∈ s.partHosts p then 2 else 1)

/-- The journal's commands that act on a partition (R246, R262). -/
def State.outstandingOf (s : State) (p : Nat) : List (Cmd × BitVec 16) :=
  (s.referee.journal.filter (fun e => decide (e.cmd.target.toNat = p))).map (fun e => (e.cmd, e.opcode))

/-! Turns -/

/-- Bring the turn of a partition to its end for a reset (R445 order 1): play is aborted as at the slip limit, the work of its changeover
is done, and turns stop. A partition at rest stays at rest. -/
def State.finishTurn (s : State) (p cause : Nat) : State :=
  let v := s.part p
  match v.stage with
  | .stopped => s
  | .ready => if v.startsFresh then s.stopTurns p else s.endTurns p
  | .worked => s.endTurns p
  | .started => (s.contextWork p (2 ^ 32) (s.part p).queue.length []).endTurns p
  | _ =>
    let s := (s.abortTurn p cause).beginChangeover p 0
    (s.contextWork p (2 ^ 32) (s.part p).queue.length []).endTurns p

end Sys2Proof.Machine
end

