-- ==== Sys2Proof/Machine/Partitions.lean ====
section
/-! DEFINITION. Forming and dissolving partitions (R400 to R405), partition and host-die resets (R343, R426, R441 to R446), and
partition.cache_layout (R60). -/

namespace Sys2Proof.Machine

/-! Forming (R400 to R403) -/

def regionColumn (r : Nat) : Nat := r % 4
def regionRow (r : Nat) : Nat := r / 4

/-- The regions of a mask form a rectangle of the 4 × 4 grid (R400). -/
def isRectangle (l : List Nat) : Bool :=
  match (l.map regionColumn).min?, (l.map regionColumn).max?, (l.map regionRow).min?, (l.map regionRow).max? with
  | some x0, some x1, some y0, some y1 =>
    (List.range 16).all (fun r => decide (r ∈ l ↔ (x0 ≤ regionColumn r ∧ regionColumn r ≤ x1 ∧ y0 ≤ regionRow r ∧ regionRow r ≤ y1)))
  | _, _, _, _ => false

/-- A supply region that R401 keeps from partitions: a crossing of it failed calibration, a stack of it is DEGRADED, or it is held down
(R413, Table 16.9). -/
def State.regionBarred (s : State) (r : Nat) : Bool :=
  decide (r ∈ s.barred ∨ r ∈ s.power.held) || (List.range 48).any (fun k => decide (stackRegion k = r) && s.flag .mcEccStatus k 0 3)

/-- What PW_LIMIT leaves for a new partition of n regions (R3, R461): the budgets of the formed partitions, those that wait for a changeover with
them, and 160 W for each region that stays unassigned taken off; none where they do not fit. -/
def State.powerLeft (s : State) (n : Nat) : Option Nat :=
  let used := s.formedParts.foldl (fun t p => t + s.budgetClaim p) 0
  let idle := 160 * (((List.range 16).filter (fun r => (s.regionOwner r).isNone)).length - n)
  let cap := s.field .pwLimit 0 0 0 16
  if used + idle ≤ cap then some (cap - used - idle) else none

/-- The first condition of Table 15.1 or R461 that holds. -/
def State.formRefused (s : State) (regions : BitVec 16) (number headless : Nat) : Option Status :=
  let l := bitList 16 regions
  firstFailing
    [(decide (number < 8 ∧ regions ≠ 0 ∧ headless ≤ 1), .badArgument),
     (!(s.formed number || s.dissolving number), .busy),
     (l.all (fun r => (s.regionOwner r).isNone), .notPermitted),
     (isRectangle l, .badArgument),
     (decide (headless = 1) || l.any (fun r => decide (regionHosts r ≠ [])), .badArgument),
     (decide (headless = 0) || (List.range 224).any (fun n =>
        decide (engineRegion (quadEngine n) ∈ l ∧ s.quadRole n = roleFabric) && s.quadIsUp n), .linkVacant),
     (!l.any s.regionBarred, .notPermitted),
     ((s.powerLeft l.length).isSome, .notPermitted)]

/-- The registers of a partition that forming it gives their first values, T fields with the value in effect: turn lengths, the fused step,
the rows and the directory that it owns (R81, R267, R292). -/
def State.firstRegisters (s : State) (p : Nat) : State :=
  let fused := Config.variant.fusedStep
  let squares := (s.partSquares p).length
  let s := ((s.setBoth .tnTurnLen p 0 200000).setBoth .tnChgLen p 0 2000).setBoth .tnStep p 0 (BitVec.ofNat 64 fused)
  let s := s.setField .tnStatus p 0 16 3 fused
  let s := (List.range 4).foldl (fun s n =>
    s.setReg .stBlock p n (maskOf 64 ((List.range 64).filter (fun j => decide (64 * n + j ∈ s.partSquares p))))) s
  let s := (s.setReg .stRows p 0 (BitVec.ofNat 64 (4096 * squares))).setReg .stDirCap p 0 (BitVec.ofNat 64 (65536 * squares))
  (s.countStreams p).countTails p

/-- The first boot address of a host die (set by firmware, its value not given): the first byte of the partition's lowest stack
(DESIGN CHOICE). -/
def State.firstBoot (s : State) (p : Nat) : Word := BitVec.ofNat 64 (((s.partStacks p).headD 0) * 2 ^ 36)

/-- The steps of R402. At a cold start the dies have had their self-test at step 8, which serves the step 6 of every recorded partition; test
says that it is run here. -/
def State.formPartition (s : State) (regions : BitVec 16) (p : Nat) (headless : Bool) (found : TestFindings) (test : Bool := true) : State :=
  let n := (bitList 16 regions).length
  let budget := min (s.field .pwLimit 0 0 0 16 * n / 16) ((s.powerLeft n).getD 0)
  let s := s.setReg .pwPartBudget p 0 (BitVec.ofNat 64 budget)
  let s := s.setReg .ptRegions p 0 (BitVec.ofNat 64 (regions.toNat + (if headless then 65536 else 0)))
  let s := (s.writeFences.writeTree p).setReg .ptStatus p 0 2
  let s := (s.partRegions p).foldl (fun s r => if r ∈ s.filledRegions then s else s.fillRegion r) s
  let s := { s with filledRegions := s.filledRegions.filter (fun r => decide (r ∉ s.partRegions p)) }
  let s := (s.partSquares p).foldl (fun s q => s.setReg .ccLayout q 0 0x401000) s
  let s := (s.writeView p).firstRegisters p
  let s := (s.enabledSites p).foldl (fun s i =>
    let s := s.modDie i (fun d => { d with powered := true, inReset := s.siteOut i })
    if test then s.selfTest i (cellsAt found i) else s) s
  let s := if test then s.writeVsteps (s.partRegions p) found.vstep else s
  let s := s.writeOcLimits.startTurns p s.now
  let s := (s.partHosts p).foldl (fun s h => s.setReg .hdBootAddr h 0 (s.firstBoot p)) s
  (s.partHosts p).foldl (fun s h => (s.releaseHost p h).1) (s.setRing0 p)

/-- The partition record in boot flash (R404). -/
def State.recordPartition (s : State) (p : Nat) (entry : Option (BitVec 16 × Bool)) : State :=
  let rest := s.flash.partitions.filter (fun x => decide (x.1 ≠ p))
  { s with flash := { s.flash with partitions := match entry with
    | some (r, h) => rest ++ [(p, r, h)]
    | none => rest } }

def rowForm : MailRow := { opcode := 0x0200, level := .fleet, device := true, bmc := true, reached := true }

/-- partition.form (R401, R402, R404). -/
def State.partitionForm (s : State) (c : Cmd) (regions : BitVec 16) (number headless : BitVec 8) (found : TestFindings) : State :=
  s.take c rowForm false (fun _ s =>
    match s.formRefused regions number.toNat headless.toNat with
    | some st => s.complete c 0x0200 st
    | none =>
      let s := s.formPartition regions number.toNat (decide (headless = 1)) found
      (s.recordPartition number.toNat (some (regions, decide (headless = 1)))).complete c 0x0200 .ok)

/-! Dissolving (R405) -/

/-- Registers of a partition that no longer exists: those that software or Tolerabor wrote for it. Counters stay (R427). -/
def goneRegisters : List (RegName × Nat) :=
  [(.ptRegions, 1), (.ptStatus, 1), (.ptViewDigest, 1), (.ptHostsFenced, 1), (.ptPeer, 8), (.tnTurnLen, 1), (.tnChgLen, 1), (.tnStep, 1),
   (.tnMinStep, 1), (.tnSpan, 1), (.sqBook, 1), (.sqMapReq, 1), (.sqMapNow, 1), (.sqPreempt, 1), (.ccPubBase, 16), (.ccPubLen, 16),
   (.stRows, 1), (.stLive, 1), (.stActive, 1), (.stParked, 1), (.stDirCap, 1), (.stTailsFree, 1), (.stBlock, 4), (.stPinLend, 1),
   (.mcCeMsiAddr, 1), (.mcCeMsiData, 1), (.dbSession, 1), (.dbHaltedLo, 1), (.dbHaltedHi, 1), (.dbTraceCtl, 1), (.pwPartBudget, 1),
   (.mbRingSq, 16), (.mbRingCq, 16), (.mbRingCtl, 16), (.mbRingProd, 16), (.mbRingCons, 16), (.mbRingCqProd, 16), (.mbRingCqCons, 16),
   (.mbRingMsiAddr, 16), (.mbRingMsiData, 16), (.mbRingStatus, 16)]

/-- Return the regions of a partition to the unassigned state (R403): dies and host dies held in reset with header switches open, memory
filled, squares fenced. -/
def State.unassign (s : State) (p : Nat) : State :=
  let regions := s.partRegions p
  let sites := s.partSites p
  let s := sites.foldl (fun s i =>
    let d := s.die i
    s.setDie i { lastPip := d.lastPip, badCells := d.badCells, fenced := d.fenced, traceQueue := d.traceQueue, traceLost := d.traceLost }) s
  let s := regions.foldl (fun s r => s.fillRegion r) s
  let s := { s with rows := s.rows.filter (fun (k, _) => !s.ownsSlot p k) }
  let s := goneRegisters.foldl (fun s (n, k) => (List.range k).foldl (fun s j => s.setBoth n p j (rk n p j).reset) s) s
  let s := (List.range 16).foldl (fun s n => s.setRing p n {}) s
  (s.setPart p {}).writeFences.writeOcLimits

def rowDissolve : MailRow := { opcode := 0x0201, level := .fleet, bmc := true, fencedToo := true, reached := true }

/-- partition.dissolve (R405). -/
def State.partitionDissolve (s : State) (c : Cmd) : State :=
  s.take c rowDissolve false (fun p s =>
    if cmdPart c = some p then s.complete c 0x0201 .notPermitted
    else if s.dissolving p then s.complete c 0x0201 .busy
    else
      let s := s.setFlag .ptStatus p 0 3 true
      let s := s.finishTurn p abortReset
      let s := if s.bookLoaded p then s.endBook p else s
      let s := (s.outstandingOf p).foldl (fun s (x, o) => if x = c then s else s.complete x o .partitionFenced) s
      let s := (s.partHosts p).foldl (fun s h => s.stopHost h) s
      ((s.unassign p).recordPartition p none).complete c 0x0201 .ok)

/-! Partition resets (R262, R426, R443 to R446) -/

/-- Commands that a reset completes with BUSY (R262): a book.load not completed, book.preempt and debug.trace. -/
def State.busyCommands (s : State) (p : Nat) : State :=
  let s := if (s.part p).loading.isSome then s.endLoad p .busy else s
  let pre := (s.part p).preemptCmds
  let dbg := (s.part p).queue.filter (fun q => match q.op with
    | .debugTrace _ => true
    | _ => false)
  let s := s.modPart p (fun v => { v with preemptCmds := [], queue := v.queue.filter (fun q => decide (q ∉ dbg)), traceNext := none })
  let s := pre.foldl (fun s x => s.complete x 0x0303 .busy) s
  dbg.foldl (fun s q => s.complete q.cmd 0x0804 .busy) s

/-- A reset ends the debug session of the partition (R443, R489), and a reset die is not halted. -/
def State.endHalts (s : State) (p : Nat) : State := ((s.setReg .dbHaltedLo p 0 0).setReg .dbHaltedHi p 0 0).endSession p

/-- Valid knocks arrive from a module on a DIRECT quad that is UP (Table 15.5). -/
def State.knocksFrom (s : State) (m : BitVec 13) : Bool :=
  (List.range 224).any (fun n => s.quadIsUp n && decide (s.quadRole n = roleDirect ∧ s.partnerOf n = m ∧ (s.quad n).misses = 0) && !(s.quad n).peerLost)

/-- Lift the fences of a partition that a reset lifts (Table 15.5). A held region was powered down (R516), so a full reset raises its enables again
(DEDUCED, log 83): found says whose supply is back in its window. -/
def State.liftFences (s : State) (p : Nat) (full : Bool) (found : TestFindings) : State :=
  let s := (s.partSites p).foldl (fun s i => s.setSiteOut i false) s
  let s := if !full then s
    else
      let back := (s.partRegions p).filter (fun r => decide (r ∉ s.power.held ∨ r ∈ found.supplies))
      let s := back.foldl (fun (s : State) r => if r ∈ s.power.held then s.liftRegion r else s) s
      let s := s.setFlag .pwStatus 0 0 1 (decide (s.power.held ≠ []))
      let s := back.foldl (fun s r => (s.setFlag .pwRgnStatus r 0 2 false).setFlag .pwRgnStatus r 0 3 false) s
      (s.partHosts p).foldl (fun s h =>
        if hostRegion h ∈ s.power.held then s
        else (((s.setFlag .hdStatus h 0 3 false).setFlag .ptHostsFenced p 0 h false).setFlag .sfClk (hostSquare h) 0 1 false)) s
  let s := (List.range 8).foldl (fun s n =>
    let v := s.reg .ptPeer p n
    if bitAt v 63 ∧ s.knocksFrom (BitVec.ofNat 13 (bitsAt v 0 13)) = true then s.setReg .ptPeer p n 0 else s) s
  let listed (m : BitVec 13) : Bool := (List.range 8).any (fun x => (List.range 8).any (fun n =>
    let v := s.reg .ptPeer x n
    bitAt v 63 && decide (bitsAt v 0 13 = m.toNat)))
  { s with fencedModules := s.fencedModules.filter (fun m => listed m || !s.knocksFrom m) }

/-- A condition of R422 holds of a partition after a reset: a site of it is out of service, a region of it is held, or a peer that its spanning
book names is still fenced. -/
def State.stillFenced (s : State) (p : Nat) : Bool :=
  (s.enabledSites p).any (fun i => s.siteOut i || decide (siteRegion i ∈ s.power.held)) || (s.partRegions p).any (fun r => decide (r ∈ s.power.held)) ||
  (s.part p).members.any (fun x => (List.range 8).any (fun n => bitAt (s.reg .ptPeer p n) 63 && decide (bitsAt (s.reg .ptPeer p n) 0 13 = x.1)))

/-- Reload the book that was loaded, from step 2 of R206 (R426, R445): only the partition's view can have changed. A book that spans modules
comes back once every member has confirmed it (R376, R425). The answer is the status of a reload that has ended. -/
def State.reloadBook (s : State) (p : Nat) (c : Cmd) : State × Option Status :=
  match s.book p with
  | none => (s, some .ok)
  | some b =>
    if b.samDigest ≠ s.reg .ptViewDigest p then (s.endBook p, some .mapMismatch)
    else
      let image := (s.part p).bookImage
      let l : Loading := { cmd := c, book := b, image := image, installed := false, heard := [], firstFail := none, reload := true }
      if b.span then
        let members := s.membersOf b
        let s := (s.endBook p).modPart p (fun v => { v with loading := some l, members := members, bookImage := image })
        (s.sendSpanConfirm p b 0, none)
      else
        let s := (s.installBook p l).modPart p (fun v => { v with loading := none, switch := none })
        let s := (s.setReg .sqBook p 0 b.crc).enterMap p b 0
        let s := (s.bookSites p).foldl (fun s i => s.setFlag .sqStatus i 0 21 false) s
        (s.setBoth .sqMapReq p 0 0, some .ok)

/-- The dies, crossings, tests and SAM of a partition reset (R445 orders 2 to 4, R446). -/
def State.resetDies (s : State) (p : Nat) (full : Bool) (found : TestFindings) : State :=
  let s := if full then
      let s := (s.partSquares p).foldl (fun s q => s.flushSlice q) s
      s.flushHsc p
    else s
  let s := (s.partSites p).foldl (fun s i => s.resetDie i) s
  let s := s.liftFences p full found
  let s := (s.partSites p).foldl (fun s i => if decide (siteRegion i ∈ s.power.held) then
      (s.modDie i (fun d => { d with powered := false, inReset := true, fenced := true })) else s.calibrateDie i found) s
  let s := if full then
      let engines := (List.range 56).filter (fun e => decide (engineRegion e ∈ s.partRegions p))
      (s.calibrateParts (s.partStacks p) (s.partHosts p) engines found).testLinks (s.partSquares p) found
    else s
  let s := ((s.partSites p).filter (fun i => decide (s.siteState i ≠ .retired))).foldl (fun s i => s.selfTest i (cellsAt found i)) s
  let s := s.writeVsteps (s.partRegions p) found.vstep
  let s := (s.publishSam (s.partSites p)).writeView p
  ((s.partSites p).foldl (fun s i => s.modDie i (fun d =>
    let on := s.siteEnabled i && !decide (siteRegion i ∈ s.power.held)
    { d with powered := on, inReset := !on || s.siteOut i })) s).writeOcLimits

/-- Clear the fence of a partition, unless a condition of R422 holds (R424). One that the reset itself has brought up, a die that failed its
calibration, fences the partition: Table 15.8 has no cause for it. -/
def State.unfence (s : State) (p : Nat) : State :=
  if s.stillFenced p then s.fencePartition p 0 else (s.setFlag .ptStatus p 0 2 false).setField .ptStatus p 0 12 4 0

/-- Tell the other members of a spanning book that this one is to be reset at or after the common first turn (R377): SPAN_ABORT. -/
def State.tellAbort (s : State) (p : Nat) : State :=
  match s.book p with
  | some b => if b.span then
      s.tellMembers p 0x05 (leBytes 4 (s.turn p).toNat ++ leBytes 4 (s.field .ptStatus p 0 12 4) ++ leBytes 8 s.now.toNat)
    else s
  | none => s

/-- A partition compute or full reset from acceptance to its end: full adds the host dies, their caches and the panel links (R445, R446). A
partition whose turns had stopped for good (R79) stays at rest. -/
def State.partitionReset (s : State) (p : Nat) (c : Cmd) (full : Bool) (found : TestFindings) : State :=
  let running := decide ((s.part p).stage ≠ .stopped) || (s.part p).resetCmd.isSome
  let s := s.modPart p (fun v => { v with resetCmd := some (c, full, found) })
  let s := ((s.tellAbort p).busyCommands p).endHalts p
  let s := if full then (s.partHosts p).foldl (fun s h => s.stopHost h) s else s
  let s := s.finishTurn p abortReset
  let s := ((s.resetDies p full found).unfence p)
  let (s, st) := s.reloadBook p c
  let s := if running then s.startTurns p s.now else s
  let s := if full then
      let s := (s.setRing0 p).modPart p (fun v => { v with grants := [] })
      (s.partHosts p).foldl (fun s h => (s.releaseHost p h).1) s
    else s
  match st with
  | some .ok => if s.zeroingIn p then s.completeZeroed p c 0x0202 (s.turn p) else s.completeReset p c .ok (some (s.turn p))
  | some x => s.completeReset p c x (some (s.turn p))
  | none => s

def rowReset : MailRow := { opcode := 0x0202, level := .kernel, fencedToo := true, reached := true }

/-- A reset of the partition is in progress (R443): die memory is still being zeroed, or a spanning book that it reloads has not come back. -/
def State.resetting (s : State) (p : Nat) : Bool := (s.part p).resetCmd.isSome

/-- partition.reset, kind 0 (R445). -/
def State.computeReset (s : State) (c : Cmd) (found : TestFindings) : State :=
  s.take c rowReset false (fun p s =>
    if s.resetting p then s.complete c 0x0202 .busy else s.partitionReset p c false found)

/-- partition.reset, kind 1 (R446). -/
def State.fullReset (s : State) (c : Cmd) (found : TestFindings) : State :=
  s.take c rowReset false (fun p s =>
    if s.resetting p then s.complete c 0x0202 .busy else s.partitionReset p c true found)

/-- partition.reset, kind 2 (R343, R344, Table 16.3): the die's crossings and bond are tested again before release, and the answer names the turn
in progress then. Where they fail the die stays in reset with CAL_FAIL, and the command completes with BUSY, as later resets of the die do
(DEDUCED, log 83). -/
def State.hostReset (s : State) (c : Cmd) (die : BitVec 8) (found : TestFindings) : State :=
  s.take c rowReset (decide (7 < die.toNat) || decide (s.hostOwner die.toNat ≠ some c.target.toNat)) (fun p s =>
    let h := die.toNat
    let full := (s.part p).resetCmd.any (fun x => x.2.1)
    if s.hostFenced h || s.flag .hdStatus h 0 4 || full then s.complete c 0x0202 .busy
    else
      let s := ((s.stopHost h).bump .hdResets h).calibrateHost h found
      if s.flag .hdStatus h 0 4 then s.complete c 0x0202 .busy
      else match s.releaseHost p h with
      | (s, true) => s.complete c 0x0202 .ok (some (s.turn p))
      | (s, false) => s.complete c 0x0202 .badArgument)

/-! partition.cache_layout (R58 to R60) -/

/-- Role of a unit of a slice under a layout: 0 the stream table, 1 pinned, 2 tails, 3 host system cache, 4 general (R58). -/
def unitRole (pin tail hsc u : Nat) : Nat :=
  if u = 0 then 0 else if u ≤ pin then 1 else if u ≤ pin + tail then 2 else if u ≤ pin + tail + hsc then 3 else 4

/-- The unit of a slice that holds a tail (R286). -/
def State.tailUnit (s : State) (q t : Nat) : Nat := 1 + s.field .ccLayout q 0 0 8 + t / 128

/-- A handle names a stream whose tails a layout change may not move (R60): OPEN, IDLE, ACTIVE or PARKED. -/
def State.keepsTails (s : State) (p : Nat) (h : Handle) : Bool :=
  s.rows.any (fun (_, e) => decide (e.part.toNat = p ∧ e.handle = h ∧ e.state ∈ [stOpen, stIdle, stActive, stParked])) ||
  (s.part p).parked.any (fun (_, e) => decide (e.handle = h))

/-- The refusals of R60, in its order. -/
def State.layoutRefused (s : State) (p : Nat) (pin tail hsc : Nat) : Option Status :=
  let changes (q u : Nat) : Bool :=
    decide (unitRole (s.field .ccLayout q 0 0 8) (s.field .ccLayout q 0 8 8) (s.field .ccLayout q 0 16 8) u ≠ unitRole pin tail hsc u)
  let squares := s.partSquares p
  let total := hsc * squares.length + ((List.range 256).filter (fun q => decide (q ∉ squares))).foldl (fun n q => n + s.field .ccLayout q 0 16 8) 0
  let runs := (s.part p).tailRuns.any (fun r => s.keepsTails p r.handle && (rangeFrom r.first r.count).any (fun t => changes r.square (s.tailUnit r.square t)))
  let hscMoves := squares.any (fun q => decide (s.field .ccLayout q 0 16 8 ≠ hsc))
  firstFailing
    [(decide (pin + tail + hsc ≤ 239), .badArgument),
     (decide (total ≤ 16384), .badArgument),
     (decide (s.partHosts p = [] ∨ 256 ≤ hsc * squares.length), .badArgument),
     (!s.bookLoaded p, .busy),
     (!runs, .busy),
     (!(hscMoves && (s.partHosts p).any (fun h => s.hostRunning h)), .busy)]

/-- Zero-fill a unit of a slice: its pinned window and its tails. -/
def State.zeroUnit (s : State) (q u : Nat) : State :=
  let a := 0x080000000000 + q * 0x04000000 + u * 0x40000
  let s := s.zeroRange a 0x40000
  { s with poison := s.poison.filter (fun b => ¬(a ≤ 64 * b ∧ 64 * b < a + 0x40000)) }

end Sys2Proof.Machine
end

