-- ==== Sys2Proof/Machine/Quads.lean ====
section
/-! DEFINITION. The states of a quad (R349, R350, R370 to R374, R378): training, UP, DOWN, VACANT, and what the loss of a quad does to a
spanning book. -/

namespace Sys2Proof.Machine

/-- The laser input of a quad is low: LA feeds quads 0 and 1 of an engine, LB quads 2 and 3 (Table 13.1). -/
def State.laserLow (s : State) (n : Nat) : Bool := s.flag .olLaser (n / 4) 0 (n % 4 / 2)

/-- The partition of a quad (R345). -/
def State.quadOwner (s : State) (n : Nat) : Option Nat := s.owner (engineSquare (quadEngine n))

/-- The module may bring up a quad of a role (R350): FABRIC and DIRECT quads need a module ID. -/
def State.mayTrain (s : State) (n : Nat) : Bool :=
  decide (s.quadRole n = rolePool) || (decide (s.quadRole n ≠ roleDark) && decide (s.moduleId ≠ 0x1FFF))

/-- An attempt to train a quad begins (R370). -/
def State.startTraining (s : State) (n : Nat) : State :=
  ((s.setField .olQstatus n 0 12 4 quadTraining).bump .olAttempts n).modQuad n (fun v => { v with
    locked := false, hellos := 0, lastHelloStamp := 0, lastHelloArrival := 0 })

/-- Commands that wait for a quad to be UP or VACANT (R374, R450). -/
def State.answerRetrains (s : State) (n : Nat) (st : Status) : State :=
  let cs := (s.quad n).retrainCmds
  let s := s.modQuad n (fun v => { v with retrainCmds := [], maintWanted := false })
  cs.foldl (fun s c => s.complete c 0x0601 st) s

/-- A quad is UP (R370, R353): its flits are numbered afresh, and OL_RETRAINS counts a return from DOWN. -/
def State.bringUp (s : State) (n : Nat) : State :=
  let s := if (s.quad n).fromDown then s.bump .olRetrains n else s
  let s := (s.setField .olQstatus n 0 12 4 quadUp).setField .olQstatus n 0 32 2 0
  let s := s.modQuad n (fun v => { v with
    fromDown := false, replay := [], nextSeq := 0, expected := 0, lastAck := 0xFFFF, retrySent := false, failedReplays := 0, reassembly := [],
    freed := [], partnerFreed := [], knockCount := 0, windowOpen := false, misses := 0, peerLost := false })
  s.countQuads.answerRetrains n .ok

/-- An attempt fails (R372): a third consecutive failure makes the quad VACANT, otherwise it trains again. -/
def State.failAttempt (s : State) (n : Nat) : State :=
  let f := min 3 (s.field .olQstatus n 0 32 2 + 1)
  let s := s.setField .olQstatus n 0 32 2 f
  if f = 3 then (s.vacateQuad n).answerRetrains n .linkVacant else s.startTraining n

/-- A quad leaves UP (R372), so a retrain that was asked for has reached the hardware (R246): it discards its replay buffer and the flits held for reassembly, and trains at once. -/
def State.leaveUp (s : State) (n : Nat) : State :=
  let s := (s.quad n).retrainCmds.foldl (fun s c => s.markReached c 0x0601) s
  (s.modQuad n (fun v => { v with replay := [], reassembly := [], fromDown := true })).startTraining n

/-- A book's circuits begin or end at the engine of a quad (R374, R378). -/
def State.bookUses (s : State) (n : Nat) : Bool :=
  match s.quadOwner n with
  | some p => match s.book p with
    | some b => b.circuits.any (fun c => decide (c.dest.toNat = engineSquare (quadEngine n) ∨ c.src.toNat = engineSquare (quadEngine n)))
    | none => false
  | none => false

/-- A member of a spanning book aborts its turn and is fenced (R378). -/
def State.spanLost (s : State) (p : Nat) : State := (s.abortTurn p abortFence).fencePartition p causeSpan

/-- A DIRECT quad that carries the circuits of a spanning book is lost (R378): the turn aborts, the other members are told, and the partition is
fenced. -/
def State.spanQuadLost (s : State) (n : Nat) : State :=
  match s.quadOwner n with
  | none => s
  | some p => match s.book p with
    | some b =>
      if b.span ∧ s.quadRole n = roleDirect ∧ s.bookUses n then
        let s := s.tellMembers p 0x05 (leBytes 4 ((s.turn p).toNat % 2 ^ 32) ++ [BitVec.ofNat 8 causeSpan, 0, 0, 0] ++ leBytes 8 s.now.toNat)
        (s.spanLost p).safetyAt (some p) (engineSquare (quadEngine n)) .olQstatus n 0 n
      else s
    | none => s

/-- A quad goes DOWN (R372). -/
def State.quadDown (s : State) (n : Nat) : State :=
  if !s.quadIsUp n then s
  else
    let s := s.setField .olQstatus n 0 12 4 quadDownState
    (s.spanQuadLost n).leaveUp n

/-- A quad retrains (R374): at once where no loaded book names its engine's circuits, else in a maintenance turn, pre-empting the turn in
play. -/
def State.retrainQuad (s : State) (n : Nat) : State :=
  if s.bookUses n then
    match s.quadOwner n with
    | some p => (s.modQuad n (fun v => { v with maintWanted := true })).preemptTurn p
    | none => s
  else s.leaveUp n

end Sys2Proof.Machine
end

