-- ==== Sys2Proof/Machine/Recorder.lean ====
section
/-! DEFINITION. The event recorder's own commands (chapter 18): intake, flushes, rate windows, operating seconds, freezes, and the log.* mailbox
operations. -/

namespace Sys2Proof.Machine

/-! SAFETY reports of hardware, and the intake queue (R479, R482) -/

/-- A SAFETY report that the compare unit, the watchdog or the thermal comparator makes itself (R479): while Tolerabor runs it is numbered at
once; otherwise it goes to the must-keep area with SEQ 0, or waits at intake where that area is full. -/
def State.hardwareSafety (s : State) (r : Report) : State :=
  if s.recording then s.accept r
  else if s.recorder.keep.length < 64 then
    let x := s.recorder
    (s.keepRecord { report := r, seq := 0, opsec := x.opsec, pwrcyc := x.pwrcyc, flushed := false }).modRecorder
      (fun x => { x with unnumbered := x.unnumbered + 1 })
  else s.modRecorder (fun x => { x with intake := x.intake ++ [r] })

/-- Tolerabor numbers the SAFETY records that hardware wrote while it was down, and copies them into the ring (R479). -/
def State.numberKept (s : State) : State :=
  let n := s.recorder.keep.length
  let k := min s.recorder.unnumbered n
  let s := s.modRecorder (fun x => { x with unnumbered := 0 })
  (rangeFrom (n - k) k).foldl (fun s i =>
    match s.recorder.keep[i]? with
    | none => s
    | some r =>
      let seq := s.recorder.nextSeq
      (s.numberRecord r.report).modRecorder (fun x => { x with keep := x.keep.set i { r with seq := seq } })) s

/-- Record the reports that wait at intake, in their order of arrival. -/
def State.drainIntake (s : State) : State :=
  let l := s.recorder.intake
  l.foldl (fun s r => s.record r) (s.modRecorder (fun x => { x with intake := [] }))

/-- A LOG_LOSS record (Table 18.2): records lost to power failure, at intake, and to flash failure. -/
def State.logLoss (s : State) (power intake flash : Nat) : State :=
  s.event 0 0x81 .warning none 0 (leBytes 8 power ++ leBytes 8 intake ++ leBytes 8 flash)

/-- EVENT_REPORT (R482): a report that has reached the Referee square; its payload is at most 240 bytes with the tick (R470). -/
def execEventReport (r : Report) (s : State) : Answered := .next (s.report { r with payload := r.payload.take 232 })

/-! Flushes (R475, R476, R487) -/

/-- Mark ring records as flushed. -/
def markFlushed (seqs : List (BitVec 32)) (l : List Record) : List Record :=
  l.map (fun r => if r.seq ∈ seqs then { r with flushed := true } else r)

/-- The records of a flush reach the log area, then the header and the must-keep mirror (R474, R475); FLASH_FAIL clears (R487). Losses of the
time of a failed flash are reported as it clears. -/
def State.finishFlush (s : State) : State :=
  let seqs := s.recorder.flushSeqs
  let s := (s.recorder.ring.filter (fun r => decide (r.seq ∈ seqs) && !r.flushed)).foldl (fun s r => s.logRecord r) s
  let lost := s.recorder.flashLost.toNat
  let failed := s.flag .evStatus 0 0 5
  let s := s.modRecorder (fun x => { x with
    ring := markFlushed seqs x.ring, keepMirror := x.keep, headerSeq := x.nextSeq - 1, headerOpsec := x.opsec, headerPwrcyc := x.pwrcyc, flushing := false, flushRetry := false, flushSeqs := [],
    flashLost := if failed then 0 else x.flashLost })
  let s := ((s.setFlag .evStatus 0 0 3 false).setFlag .evStatus 0 0 5 false).bump .evFlushes
  let s := (if failed then s.releaseAlert else s).countUnflushed
  let s := if failed ∧ 0 < lost then s.logLoss 0 0 lost else s
  if s.recorder.flushDue then s.beginFlush else s

/-- A flush has failed: it is retried once, and a second failure sets FLASH_FAIL (R487). -/
def State.failFlush (s : State) : State :=
  if !s.recorder.flushRetry then s.modRecorder (fun x => { x with flushRetry := true })
  else
    let s := s.modRecorder (fun x => { x with flushing := false, flushRetry := false, flushSeqs := [], flushDue := false })
    ((s.setFlag .evStatus 0 0 3 false).setFlag .evStatus 0 0 5 true).alert

/-- FLUSH (R475): a flush begins; one is due while another is in progress or a freeze is in force (R484). -/
def execFlush (s : State) : Answered := .next s.beginFlush

/-- FLUSH_COMPLETE (R487): the flush in progress ends or fails. -/
def execFlushComplete (good : Bool) (s : State) : Answered :=
  .next (if !s.recorder.flushing then s else if good then s.finishFlush else s.failFlush)

/-- FLASH_FAIL_RETRY (R487): while FLASH_FAIL is set, Tolerabor attempts a flush; one that fails leaves the recorder in its ring. -/
def execFlashFailRetry (good : Bool) (s : State) : Answered :=
  .next (if !(s.up && s.flag .evStatus 0 0 5) then s
    else
      let s := s.beginFlush
      if !s.recorder.flushing then s
      else if good then s.finishFlush
      else (s.modRecorder (fun x => { x with flushRetry := true })).failFlush)

/-! Rate windows and seconds (R471, R480, R482) -/

/-- RATE_WINDOW_CLOSE (R480): the window of a pair closes; a SUPPRESSED record tells what it suppressed. -/
def execRateWindowClose (code : BitVec 16) (part : BitVec 4) (s : State) : Answered :=
  .next (match s.recorder.windows.find? (fun w => w.code = code ∧ w.part = part) with
    | none => s
    | some w =>
      let s := s.modRecorder (fun x => { x with windows := x.windows.filter (fun y => ¬(y.code = code ∧ y.part = part)) })
      if w.suppressed = 0 then s
      else s.report
        { code := 0x0080, sev := w.highest, part := part, source := 0, tick := s.now,
          payload := leBytes 2 code.toNat ++ [BitVec.ofNat 8 (sevCode w.highest), 0] ++ leBytes 4 w.suppressed ++
            leBytes 8 w.firstTick.toNat ++ leBytes 8 w.lastTick.toNat })

/-- OPSEC_SECOND (R471, R482): a second with VA in its window has passed. -/
def execOpsecSecond (s : State) : Answered :=
  let n := s.recorder.opsec + 1
  let lost := s.recorder.intakeLostSecond
  let s := (s.modRecorder (fun x => { x with opsec := n, intakeLostSecond := 0 })).setReg .evOpsec 0 0 (n.setWidth 64)
  .next (if lost = 0 then s else s.logLoss 0 lost 0)

/-! Freezes (R484) -/

/-- A freeze begins: a flush in progress is put off to the thaw. -/
def State.freeze (s : State) (by_ : CmdPath) : State :=
  let s := s.modRecorder (fun x => { x with
    frozenBy := some by_, flushDue := x.flushDue || x.flushing, flushing := false, flushRetry := false, flushSeqs := [] })
  (s.setFlag .evStatus 0 0 1 true).setFlag .evStatus 0 0 3 false

/-- A freeze ends: the side buffer enters the ring in order of SEQ, and a flush that is due begins. -/
def State.thaw (s : State) : State :=
  if !s.flag .evStatus 0 0 1 then s
  else
    let side := s.recorder.side
    let s := (s.modRecorder (fun x => { x with side := [], frozenBy := none })).setFlag .evStatus 0 0 1 false
    let s := side.foldl (fun s r => s.enterRing r) s
    if s.recorder.flushDue ∧ !s.recorder.flushing then s.beginFlush else s

/-- FREEZE_TIMEOUT (R484): 100 ms after a freeze began. -/
def execFreezeTimeout (s : State) : Answered := .next s.thaw

/-! log.* (R479, R481, R484, R485) -/

def logRow (opcode : BitVec 16) (level : Level) : MailRow := { opcode := opcode, level := level, bmc := true, fencedToo := true }

/-- log.freeze. -/
def State.logFreeze (s : State) (c : Cmd) : State :=
  s.take c (logRow 0x0700 .kernel) false (fun _ s =>
    if s.flag .evStatus 0 0 1 then s.complete c 0x0700 .busy else (s.freeze c.path).complete c 0x0700 .ok)

/-- log.thaw: from the freezing path, or from a path of level FLEET. -/
def State.logThaw (s : State) (c : Cmd) : State :=
  s.take c (logRow 0x0701 .kernel) false (fun _ s =>
    if s.flag .evStatus 0 0 1 ∧ s.recorder.frozenBy ≠ some c.path ∧ s.pathLevel c ≠ .fleet then s.complete c 0x0701 .notPermitted
    else s.thaw.complete c 0x0701 .ok)

/-- How far a sequence number lies behind the newest one. -/
def State.seqAge (s : State) (n : BitVec 32) : Nat := (s.recorder.nextSeq - 1 - n).toNat

/-- Put a record into a list that rises in SEQ, oldest first; one already there by its SEQ is not put twice. -/
def State.insertBySeq (s : State) (r : Record) : List Record → List Record
  | [] => [r]
  | x :: l => if x.seq = r.seq then x :: l else if s.seqAge x.seq < s.seqAge r.seq then r :: x :: l else x :: s.insertBySeq r l

/-- Whole records, in order, that together do not exceed a size. -/
def takeBytes : Nat → List Record → List Record
  | _, [] => []
  | n, r :: l => if r.size ≤ n then r :: takeBytes (n - r.size) l else []

/-- The records that log.read copies (R485): those of the ring and the log area not older than a first sequence, or with a first sequence of 0
the must-keep area, that the path may read. -/
def State.readable (s : State) (c : Cmd) (first : BitVec 32) : List Record :=
  let sees (r : Record) : Bool :=
    decide (s.pathLevel c = .fleet) || decide (r.report.part = 0xF) || decide (cmdPart c = some r.report.part.toNat)
  let held := if first = 0 then s.recorder.keep
    else ((s.recorder.log.flatten ++ s.recorder.ring).foldl (fun l r => s.insertBySeq r l) []).filter (fun r =>
      decide (s.seqAge first < 2 ^ 31 ∧ s.seqAge r.seq ≤ s.seqAge first))
  held.filter sees

/-- log.read: the SEQ after the last record copied is a free value where none is. -/
def State.logRead (s : State) (c : Cmd) (dest : Word) (first max : BitVec 32) : State :=
  s.take c (logRow 0x0702 .kernel) (decide (max.toNat < 256) || !s.inPartDram c.target.toNat dest.toNat max.toNat) (fun _ s =>
    let l := takeBytes max.toNat (s.readable c first)
    let bytes := l.flatMap Record.bytes
    let s := s.hostWrite dest.toNat bytes
    let (next, s) := match l.getLast? with
      | some r => ((nextSeqAfter r.seq).setWidth 64, s)
      | none => s.draw
    s.complete c 0x0702 .ok none (resultOf [(16, leBytes 4 bytes.length), (20, leBytes 4 (next.toNat % 2 ^ 32))]))

/-- log.clear_keep (R479). -/
def State.logClearKeep (s : State) (c : Cmd) : State :=
  s.take c (logRow 0x0703 .fleet) false (fun _ s =>
    let s := s.modRecorder (fun x => { x with keep := [], keepFullReported := false, unnumbered := 0 })
    ((s.setField .evKeep 0 0 0 7 0).setFlag .evStatus 0 0 4 false).complete c 0x0703 .ok)

/-- The codes that Table 18.2 gives the severity SAFETY. -/
def safetyCodes : List (BitVec 16) := [0x1080, 0x1081, 0x1580]

/-- log.rate (R481): at most 256 codes hold a limit other than the default of 16. -/
def State.logRate (s : State) (c : Cmd) (code rate : BitVec 16) : State :=
  s.take c (logRow 0x0704 .fleet) (decide (code ∈ safetyCodes)) (fun _ s =>
    let n := if rate = 16 then 0 else rate.toNat
    let held := Sparse.nget 0 s.recorder.limits code.toNat
    if n ≠ 0 ∧ held = 0 ∧ 256 ≤ s.recorder.limits.length then s.complete c 0x0704 .busy
    else
      (s.modRecorder (fun x => { x with limits := Sparse.nset 0 x.limits code.toNat n })).complete c 0x0704 .ok)

end Sys2Proof.Machine
end

