-- ==== Sys2Proof/Machine/DeviceMail.lean ====
section
/-! DEFINITION. The mailbox operations device.fw_stage, link.*, debug.* and power.* (R349, R374, R379, R434, R461 to R463, R488 to R498). -/

namespace Sys2Proof.Machine

/-! device.fw_stage (R433, R434) -/

/-- The fused SVN count: REF_FW_SVN. -/
def State.svnCount (s : State) : BitVec 8 := s.flash.svn

/-- The boot ROM's checks on an image (R433). -/
def State.imageAccepted (s : State) (i : ImageInfo) : Bool :=
  i.keyGood && i.signatureGood && i.digestGood && decide (s.svnCount.toNat ≤ i.svn.toNat)

def State.slot (s : State) (b : Bool) : ImageSlot := if b then s.flash.slotB else s.flash.slotA

def State.setSlot (s : State) (b : Bool) (v : ImageSlot) : State :=
  { s with flash := if b then { s.flash with slotB := v } else { s.flash with slotA := v } }

/-- The address range of an image lies in the DRAM of the ring's partition, or for a path that no partition owns, of a formed one. -/
def State.inOwnDram (s : State) (c : Cmd) (a n : Nat) : Bool :=
  match cmdPart c with
  | some p => s.inPartDram p a n
  | none => s.formedParts.any (fun p => s.inPartDram p a n)

def rowFwStage : MailRow := { opcode := 0x0103, level := .fleet, device := true, bmc := true, reached := true }

/-- device.fw_stage (R434): the slot that is not running receives the image; one that fails R433 leaves the slot invalid. -/
def State.fwStage (s : State) (c : Cmd) (addr : Word) (len : BitVec 32) : State :=
  s.take c rowFwStage (decide (0x1000000 < len.toNat) || !s.inOwnDram c addr.toNat len.toNat) (fun _ s =>
    let b := !s.referee.runningB
    match s.hostRead addr.toNat len.toNat 0 with
    | (s, .error e) => (s.setSlot b {}).complete c 0x0103 e
    | (s, .ok d) => match Config.image d with
      | some i =>
        if s.imageAccepted i then
          let s := s.setSlot b { image := some i }
          ({ s with flash := { s.flash with preferB := b } }).complete c 0x0103 .ok none (resultOf [(16, leBytes 4 i.version.toNat)])
        else (s.setSlot b {}).complete c 0x0103 .notPermitted
      | none => (s.setSlot b {}).complete c 0x0103 .notPermitted)

/-! link.* (R349, R374, R379) -/

/-- link.status. -/
def State.linkStatus (s : State) (c : Cmd) (quad : BitVec 8) : State :=
  s.take c { opcode := 0x0600, level := .kernel } (decide (223 < quad.toNat)) (fun _ s =>
    let n := quad.toNat
    s.complete c 0x0600 .ok none (resultOf
      [(16, [BitVec.ofNat 8 (s.quadRole n)]), (17, [BitVec.ofNat 8 (s.quadState n)]), (18, leBytes 2 (s.partnerOf n).toNat),
       (20, leBytes 4 (s.reg .olRetrains n).toNat)]))

/-- link.retrain (R374): it completes once the quad is UP or VACANT. A DARK quad has nothing to train. A retrain that waits for a maintenance
turn has not reached the hardware (R246). -/
def State.linkRetrain (s : State) (c : Cmd) (quad : BitVec 8) : State :=
  s.take c { opcode := 0x0601, level := .fleet, reached := !(s.quadIsUp quad.toNat && s.bookUses quad.toNat) } (decide (223 < quad.toNat)) (fun _ s =>
    let n := quad.toNat
    if s.quadRole n = roleDark ∨ s.quadState n = quadDark then s.complete c 0x0601 .notPermitted
    else if s.quadState n = quadVacant then s.complete c 0x0601 .linkVacant
    else
      let s := s.modQuad n (fun v => { v with retrainCmds := v.retrainCmds ++ [c] })
      if s.quadIsUp n then s.retrainQuad n else s)

/-- link.role_set naming a quad (R349): the link record, for the next start-up. The module argument is zero then (Table 9.11). -/
def State.roleSet (s : State) (c : Cmd) (quad role : BitVec 8) (module : BitVec 16) : State :=
  s.take c { opcode := 0x0602, level := .fleet } (decide (223 < quad.toNat ∨ 3 < role.toNat ∨ module ≠ 0)) (fun _ s =>
    ({ s with flash := { s.flash with roles := Sparse.nset 3 s.flash.roles quad.toNat (role.setWidth 2) } }).complete c 0x0602 .ok)

/-- link.role_set with 0xFF in byte 16 (R349, R350): the module ID, 0 to 8,190. The role argument is zero then. -/
def State.moduleSet (s : State) (c : Cmd) (role : BitVec 8) (module : BitVec 16) : State :=
  s.take c { opcode := 0x0602, level := .fleet } (decide (role ≠ 0 ∨ 8190 < module.toNat)) (fun _ s =>
    ({ s with flash := { s.flash with moduleId := module.setWidth 13 } }).complete c 0x0602 .ok)

/-! debug.* (R488 to R498) -/

def debugRow (opcode : BitVec 16) : MailRow := { opcode := opcode, level := .kernel }

/-- The partition that debug.challenge and debug.respond concern: the challenging ring's (R488). -/
def challengePart (c : Cmd) (target : Nat) : Nat := (cmdPart c).getD target

def ringOf (c : Cmd) : Nat :=
  match c.path with
  | .ring _ n => n
  | _ => 0

/-- The 32 bytes of a challenge (R488). -/
def State.challengeBytes (s : State) (p : Nat) : List Byte :=
  padTo 24 (Config.challenge s.fresh) ++ leBytes 2 p ++ leBytes 2 s.moduleId.toNat ++ leBytes 4 (s.reg .refFwVersion).toNat

/-- debug.challenge (R488, R489). -/
def State.debugChallenge (s : State) (c : Cmd) : State :=
  s.take c (debugRow 0x0800) false (fun t s =>
    let p := challengePart c t
    if (s.part p).lockout then s.complete c 0x0800 .busy
    else
      let b := s.challengeBytes p
      let s := { s with fresh := s.fresh + 1 }.modPart p (fun v => { v with challenge := some { bytes := b, ring := ringOf c, tick := s.now } })
      s.complete c 0x0800 .ok none b)

/-- A challenge is answered in time and rightly (R488). -/
def State.responseRight (s : State) (p : Nat) (response : BitVec 384) : Bool :=
  match (s.part p).challenge with
  | some h => decide ((s.now - h.tick).toNat ≤ 6000000000) && Config.responseGood h.bytes response
  | none => false

/-- debug.respond (R488, R489): a challenge is consumed by its first response. -/
def State.debugRespond (s : State) (c : Cmd) (response : BitVec 384) : State :=
  s.take c (debugRow 0x0801) false (fun t s =>
    let p := challengePart c t
    let right := s.responseRight p response
    let ring := ((s.part p).challenge.map (fun h => h.ring)).getD (ringOf c)
    let s := s.modPart p (fun v => { v with challenge := none })
    if right then
      let s := s.setReg .dbSession p 0 (BitVec.ofNat 64 (2 ^ 63 + ring * 2 ^ 48 + 3600))
      (s.modPart p (fun v => { v with wrongResponses := 0, sessionOpened := some (ring, s.now) })).complete c 0x0801 .ok
    else
      let n := (s.part p).wrongResponses + 1
      let s := s.modPart p (fun v => { v with wrongResponses := if n < 3 then n else 0, lockout := v.lockout || decide (3 ≤ n) })
      (s.eventStatus 0x16 .notPermitted .warning (some p) 0).complete c 0x0801 .notPermitted)

/-- A rook is asked to halt (R491, R492): from its ready report until the next play the request waits, or for a trigger or ebreak, has no
effect. -/
def State.askHalt (s : State) (i : Nat) (waits : Bool) : State :=
  let d := s.die i
  if d.halted ∨ d.inReset then s
  else if d.rookReady then (if waits then s.modDie i (fun d => { d with haltPending := true }) else s)
  else s.haltRook i

/-- GRACE of the CHECKs of a partition runs again (R493, R495): a CHECK gains the die cycles of the halt that lie after its START. -/
def State.resumeGrace (s : State) (p : Nat) : State :=
  match (s.part p).haltSince with
  | none => s
  | some t =>
    let rate := cyclesPerTick (s.stepNow p)
    let start := s.reg .tnStart p
    let halted := (t - start).toNat * rate
    let now := (s.now - start).toNat * rate
    let s := s.modPart p (fun v => { v with haltSince := none })
    (s.partSites p).foldl (fun s i => s.modDie i (fun d => { d with check := d.check.map (fun k =>
      { k with deadline := k.deadline + BitVec.ofNat 64 (now - max halted k.start.toNat) }) })) s

/-- A partition leaves debug pause (R495): its changeover begins 8 ticks later and its turn ends aborted with cause DEBUG. A turn that had
aborted for another cause has drained already. The boundary is taken as the pause ends (R13). -/
def State.leavePause (s : State) (p : Nat) : State :=
  if s.phase p ≠ 5 then s
  else
    let start := s.now + 8
    if (s.part p).stage = .play then
      let s := ((s.markAborted p abortDebug).runWheels p false).setPhase p 2
      (s.modPart p (fun v => { v with stage := .draining, chgStart := start, chgBase := start + 500, chgNow := s.chgLen p })).openChangeover p
    else
      let s := (s.setPhase p 2).modPart p (fun v => { v with stage := .begun, chgStart := start, chgBase := start })
      if (s.part p).opened then s.takeBoundary p else s.openChangeover p

/-- A rook resumes (R495). -/
def State.resumeRook (s : State) (i : Nat) : State :=
  let d := s.die i
  let s := s.modDie i (fun d => { d with halted := false, haltPending := false })
  match s.siteOwner i with
  | none => s
  | some p =>
    let s := if i < 64 then s.setFlag .dbHaltedLo p 0 i false else s.setFlag .dbHaltedHi p 0 (i - 64) false
    if !d.halted ∨ s.anyHalted p then s
    else
      let s := s.resumeGrace p
      let s := if s.phase p = 5 then s.reportDone p true s.now else s
      s.leavePause p

/-- debug.halt (R489, R492). -/
def State.debugHalt (s : State) (c : Cmd) (site : BitVec 8) : State :=
  let i := site.toNat
  s.take c (debugRow 0x0802) (decide (103 < i) || decide (s.siteOwner i ≠ some c.target.toNat)) (fun p s =>
    if !s.sessionOpen p then s.complete c 0x0802 .notPermitted
    else if s.siteState i ≠ .enabled ∨ s.siteOut i then s.complete c 0x0802 .busy
    else (s.askHalt i true).complete c 0x0802 .ok)

/-- debug.resume (R489, R495). -/
def State.debugResume (s : State) (c : Cmd) (site : BitVec 8) : State :=
  let i := site.toNat
  s.take c (debugRow 0x0803) (decide (103 < i) || decide (s.siteOwner i ≠ some c.target.toNat)) (fun p s =>
    if !s.sessionOpen p then s.complete c 0x0803 .notPermitted else (s.resumeRook i).complete c 0x0803 .ok)

/-- debug.trace (R489, R498): DB_TRACE_CTL changes at the next changeover. -/
def State.debugTrace (s : State) (c : Cmd) (enable : BitVec 8) : State :=
  s.take c (debugRow 0x0804) (decide (3 < enable.toNat)) (fun p s =>
    if !s.sessionOpen p then s.complete c 0x0804 .notPermitted
    else (s.modPart p (fun v => { v with traceNext := some (enable.setWidth 2) })).enqueue p c (.debugTrace enable))

/-! power.* (R461 to R463) -/

/-- IDs of the cooling descriptor (Table 17.3). -/
def isCooling (id : Nat) : Bool := decide (0x0110 ≤ id ∧ id ≤ 0x0116)

/-- Defaults of Table 17.3. -/
def State.powerDefault (s : State) (p id : Nat) : Option Word :=
  match id with
  | 0x0100 => some (s.reg .pwPartBudget p)
  | 0x0101 => some 0 | 0x0102 => some 0 | 0x0103 => some 34 | 0x0104 => some 88
  | 0x0110 => some 300 | 0x0111 => some 150 | 0x0112 => some 450 | 0x0113 => some 80 | 0x0114 => some 0 | 0x0115 => some 15
  | 0x0116 => some 0
  | _ => none

/-- A parameter of the cooling descriptor in flash. -/
def State.cooling (s : State) (id : Nat) : Nat := ((Sparse.nfind s.flash.cooling id).getD ((s.powerDefault 0 id).getD 0)).toNat

/-- Ranges of Table 17.3. -/
def State.powerGood (s : State) (id v : Nat) : Bool :=
  match id with
  | 0x0100 => decide (500 ≤ v ∧ v ≤ s.field .pwLimit 0 0 0 16)
  | 0x0101 => decide (v ≤ 7)
  | 0x0102 => decide (v ≤ 1)
  | 0x0103 => decide (8 ≤ v ∧ v ≤ 34)
  | 0x0104 => decide (70 ≤ v ∧ v ≤ 92)
  | 0x0110 => decide (50 ≤ v ∧ v ≤ 600)
  | 0x0111 => decide (50 ≤ v ∧ v ≤ 600 ∧ v ≤ s.cooling 0x0112)
  | 0x0112 => decide (50 ≤ v ∧ v ≤ 600 ∧ s.cooling 0x0111 ≤ v)
  | 0x0113 => decide (1 ≤ v ∧ v ≤ 2000)
  | 0x0114 => decide (v ≤ 100000)
  | 0x0115 => decide (5 ≤ v ∧ v ≤ 50)
  | 0x0116 => decide (v ≤ 0xFFFF)
  | _ => false

/-- The budgets would fit PW_LIMIT with a new one for a partition (R3, R461). A budget of another partition that waits for its changeover counts
where it is the larger, since either may stand when this one takes effect. -/
def State.budgetFits (s : State) (p v : Nat) : Bool :=
  let of (x : Nat) : Nat := if x = p then v else s.budgetClaim x
  let idle := 160 * ((List.range 16).filter (fun r => (s.regionOwner r).isNone)).length
  decide (s.formedParts.foldl (fun t x => t + of x) 0 + idle ≤ s.field .pwLimit 0 0 0 16)

/-- Write a parameter of the cooling descriptor to flash; learning of the baseline begins again, and RTH_BASE is the baseline where it is not
0 (R467). -/
def State.writeCooling (s : State) (id : Nat) (v : Word) : State :=
  let s := { s with
    flash := { s.flash with cooling := Sparse.nput s.flash.cooling id v, learnt := 0 }
    power := { s.power with coolSamples := 0, coolSum := 0 } }
  if id = 0x0114 ∧ v ≠ 0 then s.setField .thRth 0 0 32 32 v.toNat
  else if s.cooling 0x0114 = 0 then s.setField .thRth 0 0 32 32 0
  else s

def powerRow (opcode : BitVec 16) (level : Level) (id : Nat) : MailRow :=
  if isCooling id then { opcode := opcode, level := .fleet, device := true, bmc := true, fencedToo := true }
  else { opcode := opcode, level := level, bmc := true, fencedToo := decide (opcode = 0x0901) }

/-- power.policy_set: partition parameters take effect under R249, those of the cooling descriptor at completion. -/
def State.powerSet (s : State) (c : Cmd) (id : BitVec 16) (v : Word) : State :=
  let n := id.toNat
  s.take c (powerRow 0x0900 .kernel n) (!s.powerGood n v.toNat) (fun p s =>
    if isCooling n then (s.writeCooling n v).complete c 0x0900 .ok
    else if n = 0x0100 ∧ !s.budgetFits p v.toNat then s.complete c 0x0900 .notPermitted
    else s.queuePolicy p c id v)

/-- power.policy_get. -/
def State.powerGet (s : State) (c : Cmd) (id : BitVec 16) : State :=
  let n := id.toNat
  s.take c (powerRow 0x0901 .tenant n) (s.powerDefault c.target.toNat n).isNone (fun p s =>
    if isCooling n then
      let v := leBytes 8 (s.cooling n)
      s.complete c 0x0901 .ok none (resultOf [(16, v), (24, v)])
    else s.complete c 0x0901 .ok none (s.policyResult p id ((s.powerDefault p n).getD 0)))

/-- power.status (R463, Table 17.4). -/
def State.powerStatus (s : State) (c : Cmd) : State :=
  s.take c { opcode := 0x0902, level := .tenant, bmc := true, fencedToo := true } false (fun p s =>
    let hot := s.reg .thHot
    s.complete c 0x0902 .ok none (resultOf
      [(16, leBytes 4 (s.field .pwModule 0 0 0 32)), (20, leBytes 4 (s.field .pwPartPower p 0 32 32)),
       (24, leBytes 2 (s.field .pwPartBudget p 0 0 16)), (26, leBytes 2 (bitsAt hot 0 16)), (28, leBytes 1 (bitsAt hot 16 8)),
       (29, leBytes 1 (s.stepNow p)), (30, leBytes 1 (s.field .pwStatus 0 0 1 7 * 2)), (32, leBytes 2 (s.field .thCoolant 0 0 0 16)),
       (34, leBytes 2 (s.field .thCoolant 0 0 16 16)), (36, leBytes 4 (s.field .thRth 0 0 0 32)), (40, leBytes 4 (s.field .thRth 0 0 32 32))]))

end Sys2Proof.Machine
end

