-- ==== Sys2Proof/Machine/DebugCommands.lean ====
section
/-! DEFINITION. Debug outside the mailbox (chapter 19): Debug Module registers, halts and resumes of rooks, the end of sessions and lockouts,
boundary scan (R488 to R502); and the staging of the next batch by Tolerabor (R275). -/

namespace Sys2Proof.Machine

/-! Debug Modules and rooks -/

/-- The address of register a of the Debug Module of a site (R490). -/
def dmAddr (site a : Nat) : Nat := refereeWindow + 0xC00000 + site * 0x400 + 4 * a

/-- DM_REGISTER_ACCESS: a 32-bit access in the Referee window. -/
def execDmRegisterAccess (r : Requester) (site reg : Nat) (a : DmAccess) (s : State) : Answered :=
  let data := match a with
    | .read => none
    | .write v => some (leBytes 4 v.toNat)
  .next (if 104 ≤ site ∨ 256 ≤ reg then s
    else match s.access r false (dmAddr site reg) 4 data with
      | (s, x) => s.answered x)

/-- ROOK_HALT (R491, R492): haltreq comes through the rook's Debug Module, which answers only in a session. -/
def execRookHalt (site : Nat) (cause : HaltCause) (s : State) : Answered :=
  .next (if 104 ≤ site then s
    else match cause with
      | .haltreq => if s.dmOpen site then s.askHalt site true else s
      | .trigger | .ebreak => s.askHalt site false)

/-- ROOK_RESUME (R495): resumereq, likewise. -/
def execRookResume (site : Nat) (s : State) : Answered := .next (if s.dmOpen site then s.resumeRook site else s)

/-- SESSION_EXPIRY (R489). -/
def execSessionExpiry (part : Nat) (s : State) : Answered := .next (if s.sessionOpen part then s.endSession part else s)

/-- CHALLENGE_LOCKOUT_END (R489). -/
def execChallengeLockoutEnd (part : Nat) (s : State) : Answered := .next (s.modPart part (fun v => { v with lockout := false }))

/-! The TAP (R501, R502) -/

def State.setJtag (s : State) (j : Jtag) : State := { s with jtag := j }

/-- The TAP is unlocked (DB_JTAG_STATUS). -/
def State.tapUnlocked (s : State) : Bool := s.flag .dbJtagStatus 0 0 0

/-- DB_UNLOCK: the debugger reads a challenge of 32 bytes, of which R488 gives the module ID and the firmware version. -/
def State.tapChallenge (s : State) : State :=
  let b := padTo 26 (Config.challenge s.fresh) ++ leBytes 2 s.moduleId.toNat ++ leBytes 4 (s.reg .refFwVersion).toNat
  ({ s with fresh := s.fresh + 1 } : State).setJtag { s.jtag with instr := .dbUnlock, heldInstr := none, challenge := b, tick := s.now }

/-- An instruction that drives pins (R502): held in BYPASS until every partition has stopped and the pins are free. -/
def State.holdInstr (s : State) (t : TapInstr) : State :=
  if s.flag .dbJtagStatus 0 0 1 then s.setJtag { s.jtag with instr := t, heldInstr := none }
  else
    let s := s.setJtag { s.jtag with instr := .bypass, heldInstr := some t }
    let s := s.formedParts.foldl (fun s p => s.modPart p (fun v => { v with stopNext := true })) s
    s.freePins

/-- JTAG_INSTRUCTION: locked, the TAP knows BYPASS, IDCODE and DB_UNLOCK, and any other instruction selects BYPASS. -/
def execJtagInstruction (t : TapInstr) (s : State) : Answered :=
  .next (match t with
    | .bypass => s.setJtag { s.jtag with instr := .bypass, heldInstr := none }
    | .idcode => s.setJtag { s.jtag with instr := .idcode, heldInstr := none }
    | .dbUnlock => s.tapChallenge
    | .extest | .extestPulse | .extestTrain =>
      if s.tapUnlocked then s.holdInstr t else s.setJtag { s.jtag with instr := .bypass, heldInstr := none })

/-- JTAG_UNLOCK (R488, R501): a challenge is consumed by its first response, which must come within 60 s. -/
def execJtagUnlock (response : BitVec 384) (s : State) : Answered :=
  let j := s.jtag
  .next (if j.instr ≠ .dbUnlock ∨ j.challenge = [] then s
    else
      let right := decide ((s.now - j.tick).toNat ≤ 6000000000) && Config.responseGood j.challenge response
      let s := s.setJtag { j with challenge := [] }
      if right then s.setFlag .dbJtagStatus 0 0 0 true else s.eventStatus 0x16 .notPermitted .warning none 0)

/-! Batch staging -/

/-- BATCH_STAGING (R197, R275): during play Tolerabor composes the batch of the next turn from the streams it has chosen for each site. -/
def execBatchStaging (part : Nat) (slices : List (Nat × List Handle)) (s : State) : Answered :=
  .next (if s.up ∧ s.formed part ∧ s.inPlay part ∧ s.bookLoaded part then s.stageBatch part slices else s)

end Sys2Proof.Machine
end

