-- ==== Sys2Proof/Machine/HostCommands.lean ====
section
/-! DEFINITION. Host dies (chapter 12): the accesses of harts under Table 12.3, their custom CSRs, the host system cache, MSIs, timers, the root
ports, and the Referee's probe (R329 to R342, R420, R509). -/

namespace Sys2Proof

/-! Harts -/

/-- What an access of a hart is, beside its address. -/
def HartOp.bytes : HartOp → Nat
  | .load n | .fetch n | .loadReserved n | .storeConditional n _ => n
  | .store d => d.length
  | .amo _ n _ => n
  | .csrRead _ | .csrWrite _ _ => 8

/-- AMOs, LR and SC. -/
def HartOp.isAtomic : HartOp → Bool
  | .amo _ _ _ | .loadReserved _ | .storeConditional _ _ => true
  | _ => false

def HartOp.isFetch : HartOp → Bool
  | .fetch _ => true
  | _ => false

/-- The bytes that a plain store writes. -/
def HartOp.stored : HartOp → Option (List Byte)
  | .store d => some d
  | _ => none

end Sys2Proof

namespace Sys2Proof.Machine

/-- An access of n bytes at a is naturally aligned. -/
def aligned (a n : Nat) : Bool := decide (n ≠ 0 ∧ a % n = 0)

/-- The attributes of Table 12.3 outside the partition's DRAM, for the windows that a hart reaches: whether it may make such an access
there. -/
def hartAllowed (a : Nat) (op : HartOp) : Bool :=
  let n := op.bytes
  let plain := !op.isAtomic && !op.isFetch
  let word := decide (n = 1 ∨ n = 2 ∨ n = 4 ∨ n = 8)
  if panelMemory a then plain && aligned a n && decide (n ≤ 64 ∧ a / 64 = (a + n - 1) / 64)
  else plain && aligned a n && word

/-- What an AMO leaves in memory (RVA23, R330): the operation on the old value and the operand, at the width of the access. -/
def amoResult (op : AmoOp) (n : Nat) (old x : Nat) : Nat :=
  let m := 2 ^ (8 * n)
  let a := old % m
  let b := x % m
  let signed (v : Nat) : Int := if 2 * v < m then v else (v : Int) - m
  match op with
  | .swap => b
  | .add => (a + b) % m
  | .xor => Nat.xor a b
  | .and => Nat.land a b
  | .or => Nat.lor a b
  | .min => if signed a ≤ signed b then a else b
  | .max => if signed a ≤ signed b then b else a
  | .minu => if a ≤ b then a else b
  | .maxu => if a ≤ b then b else a

/-- The hart's own read of DRAM: through its caches, or without allocation where the page is NC or IO (R330). -/
def State.hartLoad (s : State) (h a n : Nat) (cached : Bool) (r : Requester) : State × Except Status (List Byte) :=
  if cached then s.hartRead h a n r.square else s.hostRead a n r.square

def State.hartStore (s : State) (h a : Nat) (d : List Byte) (cached : Bool) (r : Requester) : State × Except Status (List Byte) :=
  if cached then
    match s.hartWrite h a d r.square with
    | (s, .ok _) => (s, .ok [])
    | (s, .error e) => (s, .error e)
  else (s.hostWrite a d, .ok [])

/-- A core's reservation: LR replaces it, SC ends it. -/
def State.reserve (s : State) (h c : Nat) (b : Option Nat) : State :=
  s.modHost h (fun v => { v with
    reservations := v.reservations.filter (fun x => decide (x.1 ≠ c)) ++ (b.map (fun x => (c, x))).toList })

/-- An access of a hart to DRAM of its partition. SC answers 0 where it has stored and 1 where it has not. -/
def State.hartDram (s : State) (h c a : Nat) (op : HartOp) (cached : Bool) (r : Requester) : State × Except Status (List Byte) :=
  match op with
  | .load n | .fetch n => s.hartLoad h a n cached r
  | .store d => s.hartStore h a d cached r
  | .amo f n x => match s.hartLoad h a n cached r with
    | (s, .error e) => (s, .error e)
    | (s, .ok d) => match s.hartStore h a (leBytes n (amoResult f n (leNat d) x.toNat)) cached r with
      | (s, .error e) => (s, .error e)
      | (s, .ok _) => (s, .ok d)
  | .loadReserved n => match s.hartLoad h a n cached r with
    | (s, .error e) => (s, .error e)
    | (s, .ok d) => (s.reserve h c (some (a / 64)), .ok d)
  | .storeConditional n x =>
    if (c, a / 64) ∈ (s.hostDie h).reservations then
      match (s.reserve h c none).hartStore h a (leBytes n x.toNat) cached r with
      | (s, .error e) => (s, .error e)
      | (s, .ok _) => (s, .ok [0])
    else (s.reserve h c none, .ok [1])
  | .csrRead _ | .csrWrite _ _ => (s, .ok [])

/-! Custom CSRs (R339, Table 12.5) -/

/-- The register of a CSR number, and the modes that may read and write it. -/
def customCsr (n : Nat) : Option (RegName × (HartMode → Bool) × Bool) :=
  let anyMode (_ : HartMode) : Bool := true
  let supervisor (m : HartMode) : Bool := decide (m ≠ .u ∧ m ≠ .vu)
  let machine (m : HartMode) : Bool := decide (m = .m)
  match n with
  | 0xCC0 => some (.hdTurn, anyMode, false)
  | 0xCC1 => some (.hdTurnStart, anyMode, false)
  | 0xDC0 => some (.hdWhere, supervisor, false)
  | 0x7C0 => some (.hdMpriv, machine, true)
  | 0x7C1 => some (.hdMtimecmp, machine, true)
  | _ => none

/-- MTIP of a hart stands while time is at or above HD_MTIMECMP (R327, R339). -/
def State.timer (s : State) (h c : Nat) : State :=
  let due := decide ((s.reg .hdMtimecmp (32 * h + c)).toNat ≤ (s.now (hostSquare h)).toNat)
  s.modHost h (fun v => { v with
    mtip := if due then Sparse.insertNat v.mtip c else v.mtip.filter (fun x => decide (x ≠ c)) })

/-- A CSR instruction: none is an exception of the hart, which changes nothing. -/
def State.csrAccess (s : State) (h c : Nat) (mode : HartMode) (n : Nat) (value : Option Word) : Option (State × List Byte) :=
  let i := 32 * h + c
  match customCsr n with
  | none => none
  | some (r, may, writable) =>
    if !may mode then none
    else match value with
      | none => some (s, leBytes 8 (s.readReg (rk r i)).toNat)
      | some v =>
        if !writable then none
        else some ((s.setReg r i 0 (v &&& r.info.defined)).timer h c, [])

/-- A hart can issue accesses: its die is out of reset, and its outbound traffic is not dropped (R421). -/
def State.hartRuns (s : State) (h c : Nat) : Bool := decide (h < 8 ∧ c < 32) && s.hostRunning h && !s.hostFenced h

/-- HART_ACCESS (R330, R331, R333, R339). An access that breaks its window's attributes is answered NOT_PERMITTED with a fault. -/
def execHartAccess (die core : Nat) (mode : HartMode) (addr : Addr) (op : HartOp) (pbmtNonCacheable : Bool) (s : State) : Answered :=
  let a := addr.toNat
  let r : Requester := .hart die core mode
  let refuse (s : State) : State := s.answered (.error .notPermitted) true
  let finish (x : State × Except Status (List Byte)) : State := x.1.answered x.2 true
  .next (if !s.hartRuns die core then s
    else match op with
      | .csrRead n => match s.csrAccess die core mode n.toNat none with
        | some (s, d) => s.answered (.ok d)
        | none => refuse s
      | .csrWrite n v => match s.csrAccess die core mode n.toNat (some v) with
        | some (s, d) => s.answered (.ok d)
        | none => refuse s
      | _ =>
        if op.bytes = 0 then s
        else if inDram a then
          if op.isAtomic ∧ ¬(aligned a op.bytes = true ∧ (op.bytes = 4 ∨ op.bytes = 8)) then refuse s
          else match s.memoryFence r a op.bytes with
            | some q => finish (s.bump .bnFenceDrop q, .error .partitionFenced)
            | none =>
              if s.memoryCut r a op.bytes then finish (s, .error .uncorrectable)
              else if !inDram (a + op.bytes - 1) then finish (s.unmapped r.square .badArgument a, .error .badArgument)
              else finish (s.hartDram die core a op (!pbmtNonCacheable) r)
        else if !hartReaches die a then
          let st : Status := if inWindow a then .notPermitted else .badArgument
          finish (s.unmapped r.square st a, .error st)
        else if !hartAllowed a op then refuse s
        else finish (s.access r false a op.bytes op.stored))

/-- CACHE_BLOCK_CLEAN (R335): a clean, or a flush, of the block in every hart's caches, into the host system cache. -/
def execCacheBlockClean (die core : Nat) (addr : Addr) (flush : Bool) (s : State) : Answered :=
  let a := addr.toNat / 64 * 64
  let r : Requester := .hart die core .m
  .next (if !s.hartRuns die core ∨ !inDram a then s
    else match s.memoryFence r a 64 with
      | some q => (s.bump .bnFenceDrop q).answered (.error .partitionFenced) true
      | none => (if flush then s.evictDirectory (a / 64) else s.gather (a / 64)).answered (.ok []))

/-- HSC_REQUEST (R63, R334 to R336): the directory entry and the line that make room are evicted first. A frozen Referee sends none (R242). -/
def execHscRequest (r : Requester) (addr : Addr) (op : HartOp) (evictBlock evictLine : Option Addr) (s : State) : Answered :=
  let a := addr.toNat
  let s := match evictBlock with
    | some b => if inDram b.toNat then s.evictDirectory (b.toNat / 64) else s
    | none => s
  let s := match evictLine with
    | some l => if inDram l.toNat then s.evictHostLine (l.toNat / 1024) else s
    | none => s
  .next (if r.computeSide ∨ r = .bmc ∨ !inDram a ∨ op.bytes = 0 ∨ s.blocked r then s
    else
      let finish (x : State × Except Status (List Byte)) : State := x.1.answered x.2
      match op with
      | .load n | .fetch n | .loadReserved n => finish (s.access r false a n none)
      | .store d => finish (s.access r false a d.length (some d))
      | .storeConditional n x => finish (s.access r false a n (some (leBytes n x.toNat)))
      | .amo f n x => match s.access r false a n none with
        | (s, .error e) => finish (s, .error e)
        | (s, .ok d) => match s.access r false a n (some (leBytes n (amoResult f n (leNat d) x.toNat))) with
          | (s, .error e) => finish (s, .error e)
          | (s, .ok _) => finish (s, .ok d)
      | .csrRead _ | .csrWrite _ _ => s)

/-! Interrupts, timers and clocks -/

/-- MSI_WRITE (R337, R338): a device interrupt from a square. -/
def execMsiWrite (source : Nat) (addr : Addr) (value : BitVec 32) (s : State) : Answered :=
  .next (s.sendMsi (s.owner source) 0x0F source addr.toNat value)

/-- HD_MTIMECMP (R339). -/
def execHdMtimecmp (die core : Nat) (s : State) : Answered := .next (if s.hostRunning die ∧ core < 32 then s.timer die core else s)

/-- The highest clock that Tolerabor may give a host die: that of the power policy, and what power or heat holds it down to (R329, R462,
R464). -/
def State.hostClockTop (s : State) (h : Nat) : Nat :=
  let policy := match s.hostOwner h with
    | some p => (s.policyValue p 0x0103 34).toNat
    | none => 34
  min policy ((Sparse.nget 34 s.power.hostClockCap h).toNat)

/-- HOST_CLOCK_CHANGE (R329): 0.8 GHz up to what the power policy allows. -/
def execHostClockChange (die : Nat) (value : BitVec 6) (s : State) : Answered :=
  .next (if s.up ∧ die < 8 ∧ 8 ≤ value.toNat ∧ value.toNat ≤ s.hostClockTop die then s.setReg .hdClk die 0 (value.setWidth 64) else s)

/-! Root ports -/

/-- Where an inbound request may go after translation (R341): DRAM, die memory, and the interrupt files of its own die. -/
def pcieReaches (h a : Nat) : Bool :=
  inDram a || decide (0x090000000000 ≤ a ∧ a < 0x090000000000 + 104 * 0x08000000) ||
  (match interruptFile a with
    | some (x, _, _) => decide (x = h)
    | none => false)

/-- INBOUND_PCIE_REQUEST (R341): a request that the IOMMU does not translate, or that goes elsewhere, gets a bus error. -/
def execInboundPcieRequest (die : Nat) (addr : Addr) (op : PcieOp) (s : State) : Answered :=
  let n := match op with
    | .read k => k
    | .write d => d.length
  let data := match op with
    | .read _ => none
    | .write d => some d
  .next (if (s.hostDie die).portInReset ∨ n = 0 then s
    else match Config.iommu die addr with
      | none => s.answered (.error .notPermitted)
      | some a =>
        if !pcieReaches die a.toNat then (s.unmapped (hostSquare die) .notPermitted a.toNat).answered (.error .notPermitted)
        else
          let (s, x) := s.access (.pcie die) false a.toNat n data
          s.answered x)

/-- INTX_MESSAGE (R340): dropped and counted. -/
def execIntxMessage (die : Nat) (s : State) : Answered :=
  .next (if (s.hostDie die).portInReset then s else s.bump .hdIntxDrop die)

/-- PCIE_WAKE (R509). -/
def execPcieWake (die : Nat) (s : State) : Answered := .next (s.modHost die (fun v => { v with wakes := v.wakes + 1 }))

/-- Sub-ports of a root port, and the width of each as log2 of its lanes (Table 12.6, HD_PCIE_CFG). -/
def subPorts : Nat → Nat × Nat
  | 0 => (1, 4)
  | 1 => (2, 3)
  | _ => (4, 2)

/-- PCIE_LINK_CHANGE (R342): byte k of HD_PCIE_STATUS. -/
def execPcieLinkChange (die sub : Nat) (up : Bool) (rate : BitVec 3) (width : BitVec 4) (s : State) : Answered :=
  let (count, top) := subPorts (s.field .hdPcieCfg die 0 0 2)
  .next (if (s.hostDie die).portInReset ∨ count ≤ sub ∨ top < width.toNat ∨ rate = 7 then s
    else s.setField .hdPcieStatus die 0 (8 * sub) 8 ((if up then 128 else 0) + 16 * rate.toNat + width.toNat))

/-! The Referee's probe (R420) -/

/-- HOST_PROBE: the read of HD_STATUS goes out over the C-net, while the Referee's cores run (R242). -/
def execHostProbe (die : Nat) (s : State) : Answered :=
  .next (if s.coresRun ∧ die < 8 ∧ s.hostRunning die ∧ !s.hostFenced die then (s.bump .cnTxPkts 0).modHost die (fun v => { v with probeOpen := true }) else s)

/-- HOST_PROBE_MISS: the third in a row fences the host die, with the SAFETY record of R412. -/
def execHostProbeMiss (die : Nat) (s : State) : Answered :=
  .next (if !(s.coresRun && (s.hostDie die).probeOpen) then s
    else
      let n := (s.hostDie die).probeMisses + 1
      let s := s.modHost die (fun v => { v with probeOpen := false, probeMisses := n })
      if n < 3 then s
      else (s.fenceHost die).safetyAt (s.hostOwner die) 0 .hdStatus die 0 die)

end Sys2Proof.Machine
end

