-- ==== Sys2Proof/Machine/MailboxCommands.lean ====
section
/-! DEFINITION. The mailbox commands as rows of the table, the bytes that spell them (Tables 9.8 and 9.11), and the paths they come by: a ring's
visits, the board controller, and the MGMT messages of a HEADLESS partition (R252 to R258, R266, R406). -/

namespace Sys2Proof.Machine

/-! partition.cache_layout (R60, R306) -/

def rowLayout : MailRow := { opcode := 0x0203, level := .kernel, reached := true }

/-- partition.cache_layout (R60). State pages leave the lent units that are no longer pinned before it (R306). -/
def State.cacheLayout (s : State) (c : Cmd) (pin tail hsc : BitVec 8) : State :=
  s.take c rowLayout false (fun p s =>
    let (a, b, d) := (pin.toNat, tail.toNat, hsc.toNat)
    match s.layoutRefused p a b d with
    | some st => s.complete c 0x0203 st
    | none =>
      let s := s.reclaimLent p a
      let squares := s.partSquares p
      let hscMoves := squares.any (fun q => decide (s.field .ccLayout q 0 16 8 ≠ d))
      let moved := squares.filter (fun q =>
        decide (¬(s.field .ccLayout q 0 0 8 = a ∧ s.field .ccLayout q 0 8 8 = b ∧ s.field .ccLayout q 0 16 8 = d)))
      let s := moved.foldl (fun s q => s.flushSlice q) s
      let s := if hscMoves then s.flushHsc p else s
      let s := moved.foldl (fun s q =>
          let v := s.reg .ccLayout q
          let s := (List.range 256).foldl (fun s u =>
            let old := unitRole (bitsAt v 0 8) (bitsAt v 8 8) (bitsAt v 16 8) u
            let s := if old = 2 ∧ unitRole a b d u ≠ 2 then s.clearTails q (128 * (u - 1 - bitsAt v 0 8)) 128 else s
            if old ≠ unitRole a b d u then s.zeroUnit q u else s) s
          s.setReg .ccLayout q 0 (BitVec.ofNat 64 (a + 256 * b + 65536 * d))) s
      (s.countTails p).complete c 0x0203 .ok)

/-! One row of Table 9.11 each: Tolerabor takes the command on its path -/

def execDeviceInfo (c : Cmd) (s : State) : Answered := .next (s.deviceInfo c)
def execDeviceSiteEnable (c : Cmd) (site : BitVec 8) (s : State) : Answered := .next (s.siteEnable c site)
def execDeviceSiteReserve (c : Cmd) (site : BitVec 8) (s : State) : Answered := .next (s.siteReserve c site)
def execDeviceFwStage (c : Cmd) (addr : Word) (len : BitVec 32) (s : State) : Answered := .next (s.fwStage c addr len)
def execDeviceGrantFleet (c : Cmd) (part ring : BitVec 8) (s : State) : Answered := .next (s.grantFleet c part ring)
def execPartitionForm (c : Cmd) (regions : BitVec 16) (number headless : BitVec 8) (found : TestFindings) (s : State) : Answered := .next (s.partitionForm c regions number headless found)
def execPartitionDissolve (c : Cmd) (s : State) : Answered := .next (s.partitionDissolve c)
def execPartitionComputeReset (c : Cmd) (found : TestFindings) (s : State) : Answered := .next (s.computeReset c found)
def execPartitionFullReset (c : Cmd) (found : TestFindings) (s : State) : Answered := .next (s.fullReset c found)
def execHostDieReset (c : Cmd) (die : HostDieTest) (s : State) : Answered := .next (s.hostReset c die.die die.found)
def execPartitionCacheLayout (c : Cmd) (pin tail hsc : BitVec 8) (s : State) : Answered := .next (s.cacheLayout c pin tail hsc)
def execPartitionPublish (c : Cmd) (base : Word) (lines : BitVec 32) (direction : BitVec 8) (s : State) : Answered := .next (s.publish c base lines direction)
def execPartitionPolicySet (c : Cmd) (id : BitVec 16) (value : Word) (s : State) : Answered := .next (s.policySet c id value)
def execPartitionPolicyGet (c : Cmd) (id : BitVec 16) (s : State) : Answered := .next (s.policyGet c id)
def execPartitionGrant (c : Cmd) (page grants : BitVec 8) (ringMask tenant : BitVec 16) (s : State) : Answered := .next (s.grantPage c page grants ringMask tenant)
def execBookLoad (c : Cmd) (addr len : Word) (s : State) : Answered := .next (s.bookLoad c addr len)
def execBookUnload (c : Cmd) (flags : BitVec 8) (s : State) : Answered := .next (s.bookUnload c flags)
def execBookMap (c : Cmd) (map : BitVec 8) (s : State) : Answered := .next (s.bookMap c map)
def execBookPreempt (c : Cmd) (s : State) : Answered := .next (s.bookPreempt c)
def execStreamOpen (c : Cmd) (tenant : BitVec 16) (prio : BitVec 8) (s : State) : Answered := .next (s.streamOpen c tenant prio)
def execStreamAppend (c : Cmd) (handle : Handle) (positions : BitVec 32) (prompt : Word) (s : State) : Answered := .next (s.streamAppend c handle positions prompt)
def execStreamAdvance (c : Cmd) (handle : Handle) (positions : BitVec 16) (s : State) : Answered := .next (s.streamAdvance c handle positions)
def execStreamClose (c : Cmd) (handle : Handle) (s : State) : Answered := .next (s.streamClose c handle)
def execStreamPark (c : Cmd) (handle : Handle) (s : State) : Answered := .next (s.streamPark c handle)
def execStreamUnpark (c : Cmd) (handle : Handle) (s : State) : Answered := .next (s.streamUnpark c handle)
def execStreamMigrate (c : Cmd) (handle : Handle) (module : BitVec 16) (part : BitVec 8) (s : State) : Answered := .next (s.streamMigrate c handle module part)
def execStreamFork (c : Cmd) (handle : Handle) (positions : BitVec 32) (s : State) : Answered := .next (s.streamFork c handle positions)
def execStateInvalidate (c : Cmd) (handle : Handle) (first pages : BitVec 32) (s : State) : Answered := .next (s.stateInvalidate c handle first pages)
def execStateTier (c : Cmd) (handle : Handle) (first pages : BitVec 32) (tier : BitVec 8) (s : State) : Answered := .next (s.stateTier c handle first pages tier)
def execStateQuery (c : Cmd) (handle : Handle) (page : BitVec 32) (s : State) : Answered := .next (s.stateQuery c handle page)
def execLinkStatus (c : Cmd) (quad : BitVec 8) (s : State) : Answered := .next (s.linkStatus c quad)
def execLinkRetrain (c : Cmd) (quad : BitVec 8) (s : State) : Answered := .next (s.linkRetrain c quad)
def execLinkRoleSetRole (c : Cmd) (quad role : BitVec 8) (module : BitVec 16) (s : State) : Answered := .next (s.roleSet c quad role module)
def execLinkRoleSetModuleId (c : Cmd) (role : BitVec 8) (module : BitVec 16) (s : State) : Answered := .next (s.moduleSet c role module)
def execLogFreeze (c : Cmd) (s : State) : Answered := .next (s.logFreeze c)
def execLogThaw (c : Cmd) (s : State) : Answered := .next (s.logThaw c)
def execLogRead (c : Cmd) (dest : Word) (first max : BitVec 32) (s : State) : Answered := .next (s.logRead c dest first max)
def execLogClearKeep (c : Cmd) (s : State) : Answered := .next (s.logClearKeep c)
def execLogRate (c : Cmd) (code rate : BitVec 16) (s : State) : Answered := .next (s.logRate c code rate)
def execDebugChallenge (c : Cmd) (s : State) : Answered := .next (s.debugChallenge c)
def execDebugRespond (c : Cmd) (response : BitVec 384) (s : State) : Answered := .next (s.debugRespond c response)
def execDebugHalt (c : Cmd) (site : BitVec 8) (s : State) : Answered := .next (s.debugHalt c site)
def execDebugResume (c : Cmd) (site : BitVec 8) (s : State) : Answered := .next (s.debugResume c site)
def execDebugTrace (c : Cmd) (enable : BitVec 8) (s : State) : Answered := .next (s.debugTrace c enable)
def execPowerPolicySet (c : Cmd) (id : BitVec 16) (value : Word) (s : State) : Answered := .next (s.powerSet c id value)
def execPowerPolicyGet (c : Cmd) (id : BitVec 16) (s : State) : Answered := .next (s.powerGet c id)
def execPowerStatus (c : Cmd) (s : State) : Answered := .next (s.powerStatus c)

/-! Commands as bytes (Tables 9.8 and 9.11) -/

/-- The common part of a command (Table 9.8). Only bytes and bits that the table calls reserved are. -/
def cmdOf (path : CmdPath) (b : List Byte) : Cmd :=
  let flags := bytesAt b 2 2
  { path := path, tag := BitVec.ofNat 32 (bytesAt b 4 4), notify := decide (flags % 2 = 1), fence := decide (flags / 2 % 2 = 1),
    target := BitVec.ofNat 8 (bytesAt b 8 1), reserved := decide (4 ≤ flags ∨ bytesAt b 9 7 ≠ 0) }

/-- A command that Table 9.11 does not list (R259): BAD_ARGUMENT, before any other check. -/
def State.unknownCommand (s : State) (c : Cmd) (opcode : BitVec 16) : State :=
  if !s.accepts c then s
  else (s.enterCommand c { opcode := opcode, level := .tenant }).complete c opcode .badArgument

/-- Perform the command that 64 bytes spell (Table 9.11). -/
def State.mailCommand (s : State) (path : CmdPath) (b : List Byte) (found : TestFindings) : State :=
  let c := cmdOf path b
  let u (i n : Nat) : Nat := bytesAt b i n
  let b8 (i : Nat) : BitVec 8 := BitVec.ofNat 8 (u i 1)
  let b16 (i : Nat) : BitVec 16 := BitVec.ofNat 16 (u i 2)
  let b32 (i : Nat) : BitVec 32 := BitVec.ofNat 32 (u i 4)
  let b64 (i : Nat) : Word := BitVec.ofNat 64 (u i 8)
  match u 0 2 with
  | 0x0100 => s.deviceInfo c
  | 0x0101 => s.siteEnable c (b8 16)
  | 0x0102 => s.siteReserve c (b8 16)
  | 0x0103 => s.fwStage c (b64 16) (b32 24)
  | 0x0104 => s.grantFleet c (b8 16) (b8 17)
  | 0x0200 => s.partitionForm c (b16 16) (b8 18) (b8 19) found
  | 0x0201 => s.partitionDissolve c
  | 0x0202 => match u 16 1 with
    | 0 => s.computeReset c found
    | 1 => s.fullReset c found
    | 2 => s.hostReset c (b8 17) found
    | _ => s.take c rowReset true (fun _ s => s)
  | 0x0203 => s.cacheLayout c (b8 16) (b8 17) (b8 18)
  | 0x0204 => s.publish c (b64 16) (b32 24) (b8 28)
  | 0x0205 => s.policySet c (b16 16) (b64 24)
  | 0x0206 => s.policyGet c (b16 16)
  | 0x0207 => s.grantPage c (b8 16) (b8 17) (b16 18) (b16 20)
  | 0x0300 => s.bookLoad c (b64 16) (b64 24)
  | 0x0301 => s.bookUnload c (b8 16)
  | 0x0302 => s.bookMap c (b8 16)
  | 0x0303 => s.bookPreempt c
  | 0x0400 => s.streamOpen c (b16 16) (b8 18)
  | 0x0401 => s.streamAppend c (BitVec.ofNat _ (u 16 4)) (b32 20) (b64 24)
  | 0x0402 => s.streamAdvance c (BitVec.ofNat _ (u 16 4)) (b16 20)
  | 0x0403 => s.streamClose c (BitVec.ofNat _ (u 16 4))
  | 0x0404 => s.streamPark c (BitVec.ofNat _ (u 16 4))
  | 0x0405 => s.streamUnpark c (BitVec.ofNat _ (u 16 4))
  | 0x0406 => s.streamMigrate c (BitVec.ofNat _ (u 16 4)) (b16 20) (b8 22)
  | 0x0407 => s.streamFork c (BitVec.ofNat _ (u 16 4)) (b32 20)
  | 0x0500 => s.stateInvalidate c (BitVec.ofNat _ (u 16 4)) (b32 20) (b32 24)
  | 0x0501 => s.stateTier c (BitVec.ofNat _ (u 16 4)) (b32 20) (b32 24) (b8 28)
  | 0x0502 => s.stateQuery c (BitVec.ofNat _ (u 16 4)) (b32 20)
  | 0x0600 => s.linkStatus c (b8 16)
  | 0x0601 => s.linkRetrain c (b8 16)
  | 0x0602 => if u 16 1 = 0xFF then s.moduleSet c (b8 17) (b16 18) else s.roleSet c (b8 16) (b8 17) (b16 18)
  | 0x0700 => s.logFreeze c
  | 0x0701 => s.logThaw c
  | 0x0702 => s.logRead c (b64 16) (b32 24) (b32 28)
  | 0x0703 => s.logClearKeep c
  | 0x0704 => s.logRate c (b16 16) (b16 18)
  | 0x0800 => s.debugChallenge c
  | 0x0801 => s.debugRespond c (BitVec.ofNat 384 (u 16 48))
  | 0x0802 => s.debugHalt c (b8 16)
  | 0x0803 => s.debugResume c (b8 16)
  | 0x0804 => s.debugTrace c (b8 16)
  | 0x0900 => s.powerSet c (b16 16) (b64 24)
  | 0x0901 => s.powerGet c (b16 16)
  | 0x0902 => s.powerStatus c
  | o => s.unknownCommand c (BitVec.ofNat 16 o)

/-! Rings (R252 to R257) -/

/-- A ring has commands that Tolerabor may look at: it is in service, not closing and not stopped, and PROD is ahead of CONS. -/
def State.ringWaits (s : State) (p n : Nat) : Bool :=
  s.flag .mbRingCtl p n 0 && !(s.ring p n).closing && !s.flag .mbRingStatus p n 2 &&
  decide (s.field .mbRingProd p n 0 32 ≠ s.field .mbRingCons p n 0 32)

/-- Accept the next command of a ring, at most n of them (R254, R255). An entry that reads as uncorrectable completes with the status of
that read; its opcode and tag, which reach nobody (R395), read as zero in the completion. -/
def State.visitRing (s : State) (p r : Nat) (found : TestFindings) : Nat → State
  | 0 => s
  | n + 1 =>
    if !s.ringWaits p r then s
    else if !s.ringRoom p r then s.setFlag .mbRingStatus p r 3 true
    else
      let sq := s.reg .mbRingSq p r
      let i := s.field .mbRingCons p r 0 32
      match s.hostRead (ringBase sq + i % ringEntries sq * 64) 64 0 with
      | (s, .error e) =>
        let c := cmdOf (.ring p r) []
        let s := s.setReg .mbRingCons p r (BitVec.ofNat 64 ((i + 1) % 2 ^ 32))
        ((s.enterCommand c { opcode := 0, level := .tenant }).complete c 0 e).visitRing p r found n
      | (s, .ok b) =>
        if (cmdOf (.ring p r) b).fence ∧ (s.ring p r).outstanding ≠ 0 then s
        else
          let s := s.setReg .mbRingCons p r (BitVec.ofNat 64 ((i + 1) % 2 ^ 32))
          (s.mailCommand (.ring p r) b found).visitRing p r found n

/-- RING_VISIT (R254): nothing while the Referee is down (R245). -/
def execRingVisit (part ring : Nat) (found : TestFindings) (s : State) : Answered :=
  .next (if s.up then s.visitRing part ring found 16 else s)

/-- RING_DRAINED (R257): the last accepted command of a ring that software disabled has completed. -/
def execRingDrained (part ring : Nat) (s : State) : Answered :=
  .next (if (s.ring part ring).closing ∧ (s.ring part ring).outstanding = 0 then s.closeRing part ring else s)

/-- MSI_HOLDOFF_EXPIRY (R256): one MSI for the completions of the holdoff. -/
def execMsiHoldoffExpiry (part ring : Nat) (s : State) : Answered :=
  .next (if (s.ring part ring).msiOwed then s.ringMsi part ring else s)

/-! The board controller (R266, R433) and HEADLESS partitions (R406) -/

/-- BMC_COMMAND (R266): the 64 bytes of one command. While the device is not Ready, what is answered on this path is REF_BOOT (R431). -/
def execBmcCommand (bytes : List Byte) (found : TestFindings) (s : State) : Answered :=
  .next (if s.flag .refBoot 0 0 18 then s.mailCommand .bmc (padTo 64 bytes) found
    else { s with referee := { s.referee with bmcOut := s.referee.bmcOut ++ [leBytes 8 (s.reg .refBoot).toNat] } })

end Sys2Proof.Machine
end

