-- ==== Sys2Proof/Machine/MemoryCommands.lean ====
section
/-! DEFINITION. Memory protection (chapter 14): the code of the DRAM, corrections and their buckets, uncorrectable data, evictions, and the fills
of released memory and of die-memory banks. -/

namespace Sys2Proof.Machine

/-! Buckets (R393) -/

/-- The bucket register of each class of Table 14.1, in the order of the *_BKT_CFG registers. -/
def bucketReg : Nat → RegName
  | 0 => .mcBktL
  | 1 => .ccBkt
  | 2 => .dmBkt
  | 3 => .rkBkt
  | 4 => .hdBkt
  | _ => .refBkt

/-- Tolerabor retires layer k of a stack (R385, R386): a stack with an erased layer has none erased again, and is DEGRADED. -/
def State.retireLayer (s : State) (stack k : Nat) : State :=
  let e := s.field .mcErase stack 0 0 5
  if !s.up ∨ e = k then s
  else if e = 0x1F then
    let s := s.writeErase stack k
    let s := { s with flash := { s.flash with erased := s.flash.erased ++ [(stack, k)] } }
    s.event7F .error (s.stackOwner stack) (stackSquare stack) .mcErase stack
  else s.degradeStack stack .critical

/-- A bucket overflows (R393): a WARNING that names the region and the address last corrected, and the MSI of the partition. A layer's second
overflow within 3,600 s retires it (R385, R394). -/
def State.overflow (s : State) (cls i j addr : Nat) : State :=
  let n := bucketReg cls
  let k := rk n i j
  let p := s.regOwner k
  let s := s.event7F .warning p k.square n i j (leBytes 8 addr)
  let s := match p with
    | some p => if s.reg .mcCeMsiAddr p = 0 then s
      else s.sendMsi (some p) 0x0C k.square (s.reg .mcCeMsiAddr p).toNat ((s.reg .mcCeMsiData p).setWidth 32)
    | none => s
  if cls ≠ 0 then s
  else
    let key := 18 * i + j
    let twice := match Sparse.nfind s.overflows key with
      | some t => decide ((s.now - t).toNat ≤ 360000000000)
      | none => false
    let s := { s with overflows := Sparse.nput s.overflows key s.now }
    if twice then s.retireLayer i j else s

/-- Count one correction in a bucket (R393). -/
def State.countCorrection (s : State) (cls i j addr : Nat) : State :=
  let n := bucketReg cls
  let fill := s.field n i j 0 16 + 1
  if fill < s.field .bktCfg 0 (min cls 5) 0 16 then s.setField n i j 0 16 fill
  else ((s.setField n i j 0 16 0).setField n i j 32 16 (s.field n i j 32 16 + 1)).overflow cls i j addr

/-- BUCKET_LEAK (R393). -/
def execBucketLeak (cls inst sub : Nat) (s : State) : Answered :=
  let n := bucketReg cls
  .next (s.setField n inst sub 0 16 (s.field n inst sub 0 16 - 1))

/-- What an uncorrectable access does to its requester (Table 14.2): a hart or a rook takes an access fault, and the turn of the die of a move or
of a rook aborts. -/
def State.badForRequester (s : State) (r : Requester) : State :=
  let fault := match r with
    | .hart _ _ _ | .rook _ => true
    | _ => false
  let s := match r with
    | .move i | .rook i => match s.siteOwner i with
      | some p => s.busMove p .uncorrectable
      | none => s
    | _ => s
  s.answered (.error .uncorrectable) fault

/-! The DRAM code (R380 to R384) -/

/-- Multiplication by α in GF(2^8) with the polynomial 0x11D. -/
def timesAlpha (x : Byte) : Byte := (x <<< 1) ^^^ (if x.getLsbD 7 then 0x1D else 0)

/-- x · α^n. -/
def timesAlphaPow (x : Byte) : Nat → Byte
  | 0 => x
  | n + 1 => timesAlpha (timesAlphaPow x n)

/-- S0 and S1 of a column whose symbols differ from a codeword by errors at positions (R381). -/
def syndromes (errs : List (Nat × Byte)) : Byte × Byte :=
  errs.foldl (fun (a, b) (p, e) => (a ^^^ e, b ^^^ timesAlphaPow e (17 - p))) (0, 0)

/-- The position that S0 and S1 locate. -/
def located (s0 s1 : Byte) : Option Nat :=
  if s0 = 0 ∨ s1 = 0 then none
  else ((List.range 18).find? (fun n => decide (timesAlphaPow s0 n = s1))).map (fun n => 17 - n)

/-- What decoding a column gives (R382): what its symbols still differ by, after a correction at a position if there was one; or an
uncorrectable column, with the position its syndromes point to where they point to one. -/
inductive Column where
  | good (left : List (Nat × Byte))
  | corrected (p : Nat) (left : List (Nat × Byte))
  | bad (p : Option Nat)

def decodeColumn (erased : Option Nat) (errs : List (Nat × Byte)) : Column :=
  let (s0, s1) := syndromes errs
  match erased with
  | none =>
    if s0 = 0 ∧ s1 = 0 then .good errs
    else match located s0 s1 with
      | some p => .corrected p (errs ++ [(p, s0)])
      | none => .bad none
  | some e => if s1 = timesAlphaPow s0 (17 - e) then .good (errs ++ [(e, s0)]) else .bad (located s0 s1)

/-- What decoding a line gives (R383): the delivered bytes with the position and number of its corrected columns, or the position known of an
uncorrectable line. -/
inductive Decoded where
  | line (data : List Byte) (at_ : Option (Nat × Nat))
  | bad (pos : Nat)

/-- Add what the columns still differ by to the line's data: byte 64p + c lies at position p, column c (R380). -/
def addErrors (data : List Byte) (left : List (Nat × Nat × Byte)) : List Byte :=
  left.foldl (fun d (p, c, e) => if p < 16 then d.modify (64 * p + c) (fun x => x ^^^ e) else d) data

def decodeLine (erased : Option Nat) (data : List Byte) (errors : List (Nat × Nat × Byte)) : Decoded :=
  let cols := (List.range 64).map (fun c =>
    (c, decodeColumn erased ((errors.filter (fun x => decide (x.2.1 = c))).map (fun x => (x.1, x.2.2)))))
  let bads := cols.filterMap (fun (_, r) => match r with
    | .bad p => some p
    | _ => none)
  let hits := cols.filterMap (fun (_, r) => match r with
    | .corrected p _ => some p
    | _ => none)
  let left := cols.flatMap (fun (c, r) => match r with
    | .good l | .corrected _ l => l.map (fun (p, e) => (p, c, e))
    | .bad _ => [])
  match bads.eraseDups, hits.eraseDups with
  | [some p], [] => .bad p
  | _ :: _, _ => .bad 0x1F
  | [], [] => .line (addErrors data left) none
  | [], [p] => .line (addErrors data left) (some (p, hits.length))
  | [], _ => .bad 0x1F

/-- The erased position of a stack. -/
def State.erasedOf (s : State) (k : Nat) : Option Nat :=
  let e := s.field .mcErase k 0 0 5
  if e < 18 then some e else none

/-- Place a line that was read: in the general unit of its home slice, or in the host system cache; dirty where a column was corrected
(R384). -/
def State.landLine (s : State) (host : Bool) (line : Nat) (data : List Byte) (dirty : Bool) : State :=
  if host then
    (lineBlocks line).foldl (fun s b => match Sparse.nfind s.hsc b with
      | some _ => s
      | none => s.putHsc b { dirty := if dirty then [0] else [], bad := [], data := (data.drop (64 * (b - 16 * line))).take 64 }) s
  else { s with general := Sparse.nput s.general line { dirty := if dirty then List.range 16 else [], bad := [], data := data } }

/-- The side that asks holds the line already, so the controller does not read it. -/
def State.holdsLine (s : State) (host : Bool) (line : Nat) : Bool :=
  if host then (lineBlocks line).all (fun b => (Sparse.nfind s.hsc b).isSome) else (Sparse.nfind s.general line).isSome

/-- Corrections of a line that was read (R383, R385, R393). -/
def State.correctedLine (s : State) (line p n : Nat) : State :=
  let k := stackOf (1024 * line)
  let s := (s.bump .mcCeLines k).setReg .mcLastCe k 0 (BitVec.ofNat 64 (n * 2 ^ 57 + p * 2 ^ 52 + 1024 * line))
  let s := s.countCorrection 0 k p (1024 * line)
  if 16 ≤ n then s.retireLayer k p else s

/-- DRAM_READ (R46, R382 to R385, R388, R395): the symbols read differ from those stored by the errors given: position, column, value. -/
def execDramRead (addr : Addr) (errors : List (Nat × Nat × Byte)) (host : Bool) (r : Requester) (s : State) : Answered :=
  let line := addr.toNat / 1024
  let k := stackOf (1024 * line)
  .next (if !inDram addr.toNat ∨ s.holdsLine host line then s
    else
      let s := s.applyFill line
      match (if s.linePoisoned line then Decoded.bad 0x1F else decodeLine (s.erasedOf k) (s.bytes (1024 * line) 1024) errors) with
      | .bad pos => (s.dramUe line pos r.square).badForRequester r
      | .line data none => (s.landLine host line data false).answered (.ok data)
      | .line data (some (p, n)) => ((s.landLine host line data true).correctedLine line p n).answered (.ok data))

/-- DRAM_WRITE (R46, R381, R388): a whole line with its check symbols, or poisoned. -/
def execDramWrite (addr : Addr) (bytes : List Byte) (poisoned : List Nat) (s : State) : Answered :=
  let line := addr.toNat / 1024
  .next (if !inDram addr.toNat then s
    else (s.applyFill line).writeBackLine line { dirty := List.range 16, bad := poisoned, data := padTo 1024 bytes })

/-! SRAM (R389 to R391, R395) -/

/-- The SRAM that a read concerns. -/
inductive Sram where
  /-- a context-cache slice -/
  | slice (q : Nat)
  /-- unit 0 of a slice: the row of a slot -/
  | streamRow (q slot : Nat)
  | bank (i b : Nat)
  | pad (i : Nat)
  | host (h : Nat)
  | referee

/-- Which SRAM of a square holds an address: for a DRAM address its slice or the caches of a host die. -/
def State.sramAt (s : State) (a q : Nat) : Sram :=
  if inDram a then
    if (Sparse.nfind s.general (a / 1024)).isSome ∧ homeSlice a = q then .slice q
    else match (List.range 8).find? (fun h => decide (hostSquare h = q) && (Sparse.nfind s.hartBlocks (hartKey h (a / 64))).isSome) with
      | some h => .host h
      | none => .slice q
  else if 0x080000000000 ≤ a ∧ a < 0x080400000000 then
    let o := (a - 0x080000000000) % 0x04000000
    let q := (a - 0x080000000000) / 0x04000000
    if o < 0x40000 then .streamRow q (4096 * q + o / 64) else .slice q
  else if 0x090000000000 ≤ a ∧ a < 0x090000000000 + 104 * 0x08000000 then
    let i := (a - 0x090000000000) / 0x08000000
    .bank i ((a - 0x090000000000) % 0x08000000 / max 1 (s.dmSize i / 16))
  else if 0x0A0000000000 ≤ a ∧ a < 0x0A0000000000 + 104 * 0x400000 then .pad ((a - 0x0A0000000000) / 0x400000)
  else match interruptFile a with
    | some (h, _, _) => .host h
    | none => .referee

/-- A single-bit error: corrected, counted, and written back (R390). -/
def State.sramCorrected (s : State) (x : Sram) (a : Nat) : State :=
  match x with
  | .slice q | .streamRow q _ => (s.bump .ccEccCe q).countCorrection 1 q 0 a
  | .bank i b => (s.bump .dmEccCe i).countCorrection 2 i b a
  | .pad i => (s.bump .rkEccCe i).countCorrection 3 i 0 a
  | .host h => (s.bump .hdEccCe h).countCorrection 4 h 0 a
  | .referee => s.countCorrection 5 0 0 a

/-- The opcode of a queued operation (Table 9.11). -/
def queuedOpcode : QueuedOp → BitVec 16
  | .streamOpen _ _ => 0x0400
  | .streamAppend _ _ _ => 0x0401
  | .streamAdvance _ _ => 0x0402
  | .streamClose _ => 0x0403
  | .streamPark _ => 0x0404
  | .streamUnpark _ => 0x0405
  | .streamMigrate _ _ _ => 0x0406
  | .streamFork _ _ => 0x0407
  | .stateTier _ _ _ _ => 0x0501
  | .policySet id _ => if 0x100 ≤ id.toNat then 0x0900 else 0x0205
  | .debugTrace _ => 0x0804
  | .bookUnload => 0x0301
  | .bookPreempt => 0x0303

/-- An uncorrectable stream-table entry (Table 14.6): Tolerabor closes the stream, and its outstanding commands complete with
UNCORRECTABLE. -/
def State.closeBadRow (s : State) (q slot : Nat) : State :=
  let e := s.row slot
  match s.owner q with
  | none => s
  | some p =>
    if !s.up ∨ e.state = stFree then s
    else
      let s := s.failPending p e.handle .uncorrectable e.length
      let mine := (s.part p).queue.filter (fun x => decide (opHandle x.op = some e.handle))
      let s := s.modPart p (fun v => { v with queue := v.queue.filter (fun x => decide (opHandle x.op ≠ some e.handle)) })
      let s := mine.foldl (fun s x => s.complete x.cmd (queuedOpcode x.op) .uncorrectable) s
      let e' := { e with state := stClosing, advPending := 0, appPending := 0, prompt := 0 }
      let s := ((s.setRow slot e').unstage p e.handle).streamEvent p e'
      s.eventStatus RegName.stRows.info.block .uncorrectable .error (some p) q (leBytes 8 slot)

/-- A double-bit error: uncorrectable, counted, reported, and in a cache the block is poisoned (R388, R390, R391). -/
def State.sramBad (s : State) (x : Sram) (a requester : Nat) : State :=
  let b := a / 64
  let report (s : State) (n : RegName) (i q : Nat) : State := s.sramUe n i q a requester
  match x with
  | .slice q =>
    let s := s.sliceUe q a requester
    if inDram a then
      match Sparse.nfind s.general (a / 1024), Sparse.nfind s.hsc b with
      | some c, _ => { s with general := Sparse.nput s.general (a / 1024) { c with bad := Sparse.insertNat c.bad (b % 16) } }
      | none, some c => s.putHsc b { c with bad := [0] }
      | none, none => s
    else s.setPoison b true
  | .streamRow q slot => (s.sliceUe q a requester).closeBadRow q slot
  | .bank i _ => report s .dmEccUe i (siteSquare i)
  | .pad i => report s .rkEccUe i (siteSquare i)
  | .host h =>
    match Sparse.nfind s.hartBlocks (hartKey h b) with
    | some c => if c.dirty = [] then (s.dropHart h b).sramCorrected x a else report (s.putHart h b { c with bad := [0] }) .hdEccUe h (hostSquare h)
    | none => report s .hdEccUe h (hostSquare h)
  | .referee => s.eventStatus 0x10 .uncorrectable .error none 0 (leBytes 8 a ++ [0x1F] ++ leBytes 7 requester)

/-- A clean block of a host die's own cache is fetched again (R391), so its requester sees no error. -/
def State.refetched (s : State) (x : Sram) (a : Nat) : Bool :=
  match x with
  | .host h => ((Sparse.nfind s.hartBlocks (hartKey h (a / 64))).map (fun c => decide (c.dirty = []))).getD false
  | _ => false

/-- SRAM_READ (R390): a read of an address in a square's SRAM that finds a single-bit or a double-bit error. -/
def execSramRead (addr : Addr) (square : Nat) (double : Bool) (r : Requester) (s : State) : Answered :=
  let a := addr.toNat
  let x := s.sramAt a square
  .next (if !double then s.sramCorrected x a
    else
      let again := s.refetched x a
      let s := s.sramBad x a r.square
      if again then s else s.badForRequester r)

/-! Evictions and fills -/

/-- GENERAL_LINE_EVICTION (R62). -/
def execGeneralLineEviction (addr : Addr) (s : State) : Answered :=
  .next (if inDram addr.toNat then s.evictGeneral (addr.toNat / 1024) else s)

/-- BANK_ZERO_COMPLETE (R53): the bank reads zero, and accesses that waited proceed. -/
def execBankZeroComplete (site bank : Nat) (s : State) : Answered :=
  .next (if bank < 16 then
      let s := s.setFlag .dmZeroBusy site 0 bank false
      match s.siteOwner site with
      | some p => s.zeroDone p
      | none => s
    else s)

/-- RELEASE_FILL_COMPLETE (R397, R398): every line of the stack that was queued is zero. -/
def execReleaseFillComplete (stack : Nat) (s : State) : Answered :=
  let mine := s.fills.filter (fun x => decide (stackOf (1024 * x.1) = stack))
  let s := mine.foldl (fun s (f, n) => s.fillLines f n) s
  .next { s with fills := s.fills.filter (fun x => decide (stackOf (1024 * x.1) ≠ stack)) }

end Sys2Proof.Machine
end

