-- ==== Sys2Proof/Machine/Flits.lean ====
section
/-! DEFINITION. Flits and messages of the Padrid Link (R351 to R359): the bytes of a message, its flits, credits, acknowledgement and replay. -/

namespace Sys2Proof.Machine

/-! Messages as bytes (Tables 13.6a, 13.5) -/

/-- The 32-byte header of a message and its payload in units of 16 B. -/
def msgBytes (m : LinkMsg) : List Byte :=
  let units := ceilDiv m.payload.length 16
  [m.op, m.status] ++ leBytes 2 m.dst.toNat ++ leBytes 2 m.src.toNat ++ [BitVec.ofNat 8 (16 * m.srcPart.toNat + m.dstPart.toNat)] ++
  [BitVec.ofNat 8 units] ++ leBytes 2 m.xid.toNat ++ leBytes 2 m.seq.toNat ++ leBytes 2 m.lines.toNat ++ leBytes 2 m.epoch.toNat ++
  leBytes 2 m.turn.toNat ++ [m.rctr, 0] ++ leBytes 6 m.addr.toNat ++ List.replicate 6 0 ++ padTo (16 * units) m.payload

/-- The message at the head of a byte list that holds its header and all its units. -/
def msgOfBytes (b : List Byte) : LinkMsg :=
  let u (i n : Nat) : Nat := bytesAt b i n
  { op := BitVec.ofNat 8 (u 0 1), status := BitVec.ofNat 8 (u 1 1), dst := BitVec.ofNat 13 (u 2 2), src := BitVec.ofNat 13 (u 4 2),
    srcPart := BitVec.ofNat 3 (u 6 1 / 16), dstPart := BitVec.ofNat 3 (u 6 1), xid := BitVec.ofNat 16 (u 8 2), seq := BitVec.ofNat 16 (u 10 2),
    lines := BitVec.ofNat 16 (u 12 2), epoch := BitVec.ofNat 16 (u 14 2), turn := BitVec.ofNat 16 (u 16 2), rctr := BitVec.ofNat 8 (u 18 1),
    addr := BitVec.ofNat 48 (u 20 6), payload := (b.drop 32).take (16 * u 7 1) }

/-- The virtual lane of a message (Tables 13.5, 13.6b). -/
def laneOf (op : BitVec 8) : Nat :=
  match op.toNat with
  | 0x01 | 0x03 | 0x07 => 0
  | 0x02 | 0x04 | 0x08 | 0x0B => 1
  | 0x05 | 0x06 => 2
  | _ => 3

/-- Flits of a lane's receive buffer (Table 13.5). -/
def laneBuffer : Nat → Nat
  | 2 => 256
  | 3 => 32
  | _ => 128

/-- The messages that the units of a lane complete, and what is left: a unit of zeros where a header is expected marks the rest of the flit as
padding (R357). -/
def takeMessages : Nat → List Byte → List LinkMsg × List Byte
  | 0, b => ([], b)
  | fuel + 1, b =>
    if b.length < 16 then ([], [])
    else if (b.take 16).all (fun x => decide (x = 0)) then ([], [])
    else if b.length < 32 + 16 * bytesAt b 7 1 then ([], b)
    else
      let (ms, left) := takeMessages fuel (b.drop (32 + 16 * bytesAt b 7 1))
      (msgOfBytes b :: ms, left)

/-! Flits as bytes (Table 13.4) -/

/-- The code of a flit type. -/
def flitCode : FlitType → Nat
  | .data => 1
  | .idle => 2
  | .retryReq => 3
  | .knock => 4
  | .csync => 5
  | .hello => 6

/-- Bytes 0 to 251 of a flit: the link header and the payload. -/
def flitBytes (f : Flit) : List Byte :=
  [BitVec.ofNat 8 (16 * flitCode f.type + 4 * f.vl.toNat), f.first] ++ leBytes 2 f.seq.toNat ++ leBytes 2 f.ack.toNat ++
  [BitVec.ofNat 8 (64 * f.cvl.toNat), f.credits] ++ leBytes 2 f.srcId.toNat ++ [0, 0] ++ padTo 240 f.payload

/-- A flit with the CRC-32 of its bytes (R351). -/
def sealFlit (f : Flit) : Flit := { f with crc := crc32 (flitBytes f) }

/-- A flit passes its CRC. -/
def flitGood (f : Flit) : Bool := decide (f.crc = crc32 (flitBytes f))

/-! Sending -/

/-- A flit of a type that carries no SEQ, with the acknowledgement and a credit report (R352). -/
def State.controlFlit (s : State) (n : Nat) (t : FlitType) (payload : List Byte) : Flit :=
  let v := s.quad n
  sealFlit
    { type := t, vl := 0, first := 0, seq := 0, ack := v.lastAck, cvl := 0, credits := Sparse.nget 0 v.freed 0, srcId := s.moduleId, crc := 0,
      payload := padTo 240 payload }

/-- Put a flit on the wire. -/
def State.sendFlit (s : State) (n : Nat) (f : Flit) : State := s.modQuad n (fun v => { v with outFlits := v.outFlits ++ [f] })

/-- The DATA flits of one message: the header begins a flit, and the flit that ends it is padded (R357). The lane of a credit report turns with
SEQ, so each lane is reported every four flits (R355). -/
def State.flitsOf (s : State) (n : Nat) (m : LinkMsg) : List Flit :=
  let v := s.quad n
  let b := msgBytes m
  (List.range (ceilDiv b.length 240)).map (fun k =>
    let seq := v.nextSeq + BitVec.ofNat 16 k
    let c := seq.toNat % 4
    sealFlit
    { type := .data, vl := BitVec.ofNat 2 (laneOf m.op), first := if k = 0 then 0 else 0xFF, seq := seq, ack := v.lastAck,
      cvl := BitVec.ofNat 2 c, credits := Sparse.nget 0 v.freed c, srcId := s.moduleId, crc := 0,
      payload := padTo 240 ((b.drop (240 * k)).take 240) })

/-- A message may go now: its lane has the credits, and the replay buffer the room (R353, R355). -/
def State.maySend (s : State) (n : Nat) (m : LinkMsg) : Bool :=
  let v := s.quad n
  let k := ceilDiv (msgBytes m).length 240
  decide (k ≤ (Sparse.nget 0 v.credits (laneOf m.op)).toNat ∧ v.replay.length + k ≤ 1024)

/-- Send one message as flits. -/
def State.sendMessage (s : State) (n : Nat) (m : LinkMsg) : State :=
  let fs := s.flitsOf n m
  let c := laneOf m.op
  (s.modQuad n (fun v => { v with
    outMsgs := v.outMsgs.erase m, circMsgs := v.circMsgs.erase m, outFlits := v.outFlits ++ fs, replay := v.replay ++ fs, nextSeq := v.nextSeq + BitVec.ofNat 16 fs.length,
    credits := Sparse.nset 0 v.credits c (Sparse.nget 0 v.credits c - BitVec.ofNat 16 fs.length)
    requestNext := if c = 1 then true else if c = 0 then false else v.requestNext })).bump .olTxFlits n 0 fs.length

/-- The next message to send: VL2, then VL3, then VL1 and VL0 in turn (R356), the first of its lane that has credit. -/
def State.nextMessage (s : State) (n : Nat) : Option LinkMsg :=
  ([2, 3] ++ (if (s.quad n).requestNext then [0, 1] else [1, 0])).findSome? (fun l =>
    match (s.quad n).outMsgs.find? (fun (m : LinkMsg) => decide (laneOf m.op = l)) with
    | some m => if s.maySend n m then some m else none
    | none => none)

/-- The partition of a quad is in start-up or recovery (R373). -/
def State.quadQuiet (s : State) (n : Nat) : Bool :=
  !s.ready || (match s.quadOwner n with
    | some p => (s.part p).resetCmd.isSome
    | none => false)

/-- Send what waits and may go, at most k messages. A quad carries messages once it is UP and its partition has come up (R373). -/
def State.transmit (s : State) (n : Nat) : Nat → State
  | 0 => s
  | k + 1 =>
    if !s.quadIsUp n ∨ s.quadQuiet n then s
    else match s.nextMessage n with
      | some m => (s.sendMessage n m).transmit n k
      | none => s

/-- Send everything that waits and may go. -/
def State.drainQuad (s : State) (n : Nat) : State := s.transmit n (s.quad n).outMsgs.length

/-! Acknowledgement and replay (R353, R354) -/

/-- The flits that an ACK leaves unacknowledged: an ACK that names none of them acknowledges nothing. -/
def afterAck (ack : BitVec 16) (l : List Flit) : List Flit :=
  if l.any (fun f => decide (f.seq = ack)) then (l.dropWhile (fun f => decide (f.seq ≠ ack))).drop 1 else l

/-- ACK and credits of a received flit: an ACK that advances ends the count of failed replays, and the change of the running count frees as many
credits of its lane. -/
def State.takeAck (s : State) (n : Nat) (f : Flit) : State :=
  s.modQuad n (fun v =>
    let left := afterAck f.ack v.replay
    let c := f.cvl.toNat
    let gained := f.credits - Sparse.nget 0 v.partnerFreed c
    { v with
      replay := left
      failedReplays := if left.length < v.replay.length then 0 else v.failedReplays
      partnerFreed := Sparse.nset 0 v.partnerFreed c f.credits
      credits := Sparse.nset 0 v.credits c (Sparse.nget 0 v.credits c + gained.setWidth 16) })

/-- Replay the unacknowledged flits in order; when sixteen replays have failed to advance ACK the quad goes DOWN, with an ERROR. -/
def State.replayFlits (s : State) (n : Nat) : State :=
  let v := s.quad n
  if v.replay = [] then s
  else if v.failedReplays < 16 then
    s.modQuad n (fun v => { v with outFlits := v.outFlits ++ v.replay, failedReplays := v.failedReplays + 1 })
  else
    let q := engineSquare (quadEngine n)
    (s.event7F .error (s.quadOwner n) q .olQstatus n).quadDown n

/-- Ask for a replay, once (R353). -/
def State.askReplay (s : State) (n : Nat) : State :=
  if (s.quad n).retrySent then s
  else ((s.sendFlit n (s.controlFlit n .retryReq [])).modQuad n (fun v => { v with retrySent := true })).bump .olReplays n

/-- Accept the DATA flit that was expected (R353, R355, R357): its units join those of the lane, and the messages they complete come out. -/
def State.acceptFlit (s : State) (n : Nat) (f : Flit) : State × List LinkMsg :=
  let l := f.vl.toNat
  let held := Sparse.nget [] (s.quad n).reassembly l
  let units := if held ≠ [] then f.payload else if f.first = 0xFF then [] else f.payload.drop (16 * f.first.toNat)
  let (ms, left) := takeMessages 16 (held ++ units)
  ((s.modQuad n (fun v => { v with
    expected := v.expected + 1, lastAck := f.seq, retrySent := false
    reassembly := Sparse.nset [] v.reassembly l left
    freed := Sparse.nset 0 v.freed l (Sparse.nget 0 v.freed l + 1) })).bump .olRxFlits n, ms)

/-- A quad drops the DATA flits of a fenced peer (R421). -/
def State.fencedQuad (s : State) (n : Nat) (f : Flit) : Bool := decide (s.quadRole n ≠ rolePool ∧ f.srcId ∈ s.fencedModules)

end Sys2Proof.Machine
end

