-- ==== Sys2Proof/Machine/LinkMessages.lean ====
section
/-! DEFINITION. What a module does with the Padrid Link messages that reach it (R358 to R366, R373, R376 to R378, R494, R100, R296, R297, R406). -/

namespace Sys2Proof.Machine

/-! Answers -/

/-- A message back to the sender of another, on the same quad, with XID, SEQ and EPOCH copied (Table 13.6b). -/
def State.answerMsg (s : State) (n : Nat) (m : LinkMsg) (op : BitVec 8) (st : Status) (payload : List Byte := []) : State :=
  s.pushMsg n
    { op := op, status := BitVec.ofNat 8 st.code, dst := m.src, src := s.moduleId, srcPart := m.dstPart, dstPart := m.srcPart, xid := m.xid,
      seq := m.seq, lines := 0, epoch := m.epoch, turn := 0, rctr := 0, addr := 0, payload := payload }

/-- ERR for a refused message (Table 13.6b): its OP and ADDR. -/
def State.refuseMsg (s : State) (n : Nat) (m : LinkMsg) (st : Status) : State :=
  s.answerMsg n m 0x0B st ([m.op] ++ List.replicate 7 0 ++ leBytes 6 m.addr.toNat ++ [0, 0])

/-- ERR for a message that the device cannot serve, with a status that the spec does not state: a free value. -/
def State.cannotServe (s : State) (n : Nat) (m : LinkMsg) : State :=
  let (w, s) := s.draw
  s.refuseMsg n m ((Status.ofCode (w.toNat % 256)).getD .badArgument)

/-- The partition that messages on a quad are for, out of reset (R345, R373). -/
def State.servedPart (s : State) (n : Nat) : Option Nat :=
  if s.ready then (match s.quadOwner n with
    | some p => if s.formed p && !s.dissolving p && (s.part p).resetCmd.isNone then some p else none
    | none => none) else none

/-- A request for a partition: one in reset answers BUSY (R373). -/
def State.request (s : State) (n : Nat) (m : LinkMsg) (go : Nat → State → State) : State :=
  match s.servedPart n with
  | some p => go p s
  | none => s.refuseMsg n m .busy

/-- Any other message for a partition: nothing for one in reset (R373). -/
def State.notice (s : State) (n : Nat) (go : Nat → State → State) : State :=
  match s.servedPart n with
  | some p => go p s
  | none => s

/-! Pool messages (R362, R363) -/

/-- A PRD or PWR asks for pool service, which the device does not give. -/
def State.poolAsked (s : State) (n : Nat) (m : LinkMsg) : State := s.cannotServe n m

/-- PDATA (R362). -/
def State.poolReadAnswer (s : State) (n : Nat) (m : LinkMsg) : State := s.notice n (fun p s => s.poolData p m.xid m.seq m.payload)

/-- PWACK (R362). -/
def State.poolWriteAnswer (s : State) (n : Nat) (m : LinkMsg) : State := s.notice n (fun p s => s.poolAck p m.xid m.seq)

/-- A transfer to or from a pool fails (R362): a recall leaves its fault unresolvable, and a tier move completes with LINK_VACANT (R307). -/
def State.failPool (s : State) (l : PoolLine) : State :=
  let s := { s with poolLines := s.poolLines.filter (fun x => decide (¬(x.part = l.part ∧ x.handle = l.handle ∧ x.page = l.page))) }
  match (s.part l.part).tierMoves.find? (fun t => decide (t.handle = l.handle ∧ t.page = l.page)) with
  | some t =>
    let mine := (s.part l.part).tierMoves.filter (fun x => decide (x.cmd = t.cmd))
    let s := mine.foldl (fun s x =>
      match s.resolve l.part none x.handle with
      | .ok f =>
        let root := (s.entryAt l.part f).root.toNat
        match s.leafOf root x.page with
        | some (_, _, e) => s.setLeaf l.part x.handle root x.page (putBit e 58 false)
        | none => s
      | .error _ => s) s
    (s.modPart l.part (fun v => { v with tierMoves := v.tierMoves.filter (fun x => decide (x.cmd ≠ t.cmd)) })).complete t.cmd 0x0501 .linkVacant
  | none =>
    (s.partSites l.part).foldl (fun s i =>
      ((s.die i).stopped.filter (fun (_, x) => decide (x.handle = l.handle ∧ x.page = l.page ∧ x.code.toNat = faultFar))).foldl
        (fun s (key, _) => s.faultUnresolvable i key) s) s

/-- POOL_LINE_TIMEOUT (R362): a line is requested once more, on the next UP quad of the list, and then its transfer fails. The second request of
a read line is a PRD of that line alone, under an XID of its own. -/
def State.poolTimeout (s : State) (xid seq : BitVec 16) : State :=
  match s.poolLines.find? (fun l => decide (l.xid = xid ∧ l.seq = seq ∧ (l.isWrite = true ∨ l.data = []))) with
  | none => s
  | some l =>
    if l.retried ∨ (s.poolQuad l.part l.addr true).isNone then s.failPool l
    else
      let (s, x) := s.takeXid l.part
      let again : PoolLine := { l with xid := x, seq := 0, retried := true }
      let s := { s with poolLines := s.poolLines.map (fun y => if y = l then again else y) }
      let epoch := match s.resolve l.part none l.handle with
        | .ok f => (s.entryAt l.part f).epoch
        | .error _ => 0
      s.sendPool l.part l.addr (if l.isWrite then 0x03 else 0x01) x 0 0 epoch true l.data

/-! SENDs across modules (R358, R376) -/

/-- A SEND message becomes the B-net packet of Table 8.4, with the turn and epoch offsets of the engine added (R376 step 5). One for an address
that is in no die memory is refused with the status of Table 2.10 (R524).  The boundary routers and the die answer the others. -/
def State.sendMsg (s : State) (n : Nat) (m : LinkMsg) : State :=
  s.request n m (fun p s =>
    match dieAt m.addr.toNat with
    | some i =>
      let e := n / 4
      let offs := s.latchedReg .olSpanOfs e
      s.injectBnet (engineSquare e)
        { byteEnable := BitVec.allOnes 64, dest := BitVec.ofNat 8 (siteSquare i),
          src := BitVec.ofNat 8 (engineSquare e), kind := .send, compiled := true, cls := 2, xid := m.xid, seq := m.seq, lines := m.lines,
          epoch := m.epoch + BitVec.ofNat 16 (bitsAt offs 0 16), turn := m.turn + BitVec.ofNat 16 (bitsAt offs 16 16), rctr := m.rctr,
          part := BitVec.ofNat 3 p, circ := 0xFF, addr := m.addr, payload := m.payload }
    | none => s.refuseMsg n m (if inWindow m.addr.toNat then .notPermitted else .badArgument))

/-- SACK: every line of a transfer is written at the other module, and the SEND of the die that issued it completes (R216). -/
def State.sackMsg (s : State) (n : Nat) (m : LinkMsg) : State :=
  s.notice n (fun p s =>
    match (s.partSites p).find? (fun i => (s.die i).flights.any (fun f => decide (f.sendXid = some m.xid))) with
    | some i => s.sackFor i m.xid (BitVec.ofNat 64 (s.dieCycle p i))
    | none => s)

/-! Migration between modules (R296, R297, R360) -/

/-- COPY messages of one migration: its lines, and the XIDs that they take, 65,536 lines to each. -/
def copyXids (lines : Nat) : Nat := max 1 (ceilDiv lines 65536)

/-- An XID is among those of a migration's copy. -/
def State.copyOf (s : State) (p : Nat) (x : Migration) (xid : BitVec 16) : Bool :=
  decide ((xid - x.xid).toNat < copyXids (s.stateSize p (s.row x.slot) / 1024))

/-- The lines that a migration copies: every granule of its pages rewritten for the new handle, its tail-save lines among them, and its resident
tails. -/
def State.copyLines (s : State) (p : Nat) (e : StreamEntry) (h : Handle) : State × List (List Byte) :=
  let split (d : List Byte) : List (List Byte) := (List.range (d.length / 1024)).map (fun k => (d.drop (1024 * k)).take 1024)
  let (s, pages) := (s.leaves e.root.toNat).foldl (fun (s, acc) (_, _, _, l) =>
    let (s, d) := s.pageBytes (entryAddr l)
    (s, acc ++ split (rehandlePage h d))) (s, [])
  (s, pages ++ (s.residentTails p e.handle).flatMap (fun x => split x.2.2))

/-- Send the copy of an admitted stream: one COPY a line, from the staging address up (R296 step 2, Table 13.6b). -/
def State.sendCopies (s : State) (n p : Nat) (x : Migration) : State :=
  let e := s.row x.slot
  let (s, ls) := s.copyLines p e x.newHandle
  let s := s.modPart p (fun v => { v with nextXid := v.nextXid + BitVec.ofNat 16 (copyXids ls.length - 1) })
  ls.zipIdx.foldl (fun s (d, k) => s.pushMsg n
    { op := 0x07, status := 0, dst := x.module.setWidth 13, src := s.moduleId, srcPart := BitVec.ofNat 3 p, dstPart := x.part.setWidth 3,
      xid := x.xid + BitVec.ofNat 16 (k / 65536), seq := BitVec.ofNat 16 k,
      lines := BitVec.ofNat 16 (min 65536 (ls.length - k / 65536 * 65536) - 1), epoch := e.epoch, turn := 0, rctr := 0,
      addr := BitVec.ofNat 48 (x.staging + 1024 * k), payload := d }) s

/-- A module has an exchange in progress with this one (R366): a migration either way, or a command of a HEADLESS partition. -/
def State.exchangeOpen (s : State) (m : BitVec 13) : Bool :=
  s.exchanges.any (fun x => decide (x.1 = m)) || s.referee.journal.any (fun e => match e.cmd.path with
    | .mgmt _ _ x _ => decide (x = m)
    | _ => false)

/-- MIGRATE_REQ: the destination takes a row under its own admission, or says why not. A quad serves the partition that it belongs to. -/
def State.migrateAsked (s : State) (n : Nat) (m : LinkMsg) : State :=
  s.request n m (fun p s =>
    let u := m.payload.drop 16
    let reply (s : State) (st : Nat) (h : Nat) (staging : Nat) : State :=
      s.sendMgmt n m.src 0x09 p m.srcPart.toNat m.xid (leBytes 1 st ++ [0, 0, 0] ++ leBytes 4 h ++ leBytes 6 staging ++ [0, 0])
    let dest := bytesAt u 4 1
    let e := entryOfBytes ((u.drop 16).take 64)
    let size := bytesAt u 8 8
    if !s.formed dest then reply s Status.badArgument.code 0 0
    else if dest ≠ p then reply s Status.notPermitted.code 0 0
    else if s.partFenced p then reply s Status.peerFenced.code 0 0
    else
      let (s, staging) := s.takePage p
      match s.admitArrival p e { quad := some n, module := m.src, xid := m.xid, source := m.srcPart.toNat, handle := e.handle, entry := e, slot := 0, newHandle := 0,
                                 bytes := size, staging := staging, lines := [], copied := decide (size = 0) } with
      | (s, none) => reply s Status.streamTableFull.code 0 0
      | (s, some h) => reply { s with exchanges := s.exchanges ++ [(m.src, p)] } 0 h.toNat staging)

/-- A line of a copy arrives: written in the staging area once, whatever its order, and acknowledged (R358, Table 13.6b). -/
def State.copyArrives (s : State) (n : Nat) (m : LinkMsg) : State :=
  s.request n m (fun p s =>
    let a := m.addr.toNat
    match (s.part p).arrivals.find? (fun x => decide (x.quad = some n ∧ x.staging ≤ a ∧ a < x.staging + x.bytes)) with
    | none => s.answerMsg n m 0x08 .badArgument
    | some x =>
      let s :=
        if (m.xid, m.seq) ∈ x.lines then s
        else
          let s := s.stateWrite a (padTo 1024 m.payload)
          let got := x.lines ++ [(m.xid, m.seq)]
          s.modPart p (fun v => { v with arrivals := v.arrivals.map (fun y =>
            if y = x then { x with lines := got, copied := x.copied || decide (x.bytes ≤ 1024 * got.length) } else y) })
      s.answerMsg n m 0x08 .ok)

/-- The migration of a partition that an XID names. -/
def State.migrationOf (s : State) (p : Nat) (m : LinkMsg) : Option Migration :=
  (s.part p).migrations.find? (fun x => decide (x.module.setWidth 13 = m.src) && s.copyOf p x m.xid)

/-- CACK: a refusal ends the migration with its status. -/
def State.copyAnswered (s : State) (n : Nat) (m : LinkMsg) : State :=
  s.notice n (fun p s =>
    match s.migrationOf p m, Status.ofCode m.status.toNat with
    | some x, some st => if st = .ok then s else s.failMigration p x.handle st
    | _, _ => s)

/-- MIGRATE_ADMIT: the copy begins at the staging address, or the migration ends with the refusal. -/
def State.migrateAdmitted (s : State) (n : Nat) (m : LinkMsg) : State :=
  s.notice n (fun p s =>
    let u := m.payload.drop 16
    match s.migrationOf p m with
    | none => s
    | some x => match Status.ofCode (bytesAt u 0 1) with
      | some .ok =>
        let y := { x with newHandle := BitVec.ofNat 32 (bytesAt u 4 4), staging := bytesAt u 8 6 }
        (s.modPart p (fun v => { v with migrations := v.migrations.map (fun z => if z = x then y else z) })).sendCopies n p y
      | some st => s.failMigration p x.handle st
      | none => s)

/-- MIGRATE_DONE: the migration ends at its source (R296 step 4, R297). -/
def State.migrateFinished (s : State) (n : Nat) (m : LinkMsg) : State :=
  s.notice n (fun p s =>
    let u := m.payload.drop 16
    match s.migrationOf p m with
    | none => s
    | some x => match Status.ofCode (bytesAt u 0 1) with
      | some .ok => s.migrated p x (BitVec.ofNat 32 (bytesAt u 4 4))
      | some st => s.failMigration p x.handle st
      | none => s)

/-- ERR: what was refused ends. A SEND takes a bus error, a COPY or MIGRATE_REQ ends its migration; a pool line stays unanswered (R362). -/
def State.errMsg (s : State) (n : Nat) (m : LinkMsg) : State :=
  s.notice n (fun p s =>
    match (m.payload.headD 0).toNat, Status.ofCode m.status.toNat with
    | 0x05, some st => if (s.partSites p).any (fun i => (s.die i).flights.any (fun f => decide (f.sendXid = some m.xid))) then s.busMove p st else s
    | 0x07, some st | 0x09, some st => match s.migrationOf p m with
      | some x => s.failMigration p x.handle st
      | none => s
    | _, _ => s)

/-! End-to-end knocks (R366) -/

/-- Exchanges with a module end with PEER_FENCED, and the peer is fenced for them: migrations toward it fail, and what it was copying here is
released. -/
def State.endExchanges (s : State) (m : BitVec 13) : State :=
  let s := s.fencePeer m
  let s := s.formedParts.foldl (fun s p =>
    let s := ((s.part p).migrations.filter (fun x => decide (x.module.setWidth 13 = m))).foldl (fun s x => s.failMigration p x.handle .peerFenced) s
    ((s.part p).arrivals.filter (fun a => decide (a.quad ≠ none ∧ a.module = m))).foldl (fun s a => s.dropArrival p a) s) s
  { s with exchanges := s.exchanges.filter (fun x => decide (x.1 ≠ m)), e2eMisses := Sparse.ndrop s.e2eMisses m.toNat }

/-- The SAFETY record of a fenced peer (R412). -/
def State.peerSafety (s : State) (n : Nat) (m : BitVec 13) : State :=
  s.safetyAt none (engineSquare (quadEngine n)) .olQstatus n 0 m.toNat

/-- E2E_KNOCK: the module is there; one that reports REF_LOST is treated as silent (R365, R366). -/
def State.e2eArrives (s : State) (n : Nat) (m : LinkMsg) : State :=
  s.notice n (fun _ s =>
    if bitAt (m.payload.getD 4 0) 1 then (if m.src ∈ s.fencedModules then s else (s.endExchanges m.src).peerSafety n m.src)
    else { s with e2eMisses := Sparse.ndrop s.e2eMisses m.src.toNat })

/-! Spanning books (R99, R100, R376 to R378, R494) -/

/-- OL_SPAN_OFS of the DIRECT engines that lead to a member (R376 step 4): this partition's turn number less the member's. SPAN_CONFIRM carries no
SQ_EPOCH, so the epoch offset is a free value. -/
def State.writeSpanOfs (s : State) (p : Nat) (m : BitVec 13) (first : Nat) : State :=
  let (w, s) := s.draw
  let turn := ((s.turn p).toNat + 2 + 2 ^ 32 - first) % 2 ^ 16
  (((s.partQuads p).filter (fun n => decide (n % 4 = 0) && s.engineDirect (n / 4) && decide (s.partnerOf n = m))).map (fun n => n / 4)).foldl
    (fun s e => s.setReg .olSpanOfs e 0 (BitVec.ofNat 64 (turn * 65536 + w.toNat % 65536))) s

/-- A load fails here with a status of its own (R377): the members are told. -/
def State.failSpanLoad (s : State) (p : Nat) (st : Status) : State :=
  let own := s.moduleId
  let s := s.modPart p (fun v => { v with loading := v.loading.map (fun l =>
    { l with firstFail := some (l.firstFail.getD (BitVec.ofNat 8 st.code, own)) }) })
  (s.sendLoadFail p (s.part p).members st.code own.toNat).endLoad p st

/-- SPAN_CONFIRM: a member has verified the book (R376 step 2). A member heard for the first time is told in its turn; one module too many, another
image or another MODULES ends the load (R377). -/
def State.spanConfirmed (s : State) (n : Nat) (m : LinkMsg) : State :=
  s.request n m (fun p s =>
    let u := m.payload.drop 16
    match (s.part p).loading with
    | none => s
    | some l =>
      if !l.book.span ∨ l.installed then s
      else if bytesAt u 0 8 ≠ l.book.crc.toNat ∨ bytesAt u 8 1 ≠ l.book.modules ∨
          (s.part p).members.all (fun x => decide (x.1 ≠ m.src.toNat)) = true then s.failSpanLoad p .mapMismatch
      else if m.src.toNat ∈ l.heard then s
      else
        let heard := l.heard ++ [m.src.toNat]
        let s := s.modPart p (fun v => { v with loading := some { l with heard := heard } })
        (s.writeSpanOfs p m.src (bytesAt u 12 4)).sendSpanConfirm p l.book heard.length)

/-- SPAN_CONFIRM_TIMEOUT: some member has not confirmed within 1.0 s (R377). -/
def State.spanTimeout (s : State) (p : Nat) : State :=
  match (s.part p).loading with
  | some l => if l.book.span ∧ !l.installed ∧ l.heard.length + 1 < l.book.modules then s.failSpanLoad p .busy else s
  | none => s

/-- SPAN_LOAD_FAIL: another member has failed (R377). -/
def State.spanFailed (s : State) (n : Nat) (m : LinkMsg) : State :=
  s.request n m (fun p s =>
    let u := m.payload.drop 16
    match (s.part p).loading with
    | some l =>
      if !l.book.span then s
      else
        let first := (BitVec.ofNat 8 (bytesAt u 0 1), BitVec.ofNat 13 (bytesAt u 2 2))
        let s := s.modPart p (fun v => { v with loading := some { l with firstFail := some (l.firstFail.getD first) } })
        s.endLoad p .busy
    | none => s)

/-- SPAN_ABORT: a member has lost a quad of the book or is to be reset, so this one aborts and is fenced (R377, R378). -/
def State.spanAborted (s : State) (n : Nat) (m : LinkMsg) : State :=
  s.request n m (fun p s =>
    if (s.part p).members.any (fun x => decide (x.1 = m.src.toNat)) && s.bookLoaded p then
      (s.spanLost p).safetyAt (some p) (engineSquare (quadEngine n)) .olQstatus n 0 m.src.toNat
    else s)

/-- SPAN_CHANGE: values, a map or a maintenance turn from a turn on (R99, R449). -/
def State.spanChanged (s : State) (n : Nat) (m : LinkMsg) : State :=
  s.request n m (fun p s =>
    let u := m.payload.drop 16
    if (s.part p).members.any (fun x => decide (x.1 = m.src.toNat)) then
      s.modPart p (fun v => { v with spanChanges := v.spanChanges ++
        [(BitVec.ofNat 64 (bytesAt u 8 4), BitVec.ofNat 64 (bytesAt u 0 4), BitVec.ofNat 64 (bytesAt u 4 2), BitVec.ofNat 3 (bytesAt u 6 1),
          BitVec.ofNat 8 (bytesAt u 7 1), decide (bytesAt u 12 1 % 2 = 1))] })
    else s)

/-- DEBUG_PAUSE: this member enters debug pause at the common slip limit (R494). -/
def State.pauseAnnounced (s : State) (n : Nat) (m : LinkMsg) : State :=
  s.request n m (fun p s =>
    if (s.part p).members.any (fun x => decide (x.1 = m.src.toNat)) then s.modPart p (fun v => { v with pausePending := true }) else s)

/-- The overrun notice of a member, or its done report (R100): all members slip, and the stamp of the last report sets the changeover. A member
that paused because of another's halt goes on with the report that ends the pause (R494, R495). -/
def State.doneReported (s : State) (n : Nat) (m : LinkMsg) : State :=
  s.notice n (fun p s =>
    let u := m.payload.drop 16
    if !(s.part p).members.any (fun x => decide (x.1 = m.src.toNat)) then s
    else if bytesAt u 0 1 = 0 then
      if (s.part p).stage = .play ∧ s.phase p = 1 then s.setPhase p 3 else s
    else
      let s := s.modPart p (fun v => { v with doneStamps := Sparse.nput v.doneStamps m.src.toNat (BitVec.ofNat 64 (bytesAt u 8 8)) })
      if s.phase p = 5 ∧ ¬s.anyHalted p then s.leavePause p else s)

/-! Commands of a HEADLESS partition (R406) -/

/-- COMMAND: one command for the HEADLESS partition of the quad. -/
def State.commandMsg (s : State) (n : Nat) (m : LinkMsg) (found : TestFindings) : State :=
  s.request n m (fun p s =>
    if s.flag .ptRegions p 0 16 ∧ s.quadRole n = roleFabric then s.mailCommand (.mgmt p n m.src m.xid) ((m.payload.drop 16).take 64) found
    else s.cannotServe n m)

/-- COMPLETION: the device sends no COMMAND, so no exchange of its own is paired with one (R360). -/
def State.completionMsg (s : State) (_n : Nat) (_m : LinkMsg) : State := s

/-! Every message -/

/-- The findings of a test that finds nothing. -/
def noFindings : TestFindings :=
  { cells := [], dies := [], hosts := [], stackBonds := [], engineBonds := [], links := [], fieldCrossing := false, spares := [] }

/-- A MGMT message by its KIND (R360): one of an unlisted KIND is answered BAD_ARGUMENT. -/
def State.mgmtArrives (s : State) (n : Nat) (m : LinkMsg) : State :=
  match (m.payload.headD 0).toNat with
  | 0x01 => s.commandMsg n m noFindings
  | 0x02 => s.completionMsg n m
  | 0x03 => s.spanConfirmed n m
  | 0x04 => s.spanFailed n m
  | 0x05 => s.spanAborted n m
  | 0x06 => s.spanChanged n m
  | 0x07 => s.pauseAnnounced n m
  | 0x08 => s.migrateAsked n m
  | 0x09 => s.migrateAdmitted n m
  | 0x0A => s.migrateFinished n m
  | _ => s.refuseMsg n m .badArgument

/-- A message that has come whole over a quad (Table 13.6a): one with a reserved OP is answered with ERR. -/
def State.messageArrives (s : State) (n : Nat) (m : LinkMsg) : State :=
  match m.op.toNat with
  | 0x01 | 0x03 => s.poolAsked n m
  | 0x02 => s.poolReadAnswer n m
  | 0x04 => s.poolWriteAnswer n m
  | 0x05 => s.sendMsg n m
  | 0x06 => s.sackMsg n m
  | 0x07 => s.copyArrives n m
  | 0x08 => s.copyAnswered n m
  | 0x09 => s.mgmtArrives n m
  | 0x0A => s.e2eArrives n m
  | 0x0B => s.errMsg n m
  | _ => s.cannotServe n m

end Sys2Proof.Machine
end

