-- ==== Sys2Proof/Machine/OpticalCommands.lean ====
section
/-! DEFINITION. The optical ports (chapter 13): flits received and sent, knocks, clock synchronisation, training, and the messages of Table 13.6a. -/

namespace Sys2Proof.Machine

/-! Flits (R351 to R357) -/

/-- A flit that fails its CRC (R352, R353): counted, and for a DATA flit a replay is asked for. Whether its codeword was uncorrectable, which
OL_FEC_UNCORR counts, is free. -/
def State.badFlit (s : State) (n : Nat) (f : Flit) : State :=
  let (w, s) := s.draw
  let s := (s.bump .olCrcErr n).bump .olFecUncorr n 0 (w.toNat % 2)
  if f.type = .data then s.askReplay n else s

/-- A DATA flit that has come intact: the one expected is accepted and the messages it completes take effect; any other is discarded. -/
def State.dataFlit (s : State) (n : Nat) (f : Flit) : State :=
  if s.fencedQuad n f then s
  else if f.seq ≠ (s.quad n).expected then s.askReplay n
  else
    let (s, ms) := s.acceptFlit n f
    ms.foldl (fun s m => s.messageArrives n m) s

/-- FLIT_RECEIPT (R352, R353, R355). -/
def execFlitReceipt (quad : Nat) (f : Flit) (s : State) : Answered :=
  .next (if !s.quadIsUp quad then s
    else if !flitGood f then s.badFlit quad f
    else
      let s := s.takeAck quad f
      (if f.type = .data then s.dataFlit quad f else s).drainQuad quad)

/-- RETRY_REQ (R353, R354). -/
def execRetryReq (quad : Nat) (ack : BitVec 16) (s : State) : Answered :=
  .next (if !s.quadIsUp quad then s
    else
      let s := s.modQuad quad (fun v =>
        let left := afterAck ack v.replay
        { v with replay := left, failedReplays := if left.length < v.replay.length then 0 else v.failedReplays })
      (s.replayFlits quad).drainQuad quad)

/-- FLIT_REPLAY_TIMEOUT (R353): ACK has not advanced for 4 µs. -/
def execFlitReplayTimeout (quad : Nat) (s : State) : Answered := .next (if s.quadIsUp quad then s.replayFlits quad else s)

/-! States of a quad (R372) -/

/-- The laser input of a quad is lost or back: OL_LASER, and LASER_LOW of the two quads that it feeds (Tables 13.1, 13.8, 13.10). -/
def State.setLaser (s : State) (n : Nat) (low : Bool) : State :=
  let s := s.setFlag .olLaser (n / 4) 0 (n % 4 / 2) low
  [n / 2 * 2, n / 2 * 2 + 1].foldl (fun s k => s.setFlag .olQstatus k 0 1 low) s

/-- QUAD_DOWN (R354, R365, R372): a lost laser input takes both of its quads down. -/
def execQuadDown (quad : Nat) (cause : DownCause) (s : State) : Answered :=
  .next (if 224 ≤ quad then s
    else match cause with
      | .signal => (s.setFlag .olQstatus quad 0 2 true).quadDown quad
      | .laser => ((s.setLaser quad true).quadDown (quad / 2 * 2)).quadDown (quad / 2 * 2 + 1)
      | .replays =>
        if s.quadIsUp quad then
          (s.event7F .error (s.quadOwner quad) (engineSquare (quadEngine quad)) .olQstatus quad).quadDown quad
        else s
      | .knocks => s.quadDown quad)

/-! Training (R370, R371) -/

/-- A stamp of a tick, in 1/256 tick (R368). -/
def stampOf (t : Word) : Word := t <<< 8

/-- LANE_LOCK: steps 1 to 4 of R370 are done. -/
def execLaneLock (quad : Nat) (s : State) : Answered :=
  .next (if s.quadState quad = quadTraining then
      ((s.setLaser quad false).setFlag .olQstatus quad 0 2 false).modQuad quad (fun v => { v with locked := true })
    else s)

/-- The HELLO payload of a quad (Table 13.6d). -/
def State.helloPayload (s : State) (n : Nat) : List Byte :=
  let v := s.quad n
  let now := stampOf (s.now (engineSquare (quadEngine n)))
  [1, BitVec.ofNat 8 (s.quadRole n), BitVec.ofNat 8 n, BitVec.ofNat 8 ((s.quadOwner n).getD 0)] ++
  leBytes 2 128 ++ leBytes 2 128 ++ leBytes 2 256 ++ leBytes 2 32 ++ leBytes 8 now.toNat ++ leBytes 8 v.lastHelloStamp.toNat ++
  leBytes 8 (if v.hellos = 0 then 0 else (now - v.lastHelloArrival).toNat)

/-- HELLO_SEND: every 10 µs until two valid HELLOs have come. -/
def execHelloSend (quad : Nat) (s : State) : Answered :=
  .next (if s.quadState quad = quadTraining ∧ (s.quad quad).locked = true ∧ (s.quad quad).hellos < 2 then
      s.sendFlit quad (s.controlFlit quad .hello (s.helloPayload quad))
    else s)

/-- Step 6 of R370: the roles match, the partner is not this module, and a DIRECT partner has an ID. -/
def State.partnerFits (s : State) (n : Nat) : Bool :=
  let role := s.quadRole n
  decide ((s.quad n).partnerRole.toNat = role) && (decide (role = rolePool) || decide (s.partnerOf n ≠ s.moduleId)) &&
  !(decide (role = roleDirect) && decide (s.partnerOf n = 0x1FFF))

/-- A valid HELLO (R371): the partner, its credits and its stamp; OL_RTT from the echo of this side's own. -/
def State.takeHello (s : State) (n : Nat) (f : Flit) (arrival : Word) : State :=
  let d := f.payload
  let echo : Word := BitVec.ofNat 64 (bytesAt d 20 8)
  let hold : Word := BitVec.ofNat 64 (bytesAt d 28 8)
  let s := ((s.setField .olQstatus n 0 51 13 f.srcId.toNat).setField .olQstatus n 0 43 8 (bytesAt d 2 1)).setField .olQstatus n 0 40 3 (bytesAt d 3 1)
  let s := if echo = 0 then s else s.setReg .olRtt n 0 (BitVec.ofNat 64 ((arrival - echo - hold).toNat % 2 ^ 24))
  s.modQuad n (fun v => { v with
    hellos := v.hellos + 1, partnerRole := BitVec.ofNat 2 (bytesAt d 1 1), lastHelloStamp := BitVec.ofNat 64 (bytesAt d 12 8), lastHelloArrival := arrival
    credits := (List.range 4).foldl (fun m k => Sparse.nset 0 m k (BitVec.ofNat 16 (bytesAt d (4 + 2 * k) 2))) v.credits })

/-- HELLO: of two valid ones, the second ends step 5. A partner that does not fit leaves step 6 unfinished until the attempt's 50 ms end. -/
def execHello (quad : Nat) (f : Flit) (arrival : Word) (s : State) : Answered :=
  .next (if s.quadState quad ≠ quadTraining ∨ (s.quad quad).locked = false then s
    else if !flitGood f then s.bump .olCrcErr quad
    else if bytesAt f.payload 0 1 ≠ 1 then s
    else
      let s := s.takeHello quad f arrival
      if 2 ≤ (s.quad quad).hellos ∧ s.partnerFits quad = true then s.bringUp quad else s)

/-- TRAINING_ATTEMPT_TIMEOUT (R370, R372). -/
def execTrainingAttemptTimeout (quad : Nat) (s : State) : Answered :=
  .next (if s.quadState quad = quadTraining then s.failAttempt quad else s)

/-- BACKGROUND_ATTEMPT (R372). -/
def execBackgroundAttempt (quad : Nat) (s : State) : Answered :=
  .next (if s.quadState quad = quadVacant ∧ s.mayTrain quad = true then s.startTraining quad else s)

/-- FEC_RETRAIN (R374): the symbols corrected in one second. -/
def execFecRetrain (quad : Nat) (corrected : BitVec 32) (s : State) : Answered :=
  let s := s.bump .olFecCorr quad 0 corrected.toNat
  .next (if 1000000 < corrected.toNat ∧ s.quadIsUp quad = true then s.retrainQuad quad else s)

/-! Knocks (R364 to R366) -/

/-- Bits 0 and 1 of a knock's REF byte (R364, Table 13.6b): REF_UP, REF_LOST. -/
def State.refBits (s : State) : Nat := (if s.up then 1 else 0) + (if s.flag .refStatus 0 0 3 then 2 else 0)

/-- KNOCK_SEND (R364): hardware of the optical square sends it whether or not the Referee is up. -/
def execKnockSend (quad : Nat) (s : State) : Answered :=
  .next (if !s.quadIsUp quad then s
    else
      let sync := if s.flag .olSyncStatus 0 0 0 then 4 else 0
      let parts := s.formedParts.foldl (fun n p => n + 2 ^ p) 0
      let payload := leBytes 4 (s.quad quad).knockCount.toNat ++ [BitVec.ofNat 8 (s.refBits + sync), BitVec.ofNat 8 parts, 0, 0] ++
        leBytes 8 (s.now (engineSquare (quadEngine quad))).toNat
      ((s.sendFlit quad (s.controlFlit quad .knock payload)).modQuad quad (fun v => { v with knockCount := v.knockCount + 1 })).drainQuad quad)

/-- A DIRECT partner is silent or has lost its Referee (R365, R421): it is fenced, with a SAFETY record (R412). -/
def State.fenceSilent (s : State) (n : Nat) (m : BitVec 13) : State :=
  if m ∈ s.fencedModules then s else (s.fencePeer m).peerSafety n m

/-- KNOCK: a valid knock ends the misses and opens a new window. -/
def execKnock (quad : Nat) (f : Flit) (s : State) : Answered :=
  .next (if !s.quadIsUp quad then s
    else if !flitGood f then s.bump .olCrcErr quad
    else
      let lost := bitAt (f.payload.getD 4 0) 1
      let s := (s.takeAck quad f).modQuad quad (fun v => { v with windowOpen := true, misses := 0, peerLost := lost })
      let s := if lost ∧ s.quadRole quad = roleDirect then s.fenceSilent quad (s.partnerOf quad) else s
      s.drainQuad quad)

/-- No quad to a DIRECT partner has delivered a valid knock for three windows (R365). -/
def State.peerSilent (s : State) (m : BitVec 13) : Bool :=
  (List.range 224).all (fun n =>
    !(decide (s.quadRole n = roleDirect ∧ s.partnerOf n = m) && (s.quadIsUp n || (s.quad n).windowOpen) && decide ((s.quad n).misses < 3)))

/-- KNOCK_WINDOW_EXPIRY (R365): a window closes with no valid knock, and the next one begins, also while the quad is no longer UP: its peer is
judged by the quads that led to it. -/
def execKnockWindowExpiry (quad : Nat) (s : State) : Answered :=
  let v := s.quad quad
  .next (if v.windowOpen = false then s
    else
      let s := (s.bump .olKnockMiss quad).modQuad quad (fun v => { v with misses := v.misses + 1 })
      if v.misses + 1 < 3 then s
      else
        let m := s.partnerOf quad
        let s := if s.quadRole quad = roleDirect ∧ s.peerSilent m = true then s.fenceSilent quad m else s
        if s.flag .olQstatus quad 0 2 then s else s.quadDown quad)

/-- E2E_KNOCK_SEND (R366). -/
def execE2eKnockSend (module : BitVec 13) (s : State) : Answered :=
  .next (if !s.up ∨ !s.exchangeOpen module then s
    else match s.formedParts.findSome? (fun p => (s.quadTo p module).map (fun q => (p, q))) with
      | none => s
      | some (p, q) =>
        let payload := leBytes 4 (s.quad q).knockCount.toNat ++ [BitVec.ofNat 8 s.refBits, 0, 0, 0] ++ leBytes 8 s.now.toNat
        s.pushMsg q { op := 0x0A, status := 0, dst := module, src := s.moduleId, srcPart := BitVec.ofNat 3 p, dstPart := 0, xid := 0, seq := 0,
                      lines := 0, epoch := 0, turn := 0, rctr := 0, addr := 0, payload := payload })

/-- E2E_KNOCK_MISS (R366): the third in a row ends the exchange and fences the peer. Tolerabor judges it. -/
def execE2eKnockMiss (module : BitVec 13) (s : State) : Answered :=
  .next (if !s.up ∨ !s.exchangeOpen module then s
    else
      let n := Sparse.nget 0 s.e2eMisses module.toNat + 1
      if n < 3 then { s with e2eMisses := Sparse.nput s.e2eMisses module.toNat n }
      else (s.endExchanges module).safetyAt none 0 .ptPeer 0 0 module.toNat)

/-! Clock synchronisation (R367 to R369) -/

/-- Quads that carry clock sync: UP, DIRECT or FABRIC. -/
def State.syncQuads (s : State) : List Nat :=
  (List.range 224).filter (fun n => s.quadIsUp n && decide (s.quadRole n = roleDirect ∨ s.quadRole n = roleFabric))

/-- A CSYNC payload (R368). -/
def State.csyncPayload (s : State) (kind : Nat) (t1 t2 t3 : Word) : List Byte :=
  [BitVec.ofNat 8 kind, BitVec.ofNat 8 (s.field .olSyncStatus 0 0 16 8)] ++ leBytes 2 (s.field .olSyncStatus 0 0 32 13) ++
  leBytes 8 t1.toNat ++ leBytes 8 t2.toNat ++ leBytes 8 t3.toNat ++ leBytes 8 0

/-- CSYNC_REQUEST: REQ to the parent, stamped T1. A module that has no parent yet sends it on every quad that carries clock sync, since R367 has
every module announce. -/
def execCsyncRequest (s : State) : Answered :=
  let parent := s.field .olSyncStatus 0 0 24 8
  let t1 := stampOf s.now
  let to_ := if parent = 0xFF then s.syncQuads else if s.quadIsUp parent then [parent] else []
  .next (to_.foldl (fun s n => s.sendFlit n (s.controlFlit n .csync (s.csyncPayload 0 t1 0 0))) { s with clock := { s.clock with csyncT1 := t1 } })

/-- The better of two announcements: the lower root ID, then the fewer hops, then the lower quad (R367). -/
def betterRoot (a b : Nat × BitVec 16 × BitVec 8) : Nat × BitVec 16 × BitVec 8 :=
  if b.2.1.toNat < a.2.1.toNat ∨ (b.2.1 = a.2.1 ∧ (b.2.2.toNat < a.2.2.toNat ∨ (b.2.2 = a.2.2 ∧ b.1 < a.1))) then b else a

/-- Choose the root and the parent from what the quads announce (R367). A module that hears its own ID as a root, from those that take it for one, is
the root (DEDUCED, log 40). -/
def State.electRoot (s : State) : State :=
  let own := s.moduleId.toNat
  let heard := s.clock.announce.filter (fun x => decide (x.1 ∈ s.syncQuads))
  let best := match heard with
    | [] => none
    | a :: l =>
      let b := l.foldl betterRoot a
      if own ≤ b.2.1.toNat then none else some b
  match best with
  | none =>
    (((s.setField .olSyncStatus 0 0 32 13 own).setField .olSyncStatus 0 0 24 8 0xFF).setField .olSyncStatus 0 0 16 8 0).setFlag .olSyncStatus 0 0 1 true
  | some (n, root, hops) =>
    (((s.setField .olSyncStatus 0 0 32 13 root.toNat).setField .olSyncStatus 0 0 24 8 n).setField .olSyncStatus 0 0 16 8 (hops.toNat + 1)).setFlag
      .olSyncStatus 0 0 1 false

/-- The median of a list of offsets: the mean of the middle two of an even number. -/
def median (l : List Int) : Int :=
  let l := l.mergeSort (fun a b => decide (a ≤ b))
  let n := l.length
  if n % 2 = 1 then l.getD (n / 2) 0 else (l.getD (n / 2 - 1) 0 + l.getD (n / 2) 0) / 2

/-- Ticks of an offset in 1/256 tick, to the nearest. -/
def ticksOf (x : Int) : Int := (x + 128) / 256

/-- Apply the filtered offset (R98, R368): through GC_SET before Ready, through GC_SLEW after it. -/
def State.applyOffset (s : State) (x : Int) : State :=
  let s := s.setReg .olSyncOffset 0 0 (BitVec.ofNat 64 (BitVec.ofInt 32 x).toNat)
  if !s.up then s
  else if s.ready then s.setSlew (BitVec.ofInt 32 (ticksOf x)) else s.setClock (s.now + BitVec.ofInt 64 (ticksOf x))

/-- LOCKED after eight consecutive offsets within ±20 ns, lost by one outside ±50 ns (R369). -/
def State.judgeOffset (s : State) (x : Int) : State :=
  let inside := decide (-512 ≤ x ∧ x ≤ 512)
  let outside := decide (x < -1280 ∨ 1280 < x)
  let locked := s.flag .olSyncStatus 0 0 0
  let good := if inside then s.clock.goodOffsets + 1 else 0
  let s := { s with clock := { s.clock with goodOffsets := good } }.setFlag .olSyncStatus 0 0 2 (!inside)
  if outside then
    let s := s.setFlag .olSyncStatus 0 0 0 false
    if locked then s.event7F .warning none 0 .olSyncStatus else s
  else if 8 ≤ good then s.setFlag .olSyncStatus 0 0 0 true
  else s

/-- A RESP of the parent: its offset joins the last eight, whose median is applied. -/
def State.takeOffset (s : State) (d : List Byte) (t4 : Word) : State :=
  let w (i : Nat) : Word := BitVec.ofNat 64 (bytesAt d i 8)
  if w 4 ≠ s.clock.csyncT1 then s
  else
    let x := ((w 12 - w 4).toInt - (t4 - w 20).toInt - (w 28).toInt) / 2
    let l := (s.clock.syncOffsets ++ [x]).drop (s.clock.syncOffsets.length + 1 - 8)
    ({ s with clock := { s.clock with syncOffsets := l } }.judgeOffset x).applyOffset (median l)

/-- CSYNC: what it announces is taken; a REQ is answered, a RESP of the parent gives an offset. -/
def execCsync (quad : Nat) (f : Flit) (arrival : Word) (s : State) : Answered :=
  let d := f.payload
  .next (if quad ∉ s.syncQuads then s
    else if !flitGood f then s.bump .olCrcErr quad
    else
      let s := s.takeAck quad f
      let heard := (quad, BitVec.ofNat 16 (bytesAt d 2 2), BitVec.ofNat 8 (bytesAt d 1 1))
      let kept := s.clock.announce.filter (fun x => decide (x.1 ≠ quad))
      let s := ({ s with clock := { s.clock with announce := kept ++ [heard] } } : State).electRoot
      let s := if bytesAt d 0 1 = 0 then
          s.sendFlit quad (s.controlFlit quad .csync (s.csyncPayload 1 (BitVec.ofNat 64 (bytesAt d 4 8)) arrival (stampOf s.now)))
        else if s.field .olSyncStatus 0 0 24 8 = quad then s.takeOffset d arrival
        else s
      s.drainQuad quad)

/-! Messages, one row each (R358 to R366) -/

def execPrd (quad : Nat) (m : LinkMsg) (s : State) : Answered := .next (s.poolAsked quad m)
def execPdata (quad : Nat) (m : LinkMsg) (s : State) : Answered := .next (s.poolReadAnswer quad m)
def execPwr (quad : Nat) (m : LinkMsg) (s : State) : Answered := .next (s.poolAsked quad m)
def execPwack (quad : Nat) (m : LinkMsg) (s : State) : Answered := .next (s.poolWriteAnswer quad m)
def execOpticalSend (quad : Nat) (m : LinkMsg) (s : State) : Answered := .next (s.sendMsg quad m)
def execOpticalSack (quad : Nat) (m : LinkMsg) (s : State) : Answered := .next (s.sackMsg quad m)
def execCopy (quad : Nat) (m : LinkMsg) (s : State) : Answered := .next (s.copyArrives quad m)
def execCack (quad : Nat) (m : LinkMsg) (s : State) : Answered := .next (s.copyAnswered quad m)
def execErr (quad : Nat) (m : LinkMsg) (s : State) : Answered := .next (s.errMsg quad m)
def execE2eKnock (quad : Nat) (m : LinkMsg) (s : State) : Answered := .next (s.e2eArrives quad m)
def execPoolLineTimeout (xid : BitVec 16) (seq : BitVec 16) (s : State) : Answered := .next (s.poolTimeout xid seq)
def execCommand (quad : Nat) (m : LinkMsg) (found : TestFindings) (s : State) : Answered := .next (s.commandMsg quad m found)
def execCompletion (quad : Nat) (m : LinkMsg) (s : State) : Answered := .next (s.completionMsg quad m)
def execSpanConfirm (quad : Nat) (m : LinkMsg) (s : State) : Answered := .next (s.spanConfirmed quad m)
def execSpanConfirmTimeout (part : Nat) (s : State) : Answered := .next (s.spanTimeout part)
def execSpanLoadFail (quad : Nat) (m : LinkMsg) (s : State) : Answered := .next (s.spanFailed quad m)
def execSpanAbort (quad : Nat) (m : LinkMsg) (s : State) : Answered := .next (s.spanAborted quad m)
def execSpanChange (quad : Nat) (m : LinkMsg) (s : State) : Answered := .next (s.spanChanged quad m)
def execDebugPause (quad : Nat) (m : LinkMsg) (s : State) : Answered := .next (s.pauseAnnounced quad m)
def execMigrateReq (quad : Nat) (m : LinkMsg) (s : State) : Answered := .next (s.migrateAsked quad m)
def execMigrateAdmit (quad : Nat) (m : LinkMsg) (s : State) : Answered := .next (s.migrateAdmitted quad m)
def execMigrateDone (quad : Nat) (m : LinkMsg) (s : State) : Answered := .next (s.migrateFinished quad m)
def execDoneReport (quad : Nat) (m : LinkMsg) (s : State) : Answered := .next (s.doneReported quad m)

end Sys2Proof.Machine
end

