-- ==== Sys2Proof/Machine/Power.lean ====
section
/-! DEFINITION. Power delivery and cooling (chapter 17): the voltage loop, power measurement, supply faults, thermal throttling and the thermal
trip, and the cooling watch (R412, R413, R453 to R468). -/

namespace Sys2Proof.Machine

/-! The voltage loop (R457 to R459) -/

/-- The step whose VSTEP voltage is the floor of a partition's regions: the faster one that the latched TN_STEP asks for, or else the one in effect
(R458, R459). -/
def State.floorStep (s : State) (p : Nat) : Nat :=
  let asked := max (bitsAt (s.latchedReg .tnStep p) 0 3) Config.variant.fusedStep
  if asked < s.stepNow p then asked else s.stepNow p

/-- The floor of a region in mV. -/
def State.loopFloor (s : State) (r : Nat) : Nat :=
  match s.regionOwner r with
  | some p => (s.vstep r (s.floorStep p)).getD 550
  | none => 550

/-- The setpoint after one loop, in half millivolts (Table 17.2, R459): the action for the code, 5 mV toward a floor that lies above, and the range
of Table 17.1. -/
def loopSet (set code floor : Nat) : Nat :=
  let act := if code ≤ 3 then set + 40 else if code ≤ 11 then set + 10 else if code ≤ 20 then set
    else if floor ≤ set then max (set - 5) floor else set
  let raised := if set < floor then max act (min floor (set + 10)) else act
  max 1100 (min 1800 raised)

/-- The VH setpoint of a host die after one loop, in half millivolts: the action of Table 17.2 within 0.60 V to 1.05 V (R457, Table 17.1). -/
def hostSet (set code : Nat) : Nat :=
  max 1200 (min 2100 (if code ≤ 3 then set + 40 else if code ≤ 11 then set + 10 else if code ≤ 20 then set else set - 5))

/-- VOLTAGE_LOOP: the minimum code of a region over its sensors, that of the host die whose VH rail the region has, and the current its VC
regulator reads back. -/
def execVoltageLoop (region : Nat) (minCode hostCode : BitVec 8) (current : BitVec 16) (s : State) : Answered :=
  let r := region
  let old := 2 * s.field .pwRgnStatus r 0 16 16 + (if r ∈ s.power.halfMv then 1 else 0)
  let new := loopSet old minCode.toNat (2 * s.loopFloor r)
  let ceiling := decide (old = 1800 ∧ minCode.toNat < 12)
  .next (if 16 ≤ r then s
    else
      let began := ceiling && !s.flag .pwRgnStatus r 0 4
      let s := { s with power := { s.power with
        current := Sparse.nset 0 s.power.current r current
        vhSet := (regionHosts r).foldl (fun l h => Sparse.nset 0 l h (hostSet (Sparse.nget 0 l h) hostCode.toNat)) s.power.vhSet
        halfMv := if new % 2 = 1 then Sparse.insertNat s.power.halfMv r else s.power.halfMv.filter (fun x => decide (x ≠ r)) } }
      let s := ((s.setField .pwRgnStatus r 0 16 16 (new / 2)).setField .pwRgnStatus r 0 32 8 minCode.toNat).setFlag .pwRgnStatus r 0 4 ceiling
      let s := s.setMargins r
      if !began then s
      else
        let s := s.event7F .warning (s.regionOwner r) 240 .pwRgnStatus r
        match s.regionOwner r with
        | some p => s.modPart p (fun v => { v with stepDrops := v.stepDrops + 1 })
        | none => s)

/-! Power (R460 to R462) -/

/-- A host die is held down one step of 400 MHz, not below 0.8 GHz (R329, R462, R464). -/
def State.slowHost (s : State) (h : Nat) : State :=
  let c := max 8 (s.field .hdClk h 0 0 6 - 4)
  let s := { s with power := { s.power with hostClockCap := Sparse.nset 34 s.power.hostClockCap h (BitVec.ofNat 6 c) } }
  if s.field .hdClk h 0 0 6 ≤ 8 then s else s.setReg .hdClk h 0 (BitVec.ofNat 64 c)

/-- A host die's own sensors read 95.0 °C or above: they stand above its two squares. -/
def State.hostHot (s : State) (h : Nat) : Bool :=
  decide (1520 ≤ s.aboveTemp (hostSquare h) ∨ 1520 ≤ s.aboveTemp (hostSquare h + 1))

/-- The partition of a host die draws more than its budget in the last millisecond (R462: the response comes within 1 ms of an excess; DESIGN
CHOICE, log 82: an excess is read on the 1 ms average). -/
def State.hostExcess (s : State) (h : Nat) : Bool :=
  match s.hostOwner h with
  | some p => decide (s.field .pwPartBudget p 0 0 16 < s.field .pwPartPower p 0 0 32)
  | none => false

/-- The response of the host clocks, once a millisecond: down while there is cause, free again when none is left. -/
def State.hostResponse (s : State) : State :=
  let s := (List.range 8).foldl (fun s h =>
    if s.hostExcess h || s.hostHot h then s.slowHost h
    else if s.power.throttled.any (fun x => decide (x.1 = 100 + h)) then s
    else { s with power := { s.power with hostClockCap := Sparse.ndrop s.power.hostClockCap h } }) s
  s.setFlag .pwStatus 0 0 5 (decide (s.power.hostClockCap ≠ []))

/-- POWER_MEASUREMENT: module power over 1 ms and 100 ms, that of each partition, and the readings of each region. -/
def execPowerMeasurement (module : BitVec 32) (parts : List (Nat × BitVec 32 × BitVec 32)) (module100 : BitVec 32)
    (regions : List (Nat × BitVec 48)) (s : State) : Answered :=
  .next (if !s.up then s
    else
      let s := s.setReg .pwModule 0 0 (module100 ++ module)
      let s := parts.foldl (fun s (p, now, avg) => if p < 8 then s.setReg .pwPartPower p 0 (avg ++ now) else s) s
      let s := regions.foldl (fun s (r, v) => if r < 16 then s.setReg .pwRgnRead r 0 (v.setWidth 64) else s) s
      let s := if s.formedParts.any (fun p => s.overBudget p) then s else s.setFlag .pwStatus 0 0 2 false
      s.hostResponse)

/-! Supply faults (R412, R413, R453) -/

/-- A rail of a region comes into its window at a tick, or leaves it. -/
def Power.rail (w : Power) (r : Nat) (isC : Bool) (present : Option Word) : Power :=
  if isC then w.railC r present
  else { w with railsIn := if present.isSome then Sparse.insertNat w.railsIn r else w.railsIn.filter (fun x => decide (x ≠ r)) }

/-- They open where both supplies of the region are in their windows (R407). -/
def Power.reopen (w : Power) (r : Nat) : Power :=
  if r ∈ w.railsIn ∧ r ∈ w.railsCIn then { w with clampsOpen := Sparse.insertNat w.clampsOpen r } else w

/-- SUPPLY_OUT_OF_WINDOW: a rail of a region. -/
def execSupplyOutOfWindow (region : Nat) (isC : Bool) (s : State) : Answered :=
  .next (if 16 ≤ region then s
    else
      let owner := s.regionOwner region
      let s := ({ s with power := (s.power.rail region isC none).close region } : State).setFlag .pwRgnStatus region 0 2 true
      (s.holdRegion region causeSupply).safetyAt owner 0 .pwRgnStatus region 0 region)

/-- SUPPLY_IN_WINDOW (R437, R515): a rail whose enable is high. What is held stays held (R413); the clamps open once the region is back in its
supply window (R407). -/
def execSupplyInWindow (region : Nat) (isC : Bool) (s : State) : Answered :=
  .next (if 16 ≤ region ∨ region ∉ (if isC then s.pins.enC else s.pins.enA) then s
    else { s with power := (s.power.rail region isC (some s.now)).reopen region })

/-- REGION_OVERCURRENT. -/
def execRegionOvercurrent (region : Nat) (s : State) : Answered :=
  .next (if 16 ≤ region then s
    else
      let owner := s.regionOwner region
      let s := (s.setFlag .pwRgnStatus region 0 3 true).bump .pwOcEvents region
      (s.holdRegion region causeOvercurrent).safetyAt owner 0 .pwOcEvents region 0 region)

/-! Temperature (R464, R465) -/

/-- Who throttles for a sensor (R464): a host die for its own, the partition for a panel, compute-die or stack sensor, and otherwise the region,
for which only the event is recorded. above says that the sensor is that of the part above the square. -/
def State.heatOwner (s : State) (q : Nat) (above : Bool) : Nat :=
  match squareKind q, above with
  | .host h, true => 100 + h
  | .optical _, true => 200 + squareRegion q
  | _, _ => match s.owner q with
    | some p => p
    | none => 200 + squareRegion q

/-- A reading of an owner: 95.0 °C begins an episode, and 92.0 °C keeps one open. -/
def State.heat (s : State) (q owner : Nat) (t : Int) : State :=
  let open_ := s.power.throttled.any (fun x => decide (x.1 = owner))
  if t < 1472 ∨ (t < 1520 ∧ !open_) then s
  else
    let s := { s with power := { s.power with throttled := Sparse.nput s.power.throttled owner s.now } }
    if open_ then s else (s.bump .thThrottles).event7F .warning (s.owner q) q .thMax q

/-- Episodes end when every sensor of the owner has read below 92.0 °C for 100 ms. -/
def State.coolDown (s : State) : State :=
  { s with power := { s.power with throttled := s.power.throttled.filter (fun x => decide (s.now.toNat < x.2.toNat + 10000000)) } }

/-- The kind of the part above a square, in the codes of TH_HOT. -/
def heatKind (q : Nat) : Nat :=
  match squareKind q with
  | .site _ => 1
  | .host _ => 2
  | .dram _ => 3
  | .optical _ => 4
  | _ => 0

/-- The hottest junction of all squares: kind, square and reading, the lowest square first (Table 17.6). -/
def State.hottest (s : State) : Nat × Nat × Int :=
  (List.range 256).foldl (fun best q =>
    let best := if best.2.2 < s.panelTemp q then (0, q, s.panelTemp q) else best
    if best.2.2 < s.aboveTemp q then (heatKind q, q, s.aboveTemp q) else best) (0, 0, s.panelTemp 0)

/-- Some junction at a square reads 95.0 °C or above. -/
def State.squareHot (s : State) (q : Nat) : Bool := decide (1520 ≤ s.panelTemp q ∨ 1520 ≤ s.aboveTemp q)

/-- TH_HOT and the bits HOT and THROTTLE. -/
def State.writeHeat (s : State) (r : Nat) : State :=
  let (k, q, t) := s.hottest
  let s := s.setReg .thHot 0 0 (BitVec.ofNat 64 (k * 2 ^ 24 + q * 2 ^ 16 + (BitVec.ofInt 16 t).toNat))
  let s := s.setFlag .pwRgnStatus r 0 1 ((regionSquares r).any s.squareHot)
  s.setFlag .pwStatus 0 0 3 ((List.range 256).any s.squareHot)

/-- The registers of a sample at a square: the hottest panel sensor and the hottest sensor of the part above, 0x8000 where there is none. -/
def State.takeTemp (s : State) (q : Nat) (panel above : BitVec 16) : State :=
  let s := s.setReg .thTemp q 0 ((above ++ panel).setWidth 64)
  let top := max (s.panelTemp q) (s.aboveTemp q)
  if reading (s.field .thMax q 0 0 16) < top then s.setReg .thMax q 0 ((BitVec.ofInt 16 top).setWidth 64) else s

/-- A sample of the sensors of a square, and what throttling makes of it. -/
def State.sample (s : State) (q : Nat) (panel above : BitVec 16) : State :=
  let s := s.takeTemp q panel above
  let s := (s.heat q (s.heatOwner q false) (s.panelTemp q)).heat q (s.heatOwner q true) (s.aboveTemp q)
  (s.writeHeat (squareRegion q)).coolDown

/-- Some sensor reads above 90.0 °C (R466). -/
def State.tooHot (s : State) : Bool := (List.range 256).any (fun q => decide (1440 < s.panelTemp q ∨ 1440 < s.aboveTemp q))

/-- The header switches of every compute and host die open: the dies lose their power, and a host die what its caches hold. The regions are powered
down (R516). -/
def State.openSwitches (s : State) : State :=
  let s := (List.range 104).foldl (fun s i => s.modDie i (fun d =>
    { d with powered := false, inReset := true, playing := false, flights := [], check := none })) s
  let s := (List.range 8).foldl (fun s h => s.stopHost h) s
  { s.writeOcLimits with
    pins := { s.pins with enA := [], enC := [] }
    power := { s.power with railsIn := [], railsCIn := [], vhSince := [], clampsOpen := [] } }

/-- THERM_TRIP (R465, R79): PHASE becomes STOPPED at once in every partition. A freeze ends, and a flush begins (R475, R484). -/
def execThermTrip (square : Nat) (junction : BitVec 16) (s : State) : Answered :=
  .next (if junction.toInt < 1840 then s
    else
      let s := ({ s with pins := { s.pins with thermTripN := false } } : State).setFlag .pwStatus 0 0 7 true
      let s := s.openSwitches
      let s := s.hardwareSafety
        { code := 0x1580, sev := .safety, part := 0xF, source := 240, tick := s.now 240,
          payload := leBytes 2 junction.toNat ++ leBytes 1 square }
      let s := s.thaw.beginFlush
      s.formedParts.foldl (fun s p => s.stopTurns p) s)

/-! The cooling watch (R467, R468) -/

/-- The mean of the hottest readings of all squares, less the inlet, divided by module power: µK/W, rounded down, 0 where the inlet is hotter. -/
def State.coolSample (s : State) (inlet : Int) : Nat :=
  let sum := (List.range 256).foldl (fun (t : Int) q => t + max (s.panelTemp q) (s.aboveTemp q)) 0
  ((10 * sum - 4096 * inlet) * 1000000 / (40960 * (s.field .pwModule 0 0 0 32 : Nat))).toNat

/-- Take a sample: E is filtered, and the first 600 give the baseline where RTH_BASE is 0, which goes to flash. -/
def State.takeSample (s : State) (inlet : Int) : State :=
  let x := s.coolSample inlet
  let e := s.field .thRth 0 0 0 32
  let e : Nat := ((e : Int) + ((x : Int) - e) / 64).toNat
  let s := s.setField .thRth 0 0 0 32 e
  let w := s.power
  let s := if s.cooling 0x0114 ≠ 0 ∨ 600 ≤ w.coolSamples ∨ s.flash.learnt ≠ 0 then s
    else
      let s := { s with power := { w with coolSamples := w.coolSamples + 1, coolSum := w.coolSum + x } }
      if s.power.coolSamples < 600 then s
      else
        let b := s.power.coolSum / 600
        ({ s with flash := { s.flash with learnt := BitVec.ofNat 32 b } } : State).setField .thRth 0 0 32 32 b
  let base := s.field .thRth 0 0 32 32
  let exceeds := decide (base ≠ 0 ∧ base * (100 + s.cooling 0x0115) < 100 * e)
  { s with power := { s.power with overE := if exceeds then s.power.overE + 1 else 0 } }

/-- Codes of the causes of a cooling warning in a PLDM message (the model's own): thermal resistance, inlet, flow, a silent sensor. -/
def coolCauses (w : Power) : List (BitVec 8) :=
  (if 60 ≤ w.overE then [1] else []) ++ (if 10 ≤ w.overInlet then [2] else []) ++ (if 10 ≤ w.overFlow then [3] else []) ++
  (if 3 ≤ w.noInlet ∨ 3 ≤ w.noFlow then [4] else [])

/-- A PLDM message to the board controller: what it is about (0 the state of the device, 1 cooling in warning, 2 cooling normal) and its
detail. -/
def State.pldm (s : State) (kind detail : BitVec 8) : State :=
  { s with referee := { s.referee with pldmOut := s.referee.pldmOut ++ [(kind, detail)] } }

/-- A warning for a cause that has come up (R468). -/
def State.coolWarn (s : State) (cause : BitVec 8) : State :=
  (((s.setFlag .pwStatus 0 0 6 true).bump .thWarnings).event7F .warning none 0 .thWarnings).pldm 1 cause

/-- Warnings for the causes that have newly come up, and the return to normal after 60 s without any. -/
def State.judgeCooling (s : State) (before : List (BitVec 8)) : State :=
  let now := coolCauses s.power
  let s := (now.filter (fun c => decide (c ∉ before))).foldl (fun s c => s.coolWarn c) s
  let clear := if now = [] then s.power.clearFor + 1 else 0
  let s : State := { s with power := { s.power with clearFor := clear } }
  if 60 ≤ clear ∧ s.flag .pwStatus 0 0 6 = true then (s.setFlag .pwStatus 0 0 6 false).pldm 2 0 else s

/-- COOLING_READ: what the sensors named by SENSOR_ADDR answer, none for silence. A sensor with no address is not read. -/
def execCoolingRead (inlet flow : Option (BitVec 16)) (s : State) : Answered :=
  let hasInlet := decide (s.cooling 0x0116 % 256 ≠ 0)
  let hasFlow := decide (s.cooling 0x0116 / 256 ≠ 0)
  .next (if !s.up ∨ (!hasInlet ∧ !hasFlow) then s
    else
      let before := coolCauses s.power
      let w := s.power
      let w := if !hasInlet then { w with noInlet := 0, overInlet := 0 }
        else match inlet with
          | none => { w with noInlet := w.noInlet + 1 }
          | some x =>
            let out := decide (x.toInt < s.cooling 0x0111 ∨ (s.cooling 0x0112 : Int) < x.toInt)
            { w with noInlet := 0, overInlet := if out then w.overInlet + 1 else 0 }
      let w := if !hasFlow then { w with noFlow := 0, overFlow := 0 }
        else match flow with
          | none => { w with noFlow := w.noFlow + 1 }
          | some x => { w with noFlow := 0, overFlow := if x.toNat < s.cooling 0x0113 then w.overFlow + 1 else 0 }
      let s := { s with power := w }
      let s := match hasInlet, inlet with
        | true, some x => s.setField .thCoolant 0 0 0 16 x.toNat
        | _, _ => s
      let s := match hasFlow, flow with
        | true, some x => s.setField .thCoolant 0 0 16 16 x.toNat
        | _, _ => s
      let s := (s.setFlag .thCoolant 0 0 32 (decide (10 ≤ w.overInlet))).setFlag .thCoolant 0 0 33 (decide (10 ≤ w.overFlow))
      let silent := decide (3 ≤ w.noInlet ∨ 3 ≤ w.noFlow)
      let s := s.setFlag .thCoolant 0 0 34 silent
      let s := match hasInlet, inlet with
        | true, some x => if 2000 ≤ s.field .pwModule 0 0 0 32 ∧ !silent then s.takeSample x.toInt else s
        | _, _ => s
      s.judgeCooling before)

end Sys2Proof.Machine
end

