-- ==== Sys2Proof/Machine/RefereeCommands.lean ====
section
/-! DEFINITION. The Referee's own failures (R242 to R247), the clock monitors and shadow comparators (R412, R418), and the dies that Tolerabor
resets and tests on its own (R35, R442). -/

namespace Sys2Proof.Machine

/-! The boot image (R433) -/

def Flash.slot (f : Flash) (b : Bool) : Option ImageInfo := if b then f.slotB.image else f.slotA.image

/-- The boot ROM accepts an image (R433). -/
def Flash.accepts (f : Flash) (i : ImageInfo) : Bool := i.keyGood && i.signatureGood && i.digestGood && decide (f.svn.toNat ≤ i.svn.toNat)

def Flash.boots (f : Flash) (b : Bool) : Bool :=
  match f.slot b with
  | some i => f.accepts i
  | none => false

/-! Warm restarts -/

/-- Causes of a warm restart in REF_LAST_RESTART (Table 9.1). -/
def restartLockstep : Nat := 1
def restartHang : Nat := 2

/-- Three warm restarts, the last of them now, that began within 3,600 s (R247). -/
def State.thirdRestart (s : State) : Bool :=
  match s.referee.restartTicks.reverse with
  | _ :: _ :: t :: _ => decide (s.now.toNat ≤ t.toNat + 360000000000)
  | _ => false

/-- A restart interrupts the reset of a partition (R444): its dies stay held in reset until the reset runs again. -/
def State.holdReset (s : State) (p : Nat) : State :=
  match (s.part p).resetCmd with
  | none => s
  | some (c, _, _) =>
    let s := (s.stopTurns p).modPart p (fun v => { v with
      loading := if (v.loading.map (fun l => l.cmd)) = some c then none else v.loading
      zeroWaits := v.zeroWaits.filter (fun x => decide (x.1 ≠ c)) })
    (s.partSites p).foldl (fun s i => s.modDie i (fun d => { d with inReset := true, playing := false, flights := [], check := none })) s

/-- A warm restart begins (R242 to R244, R247): the cores freeze, HEARTBEAT is held low and ALERT_N asserted; the third within 3,600 s loses
the Referee, and every partition stops at its next changeover. -/
def State.startRestart (s : State) (cause : Nat) : State :=
  let s := ((s.setFlag .refStatus 0 0 1 false).setFlag .refStatus 0 0 2 true).alert
  let s := { s with
    pins := { s.pins with heartbeat := false }
    referee := { s.referee with restartTicks := s.referee.restartTicks ++ [s.now], wdogWritten := false } }
  let s := s.setReg .refLastRestart 0 0 (BitVec.ofNat 64 (cause % 16 * 2 ^ 60 + s.now.toNat % 2 ^ 60))
  let s := s.bump .refRestarts
  let s := s.formedParts.foldl (fun s p => s.holdReset p) s
  if s.thirdRestart then
    let s := (s.setFlag .refStatus 0 0 2 false).setFlag .refStatus 0 0 3 true
    s.formedParts.foldl (fun s p => s.modPart p (fun v => { v with stopNext := true })) s
  else s

/-- LOCKSTEP (R242): the record goes to the must-keep area without help from the cores. -/
def execLockstep (cycle : Word) (s : State) : Answered :=
  .next (if !s.coresRun then s
    else (s.startRestart restartLockstep).hardwareSafety
      { code := 0x1080, sev := .safety, part := 0xF, source := 0, tick := s.now, payload := leBytes 8 cycle.toNat })

/-- WATCHDOG_EXPIRY (R243). -/
def execWatchdogExpiry (s : State) : Answered :=
  .next (if !s.coresRun then s
    else (s.startRestart restartHang).hardwareSafety
      { code := 0x1081, sev := .safety, part := 0xF, source := 0, tick := s.now, payload := leBytes 8 s.referee.lastWdog.toNat })

/-- The second copies of the global registers of the Referee window (Table 15.3). -/
def globalShadowed : List (RegName × Nat) :=
  [(.refSamLo, 1), (.refSamHi, 1), (.refSamDigest, 1), (.refRsvLo, 1), (.refRsvHi, 1), (.refRetLo, 1), (.refRetHi, 1), (.refOutLo, 1), (.refOutHi, 1),
   (.refSamGen, 1), (.olModuleId, 1), (.olPoolMap, 64), (.olPoolQuads, 64)]

/-- Write the global registers again from boot flash and the device state (R418): both copies hold the value. -/
def State.rewriteGlobals (s : State) : State :=
  globalShadowed.foldl (fun s (n, k) => (List.range k).foldl (fun s j => s.setReg n 0 j (s.reg n 0 j)) s) s

/-- What waits for a changeover of a partition after the entries of a command have gone: the policy values are those of the commands that
remain. -/
def State.dropQueued (s : State) (p : Nat) (c : Cmd) : State :=
  s.modPart p (fun v =>
    let keep (q : Queued) : Bool := decide (q.cmd ≠ c)
    let queue := v.queue.filter keep
    { v with
      queue := queue, opsDue := ((v.queue.take v.opsDue).filter keep).length
      policyNext := queue.foldl (fun l q => match q.op with
        | .policySet id w => Sparse.nput l id.toNat w
        | _ => l) []
      traceNext := queue.foldl (fun t q => match q.op with
        | .debugTrace e => some (e.setWidth 2)
        | _ => t) none
      unload := if v.unload = some c then none else v.unload
      preemptCmds := v.preemptCmds.filter (fun x => decide (x ≠ c)) })

/-- A retrain that waits for a maintenance turn on account of a command is no longer asked for. -/
def State.dropRetrain (s : State) (c : Cmd) (n : Nat) : State :=
  if c ∈ (s.quad n).retrainCmds then
    s.modQuad n (fun v =>
      let l := v.retrainCmds.filter (fun x => decide (x ≠ c))
      { v with retrainCmds := l, maintWanted := v.maintWanted && decide (l ≠ []) })
  else s

/-- A command whose operation never reached the hardware has had no effect (R246): what Tolerabor still held of it is gone. -/
def State.forgetCommand (s : State) (c : Cmd) : State :=
  let s := (List.range 8).foldl (fun s p => s.dropQueued p c) s
  (List.range 224).foldl (fun s n => s.dropRetrain c n) s

/-- The journal after a warm restart (R246): the results that waited are given, and every entry whose operation never reached the hardware, or
that fails its CRC, completes with BUSY and REPLAY. -/
def State.replayJournal (s : State) : State :=
  let held := s.referee.held
  let s := { s with referee := { s.referee with held := [] } }
  let s := held.foldl (fun s (c, o, st, turn, result) =>
    s.completeNow c o ((Status.ofCode st.toNat).getD .ok) false turn result) s
  (s.referee.journal.filter (fun e => !(e.reached && e.good))).foldl (fun s e =>
    (s.forgetCommand e.cmd).completeNow e.cmd e.opcode .busy true none []) s

/-- A reset that the restart interrupted runs again from its first step (R444), where its command is still in the journal. -/
def State.rerunReset (s : State) (p : Nat) : State :=
  match (s.part p).resetCmd with
  | none => s
  | some (c, full, found) =>
    if s.referee.journal.any (fun e => decide (e.cmd = c ∧ e.opcode = 0x0202)) then s.partitionReset p c full found
    else s.modPart p (fun v => { v with resetCmd := none })

/-- WARM_RESTART_COMPLETE (R244): the boot ROM has verified the image of the running slot (R433); Tolerabor rebuilds its state, writes REF_WDOG,
numbers what hardware recorded, completes the journal and runs interrupted resets again. An image that fails keeps the device in recovery. -/
def execWarmRestartComplete (s : State) : Answered :=
  .next (if !s.flag .refStatus 0 0 2 ∨ !s.flash.boots s.referee.runningB then s
    else
      let s := (s.setFlag .refStatus 0 0 2 false).setFlag .refStatus 0 0 1 true
      let s := s.rewriteGlobals.watchdog (s.reg .refWdog)
      let s := s.releaseAlert.numberKept.drainIntake.replayJournal
      s.formedParts.foldl (fun s p => s.rerunReset p) s)

/-! Clock monitors (R412, Table 15.2) -/

/-- COMPUTE_DIE_CLOCK_LOSS: the die is fenced, the partition's turn aborts, and the partition is fenced. -/
def execComputeDieClockLoss (site : Nat) (s : State) : Answered :=
  let s := s.setFlag .sfClk (siteSquare site) 0 0 true
  .next (match s.siteOwner site with
    | some p => ((s.abortTurn p abortFence).takeOut p site causeClock).safetyAt (some p) (siteSquare site) .sfClk (siteSquare site) 0 site
    | none => (s.fenceDie site).safetyAt none (siteSquare site) .sfClk (siteSquare site) 0 site)

/-- HOST_DIE_CLOCK_LOSS: the host die is fenced; its partition goes on (R422). -/
def execHostDieClockLoss (die : Nat) (s : State) : Answered :=
  let q := hostSquare die
  .next (((s.setFlag .sfClk q 0 1 true).fenceHost die).safetyAt (s.hostOwner die) q .sfClk q 0 die)

/-! Shadow comparators (R418) -/

/-- The register at an address, if the address lies in a register window. -/
def regAtAddr (a : Nat) : Option RegKey :=
  if refereeWindow ≤ a ∧ a < refereeWindow + 0x1000000 then refereeReg ((a - refereeWindow) / 8 * 8)
  else if squareWindow 0 ≤ a ∧ a < squareWindow 256 then
    squareReg ((a - squareWindow 0) / 0x1000000) ((a - squareWindow 0) % 0x1000000 / 8 * 8)
  else none

/-- One bit of the second copy of a register changes. -/
def State.flipShadow (s : State) (k : RegKey) (bit : Nat) : State :=
  let v := Sparse.get RegKey.num k.reset s.shadow k
  { s with shadow := Sparse.set RegKey.num k.reset s.shadow k (v ^^^ BitVec.ofNat 64 (2 ^ bit)) }

/-- The register's window is a square's. -/
def RegKey.inSquare (k : RegKey) : Bool :=
  match k.name.info.window with
  | .square | .site | .stack | .host | .engine | .quad | .clock | .service => true
  | _ => false

/-- The reaction to a difference between the two copies of a register. -/
def State.shadowReaction (s : State) (k : RegKey) : State :=
  let q := k.square
  let s := if k.inSquare ∧ !s.flag .sfShadow q 0 63 then
      s.setReg .sfShadow q 0 (BitVec.ofNat 64 (2 ^ 63 + k.addr % 0x1000000))
    else s
  let record (s : State) (p : Option Nat) : State :=
    if k.inSquare then s.safetyAt p q .sfShadow q 0 q (leBytes 4 (k.addr % 0x1000000))
    else s.event7F .safety p 0 k.name k.i k.j
  match s.regOwner k with
  | some p => record ((s.abortTurn p abortFence).fencePartition p causeShadow) (some p)
  | none =>
    if k.inSquare then record { s with barred := Sparse.insertNat s.barred (squareRegion q) } none
    else
      let (w, s) := (record s none).draw
      if s.coresRun then s.startRestart (w.toNat % 16) else s

/-- SHADOW_MISMATCH: a bit of the copies of a register differs. A register with one copy has no comparator. The cause that REF_LAST_RESTART
records for a restart of R418 is not among those of Table 9.1: a free value. -/
def execShadowMismatch (addr : Addr) (bit : Nat) (s : State) : Answered :=
  .next (match regAtAddr addr.toNat with
    | some k => if k.name.info.shadowed ∧ bit < 64 then (s.flipShadow k bit).shadowReaction k else s
    | none => s)

/-! Dies that Tolerabor resets and tests on its own (R442) -/

/-- COMPUTE_DIE_RESET: a site whose partition has no book loaded. A fence stays (R424); a REF_OUT bit that a failed crossing set ends with the
calibration (R77), and one that it sets fences the partition (R422). -/
def execComputeDieReset (site : Nat) (found : TestFindings) (s : State) : Answered :=
  let d := s.die site
  let allowed := s.up && (match s.siteOwner site with
    | some p => !s.bookLoaded p
    | none => false)
  .next (if !allowed then s
    else
      let s := s.resetDie site
      let s := (if d.fenced then s else s.setSiteOut site false).calibrateDie site found
      let s := s.modDie site (fun x => { x with fenced := d.fenced, inReset := x.inReset || d.fenced || s.siteOut site })
      match s.siteOwner site with
      | some p => if s.siteOut site ∧ s.siteEnabled site then s.fencePartition p 0 else s
      | none => s)

/-- RESERVE_SELF_TEST: the die of a RESERVE site is powered, tested and switched off again; one that fails beyond repair is RETIRED at once
(R35). The SAM does not change. -/
def execReserveSelfTest (site : Nat) (failing : List (Nat × Nat)) (s : State) : Answered :=
  .next (if !s.up ∨ s.siteState site ≠ .reserve then s
    else
      let s := (s.resetDie site).selfTest site failing
      if Sparse.nfind s.flash.sitesNext site = some .retired then
        ({ s with flash := { s.flash with sitesNext := Sparse.ndrop s.flash.sitesNext site } }.setSiteState site .retired).publishSam []
      else s)

end Sys2Proof.Machine
end

