-- ==== Sys2Proof/Machine/Retrain.lean ====
section
/-! DEFINITION. Retraining while the device runs: DRAM channels, and the maintenance turns that retrains of a loaded book's resources wait for
(R448 to R450). -/

namespace Sys2Proof.Machine

/-- A channel of a stack trains now: its bit of MC_TRAIN_STATUS is set. -/
def State.trainChannel (s : State) (stack c : Nat) : State := s.setFlag .mcTrainStatus stack 0 c true

/-- No channel of the stack trains: Tolerabor retrains one at a time in each stack (R448). -/
def State.stackQuiet (s : State) (stack : Nat) : Bool := decide (s.field .mcTrainStatus stack 0 0 36 = 0)

/-- Start the retrains of a partition that wait, one in each stack that has none under way. -/
def State.startRetrains (s : State) (p : Nat) : State :=
  (s.part p).retrains.foldl (fun s (k, c) => if s.stackQuiet k then s.trainChannel k c else s) s

/-- In the play of a maintenance turn, or with no book loaded, a partition's resources are free to train (R449). -/
def State.mayRetrain (s : State) (p : Nat) : Bool :=
  !s.bookLoaded p || ((s.part p).maintTurn && decide ((s.part p).stage = .play))

/-- DRAM_RETRAIN (R448, R449): urgent for one that errors cause, which pre-empts the turn in play. -/
def execDramRetrain (stack channel : Nat) (urgent : Bool) (s : State) : Answered :=
  .next (if !s.up ∨ 48 ≤ stack ∨ 36 ≤ channel then s
    else match s.stackOwner stack with
      | none => if s.stackQuiet stack then s.trainChannel stack channel else s
      | some p =>
        let s := s.modPart p (fun v => { v with
          retrains := if (stack, channel) ∈ v.retrains then v.retrains else v.retrains ++ [(stack, channel)] })
        if s.mayRetrain p then s.startRetrains p else if urgent then s.preemptTurn p else s)

/-- DRAM_RETRAIN_COMPLETE (R440, R448): the channel group is back in service. A channel that failed three attempts has its position erased, or
its stack set DEGRADED. Channels 0 to 17 are those of group 0, by position. -/
def execDramRetrainComplete (stack channel : Nat) (good : Bool) (s : State) : Answered :=
  .next (if 48 ≤ stack ∨ 36 ≤ channel ∨ s.flag .mcTrainStatus stack 0 channel = false then s
    else
      let s := (s.setFlag .mcTrainStatus stack 0 channel false).bump .mcRetrains stack
      let s := if good then s else s.retireLayer stack (channel % 18)
      match s.stackOwner stack with
      | none => s
      | some p =>
        let s := s.modPart p (fun v => { v with retrains := v.retrains.filter (fun x => decide (x ≠ (stack, channel))) })
        if s.mayRetrain p then s.startRetrains p else s)

/-- MAINTENANCE_TURN (R449): in the play of a maintenance turn, the retrains that wait have their resources. -/
def execMaintenanceTurn (part : Nat) (s : State) : Answered :=
  .next (if !(s.part part).maintTurn ∨ (s.part part).stage ≠ .play then s
    else
      let s := s.startRetrains part
      (s.partQuads part).foldl (fun s n => if (s.quad n).maintWanted ∧ s.quadIsUp n then s.leaveUp n else s) s)

end Sys2Proof.Machine
end

