-- ==== Sys2Proof/Machine/Startup.lean ====
section
/-! DEFINITION. Start-up and the resets of the device (chapter 16): the thirteen steps of a cold start, the boot image, the hold-up check, RESET_N,
PWR_FAIL_N and VA (R428 to R440, R447, R515 to R517). -/

namespace Sys2Proof.Machine

/-! The device resets (R441, R447) -/

/-- What the device holds once it has been reset: its boot flash, the log area and the must-keep mirror, the operating seconds and power cycles, and
DRAM. The must-keep area comes from its mirror (R479). Messages already sent to the board controller stand. -/
def State.deviceReset (s : State) : State :=
  let x := s.recorder
  { pending := s.pending, flash := s.flash, fresh := s.fresh, answer := s.answer
    mem := s.mem.filter (fun c => inDram c.1)
    poison := s.poison.filter (fun b => inDram (64 * b))
    pins := { pwrFailN := s.pins.pwrFailN, resetN := s.pins.resetN }
    referee := { bmcOut := s.referee.bmcOut, pldmOut := s.referee.pldmOut }
    recorder := { log := x.log, keep := x.keepMirror, keepMirror := x.keepMirror, opsec := x.headerOpsec, pwrcyc := x.headerPwrcyc,
                  headerSeq := x.headerSeq, headerOpsec := x.headerOpsec, headerPwrcyc := x.headerPwrcyc, headerUnflushed := x.headerUnflushed } }

/-- A flush from its beginning to its end: a freeze ends first (R475, R484). -/
def State.flushNow (s : State) : State :=
  let s := s.thaw
  (if s.recorder.flushing then s else s.beginFlush).finishFlush

/-- Lines with modified bytes in general units and host system caches. -/
def State.dirtyLines (s : State) : Nat :=
  let g := (s.general.filter (fun x => decide (x.2.dirty ≠ []))).map Prod.fst
  let h := (s.hsc.filter (fun x => decide (x.2.dirty ≠ []))).map (fun x => x.1 / 16)
  (g ++ h).eraseDups.length

/-- Write back every general and HSC line (R447). -/
def State.writeBackAll (s : State) : State :=
  let s := (s.general.map Prod.fst).foldl (fun s l => s.evictGeneral l) s
  ((s.hsc.map (fun c => c.1 / 16)).eraseDups).foldl (fun s l => s.evictHostLine l) s

/-- RESET_N_ASSERT (R447): while PWR_FAIL_N is low, it has no effect (R517). -/
def execResetNAssert (s : State) : Answered :=
  .next (if !s.pins.pwrFailN ∨ !s.pins.resetN then s
    else
      let n := s.dirtyLines
      let s := s.writeBackAll.event 0x10 0x82 .notice none 0 (leBytes 8 n)
      { s.flushNow.deviceReset with pins := { resetN := false } })

/-! Power down (R430, R476, R516, R517) -/

/-- The regions are powered down: every die and host die loses its supply, partitions stop, and Tolerabor takes no more commands. -/
def State.powerDown (s : State) : State :=
  let s := s.openSwitches
  let s := s.formedParts.foldl (fun s p => s.stopTurns p) s
  let s := { s with referee := { s.referee with startup := none } }
  (s.setFlag .refStatus 0 0 1 false).setFlag .refBoot 0 0 18 false

/-- The flush of R476: it first writes the header, with the number of unflushed records noted in it, then the must-keep mirror, and then the
records. -/
def State.powerFlush (s : State) : State :=
  let s := s.thaw.beginFlush
  s.modRecorder (fun x => { x with
    keepMirror := x.keep, headerSeq := x.nextSeq - 1, headerOpsec := x.opsec, headerPwrcyc := x.pwrcyc, headerUnflushed := x.flushSeqs.length })

/-- PWR_FAIL handling: a freeze ends, the flush begins, and the regions are powered down. -/
def State.powerFail (s : State) : State := s.powerFlush.powerDown

/-- Records in descending severity, each severity in ascending SEQ as they come (R476). -/
def bySeverity (l : List Record) : List Record :=
  [6, 5, 4, 3, 2].flatMap (fun v => l.filter (fun r => decide (sevCode r.report.sev = v)))

/-- VA has failed during a flush: so many of its records are still unwritten, and are lost (R476). -/
def State.cutFlush (s : State) (lost : Nat) : State :=
  if !s.recorder.flushing then s
  else
    let l := bySeverity (s.recorder.ring.filter (fun r => decide (r.seq ∈ s.recorder.flushSeqs) && !r.flushed))
    (l.take (l.length - lost)).foldl (fun s r => s.logRecord r) s

/-- PWR_FAIL_N_ASSERT. -/
def execPwrFailNAssert (s : State) : Answered :=
  .next (if !s.pins.pwrFailN then s else ({ s with pins := { s.pins with pwrFailN := false } } : State).powerFail)

/-- VA_OUT_OF_WINDOW (Table 15.2): handled as a power failure, with the SAFETY record of R412. -/
def execVaOutOfWindow (s : State) : Answered := .next (s.event7F .safety none 0 .pwStatus).powerFail

/-! Steps 9 to 13 -/

def State.atStep (s : State) (n : Nat) : State := s.setField .refBoot 0 0 0 4 n

/-- Start-up stops, or repeats, at its step (Table 16.8). -/
def State.failStart (s : State) (cause : Nat) (again : Option ColdStartInputs) : State :=
  let s := ((s.setFlag .refBoot 0 0 17 true).setField .refBoot 0 0 32 8 cause).alert
  ({ s with referee := { s.referee with startup := again } } : State)

/-- Step 13, Ready (R431, R434), with the layout that Tolerabor gives every slice (Table 2.7). -/
def State.reachReady (s : State) : State :=
  let s := (List.range 256).foldl (fun s q => s.setReg .ccLayout q 0 0x401000) s
  let s := ((s.atStep 13).setFlag .refBoot 0 0 18 true).setFlag .refStatus 0 0 1 true
  let image := if s.referee.runningB then s.flash.slotB.image else s.flash.slotA.image
  let svn := match image with
    | some i => if s.flash.svn < i.svn then i.svn else s.flash.svn
    | none => s.flash.svn
  let s := { s with flash := { s.flash with svn := svn, lastReady := some s.referee.runningB } }
  ((s.setReg .refFwSvn 0 0 (svn.setWidth 64)).releaseAlert).pldm 0 1

/-- Step 12: TN_STEP holds the fused step (Table 3.7); every recorded partition is formed, and one that cannot be is recorded and left
unformed. -/
def State.formRecorded (s : State) (i : ColdStartInputs) : State :=
  let s := s.atStep 12
  let s := (List.range 8).foldl (fun s p => s.setBoth .tnStep p 0 (BitVec.ofNat 64 Config.variant.fusedStep)) s
  let s := s.flash.partitions.foldl (fun s (p, regions, headless) =>
    match s.formRefused regions p (if headless then 1 else 0) with
    | some st => s.eventStatus 0x13 st .error none 0 (leBytes 8 p)
    | none => s.formPartition regions p headless i.findings false) s
  let s := (List.range 16).foldl (fun s r => s.setMargins r) s
  s.writeFences.writeOcLimits.reachReady

/-- A quad at step 11: DARK, VACANT where it may not train (R350), UP with the partner whose HELLO came, or VACANT after three attempts. -/
def State.trainQuad (s : State) (i : ColdStartInputs) (n : Nat) : State :=
  if s.quadRole n = roleDark then s
  else if !s.mayTrain n then s.vacateQuad n .error
  else
    let s := s.startTraining n
    let s := match i.hellos.find? (fun x => decide (x.1 = n)) with
      | some (_, f, t) => (s.modQuad n (fun v => { v with locked := true, hellos := 1 })).takeHello n f t
      | none => s
    if i.hellos.any (fun x => decide (x.1 = n)) && s.partnerFits n then s.bringUp n
    else ((s.failAttempt n).failAttempt n).failAttempt n

/-- Steps 9 to 11: the SAM is published, roles are assigned from the link record, and the quads train. -/
def State.joinLinks (s : State) (i : ColdStartInputs) : State :=
  let s := (s.atStep 9).publishSam (List.range 104)
  let s := (s.atStep 10).setReg .olModuleId 0 0 (s.flash.moduleId.setWidth 64)
  let s := (List.range 224).foldl (fun s n =>
    let role := (Sparse.nget 3 s.flash.roles n).toNat
    (s.setReg .olRole n 0 (BitVec.ofNat 64 role)).setField .olQstatus n 0 16 2 role) s
  let s := (List.range 224).foldl (fun s n => s.trainQuad i n) (s.atStep 11)
  s.countQuads.formRecorded i

/-! Steps 4 to 8 -/

/-- Step 8: self-test of every site not RETIRED, and the VSTEP voltages; steps faster than the fused one read 0xFF (R458). -/
def State.testDies (s : State) (i : ColdStartInputs) : State :=
  let s := s.atStep 8
  let sites := (List.range 104).filter (fun k => decide (s.siteState k ≠ .retired ∧ siteRegion k ∉ s.power.held))
  let s := sites.foldl (fun s k => (s.firstRowMaps k).selfTest k (cellsAt i.findings k)) s
  (s.writeVsteps (List.range 16) (i.vstep ++ (List.range 16).map (fun r => (r, 0)))).joinLinks i

/-- A position that fails training (R440): erased where the stack has none erased or that one, otherwise the stack is DEGRADED. -/
def State.trainingFailed (s : State) (stack k : Nat) : State :=
  let e := s.field .mcErase stack 0 0 5
  if e = k then s
  else if e = 0x1F then
    let s := { s.writeErase stack k with flash := { s.flash with erased := s.flash.erased ++ [(stack, k)] } }
    s.event7F .error none 0 .mcErase stack
  else s.degradeStack stack .critical

/-- Steps 6 and 7: the interconnect test, and DRAM training with the erased positions of boot flash restored first (R387). -/
def State.trainMemory (s : State) (i : ColdStartInputs) : State :=
  let s := (s.atStep 6).testLinks (List.range 256) i.findings
  let s := (s.atStep 7)
  let s := s.flash.erased.foldl (fun s (k, e) => s.writeErase k e) s
  (i.dramFailures.foldl (fun s (k, p) => s.trainingFailed k p) s).testDies i

/-- Panel cycles from the Clock square to a square: 2 a hop and 3 a field seam (Tables 3.2, 8.1). -/
def timeLatency (q : Nat) : Nat :=
  2 * ((15 - sqX q) + sqY q) + 3 * ((fieldOf 15 - fieldOf (sqX q)) + fieldOf (sqY q))

/-- Step 5: crossing calibration (R76, R77). -/
def State.calibrateAll (s : State) (i : ColdStartInputs) : State :=
  let s := s.atStep 5
  let s := (List.range 256).foldl (fun s q =>
    (s.setReg .xlFieldLat q 0 (fieldLat q)).setReg .snTimeLat q 0 (BitVec.ofNat 64 (timeLatency q))) s
  let s := (List.range 104).foldl (fun s k => s.calibrateDie k i.findings) s
  let s := s.calibrateParts (List.range 48) (List.range 8) (List.range 56) i.findings
  if i.findings.fieldCrossing then (s.event7F .critical none 0 .refBoot).failStart 3 none else s.trainMemory i

/-- A region's first VC setpoint, which firmware gives and the spec does not: a free value in the loop's range. -/
def State.firstSetpoint (s : State) (r : Nat) : State :=
  let (w, s) := s.draw
  s.setField .pwRgnStatus r 0 16 16 (550 + w.toNat % 351)

/-- A host die's first VH setpoint, which the spec does not give either: a free value in the rail's range (Table 17.1). -/
def State.firstHostSetpoint (s : State) (h : Nat) : State :=
  let (w, s) := s.draw
  { s with power := { s.power with vhSet := Sparse.nset 0 s.power.vhSet h (1200 + w.toNat % 901) } }

/-- The regions that the partition record names (R404): the others are not powered at step 4. -/
def State.recordedRegions (s : State) : List Nat :=
  (List.range 16).filter (fun r => s.flash.partitions.any (fun x => bitAt (x.2.1.setWidth 64) r))

/-- Raise a region (R437): its VC over AVSBus, the header switches of its ENABLED sites where the partition record names the region, and the clamps
toward the regions already raised. A region whose VC does not come into its window is held down and powered down again, with its clamps closed
(R413, R516). -/
def State.raiseRegion (s : State) (i : ColdStartInputs) (r : Nat) : State :=
  let s := s.firstSetpoint r
  if r ∈ i.deadRegions then
    let s : State := { s.dropRegion r with power := { (s.dropRegion r).power with held := Sparse.insertNat s.power.held r } }
    ((s.setFlag .pwStatus 0 0 1 true).setFlag .pwRgnStatus r 0 2 true).event7F .error none 0 .pwRgnStatus r
  else
    let s : State := { s with
      pins := { s.pins with enC := Sparse.insertNat s.pins.enC r }
      power := { s.power.railC r (some s.now) with railsIn := Sparse.insertNat s.power.railsIn r } }
    let recorded := decide (r ∈ s.recordedRegions)
    let s := (regionSites r).foldl (fun (s : State) k =>
      if s.siteState k = .enabled ∧ recorded then s.modDie k (fun d => { d with powered := true }) else s) s
    { s with power := { s.power with clampsOpen := Sparse.insertNat s.power.clampsOpen r } }

/-- The regions are raised in ascending order (R437), and start-up goes on. No header switch closes while a sensor reads above 90.0 °C: step 4 waits
(R466). -/
def State.raiseRegions (s : State) (i : ColdStartInputs) : State :=
  if s.tooHot then { s with referee := { s.referee with startup := some i } }
  else
    let s : State := { s with referee := { s.referee with startup := none } }
    let s := (List.range 16).foldl (fun s r => s.raiseRegion i r) s
    let s := (List.range 8).foldl (fun s h => s.firstHostSetpoint h) s
    s.writeOcLimits.calibrateAll i

/-- Step 4: the rails of the panel, and the game clock from 0 (R429, R515); every region's isolation clamps are closed before VC is applied (R436). -/
def State.powerRegions (s : State) (i : ColdStartInputs) : State :=
  let s := s.atStep 4
  if !i.mainRailsGood then s.failStart 4 none
  else
    let s : State := { s with
      pins := { s.pins with enA := List.range 16 }
      power := { s.power with clampsOpen := [] }
      clock := { s.clock with counter := 0, running := true } }
    let s := if i.clkRefGood then s.setFlag .gcStatus 0 0 1 true else s.refLoss
    let s := s.setReg .pwLimit 0 0 (BitVec.ofNat 64 Config.variant.powerLimit)
    (i.temps.foldl (fun s x => if x.1 < 256 then s.takeTemp x.1 x.2.1 x.2.2 else s) s).raiseRegions i

/-- THERMAL_SAMPLE: it may end the wait of step 4 (R466). -/
def execThermalSample (square : Nat) (panel above : BitVec 16) (s : State) : Answered :=
  .next (if 256 ≤ square then s
    else
      let s := s.sample square panel above
      match s.referee.startup with
      | some i => if s.field .refBoot 0 0 0 4 = 4 then s.raiseRegions i else s
      | none => s)

/-! Step 3, the hold-up check (R435) -/

/-- The current of the test load in half amperes (REF_STRAPS). -/
def State.holdLoad (s : State) : Nat := [1, 2, 4, 8].getD (s.field .refStraps 0 0 0 2) 1

/-- The check passes: E is at least 2.0 J, V0 − V1 at least 10 mV, and V1 at least 0.75 × V0. With the load in half amperes and voltages in mV,
E is load × (V1² − 6,000²) / (2,000 × (V0 − V1)) mJ. -/
def holdupGood (load v0 v1 : Nat) : Bool :=
  decide (v1 + 10 ≤ v0 ∧ 3 * v0 ≤ 4 * v1 ∧ 2000 * (2000 * (v0 - v1)) ≤ load * (v1 * v1 - 36000000))

/-- REF_HOLDUP. Where the formula gives no value, because V1 is not below V0 or is below V_BO, E is a free value. -/
def State.recordHoldup (s : State) (v0 v1 : BitVec 16) : State :=
  let a := v0.toNat
  let b := v1.toNat
  if b < a ∧ 6000 ≤ b then
    s.setReg .refHoldup 0 0 (BitVec.ofNat 32 (s.holdLoad * (b * b - 36000000) / (2000 * (a - b))) ++ v0 ++ v1)
  else
    let (w, s) := s.draw
    s.setReg .refHoldup 0 0 (w.setWidth 32 ++ v0 ++ v1)

/-- Step 3: a check that fails stops here, to be repeated, or with DEGRADED_OK goes on as a degraded start with the recorder writing through. -/
def State.holdupCheck (s : State) (v0 v1 : BitVec 16) (i : ColdStartInputs) : State :=
  let s := ((s.atStep 3).setFlag .refBoot 0 0 17 false).setField .refBoot 0 0 32 8 0
  let s := s.recordHoldup v0 v1
  let s := { s with referee := { s.referee with startup := none } }
  if holdupGood s.holdLoad v0.toNat v1.toNat then s.powerRegions i
  else
    let s := s.eventAny 0x10 Status.holdupLow.code none 0
    if s.flag .refStraps 0 0 2 then (((s.setFlag .refBoot 0 0 19 true).setFlag .evStatus 0 0 2 true).alert).powerRegions i
    else s.failStart 2 (some i)

/-- HOLDUP_RETRY: every 10 s while the check fails. -/
def execHoldupRetry (v0 v1 : BitVec 16) (s : State) : Answered :=
  .next (match s.referee.startup with
    | some i => if s.field .refBoot 0 0 0 4 = 3 then s.holdupCheck v0 v1 i else s
    | none => s)

/-! Step 2, the boot image (R432 to R434) -/

/-- Tolerabor starts: it restores the recorder from the log header and the must-keep mirror (R471, R479), writes REF_WDOG, compares the count that
the last power-fail flush noted with what it finds in flash (R476), and numbers what the boot ROM recorded (R471). -/
def State.startFirmware (s : State) (b : Bool) (i : ColdStartInputs) : State :=
  let s := s.setField .refBoot 0 0 8 2 (if b then 1 else 0)
  let s := s.setReg .refFwVersion 0 0 ((((s.flash.slot b).map ImageInfo.version).getD 0).setWidth 64)
  let s := { s with referee := { s.referee with runningB := b } }
  let x := s.recorder
  let cycles := if i.vaRise ∧ x.pwrcyc ≠ 0xFFFFFF then x.pwrcyc + 1 else x.pwrcyc
  let s := s.modRecorder (fun x => { x with
    nextSeq := nextSeqAfter x.headerSeq, pwrcyc := cycles
    unnumbered := (x.keep.filter (fun r => decide (r.seq = 0))).length })
  let s := ((s.setReg .evSeq 0 0 (x.headerSeq.setWidth 64)).setReg .evOpsec 0 0 (x.opsec.setWidth 64)).setReg .evPwrcyc 0 0 (cycles.setWidth 64)
  let s := (s.setField .evKeep 0 0 0 7 x.keep.length).watchdog (s.reg .refWdog)
  let s := s.numberKept
  (if i.recordsLost = 0 then s else s.logLoss i.recordsLost.toNat 0 0).drainIntake

/-- Step 2: the preferred slot, then the other; with neither accepted, or with a flash that does not identify itself as 1.8 V (R511), the device
stays here in recovery. -/
def State.bootImage (s : State) (i : ColdStartInputs) : State :=
  let s := ((s.atStep 2).setFlag .refBoot 0 0 17 false).setField .refBoot 0 0 32 8 0
  let s := (s.setReg .refFwSvn 0 0 (s.flash.svn.setWidth 64))
  let b := s.flash.preferB
  if !i.flashGood then s.failStart 1 (some i)
  else if s.flash.boots b then (s.startFirmware b i).holdupCheck i.v0 i.v1 i
  else if s.flash.boots (!b) then
    let s := ((s.setFlag .refBoot 0 0 16 true).event7F .error none 0 .refBoot).startFirmware (!b) i
    s.holdupCheck i.v0 i.v1 i
  else s.failStart 1 (some i)

/-- MCTP_RECOVERY (R433): in recovery, an image is written into slot A and the ROM runs its rule again. In a warm restart whose image is refused
the restart then goes on. -/
def execMctpRecovery (image : ImageInfo) (s : State) : Answered :=
  .next (match s.referee.startup with
    | some i =>
      if s.field .refBoot 0 0 0 4 = 2 then
        let s := { s with flash := { s.flash with slotA := { image := some image } }, referee := { s.referee with startup := none } }
        s.bootImage i
      else s
    | none =>
      if s.flag .refStatus 0 0 2 ∧ !s.flash.boots s.referee.runningB then { s with flash := { s.flash with slotA := { image := some image } } }
      else s)

/-! Step 1 -/

/-- A cold start (R428). What a power-fail flush could not write before VA failed is lost (R476). Step 1 samples the straps (R507); a failed test of Referee SRAM or the event ring stops the device. -/
def State.startUp (s : State) (i : ColdStartInputs) : State :=
  let lost := if s.recorder.flushing then min s.recorder.headerUnflushed i.recordsLost.toNat else 0
  let i := { i with recordsLost := BitVec.ofNat 32 lost }
  let s := s.cutFlush lost
  let s := ({ s.deviceReset with pins := { s.deviceReset.pins with resetN := true } } : State).atStep 1
  let s := s.setReg .refStraps 0 0 (i.straps.setWidth 64 &&& 7)
  if i.sramGood then s.bootImage i else s.failStart 0 none

/-- COLD_START: it waits while PWR_FAIL_N is low (R517). -/
def execColdStart (i : ColdStartInputs) (s : State) : Answered := .next (if s.pins.pwrFailN then s.startUp i else s)

/-- PWR_FAIL_N_RELEASE (R430): PWR_FAIL_N has been high for 100 ms, and start-up begins again at step 1; while RESET_N is still low, it waits for
RESET_N (R517). -/
def execPwrFailNRelease (i : ColdStartInputs) (s : State) : Answered :=
  .next (if s.pins.pwrFailN then s
    else
      let t : State := { s with pins := { s.pins with pwrFailN := true } }
      if s.pins.resetN then t.startUp i else t)

end Sys2Proof.Machine
end

