-- ==== Sys2Proof/Machine/Dispatch.lean ====
section
/-! DEFINITION. The dispatch of commands to their meanings: one arm for each row of the opcode table. -/

namespace Sys2Proof.Machine

/-- The effect of a command on everything but the queue. -/
def exec (i : Instr) (s : State) : Host.Outcome State Fault Refusal :=
  match i with
  | .deviceInfo c => Sys2Proof.Machine.execDeviceInfo c s
  | .deviceSiteEnable c site => Sys2Proof.Machine.execDeviceSiteEnable c site s
  | .deviceSiteReserve c site => Sys2Proof.Machine.execDeviceSiteReserve c site s
  | .deviceFwStage c addr len => Sys2Proof.Machine.execDeviceFwStage c addr len s
  | .deviceGrantFleet c part ring => Sys2Proof.Machine.execDeviceGrantFleet c part ring s
  | .partitionForm c regions number headless found => Sys2Proof.Machine.execPartitionForm c regions number headless found s
  | .partitionDissolve c => Sys2Proof.Machine.execPartitionDissolve c s
  | .partitionComputeReset c found => Sys2Proof.Machine.execPartitionComputeReset c found s
  | .partitionFullReset c found => Sys2Proof.Machine.execPartitionFullReset c found s
  | .hostDieReset c die => Sys2Proof.Machine.execHostDieReset c die s
  | .partitionCacheLayout c pin tail hsc => Sys2Proof.Machine.execPartitionCacheLayout c pin tail hsc s
  | .partitionPublish c base lines direction => Sys2Proof.Machine.execPartitionPublish c base lines direction s
  | .partitionPolicySet c id value => Sys2Proof.Machine.execPartitionPolicySet c id value s
  | .partitionPolicyGet c id => Sys2Proof.Machine.execPartitionPolicyGet c id s
  | .partitionGrant c page grants ringMask tenant => Sys2Proof.Machine.execPartitionGrant c page grants ringMask tenant s
  | .bookLoad c addr len => Sys2Proof.Machine.execBookLoad c addr len s
  | .bookUnload c flags => Sys2Proof.Machine.execBookUnload c flags s
  | .bookMap c map => Sys2Proof.Machine.execBookMap c map s
  | .bookPreempt c => Sys2Proof.Machine.execBookPreempt c s
  | .streamOpen c tenant prio => Sys2Proof.Machine.execStreamOpen c tenant prio s
  | .streamAppend c handle positions prompt => Sys2Proof.Machine.execStreamAppend c handle positions prompt s
  | .streamAdvance c handle positions => Sys2Proof.Machine.execStreamAdvance c handle positions s
  | .streamClose c handle => Sys2Proof.Machine.execStreamClose c handle s
  | .streamPark c handle => Sys2Proof.Machine.execStreamPark c handle s
  | .streamUnpark c handle => Sys2Proof.Machine.execStreamUnpark c handle s
  | .streamMigrate c handle module part => Sys2Proof.Machine.execStreamMigrate c handle module part s
  | .streamFork c handle positions => Sys2Proof.Machine.execStreamFork c handle positions s
  | .stateInvalidate c handle first pages => Sys2Proof.Machine.execStateInvalidate c handle first pages s
  | .stateTier c handle first pages tier => Sys2Proof.Machine.execStateTier c handle first pages tier s
  | .stateQuery c handle page => Sys2Proof.Machine.execStateQuery c handle page s
  | .linkStatus c quad => Sys2Proof.Machine.execLinkStatus c quad s
  | .linkRetrain c quad => Sys2Proof.Machine.execLinkRetrain c quad s
  | .linkRoleSetRole c quad role module => Sys2Proof.Machine.execLinkRoleSetRole c quad role module s
  | .linkRoleSetModuleId c role module => Sys2Proof.Machine.execLinkRoleSetModuleId c role module s
  | .logFreeze c => Sys2Proof.Machine.execLogFreeze c s
  | .logThaw c => Sys2Proof.Machine.execLogThaw c s
  | .logRead c dest first max => Sys2Proof.Machine.execLogRead c dest first max s
  | .logClearKeep c => Sys2Proof.Machine.execLogClearKeep c s
  | .logRate c code rate => Sys2Proof.Machine.execLogRate c code rate s
  | .debugChallenge c => Sys2Proof.Machine.execDebugChallenge c s
  | .debugRespond c response => Sys2Proof.Machine.execDebugRespond c response s
  | .debugHalt c site => Sys2Proof.Machine.execDebugHalt c site s
  | .debugResume c site => Sys2Proof.Machine.execDebugResume c site s
  | .debugTrace c enable => Sys2Proof.Machine.execDebugTrace c enable s
  | .powerPolicySet c id value => Sys2Proof.Machine.execPowerPolicySet c id value s
  | .powerPolicyGet c id => Sys2Proof.Machine.execPowerPolicyGet c id s
  | .powerStatus c => Sys2Proof.Machine.execPowerStatus c s
  | .nop m => Sys2Proof.Machine.execNop m s
  | .check m ctr count grace => Sys2Proof.Machine.execCheck m ctr count grace s
  | .lateData site cycle => Sys2Proof.Machine.execLateData site cycle s
  | .yield m => Sys2Proof.Machine.execYield m s
  | .trace m label => Sys2Proof.Machine.execTrace m label s
  | .pass m first count adesc bdesc k buf acc shareA shareB orient w => Sys2Proof.Machine.execPass m first count adesc bdesc k buf acc shareA shareB orient w s
  | .drain m first count buf w => Sys2Proof.Machine.execDrain m first count buf w s
  | .drainHeld m first count buf w => Sys2Proof.Machine.execDrainHeld m first count buf w s
  | .gang m mode w => Sys2Proof.Machine.execGang m mode w s
  | .add m v => Sys2Proof.Machine.execAdd m v s
  | .sub m v => Sys2Proof.Machine.execSub m v s
  | .mul m v => Sys2Proof.Machine.execMul m v s
  | .fma m v => Sys2Proof.Machine.execFma m v s
  | .min m v => Sys2Proof.Machine.execMin m v s
  | .max m v => Sys2Proof.Machine.execMax m v s
  | .select m v => Sys2Proof.Machine.execSelect m v s
  | .div m v => Sys2Proof.Machine.execDiv m v s
  | .sqrt m v => Sys2Proof.Machine.execSqrt m v s
  | .recip m v => Sys2Proof.Machine.execRecip m v s
  | .exp m v => Sys2Proof.Machine.execExp m v s
  | .log m v => Sys2Proof.Machine.execLog m v s
  | .rsqrt m v => Sys2Proof.Machine.execRsqrt m v s
  | .tanh m v => Sys2Proof.Machine.execTanh m v s
  | .sigmoid m v => Sys2Proof.Machine.execSigmoid m v s
  | .iadd m v => Sys2Proof.Machine.execIadd m v s
  | .imul m v => Sys2Proof.Machine.execImul m v s
  | .cvt m v => Sys2Proof.Machine.execCvt m v s
  | .rsum m v => Sys2Proof.Machine.execRsum m v s
  | .rmax m v => Sys2Proof.Machine.execRmax m v s
  | .rmin m v => Sys2Proof.Machine.execRmin m v s
  | .csum m v => Sys2Proof.Machine.execCsum m v s
  | .cmax m v => Sys2Proof.Machine.execCmax m v s
  | .cmin m v => Sys2Proof.Machine.execCmin m v s
  | .softmax m v => Sys2Proof.Machine.execSoftmax m v s
  | .lnorm m v => Sys2Proof.Machine.execLnorm m v s
  | .rmsnorm m v => Sys2Proof.Machine.execRmsnorm m v s
  | .topk m v => Sys2Proof.Machine.execTopk m v s
  | .rand m v => Sys2Proof.Machine.execRand m v s
  | .sample m v => Sys2Proof.Machine.execSample m v s
  | .sb3enc m v => Sys2Proof.Machine.execSb3enc m v s
  | .load m ddesc chan => Sys2Proof.Machine.execLoad m ddesc chan s
  | .store m ddesc chan => Sys2Proof.Machine.execStore m ddesc chan s
  | .send m ddesc chan => Sys2Proof.Machine.execSend m ddesc chan s
  | .twin m oplist => Sys2Proof.Machine.execTwin m oplist s
  | .moveComplete site index cycle => Sys2Proof.Machine.execMoveComplete site index cycle s
  | .sendArrival site p cycle => Sys2Proof.Machine.execSendArrival site p cycle s
  | .sackReceipt site xid cycle => Sys2Proof.Machine.execSackReceipt site xid cycle s
  | .playStart site => Sys2Proof.Machine.execPlayStart site s
  | .dieDone site cycle => Sys2Proof.Machine.execDieDone site cycle s
  | .plannedBoundary part => Sys2Proof.Machine.execPlannedBoundary part s
  | .slipChangeoverStart part => Sys2Proof.Machine.execSlipChangeoverStart part s
  | .slipLimit part => Sys2Proof.Machine.execSlipLimit part s
  | .abortDrainEnd part chosenP => Sys2Proof.Machine.execAbortDrainEnd part chosenP s
  | .changeoverStart part chosenP => Sys2Proof.Machine.execChangeoverStart part chosenP s
  | .clockStepChange part => Sys2Proof.Machine.execClockStepChange part s
  | .changeoverWork part lines ops nodes => Sys2Proof.Machine.execChangeoverWork part lines ops nodes s
  | .rookWindow site sheets failing copied => Sys2Proof.Machine.execRookWindow site sheets failing copied s
  | .rookReady site => Sys2Proof.Machine.execRookReady site s
  | .startOfPlayBarrier part => Sys2Proof.Machine.execStartOfPlayBarrier part s
  | .stretchTimeout part => Sys2Proof.Machine.execStretchTimeout part s
  | .preemptionComplete part => Sys2Proof.Machine.execPreemptionComplete part s
  | .gameClockTick => Sys2Proof.Machine.execGameClockTick s
  | .slewAdjust => Sys2Proof.Machine.execSlewAdjust s
  | .time square value => Sys2Proof.Machine.execTime square value s
  | .timeBroadcast => Sys2Proof.Machine.execTimeBroadcast s
  | .boundary square turn => Sys2Proof.Machine.execBoundary square turn s
  | .done square fromDir => Sys2Proof.Machine.execDone square fromDir s
  | .ready square fromDir => Sys2Proof.Machine.execReady square fromDir s
  | .yielded square fromDir => Sys2Proof.Machine.execYielded square fromDir s
  | .preempt square => Sys2Proof.Machine.execPreempt square s
  | .abort square => Sys2Proof.Machine.execAbort square s
  | .clkRefLoss => Sys2Proof.Machine.execClkRefLoss s
  | .clkRefRelock difference => Sys2Proof.Machine.execClkRefRelock difference s
  | .gcSet r value => Sys2Proof.Machine.execGcSet r value s
  | .gcSlew r value => Sys2Proof.Machine.execGcSlew r value s
  | .crossingMarginLow square => Sys2Proof.Machine.execCrossingMarginLow square s
  | .registerWrite r addr size value => Sys2Proof.Machine.execRegisterWrite r addr size value s
  | .refWdog r value => Sys2Proof.Machine.execRefWdog r value s
  | .watchdogExpiry => Sys2Proof.Machine.execWatchdogExpiry s
  | .lockstep cycle => Sys2Proof.Machine.execLockstep cycle s
  | .warmRestartComplete => Sys2Proof.Machine.execWarmRestartComplete s
  | .mbRingProd r part ring value => Sys2Proof.Machine.execMbRingProd r part ring value s
  | .mbRingCqCons r part ring value => Sys2Proof.Machine.execMbRingCqCons r part ring value s
  | .ringEnable r part ring value => Sys2Proof.Machine.execRingEnable r part ring value s
  | .ringDisable r part ring value => Sys2Proof.Machine.execRingDisable r part ring value s
  | .ringDrained part ring => Sys2Proof.Machine.execRingDrained part ring s
  | .ringVisit part ring found => Sys2Proof.Machine.execRingVisit part ring found s
  | .msiHoldoffExpiry part ring => Sys2Proof.Machine.execMsiHoldoffExpiry part ring s
  | .bmcCommand bytes found => Sys2Proof.Machine.execBmcCommand bytes found s
  | .mctpRecovery image => Sys2Proof.Machine.execMctpRecovery image s
  | .bnetPacket square link check p => Sys2Proof.Machine.execBnetPacket square link check p s
  | .bnetNak square link lane => Sys2Proof.Machine.execBnetNak square link lane s
  | .bnetReplayTimeout square link lane => Sys2Proof.Machine.execBnetReplayTimeout square link lane s
  | .circuitForward square circ waited => Sys2Proof.Machine.execCircuitForward square circ waited s
  | .cnetPacket square link p => Sys2Proof.Machine.execCnetPacket square link p s
  | .cnetInjectionRelease square waited => Sys2Proof.Machine.execCnetInjectionRelease square waited s
  | .hartAccess die core mode addr op pbmtNonCacheable => Sys2Proof.Machine.execHartAccess die core mode addr op pbmtNonCacheable s
  | .cacheBlockClean die core addr flush => Sys2Proof.Machine.execCacheBlockClean die core addr flush s
  | .hscRequest r addr op evictBlock evictLine => Sys2Proof.Machine.execHscRequest r addr op evictBlock evictLine s
  | .generalLineEviction addr => Sys2Proof.Machine.execGeneralLineEviction addr s
  | .dramRead addr errors host r => Sys2Proof.Machine.execDramRead addr errors host r s
  | .dramWrite addr bytes poisoned => Sys2Proof.Machine.execDramWrite addr bytes poisoned s
  | .sramRead addr square double r => Sys2Proof.Machine.execSramRead addr square double r s
  | .bucketLeak cls inst sub => Sys2Proof.Machine.execBucketLeak cls inst sub s
  | .bankZeroComplete site bank => Sys2Proof.Machine.execBankZeroComplete site bank s
  | .releaseFillComplete stack => Sys2Proof.Machine.execReleaseFillComplete stack s
  | .msiWrite source addr value => Sys2Proof.Machine.execMsiWrite source addr value s
  | .hdMtimecmp die core => Sys2Proof.Machine.execHdMtimecmp die core s
  | .hostClockChange die value => Sys2Proof.Machine.execHostClockChange die value s
  | .inboundPcieRequest die addr op => Sys2Proof.Machine.execInboundPcieRequest die addr op s
  | .intxMessage die => Sys2Proof.Machine.execIntxMessage die s
  | .pcieWake die => Sys2Proof.Machine.execPcieWake die s
  | .hostProbe die => Sys2Proof.Machine.execHostProbe die s
  | .hostProbeMiss die => Sys2Proof.Machine.execHostProbeMiss die s
  | .faultResolved site chan => Sys2Proof.Machine.execFaultResolved site chan s
  | .faultUnresolvable site chan => Sys2Proof.Machine.execFaultUnresolvable site chan s
  | .holdBudgetExhausted site => Sys2Proof.Machine.execHoldBudgetExhausted site s
  | .cowResolve site handle page newPage => Sys2Proof.Machine.execCowResolve site handle page newPage s
  | .farRecall site handle page newPage lines => Sys2Proof.Machine.execFarRecall site handle page newPage lines s
  | .tierCopyDone part handle page newPage => Sys2Proof.Machine.execTierCopyDone part handle page newPage s
  | .stPinLend r part value => Sys2Proof.Machine.execStPinLend r part value s
  | .ccPubWrite r part range isLen value => Sys2Proof.Machine.execCcPubWrite r part range isLen value s
  | .olPoolMap r window isQuads value => Sys2Proof.Machine.execOlPoolMap r window isQuads value s
  | .mcErase r stack value => Sys2Proof.Machine.execMcErase r stack value s
  | .migrationCopyDone part handle destPart => Sys2Proof.Machine.execMigrationCopyDone part handle destPart s
  | .migrationFail part handle status => Sys2Proof.Machine.execMigrationFail part handle status s
  | .flitReceipt quad f => Sys2Proof.Machine.execFlitReceipt quad f s
  | .retryReq quad ack => Sys2Proof.Machine.execRetryReq quad ack s
  | .flitReplayTimeout quad => Sys2Proof.Machine.execFlitReplayTimeout quad s
  | .quadDown quad cause => Sys2Proof.Machine.execQuadDown quad cause s
  | .knockSend quad => Sys2Proof.Machine.execKnockSend quad s
  | .knock quad f => Sys2Proof.Machine.execKnock quad f s
  | .knockWindowExpiry quad => Sys2Proof.Machine.execKnockWindowExpiry quad s
  | .csyncRequest => Sys2Proof.Machine.execCsyncRequest s
  | .csync quad f arrival => Sys2Proof.Machine.execCsync quad f arrival s
  | .hello quad f arrival => Sys2Proof.Machine.execHello quad f arrival s
  | .trainingAttemptTimeout quad => Sys2Proof.Machine.execTrainingAttemptTimeout quad s
  | .backgroundAttempt quad => Sys2Proof.Machine.execBackgroundAttempt quad s
  | .fecRetrain quad corrected => Sys2Proof.Machine.execFecRetrain quad corrected s
  | .prd quad m => Sys2Proof.Machine.execPrd quad m s
  | .pdata quad m => Sys2Proof.Machine.execPdata quad m s
  | .pwr quad m => Sys2Proof.Machine.execPwr quad m s
  | .pwack quad m => Sys2Proof.Machine.execPwack quad m s
  | .opticalSend quad m => Sys2Proof.Machine.execOpticalSend quad m s
  | .opticalSack quad m => Sys2Proof.Machine.execOpticalSack quad m s
  | .copy quad m => Sys2Proof.Machine.execCopy quad m s
  | .cack quad m => Sys2Proof.Machine.execCack quad m s
  | .err quad m => Sys2Proof.Machine.execErr quad m s
  | .e2eKnock quad m => Sys2Proof.Machine.execE2eKnock quad m s
  | .e2eKnockMiss module => Sys2Proof.Machine.execE2eKnockMiss module s
  | .poolLineTimeout xid seq => Sys2Proof.Machine.execPoolLineTimeout xid seq s
  | .command quad m found => Sys2Proof.Machine.execCommand quad m found s
  | .completion quad m => Sys2Proof.Machine.execCompletion quad m s
  | .spanConfirm quad m => Sys2Proof.Machine.execSpanConfirm quad m s
  | .spanConfirmTimeout part => Sys2Proof.Machine.execSpanConfirmTimeout part s
  | .spanLoadFail quad m => Sys2Proof.Machine.execSpanLoadFail quad m s
  | .spanAbort quad m => Sys2Proof.Machine.execSpanAbort quad m s
  | .spanChange quad m => Sys2Proof.Machine.execSpanChange quad m s
  | .debugPause quad m => Sys2Proof.Machine.execDebugPause quad m s
  | .migrateReq quad m => Sys2Proof.Machine.execMigrateReq quad m s
  | .migrateAdmit quad m => Sys2Proof.Machine.execMigrateAdmit quad m s
  | .migrateDone quad m => Sys2Proof.Machine.execMigrateDone quad m s
  | .voltageLoop region minCode hostCode current => Sys2Proof.Machine.execVoltageLoop region minCode hostCode current s
  | .powerMeasurement module parts module100 regions => Sys2Proof.Machine.execPowerMeasurement module parts module100 regions s
  | .supplyOutOfWindow region isC => Sys2Proof.Machine.execSupplyOutOfWindow region isC s
  | .regionOvercurrent region => Sys2Proof.Machine.execRegionOvercurrent region s
  | .vaOutOfWindow => Sys2Proof.Machine.execVaOutOfWindow s
  | .thermalSample square panel above => Sys2Proof.Machine.execThermalSample square panel above s
  | .thermTrip square junction => Sys2Proof.Machine.execThermTrip square junction s
  | .coolingRead inlet flow => Sys2Proof.Machine.execCoolingRead inlet flow s
  | .coldStart inputs => Sys2Proof.Machine.execColdStart inputs s
  | .holdupRetry v0 v1 => Sys2Proof.Machine.execHoldupRetry v0 v1 s
  | .resetNAssert => Sys2Proof.Machine.execResetNAssert s
  | .pwrFailNAssert => Sys2Proof.Machine.execPwrFailNAssert s
  | .pwrFailNRelease inputs => Sys2Proof.Machine.execPwrFailNRelease inputs s
  | .dramRetrain stack channel urgent => Sys2Proof.Machine.execDramRetrain stack channel urgent s
  | .reserveSelfTest site failing => Sys2Proof.Machine.execReserveSelfTest site failing s
  | .maintenanceTurn part => Sys2Proof.Machine.execMaintenanceTurn part s
  | .eventReport r => Sys2Proof.Machine.execEventReport r s
  | .flush => Sys2Proof.Machine.execFlush s
  | .flushComplete good => Sys2Proof.Machine.execFlushComplete good s
  | .flashFailRetry good => Sys2Proof.Machine.execFlashFailRetry good s
  | .rateWindowClose code part => Sys2Proof.Machine.execRateWindowClose code part s
  | .opsecSecond => Sys2Proof.Machine.execOpsecSecond s
  | .freezeTimeout => Sys2Proof.Machine.execFreezeTimeout s
  | .dmRegisterAccess r site reg a => Sys2Proof.Machine.execDmRegisterAccess r site reg a s
  | .rookHalt site cause => Sys2Proof.Machine.execRookHalt site cause s
  | .rookResume site => Sys2Proof.Machine.execRookResume site s
  | .sessionExpiry part => Sys2Proof.Machine.execSessionExpiry part s
  | .challengeLockoutEnd part => Sys2Proof.Machine.execChallengeLockoutEnd part s
  | .traceRecord site => Sys2Proof.Machine.execTraceRecord site s
  | .jtagInstruction t => Sys2Proof.Machine.execJtagInstruction t s
  | .jtagUnlock response => Sys2Proof.Machine.execJtagUnlock response s
  | .computeDieClockLoss site => Sys2Proof.Machine.execComputeDieClockLoss site s
  | .hostDieClockLoss die => Sys2Proof.Machine.execHostDieClockLoss die s
  | .shadowMismatch addr bit => Sys2Proof.Machine.execShadowMismatch addr bit s
  | .computeDieReset site found => Sys2Proof.Machine.execComputeDieReset site found s
  | .doneReport quad m => Sys2Proof.Machine.execDoneReport quad m s
  | .helloSend quad => Sys2Proof.Machine.execHelloSend quad s
  | .e2eKnockSend module => Sys2Proof.Machine.execE2eKnockSend module s
  | .laneLock quad => Sys2Proof.Machine.execLaneLock quad s
  | .supplyInWindow region isC => Sys2Proof.Machine.execSupplyInWindow region isC s
  | .pcieLinkChange die sub up rate width => Sys2Proof.Machine.execPcieLinkChange die sub up rate width s
  | .dramRetrainComplete stack channel good => Sys2Proof.Machine.execDramRetrainComplete stack channel good s
  | .batchStaging part slices => Sys2Proof.Machine.execBatchStaging part slices s

end Sys2Proof.Machine
end

