-- ==== Sys2Proof/Safety.lean ====
section
/-! DEFINITION. The words that statements about the machine use: the memory invariant, what recording an event leaves alone, when a mailbox
command is taken, and what an answer is. -/

namespace Sys2Proof.Machine

/-- Memory is in its canonical form. -/
abbrev State.memOk (s : State) : Prop := Memory.wf s.mem = true

/-- The registers of the event recorder (chapter 18): the EV block of the Referee square. -/
def RegName.ofRecorder : RegName → Bool
  | .evStatus | .evSeq | .evOpsec | .evPwrcyc | .evUnflushed | .evFlushes | .evSuppressed | .evSideLost | .evKeep | .evIntakeLost | .evLost => true
  | _ => false

/-- A partition without its live view of the log (R483). -/
def Part.noView (v : Part) : Part :=
  { v with viewMem := [], viewRecs := [], viewNext := 0, viewNewest := 0, viewDropped := 0, viewSuppressed := 0 }

/-- From s to t only the event recorder has moved: its own store, its registers with their second copies, the live views, and the free
values drawn. Everything else stands. -/
structure Recorded (s t : State) : Prop where
  pending : t.pending = s.pending
  reg : ∀ n i j, n.ofRecorder = false → t.reg n i j = s.reg n i j
  latched : t.latched = s.latched
  shadowLatched : t.shadowLatched = s.shadowLatched
  mem : t.mem = s.mem
  general : t.general = s.general
  hsc : t.hsc = s.hsc
  hartBlocks : t.hartBlocks = s.hartBlocks
  poison : t.poison = s.poison
  overflows : t.overflows = s.overflows
  tailMem : t.tailMem = s.tailMem
  fills : t.fills = s.fills
  filledRegions : t.filledRegions = s.filledRegions
  rows : t.rows = s.rows
  generations : t.generations = s.generations
  parts : ∀ p, (t.part p).noView = (s.part p).noView
  rings : t.rings = s.rings
  dies : t.dies = s.dies
  squares : t.squares = s.squares
  hosts : t.hosts = s.hosts
  quads : t.quads = s.quads
  poolLines : t.poolLines = s.poolLines
  exchanges : t.exchanges = s.exchanges
  e2eMisses : t.e2eMisses = s.e2eMisses
  fencedModules : t.fencedModules = s.fencedModules
  clock : t.clock = s.clock
  referee : t.referee = s.referee
  flash : t.flash = s.flash
  pins : t.pins = s.pins
  power : t.power = s.power
  jtag : t.jtag = s.jtag
  barred : t.barred = s.barred
  answer : t.answer = s.answer

/-- A mailbox command is taken: Tolerabor accepts it on its path, and it passes the checks of R259. -/
abbrev State.taken (s : State) (c : Cmd) (w : MailRow) (badArgs : Bool) : Prop := s.accepts c = true ∧ s.refusal c w badArgs = none

/-- The sequencer issues a move of a table: the die may, its START rises, and it is not the table's last move, at which the CRC of the table is
checked (R190, R415). -/
abbrev State.issues (s : State) (m : MoveHdr) (p : Nat) : Prop :=
  s.siteOwner m.site = some p ∧ s.canIssue p m = true ∧ (s.die m.site).lastStart.all (fun t => decide (t.toNat < m.start.toNat)) = true ∧
    m.index.toNat + 1 ≠ (s.die m.site).tableLen

/-- The opcodes of Table 9.11. -/
def opcodes : List Nat :=
  [0x0100, 0x0101, 0x0102, 0x0103, 0x0104, 0x0200, 0x0201, 0x0202, 0x0203, 0x0204, 0x0205, 0x0206, 0x0207, 0x0300, 0x0301, 0x0302, 0x0303, 0x0400,
   0x0401, 0x0402, 0x0403, 0x0404, 0x0405, 0x0406, 0x0407, 0x0500, 0x0501, 0x0502, 0x0600, 0x0601, 0x0602, 0x0700, 0x0701, 0x0702, 0x0703, 0x0704,
   0x0800, 0x0801, 0x0802, 0x0803, 0x0804, 0x0900, 0x0901, 0x0902]

/-- Registers whose write is an operation of its own. -/
def ownWrites : List RegName :=
  [.gcSet, .gcSlew, .refWdog, .mbRingProd, .mbRingCtl, .ccPubBase, .ccPubLen, .stPinLend, .olPoolMap, .olPoolQuads, .mcErase, .dmBankEn, .mbRingCqCons]

/-- Moves of the matrix, vector, DMA and signature units. -/
def unitMove : Instr → Bool
  | .pass .. | .drain .. | .drainHeld .. | .gang .. | .load .. | .store .. | .send .. | .twin .. => true
  | c => (vecMove c).isSome

/-- A move that has been issued to its unit and is in flight, before anything in flight goes on. -/
def State.inFlight (s : State) (m : MoveHdr) (c : Instr) : State := (s.advanceSeq m c).takeFlight m c

end Sys2Proof.Machine
end

