-- ==== Sys2Proof/Certificates/Slice0/Obligations.lean ====
section
/-! DEFINITION. The statements about the machine: what each command does, what it leaves, and what every step keeps. A clause names the state and the
operands it needs and concludes with the state that the command answers. -/

open Sys2Proof Sys2Proof.Machine

/-! The block: one command a step -/

/-- A step takes the command at the front of the queue: it is exec of that command with the queue's rest. On an empty queue the block idles (the
model's choice, assumption log 3).
Where it follows a reading of the model's own: assumption log 3. -/
def Obligations.StepRunsFrontCommand : Prop :=
  (∀ (c : Instr) (rest : List Instr) (s : State), s.pending = c :: rest → step s = exec c { s with pending := rest }) ∧
  (∀ s : State, s.pending = [] → step s = .next s)

/-- No command stops the block: the spec gives every row of the table an effect or says that it has none.
Where it follows a reading of the model's own: assumption log 1. -/
def Obligations.EveryCommandAnswers : Prop := ∀ (i : Instr) (s : State), ∃ t : State, exec i s = .next t

/-! Memory -/

/-- Memory keeps its canonical form in every step. -/
def Obligations.StepKeepsMemoryForm : Prop := ∀ s t : State, s.memOk → step s = .next t → t.memOk

/-- Reset lists no byte, so its memory has the canonical form.
Where it follows a reading of the model's own: assumption log 2. -/
def Obligations.ResetMemoryForm : Prop := State.reset.memOk ∧ ∀ a, State.reset.byte a = 0

/-! Mailbox commands: acceptance, checks and completions (chapter 9) -/

/-- R259: the checks of an accepted command in their order; w is its row of Table 9.11, bad says that an argument is out of range. A
device-level command names partition 0xFF; another names the path's own partition, or on a path of level FLEET any formed one. An opcode that the table
does not list is refused before any of them. -/
def Obligations.ChecksInOrder : Prop :=
  (∀ (s : State) (path : CmdPath) (b : List Byte) (f : TestFindings), bytesAt b 0 2 ∉ opcodes → s.accepts (cmdOf path b) = true →
    s.mailCommand path b f = (s.enterCommand (cmdOf path b) { opcode := BitVec.ofNat 16 (bytesAt b 0 2), level := .tenant }).complete (cmdOf path b)
      (BitVec.ofNat 16 (bytesAt b 0 2)) .badArgument) ∧
  ∀ (s : State) (c : Cmd) (w : MailRow) (bad : Bool),
    let t := c.target.toNat
    let mayName := cmdPart c = some t ∨ (s.pathLevel c = .fleet ∧ t < 8 ∧ s.formed t = true)
    ((s.pathLevel c).rank < w.level.rank → s.refusal c w bad = some .notPermitted) ∧
    (¬(s.pathLevel c).rank < w.level.rank → (c.path ≠ .bmc ∨ w.bmc = true) →
      (w.device = true → c.target ≠ 0xFF → s.refusal c w bad = some .notPermitted) ∧
      (w.device = true → c.target = 0xFF → (c.reserved = true ∨ bad = true) → s.refusal c w bad = some .badArgument) ∧
      (w.device = true → c.target = 0xFF → c.reserved = false → bad = false → s.refusal c w bad = none) ∧
      (w.device = false → ¬mayName → s.refusal c w bad = some .notPermitted) ∧
      (w.device = false → mayName → (c.reserved = true ∨ bad = true) → s.refusal c w bad = some .badArgument) ∧
      (w.device = false → mayName → c.reserved = false → bad = false → (s.partFenced t = true ∨ s.dissolving t = true) → w.fencedToo = false →
        s.refusal c w bad = some .partitionFenced) ∧
      (w.device = false → mayName → c.reserved = false → bad = false →
        ((s.partFenced t = false ∧ s.dissolving t = false) ∨ w.fencedToo = true) → s.refusal c w bad = none))

/-- A mailbox command that its path does not take has no effect (R245, R254); one that the checks of R259 refuse is entered, completes with the status
of the first that fails, and does nothing else. One row of each family stands for it; every row goes through the same acceptance.
Where it follows a reading of the model's own: assumption log 17, 18. -/
def Obligations.CommandsNotTaken : Prop :=
  (∀ (s : State) (c : Cmd), s.accepts c = false →
    exec (.deviceInfo c) s = .next s ∧ exec (.partitionDissolve c) s = .next s ∧ (∀ a n, exec (.bookLoad c a n) s = .next s) ∧
    (∀ h, exec (.streamClose c h) s = .next s) ∧ (∀ h f n, exec (.stateInvalidate c h f n) s = .next s) ∧
    (∀ q, exec (.linkRetrain c q) s = .next s) ∧ exec (.logFreeze c) s = .next s ∧ exec (.debugChallenge c) s = .next s ∧
    exec (.powerStatus c) s = .next s) ∧
  (∀ (s : State) (c : Cmd) (st : Status), s.accepts c = true →
    (s.refusal c rowInfo false = some st → exec (.deviceInfo c) s = .next ((s.enterCommand c rowInfo).complete c 0x0100 st)) ∧
    (s.refusal c rowDissolve false = some st → exec (.partitionDissolve c) s = .next ((s.enterCommand c rowDissolve).complete c 0x0201 st)) ∧
    (∀ a n : Word, s.refusal c rowBookLoad (!s.inPartDram c.target.toNat a.toNat n.toNat) = some st →
      exec (.bookLoad c a n) s = .next ((s.enterCommand c rowBookLoad).complete c 0x0300 st)) ∧
    (∀ h, s.refusal c (streamRow' 0x0403) false = some st →
      exec (.streamClose c h) s = .next ((s.enterCommand c (streamRow' 0x0403)).complete c 0x0403 st)) ∧
    (∀ h first pages, s.refusal c rowInvalidate (!pagesGood first pages) = some st →
      exec (.stateInvalidate c h first pages) s = .next ((s.enterCommand c rowInvalidate).complete c 0x0500 st)) ∧
    (s.refusal c (logRow 0x0700 .kernel) false = some st →
      exec (.logFreeze c) s = .next ((s.enterCommand c (logRow 0x0700 .kernel)).complete c 0x0700 st)) ∧
    (s.refusal c (debugRow 0x0800) false = some st →
      exec (.debugChallenge c) s = .next ((s.enterCommand c (debugRow 0x0800)).complete c 0x0800 st)))

/-- R246, R253, R266: where the completion of a command that the journal holds goes. On the board controller's path it is the next answer; on a ring
CQ_PROD advances and one command fewer is outstanding; on a quad it is a MGMT message; its journal entry goes, one of the equal ones. A command that the
journal does not hold gives no completion; while the Referee is down the completion is held. No completion touches the stream table, what a partition
holds, a die or the flash.
Where it follows a reading of the model's own: assumption log 17, 51, 81. -/
def Obligations.CompletionByPath : Prop :=
  ∀ (s : State) (c : Cmd) (op : BitVec 16) (st : Status) (turn : Option Word) (r : List Byte),
    let owed := s.referee.journal.any (fun e => e.isOf c op)
    (s.up = true → owed = true → c.path = .bmc →
      (s.complete c op st turn r).referee.bmcOut = s.referee.bmcOut ++ [completionBytes op st true false c.tag turn r]) ∧
    (s.up = true → owed = true → ∀ p n, c.path = .ring p n →
      (s.complete c op st turn r).reg .mbRingCqProd p n = BitVec.ofNat 64 ((s.field .mbRingCqProd p n 0 32 + 1) % 2 ^ 32) ∧
      ((s.complete c op st turn r).ring p n).outstanding = (s.ring p n).outstanding - 1) ∧
    (s.up = true → owed = true → ∀ p q m x, c.path = .mgmt p q m x →
      ((s.complete c op st turn r).quad q).outMsgs =
        (s.quad q).outMsgs ++ [s.mgmtMsg m 0x02 p 0 x (completionBytes op st true false c.tag turn r)]) ∧
    (s.up = true → (s.complete c op st turn r).referee.journal = s.referee.journal.eraseP (fun e => e.isOf c op)) ∧
    (s.up = true → owed = false → s.complete c op st turn r = s) ∧
    (s.up = false → s.complete c op st turn r =
      { s with referee := { s.referee with held := s.referee.held ++ [(c, op, BitVec.ofNat 8 st.code, turn, r)] } }) ∧
    (s.complete c op st turn r).rows = s.rows ∧ (s.complete c op st turn r).dies = s.dies ∧
    (∀ p, ((s.complete c op st turn r).part p).noView = (s.part p).noView) ∧ (s.complete c op st turn r).flash = s.flash

/-- device.info, device.site_enable, device.site_reserve, device.fw_stage and device.grant_fleet complete (R4, R40, R251, R434).
Where it follows a reading of the model's own: assumption log 18, 19, 20. -/
def Obligations.DeviceCommands : Prop :=
  ∀ (s : State) (c : Cmd),
    (s.taken c rowInfo false → exec (.deviceInfo c) s = .next ((s.enterCommand c rowInfo).complete c 0x0100 .ok none (resultOf
      [(16, [BitVec.ofNat 8 Config.variant.code]), (17, [BitVec.ofNat 8 Config.variant.fusedStep]), (20, leBytes 4 Config.variant.powerLimit),
       (24, leBytes 8 (s.reg .refSamDigest).toNat), (32, leBytes 4 (s.reg .refFwVersion).toNat), (36, leBytes 4 (s.reg .refSamGen).toNat),
       (40, leBytes 2 (s.infoRegions c))]))) ∧
    (∀ site : BitVec 8, site.toNat ≤ 103 → s.taken c rowSiteEnable false → s.siteState site.toNat ≠ .retired →
      (s.siteNext site.toNat = .enabled ∨ s.enabledNext < 100) →
      exec (.deviceSiteEnable c site) s = .next (((s.enterCommand c rowSiteEnable).markSite site.toNat .enabled).complete c 0x0101 .ok) ∧
      (s.markSite site.toNat .enabled).siteNext site.toNat = .enabled) ∧
    (∀ site : BitVec 8, site.toNat ≤ 103 → s.taken c rowSiteReserve false → s.siteState site.toNat ≠ .retired →
      exec (.deviceSiteReserve c site) s = .next (((s.enterCommand c rowSiteReserve).markSite site.toNat .reserve).complete c 0x0102 .ok) ∧
      (s.markSite site.toNat .reserve).siteNext site.toNat = .reserve) ∧
    (∀ (addr : Word) (len : BitVec 32) (u : State) (d : List Byte), len.toNat ≤ 0x1000000 → s.inOwnDram c addr.toNat len.toNat = true →
      s.taken c rowFwStage false → (s.enterCommand c rowFwStage).hostRead addr.toNat len.toNat 0 = (u, .ok d) →
      exec (.deviceFwStage c addr len) s = .next (match Config.image d with
        | some i =>
          if s.imageAccepted i then
            { u.setSlot (!s.referee.runningB) { image := some i } with
              flash := { (u.setSlot (!s.referee.runningB) { image := some i }).flash with preferB := !s.referee.runningB } }.complete c 0x0103 .ok none
              (resultOf [(16, leBytes 4 i.version.toNat)])
          else (u.setSlot (!s.referee.runningB) {}).complete c 0x0103 .notPermitted
        | none => (u.setSlot (!s.referee.runningB) {}).complete c 0x0103 .notPermitted)) ∧
    (∀ part ring : BitVec 8, part.toNat < 8 → ring.toNat < 16 → s.formed part.toNat = true → s.taken c rowGrantFleet false →
      exec (.deviceGrantFleet c part ring) s =
        .next (((s.enterCommand c rowGrantFleet).setField .mbRingCtl part.toNat ring.toNat 1 2 2).complete c 0x0104 .ok))

/-- partition.form, dissolve, reset, cache_layout, publish, policy_set, policy_get and grant run to their completions, or wait in the partition for
the changeover that serves them (R60, R67, R249, R265, R343, R402, R405, R445, R446).
Where it follows a reading of the model's own: assumption log 18, 21, 57. -/
def Obligations.PartitionCommands : Prop :=
  ∀ (s : State) (c : Cmd), let p := c.target.toNat
    (∀ (regions : BitVec 16) (number headless : BitVec 8) (f : TestFindings), s.taken c rowForm false →
      exec (.partitionForm c regions number headless f) s = .next (
        match (s.enterCommand c rowForm).formRefused regions number.toNat headless.toNat with
        | some st => (s.enterCommand c rowForm).complete c 0x0200 st
        | none => (((s.enterCommand c rowForm).formPartition regions number.toNat (decide (headless = 1)) f).recordPartition number.toNat
            (some (regions, decide (headless = 1)))).complete c 0x0200 .ok)) ∧
    (s.taken c rowDissolve false → cmdPart c ≠ some p → s.dissolving p = false →
      ∃ u : State, exec (.partitionDissolve c) s = .next (u.complete c 0x0201 .ok) ∧ ∀ x ∈ u.flash.partitions, x.1 ≠ p) ∧
    (∀ f, s.taken c rowReset false → s.resetting p = false →
      exec (.partitionComputeReset c f) s = .next ((s.enterCommand c rowReset).partitionReset p c false f) ∧
      exec (.partitionFullReset c f) s = .next ((s.enterCommand c rowReset).partitionReset p c true f)) ∧
    (∀ (die : BitVec 8) (f : TestFindings) (u : State), die.toNat < 8 → s.hostOwner die.toNat = some p → s.taken c rowReset false →
      s.hostFenced die.toNat = false → s.flag .hdStatus die.toNat 0 4 = false → (s.part p).resetCmd = none →
      let w := (((s.enterCommand c rowReset).stopHost die.toNat).bump .hdResets die.toNat).calibrateHost die.toNat f
      (w.flag .hdStatus die.toNat 0 4 = true → exec (.hostDieReset c ⟨die, f⟩) s = .next (w.complete c 0x0202 .busy)) ∧
      (w.flag .hdStatus die.toNat 0 4 = false → w.releaseHost p die.toNat = (u, true) →
        exec (.hostDieReset c ⟨die, f⟩) s = .next (u.complete c 0x0202 .ok (some (u.turn p))))) ∧
    (∀ pin tail hsc : BitVec 8, s.taken c rowLayout false → (s.enterCommand c rowLayout).layoutRefused p pin.toNat tail.toNat hsc.toNat = none →
      ∃ u : State, exec (.partitionCacheLayout c pin tail hsc) s = .next (u.complete c 0x0203 .ok) ∧ ∀ q ∈ s.partSquares p,
        u.field .ccLayout q 0 0 8 = pin.toNat ∧ u.field .ccLayout q 0 8 8 = tail.toNat ∧ u.field .ccLayout q 0 16 8 = hsc.toNat) ∧
    (∀ (base : Word) (lines : BitVec 32) (dir : BitVec 8), s.publishArgs p base lines dir = true → s.taken c rowPublish false →
      (s.part p).publishes.length < 64 →
      ∃ u : State, exec (.partitionPublish c base lines dir) s = .next u ∧ (u.part p).publishes =
        (s.part p).publishes ++ [{ cmd := c, base := base.toNat, lines := lines.toNat, toHost := decide (dir = 1) }]) ∧
    (∀ (id : BitVec 16) (v : Word), policyGood id.toNat v.toNat = true → s.taken c rowPolicySet false →
      ∃ u : State, exec (.partitionPolicySet c id v) s = .next u ∧ Sparse.nfind (u.part p).policyNext id.toNat = some v ∧
        (u.part p).queue = (s.part p).queue ++ [{ cmd := c, op := .policySet id v }] ∧ (u.part p).policy = (s.part p).policy) ∧
    (∀ (id : BitVec 16) (d : Word), policyDefault id.toNat = some d → s.taken c rowPolicyGet false →
      exec (.partitionPolicyGet c id) s = .next ((s.enterCommand c rowPolicyGet).complete c 0x0206 .ok none (s.policyResult p id d))) ∧
    (∀ (page grants : BitVec 8) (mask tenant : BitVec 16), page.toNat ≤ 15 → grants.toNat ≤ 7 → s.grantRings p mask tenant = true →
      s.taken c rowGrant false →
      ∃ u : State, exec (.partitionGrant c page grants mask tenant) s = .next (u.complete c 0x0207 .ok) ∧
        Sparse.nget {} (u.part p).grants page.toNat = if grants = 0 then {}
          else { doorbells := bitAt grants 0, counters := bitAt grants 1, logView := bitAt grants 2, ringMask := mask, tenant := tenant })

/-- book.load, unload, map and preempt (R195, R202, R205 to R207).
Where it follows a reading of the model's own: assumption log 12, 18, 22, 23, 67. -/
def Obligations.BookCommands : Prop :=
  ∀ (s : State) (c : Cmd), let p := c.target.toNat
    (∀ (addr len : Word) (u : State) (img : List Byte), s.inPartDram p addr.toNat len.toNat = true → s.taken c rowBookLoad false →
      s.bookLoaded p = false → (s.part p).loading = none → (s.enterCommand c rowBookLoad).hostRead addr.toNat len.toNat 0 = (u, .ok img) →
      exec (.bookLoad c addr len) s = .next (match u.verifyBook p img with
        | .error st => u.refuseLoad p c img st
        | .ok b => u.beginLoad p c b addr.toNat img)) ∧
    (∀ (b : Book) (a : Nat) (img : List Byte), b.span = false → ((s.beginLoad p c b a img).part p).loading =
      some { cmd := c, book := b, image := a, installed := false, heard := [], firstFail := none, reload := false }) ∧
    (∀ flags : BitVec 8, flags.toNat ≤ 1 → s.taken c rowBookUnload false → s.bookLoaded p = true → (s.part p).unload = none →
      ∃ u : State, u = (s.enterCommand c { rowBookUnload with reached := bitAt flags 0 }).modPart p (fun v => { v with unload := some c }) ∧
        exec (.bookUnload c flags) s = .next (if bitAt flags 0 then u.preemptTurn p else u)) ∧
    (∀ (map : BitVec 8) (b : Book), s.book p = some b → map.toNat < b.mapCount → s.taken c rowBookMap false → (s.part p).members = [] →
      ∃ u : State, exec (.bookMap c map) s = .next (u.complete c 0x0302 .ok) ∧ u.reg .sqMapReq p = BitVec.ofNat 64 map.toNat) ∧
    (s.taken c rowBookPreempt false →
      exec (.bookPreempt c) s =
        .next (((s.enterCommand c rowBookPreempt).modPart p (fun v => { v with preemptCmds := v.preemptCmds ++ [c] })).preemptTurn p))

/-- The stream commands and state.tier wait at the end of the partition's queue for the changeover that serves them; state.invalidate and state.query
complete where the handle names a stream that the path may reach (R85, R254, R260, R305, R312).
Where it follows a reading of the model's own: assumption log 13, 18, 55, 91, 92. -/
def Obligations.StreamAndStateCommands : Prop :=
  (∀ (s : State) (c : Cmd), let p := c.target.toNat
    let waits (i : Instr) (op : QueuedOp) : Prop :=
      ∃ u : State, exec i s = .next u ∧ (u.part p).queue = (s.part p).queue ++ [{ cmd := c, op := op }] ∧ u.rows = s.rows ∧ u.mem = s.mem ∧
        (∀ n i j, u.reg n i j = s.reg n i j) ∧ ∀ q, q ≠ p → u.part q = s.part q
    (∀ (tenant : BitVec 16) (prio : BitVec 8), prio.toNat ≤ 3 → s.taken c (streamRow' 0x0400) false →
      waits (.streamOpen c tenant prio) (.streamOpen ((s.cmdTenant c).getD tenant) prio)) ∧
    (∀ (h : Handle) (n : BitVec 32) (prompt : Word), prompt.toNat < 2 ^ 48 → s.taken c (streamRow' 0x0401) false →
      waits (.streamAppend c h n prompt) (.streamAppend h n prompt)) ∧
    (∀ (h : Handle) (n : BitVec 16), n ≠ 0 → s.taken c (streamRow' 0x0402) false → waits (.streamAdvance c h n) (.streamAdvance h n)) ∧
    (∀ h : Handle, s.taken c (streamRow' 0x0403) false → waits (.streamClose c h) (.streamClose h)) ∧
    (∀ h : Handle, s.taken c (streamRow' 0x0404) false → waits (.streamPark c h) (.streamPark h)) ∧
    (∀ h : Handle, s.taken c (streamRow' 0x0405) false → waits (.streamUnpark c h) (.streamUnpark h)) ∧
    (∀ (h : Handle) (m : BitVec 16) (d : BitVec 8), m.toNat ≤ 8190 → d.toNat ≤ 7 → s.taken c rowMigrate false →
      waits (.streamMigrate c h m d) (.streamMigrate h m d)) ∧
    (∀ (h : Handle) (n : BitVec 32), s.taken c (streamRow' 0x0407) false → waits (.streamFork c h n) (.streamFork h n)) ∧
    (∀ (h : Handle) (first pages : BitVec 32) (tier : BitVec 8), pagesGood first pages = true → tier.toNat ≤ 2 → s.taken c rowTier false →
      waits (.stateTier c h first pages tier) (.stateTier h first pages tier))) ∧
  (∀ (s : State) (c : Cmd) (h : Handle) (f : Found), let p := c.target.toNat
    (∀ first pages : BitVec 32, pagesGood first pages = true → s.taken c rowInvalidate false →
      (s.enterCommand c rowInvalidate).resolve p (s.cmdTenant c) h = .ok f →
      ∃ u : State, exec (.stateInvalidate c h first pages) s = .next (u.complete c 0x0500 .ok) ∧
        u = (s.enterCommand c rowInvalidate).invalidate p ((s.enterCommand c rowInvalidate).entryAt p f).handle first.toNat pages.toNat) ∧
    (∀ (page : BitVec 32) (a b : Nat) (e : Word), page.toNat < 2 ^ 21 → s.taken c rowQuery false →
      (s.enterCommand c rowQuery).resolve p (s.cmdTenant c) h = .ok f →
      (s.enterCommand c rowQuery).leafOf ((s.enterCommand c rowQuery).entryAt p f).root.toNat page.toNat = some (a, b, e) →
      exec (.stateQuery c h page) s = .next ((s.enterCommand c rowQuery).complete c 0x0502 .ok none
        (resultOf [(16, [BitVec.ofNat 8 (leafTier e)]), (24, leBytes 8 (entryAddr e))]))))

/-- link.status, retrain and both forms of role_set; log.freeze, thaw, read and clear_keep (R349, R374, R379, R479, R484, R485).
Where it follows a reading of the model's own: assumption log 52, 61. -/
def Obligations.LinkAndLogCommands : Prop :=
  (∀ (s : State) (c : Cmd),
    let status : MailRow := { opcode := 0x0600, level := .kernel }
    let retrain (n : Nat) : MailRow := { opcode := 0x0601, level := .fleet, reached := !(s.quadIsUp n && s.bookUses n) }
    let role : MailRow := { opcode := 0x0602, level := .fleet }
    (∀ quad : BitVec 8, quad.toNat ≤ 223 → s.taken c status false →
      exec (.linkStatus c quad) s = .next ((s.enterCommand c status).complete c 0x0600 .ok none (resultOf
        [(16, [BitVec.ofNat 8 (s.quadRole quad.toNat)]), (17, [BitVec.ofNat 8 (s.quadState quad.toNat)]),
         (18, leBytes 2 (s.partnerOf quad.toNat).toNat), (20, leBytes 4 (s.reg .olRetrains quad.toNat).toNat)]))) ∧
    (∀ quad : BitVec 8, quad.toNat ≤ 223 → s.taken c (retrain quad.toNat) false → s.quadRole quad.toNat ≠ roleDark → s.quadState quad.toNat ≠ quadDark →
      s.quadState quad.toNat ≠ quadVacant →
      ∃ u : State, u = (s.enterCommand c (retrain quad.toNat)).modQuad quad.toNat (fun v => { v with retrainCmds := v.retrainCmds ++ [c] }) ∧
        exec (.linkRetrain c quad) s = .next (if u.quadIsUp quad.toNat then u.retrainQuad quad.toNat else u)) ∧
    (∀ (quad r : BitVec 8), quad.toNat ≤ 223 → r.toNat ≤ 3 → s.taken c role false →
      ∃ u : State, exec (.linkRoleSetRole c quad r 0) s = .next (u.complete c 0x0602 .ok) ∧
        Sparse.nget 3 u.flash.roles quad.toNat = r.setWidth 2 ∧ (∀ q, u.quadRole q = s.quadRole q) ∧
        ∀ q, q ≠ quad.toNat → Sparse.nget 3 u.flash.roles q = Sparse.nget 3 s.flash.roles q) ∧
    (∀ m : BitVec 16, m.toNat ≤ 8190 → s.taken c role false →
      ∃ u : State, exec (.linkRoleSetModuleId c 0 m) s = .next (u.complete c 0x0602 .ok) ∧ u.flash.moduleId = m.setWidth 13 ∧ u.moduleId = s.moduleId)) ∧
  (∀ (s : State) (c : Cmd),
    (s.taken c (logRow 0x0700 .kernel) false → s.flag .evStatus 0 0 1 = false →
      ∃ u : State, exec (.logFreeze c) s = .next (u.complete c 0x0700 .ok) ∧ u.flag .evStatus 0 0 1 = true ∧ u.recorder.frozenBy = some c.path ∧
        u.recorder.flushing = false ∧ u.recorder.ring = s.recorder.ring) ∧
    (s.taken c (logRow 0x0701 .kernel) false →
      (s.flag .evStatus 0 0 1 = false ∨ s.recorder.frozenBy = some c.path ∨ s.pathLevel c = .fleet) →
      exec (.logThaw c) s = .next ((s.enterCommand c (logRow 0x0701 .kernel)).thaw.complete c 0x0701 .ok)) ∧
    (∀ (dest : Word) (first max : BitVec 32), 256 ≤ max.toNat → s.inPartDram c.target.toNat dest.toNat max.toNat = true →
      s.taken c (logRow 0x0702 .kernel) false →
      let e := s.enterCommand c (logRow 0x0702 .kernel)
      let l := takeBytes max.toNat (e.readable c first)
      ∃ (u : State) (r : List Byte), exec (.logRead c dest first max) s = .next (u.complete c 0x0702 .ok none r) ∧
        u.mem = (e.hostWrite dest.toNat (l.flatMap Record.bytes)).mem ∧ r.take 4 = leBytes 4 (l.flatMap Record.bytes).length) ∧
    (s.taken c (logRow 0x0703 .fleet) false →
      ∃ u : State, exec (.logClearKeep c) s = .next (u.complete c 0x0703 .ok) ∧ u.recorder.keep = [] ∧ u.field .evKeep 0 0 0 7 = 0 ∧
        u.flag .evStatus 0 0 4 = false ∧ u.recorder.ring = s.recorder.ring))

/-- Debug: the debug.* commands, and Debug Modules, rooks, sessions, the TAP and batch staging outside the mailbox (R275, R488 to R502).
Where it follows a reading of the model's own: assumption log 26, 62, 69, 71, 79. -/
def Obligations.DebugAccess : Prop :=
  (∀ (s : State) (c : Cmd), let t := c.target.toNat; let p := challengePart c t
    (s.taken c (debugRow 0x0800) false → (s.part p).lockout = false →
      ∃ u : State, exec (.debugChallenge c) s = .next (u.complete c 0x0800 .ok none (s.challengeBytes p)) ∧
        (u.part p).challenge = some { bytes := s.challengeBytes p, ring := ringOf c, tick := s.now }) ∧
    (∀ r : BitVec 384, s.taken c (debugRow 0x0801) false →
      ∃ u : State, exec (.debugRespond c r) s = .next (u.complete c 0x0801 (if s.responseRight p r then .ok else .notPermitted)) ∧
        (u.part p).challenge = none ∧ u.flag .dbSession p 0 63 = (s.responseRight p r || s.flag .dbSession p 0 63) ∧
        (u.part p).lockout = ((s.part p).lockout || (!s.responseRight p r && decide (2 ≤ (s.part p).wrongResponses)))) ∧
    (∀ site : BitVec 8, site.toNat ≤ 103 → s.siteOwner site.toNat = some t → s.taken c (debugRow 0x0802) false → s.sessionOpen t = true →
      s.siteState site.toNat = .enabled → s.siteOut site.toNat = false →
      exec (.debugHalt c site) s = .next (((s.enterCommand c (debugRow 0x0802)).askHalt site.toNat true).complete c 0x0802 .ok)) ∧
    (∀ site : BitVec 8, site.toNat ≤ 103 → s.siteOwner site.toNat = some t → s.taken c (debugRow 0x0803) false → s.sessionOpen t = true →
      exec (.debugResume c site) s = .next (((s.enterCommand c (debugRow 0x0803)).resumeRook site.toNat).complete c 0x0803 .ok)) ∧
    (∀ e : BitVec 8, e.toNat ≤ 3 → s.taken c (debugRow 0x0804) false → s.sessionOpen t = true →
      ∃ u : State, exec (.debugTrace c e) s = .next u ∧ (u.part t).traceNext = some (e.setWidth 2) ∧
        (u.part t).queue = (s.part t).queue ++ [{ cmd := c, op := .debugTrace e }])) ∧
  (∀ s : State,
    (∀ (r : Requester) (i g : Nat), i < 104 → g < 256 →
      exec (.dmRegisterAccess r i g .read) s = .next ((s.access r false (dmAddr i g) 4 none).1.answered (s.access r false (dmAddr i g) 4 none).2)) ∧
    (∀ i, i < 104 → (s.die i).halted = false → (s.die i).inReset = false → (s.die i).rookReady = false →
      ∃ t : State, exec (.rookHalt i .ebreak) s = .next t ∧ (t.die i).halted = true) ∧
    (∀ i, i < 104 → s.dmOpen i = false → exec (.rookHalt i .haltreq) s = .next s) ∧
    (∀ i, s.dmOpen i = true → exec (.rookResume i) s = .next (s.resumeRook i) ∧ ((s.resumeRook i).die i).halted = false) ∧
    (∀ p, s.sessionOpen p = true → ∃ t : State, exec (.sessionExpiry p) s = .next t ∧ t.sessionOpen p = false) ∧
    (∀ p, ∃ t : State, exec (.challengeLockoutEnd p) s = .next t ∧ (t.part p).lockout = false ∧ t.regs = s.regs ∧ ∀ q, q ≠ p → t.part q = s.part q) ∧
    (∀ i, s.tapUnlocked = false → (i = .extest ∨ i = .extestPulse ∨ i = .extestTrain) →
      ∃ t : State, exec (.jtagInstruction i) s = .next t ∧ t.jtag.instr = .bypass ∧ t.regs = s.regs ∧ t.pins = s.pins) ∧
    (∃ t : State, exec (.jtagInstruction .idcode) s = .next t ∧ t.jtag.instr = .idcode ∧ t.regs = s.regs) ∧
    (∀ r : BitVec 384, s.jtag.instr = .dbUnlock → s.jtag.challenge ≠ [] →
      ∃ t : State, exec (.jtagUnlock r) s = .next t ∧ t.jtag.challenge = [] ∧
        t.tapUnlocked = (s.tapUnlocked || (decide ((s.now - s.jtag.tick).toNat ≤ 6000000000) && Config.responseGood s.jtag.challenge r))) ∧
    (∀ (p : Nat) (l : List (Nat × List Handle)), s.up = true → s.formed p = true → s.inPlay p = true → s.bookLoaded p = true →
      exec (.batchStaging p l) s = .next (s.stageBatch p l)))

/-- power.policy_set, policy_get and status (R461 to R463, R467).
Where it follows a reading of the model's own: assumption log 46, 70. -/
def Obligations.PowerCommands : Prop :=
  ∀ (s : State) (c : Cmd) (id : BitVec 16), let p := c.target.toNat; let n := id.toNat
    (∀ v : Word, s.powerGood n v.toNat = true → s.taken c (powerRow 0x0900 .kernel n) false →
      let e := s.enterCommand c (powerRow 0x0900 .kernel n)
      (isCooling n = true → exec (.powerPolicySet c id v) s = .next ((e.writeCooling n v).complete c 0x0900 .ok) ∧ (e.writeCooling n v).cooling n = v.toNat) ∧
      (isCooling n = false → (n ≠ 0x0100 ∨ s.budgetFits p v.toNat = true) →
        exec (.powerPolicySet c id v) s = .next (e.queuePolicy p c id v) ∧ Sparse.nfind ((e.queuePolicy p c id v).part p).policyNext n = some v)) ∧
    (∀ d : Word, s.powerDefault p n = some d → s.taken c (powerRow 0x0901 .tenant n) false →
      exec (.powerPolicyGet c id) s = .next ((s.enterCommand c (powerRow 0x0901 .tenant n)).complete c 0x0901 .ok none
        (if isCooling n then resultOf [(16, leBytes 8 (s.cooling n)), (24, leBytes 8 (s.cooling n))] else s.policyResult p id d))) ∧
    (let row : MailRow := { opcode := 0x0902, level := .tenant, bmc := true, fencedToo := true }
     s.taken c row false → ∃ r, exec (.powerStatus c) s = .next ((s.enterCommand c row).complete c 0x0902 .ok none r) ∧
      r.take 16 = leBytes 4 (s.field .pwModule 0 0 0 32) ++ leBytes 4 (s.field .pwPartPower p 0 32 32) ++
        leBytes 2 (s.field .pwPartBudget p 0 0 16) ++ leBytes 2 (s.field .thHot 0 0 0 16) ++ leBytes 1 (s.field .thHot 0 0 16 8) ++
        leBytes 1 (s.stepNow p) ++ leBytes 1 (s.field .pwStatus 0 0 1 7 * 2) ++ [0])

/-! Moves of a compute die (chapters 4, 6 and 7) -/

/-- NOP, TRACE and YIELD complete as they issue: the sequencer passes them, and their completion
counters are credited. Under pre-emption a YIELD stops issue, and the die has yielded once no move of its goes on (R190, R191, R196, R498, Table 7.3).
Where it follows a reading of the model's own: assumption log 26, 32. -/
def Obligations.SequencerMoves : Prop :=
  ∀ (s : State) (m : MoveHdr) (p : Nat), s.issues m p →
    exec (.nop m) s = .next ((s.advanceSeq m (.nop m)).credit m.site m.cdone.toNat) ∧
    (∀ label : BitVec 16, s.flag .dbTraceCtl p 0 0 = false →
      exec (.trace m label) s = .next ((s.advanceSeq m (.trace m label)).credit m.site m.cdone.toNat)) ∧
    (∀ label : BitVec 16, s.flag .dbTraceCtl p 0 0 = true → (s.die m.site).traceQueue.length < 8 →
      ∃ t : State, exec (.trace m label) s = .next t ∧ (t.die m.site).traceQueue.length = (s.die m.site).traceQueue.length + 1) ∧
    (s.flag .sqPreempt p 0 0 = false → exec (.yield m) s = .next ((s.advanceSeq m (.yield m)).credit m.site m.cdone.toNat)) ∧
    (s.flag .sqPreempt p 0 0 = true → (s.die m.site).flights.all (fun f => f.stopped) = true →
      ∃ t : State, exec (.yield m) s = .next t ∧ t.flag .sqStatus m.site 0 19 = true) ∧
    (s.flag .sqPreempt p 0 0 = true → (s.die m.site).flights.all (fun f => f.stopped) = false →
      ∃ t : State, exec (.yield m) s = .next t ∧ t.flag .sqStatus m.site 0 19 = false ∧ (t.die m.site).yielding = true ∧
        ∀ m' : MoveHdr, m'.site = m.site → t.canIssue p m' = false)

/-- What passing a move changes: SQ_NEXT, SQ_MOVES and the die's own running START and CRC; what crediting one changes: its counter by one,
none for 0xFF (R190, R191). -/
def Obligations.SequencerFrame : Prop :=
  ∀ (s : State) (m : MoveHdr) (c : Instr),
    (s.advanceSeq m c).field .sqNext m.site 0 0 18 = (m.index.toNat + 1) % 2 ^ 18 ∧
    (s.advanceSeq m c).mem = s.mem ∧ (s.advanceSeq m c).parts = s.parts ∧
    (∀ n i j, ¬((n = .sqNext ∨ n = .sqMoves) ∧ i = m.site ∧ j = 0) → (s.advanceSeq m c).reg n i j = s.reg n i j) ∧
    (∀ i, i ≠ m.site → (s.advanceSeq m c).die i = s.die i) ∧
    (∀ i, s.credit i 0xFF = s) ∧
    (∀ i n, n ≠ 0xFF → (s.credit i n).ctr i n = (s.ctr i n + 1) % 2 ^ 32 ∧ (s.credit i n).mem = s.mem ∧ (s.credit i n).dies = s.dies ∧
      ∀ k a b, ¬(k = .sqCtr ∧ a = i ∧ b = n) → (s.credit i n).reg k a b = s.reg k a b)

/-- A move of the matrix, vector, DMA or signature unit that issues with no other in flight: nothing it waits for is missing, so it is performed
at once in the ganging mode in force, and stays in flight until its completion (R118, R149, R170, R190, R191); a vector move that then waits at a row
goes on where it may. w is the state in which it has been issued.
Where it follows a reading of the model's own: assumption log 27. -/
def Obligations.UnitMoves : Prop :=
  ∀ (s : State) (c : Instr) (m : MoveHdr) (p : Nat), moveHdr c = some m → unitMove c = true → s.issues m p → (s.die m.site).flights = [] →
    let w := s.inFlight m c
    (w.moveReady p m.site [] (flightOf m c) = true →
      exec c s = .next
        ((((w.startFlight m.site m.index).perform p m.site (w.modeNow m.site) m c 0 [] []).runWaiting p m.site 3).unitStatus m.site)) ∧
    (w.moveReady p m.site [] (flightOf m c) = false → exec c s = .next (w.unitStatus m.site))

/-- A vector operation of any of the 31 functions that runs to its end leaves what it computed and wrote (R150 to R173), and nothing else of it
remains but the move in flight.
Where it follows a reading of the model's own: assumption log 11, 27, 29, 30, 75, 76, 77. -/
def Obligations.VectorMoves : Prop :=
  ∀ (s : State) (c : Instr) (m : MoveHdr) (p : Nat) (f : VecFunc) (v : VecFields) (o : VecOp) (t : State),
    moveHdr c = some m → vecMove c = some (f, v) → s.issues m p → (s.die m.site).flights = [] →
    let w := s.inFlight m c
    w.moveReady p m.site [] (flightOf m c) = true → (w.startFlight m.site m.index).vecOp p m.site f m.mask v (w.modeNow m.site) = some o →
    (w.startFlight m.site m.index).performVec p m.site o 0 [] [] = (t, .done) → (t.die m.site).flights.all (fun g => !g.waits) = true →
    exec c s = .next (t.unitStatus m.site)

/-- PASS, DRAIN with and without HELD, and GANG; LOAD, STORE and SEND that run to their end, and TWIN. A SEND stays in flight under its XID until its
SACK (R107 to R118, R175 to R180, R188).
Where it follows a reading of the model's own: assumption log 27, 28, 29, 90. -/
def Obligations.MatrixAndDmaMoves : Prop :=
  (∀ (s : State) (m : MoveHdr) (p : Nat) (first count : BitVec 8) (buf : Bool) (w : Waits), s.issues m p → (s.die m.site).flights = [] →
    let run (c : Instr) (u : State) : Prop := exec c s = .next (u.unitStatus m.site)
    let at_ (c : Instr) : State := (s.inFlight m c).startFlight m.site m.index
    (∀ (adesc bdesc : BitVec 12) (k : BitVec 20) (acc sa sb orient : Bool) (t : State),
      let c := Instr.pass m first count adesc bdesc k buf acc sa sb orient w
      (s.inFlight m c).moveReady p m.site [] (flightOf m c) = true →
      (at_ c).performPass p m.site
        { mask := m.mask, first := first.toNat, count := count.toNat + 1, adesc := adesc.toNat, bdesc := bdesc.toNat,
          k := k.toNat, buf := buf, acc := acc, shareA := sa, shareB := sb, pos := orient } = (t, none) →
      (t.die m.site).flights.all (fun g => !g.waits) = true → run c t) ∧
    (let c := Instr.drain m first count buf w
     (s.inFlight m c).moveReady p m.site [] (flightOf m c) = true → run c ((at_ c).performDrain m.site m.index first.toNat (count.toNat + 1) buf false)) ∧
    (let c := Instr.drainHeld m first count buf w
     (s.inFlight m c).moveReady p m.site [] (flightOf m c) = true → run c ((at_ c).performDrain m.site m.index first.toNat (count.toNat + 1) buf true)) ∧
    (∀ mode : BitVec 3, let c := Instr.gang m mode w
      (s.inFlight m c).moveReady p m.site [] (flightOf m c) = true → run c ((at_ c).performGang m.site mode.toNat))) ∧
  (∀ (s : State) (m : MoveHdr) (p : Nat) (d : BitVec 12) (ch : BitVec 3) (t : State), s.issues m p → (s.die m.site).flights = [] →
    let at_ (c : Instr) : State := (s.inFlight m c).startFlight m.site m.index
    let ready (c : Instr) : Prop := (s.inFlight m c).moveReady p m.site [] (flightOf m c) = true
    let mode (c : Instr) : Nat := (s.inFlight m c).modeNow m.site
    let free (u : State) : Prop := (u.die m.site).flights.all (fun g => !g.waits) = true
    (ready (.load m d ch) → (at_ (.load m d ch)).performDma p m.site (mode (.load m d ch)) .load d.toNat m.mask 0 [] [] = (t, .done) → free t →
      exec (.load m d ch) s = .next (t.unitStatus m.site)) ∧
    (ready (.store m d ch) → (at_ (.store m d ch)).performDma p m.site (mode (.store m d ch)) .store d.toNat m.mask 0 [] [] = (t, .done) → free t →
      exec (.store m d ch) s = .next (t.unitStatus m.site)) ∧
    (∀ x, ready (.send m d ch) → (at_ (.send m d ch)).performDma p m.site (mode (.send m d ch)) .send d.toNat m.mask 0 [] [] = (t, .sent x) → free t →
      ∃ u : State, exec (.send m d ch) s = .next u ∧ u.mem = t.mem ∧ ∀ g ∈ (u.die m.site).flights, g.index = m.index → g.sendXid = some x) ∧
    (∀ l : BitVec 12, ready (.twin m l) →
      ∃ u : State, u = (at_ (.twin m l)).performTwin p m.site (mode (.twin m l)) m.mask l.toNat ∧ (free u → exec (.twin m l) s = .next (u.unitStatus m.site))))

/-- MOVE_COMPLETE, SACK_RECEIPT, SEND_ARRIVAL and TRACE_RECORD (R191, R216 to R218, R499, R500).
Where it follows a reading of the model's own: assumption log 27, 32. -/
def Obligations.MoveEvents : Prop :=
  ∀ (s : State) (site p : Nat) (cycle : Word), s.siteOwner site = some p →
    (∀ (index : BitVec 18) (f : Flight),
      (s.die site).flights.find? (fun f => decide (f.index = index) && (s.die site).mayLand f) = some f →
      exec (.moveComplete site index cycle) s = .next (s.landFlight p site f cycle.toNat)) ∧
    (∀ (xid : BitVec 16) (f : Flight), (s.die site).flights.find? (fun f => decide (f.sendXid = some xid)) = some f →
      exec (.sackReceipt site xid cycle) s = .next (s.landFlight p site f cycle.toNat)) ∧
    (∀ k : BnetPacket, k.kind = .send → s.dieAnswer site = none → (s.die site).stale k = false →
      (s.die site).inbound.find? (fun t => decide (t.src = k.src ∧ t.xid = k.xid)) = none →
      ((s.die site).tracked < 64 →
        exec (.sendArrival site k cycle) s = .next ((s.takeLine p site k cycle.toNat).takeWaiting p site cycle.toNat)) ∧
      (64 ≤ (s.die site).tracked → exec (.sendArrival site k cycle) s = .next
        ((s.modSquare (siteSquare site) (fun v => { v with sendWait := v.sendWait ++ [k] })).takeWaiting p site cycle.toNat))) ∧
    (∀ k : BnetPacket, k.kind = .send → s.dieAnswer site = none → (s.die site).stale k = true → (s.square (siteSquare site)).sendWait = [] →
      ∃ t : State, exec (.sendArrival site k cycle) s = .next t ∧ t.mem = s.mem ∧ t.dies = s.dies ∧
        t.reg .bnStaleArrivals (siteSquare site) = (s.reg .bnStaleArrivals (siteSquare site) + 1) &&& RegName.bnStaleArrivals.info.defined) ∧
    (∀ r rest, (s.die site).traceQueue = r :: rest → s.hasToken (siteSquare site) = true →
      ∃ t : State, exec (.traceRecord site) s = .next t ∧ (t.die site).traceQueue = rest ∧
        t.reg .dbTraceHead = (s.reg .dbTraceHead + 1) &&& RegName.dbTraceHead.info.defined) ∧
    ((s.die site).traceQueue = [] ∨ s.hasToken (siteSquare site) = false → exec (.traceRecord site) s = .next s)

/-! Turns, the S-net and the game clock (chapters 3, 8) -/

/-- Play starts at a die, and the overrun, slip and abort of a turn (R83, R87, R92 to R94, R100).
Where it follows a reading of the model's own: assumption log 4, 24, 89. -/
def Obligations.PlayAndBoundaries : Prop :=
  ∀ (s : State) (p site : Nat),
    (s.siteOwner site = some p → s.inPlay p = true → s.inService site = true → (s.die site).playing = false →
      (s.reg .tnStart p).toNat ≤ (s.now (siteSquare site)).toNat → (s.die site).haltPending = false → (s.die site).rookFault = false →
      ∃ u : State, exec (.playStart site) s = .next (if s.dieIssues p site then u else u.signalDone p site 0) ∧ (u.die site).playing = true ∧
        (u.die site).accum = [] ∧ (u.die site).bufs = [] ∧ u.reg .sqNext site = 0 ∧ u.field .sqStatus site 0 16 5 = 0 ∧
        u.field .mxStatus site 0 32 3 = s.field .mxModeInit site 0 0 3) ∧
    ((s.part p).stage = .play → s.phase p = 1 → (s.part p).pastEnd = false → (s.part p).emptyTurn = false → s.allDone p = false →
      s.anyHalted p = false →
      ∃ t : State, exec (.plannedBoundary p) s = .next t ∧ t.phase p = 3 ∧ t.flag .tnStatus p 0 1 = true ∧ (t.part p).overran = true ∧
        t.reg .tnOverruns p = (s.reg .tnOverruns p + 1) &&& RegName.tnOverruns.info.defined) ∧
    ((s.part p).stage = .play → s.phase p = 3 → (s.part p).members = [] → s.allDone p = true → s.anyHalted p = false →
      ∃ t : State, exec (.slipChangeoverStart p) s = .next t ∧ (t.part p).stage = .begun ∧ (t.part p).chgStart = s.now ∧
        t.reg .tnLastSlip p = BitVec.ofNat 64 ((s.now - (s.part p).boundary).toNat % 2 ^ 32)) ∧
    ((s.part p).stage = .play → s.phase p = 3 → s.anyHalted p = false → (s.part p).pausePending = false → s.allDone p = false →
      exec (.slipLimit p) s = .next (s.abortTurn p abortSlip) ∧ ((s.abortTurn p abortSlip).part p).aborted = true ∧
      ((s.abortTurn p abortSlip).part p).chgBase = s.now + 500)

/-- A changeover: its start, the end of an abort's drain, its work, the change of the step's clock, the rook window, the barrier, the
stretch and a preemption (R80, R85 to R90, R94, R197).
Where it follows a reading of the model's own: assumption log 4, 22, 23, 24, 78, 79. -/
def Obligations.Changeovers : Prop :=
  ∀ (s : State) (p site chosen : Nat),
    ((s.part p).stage = .draining → s.phase p = 2 → s.anyHalted p = false →
      exec (.abortDrainEnd p chosen) s = .next (((s.beginChangeover p chosen).markMaint p).placeWaiting p)) ∧
    ((s.part p).stage = .begun →
      exec (.changeoverStart p chosen) s = .next (((s.beginChangeover p chosen).markMaint p).placeWaiting p)) ∧
    (∀ k : BitVec 3, (s.part p).stepPending = some k → ((s.part p).stage = .started ∨ (s.part p).stage = .worked) →
      ∃ t : State, exec (.clockStepChange p) s = .next t ∧ t.stepNow p = k.toNat ∧ (t.part p).stepPending = none) ∧
    (∀ (lines ops : Nat) (nodes : List Addr), (s.part p).stage = .started →
      exec (.changeoverWork p lines ops nodes) s = .next (s.contextWork p lines ops nodes)) ∧
    (∀ (sheets : List (Nat × Byte)) (failing : List (Nat × Nat)) (copied : Bool), s.siteOwner site = some p → (s.part p).stage = .worked →
      s.inService site = true → (s.die site).pipNext = false → (s.turn p).toNat % 256 ≠ site →
      ∃ t : State, exec (.rookWindow site sheets failing copied) s = .next t ∧ (t.die site).batchCopy = (s.readSlice p site).2.1.map Prod.fst ∧
        (t.die site).tailMap = (s.readSlice p site).2.1.map Prod.snd ∧ (t.die site).notAdvanced = [] ∧ (copied = true → (t.die site).standbyReady = true)) ∧
    (s.siteOwner site = some p → (s.part p).stage = .worked → s.inService site = true → (s.die site).rookReady = false →
      ∃ t : State, exec (.rookReady site) s = .next t ∧ (t.die site).rookReady = true) ∧
    ((s.part p).stage = .worked → s.phase p = 2 → (s.part p).stopNext = false → s.lateRooks p = [] →
      ∃ t : State, exec (.startOfPlayBarrier p) s = .next t ∧ (t.part p).stage = .ready ∧
        (t.part p).nextPlay = some ((s.part p).chgBase + BitVec.ofNat 64 (s.part p).chgNow)) ∧
    ((s.part p).stage = .worked → s.phase p = 2 → (s.part p).stopNext = false → s.lateRooks p ≠ [] →
      ∃ t : State, exec (.startOfPlayBarrier p) s = .next t ∧ t.phase p = 4 ∧
        t.reg .tnStretches p = (s.reg .tnStretches p + 1) &&& RegName.tnStretches.info.defined) ∧
    ((s.part p).stage = .worked → s.phase p = 4 → (s.lateRooks p).filter (fun i => decide (i ∈ (s.part p).lateRooks)) = [] →
      ∃ t : State, exec (.stretchTimeout p) s = .next t ∧ (t.part p).nextPlay = some ((s.part p).chgBase + BitVec.ofNat 64 (2 * (s.part p).chgNow)) ∧
        (t.part p).emptyNext = true ∧ (t.part p).lateRooks = s.lateRooks p) ∧
    (s.inPlay p = true → s.flag .sqPreempt p 0 0 = true → s.anyHalted p = false →
      (s.enabledSites p).all (fun i => s.dieDone p i || s.flag .sqStatus i 0 19 || s.flag .sqStatus i 0 18) = true →
      ∃ t : State, exec (.preemptionComplete p) s = .next t ∧ (t.part p).stage = .begun ∧ (t.part p).aborted = true ∧ (t.part p).chgStart = s.now)

/-- The messages of the S-net at a square: each is counted, and DONE, READY and YIELDED climb the tree (R234 to R236).
Where it follows a reading of the model's own: assumption log 59. -/
def Obligations.SnetMessages : Prop :=
  ∀ (s : State) (q : Nat),
    let counted (t : State) : Prop := t.reg .snMsgs q = (s.reg .snMsgs q + 1) &&& RegName.snMsgs.info.defined
    (∀ v : BitVec 56, ∃ t : State, exec (.time q v) s = .next t ∧ counted t) ∧
    (∃ t : State, exec .timeBroadcast s = .next t ∧ t.reg .snMsgs 15 = (s.reg .snMsgs 15 + 1) &&& RegName.snMsgs.info.defined ∧ t.clock = s.clock) ∧
    (∀ (n : BitVec 56) (p : Nat), s.owner q = some p → (s.turn p).toNat % 2 ^ 56 = n.toNat → s.phase p = 2 →
      ∃ t : State, exec (.boundary q n) s = .next t ∧ counted t ∧ t.flag .bnStatus q 0 8 = false) ∧
    (∀ d, d ∈ s.treeChildren q → s.linkIdle q d = false → (s.treeChildren q).all (fun c => decide (c ∈ Sparse.insertNat (s.square q).snDone d)) = true → s.ownDie q = false →
      ∃ t : State, exec (.done q d) s = .next t ∧ counted t ∧ 5 ∈ (t.square q).snDone) ∧
    (∀ d, d ∈ s.treeChildren q → s.linkIdle q d = false → ∃ t : State, exec (.ready q d) s = .next t ∧ counted t ∧ d ∈ (t.square q).snReady) ∧
    (∀ d, d ∈ s.treeChildren q → s.linkIdle q d = false → ∃ t : State, exec (.yielded q d) s = .next t ∧ counted t ∧ d ∈ (t.square q).snYielded) ∧
    (∀ p i, s.owner q = some p → squareSite q = some i → s.flag .sqPreempt p 0 0 = true → s.inPlay p = true → s.dieDone p i = true →
      s.siteEnabled i = true → ∃ t : State, exec (.preempt q) s = .next t ∧ counted t ∧ t.flag .sqStatus i 0 19 = true ∧ 4 ∈ (t.square q).snYielded) ∧
    (∀ p i, s.owner q = some p → squareSite q = some i → (s.part p).stage = .draining →
      ∃ t : State, exec (.abort q) s = .next t ∧ counted t ∧ (t.die i).playing = false ∧ (t.die i).check = none)

/-- The game clock: a tick, an adjusting tick, a TIME message at a local copy, a crossing's margin, and the loss and return of CLK_REF (R70 to R74).
Where it follows a reading of the model's own: assumption log 4. -/
def Obligations.GameClock : Prop :=
  ∀ s : State,
    (s.clock.running = true → ∃ t : State, exec .gameClockTick s = .next t ∧ t.clock.counter = s.clock.counter + 1) ∧
    (s.clock.running = true → 0 < s.clock.slew → ∃ t : State, exec .slewAdjust s = .next t ∧ t.clock.counter = s.clock.counter + 2 ∧
      t.clock.slew = s.clock.slew - 1) ∧
    (s.clock.running = true → s.clock.slew < 0 → ∃ t : State, exec .slewAdjust s = .next t ∧ t.clock.counter = s.clock.counter ∧
      t.clock.slew = s.clock.slew + 1) ∧
    (∃ t : State, exec .clkRefLoss s = .next t ∧ t.flag .gcStatus 0 0 0 = true ∧ t.flag .gcStatus 0 0 1 = false ∧ t.pins.alertN = false ∧
      t.clock = s.clock) ∧
    (∀ d : BitVec 32, s.flag .gcStatus 0 0 0 = true → ∃ t : State, exec (.clkRefRelock d) s = .next t ∧ t.flag .gcStatus 0 0 0 = false ∧
      t.flag .gcStatus 0 0 1 = true ∧ t.clock.slew = (BitVec.ofInt 32 (s.clock.slew + d.toInt)).toInt ∧ t.clock.counter = s.clock.counter) ∧
    (∀ q, ∃ t : State, exec (.crossingMarginLow q) s = .next t ∧ t.reg .xlMargin q = (s.reg .xlMargin q + 1) &&& RegName.xlMargin.info.defined) ∧
    (∀ (q : Nat) (v : BitVec 56), s.ready = true →
      let lat := (2 * s.field .snTimeLat q 0 0 8 + 15) / 30
      let d : Int := ((s.now q).setWidth 56 - (v + BitVec.ofNat 56 lat)).toInt
      ∃ t : State, exec (.time q v) s = .next t ∧ t.now q = s.now q ∧
        (2 < d.natAbs → t.reg .gcFix q = (s.reg .gcFix q + 1) &&& RegName.gcFix.info.defined) ∧
        (d.natAbs ≤ 2 → t.reg .gcFix q = s.reg .gcFix q))

/-! Registers and rings (chapters 0, 9) -/

/-- A naturally aligned write of a whole register by Tolerabor, and by any other requester that reaches the window over no fence, reaches the register
at its address, and nothing else but the C-net's packet counters and the answer; a requester that the window does not serve gets a bus error, one that
crosses a partition's boundary finds it fenced, a rook's write to a register of another square is dropped, and a hart's without privilege is counted
(R8, R18, R237, R331). k is any key that lies where its address says. The commands that write one register are that write at its address.
Where it follows a reading of the model's own: assumption log 14, 16, 84, 87. -/
def Obligations.RegisterWriteReachesRegister : Prop :=
  (∀ (s : State) (k : RegKey) (v : Word), spotAt k.addr = .reg k 0 → 0xF00000000000 ≤ k.addr → k.addr < 0xF10001000000 → k.addr % 8 = 0 →
    k.addr < 2 ^ 48 →
    (s.coresRun = true → exec (.registerWrite .referee (BitVec.ofNat 48 k.addr) 8 v) s =
      .next (((s.writeReg .referee k 0 8 v).countRegister .referee k.addr).answered (.ok []))) ∧
    ∀ r : Requester, s.blocked r = false → s.memoryFence r k.addr 8 = none → s.memoryCut r k.addr 8 = false → s.reach r k.addr true = .yes →
      s.crossing true r.square (windowSquare k.addr) = none → exec (.registerWrite r (BitVec.ofNat 48 k.addr) 8 v) s =
        .next (((s.writeReg r k 0 8 v).countRegister r k.addr).answered (.ok []))) ∧
  (∀ (s : State) (k : RegKey) (v : Word) (r : Requester), spotAt k.addr = .reg k 0 → 0xF00000000000 ≤ k.addr → k.addr < 0xF10001000000 →
    k.addr % 8 = 0 → k.addr < 2 ^ 48 → s.blocked r = false → s.memoryFence r k.addr 8 = none → s.memoryCut r k.addr 8 = false →
    let write := exec (.registerWrite r (BitVec.ofNat 48 k.addr) 8 v) s
    (∀ q, s.reach r k.addr true = .yes → s.crossing true r.square (windowSquare k.addr) = some q →
      write = .next ((s.bump .cnFenceDrop q).answered (.error .partitionFenced))) ∧
    (s.reach r k.addr true = .no → write = .next ((s.unmapped r.square .notPermitted k.addr).answered (.error .notPermitted))) ∧
    (s.reach r k.addr true = .blind → write = .next (((s.dropWrite k 0x02).countRegister r k.addr).answered (.ok []))) ∧
    (∀ h c mode, r = .hart h c mode → s.reach r k.addr true = .fault → write = .next ((s.bump .hdPrivFaults h).answered (.error .notPermitted)))) ∧
  (∀ (s : State) (r : Requester) (v : Word) (x : BitVec 32) (y : BitVec 8) (z : BitVec 5) (p n w k : Nat), p < 8 → n < 16 → w < 64 → k < 48 →
    let write (k : RegKey) (size : Nat) (v : Word) := exec (.registerWrite r (BitVec.ofNat 48 k.addr) size v) s
    exec (.gcSet r v) s = write (rk .gcSet) 8 v ∧ exec (.gcSlew r v) s = write (rk .gcSlew) 8 v ∧ exec (.refWdog r v) s = write (rk .refWdog) 8 v ∧
    exec (.mbRingProd r p n x) s = write (rk .mbRingProd p n) 4 (x.setWidth 64) ∧
    exec (.mbRingCqCons r p n x) s = write (rk .mbRingCqCons p n) 4 (x.setWidth 64) ∧
    exec (.ringEnable r p n v) s = write (rk .mbRingCtl p n) 8 (putBit v 0 true) ∧
    exec (.ringDisable r p n v) s = write (rk .mbRingCtl p n) 8 (putBit v 0 false) ∧
    exec (.ccPubWrite r p n false v) s = write (rk .ccPubBase p n) 8 v ∧ exec (.ccPubWrite r p n true v) s = write (rk .ccPubLen p n) 8 v ∧
    exec (.stPinLend r p y) s = write (rk .stPinLend p) 8 (y.setWidth 64) ∧
    exec (.olPoolMap r w false v) s = write (rk .olPoolMap 0 w) 8 v ∧ exec (.olPoolMap r w true v) s = write (rk .olPoolQuads 0 w) 8 v ∧
    exec (.mcErase r k z) s = write (rk .mcErase k) 8 (z.setWidth 64))

/-- R7, R14, R15, R18, R472: a write with a reserved bit set, to a register that only Tolerabor writes by another requester, to a read-only register, or
from Ready on to a register of class B, is dropped: the register keeps its value, and only the event recorder moves. While its block runs, a write that
would change a K field of a register with no live field is dropped and sets BUSY_WRITE where the block has a status register.
Where it follows a reading of the model's own: assumption log 14, 16. -/
def Obligations.RefusedWrites : Prop :=
  (∀ (s : State) (r : Requester) (k : RegKey) (v : Word), k.name.ofRecorder = false →
    (v &&& ~~~k.name.info.defined ≠ 0 ∨ (k.name.info.refereeOnly = true ∧ r ≠ .referee) ∨ k.name.info.readOnly = k.name.info.defined ∨
      (k.name.info.clearOnZero = true ∧ v ≠ 0) ∨
      (k.name.info.clearOnZero = false ∧ k.name.info.cls = .boot ∧ s.ready = true)) →
    Recorded s (s.writeReg r k 0 8 v) ∧ (s.writeReg r k 0 8 v).reg k.name k.i k.j = s.reg k.name k.i k.j) ∧
  (∀ (s : State) (r : Requester) (k : RegKey) (v : Word), v &&& ~~~k.name.info.defined = 0 →
    (k.name.info.refereeOnly = false ∨ r = .referee) → k.name.info.readOnly ≠ k.name.info.defined → k.name.info.clearOnZero = false →
    k.name.info.cls = .locked → k.name.info.liveMask = 0 → s.blockRunning k = true → (v ^^^ s.readReg k) &&& k.name.info.defined ≠ 0 →
    (∀ b, busyRegister k.name = some b →
      (s.writeReg r k 0 8 v).flag b k.i (if b = RegName.mbRingStatus then k.j else 0) 0 = true) ∧
    (s.writeReg r k 0 8 v).reg k.name k.i k.j = s.reg k.name k.i k.j)

/-- Registers whose write is an operation: GC_SET, GC_SLEW and REF_WDOG; standing publish ranges, the pin lend, pool windows and MC_ERASE, with the writes that their
checks refuse (R68, R70, R74, R243, R306, R361, R382, R385).
Where it follows a reading of the model's own: assumption log 16. -/
def Obligations.OperationRegisters : Prop :=
  (∀ (s : State) (v : Word), s.coresRun = true →
    (s.ready = false → ∃ t : State, exec (.gcSet .referee v) s = .next t ∧ t.clock.counter = v ∧ t.clock.fixing = [] ∧
      ∀ q, q < 256 → q ≠ 15 → t.now q = s.now q) ∧
    (s.ready = true → ∃ t : State, exec (.gcSet .referee v) s = .next t ∧ t.clock = s.clock) ∧
    (v.toNat < 2 ^ 32 → ∃ t : State, exec (.gcSlew .referee v) s = .next t ∧ t.clock.slew = (v.setWidth 32).toInt ∧
      t.flag .gcStatus 0 0 2 = decide (v ≠ 0) ∧ t.clock.counter = s.clock.counter) ∧
    (∃ t : State, exec (.refWdog .referee v) s = .next t ∧ t.reg .refWdog = v ∧ t.referee.lastWdog = s.now ∧
      (s.referee.wdogWritten = true → s.now.toNat < s.referee.lastToggle.toNat + 100000 → t.pins.heartbeat = s.pins.heartbeat) ∧
      (s.referee.lastToggle.toNat + 100000 ≤ s.now.toNat → t.pins.heartbeat = !s.pins.heartbeat))) ∧
  (∀ (s : State) (p n : Nat), s.coresRun = true → p < 8 →
    (∀ v : Word, n < 16 → v &&& ~~~RegName.ccPubBase.info.defined = 0 →
      s.pubAllowed p n (fun m => if m = n then v else s.reg .ccPubBase p m) (fun m => s.reg .ccPubLen p m) = true →
      ∃ t : State, exec (.ccPubWrite .referee p n false v) s = .next t ∧ t.reg .ccPubBase p n = v) ∧
    (∀ v : Word, n < 16 → v &&& ~~~RegName.ccPubLen.info.defined = 0 →
      s.pubAllowed p n (fun m => s.reg .ccPubBase p m) (fun m => if m = n then v else s.reg .ccPubLen p m) = true →
      ∃ t : State, exec (.ccPubWrite .referee p n true v) s = .next t ∧ t.reg .ccPubLen p n = v) ∧
    (∀ v : Word, n < 16 → s.pubAllowed p n (fun m => if m = n then v else s.reg .ccPubBase p m) (fun m => s.reg .ccPubLen p m) = false →
      ∃ t : State, exec (.ccPubWrite .referee p n false v) s = .next t ∧ t.reg .ccPubBase p n = s.reg .ccPubBase p n) ∧
    (∀ v : Word, n < 16 → s.pubAllowed p n (fun m => s.reg .ccPubBase p m) (fun m => if m = n then v else s.reg .ccPubLen p m) = false →
      ∃ t : State, exec (.ccPubWrite .referee p n true v) s = .next t ∧ t.reg .ccPubLen p n = s.reg .ccPubLen p n) ∧
    (∀ v : BitVec 8, (∀ q ∈ s.partSquares p, v.toNat ≤ s.field .ccLayout q 0 0 8) → s.field .stPinLend p 0 0 8 ≤ v.toNat →
      ∃ t : State, exec (.stPinLend .referee p v) s = .next t ∧ t.reg .stPinLend p = v.setWidth 64) ∧
    (∀ v : BitVec 8, (∃ q ∈ s.partSquares p, s.field .ccLayout q 0 0 8 < v.toNat ∨
        ∃ u, s.field .ccLayout q 0 0 8 - s.field .stPinLend p 0 0 8 < u ∧ u + v.toNat ≤ s.field .ccLayout q 0 0 8 ∧
          v.toNat < s.field .stPinLend p 0 0 8 ∧ s.unitHoldsPage p q u = true) →
      ∃ t : State, exec (.stPinLend .referee p v) s = .next t ∧ t.reg .stPinLend p = s.reg .stPinLend p) ∧
    (∀ v : Word, n < 64 →
      let fits (map quads : Word) : Bool := !bitAt map 63 || (s.formed (bitsAt map 48 3) &&
        (poolQuads quads).all (fun q => decide (q < 224) && decide (q ∈ s.partQuads (bitsAt map 48 3))))
      (v &&& ~~~RegName.olPoolMap.info.defined = 0 → s.poolRunning n = false → fits v (s.reg .olPoolQuads 0 n) = true →
        ∃ t : State, exec (.olPoolMap .referee n false v) s = .next t ∧ t.reg .olPoolMap 0 n = v) ∧
      (s.poolRunning n = false → fits (s.reg .olPoolMap 0 n) v = true →
        ∃ t : State, exec (.olPoolMap .referee n true v) s = .next t ∧ t.reg .olPoolQuads 0 n = v) ∧
      (s.poolRunning n = true ∨ fits v (s.reg .olPoolQuads 0 n) = false →
        ∃ t : State, exec (.olPoolMap .referee n false v) s = .next t ∧ t.reg .olPoolMap 0 n = s.reg .olPoolMap 0 n) ∧
      (s.poolRunning n = true ∨ fits (s.reg .olPoolMap 0 n) v = false →
        ∃ t : State, exec (.olPoolMap .referee n true v) s = .next t ∧ t.reg .olPoolQuads 0 n = s.reg .olPoolQuads 0 n)) ∧
    (∀ v : BitVec 5, n < 48 → (v.toNat ≤ 17 ∨ v.toNat = 31) →
      ∃ t : State, exec (.mcErase .referee n v) s = .next t ∧ t.reg .mcErase n = v.setWidth 64 ∧ t.flag .mcEccStatus n 0 1 = decide (v.toNat ≠ 31)) ∧
    (∀ v : BitVec 5, n < 48 → 17 < v.toNat → v.toNat < 31 →
      ∃ t : State, exec (.mcErase .referee n v) s = .next t ∧ t.reg .mcErase n = s.reg .mcErase n ∧
        t.flag .mcEccStatus n 0 1 = s.flag .mcEccStatus n 0 1))

/-- Rings: the doorbell, the completion index, ENABLE, the close of a ring, its MSI, and a visit that accepts the next command from the ring's own bytes
(R251, R252, R254 to R257).
Where it follows a reading of the model's own: assumption log 17. -/
def Obligations.RingRegisters : Prop :=
  (∀ (s : State) (p n : Nat), s.coresRun = true → p < 8 → n < 16 →
    (∀ v : BitVec 32, (v.toNat + 2 ^ 32 - s.field .mbRingCons p n 0 32) % 2 ^ 32 ≤ ringEntries (s.reg .mbRingSq p n) →
      ∃ t : State, exec (.mbRingProd .referee p n v) s = .next t ∧ t.reg .mbRingProd p n = v.setWidth 64 ∧
        t.flag .mbRingStatus p n 2 = s.flag .mbRingStatus p n 2) ∧
    (∀ v : BitVec 32, ringEntries (s.reg .mbRingSq p n) < (v.toNat + 2 ^ 32 - s.field .mbRingCons p n 0 32) % 2 ^ 32 →
      ∃ t : State, exec (.mbRingProd .referee p n v) s = .next t ∧ t.reg .mbRingProd p n = s.reg .mbRingProd p n ∧
        t.flag .mbRingStatus p n 1 = true ∧ t.flag .mbRingStatus p n 2 = true) ∧
    (∀ v : BitVec 32, ∃ t : State, exec (.mbRingCqCons .referee p n v) s = .next t ∧
      t.field .mbRingCqCons p n 0 32 = v.toNat ∧ (s.reg .mbRingCqCons p n ≠ t.reg .mbRingCqCons p n → t.flag .mbRingStatus p n 3 = false)) ∧
    (∀ v : Word, v &&& ~~~RegName.mbRingCtl.info.defined = 0 → bitsAt v 1 2 ≠ 3 → s.flag .mbRingCtl p n 0 = false →
      s.ringBasesGood p n = true → ∃ t : State, exec (.ringEnable .referee p n v) s = .next t ∧ t.flag .mbRingCtl p n 0 = true ∧
        t.field .mbRingCtl p n 1 2 = bitsAt v 1 2 ∧ t.field .mbRingCtl p n 16 16 = bitsAt v 16 16) ∧
    (∀ v : Word, v &&& ~~~RegName.mbRingCtl.info.defined = 0 → bitsAt (s.reg .mbRingCtl p n) 1 2 ≠ 3 → bitsAt v 1 2 ≠ 3 →
      s.flag .mbRingCtl p n 0 = true → (s.ring p n).outstanding = 0 →
      ∃ t : State, exec (.ringDisable .referee p n v) s = .next t ∧ t.flag .mbRingCtl p n 0 = false ∧ t.reg .mbRingProd p n = 0 ∧
        t.reg .mbRingCons p n = 0 ∧ t.reg .mbRingCqProd p n = 0 ∧ t.reg .mbRingCqCons p n = 0 ∧ t.reg .mbRingStatus p n = 0 ∧
        t.ring p n = { s.ring p n with closing := false }) ∧
    (∀ v : Word, v &&& ~~~RegName.mbRingCtl.info.defined = 0 → bitsAt (s.reg .mbRingCtl p n) 1 2 ≠ 3 → bitsAt v 1 2 ≠ 3 →
      s.flag .mbRingCtl p n 0 = true → (s.ring p n).outstanding ≠ 0 →
      ∃ t : State, exec (.ringDisable .referee p n v) s = .next t ∧ t.flag .mbRingCtl p n 0 = true ∧
        t.ring p n = { s.ring p n with closing := true }) ∧
    ((s.ring p n).closing = true → (s.ring p n).outstanding = 0 →
      exec (.ringDrained p n) s = .next (s.closeRing p n) ∧ (s.closeRing p n).flag .mbRingCtl p n 0 = false ∧
        (s.closeRing p n).ring p n = { s.ring p n with closing := false }) ∧
    ((s.ring p n).msiOwed = true → exec (.msiHoldoffExpiry p n) s = .next (s.ringMsi p n) ∧ ((s.ringMsi p n).ring p n).msiOwed = false ∧
      ((s.ringMsi p n).ring p n).lastMsi = some s.now)) ∧
  (∀ (s u : State) (p n : Nat) (f : TestFindings) (b : List Byte),
    let i := s.field .mbRingCons p n 0 32
    s.up = true → s.ringWaits p n = true → s.ringRoom p n = true →
    s.hostRead (ringBase (s.reg .mbRingSq p n) + i % ringEntries (s.reg .mbRingSq p n) * 64) 64 0 = (u, .ok b) →
    ¬((cmdOf (.ring p n) b).fence = true ∧ (u.ring p n).outstanding ≠ 0) →
    exec (.ringVisit p n f) s =
      .next (((u.setReg .mbRingCons p n (BitVec.ofNat 64 ((i + 1) % 2 ^ 32))).mailCommand (.ring p n) b f).visitRing p n f 15))

/-- A command that comes as bytes is the row of Table 9.11 that its opcode spells, with its arguments at their bytes (Table 9.8); the board controller's
path (R266, R431).
Where it follows a reading of the model's own: assumption log 17, 18. -/
def Obligations.CommandBytes : Prop :=
  (∀ (s : State) (path : CmdPath) (b : List Byte) (f : TestFindings), let c := cmdOf path b
    (bytesAt b 0 2 = 0x0100 → exec (.deviceInfo c) s = .next (s.mailCommand path b f)) ∧
    (bytesAt b 0 2 = 0x0200 →
      exec (.partitionForm c (BitVec.ofNat 16 (bytesAt b 16 2)) (BitVec.ofNat 8 (bytesAt b 18 1)) (BitVec.ofNat 8 (bytesAt b 19 1)) f) s =
        .next (s.mailCommand path b f)) ∧
    (bytesAt b 0 2 = 0x0202 → bytesAt b 16 1 = 2 → exec (.hostDieReset c ⟨BitVec.ofNat 8 (bytesAt b 17 1), f⟩) s = .next (s.mailCommand path b f)) ∧
    (bytesAt b 0 2 = 0x0300 →
      exec (.bookLoad c (BitVec.ofNat 64 (bytesAt b 16 8)) (BitVec.ofNat 64 (bytesAt b 24 8))) s = .next (s.mailCommand path b f)) ∧
    (bytesAt b 0 2 = 0x0401 →
      exec (.streamAppend c (BitVec.ofNat _ (bytesAt b 16 4)) (BitVec.ofNat 32 (bytesAt b 20 4)) (BitVec.ofNat 64 (bytesAt b 24 8))) s =
        .next (s.mailCommand path b f)) ∧
    (bytesAt b 0 2 = 0x0501 →
      exec (.stateTier c (BitVec.ofNat _ (bytesAt b 16 4)) (BitVec.ofNat 32 (bytesAt b 20 4)) (BitVec.ofNat 32 (bytesAt b 24 4))
        (BitVec.ofNat 8 (bytesAt b 28 1))) s = .next (s.mailCommand path b f)) ∧
    (bytesAt b 0 2 = 0x0602 → bytesAt b 16 1 = 0xFF →
      exec (.linkRoleSetModuleId c (BitVec.ofNat 8 (bytesAt b 17 1)) (BitVec.ofNat 16 (bytesAt b 18 2))) s = .next (s.mailCommand path b f)) ∧
    (bytesAt b 0 2 = 0x0801 → exec (.debugRespond c (BitVec.ofNat 384 (bytesAt b 16 48))) s = .next (s.mailCommand path b f)) ∧
    (bytesAt b 0 2 = 0x0000 → s.accepts c = true →
      s.mailCommand path b f = (s.enterCommand c { opcode := 0, level := .tenant }).complete c 0 .badArgument)) ∧
  (∀ (s : State) (bytes : List Byte) (f : TestFindings),
    (s.flag .refBoot 0 0 18 = true → exec (.bmcCommand bytes f) s = .next (s.mailCommand .bmc (padTo 64 bytes) f)) ∧
    (s.flag .refBoot 0 0 18 = false → ∃ t : State, exec (.bmcCommand bytes f) s = .next t ∧
      t.referee.bmcOut = s.referee.bmcOut ++ [leBytes 8 (s.reg .refBoot).toNat] ∧ t.mem = s.mem ∧ t.regs = s.regs))

/-! Networks (chapter 8) -/

/-- Packets of both networks at a router: failed checks and the sixteenth of a packet, fences, delivery, the full egress buffer of a port, replays, the
head of a circuit, ejection, and the release of a C-net injection (R213, R214, R221, R227 to R230, R232, R233, R237, R239).
Where it follows a reading of the model's own: assumption log 10, 33, 66, 80. -/
def Obligations.NetworkPackets : Prop :=
  (∀ (s : State) (q d n : Nat) (k : BnetPacket), d < 4 → neighbour q d = some n → s.maintOnly q = false →
    let live := s.flag .bnStatus q 0 (4 + d) = false ∧ s.clamped n q = false
    (∀ check, live → check ≠ k.check → s.failsOf q d k < 15 →
      ∃ t : State, exec (.bnetPacket q d check k) s = .next t ∧ t.failsOf q d k = s.failsOf q d k + 1 ∧
        (t.square q).naks = (s.square q).naks ++ [(d, k)] ∧ t.regs = s.regs ∧ t.mem = s.mem) ∧
    (∀ check, live → check ≠ k.check → s.failsOf q d k = 15 →
      ∃ t : State, exec (.bnetPacket q d check k) s = .next t ∧ t.flag .bnStatus q 0 (4 + d) = true ∧
        t.flag .bnStatus n 0 (4 + opposite d) = true ∧ t.mem = s.mem) ∧
    (live → s.portHeld q k = false → s.hasInput q d k = true → s.owner q ≠ s.owner n → bnetRequest k.kind = false →
      ∃ t : State, exec (.bnetPacket q d k.check k) s = .next t ∧ t.mem = s.mem ∧ t.dies = s.dies ∧ t.parts = s.parts ∧
        t.reg .bnFenceDrop q = (s.reg .bnFenceDrop q + 1) &&& RegName.bnFenceDrop.info.defined ∧ t.failsOf q d k = 0) ∧
    (live → s.portHeld q k = false → s.hasInput q d k = true → s.owner q = s.owner n →
      exec (.bnetPacket q d k.check k) s =
        .next ((((s.clearFails q d k).bump .bnRxBytes q 0 k.payload.length).acknowledge n (opposite d) k).carry q d k)) ∧
    (live → s.portHeld q k = true →
      ∃ t : State, exec (.bnetPacket q d k.check k) s = .next t ∧ t.mem = s.mem ∧ t.squares = s.squares ∧ t.quads = s.quads ∧
        t.parts = s.parts ∧ ∀ m i j, ¬(m = .bnPortFull ∧ i = q ∧ j = 0) → t.reg m i j = s.reg m i j) ∧
    (∀ e check, 4 ≤ e → s.portHeld q k = true →
      ∃ t : State, exec (.bnetPacket q e check k) s = .next t ∧ (t.square q).bnetHeld = (s.square q).bnetHeld ++ [k] ∧ t.mem = s.mem ∧
        t.quads = s.quads ∧ t.parts = s.parts ∧ ∀ m i j, ¬(m = .bnPortFull ∧ i = q ∧ j = 0) → t.reg m i j = s.reg m i j) ∧
    (∀ e check, 4 ≤ e → s.portHeld q k = false → k.circ = 0xFF → k.dest.toNat = q →
      exec (.bnetPacket q e check k) s = .next (s.deliver q k))) ∧
  (∀ (s : State) (q d n : Nat), d < 4 → neighbour q d = some n →
    (∀ (lane : Nat) (x : BnetPacket), s.nakked q d lane = some x → s.flag .bnStatus q 0 (4 + d) = false →
      ∃ t : State, exec (.bnetNak q d lane) s = .next t ∧ (t.square q).bnetOut = (s.square q).bnetOut ++ [x] ∧
        t.reg .bnReplays n = (s.reg .bnReplays n + 1) &&& RegName.bnReplays.info.defined ∧ (t.square q).replay = (s.square q).replay) ∧
    (∀ (lane : Nat) (x : BnetPacket) (l : List BnetPacket), s.lane q d lane = x :: l → s.flag .bnStatus q 0 (4 + d) = false →
      exec (.bnetReplayTimeout q d lane) s = .next ((s.linkFailure n (opposite d) x).replayPacket q d x)) ∧
    (∀ (c : BitVec 8) (w : BitVec 32) (x : BnetPacket) (l : List BnetPacket), s.circuitQueue q c.toNat = x :: l → s.circuitGoes q c.toNat = true →
      let u := (s.setCircuitQueue q c.toNat l).bump .bnCircWait q 0 w.toNat
      (s.circuitPort q c.toNat = d + 1 → exec (.circuitForward q c w) s = .next ((u.sendOver q d x).serveRouter q)) ∧
      (∀ e, s.circuitPort q c.toNat = 6 → squareKind q = .optical e →
        exec (.circuitForward q c w) s =
          .next ((u.pushCircuit (s.engineQuad e x) (portMessage s (s.engineQuad e x) x)).serveRouter q)))) ∧
  (∀ (s : State) (q : Nat) (k : CnetPacket), (s.maintOnly q = false ∨ k.src ≠ 0 ∨ k.type = .maint) →
    (∀ d, 4 ≤ d → k.dest.toNat = q → exec (.cnetPacket q d k) s = .next (s.ejectCnet q k)) ∧
    (∀ d, 4 ≤ d → k.dest.toNat = q → k.type = .rd →
      let x := (s.bump .cnRxPkts q).accessAt (cnetRequester k.src.toNat) false k.addr.toNat k.size.toNat none
      exec (.cnetPacket q d k) s = .next (x.1.injectCnet q (match x.2 with
        | .ok b => x.1.rspFor q k 0 b
        | .error e => x.1.rspFor q k e.code []))) ∧
    (∀ d n, d < 4 → neighbour q d = some n → s.flag .cnStatus q 0 (1 + d) = false → s.clamped n q = false →
      (s.owner q ≠ s.owner n → k.src ≠ 0 → k.dest ≠ 0 → cnetRequest k.type = false →
        ∃ t : State, exec (.cnetPacket q d k) s = .next t ∧ t.reg .cnFenceDrop q = (s.reg .cnFenceDrop q + 1) &&& RegName.cnFenceDrop.info.defined ∧
          t.mem = s.mem ∧ (∀ x, x ≠ n → t.square x = s.square x) ∧
          ∀ m i j, ¬(m = .cnFenceDrop ∧ i = q ∧ j = 0) → t.reg m i j = s.reg m i j) ∧
      (s.owner q = s.owner n → k.dest.toNat = q →
        exec (.cnetPacket q d k) s = .next (((s.offWires q d k).ejectCnet q k).cnetServeRouter q)))) ∧
  (∀ (s u : State) (q : Nat) (k : CnetPacket) (l : List CnetPacket) (w : BitVec 32), (s.square q).cnetHeld = k :: l → s.cnetEnter q k = some u →
    exec (.cnetInjectionRelease q w) s =
      .next ((((u.modSquare q (fun v => { v with cnetHeld := l })).bump .cnInjWait q 0 w.toNat).takeToken q).cnetServeRouter q) ∧
    u.reg .cnTxPkts q = (s.reg .cnTxPkts q + 1) &&& RegName.cnTxPkts.info.defined ∧ u.mem = s.mem)

/-! Memory and its protection (chapters 2, 11, 14) -/

/-- DRAM lines: a clean read answers what is stored and holds the line; a read with one position in error answers the same bytes, holds the line and
records the correction (R46, R381 to R385).
Where it follows a reading of the model's own: assumption log 54, 85. -/
def Obligations.DramCommands : Prop :=
  ∀ (s : State) (addr : Addr) (r : Requester), inDram addr.toNat = true →
    let line := addr.toNat / 1024
    let k := stackOf (1024 * line)
    let u := s.applyFill line
    s.holdsLine false line = false → u.linePoisoned line = false →
    exec (.dramRead addr [] false r) s =
      .next ((u.landLine false line (u.bytes (1024 * line) 1024) false).answered (.ok (u.bytes (1024 * line) 1024))) ∧
    (∀ (p c : Nat) (e : Byte), p < 18 → c < 64 → e ≠ 0 → u.erasedOf k = none →
      exec (.dramRead addr [(p, c, e)] false r) s =
        .next (((u.landLine false line (u.bytes (1024 * line) 1024) true).correctedLine line p 1).answered (.ok (u.bytes (1024 * line) 1024))))

/-- A whole line written to DRAM, byte by byte; every byte outside it stands (R46). -/
def Obligations.DramWriteStores : Prop :=
  ∀ (s : State) (addr : Addr) (bytes : List Byte), inDram addr.toNat = true → bytes.length = 1024 →
    let base := addr.toNat / 1024 * 1024
    let u := s.applyFill (addr.toNat / 1024)
    ∃ t : State, exec (.dramWrite addr bytes []) s = .next t ∧ (∀ j, (h : j < bytes.length) → t.byte (base + j) = bytes[j]) ∧
      ∀ a, (a < base ∨ base + 1024 ≤ a) → t.byte a = u.byte a

/-- Corrected and uncorrectable SRAM reads, evictions, buckets and fills (R53, R62, R390, R393, R397).
Where it follows a reading of the model's own: assumption log 54, 56, 85. -/
def Obligations.SramAndFills : Prop :=
  ∀ s : State,
    (∀ (addr : Addr) (q : Nat) (r : Requester),
      exec (.sramRead addr q false r) s = .next (s.sramCorrected (s.sramAt addr.toNat q) addr.toNat)) ∧
    (∀ (addr : Addr) (q : Nat) (r : Requester), s.refetched (s.sramAt addr.toNat q) addr.toNat = false →
      ∃ t : State, exec (.sramRead addr q true r) s = .next t ∧ t.answer.status = BitVec.ofNat 8 Status.uncorrectable.code) ∧
    (∀ addr : Addr, inDram addr.toNat = true → exec (.generalLineEviction addr) s = .next (s.evictGeneral (addr.toNat / 1024)) ∧
      Sparse.nfind (s.evictGeneral (addr.toNat / 1024)).general (addr.toNat / 1024) = none) ∧
    (∀ cls i j : Nat, ∃ t : State, exec (.bucketLeak cls i j) s = .next t ∧
      t.field (bucketReg cls) i j 0 16 = s.field (bucketReg cls) i j 0 16 - 1 ∧
      t.field (bucketReg cls) i j 32 16 = s.field (bucketReg cls) i j 32 16 ∧
      ∀ n x y, ¬(n = bucketReg cls ∧ x = i ∧ y = j) → t.reg n x y = s.reg n x y) ∧
    (∀ site bank : Nat, bank < 16 → ∃ t : State, exec (.bankZeroComplete site bank) s = .next t ∧ t.flag .dmZeroBusy site 0 bank = false ∧
      ∀ b, b ≠ bank → b < 64 → t.flag .dmZeroBusy site 0 b = s.flag .dmZeroBusy site 0 b) ∧
    (∀ k : Nat, ∃ t : State, exec (.releaseFillComplete k) s = .next t ∧
      ∀ x ∈ t.fills, stackOf (1024 * x.1) ≠ k)

/-! Host dies (chapter 12) -/

/-- Accesses of harts and the host caches: custom CSRs, a load and a store of DRAM, a store-conditional without a reservation, an access that breaks
its window's attributes, a clean or flush of a block, and a request to the host system cache (R63, R330, R331, R334, R335, R339).
Where it follows a reading of the model's own: assumption log 42, 43, 56, 86, 87. -/
def Obligations.HartAccesses : Prop :=
  (∀ (s : State) (h c : Nat) (mode : HartMode) (a : Addr), s.hartRuns h c = true →
    let r : Requester := .hart h c mode
    (∀ nc, exec (.hartAccess h c mode a (.csrRead 0xCC0) nc) s = .next (s.answered (.ok (leBytes 8 (s.readReg (rk .hdTurn (32 * h + c))).toNat)))) ∧
    (∀ nc (v : Word), ∃ t : State, exec (.hartAccess h c .m a (.csrWrite 0x7C1 v) nc) s = .next t ∧ t.reg .hdMtimecmp (32 * h + c) = v) ∧
    (∀ nc (v : Word), mode ≠ .m → exec (.hartAccess h c mode a (.csrWrite 0x7C1 v) nc) s = .next (s.answered (.error .notPermitted) true)) ∧
    (∀ n : Nat, 0 < n → inDram a.toNat = true → inDram (a.toNat + n - 1) = true → s.memoryFence r a.toNat n = none →
      s.memoryCut r a.toNat n = false →
      exec (.hartAccess h c mode a (.load n) false) s =
        .next ((s.hartRead h a.toNat n (hostSquare h)).1.answered (s.hartRead h a.toNat n (hostSquare h)).2 true)) ∧
    (∀ d : List Byte, d ≠ [] → inDram a.toNat = true → inDram (a.toNat + d.length - 1) = true → s.memoryFence r a.toNat d.length = none →
      s.memoryCut r a.toNat d.length = false →
      exec (.hartAccess h c mode a (.store d) true) s = .next ((s.hostWrite a.toNat d).answered (.ok []) true)) ∧
    (∀ (x : Word) nc, inDram a.toNat = true → a.toNat % 8 = 0 → inDram (a.toNat + 7) = true → s.memoryFence r a.toNat 8 = none →
      s.memoryCut r a.toNat 8 = false → (c, a.toNat / 64) ∉ (s.hostDie h).reservations →
      ∃ t : State, exec (.hartAccess h c mode a (.storeConditional 8 x) nc) s = .next t ∧ t.answer.data = [1] ∧ t.mem = s.mem ∧ t.hartBlocks = s.hartBlocks) ∧
    (∀ (n : Nat) nc, 0 < n → inDram a.toNat = false → hartReaches h a.toNat = false →
      let st : Status := if inWindow a.toNat then .notPermitted else .badArgument
      exec (.hartAccess h c mode a (.load n) nc) s = .next ((s.unmapped r.square st a.toNat).answered (.error st) true)) ∧
    (∀ (n : Nat) nc, 0 < n → 0xC00000000000 ≤ a.toNat → hartReaches h a.toNat = true → a.toNat % n ≠ 0 →
      exec (.hartAccess h c mode a (.load n) nc) s = .next (s.answered (.error .notPermitted) true))) ∧
  (∀ (s : State) (h c : Nat) (a : Addr),
    (∀ flush, s.hartRuns h c = true → inDram a.toNat = true → s.memoryFence (.hart h c .m) (a.toNat / 64 * 64) 64 = none →
      exec (.cacheBlockClean h c a flush) s =
        .next ((if flush then s.evictDirectory (a.toNat / 64) else s.gather (a.toNat / 64)).answered (.ok []))) ∧
    (∀ (r : Requester) (n : Nat), r.computeSide = false → r ≠ .bmc → s.blocked r = false → inDram a.toNat = true → 0 < n →
      exec (.hscRequest r a (.load n) none none) s = .next ((s.access r false a.toNat n none).1.answered (s.access r false a.toNat n none).2)) ∧
    (∀ (r : Requester) (d : List Byte), r.computeSide = false → r ≠ .bmc → s.blocked r = false → inDram a.toNat = true → d ≠ [] →
      exec (.hscRequest r a (.store d) none none) s =
        .next ((s.access r false a.toNat d.length (some d)).1.answered (s.access r false a.toNat d.length (some d)).2)))

/-- Interrupts, the timer, the clock, the root port and the probe of a host die (R329, R337 to R342, R420, R509).
Where it follows a reading of the model's own: assumption log 42, 44. -/
def Obligations.HostDieCommands : Prop :=
  ∀ (s : State) (h : Nat),
    (∀ (q f : Nat) (a : Addr) (v : BitVec 32), interruptFile a.toNat = some (h, f, 0) → s.hostOwner h = s.owner q → s.owner q ≠ none →
      s.hostRunning h = true → s.hostFenced h = false → v ≠ 0 → v.toNat ≤ 255 →
      ∃ t : State, exec (.msiWrite q a v) s = .next t ∧ v.toNat ∈ Sparse.nget [] (t.hostDie h).pending f ∧ t.mem = s.mem ∧ t.regs = s.regs) ∧
    (∀ c : Nat, s.hostRunning h = true → c < 32 →
      ∃ t : State, exec (.hdMtimecmp h c) s = .next t ∧
        (c ∈ (t.hostDie h).mtip ↔ (s.reg .hdMtimecmp (32 * h + c)).toNat ≤ (s.now (hostSquare h)).toNat) ∧ t.regs = s.regs ∧ t.mem = s.mem) ∧
    (∀ v : BitVec 6, s.up = true → h < 8 → 8 ≤ v.toNat → v.toNat ≤ s.hostClockTop h →
      ∃ t : State, exec (.hostClockChange h v) s = .next t ∧ t.reg .hdClk h = v.setWidth 64 ∧ t.mem = s.mem) ∧
    (∀ (a : Addr) (n : Nat), 0 < n → (s.hostDie h).portInReset = false →
      exec (.inboundPcieRequest h a (.read n)) s = .next (match Config.iommu h a with
        | none => s.answered (.error .notPermitted)
        | some b => if pcieReaches h b.toNat then (s.access (.pcie h) false b.toNat n none).1.answered (s.access (.pcie h) false b.toNat n none).2
          else (s.unmapped (hostSquare h) .notPermitted b.toNat).answered (.error .notPermitted))) ∧
    ((s.hostDie h).portInReset = false → ∃ t : State, exec (.intxMessage h) s = .next t ∧
      t.reg .hdIntxDrop h = (s.reg .hdIntxDrop h + 1) &&& RegName.hdIntxDrop.info.defined ∧ t.hosts = s.hosts) ∧
    (∃ t : State, exec (.pcieWake h) s = .next t ∧ (t.hostDie h).wakes = (s.hostDie h).wakes + 1 ∧ t.regs = s.regs ∧ t.mem = s.mem) ∧
    (h < 8 → s.coresRun = true → s.hostRunning h = true → s.hostFenced h = false → ∃ t : State, exec (.hostProbe h) s = .next t ∧ (t.hostDie h).probeOpen = true) ∧
    (s.coresRun = true → (s.hostDie h).probeOpen = true → (s.hostDie h).probeMisses < 2 →
      ∃ t : State, exec (.hostProbeMiss h) s = .next t ∧ (t.hostDie h).probeOpen = false ∧ (t.hostDie h).probeMisses = (s.hostDie h).probeMisses + 1 ∧
        t.regs = s.regs) ∧
    (s.coresRun = true → (s.hostDie h).probeOpen = true → (s.hostDie h).probeMisses = 2 →
      ∃ t : State, exec (.hostProbeMiss h) s = .next t ∧ t.flag .hdStatus h 0 3 = true) ∧
    (∀ (sub : Nat) (up : Bool) (rate : BitVec 3) (w : BitVec 4), (s.hostDie h).portInReset = false →
      sub < (subPorts (s.field .hdPcieCfg h 0 0 2)).1 → w.toNat ≤ (subPorts (s.field .hdPcieCfg h 0 0 2)).2 → rate ≠ 7 →
      ∃ t : State, exec (.pcieLinkChange h sub up rate w) s = .next t ∧
        t.field .hdPcieStatus h 0 (8 * sub) 8 = (if up then 128 else 0) + 16 * rate.toNat + w.toNat)

/-! Translation, far pages and migration (chapters 10, 11) -/

/-- What Tolerabor does about a stopped operation, a shared page, a far page and a moved page (R305, R307, R316 to R321).
Where it follows a reading of the model's own: assumption log 31, 64, 92. -/
def Obligations.TranslationCommands : Prop :=
  ∀ (s : State) (site p : Nat) (h : Handle) (page : BitVec 21), s.siteOwner site = some p → s.up = true →
    (∀ (key : Nat) (x : Stopped) (u : State), Sparse.nfind (s.die site).stopped key = some x → s.resolveFault p site x = some u →
      exec (.faultResolved site key) s = .next ((u.bump .stResolved p).resumeMove p site key x x.skips)) ∧
    (∀ (key : Nat) (x : Stopped), Sparse.nfind (s.die site).stopped key = some x → x.code.toNat ≠ faultHeader → x.code.toNat ≠ faultNotPresent →
      exec (.faultUnresolvable site key) s = .next (s.skipHandle p site key x)) ∧
    (∀ (key : Nat) (x : Stopped), Sparse.nfind (s.die site).stopped key = some x → x.code.toNat = faultNotPresent →
      exec (.faultUnresolvable site key) s = .next ((s.event7FAny (some p) 0 .stSkipped p).skipHandle p site key x)) ∧
    ((s.die site).stopped = [] → exec (.holdBudgetExhausted site) s = .next s) ∧
    (∀ key x rest, (s.die site).stopped = (key, x) :: rest →
      exec (.holdBudgetExhausted site) s = .next ((s.skipHandle p site key x).skipAll p site 407)) ∧
    (∀ (e : Word) (a : Addr), s.leafAt p h page.toNat = some e → leafCow e = true → leafTier e ≠ 2 →
      s.sharersOf p (pageOf (entryAddr e)) ≤ 1 →
      exec (.cowResolve site h page a) s = .next (s.setLeaf p h (s.rootOf p h) page.toNat (putBit e 60 false))) ∧
    (∀ (e : Word) (a : Addr), s.leafAt p h page.toNat = some e → leafCow e = true → leafTier e ≠ 2 →
      1 < s.sharersOf p (pageOf (entryAddr e)) →
      let new := homePage site a.toNat
      let x := s.pageBytes (entryAddr e)
      exec (.cowResolve site h page a) s = .next ((((((x.1.writePage new x.2).setLeaf p h (s.rootOf p h) page.toNat
        (mkEntry new 0 false (leafLin e) (leafMoving e))).setSharers p (pageOf (entryAddr e))
          (s.sharersOf p (pageOf (entryAddr e)) - 1)).syncTiers p h).settleShared p).bump .stCowCopies p)) ∧
    (∀ (e : Word) (a : Addr) (l : List (List Byte)), s.leafAt p h page.toNat = some e → leafTier e = 2 →
      ∃ u : State, exec (.farRecall site h page a l) s = .next (u.bump .stRecalls p) ∧ u.poolLines = (s.dropReads p h page.toNat).poolLines) ∧
    (∀ (e : Word) (a : Addr) (t : TierMove), (s.part p).tierMoves.find? (fun t => decide (t.handle = h ∧ t.page = page.toNat)) = some t →
      s.leafAt p h page.toNat = some e → t.copied = false → leafMoving e = true → t.tier.toNat < 2 → s.pageFits p a.toNat t.tier.toNat = true →
      ∃ u : State, exec (.tierCopyDone p h page a) s = .next u ∧ { t with copied := true, newPage := a.toNat } ∈ (u.part p).tierMoves)

/-- Migrations: the end of a copy within the module, the failures of R297, and the messages of a migration between modules (R296, R297, R358, R360).
Where it follows a reading of the model's own: assumption log 37, 92. -/
def Obligations.MigrationSteps : Prop :=
  (∀ (s : State) (p dest : Nat) (h : Handle), s.up = true →
    ((s.part p).migrations.find? (fun x => decide (x.handle = h ∧ x.part.toNat = dest ∧ x.module.setWidth 13 = s.moduleId)) = none →
      ∃ t : State, exec (.migrationCopyDone p h dest) s = .next t ∧
        ∀ a ∈ (t.part dest).arrivals, a.newHandle = h → a.quad ≠ none → a.copied = true) ∧
    (∀ (x : Migration) (u : State),
      (s.part p).migrations.find? (fun x => decide (x.handle = h ∧ x.part.toNat = dest ∧ x.module.setWidth 13 = s.moduleId)) = some x →
      (s.part dest).arrivals.any (fun a => decide (a.quad = none ∧ a.source = p ∧ a.handle = h)) = false →
      let arriving : Arrival :=
        { quad := none, module := s.moduleId, xid := x.xid, source := p, handle := h, entry := s.row x.slot, slot := 0, newHandle := 0,
          bytes := 0, staging := 0, lines := [], copied := true }
      (∀ h' : Handle, s.admitArrival dest (s.row x.slot) arriving = (u, some h') → exec (.migrationCopyDone p h dest) s =
        .next (match u.residentRow dest h' with
          | some k => u.copyStream p dest (s.row x.slot) (u.row k)
          | none => u)) ∧
      (s.admitArrival dest (s.row x.slot) arriving = (u, none) →
        exec (.migrationCopyDone p h dest) s = .next (u.failMigration p h .streamTableFull))) ∧
    (∀ (b : BitVec 8) (st : Status), Status.ofCode b.toNat = some st → st ∈ migrationFailures →
      exec (.migrationFail p h b) s = .next (s.failMigration p h st))) ∧
  (∀ (s : State) (n : Nat) (m : LinkMsg) (p : Nat), s.servedPart n = some p →
    let u := m.payload.drop 16
    (∀ x, (s.part p).arrivals.find? (fun x => decide (x.quad = some n ∧ x.staging ≤ m.addr.toNat ∧ m.addr.toNat < x.staging + x.bytes)) = some x →
      (m.xid, m.seq) ∈ x.lines → exec (.copy n m) s = .next (s.answerMsg n m 0x08 .ok)) ∧
    (∀ x, (s.part p).arrivals.find? (fun x => decide (x.quad = some n ∧ x.staging ≤ m.addr.toNat ∧ m.addr.toNat < x.staging + x.bytes)) = some x →
      (m.xid, m.seq) ∉ x.lines →
      ∃ (w : State) (y : Arrival), exec (.copy n m) s = .next (w.answerMsg n m 0x08 .ok) ∧ w.mem = (s.stateWrite m.addr.toNat (padTo 1024 m.payload)).mem ∧
        y ∈ (w.part p).arrivals ∧ y.lines = x.lines ++ [(m.xid, m.seq)] ∧ y.staging = x.staging) ∧
    (∀ x, s.migrationOf p m = some x → m.status = 0 → exec (.cack n m) s = .next s) ∧
    (∀ x st, s.migrationOf p m = some x → Status.ofCode m.status.toNat = some st → st ≠ .ok →
      exec (.cack n m) s = .next (s.failMigration p x.handle st)) ∧
    (∀ x, s.migrationOf p m = some x → bytesAt u 0 1 = 0 →
      let y := { x with newHandle := BitVec.ofNat 32 (bytesAt u 4 4), staging := bytesAt u 8 6 }
      exec (.migrateAdmit n m) s =
        .next ((s.modPart p (fun v => { v with migrations := v.migrations.map (fun z => if z = x then y else z) })).sendCopies n p y) ∧
      exec (.migrateDone n m) s = .next (s.migrated p x (BitVec.ofNat 32 (bytesAt u 4 4)))) ∧
    (∀ x st, s.migrationOf p m = some x → Status.ofCode (bytesAt u 0 1) = some st → st ≠ .ok →
      exec (.migrateAdmit n m) s = .next (s.failMigration p x.handle st) ∧ exec (.migrateDone n m) s = .next (s.failMigration p x.handle st)) ∧
    (s.formed (bytesAt u 4 1) = false →
      ∃ k, exec (.migrateReq n m) s = .next (s.pushMsg n k) ∧ k.op = 0x09 ∧ k.dst = m.src ∧ k.xid = m.xid ∧ k.payload.headD 0 = 0x09 ∧
        bytesAt k.payload 16 1 = Status.badArgument.code) ∧
    (∀ (a : Nat) (h : Handle) (v w : State), bytesAt u 4 1 = p → s.formed p = true → s.partFenced p = false → s.takePage p = (v, a) →
      let e := entryOfBytes ((u.drop 16).take 64)
      let arriving : Arrival :=
        { quad := some n, module := m.src, xid := m.xid, source := m.srcPart.toNat, handle := e.handle, entry := e, slot := 0, newHandle := 0,
          bytes := bytesAt u 8 8, staging := a, lines := [], copied := decide (bytesAt u 8 8 = 0) }
      v.admitArrival p e arriving = (w, some h) →
      exec (.migrateReq n m) s = .next (({ w with exchanges := w.exchanges ++ [(m.src, p)] } : State).sendMgmt n m.src 0x09 p m.srcPart.toNat m.xid
        (leBytes 1 0 ++ [0, 0, 0] ++ leBytes 4 h.toNat ++ leBytes 6 a ++ [0, 0]))))

/-! Optical ports (chapter 13) -/

/-- Flits received, replays asked for and sent (R352 to R357).
Where it follows a reading of the model's own: assumption log 34. -/
def Obligations.Flits : Prop :=
  ∀ (s : State) (n : Nat) (f : Flit), s.quadIsUp n = true →
    let a := s.takeAck n f
    let x := a.acceptFlit n f
    (flitGood f = false → f.type = .data → (s.quad n).retrySent = false →
      ∃ t : State, exec (.flitReceipt n f) s = .next t ∧ (t.quad n).outFlits = (s.quad n).outFlits ++ [s.controlFlit n .retryReq []] ∧
        (t.quad n).expected = (s.quad n).expected ∧ (t.quad n).reassembly = (s.quad n).reassembly ∧
        t.reg .olCrcErr n = (s.reg .olCrcErr n + 1) &&& RegName.olCrcErr.info.defined ∧
        t.reg .olReplays n = (s.reg .olReplays n + 1) &&& RegName.olReplays.info.defined ∧ t.mem = s.mem) ∧
    (flitGood f = true → f.type = .data → s.fencedQuad n f = false → f.seq = (s.quad n).expected →
      exec (.flitReceipt n f) s = .next ((x.2.foldl (fun s m => s.messageArrives n m) x.1).drainQuad n) ∧
      (x.1.quad n).expected = (s.quad n).expected + 1 ∧ (x.1.quad n).lastAck = f.seq ∧ (x.1.quad n).retrySent = false ∧ x.1.mem = s.mem) ∧
    (flitGood f = true → f.type = .data → s.fencedQuad n f = false → f.seq ≠ (s.quad n).expected →
      exec (.flitReceipt n f) s = .next ((a.askReplay n).drainQuad n) ∧ ((a.askReplay n).quad n).expected = (s.quad n).expected ∧
      ((a.askReplay n).quad n).retrySent = true) ∧
    ((s.quad n).replay ≠ [] → (s.quad n).failedReplays < 16 →
      ∃ t : State, exec (.flitReplayTimeout n) s = .next t ∧ (t.quad n).outFlits = (s.quad n).outFlits ++ (s.quad n).replay ∧
        (t.quad n).replay = (s.quad n).replay ∧ (t.quad n).failedReplays = (s.quad n).failedReplays + 1 ∧ t.regs = s.regs) ∧
    (∀ ack : BitVec 16, afterAck ack (s.quad n).replay ≠ [] → (s.quad n).failedReplays < 16 →
      ∃ (t : State) (l : List Flit), exec (.retryReq n ack) s = .next t ∧ (t.quad n).outFlits = (s.quad n).outFlits ++ afterAck ack (s.quad n).replay ++ l)

/-- The states of a quad (Table 13.6): one that goes DOWN discards its replay buffer and what it holds for reassembly and trains at once; lane lock,
HELLO flits, the end of an attempt, the background attempt and a FEC retrain (R354, R365, R370 to R374).
Where it follows a reading of the model's own: assumption log 34, 41. -/
def Obligations.QuadStates : Prop :=
  (∀ (s : State) (n : Nat), n < 224 → s.quadIsUp n = true →
    let down (t : State) : Prop := t.quadState n = quadTraining ∧ (t.quad n).replay = [] ∧ (t.quad n).reassembly = [] ∧ (t.quad n).fromDown = true
    (∃ t : State, exec (.quadDown n .signal) s = .next t ∧ down t ∧ t.flag .olQstatus n 0 2 = true) ∧
    (∃ t : State, exec (.quadDown n .laser) s = .next t ∧ down t ∧ t.laserLow n = true) ∧
    (∃ t : State, exec (.quadDown n .replays) s = .next t ∧ down t) ∧
    (∃ t : State, exec (.quadDown n .knocks) s = .next t ∧ down t)) ∧
  (∀ (s : State) (n : Nat), n < 224 →
    (s.quadState n = quadTraining →
      ∃ t : State, exec (.laneLock n) s = .next t ∧ (t.quad n).locked = true ∧ t.flag .olQstatus n 0 1 = false ∧ t.flag .olQstatus n 0 2 = false ∧
        t.quadState n = quadTraining) ∧
    (s.quadState n = quadTraining → (s.quad n).locked = true → (s.quad n).hellos < 2 →
      exec (.helloSend n) s = .next (s.sendFlit n (s.controlFlit n .hello (s.helloPayload n)))) ∧
    (∀ (f : Flit) (w : Word), s.quadState n = quadTraining → (s.quad n).locked = true → flitGood f = true → bytesAt f.payload 0 1 = 1 →
      let u := s.takeHello n f w
      ((u.quad n).hellos < 2 → exec (.hello n f w) s = .next u ∧ (u.quad n).hellos = (s.quad n).hellos + 1 ∧ u.partnerOf n = f.srcId) ∧
      (2 ≤ (u.quad n).hellos → u.partnerFits n = true → exec (.hello n f w) s = .next (u.bringUp n) ∧ (u.bringUp n).quadIsUp n = true)) ∧
    (s.quadState n = quadTraining → s.field .olQstatus n 0 32 2 < 2 →
      ∃ t : State, exec (.trainingAttemptTimeout n) s = .next t ∧ t.quadState n = quadTraining ∧
        t.field .olQstatus n 0 32 2 = s.field .olQstatus n 0 32 2 + 1 ∧
        t.reg .olAttempts n = (s.reg .olAttempts n + 1) &&& RegName.olAttempts.info.defined) ∧
    (s.quadState n = quadTraining → 2 ≤ s.field .olQstatus n 0 32 2 →
      ∃ t : State, exec (.trainingAttemptTimeout n) s = .next t ∧ t.quadState n = quadVacant ∧ t.flag .olVacant 0 (n / 64) (n % 64) = true) ∧
    (s.quadState n = quadVacant → s.mayTrain n = true → ∃ t : State, exec (.backgroundAttempt n) s = .next t ∧ t.quadState n = quadTraining ∧
      (t.quad n).locked = false ∧ (t.quad n).hellos = 0) ∧
    (∀ c : BitVec 32, c.toNat ≤ 1000000 → exec (.fecRetrain n c) s = .next (s.bump .olFecCorr n 0 c.toNat)) ∧
    (∀ c : BitVec 32, 1000000 < c.toNat → s.quadIsUp n = true →
      exec (.fecRetrain n c) s = .next ((s.bump .olFecCorr n 0 c.toNat).retrainQuad n)))

/-- Knocks on quads and end to end (R364 to R366).
Where it follows a reading of the model's own: assumption log 4, 39. -/
def Obligations.Knocks : Prop :=
  ∀ (s : State) (n : Nat) (m : BitVec 13),
    (s.quadIsUp n = true →
      ∃ (t : State) (f : Flit) (l : List Flit), exec (.knockSend n) s = .next t ∧ (t.quad n).outFlits = (s.quad n).outFlits ++ f :: l ∧ f.type = .knock ∧
        f.payload.take 4 = leBytes 4 (s.quad n).knockCount.toNat ∧ (t.quad n).knockCount = (s.quad n).knockCount + 1) ∧
    (∀ f : Flit, s.quadIsUp n = true → flitGood f = true → bitAt (f.payload.getD 4 0) 1 = false →
      ∃ t : State, exec (.knock n f) s = .next t ∧ (t.quad n).windowOpen = true ∧ (t.quad n).misses = 0 ∧ (t.quad n).peerLost = false ∧
        t.fencedModules = s.fencedModules) ∧
    (∀ f : Flit, s.quadIsUp n = true → flitGood f = true → bitAt (f.payload.getD 4 0) 1 = true → s.quadRole n = roleDirect →
      ∃ t : State, exec (.knock n f) s = .next t ∧ s.partnerOf n ∈ t.fencedModules) ∧
    ((s.quad n).windowOpen = true → (s.quad n).misses < 2 →
      ∃ t : State, exec (.knockWindowExpiry n) s = .next t ∧ (t.quad n).misses = (s.quad n).misses + 1 ∧ t.quadIsUp n = s.quadIsUp n ∧
        t.reg .olKnockMiss n = (s.reg .olKnockMiss n + 1) &&& RegName.olKnockMiss.info.defined ∧ t.fencedModules = s.fencedModules) ∧
    (s.quadIsUp n = true → (s.quad n).windowOpen = true → (s.quad n).misses = 2 → s.quadRole n ≠ roleDirect →
      s.flag .olQstatus n 0 2 = false → ∃ t : State, exec (.knockWindowExpiry n) s = .next t ∧ t.quadState n = quadTraining) ∧
    (∀ p q, s.up = true → s.exchangeOpen m = true → s.formedParts.findSome? (fun p => (s.quadTo p m).map (fun q => (p, q))) = some (p, q) →
      ∃ (t : State) (k : LinkMsg), exec (.e2eKnockSend m) s = .next t ∧ (t.quad q).outMsgs = (s.quad q).outMsgs ++ [k] ∧ k.op = 0x0A ∧ k.dst = m ∧
        k.src = s.moduleId) ∧
    (s.up = true → s.exchangeOpen m = true → Sparse.nget 0 s.e2eMisses m.toNat < 2 →
      ∃ t : State, exec (.e2eKnockMiss m) s = .next t ∧ Sparse.nfind t.e2eMisses m.toNat = some (Sparse.nget 0 s.e2eMisses m.toNat + 1) ∧
        t.fencedModules = s.fencedModules) ∧
    (s.up = true → s.exchangeOpen m = true → 2 ≤ Sparse.nget 0 s.e2eMisses m.toNat →
      ∃ t : State, exec (.e2eKnockMiss m) s = .next t ∧ m ∈ t.fencedModules ∧ t.exchanges.all (fun x => decide (x.1 ≠ m)) = true)

/-- Clock synchronisation: a request to the parent, what a CSYNC flit announces, and how an offset is judged (R367 to R369).
Where it follows a reading of the model's own: assumption log 40. -/
def Obligations.ClockSync : Prop :=
  ∀ (s : State) (n : Nat),
    (s.field .olSyncStatus 0 0 24 8 = n → n ≠ 0xFF → s.quadIsUp n = true →
      ∃ (t : State) (f : Flit), exec .csyncRequest s = .next t ∧ t.clock.csyncT1 = stampOf s.now ∧ (t.quad n).outFlits = (s.quad n).outFlits ++ [f] ∧ f.type = .csync) ∧
    (∀ (f : Flit) (w : Word), n ∈ s.syncQuads → flitGood f = true →
      ∃ t : State, exec (.csync n f w) s = .next t ∧
        (n, BitVec.ofNat 16 (bytesAt f.payload 2 2), BitVec.ofNat 8 (bytesAt f.payload 1 1)) ∈ t.clock.announce ∧
        ∀ x ∈ t.clock.announce, x.1 = n ∨ x ∈ s.clock.announce) ∧
    (∀ x : Int, -512 ≤ x → x ≤ 512 → 7 ≤ s.clock.goodOffsets → (s.judgeOffset x).flag .olSyncStatus 0 0 0 = true) ∧
    (∀ x : Int, -512 ≤ x → x ≤ 512 → s.clock.goodOffsets < 7 → (s.judgeOffset x).flag .olSyncStatus 0 0 0 = s.flag .olSyncStatus 0 0 0) ∧
    (∀ x : Int, (x < -1280 ∨ 1280 < x) → (s.judgeOffset x).flag .olSyncStatus 0 0 0 = false ∧ (s.judgeOffset x).clock.goodOffsets = 0)

/-! Messages of the Padrid Link (chapter 13) -/

/-- Pool messages: a request for pool service is answered with ERR; the answers to this module's own requests; a line that times out (R362, R363).
Where it follows a reading of the model's own: assumption log 35, 36. -/
def Obligations.PoolMessages : Prop :=
  ∀ (s : State) (n : Nat) (m : LinkMsg),
    let refusedFor (i : Instr) : Prop :=
      ∃ (t : State) (k : LinkMsg), exec i s = .next t ∧ (t.quad n).outMsgs = (s.quad n).outMsgs ++ [k] ∧ k.op = 0x0B ∧ k.dst = m.src ∧ k.xid = m.xid ∧ k.seq = m.seq ∧
        k.payload.headD 0 = m.op ∧ t.mem = s.mem ∧ t.regs = s.regs
    refusedFor (.prd n m) ∧ refusedFor (.pwr n m) ∧
    (∀ p, s.servedPart n = some p →
      (∃ t : State, exec (.pdata n m) s = .next t ∧ t.poolLines.length = s.poolLines.length ∧
        (∀ l ∈ t.poolLines, l.part = p → l.xid = m.xid → l.seq = m.seq → l.isWrite = false → l.data = padTo 1024 m.payload) ∧ t.mem = s.mem) ∧
      (∃ t : State, exec (.pwack n m) s = .next t ∧ t.mem = s.mem ∧
        (∀ l ∈ t.poolLines, ¬(l.part = p ∧ l.xid = m.xid ∧ l.seq = m.seq ∧ l.isWrite = true)) ∧
        ∀ l ∈ s.poolLines, ¬(l.part = p ∧ l.xid = m.xid ∧ l.seq = m.seq ∧ l.isWrite = true) → l ∈ t.poolLines)) ∧
    (∀ (x q : BitVec 16) (l : PoolLine),
      s.poolLines.find? (fun l => decide (l.xid = x ∧ l.seq = q ∧ (l.isWrite = true ∨ l.data = []))) = some l →
      (l.retried = true ∨ s.poolQuad l.part l.addr true = none → exec (.poolLineTimeout x q) s = .next (s.failPool l)) ∧
      (l.retried = false → s.poolQuad l.part l.addr true ≠ none →
        ∃ t : State, exec (.poolLineTimeout x q) s = .next t ∧ t.poolLines.length = s.poolLines.length ∧
          { l with xid := (s.part l.part).nextXid, seq := 0, retried := true } ∈ t.poolLines))

/-- SEND messages between modules and their acknowledgement, ERR, end-to-end knocks that arrive, and the commands of a HEADLESS partition that come over
a quad (R358, R360, R366, R376, R406).
Where it follows a reading of the model's own: assumption log 34, 35, 39. -/
def Obligations.ModuleMessages : Prop :=
  (∀ (s : State) (n : Nat) (m : LinkMsg) (p : Nat), s.servedPart n = some p →
    (dieAt m.addr.toNat = none →
      exec (.opticalSend n m) s = .next (s.refuseMsg n m (if inWindow m.addr.toNat then .notPermitted else .badArgument))) ∧
    (∀ i, dieAt m.addr.toNat = some i →
      exec (.opticalSend n m) s = .next (s.injectBnet (engineSquare (n / 4))
        { byteEnable := BitVec.allOnes 64, dest := BitVec.ofNat 8 (siteSquare i), src := BitVec.ofNat 8 (engineSquare (n / 4)), kind := .send,
          compiled := true, cls := 2, xid := m.xid, seq := m.seq, lines := m.lines,
          epoch := m.epoch + BitVec.ofNat 16 (bitsAt (s.latchedReg .olSpanOfs (n / 4)) 0 16),
          turn := m.turn + BitVec.ofNat 16 (bitsAt (s.latchedReg .olSpanOfs (n / 4)) 16 16), rctr := m.rctr, part := BitVec.ofNat 3 p, circ := 0xFF,
          addr := m.addr, payload := m.payload })) ∧
    (∀ i, (s.partSites p).find? (fun i => (s.die i).flights.any (fun f => decide (f.sendXid = some m.xid))) = some i →
      exec (.opticalSack n m) s = .next (s.sackFor i m.xid (BitVec.ofNat 64 (s.dieCycle p i)))) ∧
    (∀ (st : Status) (i : Nat), m.payload.headD 0 = 0x05 → Status.ofCode m.status.toNat = some st → i ∈ s.partSites p →
      (s.die i).flights.any (fun f => decide (f.sendXid = some m.xid)) = true → exec (.err n m) s = .next (s.busMove p st)) ∧
    (∀ (st : Status) (x : Migration), m.payload.headD 0 = 0x09 → Status.ofCode m.status.toNat = some st → s.migrationOf p m = some x →
      exec (.err n m) s = .next (s.failMigration p x.handle st)) ∧
    (bitAt (m.payload.getD 4 0) 1 = false →
      ∃ t : State, exec (.e2eKnock n m) s = .next t ∧ Sparse.nfind t.e2eMisses m.src.toNat = none ∧ t.fencedModules = s.fencedModules) ∧
    (bitAt (m.payload.getD 4 0) 1 = true → ∃ t : State, exec (.e2eKnock n m) s = .next t ∧ m.src ∈ t.fencedModules)) ∧
  (∀ (s : State) (n : Nat) (m : LinkMsg) (f : TestFindings),
    (∀ p, s.servedPart n = some p → s.flag .ptRegions p 0 16 = true → s.quadRole n = roleFabric →
      exec (.command n m f) s = .next (s.mailCommand (.mgmt p n m.src m.xid) ((m.payload.drop 16).take 64) f)) ∧
    (s.servedPart n = none →
      ∃ k, exec (.command n m f) s = .next (s.pushMsg n k) ∧ k.op = 0x0B ∧ k.status = BitVec.ofNat 8 Status.busy.code ∧ k.xid = m.xid) ∧
    exec (.completion n m) s = .next s)

/-- The messages of a spanning book between its members (R99, R100, R376 to R378, R494).
Where it follows a reading of the model's own: assumption log 25, 38, 89. -/
def Obligations.SpanMessages : Prop :=
  ∀ (s : State) (n : Nat) (m : LinkMsg) (p : Nat), s.servedPart n = some p →
    let u := m.payload.drop 16
    let member := (s.part p).members.any (fun x => decide (x.1 = m.src.toNat))
    (∀ l, (s.part p).loading = some l → l.book.span = true → l.installed = false → bytesAt u 0 8 = l.book.crc.toNat → bytesAt u 8 1 = l.book.modules →
      member = true → m.src.toNat ∉ l.heard →
      let v := s.modPart p (fun v => { v with loading := some { l with heard := l.heard ++ [m.src.toNat] } })
      exec (.spanConfirm n m) s = .next ((v.writeSpanOfs p m.src (bytesAt u 12 4)).sendSpanConfirm p l.book (l.heard.length + 1))) ∧
    (∀ l, (s.part p).loading = some l → l.book.span = true → l.installed = false →
      (bytesAt u 0 8 ≠ l.book.crc.toNat ∨ bytesAt u 8 1 ≠ l.book.modules ∨ member = false) → exec (.spanConfirm n m) s = .next (s.failSpanLoad p .mapMismatch)) ∧
    (∀ l, (s.part p).loading = some l → l.book.span = true → l.installed = false → l.heard.length + 1 < l.book.modules →
      exec (.spanConfirmTimeout p) s = .next (s.failSpanLoad p .busy)) ∧
    (∀ l, (s.part p).loading = some l → l.book.span = true →
      ∃ v : State, exec (.spanLoadFail n m) s = .next (v.endLoad p .busy) ∧ ∀ q, q ≠ p → v.part q = s.part q) ∧
    (member = true → s.bookLoaded p = true →
      exec (.spanAbort n m) s = .next ((s.spanLost p).safetyAt (some p) (engineSquare (quadEngine n)) .olQstatus n 0 m.src.toNat)) ∧
    (member = true →
      (∃ t : State, exec (.spanChange n m) s = .next t ∧ (t.part p).spanChanges = (s.part p).spanChanges ++
        [(BitVec.ofNat 64 (bytesAt u 8 4), BitVec.ofNat 64 (bytesAt u 0 4), BitVec.ofNat 64 (bytesAt u 4 2), BitVec.ofNat 3 (bytesAt u 6 1),
          BitVec.ofNat 8 (bytesAt u 7 1), decide (bytesAt u 12 1 % 2 = 1))] ∧ t.regs = s.regs) ∧
      (∃ t : State, exec (.debugPause n m) s = .next t ∧ (t.part p).pausePending = true ∧ t.regs = s.regs)) ∧
    (member = true → bytesAt u 0 1 = 0 → (s.part p).stage = .play → s.phase p = 1 →
      ∃ t : State, exec (.doneReport n m) s = .next t ∧ t.phase p = 3) ∧
    (member = true → bytesAt u 0 1 ≠ 0 → s.phase p ≠ 5 →
      ∃ t : State, exec (.doneReport n m) s = .next t ∧
        Sparse.nfind (t.part p).doneStamps m.src.toNat = some (BitVec.ofNat 64 (bytesAt u 8 8)) ∧ t.regs = s.regs)

/-! Power and temperature (chapter 17) -/

/-- The voltage loop (R457, Table 17.2; Table 17.1 and R458 bound it), in half millivolts: 20 mV up, 5 mV up, unchanged, 2.5 mV down, never outside the
range of Table 17.1 nor below the floor, toward which a lower setpoint rises by 5 mV (R459); CEILING; and the VH rail of a region's host die, which follows the same
rule in its own range (whose lower end is its floor: the model's reading, assumption log 45).
Where it follows a reading of the model's own: assumption log 45. -/
def Obligations.VoltageLoop : Prop :=
  (∀ set code floor : Nat, floor ≤ set →
    (code ≤ 3 → set + 40 ≤ 1800 → 1100 ≤ set → loopSet set code floor = set + 40) ∧
    (code ≤ 3 → 1800 < set + 40 → loopSet set code floor = 1800) ∧
    (4 ≤ code → code ≤ 11 → set + 10 ≤ 1800 → 1100 ≤ set → loopSet set code floor = set + 10) ∧
    (12 ≤ code → code ≤ 20 → set ≤ 1800 → 1100 ≤ set → loopSet set code floor = set) ∧
    (21 ≤ code → set ≤ 1800 → floor + 5 ≤ set → 1105 ≤ set → loopSet set code floor = set - 5) ∧
    (21 ≤ code → set ≤ 1800 → set < floor + 5 → 1100 ≤ floor → loopSet set code floor = floor)) ∧
  (∀ set code floor : Nat, 12 ≤ code → set < floor → floor ≤ 1800 → 1100 ≤ set → loopSet set code floor = min floor (set + 10)) ∧
  (∀ set code floor : Nat, 1100 ≤ loopSet set code floor ∧ loopSet set code floor ≤ 1800) ∧
  (∀ set code : Nat,
    (code ≤ 3 → 1200 ≤ set + 40 → set + 40 ≤ 2100 → hostSet set code = set + 40) ∧
    (4 ≤ code → code ≤ 11 → 1200 ≤ set + 10 → set + 10 ≤ 2100 → hostSet set code = set + 10) ∧
    (12 ≤ code → code ≤ 20 → 1200 ≤ set → set ≤ 2100 → hostSet set code = set) ∧
    (21 ≤ code → 1205 ≤ set → set ≤ 2105 → hostSet set code = set - 5) ∧
    1200 ≤ hostSet set code ∧ hostSet set code ≤ 2100) ∧
  (∀ (s : State) (r : Nat) (code host : BitVec 8) (cur : BitVec 16), r < 16 →
    let old := 2 * s.field .pwRgnStatus r 0 16 16 + (if r ∈ s.power.halfMv then 1 else 0)
    ∃ t : State, exec (.voltageLoop r code host cur) s = .next t ∧
      t.field .pwRgnStatus r 0 16 16 = loopSet old code.toNat (2 * s.loopFloor r) / 2 ∧ t.field .pwRgnStatus r 0 32 8 = code.toNat ∧
      (t.flag .pwRgnStatus r 0 4 = true ↔ old = 1800 ∧ code.toNat < 12) ∧
      (∀ h, h < 8 → hostRegion h = r → Sparse.nget 0 t.power.vhSet h = hostSet (Sparse.nget 0 s.power.vhSet h) host.toNat) ∧
      (∀ h, hostRegion h ≠ r → Sparse.nget 0 t.power.vhSet h = Sparse.nget 0 s.power.vhSet h) ∧ t.mem = s.mem)

/-- A rail out of its window or an overcurrent fences its dies and holds its region; power measurements, temperatures, the thermal
trip and cooling (R412, R413, R453, R454, R460 to R467).
Where it follows a reading of the model's own: assumption log 46, 47, 82, 83. -/
def Obligations.SupplyAndTemperature : Prop :=
  (∀ (s : State) (r : Nat), r < 16 →
    (∀ c : Bool, ∃ t : State, exec (.supplyOutOfWindow r c) s = .next t ∧ t.flag .pwRgnStatus r 0 2 = true ∧ r ∈ t.power.held ∧
      t.flag .pwStatus 0 0 1 = true ∧ ∀ i, siteRegion i = r → i < 104 → (t.die i).powered = false ∧ (t.die i).fenced = true) ∧
    (r ∈ s.pins.enA → ∃ t : State, exec (.supplyInWindow r false) s = .next t ∧ r ∈ t.power.railsIn ∧ t.power.held = s.power.held ∧ t.regs = s.regs) ∧
    (r ∈ s.pins.enC → ∃ t : State, exec (.supplyInWindow r true) s = .next t ∧ r ∈ t.power.railsCIn ∧ t.power.held = s.power.held ∧ t.regs = s.regs) ∧
    (∃ t : State, exec (.regionOvercurrent r) s = .next t ∧ t.flag .pwRgnStatus r 0 3 = true ∧ r ∈ t.power.held ∧
      t.reg .pwOcEvents r = (s.reg .pwOcEvents r + 1) &&& RegName.pwOcEvents.info.defined)) ∧
  (∀ s : State,
    (∀ (now avg : BitVec 32) (parts : List (Nat × BitVec 32 × BitVec 32)) (regions : List (Nat × BitVec 48)), s.up = true →
      ∃ t : State, exec (.powerMeasurement now parts avg regions) s = .next t ∧ t.field .pwModule 0 0 0 32 = now.toNat ∧
        t.field .pwModule 0 0 32 32 = avg.toNat ∧ t.mem = s.mem ∧ t.parts = s.parts) ∧
    (∀ (q : Nat) (panel above : BitVec 16) (i : ColdStartInputs), q < 256 → s.referee.startup = some i → s.field .refBoot 0 0 0 4 = 4 →
      exec (.thermalSample q panel above) s = .next ((s.sample q panel above).raiseRegions i)) ∧
    (∀ (q : Nat) (panel above : BitVec 16), q < 256 → (s.referee.startup = none ∨ s.field .refBoot 0 0 0 4 ≠ 4) →
      ∃ t : State, exec (.thermalSample q panel above) s = .next t ∧ t.field .thTemp q 0 0 16 = panel.toNat ∧ t.field .thTemp q 0 16 16 = above.toNat ∧
        reading (t.field .thMax q 0 0 16) = max (reading (s.field .thMax q 0 0 16)) (max (reading panel.toNat) (reading above.toNat)) ∧
        (1520 ≤ reading panel.toNat → t.flag .pwStatus 0 0 3 = true) ∧ t.mem = s.mem) ∧
    (∀ (q : Nat) (j : BitVec 16), 1840 ≤ j.toInt →
      ∃ t : State, exec (.thermTrip q j) s = .next t ∧ t.pins.thermTripN = false ∧ t.flag .pwStatus 0 0 7 = true ∧
        ∀ p, s.formed p = true → p < 8 → t.phase p = 0 ∧ (t.part p).stage = .stopped) ∧
    (∀ (q : Nat) (j : BitVec 16), j.toInt < 1840 → exec (.thermTrip q j) s = .next s) ∧
    (∀ (x : BitVec 16) (f : Option (BitVec 16)), s.up = true → s.cooling 0x0116 % 256 ≠ 0 →
      ∃ t : State, exec (.coolingRead (some x) f) s = .next t ∧ t.field .thCoolant 0 0 0 16 = x.toNat ∧ t.power.noInlet = 0) ∧
    (s.up = true → s.cooling 0x0116 % 256 ≠ 0 → ∀ f, ∃ t : State, exec (.coolingRead none f) s = .next t ∧ t.power.noInlet = s.power.noInlet + 1 ∧
      t.field .thCoolant 0 0 0 16 = s.field .thCoolant 0 0 0 16))

/-! Start-up and resets (chapter 16) -/

/-- A cold start whose image boots and whose supplies, hold-up bank and fields are good runs through its thirteen steps to Ready (R428 to R440).
Where it follows a reading of the model's own: assumption log 6, 8, 49, 83. -/
def Obligations.ColdStartReachesReady : Prop :=
  ∀ (s : State) (i : ColdStartInputs), i.sramGood = true → s.flash.boots s.flash.preferB = true →
    holdupGood ([1, 2, 4, 8].getD (i.straps.toNat % 4) 1) i.v0.toNat i.v1.toNat = true → i.mainRailsGood = true → i.findings.fieldCrossing = false →
    i.flashGood = true → i.temps.all (fun x => decide (x.2.1.toInt ≤ 1440 ∧ x.2.2.toInt ≤ 1440)) = true →
    (s.pins.pwrFailN = true → ∃ t : State, exec (.coldStart i) s = .next t ∧ t.ready = true ∧ t.up = true ∧ t.field .refBoot 0 0 0 4 = 13) ∧
    (s.pins.pwrFailN = false → s.pins.resetN = true → ∃ t : State, exec (.pwrFailNRelease i) s = .next t ∧ t.ready = true ∧ t.up = true ∧ t.field .refBoot 0 0 0 4 = 13)

/-- Where a cold start stops and how it goes on; RESET_N and the power-fail signals (R428, R430, R433, R435, R447, R466, R476, R511, R516, R517).
Where it follows a reading of the model's own: assumption log 49, 50, 74, 83. -/
def Obligations.StopsAndResets : Prop :=
  (∀ (s : State) (i : ColdStartInputs),
    let noted : ColdStartInputs :=
      { i with recordsLost := BitVec.ofNat 32 (if s.recorder.flushing then min s.recorder.headerUnflushed i.recordsLost.toNat else 0) }
    let stops (t : State) (step cause : Nat) : Prop := t.field .refBoot 0 0 0 4 = step ∧ t.flag .refBoot 0 0 17 = true ∧
      t.field .refBoot 0 0 32 8 = cause ∧ t.ready = false ∧ t.pins.alertN = false
    let booted := i.sramGood = true ∧ i.flashGood = true ∧ s.flash.boots s.flash.preferB = true
    let load := [1, 2, 4, 8].getD (i.straps.toNat % 4) 1
    (s.pins.pwrFailN = false → exec (.coldStart i) s = .next s) ∧
    (s.pins.pwrFailN = true → i.sramGood = false →
      ∃ t : State, exec (.coldStart i) s = .next t ∧ stops t 1 0 ∧ t.referee.startup = none) ∧
    (s.pins.pwrFailN = true → i.sramGood = true → (i.flashGood = false ∨ (s.flash.boots true = false ∧ s.flash.boots false = false)) →
      ∃ t : State, exec (.coldStart i) s = .next t ∧ stops t 2 1 ∧ t.referee.startup = some noted) ∧
    (s.pins.pwrFailN = true → booted → holdupGood load i.v0.toNat i.v1.toNat = false → bitAt i.straps 2 = false →
      ∃ t : State, exec (.coldStart i) s = .next t ∧ stops t 3 2 ∧ t.referee.startup = some noted) ∧
    (s.pins.pwrFailN = true → booted → holdupGood load i.v0.toNat i.v1.toNat = true → i.mainRailsGood = false →
      ∃ t : State, exec (.coldStart i) s = .next t ∧ stops t 4 4 ∧ t.referee.startup = none) ∧
    (∀ (q : Nat) (panel above : BitVec 16), s.pins.pwrFailN = true → booted → holdupGood load i.v0.toNat i.v1.toNat = true →
      i.mainRailsGood = true → i.temps = [(q, panel, above)] → q < 256 → 1440 < panel.toInt ∨ 1440 < above.toInt →
      ∃ t : State, exec (.coldStart i) s = .next t ∧ t.field .refBoot 0 0 0 4 = 4 ∧ t.ready = false ∧ t.referee.startup = some noted ∧
        t.pins.enC = [] ∧ ∀ k, (t.die k).powered = false) ∧
    (s.pins.pwrFailN = false → s.pins.resetN = false →
      exec (.pwrFailNRelease i) s = .next { s with pins := { s.pins with pwrFailN := true } }) ∧
    (∀ v0 v1 : BitVec 16, s.referee.startup = some i → s.field .refBoot 0 0 0 4 = 3 → exec (.holdupRetry v0 v1) s = .next (s.holdupCheck v0 v1 i)) ∧
    (∀ x : ImageInfo, s.referee.startup = some i → s.field .refBoot 0 0 0 4 = 2 →
      ∃ u : State, exec (.mctpRecovery x) s = .next (u.bootImage i) ∧ u.flash.slotA.image = some x ∧ u.regs = s.regs)) ∧
  (∀ s : State,
    (s.pins.pwrFailN = true → s.pins.resetN = true →
      ∃ t : State, exec .resetNAssert s = .next t ∧ t.pins.resetN = false ∧ t.regs = [] ∧ t.parts = [] ∧ t.dies = [] ∧ t.quads = [] ∧ t.rings = [] ∧
        t.rows = [] ∧ t.flash = s.flash ∧ t.clock = {} ∧ ∀ a, inDram a = false → t.byte a = 0) ∧
    (s.pins.pwrFailN = false ∨ s.pins.resetN = false → exec .resetNAssert s = .next s) ∧
    (s.pins.pwrFailN = true →
      ∃ t : State, exec .pwrFailNAssert s = .next t ∧ t.pins.pwrFailN = false ∧ t.pins.enA = [] ∧ t.pins.enC = [] ∧ t.up = false ∧ t.ready = false ∧
        t.flag .evStatus 0 0 1 = false ∧ t.recorder.flushing = true) ∧
    (s.pins.pwrFailN = false → exec .pwrFailNAssert s = .next s) ∧
    (∃ t : State, exec .vaOutOfWindow s = .next t ∧ t.pins.enA = [] ∧ t.pins.enC = [] ∧ t.up = false ∧ t.ready = false))

/-- Retraining while the device runs, and the dies that Tolerabor tests on its own (R35, R440, R442, R448, R449).
Where it follows a reading of the model's own: assumption log 57, 58, 61, 88. -/
def Obligations.RetrainAndTest : Prop :=
  ∀ (s : State),
    (∀ (k c : Nat) (urgent : Bool), s.up = true → k < 48 → c < 36 → s.stackOwner k = none → s.stackQuiet k = true →
      ∃ t : State, exec (.dramRetrain k c urgent) s = .next t ∧ t.flag .mcTrainStatus k 0 c = true ∧ t.mem = s.mem) ∧
    (∀ (k c p : Nat), s.up = true → k < 48 → c < 36 → s.stackOwner k = some p → s.bookLoaded p = true → (s.part p).maintTurn = false →
      ∃ t : State, exec (.dramRetrain k c false) s = .next t ∧ (k, c) ∈ (t.part p).retrains ∧ t.regs = s.regs) ∧
    (∀ (k c : Nat), k < 48 → c < 36 → s.flag .mcTrainStatus k 0 c = true → s.stackOwner k = none →
      ∃ t : State, exec (.dramRetrainComplete k c true) s = .next t ∧ t.flag .mcTrainStatus k 0 c = false ∧
        t.reg .mcRetrains k = (s.reg .mcRetrains k + 1) &&& RegName.mcRetrains.info.defined) ∧
    (∀ p : Nat, (s.part p).maintTurn = true → (s.part p).stage = .play →
      exec (.maintenanceTurn p) s = .next (((s.startRetrains p).partQuads p).foldl
        (fun s n => if (s.quad n).maintWanted ∧ s.quadIsUp n then s.leaveUp n else s) (s.startRetrains p))) ∧
    (∀ (i p : Nat) (f : TestFindings), s.up = true → i < 104 → s.siteOwner i = some p → s.bookLoaded p = false →
      ∃ t : State, exec (.computeDieReset i f) s = .next t ∧ (t.die i).fenced = (s.die i).fenced ∧
        ((s.die i).fenced = true ∨ i ∈ f.dies → (t.die i).inReset = true) ∧
        ((s.die i).fenced = false → (t.siteOut i = true ↔ i ∈ f.dies)) ∧
        ((s.die i).fenced = false → i ∉ f.dies → s.siteEnabled i = true → (t.die i).inReset = false)) ∧
    (∀ (i : Nat) (l : List (Nat × Nat)), s.up = true → s.siteState i = .reserve →
      let u := (s.resetDie i).selfTest i l
      (Sparse.nfind u.flash.sitesNext i = some .retired →
        exec (.reserveSelfTest i l) s =
          .next ((({ u with flash := { u.flash with sitesNext := Sparse.ndrop u.flash.sitesNext i } } : State).setSiteState i .retired).publishSam [])) ∧
      (Sparse.nfind u.flash.sitesNext i ≠ some .retired → exec (.reserveSelfTest i l) s = .next u))

/-! The event recorder, the Referee's failures, debug and safety (chapters 9, 15, 18, 19) -/

/-- A report moves the recorder and nothing else; while Tolerabor is down it waits at intake or is lost. Flushes, freezes and seconds (R470, R471, R475,
R482, R484, R487).
Where it follows a reading of the model's own: assumption log 51, 52, 53, 74. -/
def Obligations.ReportsAndFlushes : Prop :=
  (∀ (s : State) (r : Report),
    (∃ t : State, exec (.eventReport r) s = .next t ∧ Recorded s t) ∧
    (s.recording = false → (r.source = 0 ∨ s.recorder.intake.length < 512) →
      ∃ t : State, exec (.eventReport r) s = .next t ∧ t.recorder.intake = s.recorder.intake ++ [{ r with payload := r.payload.take 232 }] ∧
        t.recorder.ring = s.recorder.ring ∧ t.recorder.nextSeq = s.recorder.nextSeq) ∧
    (s.recording = false → r.source ≠ 0 → 512 ≤ s.recorder.intake.length →
      ∃ t : State, exec (.eventReport r) s = .next t ∧ t.recorder.intake = s.recorder.intake ∧
        t.reg .evIntakeLost = (s.reg .evIntakeLost + 1) &&& RegName.evIntakeLost.info.defined)) ∧
  (∀ s : State,
    (s.flag .evStatus 0 0 1 = false → s.recorder.flushing = false →
      ∃ t : State, exec .flush s = .next t ∧ t.recorder.flushing = true ∧ t.flag .evStatus 0 0 3 = true ∧ t.recorder.ring = s.recorder.ring) ∧
    (s.flag .evStatus 0 0 1 = true ∨ s.recorder.flushing = true →
      ∃ t : State, exec .flush s = .next t ∧ t.recorder.flushDue = true ∧ t.regs = s.regs) ∧
    (s.recorder.flushing = true → exec (.flushComplete true) s = .next s.finishFlush ∧ s.finishFlush.flag .evStatus 0 0 5 = false ∧
      s.finishFlush.recorder.keepMirror = s.recorder.keep) ∧
    (s.recorder.flushing = true → s.recorder.flushRetry = false →
      ∃ t : State, exec (.flushComplete false) s = .next t ∧ t.recorder.flushRetry = true ∧ t.recorder.flushing = true ∧ t.regs = s.regs) ∧
    (s.recorder.flushing = true → s.recorder.flushRetry = true →
      ∃ t : State, exec (.flushComplete false) s = .next t ∧ t.flag .evStatus 0 0 5 = true ∧ t.pins.alertN = false ∧ t.recorder.flushing = false) ∧
    (s.up = true → s.flag .evStatus 0 0 5 = true → s.flag .evStatus 0 0 1 = false →
      ∃ t : State, exec (.flashFailRetry true) s = .next t ∧ t.flag .evStatus 0 0 5 = false) ∧
    (s.recorder.intakeLostSecond = 0 →
      ∃ t : State, exec .opsecSecond s = .next t ∧ t.recorder.opsec = s.recorder.opsec + 1 ∧ t.reg .evOpsec = (s.recorder.opsec + 1).setWidth 64) ∧
    (exec .freezeTimeout s = .next s.thaw ∧ s.thaw.flag .evStatus 0 0 1 = false ∧ (s.flag .evStatus 0 0 1 = true → s.thaw.recorder.side = [])))

/-- The rate window of a code and partition (R480, R481): a report beyond the limit is not recorded, and EV_SUPPRESSED counts it; SAFETY and SUPPRESSED
reports are not limited; the window's close tells what it suppressed.
Where it follows a reading of the model's own: assumption log 52, 53. -/
def Obligations.RateWindows : Prop :=
  ∀ (s : State) (r : Report),
    let other := r.sev ≠ .safety ∧ r.code ≠ 0x0080
    let win := s.recorder.windows.find? (fun w => w.code = r.code ∧ w.part = r.part)
    (¬other → s.record r = s.accept r) ∧
    (other → win = none → ∃ u : State, s.record r = u.accept r ∧ Recorded s u ∧
      u.recorder.windows = s.recorder.windows ++
        [{ code := r.code, part := r.part, count := 1, suppressed := 0, highest := .debug, firstTick := r.tick, lastTick := r.tick }]) ∧
    (∀ (w : RateWindow) (n : Nat), other → win = some w → s.rateLimit r.code = some n → n ≤ w.count →
      let t := s.record r
      t.recorder.ring = s.recorder.ring ∧ t.recorder.side = s.recorder.side ∧ t.recorder.log = s.recorder.log ∧
      t.recorder.nextSeq = s.recorder.nextSeq ∧ t.reg .evSuppressed = (s.reg .evSuppressed + 1) &&& RegName.evSuppressed.info.defined ∧
      ∀ x, t.recorder.windows.find? (fun w => w.code = r.code ∧ w.part = r.part) = some x →
        x.suppressed = w.suppressed + 1 ∧ x.lastTick = r.tick ∧ (w.suppressed ≠ 0 → x.firstTick = w.firstTick) ∧
        (w.suppressed = 0 → x.firstTick = r.tick ∧ x.highest = r.sev)) ∧
    (∀ (w : RateWindow), other → win = some w → (∀ n, s.rateLimit r.code = some n → w.count < n) →
      ∃ u : State, s.record r = u.accept r ∧ Recorded s u) ∧
    (∀ (w : RateWindow), win = some w →
      ∃ u : State, u.recorder.windows.find? (fun y => y.code = r.code ∧ y.part = r.part) = none ∧ Recorded s u ∧
        (w.suppressed = 0 → exec (.rateWindowClose r.code r.part) s = .next u) ∧
        (w.suppressed ≠ 0 → exec (.rateWindowClose r.code r.part) s = .next (u.report
          { code := 0x0080, sev := w.highest, part := r.part, source := 0, tick := s.now,
            payload := leBytes 2 r.code.toNat ++ [BitVec.ofNat 8 (sevCode w.highest), 0] ++ leBytes 4 w.suppressed ++
              leBytes 8 w.firstTick.toNat ++ leBytes 8 w.lastTick.toNat })))

/-- R481: the default limit, and what log.rate sets. -/
def Obligations.LogRate : Prop :=
  (∀ x, State.reset.rateLimit x = some 16) ∧
  ∀ (s : State) (c : Cmd) (code rate : BitVec 16), s.taken c (logRow 0x0704 .fleet) false →
    (code ∉ safetyCodes →
      (s.recorder.limits.length < 256 ∨ Sparse.nget 0 s.recorder.limits code.toNat ≠ 0 ∨ rate = 0 ∨ rate = 16) →
      ∃ u : State, exec (.logRate c code rate) s = .next (u.complete c 0x0704 .ok) ∧
        u.rateLimit code = (if rate = 0 then some 16 else if rate = 0xFFFF then none else some rate.toNat) ∧
        ∀ x, x ≠ code → u.rateLimit x = s.rateLimit x) ∧
    (code ∉ safetyCodes → 256 ≤ s.recorder.limits.length → Sparse.nget 0 s.recorder.limits code.toNat = 0 → rate ≠ 0 → rate ≠ 16 →
      exec (.logRate c code rate) s = .next ((s.enterCommand c (logRow 0x0704 .fleet)).complete c 0x0704 .busy)) ∧
    (code ∈ safetyCodes → exec (.logRate c code rate) s = .next ((s.enterCommand c (logRow 0x0704 .fleet)).complete c 0x0704 .badArgument))

/-- A lockstep difference, a hang, and the end of a warm restart; clock monitors and shadow comparators (R242 to R247, R412, R418, R422).
Where it follows a reading of the model's own: assumption log 51, 53. -/
def Obligations.FailuresAndMonitors : Prop :=
  (∀ s : State,
    (∀ w : Word, s.coresRun = true →
      let restarted (t : State) (cause : Nat) : Prop :=
        t.up = false ∧ t.pins.heartbeat = false ∧ t.pins.alertN = false ∧ t.field .refLastRestart 0 0 60 4 = cause ∧
        t.reg .refRestarts = (s.reg .refRestarts + 1) &&& RegName.refRestarts.info.defined ∧
        (s.startRestart cause).thirdRestart = t.flag .refStatus 0 0 3 ∧ t.flag .refStatus 0 0 2 = !t.flag .refStatus 0 0 3
      (∃ t : State, exec (.lockstep w) s = .next t ∧ restarted t 1) ∧ (∃ t : State, exec .watchdogExpiry s = .next t ∧ restarted t 2)) ∧
    (s.coresRun = false → (∀ w : Word, exec (.lockstep w) s = .next s) ∧ exec .watchdogExpiry s = .next s) ∧
    (s.flag .refStatus 0 0 2 = true → s.flash.boots s.referee.runningB = true →
      ∃ t : State, exec .warmRestartComplete s = .next t ∧ t.up = true ∧ t.flag .refStatus 0 0 2 = false ∧ t.recorder.intake = [] ∧
        t.referee.held = []) ∧
    (s.flag .refStatus 0 0 2 = true → s.flash.boots s.referee.runningB = false → exec .warmRestartComplete s = .next s)) ∧
  (∀ s : State,
    (∀ i : Nat, s.siteOwner i = none → ∃ t : State, exec (.computeDieClockLoss i) s = .next t ∧ t.flag .sfClk (siteSquare i) 0 0 = true ∧
      (t.die i).fenced = true ∧ (t.die i).inReset = true) ∧
    (∀ i p : Nat, s.siteOwner i = some p → s.formed p = true → s.partFenced p = false →
      ∃ t : State, exec (.computeDieClockLoss i) s = .next t ∧ t.flag .sfClk (siteSquare i) 0 0 = true ∧ (t.die i).fenced = true ∧
        t.partFenced p = true ∧ t.field .ptStatus p 0 12 4 = causeClock) ∧
    (∀ d : Nat, ∃ t : State, exec (.hostDieClockLoss d) s = .next t ∧ t.flag .sfClk (hostSquare d) 0 1 = true ∧ t.flag .hdStatus d 0 3 = true ∧
      (t.hostDie d).portInReset = true ∧ ∀ p, t.partFenced p = s.partFenced p) ∧
    (∀ (a : Addr) (bit : Nat) (k : RegKey), regAtAddr a.toNat = some k → k.name.info.shadowed = true → bit < 64 →
      exec (.shadowMismatch a bit) s = .next ((s.flipShadow k bit).shadowReaction k)) ∧
    (∀ (a : Addr) (bit : Nat) (k : RegKey), regAtAddr a.toNat = some k → k.name.info.shadowed = false → exec (.shadowMismatch a bit) s = .next s))

/-! Values (chapters 5 and 6) -/

/-- R159 and Table 6.9: MIN, MAX, SELECT, IADD, IMUL, and the fixed cases of the functions that ignore RND.
Where it follows a reading of the model's own: assumption log 11, 30. -/
def Obligations.ElementCases : Prop :=
  (∀ (w : FloatFmt) (r : Rnd) (b c : Number), b.isNan = false →
    element .min w r .nan b c = (b, { nanIn := true }) ∧ element .min w r b .nan c = (b, { nanIn := true }) ∧
    element .max w r .nan b c = (b, { nanIn := true }) ∧ element .max w r b .nan c = (b, { nanIn := true })) ∧
  (∀ (w : FloatFmt) (r : Rnd) (c : Number), element .min w r (.fin true 0 0) (.fin false 0 0) c = (.fin true 0 0, {}) ∧
    element .min w r (.fin false 0 0) (.fin true 0 0) c = (.fin true 0 0, {}) ∧
    element .max w r (.fin true 0 0) (.fin false 0 0) c = (.fin false 0 0, {}) ∧
    element .max w r (.fin false 0 0) (.fin true 0 0) c = (.fin false 0 0, {})) ∧
  (∀ (w : FloatFmt) (r : Rnd) (a b c : Number), (c.isZero = true → element .select w r a b c = (b, {})) ∧
    (c.isZero = false → element .select w r a b c = (a, {}))) ∧
  (∀ (r : Rnd) (x y : BitVec 32),
    intElement .iadd r (Number.ofInt x.toInt) (Number.ofInt y.toInt) = (Number.ofInt (x + y).toInt, {}) ∧
    intElement .imul r (Number.ofInt x.toInt) (Number.ofInt y.toInt) = (Number.ofInt (x * y).toInt, {})) ∧
  (transcend .exp (.inf true) = (.fin false 0 0, {}) ∧ transcend .exp (.inf false) = (.inf false, {}) ∧
    (∀ n e, transcend .log (.fin n 0 e) = (.inf true, { dz := true })) ∧
    (∀ m e, m ≠ 0 → transcend .log (.fin true m e) = (.nan, { nv := true })) ∧ transcend .log (.inf true) = (.nan, { nv := true }) ∧
    (∀ n e, transcend .rsqrt (.fin n 0 e) = (.inf n, { dz := true })) ∧
    (∀ m e, m ≠ 0 → transcend .rsqrt (.fin true m e) = (.nan, { nv := true })) ∧ transcend .rsqrt (.inf true) = (.nan, { nv := true }) ∧
    (∀ n, transcend .tanh (.inf n) = (.fin n 1 0, {})) ∧ transcend .sigmoid (.inf false) = (.fin false 1 0, {}) ∧
    transcend .sigmoid (.inf true) = (.fin false 0 0, {}))

/-! Registers that hold the values of the spec after reset -/

/-- Reset values that the spec's register tables state: TURN_LEN 200,000 ticks and CHG_LEN 2,000, every circuit slot empty, the timer compare of every
core all ones, the pool timeout 100 µs and no pool quad, the leak and capacity of each kind of bucket; REF_STATUS, REF_RESTARTS, REF_LAST_RESTART, the
turn counter, the phase and status of each partition, the control and indices of each ring, BN_STATUS, BN_TX_BYTES and the counters of a sequencer 0. No
command waits (the empty queue is the model's own).
Where it follows a reading of the model's own: assumption log 6. -/
def Obligations.ResetRegisters : Prop :=
  (∀ p, State.reset.reg .tnTurnLen p = 200000 ∧ State.reset.reg .tnChgLen p = 2000) ∧
  (∀ c, State.reset.reg .hdMtimecmp c = 0xFFFFFFFFFFFFFFFF) ∧ State.reset.reg .olPoolTmo = 100 ∧
  (∀ n, State.reset.reg .olPoolQuads 0 n = 0xFFFFFFFFFFFFFFFF) ∧
  ((List.range 6).map (fun k => State.reset.field .bktCfg 0 k 0 16) = [64, 16, 16, 8, 16, 4] ∧
    (List.range 6).map (fun k => State.reset.field .bktCfg 0 k 16 32) = [1000, 10000, 10000, 60000, 10000, 60000]) ∧
  (∀ q n, State.reset.reg .bnSlot q n = 0xFFFFFFFFFFFFFFFF) ∧ State.reset.reg .refStatus = 0 ∧ State.reset.reg .refRestarts = 0 ∧
  State.reset.reg .refLastRestart = 0 ∧ State.reset.up = false ∧ State.reset.ready = false ∧ State.reset.pending = [] ∧
  (∀ p, State.reset.turn p = 0 ∧ State.reset.phase p = 0 ∧ State.reset.formed p = false ∧ State.reset.partFenced p = false) ∧
  (∀ p n, State.reset.reg .mbRingCtl p n = 0 ∧ State.reset.reg .mbRingProd p n = 0 ∧ State.reset.reg .mbRingCqProd p n = 0) ∧
  (∀ q, State.reset.reg .bnStatus q = 0 ∧ State.reset.reg .bnTxBytes q = 0) ∧ (∀ i n, State.reset.ctr i n = 0)

/-! Rules of the spec word for word -/

/-- R15: a write to a boot-only register after Ready has no effect, and where it covers a byte of a field (R523) or carries a reserved bit it is recorded
with the register's address; a read returns the value in effect. -/
def Obligations.BootRegisterWrites : Prop :=
  ∀ (s : State) (r : Requester) (k : RegKey) (o n : Nat) (v : Word), k.name.info.cls = .boot → s.ready = true →
    ((laneMask o n &&& k.name.info.defined ≠ 0 ∨ (v <<< (8 * o)) &&& laneMask o n &&& ~~~k.name.info.defined ≠ 0) →
      ∃ ev, s.writeReg r k o n v = s.dropped k.name.info.block ev (s.regOwner k) k.square k.addr) ∧
    Recorded s (s.writeReg r k o n v) ∧ (s.writeReg r k o n v).reg k.name k.i k.j = s.reg k.name k.i k.j ∧
    s.readReg k = s.reg k.name k.i k.j

/-- R8 to R12: a turn-latched register that a partition owns reads back what was last written, and only a latch puts it into effect; one that belongs
to no partition takes effect at once. -/
def Obligations.TurnLatchedRegisters : Prop :=
  ∀ (s : State) (r : Requester) (k : RegKey) (v w : Word), k.name.info.cls = .turn → k.name ∉ ownWrites →
    (k.name.info.refereeOnly = false ∨ r = .referee) → k.name.info.readOnly = 0 → k.name.info.writeOneClear = 0 → k.name.info.clearOnZero = false →
    v &&& ~~~k.name.info.defined = 0 → w &&& ~~~k.name.info.defined = 0 → valueAllowed k (laneMask 0 8) v = true → valueAllowed k (laneMask 0 8) w = true →
    k.name.info.defined ≠ 0 →
    let t := s.writeReg r k 0 8 v
    let u := t.writeReg r k 0 8 w
    t.reg k.name k.i k.j = v ∧ u.reg k.name k.i k.j = w ∧
    (s.regOwner k ≠ none → t.latchedReg k.name k.i k.j = s.latchedReg k.name k.i k.j ∧ u.latchedReg k.name k.i k.j = s.latchedReg k.name k.i k.j) ∧
    (s.regOwner k = none → t.latchedReg k.name k.i k.j = v) ∧
    (u.latch k.name k.i k.j).latchedReg k.name k.i k.j = w

/-- R192: a CHECK is satisfied when its counter is at least its count, issue holds until then, and at START + GRACE the die raises LATE_DATA, with
SQ_LATE, and the partition's turn aborts. -/
def Obligations.CheckAndLateData : Prop :=
  ∀ (s : State) (m : MoveHdr) (p : Nat) (ctr : BitVec 8) (count grace : BitVec 24),
    (s.issues m p → count.toNat ≤ s.ctr m.site ctr.toNat →
      exec (.check m ctr count grace) s = .next ((s.advanceSeq m (.check m ctr count grace)).credit m.site m.cdone.toNat)) ∧
    (s.issues m p → s.ctr m.site ctr.toNat < count.toNat →
      ∃ t : State, exec (.check m ctr count grace) s = .next t ∧ t.flag .sqStatus m.site 0 17 = true ∧
        (∃ k, (t.die m.site).check = some k ∧ k.ctr = ctr ∧ k.count = count ∧ k.grace = grace ∧
          (s.flag .sqStatus m.site 0 18 = false → k.deadline = BitVec.ofNat 64 (m.start.toNat + grace.toNat))) ∧
        ∀ m' : MoveHdr, m'.site = m.site → t.canIssue p m' = false) ∧
    (∀ (i cycle : Nat) (k : CheckWait), (s.die i).check = some k →
      (k.count.toNat ≤ s.ctr i k.ctr.toNat → ((s.settleCheck p i cycle).die i).check = none ∧ (s.settleCheck p i cycle).flag .sqStatus i 0 17 = false) ∧
      (s.ctr i k.ctr.toNat < k.count.toNat → ((s.settleCheck p i cycle).die i).check ≠ none)) ∧
    (∀ (i : Nat) (k : CheckWait) (cycle : Word), s.siteOwner i = some p → (s.die i).check = some k → s.inPlay p = true →
      s.flag .sqStatus i 0 18 = false → s.anyHalted p = false → k.deadline.toNat ≤ cycle.toNat → (s.part p).aborted = false →
      ∃ t : State, exec (.lateData i cycle) s = .next t ∧
        t.reg .sqLate i = BitVec.ofNat 64 (k.ctr.toNat * 2 ^ 50 + k.index.toNat * 2 ^ 32 + s.ctr i k.ctr.toNat) ∧
        (t.part p).aborted = true ∧ (t.part p).stage = .draining) ∧
    (∀ (i : Nat) (k : CheckWait) (cycle : Word), (s.die i).check = some k → cycle.toNat < k.deadline.toNat →
      exec (.lateData i cycle) s = .next s)

/-- R84: when a die is done it signals done over the S-net; where every die is done by the end of play, the changeover begins at the planned
boundary. -/
def Obligations.DoneAtPlannedBoundary : Prop :=
  ∀ (s : State) (p i : Nat) (cycle : Word), s.siteOwner i = some p →
    let passed := s.field .sqNext i 0 0 18 = (s.die i).tableLen ∧ (s.die i).flights = [] ∧ (s.die i).check = none
    (s.inPlay p = true → (s.die i).playing = true → s.dieIssues p i = true → s.flag .sqStatus i 0 16 = false → (s.die i).halted = false → passed →
      exec (.dieDone i cycle) s = .next (s.signalDone p i cycle.toNat) ∧ (s.signalDone p i cycle.toNat).flag .sqStatus i 0 16 = true ∧
      4 ∈ ((s.signalDone p i cycle.toNat).square (siteSquare i)).snDone) ∧
    (¬passed → exec (.dieDone i cycle) s = .next s) ∧
    ((s.part p).stage = .play → s.phase p = 1 → (s.part p).pastEnd = false → s.membersDone p = true → s.allDone p = true → s.anyHalted p = false →
      ∃ t : State, exec (.plannedBoundary p) s = .next t ∧ (t.part p).stage = .begun ∧ (t.part p).chgStart = (s.part p).boundary)
end

