-- ==== Sys2Proof/Laws/Sparse.lean ====
section
/-! SUPPORT. Sparse data: a read after a write gives what was written and leaves every other key alone, and writes keep the canonical form. -/

namespace Sys2Proof.Sparse

variable {K V : Type}

theorem get_put_same (num : K → Nat) (d : V) (m : List (K × V)) (k : K) (v : V) : get num d (put num m k v) k = v := by
  induction m with
  | nil => simp [put, get]
  | cons x m ih =>
    obtain ⟨a, b⟩ := x
    simp only [put]
    split
    · simp [get]
    · split
      · simp [get]
      · rename_i h; simp [get, ih, Ne.symm h]

theorem get_put_ne (num : K → Nat) (d : V) (m : List (K × V)) (k k' : K) (v : V) (h : num k ≠ num k') :
    get num d (put num m k v) k' = get num d m k' := by
  induction m with
  | nil => simp [put, get, h]
  | cons x m ih =>
    obtain ⟨a, b⟩ := x
    simp only [put]
    split
    · simp [get, h]
    · split
      · rename_i e; simp [get, h, ← e]
      · simp [get, ih]

theorem get_drop_same (num : K → Nat) (d : V) (m : List (K × V)) (k : K) : get num d (drop num m k) k = d := by
  induction m with
  | nil => rfl
  | cons x m ih =>
    obtain ⟨a, b⟩ := x
    simp only [drop]
    split
    · exact ih
    · rename_i h; simp [get, h, ih]

theorem get_drop_ne (num : K → Nat) (d : V) (m : List (K × V)) (k k' : K) (h : num k ≠ num k') :
    get num d (drop num m k) k' = get num d m k' := by
  induction m with
  | nil => rfl
  | cons x m ih =>
    obtain ⟨a, b⟩ := x
    simp only [drop]
    split
    · rename_i e; simp [get, e, h, ih]
    · simp [get, ih]

/-- A read after a write at the same key gives what was written. -/
theorem get_set_same [DecidableEq V] (num : K → Nat) (d : V) (m : List (K × V)) (k : K) (v : V) : get num d (set num d m k v) k = v := by
  unfold set
  split
  · rename_i h; rw [get_drop_same, h]
  · exact get_put_same ..

/-- A write leaves every other key alone. -/
theorem get_set_ne [DecidableEq V] (num : K → Nat) (d d' : V) (m : List (K × V)) (k k' : K) (v : V) (h : num k ≠ num k') :
    get num d' (set num d m k v) k' = get num d' m k' := by
  unfold set
  split
  · exact get_drop_ne _ _ _ _ _ h
  · exact get_put_ne _ _ _ _ _ _ h

theorem get_set [DecidableEq V] (num : K → Nat) (d : V) (m : List (K × V)) (k k' : K) (v : V) :
    get num d (set num d m k v) k' = if num k = num k' then v else get num d m k' := by
  split
  · rename_i h
    have : ∀ l : List (K × V), get num d l k' = get num d l k := by
      intro l; induction l with
      | nil => rfl
      | cons x l ih => obtain ⟨a, b⟩ := x; simp [get, h, ih]
    rw [this, get_set_same]
  · rename_i h; exact get_set_ne _ _ _ _ _ _ _ h

@[simp] theorem nget_nset_same [DecidableEq V] (d : V) (m : List (Nat × V)) (k : Nat) (v : V) : nget d (nset d m k v) k = v :=
  get_set_same ..

theorem nget_nset [DecidableEq V] (d : V) (m : List (Nat × V)) (k k' : Nat) (v : V) :
    nget d (nset d m k v) k' = if k = k' then v else nget d m k' := get_set ..

/-! The canonical form -/

/-- The keys of a list in canonical form all lie above a bound. -/
def above (num : K → Nat) (n : Nat) (m : List (K × V)) : Prop := ∀ p ∈ m, n < num p.1

theorem rising_cons (num : K → Nat) (x : K × V) (m : List (K × V)) :
    rising num (x :: m) = true ↔ above num (num x.1) m ∧ rising num m = true := by
  induction m generalizing x with
  | nil => simp [rising, above]
  | cons y m ih =>
    obtain ⟨a, b⟩ := x
    obtain ⟨c, d⟩ := y
    simp only [rising, Bool.and_eq_true, decide_eq_true_eq, ih, above, List.mem_cons, forall_eq_or_imp]
    constructor
    · rintro ⟨h, h2, h3⟩
      exact ⟨⟨h, fun p hp => Nat.lt_trans h (h2 p hp)⟩, h2, h3⟩
    · rintro ⟨⟨h, _⟩, h2, h3⟩
      exact ⟨h, h2, h3⟩

theorem mem_put (num : K → Nat) (m : List (K × V)) (k : K) (v : V) (p : K × V) (h : p ∈ put num m k v) : p = (k, v) ∨ p ∈ m := by
  induction m with
  | nil => simpa [put] using h
  | cons x m ih =>
    obtain ⟨a, b⟩ := x
    simp only [put] at h
    split at h
    · simpa using h
    · split at h
      · rcases List.mem_cons.1 h with h | h
        · exact .inl h
        · exact .inr (List.mem_cons_of_mem _ h)
      · rcases List.mem_cons.1 h with h | h
        · exact .inr (by simp [h])
        · rcases ih h with h | h
          · exact .inl h
          · exact .inr (List.mem_cons_of_mem _ h)

theorem rising_put (num : K → Nat) (m : List (K × V)) (k : K) (v : V) (h : rising num m = true) : rising num (put num m k v) = true := by
  induction m with
  | nil => rfl
  | cons x m ih =>
    obtain ⟨a, b⟩ := x
    have h' := (rising_cons num (a, b) m).1 h
    simp only [put]
    split
    · rename_i hk
      refine (rising_cons ..).2 ⟨?_, h⟩
      intro p hp
      rcases List.mem_cons.1 hp with rfl | hp
      · exact hk
      · exact Nat.lt_trans hk (h'.1 p hp)
    · split
      · rename_i hk
        exact (rising_cons ..).2 ⟨fun p hp => hk ▸ h'.1 p hp, h'.2⟩
      · rename_i h1 h2
        refine (rising_cons ..).2 ⟨?_, ih h'.2⟩
        intro p hp
        rcases mem_put _ _ _ _ _ hp with rfl | hp
        · have : num a ≤ num k := Nat.not_lt.1 h1
          exact Nat.lt_of_le_of_ne this (Ne.symm h2)
        · exact h'.1 p hp

theorem mem_drop (num : K → Nat) (m : List (K × V)) (k : K) (p : K × V) (h : p ∈ drop num m k) : p ∈ m := by
  induction m with
  | nil => simp [drop] at h
  | cons x m ih =>
    obtain ⟨a, b⟩ := x
    simp only [drop] at h
    split at h
    · exact List.mem_cons_of_mem _ (ih h)
    · rcases List.mem_cons.1 h with h | h
      · simp [h]
      · exact List.mem_cons_of_mem _ (ih h)

theorem rising_drop (num : K → Nat) (m : List (K × V)) (k : K) (h : rising num m = true) : rising num (drop num m k) = true := by
  induction m with
  | nil => rfl
  | cons x m ih =>
    obtain ⟨a, b⟩ := x
    have h' := (rising_cons num (a, b) m).1 h
    simp only [drop]
    split
    · exact ih h'.2
    · exact (rising_cons ..).2 ⟨fun p hp => h'.1 p (mem_drop _ _ _ _ hp), ih h'.2⟩

theorem wf_iff [DecidableEq V] (num : K → Nat) (d : K → V) (m : List (K × V)) :
    wf num d m = true ↔ rising num m = true ∧ ∀ p ∈ m, p.2 ≠ d p.1 := by
  simp [wf, List.all_eq_true]

/-- A write keeps the canonical form. -/
theorem wf_set [DecidableEq V] (num : K → Nat) (d : V) (m : List (K × V)) (k : K) (v : V) (h : wf num (fun _ => d) m = true) :
    wf num (fun _ => d) (set num d m k v) = true := by
  rw [wf_iff] at h ⊢
  unfold set
  split
  · exact ⟨rising_drop _ _ _ h.1, fun p hp => h.2 p (mem_drop _ _ _ _ hp)⟩
  · rename_i hv
    refine ⟨rising_put _ _ _ _ h.1, fun p hp => ?_⟩
    rcases mem_put _ _ _ _ _ hp with rfl | hp
    · exact hv
    · exact h.2 p hp

/-- What a filter leaves keeps the canonical form. -/
theorem wf_filter [DecidableEq V] (num : K → Nat) (d : K → V) (q : K × V → Bool) (m : List (K × V)) (h : wf num d m = true) :
    wf num d (m.filter q) = true := by
  rw [wf_iff] at h ⊢
  refine ⟨?_, fun p hp => h.2 p (List.mem_of_mem_filter hp)⟩
  replace h := h.1
  induction m with
  | nil => rfl
  | cons x m ih =>
    have h' := (rising_cons num x m).1 h
    rw [List.filter_cons]
    split
    · exact (rising_cons ..).2 ⟨fun p hp => h'.1 p (List.mem_of_mem_filter hp), ih h'.2⟩
    · exact ih h'.2

end Sys2Proof.Sparse
end

