-- ==== Sys2Proof/Laws/State.lean ====
section
/-! SUPPORT. What each update of the state leaves: one lemma per field and update, so that a proof never unfolds a record update. -/

namespace Sys2Proof.Machine

/-! setReg -/

@[simp] theorem State.setReg_pending (s : State) (n : RegName) (i j : Nat) (v : Word) : (s.setReg n i j v).pending = s.pending := rfl
@[simp] theorem State.setReg_latched (s : State) (n : RegName) (i j : Nat) (v : Word) : (s.setReg n i j v).latched = s.latched := rfl
@[simp] theorem State.setReg_shadowLatched (s : State) (n : RegName) (i j : Nat) (v : Word) : (s.setReg n i j v).shadowLatched = s.shadowLatched := rfl
@[simp] theorem State.setReg_mem (s : State) (n : RegName) (i j : Nat) (v : Word) : (s.setReg n i j v).mem = s.mem := rfl
@[simp] theorem State.setReg_general (s : State) (n : RegName) (i j : Nat) (v : Word) : (s.setReg n i j v).general = s.general := rfl
@[simp] theorem State.setReg_hsc (s : State) (n : RegName) (i j : Nat) (v : Word) : (s.setReg n i j v).hsc = s.hsc := rfl
@[simp] theorem State.setReg_hartBlocks (s : State) (n : RegName) (i j : Nat) (v : Word) : (s.setReg n i j v).hartBlocks = s.hartBlocks := rfl
@[simp] theorem State.setReg_poison (s : State) (n : RegName) (i j : Nat) (v : Word) : (s.setReg n i j v).poison = s.poison := rfl
@[simp] theorem State.setReg_overflows (s : State) (n : RegName) (i j : Nat) (v : Word) : (s.setReg n i j v).overflows = s.overflows := rfl
@[simp] theorem State.setReg_tailMem (s : State) (n : RegName) (i j : Nat) (v : Word) : (s.setReg n i j v).tailMem = s.tailMem := rfl
@[simp] theorem State.setReg_fills (s : State) (n : RegName) (i j : Nat) (v : Word) : (s.setReg n i j v).fills = s.fills := rfl
@[simp] theorem State.setReg_filledRegions (s : State) (n : RegName) (i j : Nat) (v : Word) : (s.setReg n i j v).filledRegions = s.filledRegions := rfl
@[simp] theorem State.setReg_rows (s : State) (n : RegName) (i j : Nat) (v : Word) : (s.setReg n i j v).rows = s.rows := rfl
@[simp] theorem State.setReg_generations (s : State) (n : RegName) (i j : Nat) (v : Word) : (s.setReg n i j v).generations = s.generations := rfl
@[simp] theorem State.setReg_parts (s : State) (n : RegName) (i j : Nat) (v : Word) : (s.setReg n i j v).parts = s.parts := rfl
@[simp] theorem State.setReg_rings (s : State) (n : RegName) (i j : Nat) (v : Word) : (s.setReg n i j v).rings = s.rings := rfl
@[simp] theorem State.setReg_dies (s : State) (n : RegName) (i j : Nat) (v : Word) : (s.setReg n i j v).dies = s.dies := rfl
@[simp] theorem State.setReg_squares (s : State) (n : RegName) (i j : Nat) (v : Word) : (s.setReg n i j v).squares = s.squares := rfl
@[simp] theorem State.setReg_hosts (s : State) (n : RegName) (i j : Nat) (v : Word) : (s.setReg n i j v).hosts = s.hosts := rfl
@[simp] theorem State.setReg_quads (s : State) (n : RegName) (i j : Nat) (v : Word) : (s.setReg n i j v).quads = s.quads := rfl
@[simp] theorem State.setReg_poolLines (s : State) (n : RegName) (i j : Nat) (v : Word) : (s.setReg n i j v).poolLines = s.poolLines := rfl
@[simp] theorem State.setReg_exchanges (s : State) (n : RegName) (i j : Nat) (v : Word) : (s.setReg n i j v).exchanges = s.exchanges := rfl
@[simp] theorem State.setReg_e2eMisses (s : State) (n : RegName) (i j : Nat) (v : Word) : (s.setReg n i j v).e2eMisses = s.e2eMisses := rfl
@[simp] theorem State.setReg_fencedModules (s : State) (n : RegName) (i j : Nat) (v : Word) : (s.setReg n i j v).fencedModules = s.fencedModules := rfl
@[simp] theorem State.setReg_clock (s : State) (n : RegName) (i j : Nat) (v : Word) : (s.setReg n i j v).clock = s.clock := rfl
@[simp] theorem State.setReg_referee (s : State) (n : RegName) (i j : Nat) (v : Word) : (s.setReg n i j v).referee = s.referee := rfl
@[simp] theorem State.setReg_recorder (s : State) (n : RegName) (i j : Nat) (v : Word) : (s.setReg n i j v).recorder = s.recorder := rfl
@[simp] theorem State.setReg_flash (s : State) (n : RegName) (i j : Nat) (v : Word) : (s.setReg n i j v).flash = s.flash := rfl
@[simp] theorem State.setReg_pins (s : State) (n : RegName) (i j : Nat) (v : Word) : (s.setReg n i j v).pins = s.pins := rfl
@[simp] theorem State.setReg_power (s : State) (n : RegName) (i j : Nat) (v : Word) : (s.setReg n i j v).power = s.power := rfl
@[simp] theorem State.setReg_jtag (s : State) (n : RegName) (i j : Nat) (v : Word) : (s.setReg n i j v).jtag = s.jtag := rfl
@[simp] theorem State.setReg_barred (s : State) (n : RegName) (i j : Nat) (v : Word) : (s.setReg n i j v).barred = s.barred := rfl
@[simp] theorem State.setReg_answer (s : State) (n : RegName) (i j : Nat) (v : Word) : (s.setReg n i j v).answer = s.answer := rfl
@[simp] theorem State.setReg_fresh (s : State) (n : RegName) (i j : Nat) (v : Word) : (s.setReg n i j v).fresh = s.fresh := rfl

/-! latchReg -/

@[simp] theorem State.latchReg_pending (s : State) (n : RegName) (i j : Nat) (v : Word) : (s.latchReg n i j v).pending = s.pending := rfl
@[simp] theorem State.latchReg_regs (s : State) (n : RegName) (i j : Nat) (v : Word) : (s.latchReg n i j v).regs = s.regs := rfl
@[simp] theorem State.latchReg_shadow (s : State) (n : RegName) (i j : Nat) (v : Word) : (s.latchReg n i j v).shadow = s.shadow := rfl
@[simp] theorem State.latchReg_mem (s : State) (n : RegName) (i j : Nat) (v : Word) : (s.latchReg n i j v).mem = s.mem := rfl
@[simp] theorem State.latchReg_general (s : State) (n : RegName) (i j : Nat) (v : Word) : (s.latchReg n i j v).general = s.general := rfl
@[simp] theorem State.latchReg_hsc (s : State) (n : RegName) (i j : Nat) (v : Word) : (s.latchReg n i j v).hsc = s.hsc := rfl
@[simp] theorem State.latchReg_hartBlocks (s : State) (n : RegName) (i j : Nat) (v : Word) : (s.latchReg n i j v).hartBlocks = s.hartBlocks := rfl
@[simp] theorem State.latchReg_poison (s : State) (n : RegName) (i j : Nat) (v : Word) : (s.latchReg n i j v).poison = s.poison := rfl
@[simp] theorem State.latchReg_overflows (s : State) (n : RegName) (i j : Nat) (v : Word) : (s.latchReg n i j v).overflows = s.overflows := rfl
@[simp] theorem State.latchReg_tailMem (s : State) (n : RegName) (i j : Nat) (v : Word) : (s.latchReg n i j v).tailMem = s.tailMem := rfl
@[simp] theorem State.latchReg_fills (s : State) (n : RegName) (i j : Nat) (v : Word) : (s.latchReg n i j v).fills = s.fills := rfl
@[simp] theorem State.latchReg_filledRegions (s : State) (n : RegName) (i j : Nat) (v : Word) : (s.latchReg n i j v).filledRegions = s.filledRegions := rfl
@[simp] theorem State.latchReg_rows (s : State) (n : RegName) (i j : Nat) (v : Word) : (s.latchReg n i j v).rows = s.rows := rfl
@[simp] theorem State.latchReg_generations (s : State) (n : RegName) (i j : Nat) (v : Word) : (s.latchReg n i j v).generations = s.generations := rfl
@[simp] theorem State.latchReg_parts (s : State) (n : RegName) (i j : Nat) (v : Word) : (s.latchReg n i j v).parts = s.parts := rfl
@[simp] theorem State.latchReg_rings (s : State) (n : RegName) (i j : Nat) (v : Word) : (s.latchReg n i j v).rings = s.rings := rfl
@[simp] theorem State.latchReg_dies (s : State) (n : RegName) (i j : Nat) (v : Word) : (s.latchReg n i j v).dies = s.dies := rfl
@[simp] theorem State.latchReg_squares (s : State) (n : RegName) (i j : Nat) (v : Word) : (s.latchReg n i j v).squares = s.squares := rfl
@[simp] theorem State.latchReg_hosts (s : State) (n : RegName) (i j : Nat) (v : Word) : (s.latchReg n i j v).hosts = s.hosts := rfl
@[simp] theorem State.latchReg_quads (s : State) (n : RegName) (i j : Nat) (v : Word) : (s.latchReg n i j v).quads = s.quads := rfl
@[simp] theorem State.latchReg_poolLines (s : State) (n : RegName) (i j : Nat) (v : Word) : (s.latchReg n i j v).poolLines = s.poolLines := rfl
@[simp] theorem State.latchReg_exchanges (s : State) (n : RegName) (i j : Nat) (v : Word) : (s.latchReg n i j v).exchanges = s.exchanges := rfl
@[simp] theorem State.latchReg_e2eMisses (s : State) (n : RegName) (i j : Nat) (v : Word) : (s.latchReg n i j v).e2eMisses = s.e2eMisses := rfl
@[simp] theorem State.latchReg_fencedModules (s : State) (n : RegName) (i j : Nat) (v : Word) : (s.latchReg n i j v).fencedModules = s.fencedModules := rfl
@[simp] theorem State.latchReg_clock (s : State) (n : RegName) (i j : Nat) (v : Word) : (s.latchReg n i j v).clock = s.clock := rfl
@[simp] theorem State.latchReg_referee (s : State) (n : RegName) (i j : Nat) (v : Word) : (s.latchReg n i j v).referee = s.referee := rfl
@[simp] theorem State.latchReg_recorder (s : State) (n : RegName) (i j : Nat) (v : Word) : (s.latchReg n i j v).recorder = s.recorder := rfl
@[simp] theorem State.latchReg_flash (s : State) (n : RegName) (i j : Nat) (v : Word) : (s.latchReg n i j v).flash = s.flash := rfl
@[simp] theorem State.latchReg_pins (s : State) (n : RegName) (i j : Nat) (v : Word) : (s.latchReg n i j v).pins = s.pins := rfl
@[simp] theorem State.latchReg_power (s : State) (n : RegName) (i j : Nat) (v : Word) : (s.latchReg n i j v).power = s.power := rfl
@[simp] theorem State.latchReg_jtag (s : State) (n : RegName) (i j : Nat) (v : Word) : (s.latchReg n i j v).jtag = s.jtag := rfl
@[simp] theorem State.latchReg_barred (s : State) (n : RegName) (i j : Nat) (v : Word) : (s.latchReg n i j v).barred = s.barred := rfl
@[simp] theorem State.latchReg_answer (s : State) (n : RegName) (i j : Nat) (v : Word) : (s.latchReg n i j v).answer = s.answer := rfl
@[simp] theorem State.latchReg_fresh (s : State) (n : RegName) (i j : Nat) (v : Word) : (s.latchReg n i j v).fresh = s.fresh := rfl

/-! setBoth -/

@[simp] theorem State.setBoth_pending (s : State) (n : RegName) (i j : Nat) (v : Word) : (s.setBoth n i j v).pending = s.pending := rfl
@[simp] theorem State.setBoth_mem (s : State) (n : RegName) (i j : Nat) (v : Word) : (s.setBoth n i j v).mem = s.mem := rfl
@[simp] theorem State.setBoth_general (s : State) (n : RegName) (i j : Nat) (v : Word) : (s.setBoth n i j v).general = s.general := rfl
@[simp] theorem State.setBoth_hsc (s : State) (n : RegName) (i j : Nat) (v : Word) : (s.setBoth n i j v).hsc = s.hsc := rfl
@[simp] theorem State.setBoth_hartBlocks (s : State) (n : RegName) (i j : Nat) (v : Word) : (s.setBoth n i j v).hartBlocks = s.hartBlocks := rfl
@[simp] theorem State.setBoth_poison (s : State) (n : RegName) (i j : Nat) (v : Word) : (s.setBoth n i j v).poison = s.poison := rfl
@[simp] theorem State.setBoth_overflows (s : State) (n : RegName) (i j : Nat) (v : Word) : (s.setBoth n i j v).overflows = s.overflows := rfl
@[simp] theorem State.setBoth_tailMem (s : State) (n : RegName) (i j : Nat) (v : Word) : (s.setBoth n i j v).tailMem = s.tailMem := rfl
@[simp] theorem State.setBoth_fills (s : State) (n : RegName) (i j : Nat) (v : Word) : (s.setBoth n i j v).fills = s.fills := rfl
@[simp] theorem State.setBoth_filledRegions (s : State) (n : RegName) (i j : Nat) (v : Word) : (s.setBoth n i j v).filledRegions = s.filledRegions := rfl
@[simp] theorem State.setBoth_rows (s : State) (n : RegName) (i j : Nat) (v : Word) : (s.setBoth n i j v).rows = s.rows := rfl
@[simp] theorem State.setBoth_generations (s : State) (n : RegName) (i j : Nat) (v : Word) : (s.setBoth n i j v).generations = s.generations := rfl
@[simp] theorem State.setBoth_parts (s : State) (n : RegName) (i j : Nat) (v : Word) : (s.setBoth n i j v).parts = s.parts := rfl
@[simp] theorem State.setBoth_rings (s : State) (n : RegName) (i j : Nat) (v : Word) : (s.setBoth n i j v).rings = s.rings := rfl
@[simp] theorem State.setBoth_dies (s : State) (n : RegName) (i j : Nat) (v : Word) : (s.setBoth n i j v).dies = s.dies := rfl
@[simp] theorem State.setBoth_squares (s : State) (n : RegName) (i j : Nat) (v : Word) : (s.setBoth n i j v).squares = s.squares := rfl
@[simp] theorem State.setBoth_hosts (s : State) (n : RegName) (i j : Nat) (v : Word) : (s.setBoth n i j v).hosts = s.hosts := rfl
@[simp] theorem State.setBoth_quads (s : State) (n : RegName) (i j : Nat) (v : Word) : (s.setBoth n i j v).quads = s.quads := rfl
@[simp] theorem State.setBoth_poolLines (s : State) (n : RegName) (i j : Nat) (v : Word) : (s.setBoth n i j v).poolLines = s.poolLines := rfl
@[simp] theorem State.setBoth_exchanges (s : State) (n : RegName) (i j : Nat) (v : Word) : (s.setBoth n i j v).exchanges = s.exchanges := rfl
@[simp] theorem State.setBoth_e2eMisses (s : State) (n : RegName) (i j : Nat) (v : Word) : (s.setBoth n i j v).e2eMisses = s.e2eMisses := rfl
@[simp] theorem State.setBoth_fencedModules (s : State) (n : RegName) (i j : Nat) (v : Word) : (s.setBoth n i j v).fencedModules = s.fencedModules := rfl
@[simp] theorem State.setBoth_clock (s : State) (n : RegName) (i j : Nat) (v : Word) : (s.setBoth n i j v).clock = s.clock := rfl
@[simp] theorem State.setBoth_referee (s : State) (n : RegName) (i j : Nat) (v : Word) : (s.setBoth n i j v).referee = s.referee := rfl
@[simp] theorem State.setBoth_recorder (s : State) (n : RegName) (i j : Nat) (v : Word) : (s.setBoth n i j v).recorder = s.recorder := rfl
@[simp] theorem State.setBoth_flash (s : State) (n : RegName) (i j : Nat) (v : Word) : (s.setBoth n i j v).flash = s.flash := rfl
@[simp] theorem State.setBoth_pins (s : State) (n : RegName) (i j : Nat) (v : Word) : (s.setBoth n i j v).pins = s.pins := rfl
@[simp] theorem State.setBoth_power (s : State) (n : RegName) (i j : Nat) (v : Word) : (s.setBoth n i j v).power = s.power := rfl
@[simp] theorem State.setBoth_jtag (s : State) (n : RegName) (i j : Nat) (v : Word) : (s.setBoth n i j v).jtag = s.jtag := rfl
@[simp] theorem State.setBoth_barred (s : State) (n : RegName) (i j : Nat) (v : Word) : (s.setBoth n i j v).barred = s.barred := rfl
@[simp] theorem State.setBoth_answer (s : State) (n : RegName) (i j : Nat) (v : Word) : (s.setBoth n i j v).answer = s.answer := rfl
@[simp] theorem State.setBoth_fresh (s : State) (n : RegName) (i j : Nat) (v : Word) : (s.setBoth n i j v).fresh = s.fresh := rfl

/-! bump -/

@[simp] theorem State.bump_pending (s : State) (n : RegName) (i j k : Nat) : (s.bump n i j k).pending = s.pending := rfl
@[simp] theorem State.bump_latched (s : State) (n : RegName) (i j k : Nat) : (s.bump n i j k).latched = s.latched := rfl
@[simp] theorem State.bump_shadowLatched (s : State) (n : RegName) (i j k : Nat) : (s.bump n i j k).shadowLatched = s.shadowLatched := rfl
@[simp] theorem State.bump_mem (s : State) (n : RegName) (i j k : Nat) : (s.bump n i j k).mem = s.mem := rfl
@[simp] theorem State.bump_general (s : State) (n : RegName) (i j k : Nat) : (s.bump n i j k).general = s.general := rfl
@[simp] theorem State.bump_hsc (s : State) (n : RegName) (i j k : Nat) : (s.bump n i j k).hsc = s.hsc := rfl
@[simp] theorem State.bump_hartBlocks (s : State) (n : RegName) (i j k : Nat) : (s.bump n i j k).hartBlocks = s.hartBlocks := rfl
@[simp] theorem State.bump_poison (s : State) (n : RegName) (i j k : Nat) : (s.bump n i j k).poison = s.poison := rfl
@[simp] theorem State.bump_overflows (s : State) (n : RegName) (i j k : Nat) : (s.bump n i j k).overflows = s.overflows := rfl
@[simp] theorem State.bump_tailMem (s : State) (n : RegName) (i j k : Nat) : (s.bump n i j k).tailMem = s.tailMem := rfl
@[simp] theorem State.bump_fills (s : State) (n : RegName) (i j k : Nat) : (s.bump n i j k).fills = s.fills := rfl
@[simp] theorem State.bump_filledRegions (s : State) (n : RegName) (i j k : Nat) : (s.bump n i j k).filledRegions = s.filledRegions := rfl
@[simp] theorem State.bump_rows (s : State) (n : RegName) (i j k : Nat) : (s.bump n i j k).rows = s.rows := rfl
@[simp] theorem State.bump_generations (s : State) (n : RegName) (i j k : Nat) : (s.bump n i j k).generations = s.generations := rfl
@[simp] theorem State.bump_parts (s : State) (n : RegName) (i j k : Nat) : (s.bump n i j k).parts = s.parts := rfl
@[simp] theorem State.bump_rings (s : State) (n : RegName) (i j k : Nat) : (s.bump n i j k).rings = s.rings := rfl
@[simp] theorem State.bump_dies (s : State) (n : RegName) (i j k : Nat) : (s.bump n i j k).dies = s.dies := rfl
@[simp] theorem State.bump_squares (s : State) (n : RegName) (i j k : Nat) : (s.bump n i j k).squares = s.squares := rfl
@[simp] theorem State.bump_hosts (s : State) (n : RegName) (i j k : Nat) : (s.bump n i j k).hosts = s.hosts := rfl
@[simp] theorem State.bump_quads (s : State) (n : RegName) (i j k : Nat) : (s.bump n i j k).quads = s.quads := rfl
@[simp] theorem State.bump_poolLines (s : State) (n : RegName) (i j k : Nat) : (s.bump n i j k).poolLines = s.poolLines := rfl
@[simp] theorem State.bump_exchanges (s : State) (n : RegName) (i j k : Nat) : (s.bump n i j k).exchanges = s.exchanges := rfl
@[simp] theorem State.bump_e2eMisses (s : State) (n : RegName) (i j k : Nat) : (s.bump n i j k).e2eMisses = s.e2eMisses := rfl
@[simp] theorem State.bump_fencedModules (s : State) (n : RegName) (i j k : Nat) : (s.bump n i j k).fencedModules = s.fencedModules := rfl
@[simp] theorem State.bump_clock (s : State) (n : RegName) (i j k : Nat) : (s.bump n i j k).clock = s.clock := rfl
@[simp] theorem State.bump_referee (s : State) (n : RegName) (i j k : Nat) : (s.bump n i j k).referee = s.referee := rfl
@[simp] theorem State.bump_recorder (s : State) (n : RegName) (i j k : Nat) : (s.bump n i j k).recorder = s.recorder := rfl
@[simp] theorem State.bump_flash (s : State) (n : RegName) (i j k : Nat) : (s.bump n i j k).flash = s.flash := rfl
@[simp] theorem State.bump_pins (s : State) (n : RegName) (i j k : Nat) : (s.bump n i j k).pins = s.pins := rfl
@[simp] theorem State.bump_power (s : State) (n : RegName) (i j k : Nat) : (s.bump n i j k).power = s.power := rfl
@[simp] theorem State.bump_jtag (s : State) (n : RegName) (i j k : Nat) : (s.bump n i j k).jtag = s.jtag := rfl
@[simp] theorem State.bump_barred (s : State) (n : RegName) (i j k : Nat) : (s.bump n i j k).barred = s.barred := rfl
@[simp] theorem State.bump_answer (s : State) (n : RegName) (i j k : Nat) : (s.bump n i j k).answer = s.answer := rfl
@[simp] theorem State.bump_fresh (s : State) (n : RegName) (i j k : Nat) : (s.bump n i j k).fresh = s.fresh := rfl

/-! setField -/

@[simp] theorem State.setField_pending (s : State) (r : RegName) (i j lo n x : Nat) : (s.setField r i j lo n x).pending = s.pending := rfl
@[simp] theorem State.setField_latched (s : State) (r : RegName) (i j lo n x : Nat) : (s.setField r i j lo n x).latched = s.latched := rfl
@[simp] theorem State.setField_shadowLatched (s : State) (r : RegName) (i j lo n x : Nat) : (s.setField r i j lo n x).shadowLatched = s.shadowLatched := rfl
@[simp] theorem State.setField_mem (s : State) (r : RegName) (i j lo n x : Nat) : (s.setField r i j lo n x).mem = s.mem := rfl
@[simp] theorem State.setField_general (s : State) (r : RegName) (i j lo n x : Nat) : (s.setField r i j lo n x).general = s.general := rfl
@[simp] theorem State.setField_hsc (s : State) (r : RegName) (i j lo n x : Nat) : (s.setField r i j lo n x).hsc = s.hsc := rfl
@[simp] theorem State.setField_hartBlocks (s : State) (r : RegName) (i j lo n x : Nat) : (s.setField r i j lo n x).hartBlocks = s.hartBlocks := rfl
@[simp] theorem State.setField_poison (s : State) (r : RegName) (i j lo n x : Nat) : (s.setField r i j lo n x).poison = s.poison := rfl
@[simp] theorem State.setField_overflows (s : State) (r : RegName) (i j lo n x : Nat) : (s.setField r i j lo n x).overflows = s.overflows := rfl
@[simp] theorem State.setField_tailMem (s : State) (r : RegName) (i j lo n x : Nat) : (s.setField r i j lo n x).tailMem = s.tailMem := rfl
@[simp] theorem State.setField_fills (s : State) (r : RegName) (i j lo n x : Nat) : (s.setField r i j lo n x).fills = s.fills := rfl
@[simp] theorem State.setField_filledRegions (s : State) (r : RegName) (i j lo n x : Nat) : (s.setField r i j lo n x).filledRegions = s.filledRegions := rfl
@[simp] theorem State.setField_rows (s : State) (r : RegName) (i j lo n x : Nat) : (s.setField r i j lo n x).rows = s.rows := rfl
@[simp] theorem State.setField_generations (s : State) (r : RegName) (i j lo n x : Nat) : (s.setField r i j lo n x).generations = s.generations := rfl
@[simp] theorem State.setField_parts (s : State) (r : RegName) (i j lo n x : Nat) : (s.setField r i j lo n x).parts = s.parts := rfl
@[simp] theorem State.setField_rings (s : State) (r : RegName) (i j lo n x : Nat) : (s.setField r i j lo n x).rings = s.rings := rfl
@[simp] theorem State.setField_dies (s : State) (r : RegName) (i j lo n x : Nat) : (s.setField r i j lo n x).dies = s.dies := rfl
@[simp] theorem State.setField_squares (s : State) (r : RegName) (i j lo n x : Nat) : (s.setField r i j lo n x).squares = s.squares := rfl
@[simp] theorem State.setField_hosts (s : State) (r : RegName) (i j lo n x : Nat) : (s.setField r i j lo n x).hosts = s.hosts := rfl
@[simp] theorem State.setField_quads (s : State) (r : RegName) (i j lo n x : Nat) : (s.setField r i j lo n x).quads = s.quads := rfl
@[simp] theorem State.setField_poolLines (s : State) (r : RegName) (i j lo n x : Nat) : (s.setField r i j lo n x).poolLines = s.poolLines := rfl
@[simp] theorem State.setField_exchanges (s : State) (r : RegName) (i j lo n x : Nat) : (s.setField r i j lo n x).exchanges = s.exchanges := rfl
@[simp] theorem State.setField_e2eMisses (s : State) (r : RegName) (i j lo n x : Nat) : (s.setField r i j lo n x).e2eMisses = s.e2eMisses := rfl
@[simp] theorem State.setField_fencedModules (s : State) (r : RegName) (i j lo n x : Nat) : (s.setField r i j lo n x).fencedModules = s.fencedModules := rfl
@[simp] theorem State.setField_clock (s : State) (r : RegName) (i j lo n x : Nat) : (s.setField r i j lo n x).clock = s.clock := rfl
@[simp] theorem State.setField_referee (s : State) (r : RegName) (i j lo n x : Nat) : (s.setField r i j lo n x).referee = s.referee := rfl
@[simp] theorem State.setField_recorder (s : State) (r : RegName) (i j lo n x : Nat) : (s.setField r i j lo n x).recorder = s.recorder := rfl
@[simp] theorem State.setField_flash (s : State) (r : RegName) (i j lo n x : Nat) : (s.setField r i j lo n x).flash = s.flash := rfl
@[simp] theorem State.setField_pins (s : State) (r : RegName) (i j lo n x : Nat) : (s.setField r i j lo n x).pins = s.pins := rfl
@[simp] theorem State.setField_power (s : State) (r : RegName) (i j lo n x : Nat) : (s.setField r i j lo n x).power = s.power := rfl
@[simp] theorem State.setField_jtag (s : State) (r : RegName) (i j lo n x : Nat) : (s.setField r i j lo n x).jtag = s.jtag := rfl
@[simp] theorem State.setField_barred (s : State) (r : RegName) (i j lo n x : Nat) : (s.setField r i j lo n x).barred = s.barred := rfl
@[simp] theorem State.setField_answer (s : State) (r : RegName) (i j lo n x : Nat) : (s.setField r i j lo n x).answer = s.answer := rfl
@[simp] theorem State.setField_fresh (s : State) (r : RegName) (i j lo n x : Nat) : (s.setField r i j lo n x).fresh = s.fresh := rfl

/-! setFlag -/

@[simp] theorem State.setFlag_pending (s : State) (r : RegName) (i j b : Nat) (x : Bool) : (s.setFlag r i j b x).pending = s.pending := rfl
@[simp] theorem State.setFlag_latched (s : State) (r : RegName) (i j b : Nat) (x : Bool) : (s.setFlag r i j b x).latched = s.latched := rfl
@[simp] theorem State.setFlag_shadowLatched (s : State) (r : RegName) (i j b : Nat) (x : Bool) : (s.setFlag r i j b x).shadowLatched = s.shadowLatched := rfl
@[simp] theorem State.setFlag_mem (s : State) (r : RegName) (i j b : Nat) (x : Bool) : (s.setFlag r i j b x).mem = s.mem := rfl
@[simp] theorem State.setFlag_general (s : State) (r : RegName) (i j b : Nat) (x : Bool) : (s.setFlag r i j b x).general = s.general := rfl
@[simp] theorem State.setFlag_hsc (s : State) (r : RegName) (i j b : Nat) (x : Bool) : (s.setFlag r i j b x).hsc = s.hsc := rfl
@[simp] theorem State.setFlag_hartBlocks (s : State) (r : RegName) (i j b : Nat) (x : Bool) : (s.setFlag r i j b x).hartBlocks = s.hartBlocks := rfl
@[simp] theorem State.setFlag_poison (s : State) (r : RegName) (i j b : Nat) (x : Bool) : (s.setFlag r i j b x).poison = s.poison := rfl
@[simp] theorem State.setFlag_overflows (s : State) (r : RegName) (i j b : Nat) (x : Bool) : (s.setFlag r i j b x).overflows = s.overflows := rfl
@[simp] theorem State.setFlag_tailMem (s : State) (r : RegName) (i j b : Nat) (x : Bool) : (s.setFlag r i j b x).tailMem = s.tailMem := rfl
@[simp] theorem State.setFlag_fills (s : State) (r : RegName) (i j b : Nat) (x : Bool) : (s.setFlag r i j b x).fills = s.fills := rfl
@[simp] theorem State.setFlag_filledRegions (s : State) (r : RegName) (i j b : Nat) (x : Bool) : (s.setFlag r i j b x).filledRegions = s.filledRegions := rfl
@[simp] theorem State.setFlag_rows (s : State) (r : RegName) (i j b : Nat) (x : Bool) : (s.setFlag r i j b x).rows = s.rows := rfl
@[simp] theorem State.setFlag_generations (s : State) (r : RegName) (i j b : Nat) (x : Bool) : (s.setFlag r i j b x).generations = s.generations := rfl
@[simp] theorem State.setFlag_parts (s : State) (r : RegName) (i j b : Nat) (x : Bool) : (s.setFlag r i j b x).parts = s.parts := rfl
@[simp] theorem State.setFlag_rings (s : State) (r : RegName) (i j b : Nat) (x : Bool) : (s.setFlag r i j b x).rings = s.rings := rfl
@[simp] theorem State.setFlag_dies (s : State) (r : RegName) (i j b : Nat) (x : Bool) : (s.setFlag r i j b x).dies = s.dies := rfl
@[simp] theorem State.setFlag_squares (s : State) (r : RegName) (i j b : Nat) (x : Bool) : (s.setFlag r i j b x).squares = s.squares := rfl
@[simp] theorem State.setFlag_hosts (s : State) (r : RegName) (i j b : Nat) (x : Bool) : (s.setFlag r i j b x).hosts = s.hosts := rfl
@[simp] theorem State.setFlag_quads (s : State) (r : RegName) (i j b : Nat) (x : Bool) : (s.setFlag r i j b x).quads = s.quads := rfl
@[simp] theorem State.setFlag_poolLines (s : State) (r : RegName) (i j b : Nat) (x : Bool) : (s.setFlag r i j b x).poolLines = s.poolLines := rfl
@[simp] theorem State.setFlag_exchanges (s : State) (r : RegName) (i j b : Nat) (x : Bool) : (s.setFlag r i j b x).exchanges = s.exchanges := rfl
@[simp] theorem State.setFlag_e2eMisses (s : State) (r : RegName) (i j b : Nat) (x : Bool) : (s.setFlag r i j b x).e2eMisses = s.e2eMisses := rfl
@[simp] theorem State.setFlag_fencedModules (s : State) (r : RegName) (i j b : Nat) (x : Bool) : (s.setFlag r i j b x).fencedModules = s.fencedModules := rfl
@[simp] theorem State.setFlag_clock (s : State) (r : RegName) (i j b : Nat) (x : Bool) : (s.setFlag r i j b x).clock = s.clock := rfl
@[simp] theorem State.setFlag_referee (s : State) (r : RegName) (i j b : Nat) (x : Bool) : (s.setFlag r i j b x).referee = s.referee := rfl
@[simp] theorem State.setFlag_recorder (s : State) (r : RegName) (i j b : Nat) (x : Bool) : (s.setFlag r i j b x).recorder = s.recorder := rfl
@[simp] theorem State.setFlag_flash (s : State) (r : RegName) (i j b : Nat) (x : Bool) : (s.setFlag r i j b x).flash = s.flash := rfl
@[simp] theorem State.setFlag_pins (s : State) (r : RegName) (i j b : Nat) (x : Bool) : (s.setFlag r i j b x).pins = s.pins := rfl
@[simp] theorem State.setFlag_power (s : State) (r : RegName) (i j b : Nat) (x : Bool) : (s.setFlag r i j b x).power = s.power := rfl
@[simp] theorem State.setFlag_jtag (s : State) (r : RegName) (i j b : Nat) (x : Bool) : (s.setFlag r i j b x).jtag = s.jtag := rfl
@[simp] theorem State.setFlag_barred (s : State) (r : RegName) (i j b : Nat) (x : Bool) : (s.setFlag r i j b x).barred = s.barred := rfl
@[simp] theorem State.setFlag_answer (s : State) (r : RegName) (i j b : Nat) (x : Bool) : (s.setFlag r i j b x).answer = s.answer := rfl
@[simp] theorem State.setFlag_fresh (s : State) (r : RegName) (i j b : Nat) (x : Bool) : (s.setFlag r i j b x).fresh = s.fresh := rfl

/-! setPhase -/

@[simp] theorem State.setPhase_pending (s : State) (p x : Nat) : (s.setPhase p x).pending = s.pending := rfl
@[simp] theorem State.setPhase_latched (s : State) (p x : Nat) : (s.setPhase p x).latched = s.latched := rfl
@[simp] theorem State.setPhase_shadowLatched (s : State) (p x : Nat) : (s.setPhase p x).shadowLatched = s.shadowLatched := rfl
@[simp] theorem State.setPhase_mem (s : State) (p x : Nat) : (s.setPhase p x).mem = s.mem := rfl
@[simp] theorem State.setPhase_general (s : State) (p x : Nat) : (s.setPhase p x).general = s.general := rfl
@[simp] theorem State.setPhase_hsc (s : State) (p x : Nat) : (s.setPhase p x).hsc = s.hsc := rfl
@[simp] theorem State.setPhase_hartBlocks (s : State) (p x : Nat) : (s.setPhase p x).hartBlocks = s.hartBlocks := rfl
@[simp] theorem State.setPhase_poison (s : State) (p x : Nat) : (s.setPhase p x).poison = s.poison := rfl
@[simp] theorem State.setPhase_overflows (s : State) (p x : Nat) : (s.setPhase p x).overflows = s.overflows := rfl
@[simp] theorem State.setPhase_tailMem (s : State) (p x : Nat) : (s.setPhase p x).tailMem = s.tailMem := rfl
@[simp] theorem State.setPhase_fills (s : State) (p x : Nat) : (s.setPhase p x).fills = s.fills := rfl
@[simp] theorem State.setPhase_filledRegions (s : State) (p x : Nat) : (s.setPhase p x).filledRegions = s.filledRegions := rfl
@[simp] theorem State.setPhase_rows (s : State) (p x : Nat) : (s.setPhase p x).rows = s.rows := rfl
@[simp] theorem State.setPhase_generations (s : State) (p x : Nat) : (s.setPhase p x).generations = s.generations := rfl
@[simp] theorem State.setPhase_parts (s : State) (p x : Nat) : (s.setPhase p x).parts = s.parts := rfl
@[simp] theorem State.setPhase_rings (s : State) (p x : Nat) : (s.setPhase p x).rings = s.rings := rfl
@[simp] theorem State.setPhase_dies (s : State) (p x : Nat) : (s.setPhase p x).dies = s.dies := rfl
@[simp] theorem State.setPhase_squares (s : State) (p x : Nat) : (s.setPhase p x).squares = s.squares := rfl
@[simp] theorem State.setPhase_hosts (s : State) (p x : Nat) : (s.setPhase p x).hosts = s.hosts := rfl
@[simp] theorem State.setPhase_quads (s : State) (p x : Nat) : (s.setPhase p x).quads = s.quads := rfl
@[simp] theorem State.setPhase_poolLines (s : State) (p x : Nat) : (s.setPhase p x).poolLines = s.poolLines := rfl
@[simp] theorem State.setPhase_exchanges (s : State) (p x : Nat) : (s.setPhase p x).exchanges = s.exchanges := rfl
@[simp] theorem State.setPhase_e2eMisses (s : State) (p x : Nat) : (s.setPhase p x).e2eMisses = s.e2eMisses := rfl
@[simp] theorem State.setPhase_fencedModules (s : State) (p x : Nat) : (s.setPhase p x).fencedModules = s.fencedModules := rfl
@[simp] theorem State.setPhase_clock (s : State) (p x : Nat) : (s.setPhase p x).clock = s.clock := rfl
@[simp] theorem State.setPhase_referee (s : State) (p x : Nat) : (s.setPhase p x).referee = s.referee := rfl
@[simp] theorem State.setPhase_recorder (s : State) (p x : Nat) : (s.setPhase p x).recorder = s.recorder := rfl
@[simp] theorem State.setPhase_flash (s : State) (p x : Nat) : (s.setPhase p x).flash = s.flash := rfl
@[simp] theorem State.setPhase_pins (s : State) (p x : Nat) : (s.setPhase p x).pins = s.pins := rfl
@[simp] theorem State.setPhase_power (s : State) (p x : Nat) : (s.setPhase p x).power = s.power := rfl
@[simp] theorem State.setPhase_jtag (s : State) (p x : Nat) : (s.setPhase p x).jtag = s.jtag := rfl
@[simp] theorem State.setPhase_barred (s : State) (p x : Nat) : (s.setPhase p x).barred = s.barred := rfl
@[simp] theorem State.setPhase_answer (s : State) (p x : Nat) : (s.setPhase p x).answer = s.answer := rfl
@[simp] theorem State.setPhase_fresh (s : State) (p x : Nat) : (s.setPhase p x).fresh = s.fresh := rfl

/-! setPart -/

@[simp] theorem State.setPart_pending (s : State) (p : Nat) (v : Part) : (s.setPart p v).pending = s.pending := rfl
@[simp] theorem State.setPart_regs (s : State) (p : Nat) (v : Part) : (s.setPart p v).regs = s.regs := rfl
@[simp] theorem State.setPart_latched (s : State) (p : Nat) (v : Part) : (s.setPart p v).latched = s.latched := rfl
@[simp] theorem State.setPart_shadow (s : State) (p : Nat) (v : Part) : (s.setPart p v).shadow = s.shadow := rfl
@[simp] theorem State.setPart_shadowLatched (s : State) (p : Nat) (v : Part) : (s.setPart p v).shadowLatched = s.shadowLatched := rfl
@[simp] theorem State.setPart_mem (s : State) (p : Nat) (v : Part) : (s.setPart p v).mem = s.mem := rfl
@[simp] theorem State.setPart_general (s : State) (p : Nat) (v : Part) : (s.setPart p v).general = s.general := rfl
@[simp] theorem State.setPart_hsc (s : State) (p : Nat) (v : Part) : (s.setPart p v).hsc = s.hsc := rfl
@[simp] theorem State.setPart_hartBlocks (s : State) (p : Nat) (v : Part) : (s.setPart p v).hartBlocks = s.hartBlocks := rfl
@[simp] theorem State.setPart_poison (s : State) (p : Nat) (v : Part) : (s.setPart p v).poison = s.poison := rfl
@[simp] theorem State.setPart_overflows (s : State) (p : Nat) (v : Part) : (s.setPart p v).overflows = s.overflows := rfl
@[simp] theorem State.setPart_tailMem (s : State) (p : Nat) (v : Part) : (s.setPart p v).tailMem = s.tailMem := rfl
@[simp] theorem State.setPart_fills (s : State) (p : Nat) (v : Part) : (s.setPart p v).fills = s.fills := rfl
@[simp] theorem State.setPart_filledRegions (s : State) (p : Nat) (v : Part) : (s.setPart p v).filledRegions = s.filledRegions := rfl
@[simp] theorem State.setPart_rows (s : State) (p : Nat) (v : Part) : (s.setPart p v).rows = s.rows := rfl
@[simp] theorem State.setPart_generations (s : State) (p : Nat) (v : Part) : (s.setPart p v).generations = s.generations := rfl
@[simp] theorem State.setPart_rings (s : State) (p : Nat) (v : Part) : (s.setPart p v).rings = s.rings := rfl
@[simp] theorem State.setPart_dies (s : State) (p : Nat) (v : Part) : (s.setPart p v).dies = s.dies := rfl
@[simp] theorem State.setPart_squares (s : State) (p : Nat) (v : Part) : (s.setPart p v).squares = s.squares := rfl
@[simp] theorem State.setPart_hosts (s : State) (p : Nat) (v : Part) : (s.setPart p v).hosts = s.hosts := rfl
@[simp] theorem State.setPart_quads (s : State) (p : Nat) (v : Part) : (s.setPart p v).quads = s.quads := rfl
@[simp] theorem State.setPart_poolLines (s : State) (p : Nat) (v : Part) : (s.setPart p v).poolLines = s.poolLines := rfl
@[simp] theorem State.setPart_exchanges (s : State) (p : Nat) (v : Part) : (s.setPart p v).exchanges = s.exchanges := rfl
@[simp] theorem State.setPart_e2eMisses (s : State) (p : Nat) (v : Part) : (s.setPart p v).e2eMisses = s.e2eMisses := rfl
@[simp] theorem State.setPart_fencedModules (s : State) (p : Nat) (v : Part) : (s.setPart p v).fencedModules = s.fencedModules := rfl
@[simp] theorem State.setPart_clock (s : State) (p : Nat) (v : Part) : (s.setPart p v).clock = s.clock := rfl
@[simp] theorem State.setPart_referee (s : State) (p : Nat) (v : Part) : (s.setPart p v).referee = s.referee := rfl
@[simp] theorem State.setPart_recorder (s : State) (p : Nat) (v : Part) : (s.setPart p v).recorder = s.recorder := rfl
@[simp] theorem State.setPart_flash (s : State) (p : Nat) (v : Part) : (s.setPart p v).flash = s.flash := rfl
@[simp] theorem State.setPart_pins (s : State) (p : Nat) (v : Part) : (s.setPart p v).pins = s.pins := rfl
@[simp] theorem State.setPart_power (s : State) (p : Nat) (v : Part) : (s.setPart p v).power = s.power := rfl
@[simp] theorem State.setPart_jtag (s : State) (p : Nat) (v : Part) : (s.setPart p v).jtag = s.jtag := rfl
@[simp] theorem State.setPart_barred (s : State) (p : Nat) (v : Part) : (s.setPart p v).barred = s.barred := rfl
@[simp] theorem State.setPart_answer (s : State) (p : Nat) (v : Part) : (s.setPart p v).answer = s.answer := rfl
@[simp] theorem State.setPart_fresh (s : State) (p : Nat) (v : Part) : (s.setPart p v).fresh = s.fresh := rfl

/-! modPart -/

@[simp] theorem State.modPart_pending (s : State) (p : Nat) (f : Part → Part) : (s.modPart p f).pending = s.pending := rfl
@[simp] theorem State.modPart_regs (s : State) (p : Nat) (f : Part → Part) : (s.modPart p f).regs = s.regs := rfl
@[simp] theorem State.modPart_latched (s : State) (p : Nat) (f : Part → Part) : (s.modPart p f).latched = s.latched := rfl
@[simp] theorem State.modPart_shadow (s : State) (p : Nat) (f : Part → Part) : (s.modPart p f).shadow = s.shadow := rfl
@[simp] theorem State.modPart_shadowLatched (s : State) (p : Nat) (f : Part → Part) : (s.modPart p f).shadowLatched = s.shadowLatched := rfl
@[simp] theorem State.modPart_mem (s : State) (p : Nat) (f : Part → Part) : (s.modPart p f).mem = s.mem := rfl
@[simp] theorem State.modPart_general (s : State) (p : Nat) (f : Part → Part) : (s.modPart p f).general = s.general := rfl
@[simp] theorem State.modPart_hsc (s : State) (p : Nat) (f : Part → Part) : (s.modPart p f).hsc = s.hsc := rfl
@[simp] theorem State.modPart_hartBlocks (s : State) (p : Nat) (f : Part → Part) : (s.modPart p f).hartBlocks = s.hartBlocks := rfl
@[simp] theorem State.modPart_poison (s : State) (p : Nat) (f : Part → Part) : (s.modPart p f).poison = s.poison := rfl
@[simp] theorem State.modPart_overflows (s : State) (p : Nat) (f : Part → Part) : (s.modPart p f).overflows = s.overflows := rfl
@[simp] theorem State.modPart_tailMem (s : State) (p : Nat) (f : Part → Part) : (s.modPart p f).tailMem = s.tailMem := rfl
@[simp] theorem State.modPart_fills (s : State) (p : Nat) (f : Part → Part) : (s.modPart p f).fills = s.fills := rfl
@[simp] theorem State.modPart_filledRegions (s : State) (p : Nat) (f : Part → Part) : (s.modPart p f).filledRegions = s.filledRegions := rfl
@[simp] theorem State.modPart_rows (s : State) (p : Nat) (f : Part → Part) : (s.modPart p f).rows = s.rows := rfl
@[simp] theorem State.modPart_generations (s : State) (p : Nat) (f : Part → Part) : (s.modPart p f).generations = s.generations := rfl
@[simp] theorem State.modPart_rings (s : State) (p : Nat) (f : Part → Part) : (s.modPart p f).rings = s.rings := rfl
@[simp] theorem State.modPart_dies (s : State) (p : Nat) (f : Part → Part) : (s.modPart p f).dies = s.dies := rfl
@[simp] theorem State.modPart_squares (s : State) (p : Nat) (f : Part → Part) : (s.modPart p f).squares = s.squares := rfl
@[simp] theorem State.modPart_hosts (s : State) (p : Nat) (f : Part → Part) : (s.modPart p f).hosts = s.hosts := rfl
@[simp] theorem State.modPart_quads (s : State) (p : Nat) (f : Part → Part) : (s.modPart p f).quads = s.quads := rfl
@[simp] theorem State.modPart_poolLines (s : State) (p : Nat) (f : Part → Part) : (s.modPart p f).poolLines = s.poolLines := rfl
@[simp] theorem State.modPart_exchanges (s : State) (p : Nat) (f : Part → Part) : (s.modPart p f).exchanges = s.exchanges := rfl
@[simp] theorem State.modPart_e2eMisses (s : State) (p : Nat) (f : Part → Part) : (s.modPart p f).e2eMisses = s.e2eMisses := rfl
@[simp] theorem State.modPart_fencedModules (s : State) (p : Nat) (f : Part → Part) : (s.modPart p f).fencedModules = s.fencedModules := rfl
@[simp] theorem State.modPart_clock (s : State) (p : Nat) (f : Part → Part) : (s.modPart p f).clock = s.clock := rfl
@[simp] theorem State.modPart_referee (s : State) (p : Nat) (f : Part → Part) : (s.modPart p f).referee = s.referee := rfl
@[simp] theorem State.modPart_recorder (s : State) (p : Nat) (f : Part → Part) : (s.modPart p f).recorder = s.recorder := rfl
@[simp] theorem State.modPart_flash (s : State) (p : Nat) (f : Part → Part) : (s.modPart p f).flash = s.flash := rfl
@[simp] theorem State.modPart_pins (s : State) (p : Nat) (f : Part → Part) : (s.modPart p f).pins = s.pins := rfl
@[simp] theorem State.modPart_power (s : State) (p : Nat) (f : Part → Part) : (s.modPart p f).power = s.power := rfl
@[simp] theorem State.modPart_jtag (s : State) (p : Nat) (f : Part → Part) : (s.modPart p f).jtag = s.jtag := rfl
@[simp] theorem State.modPart_barred (s : State) (p : Nat) (f : Part → Part) : (s.modPart p f).barred = s.barred := rfl
@[simp] theorem State.modPart_answer (s : State) (p : Nat) (f : Part → Part) : (s.modPart p f).answer = s.answer := rfl
@[simp] theorem State.modPart_fresh (s : State) (p : Nat) (f : Part → Part) : (s.modPart p f).fresh = s.fresh := rfl

/-! setDie -/

@[simp] theorem State.setDie_pending (s : State) (i : Nat) (v : Die) : (s.setDie i v).pending = s.pending := rfl
@[simp] theorem State.setDie_regs (s : State) (i : Nat) (v : Die) : (s.setDie i v).regs = s.regs := rfl
@[simp] theorem State.setDie_latched (s : State) (i : Nat) (v : Die) : (s.setDie i v).latched = s.latched := rfl
@[simp] theorem State.setDie_shadow (s : State) (i : Nat) (v : Die) : (s.setDie i v).shadow = s.shadow := rfl
@[simp] theorem State.setDie_shadowLatched (s : State) (i : Nat) (v : Die) : (s.setDie i v).shadowLatched = s.shadowLatched := rfl
@[simp] theorem State.setDie_mem (s : State) (i : Nat) (v : Die) : (s.setDie i v).mem = s.mem := rfl
@[simp] theorem State.setDie_general (s : State) (i : Nat) (v : Die) : (s.setDie i v).general = s.general := rfl
@[simp] theorem State.setDie_hsc (s : State) (i : Nat) (v : Die) : (s.setDie i v).hsc = s.hsc := rfl
@[simp] theorem State.setDie_hartBlocks (s : State) (i : Nat) (v : Die) : (s.setDie i v).hartBlocks = s.hartBlocks := rfl
@[simp] theorem State.setDie_poison (s : State) (i : Nat) (v : Die) : (s.setDie i v).poison = s.poison := rfl
@[simp] theorem State.setDie_overflows (s : State) (i : Nat) (v : Die) : (s.setDie i v).overflows = s.overflows := rfl
@[simp] theorem State.setDie_tailMem (s : State) (i : Nat) (v : Die) : (s.setDie i v).tailMem = s.tailMem := rfl
@[simp] theorem State.setDie_fills (s : State) (i : Nat) (v : Die) : (s.setDie i v).fills = s.fills := rfl
@[simp] theorem State.setDie_filledRegions (s : State) (i : Nat) (v : Die) : (s.setDie i v).filledRegions = s.filledRegions := rfl
@[simp] theorem State.setDie_rows (s : State) (i : Nat) (v : Die) : (s.setDie i v).rows = s.rows := rfl
@[simp] theorem State.setDie_generations (s : State) (i : Nat) (v : Die) : (s.setDie i v).generations = s.generations := rfl
@[simp] theorem State.setDie_parts (s : State) (i : Nat) (v : Die) : (s.setDie i v).parts = s.parts := rfl
@[simp] theorem State.setDie_rings (s : State) (i : Nat) (v : Die) : (s.setDie i v).rings = s.rings := rfl
@[simp] theorem State.setDie_squares (s : State) (i : Nat) (v : Die) : (s.setDie i v).squares = s.squares := rfl
@[simp] theorem State.setDie_hosts (s : State) (i : Nat) (v : Die) : (s.setDie i v).hosts = s.hosts := rfl
@[simp] theorem State.setDie_quads (s : State) (i : Nat) (v : Die) : (s.setDie i v).quads = s.quads := rfl
@[simp] theorem State.setDie_poolLines (s : State) (i : Nat) (v : Die) : (s.setDie i v).poolLines = s.poolLines := rfl
@[simp] theorem State.setDie_exchanges (s : State) (i : Nat) (v : Die) : (s.setDie i v).exchanges = s.exchanges := rfl
@[simp] theorem State.setDie_e2eMisses (s : State) (i : Nat) (v : Die) : (s.setDie i v).e2eMisses = s.e2eMisses := rfl
@[simp] theorem State.setDie_fencedModules (s : State) (i : Nat) (v : Die) : (s.setDie i v).fencedModules = s.fencedModules := rfl
@[simp] theorem State.setDie_clock (s : State) (i : Nat) (v : Die) : (s.setDie i v).clock = s.clock := rfl
@[simp] theorem State.setDie_referee (s : State) (i : Nat) (v : Die) : (s.setDie i v).referee = s.referee := rfl
@[simp] theorem State.setDie_recorder (s : State) (i : Nat) (v : Die) : (s.setDie i v).recorder = s.recorder := rfl
@[simp] theorem State.setDie_flash (s : State) (i : Nat) (v : Die) : (s.setDie i v).flash = s.flash := rfl
@[simp] theorem State.setDie_pins (s : State) (i : Nat) (v : Die) : (s.setDie i v).pins = s.pins := rfl
@[simp] theorem State.setDie_power (s : State) (i : Nat) (v : Die) : (s.setDie i v).power = s.power := rfl
@[simp] theorem State.setDie_jtag (s : State) (i : Nat) (v : Die) : (s.setDie i v).jtag = s.jtag := rfl
@[simp] theorem State.setDie_barred (s : State) (i : Nat) (v : Die) : (s.setDie i v).barred = s.barred := rfl
@[simp] theorem State.setDie_answer (s : State) (i : Nat) (v : Die) : (s.setDie i v).answer = s.answer := rfl
@[simp] theorem State.setDie_fresh (s : State) (i : Nat) (v : Die) : (s.setDie i v).fresh = s.fresh := rfl

/-! modDie -/

@[simp] theorem State.modDie_pending (s : State) (i : Nat) (f : Die → Die) : (s.modDie i f).pending = s.pending := rfl
@[simp] theorem State.modDie_regs (s : State) (i : Nat) (f : Die → Die) : (s.modDie i f).regs = s.regs := rfl
@[simp] theorem State.modDie_latched (s : State) (i : Nat) (f : Die → Die) : (s.modDie i f).latched = s.latched := rfl
@[simp] theorem State.modDie_shadow (s : State) (i : Nat) (f : Die → Die) : (s.modDie i f).shadow = s.shadow := rfl
@[simp] theorem State.modDie_shadowLatched (s : State) (i : Nat) (f : Die → Die) : (s.modDie i f).shadowLatched = s.shadowLatched := rfl
@[simp] theorem State.modDie_mem (s : State) (i : Nat) (f : Die → Die) : (s.modDie i f).mem = s.mem := rfl
@[simp] theorem State.modDie_general (s : State) (i : Nat) (f : Die → Die) : (s.modDie i f).general = s.general := rfl
@[simp] theorem State.modDie_hsc (s : State) (i : Nat) (f : Die → Die) : (s.modDie i f).hsc = s.hsc := rfl
@[simp] theorem State.modDie_hartBlocks (s : State) (i : Nat) (f : Die → Die) : (s.modDie i f).hartBlocks = s.hartBlocks := rfl
@[simp] theorem State.modDie_poison (s : State) (i : Nat) (f : Die → Die) : (s.modDie i f).poison = s.poison := rfl
@[simp] theorem State.modDie_overflows (s : State) (i : Nat) (f : Die → Die) : (s.modDie i f).overflows = s.overflows := rfl
@[simp] theorem State.modDie_tailMem (s : State) (i : Nat) (f : Die → Die) : (s.modDie i f).tailMem = s.tailMem := rfl
@[simp] theorem State.modDie_fills (s : State) (i : Nat) (f : Die → Die) : (s.modDie i f).fills = s.fills := rfl
@[simp] theorem State.modDie_filledRegions (s : State) (i : Nat) (f : Die → Die) : (s.modDie i f).filledRegions = s.filledRegions := rfl
@[simp] theorem State.modDie_rows (s : State) (i : Nat) (f : Die → Die) : (s.modDie i f).rows = s.rows := rfl
@[simp] theorem State.modDie_generations (s : State) (i : Nat) (f : Die → Die) : (s.modDie i f).generations = s.generations := rfl
@[simp] theorem State.modDie_parts (s : State) (i : Nat) (f : Die → Die) : (s.modDie i f).parts = s.parts := rfl
@[simp] theorem State.modDie_rings (s : State) (i : Nat) (f : Die → Die) : (s.modDie i f).rings = s.rings := rfl
@[simp] theorem State.modDie_squares (s : State) (i : Nat) (f : Die → Die) : (s.modDie i f).squares = s.squares := rfl
@[simp] theorem State.modDie_hosts (s : State) (i : Nat) (f : Die → Die) : (s.modDie i f).hosts = s.hosts := rfl
@[simp] theorem State.modDie_quads (s : State) (i : Nat) (f : Die → Die) : (s.modDie i f).quads = s.quads := rfl
@[simp] theorem State.modDie_poolLines (s : State) (i : Nat) (f : Die → Die) : (s.modDie i f).poolLines = s.poolLines := rfl
@[simp] theorem State.modDie_exchanges (s : State) (i : Nat) (f : Die → Die) : (s.modDie i f).exchanges = s.exchanges := rfl
@[simp] theorem State.modDie_e2eMisses (s : State) (i : Nat) (f : Die → Die) : (s.modDie i f).e2eMisses = s.e2eMisses := rfl
@[simp] theorem State.modDie_fencedModules (s : State) (i : Nat) (f : Die → Die) : (s.modDie i f).fencedModules = s.fencedModules := rfl
@[simp] theorem State.modDie_clock (s : State) (i : Nat) (f : Die → Die) : (s.modDie i f).clock = s.clock := rfl
@[simp] theorem State.modDie_referee (s : State) (i : Nat) (f : Die → Die) : (s.modDie i f).referee = s.referee := rfl
@[simp] theorem State.modDie_recorder (s : State) (i : Nat) (f : Die → Die) : (s.modDie i f).recorder = s.recorder := rfl
@[simp] theorem State.modDie_flash (s : State) (i : Nat) (f : Die → Die) : (s.modDie i f).flash = s.flash := rfl
@[simp] theorem State.modDie_pins (s : State) (i : Nat) (f : Die → Die) : (s.modDie i f).pins = s.pins := rfl
@[simp] theorem State.modDie_power (s : State) (i : Nat) (f : Die → Die) : (s.modDie i f).power = s.power := rfl
@[simp] theorem State.modDie_jtag (s : State) (i : Nat) (f : Die → Die) : (s.modDie i f).jtag = s.jtag := rfl
@[simp] theorem State.modDie_barred (s : State) (i : Nat) (f : Die → Die) : (s.modDie i f).barred = s.barred := rfl
@[simp] theorem State.modDie_answer (s : State) (i : Nat) (f : Die → Die) : (s.modDie i f).answer = s.answer := rfl
@[simp] theorem State.modDie_fresh (s : State) (i : Nat) (f : Die → Die) : (s.modDie i f).fresh = s.fresh := rfl

/-! setSquare -/

@[simp] theorem State.setSquare_pending (s : State) (q : Nat) (v : Square) : (s.setSquare q v).pending = s.pending := rfl
@[simp] theorem State.setSquare_regs (s : State) (q : Nat) (v : Square) : (s.setSquare q v).regs = s.regs := rfl
@[simp] theorem State.setSquare_latched (s : State) (q : Nat) (v : Square) : (s.setSquare q v).latched = s.latched := rfl
@[simp] theorem State.setSquare_shadow (s : State) (q : Nat) (v : Square) : (s.setSquare q v).shadow = s.shadow := rfl
@[simp] theorem State.setSquare_shadowLatched (s : State) (q : Nat) (v : Square) : (s.setSquare q v).shadowLatched = s.shadowLatched := rfl
@[simp] theorem State.setSquare_mem (s : State) (q : Nat) (v : Square) : (s.setSquare q v).mem = s.mem := rfl
@[simp] theorem State.setSquare_general (s : State) (q : Nat) (v : Square) : (s.setSquare q v).general = s.general := rfl
@[simp] theorem State.setSquare_hsc (s : State) (q : Nat) (v : Square) : (s.setSquare q v).hsc = s.hsc := rfl
@[simp] theorem State.setSquare_hartBlocks (s : State) (q : Nat) (v : Square) : (s.setSquare q v).hartBlocks = s.hartBlocks := rfl
@[simp] theorem State.setSquare_poison (s : State) (q : Nat) (v : Square) : (s.setSquare q v).poison = s.poison := rfl
@[simp] theorem State.setSquare_overflows (s : State) (q : Nat) (v : Square) : (s.setSquare q v).overflows = s.overflows := rfl
@[simp] theorem State.setSquare_tailMem (s : State) (q : Nat) (v : Square) : (s.setSquare q v).tailMem = s.tailMem := rfl
@[simp] theorem State.setSquare_fills (s : State) (q : Nat) (v : Square) : (s.setSquare q v).fills = s.fills := rfl
@[simp] theorem State.setSquare_filledRegions (s : State) (q : Nat) (v : Square) : (s.setSquare q v).filledRegions = s.filledRegions := rfl
@[simp] theorem State.setSquare_rows (s : State) (q : Nat) (v : Square) : (s.setSquare q v).rows = s.rows := rfl
@[simp] theorem State.setSquare_generations (s : State) (q : Nat) (v : Square) : (s.setSquare q v).generations = s.generations := rfl
@[simp] theorem State.setSquare_parts (s : State) (q : Nat) (v : Square) : (s.setSquare q v).parts = s.parts := rfl
@[simp] theorem State.setSquare_rings (s : State) (q : Nat) (v : Square) : (s.setSquare q v).rings = s.rings := rfl
@[simp] theorem State.setSquare_dies (s : State) (q : Nat) (v : Square) : (s.setSquare q v).dies = s.dies := rfl
@[simp] theorem State.setSquare_hosts (s : State) (q : Nat) (v : Square) : (s.setSquare q v).hosts = s.hosts := rfl
@[simp] theorem State.setSquare_quads (s : State) (q : Nat) (v : Square) : (s.setSquare q v).quads = s.quads := rfl
@[simp] theorem State.setSquare_poolLines (s : State) (q : Nat) (v : Square) : (s.setSquare q v).poolLines = s.poolLines := rfl
@[simp] theorem State.setSquare_exchanges (s : State) (q : Nat) (v : Square) : (s.setSquare q v).exchanges = s.exchanges := rfl
@[simp] theorem State.setSquare_e2eMisses (s : State) (q : Nat) (v : Square) : (s.setSquare q v).e2eMisses = s.e2eMisses := rfl
@[simp] theorem State.setSquare_fencedModules (s : State) (q : Nat) (v : Square) : (s.setSquare q v).fencedModules = s.fencedModules := rfl
@[simp] theorem State.setSquare_clock (s : State) (q : Nat) (v : Square) : (s.setSquare q v).clock = s.clock := rfl
@[simp] theorem State.setSquare_referee (s : State) (q : Nat) (v : Square) : (s.setSquare q v).referee = s.referee := rfl
@[simp] theorem State.setSquare_recorder (s : State) (q : Nat) (v : Square) : (s.setSquare q v).recorder = s.recorder := rfl
@[simp] theorem State.setSquare_flash (s : State) (q : Nat) (v : Square) : (s.setSquare q v).flash = s.flash := rfl
@[simp] theorem State.setSquare_pins (s : State) (q : Nat) (v : Square) : (s.setSquare q v).pins = s.pins := rfl
@[simp] theorem State.setSquare_power (s : State) (q : Nat) (v : Square) : (s.setSquare q v).power = s.power := rfl
@[simp] theorem State.setSquare_jtag (s : State) (q : Nat) (v : Square) : (s.setSquare q v).jtag = s.jtag := rfl
@[simp] theorem State.setSquare_barred (s : State) (q : Nat) (v : Square) : (s.setSquare q v).barred = s.barred := rfl
@[simp] theorem State.setSquare_answer (s : State) (q : Nat) (v : Square) : (s.setSquare q v).answer = s.answer := rfl
@[simp] theorem State.setSquare_fresh (s : State) (q : Nat) (v : Square) : (s.setSquare q v).fresh = s.fresh := rfl

/-! modSquare -/

@[simp] theorem State.modSquare_pending (s : State) (q : Nat) (f : Square → Square) : (s.modSquare q f).pending = s.pending := rfl
@[simp] theorem State.modSquare_regs (s : State) (q : Nat) (f : Square → Square) : (s.modSquare q f).regs = s.regs := rfl
@[simp] theorem State.modSquare_latched (s : State) (q : Nat) (f : Square → Square) : (s.modSquare q f).latched = s.latched := rfl
@[simp] theorem State.modSquare_shadow (s : State) (q : Nat) (f : Square → Square) : (s.modSquare q f).shadow = s.shadow := rfl
@[simp] theorem State.modSquare_shadowLatched (s : State) (q : Nat) (f : Square → Square) : (s.modSquare q f).shadowLatched = s.shadowLatched := rfl
@[simp] theorem State.modSquare_mem (s : State) (q : Nat) (f : Square → Square) : (s.modSquare q f).mem = s.mem := rfl
@[simp] theorem State.modSquare_general (s : State) (q : Nat) (f : Square → Square) : (s.modSquare q f).general = s.general := rfl
@[simp] theorem State.modSquare_hsc (s : State) (q : Nat) (f : Square → Square) : (s.modSquare q f).hsc = s.hsc := rfl
@[simp] theorem State.modSquare_hartBlocks (s : State) (q : Nat) (f : Square → Square) : (s.modSquare q f).hartBlocks = s.hartBlocks := rfl
@[simp] theorem State.modSquare_poison (s : State) (q : Nat) (f : Square → Square) : (s.modSquare q f).poison = s.poison := rfl
@[simp] theorem State.modSquare_overflows (s : State) (q : Nat) (f : Square → Square) : (s.modSquare q f).overflows = s.overflows := rfl
@[simp] theorem State.modSquare_tailMem (s : State) (q : Nat) (f : Square → Square) : (s.modSquare q f).tailMem = s.tailMem := rfl
@[simp] theorem State.modSquare_fills (s : State) (q : Nat) (f : Square → Square) : (s.modSquare q f).fills = s.fills := rfl
@[simp] theorem State.modSquare_filledRegions (s : State) (q : Nat) (f : Square → Square) : (s.modSquare q f).filledRegions = s.filledRegions := rfl
@[simp] theorem State.modSquare_rows (s : State) (q : Nat) (f : Square → Square) : (s.modSquare q f).rows = s.rows := rfl
@[simp] theorem State.modSquare_generations (s : State) (q : Nat) (f : Square → Square) : (s.modSquare q f).generations = s.generations := rfl
@[simp] theorem State.modSquare_parts (s : State) (q : Nat) (f : Square → Square) : (s.modSquare q f).parts = s.parts := rfl
@[simp] theorem State.modSquare_rings (s : State) (q : Nat) (f : Square → Square) : (s.modSquare q f).rings = s.rings := rfl
@[simp] theorem State.modSquare_dies (s : State) (q : Nat) (f : Square → Square) : (s.modSquare q f).dies = s.dies := rfl
@[simp] theorem State.modSquare_hosts (s : State) (q : Nat) (f : Square → Square) : (s.modSquare q f).hosts = s.hosts := rfl
@[simp] theorem State.modSquare_quads (s : State) (q : Nat) (f : Square → Square) : (s.modSquare q f).quads = s.quads := rfl
@[simp] theorem State.modSquare_poolLines (s : State) (q : Nat) (f : Square → Square) : (s.modSquare q f).poolLines = s.poolLines := rfl
@[simp] theorem State.modSquare_exchanges (s : State) (q : Nat) (f : Square → Square) : (s.modSquare q f).exchanges = s.exchanges := rfl
@[simp] theorem State.modSquare_e2eMisses (s : State) (q : Nat) (f : Square → Square) : (s.modSquare q f).e2eMisses = s.e2eMisses := rfl
@[simp] theorem State.modSquare_fencedModules (s : State) (q : Nat) (f : Square → Square) : (s.modSquare q f).fencedModules = s.fencedModules := rfl
@[simp] theorem State.modSquare_clock (s : State) (q : Nat) (f : Square → Square) : (s.modSquare q f).clock = s.clock := rfl
@[simp] theorem State.modSquare_referee (s : State) (q : Nat) (f : Square → Square) : (s.modSquare q f).referee = s.referee := rfl
@[simp] theorem State.modSquare_recorder (s : State) (q : Nat) (f : Square → Square) : (s.modSquare q f).recorder = s.recorder := rfl
@[simp] theorem State.modSquare_flash (s : State) (q : Nat) (f : Square → Square) : (s.modSquare q f).flash = s.flash := rfl
@[simp] theorem State.modSquare_pins (s : State) (q : Nat) (f : Square → Square) : (s.modSquare q f).pins = s.pins := rfl
@[simp] theorem State.modSquare_power (s : State) (q : Nat) (f : Square → Square) : (s.modSquare q f).power = s.power := rfl
@[simp] theorem State.modSquare_jtag (s : State) (q : Nat) (f : Square → Square) : (s.modSquare q f).jtag = s.jtag := rfl
@[simp] theorem State.modSquare_barred (s : State) (q : Nat) (f : Square → Square) : (s.modSquare q f).barred = s.barred := rfl
@[simp] theorem State.modSquare_answer (s : State) (q : Nat) (f : Square → Square) : (s.modSquare q f).answer = s.answer := rfl
@[simp] theorem State.modSquare_fresh (s : State) (q : Nat) (f : Square → Square) : (s.modSquare q f).fresh = s.fresh := rfl

/-! setHost -/

@[simp] theorem State.setHost_pending (s : State) (h : Nat) (v : HostDie) : (s.setHost h v).pending = s.pending := rfl
@[simp] theorem State.setHost_regs (s : State) (h : Nat) (v : HostDie) : (s.setHost h v).regs = s.regs := rfl
@[simp] theorem State.setHost_latched (s : State) (h : Nat) (v : HostDie) : (s.setHost h v).latched = s.latched := rfl
@[simp] theorem State.setHost_shadow (s : State) (h : Nat) (v : HostDie) : (s.setHost h v).shadow = s.shadow := rfl
@[simp] theorem State.setHost_shadowLatched (s : State) (h : Nat) (v : HostDie) : (s.setHost h v).shadowLatched = s.shadowLatched := rfl
@[simp] theorem State.setHost_mem (s : State) (h : Nat) (v : HostDie) : (s.setHost h v).mem = s.mem := rfl
@[simp] theorem State.setHost_general (s : State) (h : Nat) (v : HostDie) : (s.setHost h v).general = s.general := rfl
@[simp] theorem State.setHost_hsc (s : State) (h : Nat) (v : HostDie) : (s.setHost h v).hsc = s.hsc := rfl
@[simp] theorem State.setHost_hartBlocks (s : State) (h : Nat) (v : HostDie) : (s.setHost h v).hartBlocks = s.hartBlocks := rfl
@[simp] theorem State.setHost_poison (s : State) (h : Nat) (v : HostDie) : (s.setHost h v).poison = s.poison := rfl
@[simp] theorem State.setHost_overflows (s : State) (h : Nat) (v : HostDie) : (s.setHost h v).overflows = s.overflows := rfl
@[simp] theorem State.setHost_tailMem (s : State) (h : Nat) (v : HostDie) : (s.setHost h v).tailMem = s.tailMem := rfl
@[simp] theorem State.setHost_fills (s : State) (h : Nat) (v : HostDie) : (s.setHost h v).fills = s.fills := rfl
@[simp] theorem State.setHost_filledRegions (s : State) (h : Nat) (v : HostDie) : (s.setHost h v).filledRegions = s.filledRegions := rfl
@[simp] theorem State.setHost_rows (s : State) (h : Nat) (v : HostDie) : (s.setHost h v).rows = s.rows := rfl
@[simp] theorem State.setHost_generations (s : State) (h : Nat) (v : HostDie) : (s.setHost h v).generations = s.generations := rfl
@[simp] theorem State.setHost_parts (s : State) (h : Nat) (v : HostDie) : (s.setHost h v).parts = s.parts := rfl
@[simp] theorem State.setHost_rings (s : State) (h : Nat) (v : HostDie) : (s.setHost h v).rings = s.rings := rfl
@[simp] theorem State.setHost_dies (s : State) (h : Nat) (v : HostDie) : (s.setHost h v).dies = s.dies := rfl
@[simp] theorem State.setHost_squares (s : State) (h : Nat) (v : HostDie) : (s.setHost h v).squares = s.squares := rfl
@[simp] theorem State.setHost_quads (s : State) (h : Nat) (v : HostDie) : (s.setHost h v).quads = s.quads := rfl
@[simp] theorem State.setHost_poolLines (s : State) (h : Nat) (v : HostDie) : (s.setHost h v).poolLines = s.poolLines := rfl
@[simp] theorem State.setHost_exchanges (s : State) (h : Nat) (v : HostDie) : (s.setHost h v).exchanges = s.exchanges := rfl
@[simp] theorem State.setHost_e2eMisses (s : State) (h : Nat) (v : HostDie) : (s.setHost h v).e2eMisses = s.e2eMisses := rfl
@[simp] theorem State.setHost_fencedModules (s : State) (h : Nat) (v : HostDie) : (s.setHost h v).fencedModules = s.fencedModules := rfl
@[simp] theorem State.setHost_clock (s : State) (h : Nat) (v : HostDie) : (s.setHost h v).clock = s.clock := rfl
@[simp] theorem State.setHost_referee (s : State) (h : Nat) (v : HostDie) : (s.setHost h v).referee = s.referee := rfl
@[simp] theorem State.setHost_recorder (s : State) (h : Nat) (v : HostDie) : (s.setHost h v).recorder = s.recorder := rfl
@[simp] theorem State.setHost_flash (s : State) (h : Nat) (v : HostDie) : (s.setHost h v).flash = s.flash := rfl
@[simp] theorem State.setHost_pins (s : State) (h : Nat) (v : HostDie) : (s.setHost h v).pins = s.pins := rfl
@[simp] theorem State.setHost_power (s : State) (h : Nat) (v : HostDie) : (s.setHost h v).power = s.power := rfl
@[simp] theorem State.setHost_jtag (s : State) (h : Nat) (v : HostDie) : (s.setHost h v).jtag = s.jtag := rfl
@[simp] theorem State.setHost_barred (s : State) (h : Nat) (v : HostDie) : (s.setHost h v).barred = s.barred := rfl
@[simp] theorem State.setHost_answer (s : State) (h : Nat) (v : HostDie) : (s.setHost h v).answer = s.answer := rfl
@[simp] theorem State.setHost_fresh (s : State) (h : Nat) (v : HostDie) : (s.setHost h v).fresh = s.fresh := rfl

/-! modHost -/

@[simp] theorem State.modHost_pending (s : State) (h : Nat) (f : HostDie → HostDie) : (s.modHost h f).pending = s.pending := rfl
@[simp] theorem State.modHost_regs (s : State) (h : Nat) (f : HostDie → HostDie) : (s.modHost h f).regs = s.regs := rfl
@[simp] theorem State.modHost_latched (s : State) (h : Nat) (f : HostDie → HostDie) : (s.modHost h f).latched = s.latched := rfl
@[simp] theorem State.modHost_shadow (s : State) (h : Nat) (f : HostDie → HostDie) : (s.modHost h f).shadow = s.shadow := rfl
@[simp] theorem State.modHost_shadowLatched (s : State) (h : Nat) (f : HostDie → HostDie) : (s.modHost h f).shadowLatched = s.shadowLatched := rfl
@[simp] theorem State.modHost_mem (s : State) (h : Nat) (f : HostDie → HostDie) : (s.modHost h f).mem = s.mem := rfl
@[simp] theorem State.modHost_general (s : State) (h : Nat) (f : HostDie → HostDie) : (s.modHost h f).general = s.general := rfl
@[simp] theorem State.modHost_hsc (s : State) (h : Nat) (f : HostDie → HostDie) : (s.modHost h f).hsc = s.hsc := rfl
@[simp] theorem State.modHost_hartBlocks (s : State) (h : Nat) (f : HostDie → HostDie) : (s.modHost h f).hartBlocks = s.hartBlocks := rfl
@[simp] theorem State.modHost_poison (s : State) (h : Nat) (f : HostDie → HostDie) : (s.modHost h f).poison = s.poison := rfl
@[simp] theorem State.modHost_overflows (s : State) (h : Nat) (f : HostDie → HostDie) : (s.modHost h f).overflows = s.overflows := rfl
@[simp] theorem State.modHost_tailMem (s : State) (h : Nat) (f : HostDie → HostDie) : (s.modHost h f).tailMem = s.tailMem := rfl
@[simp] theorem State.modHost_fills (s : State) (h : Nat) (f : HostDie → HostDie) : (s.modHost h f).fills = s.fills := rfl
@[simp] theorem State.modHost_filledRegions (s : State) (h : Nat) (f : HostDie → HostDie) : (s.modHost h f).filledRegions = s.filledRegions := rfl
@[simp] theorem State.modHost_rows (s : State) (h : Nat) (f : HostDie → HostDie) : (s.modHost h f).rows = s.rows := rfl
@[simp] theorem State.modHost_generations (s : State) (h : Nat) (f : HostDie → HostDie) : (s.modHost h f).generations = s.generations := rfl
@[simp] theorem State.modHost_parts (s : State) (h : Nat) (f : HostDie → HostDie) : (s.modHost h f).parts = s.parts := rfl
@[simp] theorem State.modHost_rings (s : State) (h : Nat) (f : HostDie → HostDie) : (s.modHost h f).rings = s.rings := rfl
@[simp] theorem State.modHost_dies (s : State) (h : Nat) (f : HostDie → HostDie) : (s.modHost h f).dies = s.dies := rfl
@[simp] theorem State.modHost_squares (s : State) (h : Nat) (f : HostDie → HostDie) : (s.modHost h f).squares = s.squares := rfl
@[simp] theorem State.modHost_quads (s : State) (h : Nat) (f : HostDie → HostDie) : (s.modHost h f).quads = s.quads := rfl
@[simp] theorem State.modHost_poolLines (s : State) (h : Nat) (f : HostDie → HostDie) : (s.modHost h f).poolLines = s.poolLines := rfl
@[simp] theorem State.modHost_exchanges (s : State) (h : Nat) (f : HostDie → HostDie) : (s.modHost h f).exchanges = s.exchanges := rfl
@[simp] theorem State.modHost_e2eMisses (s : State) (h : Nat) (f : HostDie → HostDie) : (s.modHost h f).e2eMisses = s.e2eMisses := rfl
@[simp] theorem State.modHost_fencedModules (s : State) (h : Nat) (f : HostDie → HostDie) : (s.modHost h f).fencedModules = s.fencedModules := rfl
@[simp] theorem State.modHost_clock (s : State) (h : Nat) (f : HostDie → HostDie) : (s.modHost h f).clock = s.clock := rfl
@[simp] theorem State.modHost_referee (s : State) (h : Nat) (f : HostDie → HostDie) : (s.modHost h f).referee = s.referee := rfl
@[simp] theorem State.modHost_recorder (s : State) (h : Nat) (f : HostDie → HostDie) : (s.modHost h f).recorder = s.recorder := rfl
@[simp] theorem State.modHost_flash (s : State) (h : Nat) (f : HostDie → HostDie) : (s.modHost h f).flash = s.flash := rfl
@[simp] theorem State.modHost_pins (s : State) (h : Nat) (f : HostDie → HostDie) : (s.modHost h f).pins = s.pins := rfl
@[simp] theorem State.modHost_power (s : State) (h : Nat) (f : HostDie → HostDie) : (s.modHost h f).power = s.power := rfl
@[simp] theorem State.modHost_jtag (s : State) (h : Nat) (f : HostDie → HostDie) : (s.modHost h f).jtag = s.jtag := rfl
@[simp] theorem State.modHost_barred (s : State) (h : Nat) (f : HostDie → HostDie) : (s.modHost h f).barred = s.barred := rfl
@[simp] theorem State.modHost_answer (s : State) (h : Nat) (f : HostDie → HostDie) : (s.modHost h f).answer = s.answer := rfl
@[simp] theorem State.modHost_fresh (s : State) (h : Nat) (f : HostDie → HostDie) : (s.modHost h f).fresh = s.fresh := rfl

/-! setQuad -/

@[simp] theorem State.setQuad_pending (s : State) (n : Nat) (v : Quad) : (s.setQuad n v).pending = s.pending := rfl
@[simp] theorem State.setQuad_regs (s : State) (n : Nat) (v : Quad) : (s.setQuad n v).regs = s.regs := rfl
@[simp] theorem State.setQuad_latched (s : State) (n : Nat) (v : Quad) : (s.setQuad n v).latched = s.latched := rfl
@[simp] theorem State.setQuad_shadow (s : State) (n : Nat) (v : Quad) : (s.setQuad n v).shadow = s.shadow := rfl
@[simp] theorem State.setQuad_shadowLatched (s : State) (n : Nat) (v : Quad) : (s.setQuad n v).shadowLatched = s.shadowLatched := rfl
@[simp] theorem State.setQuad_mem (s : State) (n : Nat) (v : Quad) : (s.setQuad n v).mem = s.mem := rfl
@[simp] theorem State.setQuad_general (s : State) (n : Nat) (v : Quad) : (s.setQuad n v).general = s.general := rfl
@[simp] theorem State.setQuad_hsc (s : State) (n : Nat) (v : Quad) : (s.setQuad n v).hsc = s.hsc := rfl
@[simp] theorem State.setQuad_hartBlocks (s : State) (n : Nat) (v : Quad) : (s.setQuad n v).hartBlocks = s.hartBlocks := rfl
@[simp] theorem State.setQuad_poison (s : State) (n : Nat) (v : Quad) : (s.setQuad n v).poison = s.poison := rfl
@[simp] theorem State.setQuad_overflows (s : State) (n : Nat) (v : Quad) : (s.setQuad n v).overflows = s.overflows := rfl
@[simp] theorem State.setQuad_tailMem (s : State) (n : Nat) (v : Quad) : (s.setQuad n v).tailMem = s.tailMem := rfl
@[simp] theorem State.setQuad_fills (s : State) (n : Nat) (v : Quad) : (s.setQuad n v).fills = s.fills := rfl
@[simp] theorem State.setQuad_filledRegions (s : State) (n : Nat) (v : Quad) : (s.setQuad n v).filledRegions = s.filledRegions := rfl
@[simp] theorem State.setQuad_rows (s : State) (n : Nat) (v : Quad) : (s.setQuad n v).rows = s.rows := rfl
@[simp] theorem State.setQuad_generations (s : State) (n : Nat) (v : Quad) : (s.setQuad n v).generations = s.generations := rfl
@[simp] theorem State.setQuad_parts (s : State) (n : Nat) (v : Quad) : (s.setQuad n v).parts = s.parts := rfl
@[simp] theorem State.setQuad_rings (s : State) (n : Nat) (v : Quad) : (s.setQuad n v).rings = s.rings := rfl
@[simp] theorem State.setQuad_dies (s : State) (n : Nat) (v : Quad) : (s.setQuad n v).dies = s.dies := rfl
@[simp] theorem State.setQuad_squares (s : State) (n : Nat) (v : Quad) : (s.setQuad n v).squares = s.squares := rfl
@[simp] theorem State.setQuad_hosts (s : State) (n : Nat) (v : Quad) : (s.setQuad n v).hosts = s.hosts := rfl
@[simp] theorem State.setQuad_poolLines (s : State) (n : Nat) (v : Quad) : (s.setQuad n v).poolLines = s.poolLines := rfl
@[simp] theorem State.setQuad_exchanges (s : State) (n : Nat) (v : Quad) : (s.setQuad n v).exchanges = s.exchanges := rfl
@[simp] theorem State.setQuad_e2eMisses (s : State) (n : Nat) (v : Quad) : (s.setQuad n v).e2eMisses = s.e2eMisses := rfl
@[simp] theorem State.setQuad_fencedModules (s : State) (n : Nat) (v : Quad) : (s.setQuad n v).fencedModules = s.fencedModules := rfl
@[simp] theorem State.setQuad_clock (s : State) (n : Nat) (v : Quad) : (s.setQuad n v).clock = s.clock := rfl
@[simp] theorem State.setQuad_referee (s : State) (n : Nat) (v : Quad) : (s.setQuad n v).referee = s.referee := rfl
@[simp] theorem State.setQuad_recorder (s : State) (n : Nat) (v : Quad) : (s.setQuad n v).recorder = s.recorder := rfl
@[simp] theorem State.setQuad_flash (s : State) (n : Nat) (v : Quad) : (s.setQuad n v).flash = s.flash := rfl
@[simp] theorem State.setQuad_pins (s : State) (n : Nat) (v : Quad) : (s.setQuad n v).pins = s.pins := rfl
@[simp] theorem State.setQuad_power (s : State) (n : Nat) (v : Quad) : (s.setQuad n v).power = s.power := rfl
@[simp] theorem State.setQuad_jtag (s : State) (n : Nat) (v : Quad) : (s.setQuad n v).jtag = s.jtag := rfl
@[simp] theorem State.setQuad_barred (s : State) (n : Nat) (v : Quad) : (s.setQuad n v).barred = s.barred := rfl
@[simp] theorem State.setQuad_answer (s : State) (n : Nat) (v : Quad) : (s.setQuad n v).answer = s.answer := rfl
@[simp] theorem State.setQuad_fresh (s : State) (n : Nat) (v : Quad) : (s.setQuad n v).fresh = s.fresh := rfl

/-! modQuad -/

@[simp] theorem State.modQuad_pending (s : State) (n : Nat) (f : Quad → Quad) : (s.modQuad n f).pending = s.pending := rfl
@[simp] theorem State.modQuad_regs (s : State) (n : Nat) (f : Quad → Quad) : (s.modQuad n f).regs = s.regs := rfl
@[simp] theorem State.modQuad_latched (s : State) (n : Nat) (f : Quad → Quad) : (s.modQuad n f).latched = s.latched := rfl
@[simp] theorem State.modQuad_shadow (s : State) (n : Nat) (f : Quad → Quad) : (s.modQuad n f).shadow = s.shadow := rfl
@[simp] theorem State.modQuad_shadowLatched (s : State) (n : Nat) (f : Quad → Quad) : (s.modQuad n f).shadowLatched = s.shadowLatched := rfl
@[simp] theorem State.modQuad_mem (s : State) (n : Nat) (f : Quad → Quad) : (s.modQuad n f).mem = s.mem := rfl
@[simp] theorem State.modQuad_general (s : State) (n : Nat) (f : Quad → Quad) : (s.modQuad n f).general = s.general := rfl
@[simp] theorem State.modQuad_hsc (s : State) (n : Nat) (f : Quad → Quad) : (s.modQuad n f).hsc = s.hsc := rfl
@[simp] theorem State.modQuad_hartBlocks (s : State) (n : Nat) (f : Quad → Quad) : (s.modQuad n f).hartBlocks = s.hartBlocks := rfl
@[simp] theorem State.modQuad_poison (s : State) (n : Nat) (f : Quad → Quad) : (s.modQuad n f).poison = s.poison := rfl
@[simp] theorem State.modQuad_overflows (s : State) (n : Nat) (f : Quad → Quad) : (s.modQuad n f).overflows = s.overflows := rfl
@[simp] theorem State.modQuad_tailMem (s : State) (n : Nat) (f : Quad → Quad) : (s.modQuad n f).tailMem = s.tailMem := rfl
@[simp] theorem State.modQuad_fills (s : State) (n : Nat) (f : Quad → Quad) : (s.modQuad n f).fills = s.fills := rfl
@[simp] theorem State.modQuad_filledRegions (s : State) (n : Nat) (f : Quad → Quad) : (s.modQuad n f).filledRegions = s.filledRegions := rfl
@[simp] theorem State.modQuad_rows (s : State) (n : Nat) (f : Quad → Quad) : (s.modQuad n f).rows = s.rows := rfl
@[simp] theorem State.modQuad_generations (s : State) (n : Nat) (f : Quad → Quad) : (s.modQuad n f).generations = s.generations := rfl
@[simp] theorem State.modQuad_parts (s : State) (n : Nat) (f : Quad → Quad) : (s.modQuad n f).parts = s.parts := rfl
@[simp] theorem State.modQuad_rings (s : State) (n : Nat) (f : Quad → Quad) : (s.modQuad n f).rings = s.rings := rfl
@[simp] theorem State.modQuad_dies (s : State) (n : Nat) (f : Quad → Quad) : (s.modQuad n f).dies = s.dies := rfl
@[simp] theorem State.modQuad_squares (s : State) (n : Nat) (f : Quad → Quad) : (s.modQuad n f).squares = s.squares := rfl
@[simp] theorem State.modQuad_hosts (s : State) (n : Nat) (f : Quad → Quad) : (s.modQuad n f).hosts = s.hosts := rfl
@[simp] theorem State.modQuad_poolLines (s : State) (n : Nat) (f : Quad → Quad) : (s.modQuad n f).poolLines = s.poolLines := rfl
@[simp] theorem State.modQuad_exchanges (s : State) (n : Nat) (f : Quad → Quad) : (s.modQuad n f).exchanges = s.exchanges := rfl
@[simp] theorem State.modQuad_e2eMisses (s : State) (n : Nat) (f : Quad → Quad) : (s.modQuad n f).e2eMisses = s.e2eMisses := rfl
@[simp] theorem State.modQuad_fencedModules (s : State) (n : Nat) (f : Quad → Quad) : (s.modQuad n f).fencedModules = s.fencedModules := rfl
@[simp] theorem State.modQuad_clock (s : State) (n : Nat) (f : Quad → Quad) : (s.modQuad n f).clock = s.clock := rfl
@[simp] theorem State.modQuad_referee (s : State) (n : Nat) (f : Quad → Quad) : (s.modQuad n f).referee = s.referee := rfl
@[simp] theorem State.modQuad_recorder (s : State) (n : Nat) (f : Quad → Quad) : (s.modQuad n f).recorder = s.recorder := rfl
@[simp] theorem State.modQuad_flash (s : State) (n : Nat) (f : Quad → Quad) : (s.modQuad n f).flash = s.flash := rfl
@[simp] theorem State.modQuad_pins (s : State) (n : Nat) (f : Quad → Quad) : (s.modQuad n f).pins = s.pins := rfl
@[simp] theorem State.modQuad_power (s : State) (n : Nat) (f : Quad → Quad) : (s.modQuad n f).power = s.power := rfl
@[simp] theorem State.modQuad_jtag (s : State) (n : Nat) (f : Quad → Quad) : (s.modQuad n f).jtag = s.jtag := rfl
@[simp] theorem State.modQuad_barred (s : State) (n : Nat) (f : Quad → Quad) : (s.modQuad n f).barred = s.barred := rfl
@[simp] theorem State.modQuad_answer (s : State) (n : Nat) (f : Quad → Quad) : (s.modQuad n f).answer = s.answer := rfl
@[simp] theorem State.modQuad_fresh (s : State) (n : Nat) (f : Quad → Quad) : (s.modQuad n f).fresh = s.fresh := rfl

/-! setRing -/

@[simp] theorem State.setRing_pending (s : State) (p n : Nat) (v : Ring) : (s.setRing p n v).pending = s.pending := rfl
@[simp] theorem State.setRing_regs (s : State) (p n : Nat) (v : Ring) : (s.setRing p n v).regs = s.regs := rfl
@[simp] theorem State.setRing_latched (s : State) (p n : Nat) (v : Ring) : (s.setRing p n v).latched = s.latched := rfl
@[simp] theorem State.setRing_shadow (s : State) (p n : Nat) (v : Ring) : (s.setRing p n v).shadow = s.shadow := rfl
@[simp] theorem State.setRing_shadowLatched (s : State) (p n : Nat) (v : Ring) : (s.setRing p n v).shadowLatched = s.shadowLatched := rfl
@[simp] theorem State.setRing_mem (s : State) (p n : Nat) (v : Ring) : (s.setRing p n v).mem = s.mem := rfl
@[simp] theorem State.setRing_general (s : State) (p n : Nat) (v : Ring) : (s.setRing p n v).general = s.general := rfl
@[simp] theorem State.setRing_hsc (s : State) (p n : Nat) (v : Ring) : (s.setRing p n v).hsc = s.hsc := rfl
@[simp] theorem State.setRing_hartBlocks (s : State) (p n : Nat) (v : Ring) : (s.setRing p n v).hartBlocks = s.hartBlocks := rfl
@[simp] theorem State.setRing_poison (s : State) (p n : Nat) (v : Ring) : (s.setRing p n v).poison = s.poison := rfl
@[simp] theorem State.setRing_overflows (s : State) (p n : Nat) (v : Ring) : (s.setRing p n v).overflows = s.overflows := rfl
@[simp] theorem State.setRing_tailMem (s : State) (p n : Nat) (v : Ring) : (s.setRing p n v).tailMem = s.tailMem := rfl
@[simp] theorem State.setRing_fills (s : State) (p n : Nat) (v : Ring) : (s.setRing p n v).fills = s.fills := rfl
@[simp] theorem State.setRing_filledRegions (s : State) (p n : Nat) (v : Ring) : (s.setRing p n v).filledRegions = s.filledRegions := rfl
@[simp] theorem State.setRing_rows (s : State) (p n : Nat) (v : Ring) : (s.setRing p n v).rows = s.rows := rfl
@[simp] theorem State.setRing_generations (s : State) (p n : Nat) (v : Ring) : (s.setRing p n v).generations = s.generations := rfl
@[simp] theorem State.setRing_parts (s : State) (p n : Nat) (v : Ring) : (s.setRing p n v).parts = s.parts := rfl
@[simp] theorem State.setRing_dies (s : State) (p n : Nat) (v : Ring) : (s.setRing p n v).dies = s.dies := rfl
@[simp] theorem State.setRing_squares (s : State) (p n : Nat) (v : Ring) : (s.setRing p n v).squares = s.squares := rfl
@[simp] theorem State.setRing_hosts (s : State) (p n : Nat) (v : Ring) : (s.setRing p n v).hosts = s.hosts := rfl
@[simp] theorem State.setRing_quads (s : State) (p n : Nat) (v : Ring) : (s.setRing p n v).quads = s.quads := rfl
@[simp] theorem State.setRing_poolLines (s : State) (p n : Nat) (v : Ring) : (s.setRing p n v).poolLines = s.poolLines := rfl
@[simp] theorem State.setRing_exchanges (s : State) (p n : Nat) (v : Ring) : (s.setRing p n v).exchanges = s.exchanges := rfl
@[simp] theorem State.setRing_e2eMisses (s : State) (p n : Nat) (v : Ring) : (s.setRing p n v).e2eMisses = s.e2eMisses := rfl
@[simp] theorem State.setRing_fencedModules (s : State) (p n : Nat) (v : Ring) : (s.setRing p n v).fencedModules = s.fencedModules := rfl
@[simp] theorem State.setRing_clock (s : State) (p n : Nat) (v : Ring) : (s.setRing p n v).clock = s.clock := rfl
@[simp] theorem State.setRing_referee (s : State) (p n : Nat) (v : Ring) : (s.setRing p n v).referee = s.referee := rfl
@[simp] theorem State.setRing_recorder (s : State) (p n : Nat) (v : Ring) : (s.setRing p n v).recorder = s.recorder := rfl
@[simp] theorem State.setRing_flash (s : State) (p n : Nat) (v : Ring) : (s.setRing p n v).flash = s.flash := rfl
@[simp] theorem State.setRing_pins (s : State) (p n : Nat) (v : Ring) : (s.setRing p n v).pins = s.pins := rfl
@[simp] theorem State.setRing_power (s : State) (p n : Nat) (v : Ring) : (s.setRing p n v).power = s.power := rfl
@[simp] theorem State.setRing_jtag (s : State) (p n : Nat) (v : Ring) : (s.setRing p n v).jtag = s.jtag := rfl
@[simp] theorem State.setRing_barred (s : State) (p n : Nat) (v : Ring) : (s.setRing p n v).barred = s.barred := rfl
@[simp] theorem State.setRing_answer (s : State) (p n : Nat) (v : Ring) : (s.setRing p n v).answer = s.answer := rfl
@[simp] theorem State.setRing_fresh (s : State) (p n : Nat) (v : Ring) : (s.setRing p n v).fresh = s.fresh := rfl

/-! modRing -/

@[simp] theorem State.modRing_pending (s : State) (p n : Nat) (f : Ring → Ring) : (s.modRing p n f).pending = s.pending := rfl
@[simp] theorem State.modRing_regs (s : State) (p n : Nat) (f : Ring → Ring) : (s.modRing p n f).regs = s.regs := rfl
@[simp] theorem State.modRing_latched (s : State) (p n : Nat) (f : Ring → Ring) : (s.modRing p n f).latched = s.latched := rfl
@[simp] theorem State.modRing_shadow (s : State) (p n : Nat) (f : Ring → Ring) : (s.modRing p n f).shadow = s.shadow := rfl
@[simp] theorem State.modRing_shadowLatched (s : State) (p n : Nat) (f : Ring → Ring) : (s.modRing p n f).shadowLatched = s.shadowLatched := rfl
@[simp] theorem State.modRing_mem (s : State) (p n : Nat) (f : Ring → Ring) : (s.modRing p n f).mem = s.mem := rfl
@[simp] theorem State.modRing_general (s : State) (p n : Nat) (f : Ring → Ring) : (s.modRing p n f).general = s.general := rfl
@[simp] theorem State.modRing_hsc (s : State) (p n : Nat) (f : Ring → Ring) : (s.modRing p n f).hsc = s.hsc := rfl
@[simp] theorem State.modRing_hartBlocks (s : State) (p n : Nat) (f : Ring → Ring) : (s.modRing p n f).hartBlocks = s.hartBlocks := rfl
@[simp] theorem State.modRing_poison (s : State) (p n : Nat) (f : Ring → Ring) : (s.modRing p n f).poison = s.poison := rfl
@[simp] theorem State.modRing_overflows (s : State) (p n : Nat) (f : Ring → Ring) : (s.modRing p n f).overflows = s.overflows := rfl
@[simp] theorem State.modRing_tailMem (s : State) (p n : Nat) (f : Ring → Ring) : (s.modRing p n f).tailMem = s.tailMem := rfl
@[simp] theorem State.modRing_fills (s : State) (p n : Nat) (f : Ring → Ring) : (s.modRing p n f).fills = s.fills := rfl
@[simp] theorem State.modRing_filledRegions (s : State) (p n : Nat) (f : Ring → Ring) : (s.modRing p n f).filledRegions = s.filledRegions := rfl
@[simp] theorem State.modRing_rows (s : State) (p n : Nat) (f : Ring → Ring) : (s.modRing p n f).rows = s.rows := rfl
@[simp] theorem State.modRing_generations (s : State) (p n : Nat) (f : Ring → Ring) : (s.modRing p n f).generations = s.generations := rfl
@[simp] theorem State.modRing_parts (s : State) (p n : Nat) (f : Ring → Ring) : (s.modRing p n f).parts = s.parts := rfl
@[simp] theorem State.modRing_dies (s : State) (p n : Nat) (f : Ring → Ring) : (s.modRing p n f).dies = s.dies := rfl
@[simp] theorem State.modRing_squares (s : State) (p n : Nat) (f : Ring → Ring) : (s.modRing p n f).squares = s.squares := rfl
@[simp] theorem State.modRing_hosts (s : State) (p n : Nat) (f : Ring → Ring) : (s.modRing p n f).hosts = s.hosts := rfl
@[simp] theorem State.modRing_quads (s : State) (p n : Nat) (f : Ring → Ring) : (s.modRing p n f).quads = s.quads := rfl
@[simp] theorem State.modRing_poolLines (s : State) (p n : Nat) (f : Ring → Ring) : (s.modRing p n f).poolLines = s.poolLines := rfl
@[simp] theorem State.modRing_exchanges (s : State) (p n : Nat) (f : Ring → Ring) : (s.modRing p n f).exchanges = s.exchanges := rfl
@[simp] theorem State.modRing_e2eMisses (s : State) (p n : Nat) (f : Ring → Ring) : (s.modRing p n f).e2eMisses = s.e2eMisses := rfl
@[simp] theorem State.modRing_fencedModules (s : State) (p n : Nat) (f : Ring → Ring) : (s.modRing p n f).fencedModules = s.fencedModules := rfl
@[simp] theorem State.modRing_clock (s : State) (p n : Nat) (f : Ring → Ring) : (s.modRing p n f).clock = s.clock := rfl
@[simp] theorem State.modRing_referee (s : State) (p n : Nat) (f : Ring → Ring) : (s.modRing p n f).referee = s.referee := rfl
@[simp] theorem State.modRing_recorder (s : State) (p n : Nat) (f : Ring → Ring) : (s.modRing p n f).recorder = s.recorder := rfl
@[simp] theorem State.modRing_flash (s : State) (p n : Nat) (f : Ring → Ring) : (s.modRing p n f).flash = s.flash := rfl
@[simp] theorem State.modRing_pins (s : State) (p n : Nat) (f : Ring → Ring) : (s.modRing p n f).pins = s.pins := rfl
@[simp] theorem State.modRing_power (s : State) (p n : Nat) (f : Ring → Ring) : (s.modRing p n f).power = s.power := rfl
@[simp] theorem State.modRing_jtag (s : State) (p n : Nat) (f : Ring → Ring) : (s.modRing p n f).jtag = s.jtag := rfl
@[simp] theorem State.modRing_barred (s : State) (p n : Nat) (f : Ring → Ring) : (s.modRing p n f).barred = s.barred := rfl
@[simp] theorem State.modRing_answer (s : State) (p n : Nat) (f : Ring → Ring) : (s.modRing p n f).answer = s.answer := rfl
@[simp] theorem State.modRing_fresh (s : State) (p n : Nat) (f : Ring → Ring) : (s.modRing p n f).fresh = s.fresh := rfl

/-! setRow -/

@[simp] theorem State.setRow_pending (s : State) (k : Nat) (v : StreamEntry) : (s.setRow k v).pending = s.pending := rfl
@[simp] theorem State.setRow_regs (s : State) (k : Nat) (v : StreamEntry) : (s.setRow k v).regs = s.regs := rfl
@[simp] theorem State.setRow_latched (s : State) (k : Nat) (v : StreamEntry) : (s.setRow k v).latched = s.latched := rfl
@[simp] theorem State.setRow_shadow (s : State) (k : Nat) (v : StreamEntry) : (s.setRow k v).shadow = s.shadow := rfl
@[simp] theorem State.setRow_shadowLatched (s : State) (k : Nat) (v : StreamEntry) : (s.setRow k v).shadowLatched = s.shadowLatched := rfl
@[simp] theorem State.setRow_mem (s : State) (k : Nat) (v : StreamEntry) : (s.setRow k v).mem = s.mem := rfl
@[simp] theorem State.setRow_general (s : State) (k : Nat) (v : StreamEntry) : (s.setRow k v).general = s.general := rfl
@[simp] theorem State.setRow_hsc (s : State) (k : Nat) (v : StreamEntry) : (s.setRow k v).hsc = s.hsc := rfl
@[simp] theorem State.setRow_hartBlocks (s : State) (k : Nat) (v : StreamEntry) : (s.setRow k v).hartBlocks = s.hartBlocks := rfl
@[simp] theorem State.setRow_poison (s : State) (k : Nat) (v : StreamEntry) : (s.setRow k v).poison = s.poison := rfl
@[simp] theorem State.setRow_overflows (s : State) (k : Nat) (v : StreamEntry) : (s.setRow k v).overflows = s.overflows := rfl
@[simp] theorem State.setRow_tailMem (s : State) (k : Nat) (v : StreamEntry) : (s.setRow k v).tailMem = s.tailMem := rfl
@[simp] theorem State.setRow_fills (s : State) (k : Nat) (v : StreamEntry) : (s.setRow k v).fills = s.fills := rfl
@[simp] theorem State.setRow_filledRegions (s : State) (k : Nat) (v : StreamEntry) : (s.setRow k v).filledRegions = s.filledRegions := rfl
@[simp] theorem State.setRow_generations (s : State) (k : Nat) (v : StreamEntry) : (s.setRow k v).generations = s.generations := rfl
@[simp] theorem State.setRow_parts (s : State) (k : Nat) (v : StreamEntry) : (s.setRow k v).parts = s.parts := rfl
@[simp] theorem State.setRow_rings (s : State) (k : Nat) (v : StreamEntry) : (s.setRow k v).rings = s.rings := rfl
@[simp] theorem State.setRow_dies (s : State) (k : Nat) (v : StreamEntry) : (s.setRow k v).dies = s.dies := rfl
@[simp] theorem State.setRow_squares (s : State) (k : Nat) (v : StreamEntry) : (s.setRow k v).squares = s.squares := rfl
@[simp] theorem State.setRow_hosts (s : State) (k : Nat) (v : StreamEntry) : (s.setRow k v).hosts = s.hosts := rfl
@[simp] theorem State.setRow_quads (s : State) (k : Nat) (v : StreamEntry) : (s.setRow k v).quads = s.quads := rfl
@[simp] theorem State.setRow_poolLines (s : State) (k : Nat) (v : StreamEntry) : (s.setRow k v).poolLines = s.poolLines := rfl
@[simp] theorem State.setRow_exchanges (s : State) (k : Nat) (v : StreamEntry) : (s.setRow k v).exchanges = s.exchanges := rfl
@[simp] theorem State.setRow_e2eMisses (s : State) (k : Nat) (v : StreamEntry) : (s.setRow k v).e2eMisses = s.e2eMisses := rfl
@[simp] theorem State.setRow_fencedModules (s : State) (k : Nat) (v : StreamEntry) : (s.setRow k v).fencedModules = s.fencedModules := rfl
@[simp] theorem State.setRow_clock (s : State) (k : Nat) (v : StreamEntry) : (s.setRow k v).clock = s.clock := rfl
@[simp] theorem State.setRow_referee (s : State) (k : Nat) (v : StreamEntry) : (s.setRow k v).referee = s.referee := rfl
@[simp] theorem State.setRow_recorder (s : State) (k : Nat) (v : StreamEntry) : (s.setRow k v).recorder = s.recorder := rfl
@[simp] theorem State.setRow_flash (s : State) (k : Nat) (v : StreamEntry) : (s.setRow k v).flash = s.flash := rfl
@[simp] theorem State.setRow_pins (s : State) (k : Nat) (v : StreamEntry) : (s.setRow k v).pins = s.pins := rfl
@[simp] theorem State.setRow_power (s : State) (k : Nat) (v : StreamEntry) : (s.setRow k v).power = s.power := rfl
@[simp] theorem State.setRow_jtag (s : State) (k : Nat) (v : StreamEntry) : (s.setRow k v).jtag = s.jtag := rfl
@[simp] theorem State.setRow_barred (s : State) (k : Nat) (v : StreamEntry) : (s.setRow k v).barred = s.barred := rfl
@[simp] theorem State.setRow_answer (s : State) (k : Nat) (v : StreamEntry) : (s.setRow k v).answer = s.answer := rfl
@[simp] theorem State.setRow_fresh (s : State) (k : Nat) (v : StreamEntry) : (s.setRow k v).fresh = s.fresh := rfl

/-! setByte -/

@[simp] theorem State.setByte_pending (s : State) (a : Nat) (b : Byte) : (s.setByte a b).pending = s.pending := rfl
@[simp] theorem State.setByte_regs (s : State) (a : Nat) (b : Byte) : (s.setByte a b).regs = s.regs := rfl
@[simp] theorem State.setByte_latched (s : State) (a : Nat) (b : Byte) : (s.setByte a b).latched = s.latched := rfl
@[simp] theorem State.setByte_shadow (s : State) (a : Nat) (b : Byte) : (s.setByte a b).shadow = s.shadow := rfl
@[simp] theorem State.setByte_shadowLatched (s : State) (a : Nat) (b : Byte) : (s.setByte a b).shadowLatched = s.shadowLatched := rfl
@[simp] theorem State.setByte_general (s : State) (a : Nat) (b : Byte) : (s.setByte a b).general = s.general := rfl
@[simp] theorem State.setByte_hsc (s : State) (a : Nat) (b : Byte) : (s.setByte a b).hsc = s.hsc := rfl
@[simp] theorem State.setByte_hartBlocks (s : State) (a : Nat) (b : Byte) : (s.setByte a b).hartBlocks = s.hartBlocks := rfl
@[simp] theorem State.setByte_poison (s : State) (a : Nat) (b : Byte) : (s.setByte a b).poison = s.poison := rfl
@[simp] theorem State.setByte_overflows (s : State) (a : Nat) (b : Byte) : (s.setByte a b).overflows = s.overflows := rfl
@[simp] theorem State.setByte_tailMem (s : State) (a : Nat) (b : Byte) : (s.setByte a b).tailMem = s.tailMem := rfl
@[simp] theorem State.setByte_fills (s : State) (a : Nat) (b : Byte) : (s.setByte a b).fills = s.fills := rfl
@[simp] theorem State.setByte_filledRegions (s : State) (a : Nat) (b : Byte) : (s.setByte a b).filledRegions = s.filledRegions := rfl
@[simp] theorem State.setByte_rows (s : State) (a : Nat) (b : Byte) : (s.setByte a b).rows = s.rows := rfl
@[simp] theorem State.setByte_generations (s : State) (a : Nat) (b : Byte) : (s.setByte a b).generations = s.generations := rfl
@[simp] theorem State.setByte_parts (s : State) (a : Nat) (b : Byte) : (s.setByte a b).parts = s.parts := rfl
@[simp] theorem State.setByte_rings (s : State) (a : Nat) (b : Byte) : (s.setByte a b).rings = s.rings := rfl
@[simp] theorem State.setByte_dies (s : State) (a : Nat) (b : Byte) : (s.setByte a b).dies = s.dies := rfl
@[simp] theorem State.setByte_squares (s : State) (a : Nat) (b : Byte) : (s.setByte a b).squares = s.squares := rfl
@[simp] theorem State.setByte_hosts (s : State) (a : Nat) (b : Byte) : (s.setByte a b).hosts = s.hosts := rfl
@[simp] theorem State.setByte_quads (s : State) (a : Nat) (b : Byte) : (s.setByte a b).quads = s.quads := rfl
@[simp] theorem State.setByte_poolLines (s : State) (a : Nat) (b : Byte) : (s.setByte a b).poolLines = s.poolLines := rfl
@[simp] theorem State.setByte_exchanges (s : State) (a : Nat) (b : Byte) : (s.setByte a b).exchanges = s.exchanges := rfl
@[simp] theorem State.setByte_e2eMisses (s : State) (a : Nat) (b : Byte) : (s.setByte a b).e2eMisses = s.e2eMisses := rfl
@[simp] theorem State.setByte_fencedModules (s : State) (a : Nat) (b : Byte) : (s.setByte a b).fencedModules = s.fencedModules := rfl
@[simp] theorem State.setByte_clock (s : State) (a : Nat) (b : Byte) : (s.setByte a b).clock = s.clock := rfl
@[simp] theorem State.setByte_referee (s : State) (a : Nat) (b : Byte) : (s.setByte a b).referee = s.referee := rfl
@[simp] theorem State.setByte_recorder (s : State) (a : Nat) (b : Byte) : (s.setByte a b).recorder = s.recorder := rfl
@[simp] theorem State.setByte_flash (s : State) (a : Nat) (b : Byte) : (s.setByte a b).flash = s.flash := rfl
@[simp] theorem State.setByte_pins (s : State) (a : Nat) (b : Byte) : (s.setByte a b).pins = s.pins := rfl
@[simp] theorem State.setByte_power (s : State) (a : Nat) (b : Byte) : (s.setByte a b).power = s.power := rfl
@[simp] theorem State.setByte_jtag (s : State) (a : Nat) (b : Byte) : (s.setByte a b).jtag = s.jtag := rfl
@[simp] theorem State.setByte_barred (s : State) (a : Nat) (b : Byte) : (s.setByte a b).barred = s.barred := rfl
@[simp] theorem State.setByte_answer (s : State) (a : Nat) (b : Byte) : (s.setByte a b).answer = s.answer := rfl
@[simp] theorem State.setByte_fresh (s : State) (a : Nat) (b : Byte) : (s.setByte a b).fresh = s.fresh := rfl

/-! zeroRange -/

@[simp] theorem State.zeroRange_pending (s : State) (a n : Nat) : (s.zeroRange a n).pending = s.pending := rfl
@[simp] theorem State.zeroRange_regs (s : State) (a n : Nat) : (s.zeroRange a n).regs = s.regs := rfl
@[simp] theorem State.zeroRange_latched (s : State) (a n : Nat) : (s.zeroRange a n).latched = s.latched := rfl
@[simp] theorem State.zeroRange_shadow (s : State) (a n : Nat) : (s.zeroRange a n).shadow = s.shadow := rfl
@[simp] theorem State.zeroRange_shadowLatched (s : State) (a n : Nat) : (s.zeroRange a n).shadowLatched = s.shadowLatched := rfl
@[simp] theorem State.zeroRange_general (s : State) (a n : Nat) : (s.zeroRange a n).general = s.general := rfl
@[simp] theorem State.zeroRange_hsc (s : State) (a n : Nat) : (s.zeroRange a n).hsc = s.hsc := rfl
@[simp] theorem State.zeroRange_hartBlocks (s : State) (a n : Nat) : (s.zeroRange a n).hartBlocks = s.hartBlocks := rfl
@[simp] theorem State.zeroRange_poison (s : State) (a n : Nat) : (s.zeroRange a n).poison = s.poison := rfl
@[simp] theorem State.zeroRange_overflows (s : State) (a n : Nat) : (s.zeroRange a n).overflows = s.overflows := rfl
@[simp] theorem State.zeroRange_tailMem (s : State) (a n : Nat) : (s.zeroRange a n).tailMem = s.tailMem := rfl
@[simp] theorem State.zeroRange_fills (s : State) (a n : Nat) : (s.zeroRange a n).fills = s.fills := rfl
@[simp] theorem State.zeroRange_filledRegions (s : State) (a n : Nat) : (s.zeroRange a n).filledRegions = s.filledRegions := rfl
@[simp] theorem State.zeroRange_rows (s : State) (a n : Nat) : (s.zeroRange a n).rows = s.rows := rfl
@[simp] theorem State.zeroRange_generations (s : State) (a n : Nat) : (s.zeroRange a n).generations = s.generations := rfl
@[simp] theorem State.zeroRange_parts (s : State) (a n : Nat) : (s.zeroRange a n).parts = s.parts := rfl
@[simp] theorem State.zeroRange_rings (s : State) (a n : Nat) : (s.zeroRange a n).rings = s.rings := rfl
@[simp] theorem State.zeroRange_dies (s : State) (a n : Nat) : (s.zeroRange a n).dies = s.dies := rfl
@[simp] theorem State.zeroRange_squares (s : State) (a n : Nat) : (s.zeroRange a n).squares = s.squares := rfl
@[simp] theorem State.zeroRange_hosts (s : State) (a n : Nat) : (s.zeroRange a n).hosts = s.hosts := rfl
@[simp] theorem State.zeroRange_quads (s : State) (a n : Nat) : (s.zeroRange a n).quads = s.quads := rfl
@[simp] theorem State.zeroRange_poolLines (s : State) (a n : Nat) : (s.zeroRange a n).poolLines = s.poolLines := rfl
@[simp] theorem State.zeroRange_exchanges (s : State) (a n : Nat) : (s.zeroRange a n).exchanges = s.exchanges := rfl
@[simp] theorem State.zeroRange_e2eMisses (s : State) (a n : Nat) : (s.zeroRange a n).e2eMisses = s.e2eMisses := rfl
@[simp] theorem State.zeroRange_fencedModules (s : State) (a n : Nat) : (s.zeroRange a n).fencedModules = s.fencedModules := rfl
@[simp] theorem State.zeroRange_clock (s : State) (a n : Nat) : (s.zeroRange a n).clock = s.clock := rfl
@[simp] theorem State.zeroRange_referee (s : State) (a n : Nat) : (s.zeroRange a n).referee = s.referee := rfl
@[simp] theorem State.zeroRange_recorder (s : State) (a n : Nat) : (s.zeroRange a n).recorder = s.recorder := rfl
@[simp] theorem State.zeroRange_flash (s : State) (a n : Nat) : (s.zeroRange a n).flash = s.flash := rfl
@[simp] theorem State.zeroRange_pins (s : State) (a n : Nat) : (s.zeroRange a n).pins = s.pins := rfl
@[simp] theorem State.zeroRange_power (s : State) (a n : Nat) : (s.zeroRange a n).power = s.power := rfl
@[simp] theorem State.zeroRange_jtag (s : State) (a n : Nat) : (s.zeroRange a n).jtag = s.jtag := rfl
@[simp] theorem State.zeroRange_barred (s : State) (a n : Nat) : (s.zeroRange a n).barred = s.barred := rfl
@[simp] theorem State.zeroRange_answer (s : State) (a n : Nat) : (s.zeroRange a n).answer = s.answer := rfl
@[simp] theorem State.zeroRange_fresh (s : State) (a n : Nat) : (s.zeroRange a n).fresh = s.fresh := rfl

/-! setRecorder -/

@[simp] theorem State.setRecorder_pending (s : State) (x : Recorder) : (s.setRecorder x).pending = s.pending := rfl
@[simp] theorem State.setRecorder_regs (s : State) (x : Recorder) : (s.setRecorder x).regs = s.regs := rfl
@[simp] theorem State.setRecorder_latched (s : State) (x : Recorder) : (s.setRecorder x).latched = s.latched := rfl
@[simp] theorem State.setRecorder_shadow (s : State) (x : Recorder) : (s.setRecorder x).shadow = s.shadow := rfl
@[simp] theorem State.setRecorder_shadowLatched (s : State) (x : Recorder) : (s.setRecorder x).shadowLatched = s.shadowLatched := rfl
@[simp] theorem State.setRecorder_mem (s : State) (x : Recorder) : (s.setRecorder x).mem = s.mem := rfl
@[simp] theorem State.setRecorder_general (s : State) (x : Recorder) : (s.setRecorder x).general = s.general := rfl
@[simp] theorem State.setRecorder_hsc (s : State) (x : Recorder) : (s.setRecorder x).hsc = s.hsc := rfl
@[simp] theorem State.setRecorder_hartBlocks (s : State) (x : Recorder) : (s.setRecorder x).hartBlocks = s.hartBlocks := rfl
@[simp] theorem State.setRecorder_poison (s : State) (x : Recorder) : (s.setRecorder x).poison = s.poison := rfl
@[simp] theorem State.setRecorder_overflows (s : State) (x : Recorder) : (s.setRecorder x).overflows = s.overflows := rfl
@[simp] theorem State.setRecorder_tailMem (s : State) (x : Recorder) : (s.setRecorder x).tailMem = s.tailMem := rfl
@[simp] theorem State.setRecorder_fills (s : State) (x : Recorder) : (s.setRecorder x).fills = s.fills := rfl
@[simp] theorem State.setRecorder_filledRegions (s : State) (x : Recorder) : (s.setRecorder x).filledRegions = s.filledRegions := rfl
@[simp] theorem State.setRecorder_rows (s : State) (x : Recorder) : (s.setRecorder x).rows = s.rows := rfl
@[simp] theorem State.setRecorder_generations (s : State) (x : Recorder) : (s.setRecorder x).generations = s.generations := rfl
@[simp] theorem State.setRecorder_parts (s : State) (x : Recorder) : (s.setRecorder x).parts = s.parts := rfl
@[simp] theorem State.setRecorder_rings (s : State) (x : Recorder) : (s.setRecorder x).rings = s.rings := rfl
@[simp] theorem State.setRecorder_dies (s : State) (x : Recorder) : (s.setRecorder x).dies = s.dies := rfl
@[simp] theorem State.setRecorder_squares (s : State) (x : Recorder) : (s.setRecorder x).squares = s.squares := rfl
@[simp] theorem State.setRecorder_hosts (s : State) (x : Recorder) : (s.setRecorder x).hosts = s.hosts := rfl
@[simp] theorem State.setRecorder_quads (s : State) (x : Recorder) : (s.setRecorder x).quads = s.quads := rfl
@[simp] theorem State.setRecorder_poolLines (s : State) (x : Recorder) : (s.setRecorder x).poolLines = s.poolLines := rfl
@[simp] theorem State.setRecorder_exchanges (s : State) (x : Recorder) : (s.setRecorder x).exchanges = s.exchanges := rfl
@[simp] theorem State.setRecorder_e2eMisses (s : State) (x : Recorder) : (s.setRecorder x).e2eMisses = s.e2eMisses := rfl
@[simp] theorem State.setRecorder_fencedModules (s : State) (x : Recorder) : (s.setRecorder x).fencedModules = s.fencedModules := rfl
@[simp] theorem State.setRecorder_clock (s : State) (x : Recorder) : (s.setRecorder x).clock = s.clock := rfl
@[simp] theorem State.setRecorder_referee (s : State) (x : Recorder) : (s.setRecorder x).referee = s.referee := rfl
@[simp] theorem State.setRecorder_flash (s : State) (x : Recorder) : (s.setRecorder x).flash = s.flash := rfl
@[simp] theorem State.setRecorder_pins (s : State) (x : Recorder) : (s.setRecorder x).pins = s.pins := rfl
@[simp] theorem State.setRecorder_power (s : State) (x : Recorder) : (s.setRecorder x).power = s.power := rfl
@[simp] theorem State.setRecorder_jtag (s : State) (x : Recorder) : (s.setRecorder x).jtag = s.jtag := rfl
@[simp] theorem State.setRecorder_barred (s : State) (x : Recorder) : (s.setRecorder x).barred = s.barred := rfl
@[simp] theorem State.setRecorder_answer (s : State) (x : Recorder) : (s.setRecorder x).answer = s.answer := rfl
@[simp] theorem State.setRecorder_fresh (s : State) (x : Recorder) : (s.setRecorder x).fresh = s.fresh := rfl

/-! modRecorder -/

@[simp] theorem State.modRecorder_pending (s : State) (f : Recorder → Recorder) : (s.modRecorder f).pending = s.pending := rfl
@[simp] theorem State.modRecorder_regs (s : State) (f : Recorder → Recorder) : (s.modRecorder f).regs = s.regs := rfl
@[simp] theorem State.modRecorder_latched (s : State) (f : Recorder → Recorder) : (s.modRecorder f).latched = s.latched := rfl
@[simp] theorem State.modRecorder_shadow (s : State) (f : Recorder → Recorder) : (s.modRecorder f).shadow = s.shadow := rfl
@[simp] theorem State.modRecorder_shadowLatched (s : State) (f : Recorder → Recorder) : (s.modRecorder f).shadowLatched = s.shadowLatched := rfl
@[simp] theorem State.modRecorder_mem (s : State) (f : Recorder → Recorder) : (s.modRecorder f).mem = s.mem := rfl
@[simp] theorem State.modRecorder_general (s : State) (f : Recorder → Recorder) : (s.modRecorder f).general = s.general := rfl
@[simp] theorem State.modRecorder_hsc (s : State) (f : Recorder → Recorder) : (s.modRecorder f).hsc = s.hsc := rfl
@[simp] theorem State.modRecorder_hartBlocks (s : State) (f : Recorder → Recorder) : (s.modRecorder f).hartBlocks = s.hartBlocks := rfl
@[simp] theorem State.modRecorder_poison (s : State) (f : Recorder → Recorder) : (s.modRecorder f).poison = s.poison := rfl
@[simp] theorem State.modRecorder_overflows (s : State) (f : Recorder → Recorder) : (s.modRecorder f).overflows = s.overflows := rfl
@[simp] theorem State.modRecorder_tailMem (s : State) (f : Recorder → Recorder) : (s.modRecorder f).tailMem = s.tailMem := rfl
@[simp] theorem State.modRecorder_fills (s : State) (f : Recorder → Recorder) : (s.modRecorder f).fills = s.fills := rfl
@[simp] theorem State.modRecorder_filledRegions (s : State) (f : Recorder → Recorder) : (s.modRecorder f).filledRegions = s.filledRegions := rfl
@[simp] theorem State.modRecorder_rows (s : State) (f : Recorder → Recorder) : (s.modRecorder f).rows = s.rows := rfl
@[simp] theorem State.modRecorder_generations (s : State) (f : Recorder → Recorder) : (s.modRecorder f).generations = s.generations := rfl
@[simp] theorem State.modRecorder_parts (s : State) (f : Recorder → Recorder) : (s.modRecorder f).parts = s.parts := rfl
@[simp] theorem State.modRecorder_rings (s : State) (f : Recorder → Recorder) : (s.modRecorder f).rings = s.rings := rfl
@[simp] theorem State.modRecorder_dies (s : State) (f : Recorder → Recorder) : (s.modRecorder f).dies = s.dies := rfl
@[simp] theorem State.modRecorder_squares (s : State) (f : Recorder → Recorder) : (s.modRecorder f).squares = s.squares := rfl
@[simp] theorem State.modRecorder_hosts (s : State) (f : Recorder → Recorder) : (s.modRecorder f).hosts = s.hosts := rfl
@[simp] theorem State.modRecorder_quads (s : State) (f : Recorder → Recorder) : (s.modRecorder f).quads = s.quads := rfl
@[simp] theorem State.modRecorder_poolLines (s : State) (f : Recorder → Recorder) : (s.modRecorder f).poolLines = s.poolLines := rfl
@[simp] theorem State.modRecorder_exchanges (s : State) (f : Recorder → Recorder) : (s.modRecorder f).exchanges = s.exchanges := rfl
@[simp] theorem State.modRecorder_e2eMisses (s : State) (f : Recorder → Recorder) : (s.modRecorder f).e2eMisses = s.e2eMisses := rfl
@[simp] theorem State.modRecorder_fencedModules (s : State) (f : Recorder → Recorder) : (s.modRecorder f).fencedModules = s.fencedModules := rfl
@[simp] theorem State.modRecorder_clock (s : State) (f : Recorder → Recorder) : (s.modRecorder f).clock = s.clock := rfl
@[simp] theorem State.modRecorder_referee (s : State) (f : Recorder → Recorder) : (s.modRecorder f).referee = s.referee := rfl
@[simp] theorem State.modRecorder_flash (s : State) (f : Recorder → Recorder) : (s.modRecorder f).flash = s.flash := rfl
@[simp] theorem State.modRecorder_pins (s : State) (f : Recorder → Recorder) : (s.modRecorder f).pins = s.pins := rfl
@[simp] theorem State.modRecorder_power (s : State) (f : Recorder → Recorder) : (s.modRecorder f).power = s.power := rfl
@[simp] theorem State.modRecorder_jtag (s : State) (f : Recorder → Recorder) : (s.modRecorder f).jtag = s.jtag := rfl
@[simp] theorem State.modRecorder_barred (s : State) (f : Recorder → Recorder) : (s.modRecorder f).barred = s.barred := rfl
@[simp] theorem State.modRecorder_answer (s : State) (f : Recorder → Recorder) : (s.modRecorder f).answer = s.answer := rfl
@[simp] theorem State.modRecorder_fresh (s : State) (f : Recorder → Recorder) : (s.modRecorder f).fresh = s.fresh := rfl

/-! setSiteState -/

@[simp] theorem State.setSiteState_pending (s : State) (i : Nat) (v : SiteState) : (s.setSiteState i v).pending = s.pending := rfl
@[simp] theorem State.setSiteState_regs (s : State) (i : Nat) (v : SiteState) : (s.setSiteState i v).regs = s.regs := rfl
@[simp] theorem State.setSiteState_latched (s : State) (i : Nat) (v : SiteState) : (s.setSiteState i v).latched = s.latched := rfl
@[simp] theorem State.setSiteState_shadow (s : State) (i : Nat) (v : SiteState) : (s.setSiteState i v).shadow = s.shadow := rfl
@[simp] theorem State.setSiteState_shadowLatched (s : State) (i : Nat) (v : SiteState) : (s.setSiteState i v).shadowLatched = s.shadowLatched := rfl
@[simp] theorem State.setSiteState_mem (s : State) (i : Nat) (v : SiteState) : (s.setSiteState i v).mem = s.mem := rfl
@[simp] theorem State.setSiteState_general (s : State) (i : Nat) (v : SiteState) : (s.setSiteState i v).general = s.general := rfl
@[simp] theorem State.setSiteState_hsc (s : State) (i : Nat) (v : SiteState) : (s.setSiteState i v).hsc = s.hsc := rfl
@[simp] theorem State.setSiteState_hartBlocks (s : State) (i : Nat) (v : SiteState) : (s.setSiteState i v).hartBlocks = s.hartBlocks := rfl
@[simp] theorem State.setSiteState_poison (s : State) (i : Nat) (v : SiteState) : (s.setSiteState i v).poison = s.poison := rfl
@[simp] theorem State.setSiteState_overflows (s : State) (i : Nat) (v : SiteState) : (s.setSiteState i v).overflows = s.overflows := rfl
@[simp] theorem State.setSiteState_tailMem (s : State) (i : Nat) (v : SiteState) : (s.setSiteState i v).tailMem = s.tailMem := rfl
@[simp] theorem State.setSiteState_fills (s : State) (i : Nat) (v : SiteState) : (s.setSiteState i v).fills = s.fills := rfl
@[simp] theorem State.setSiteState_filledRegions (s : State) (i : Nat) (v : SiteState) : (s.setSiteState i v).filledRegions = s.filledRegions := rfl
@[simp] theorem State.setSiteState_rows (s : State) (i : Nat) (v : SiteState) : (s.setSiteState i v).rows = s.rows := rfl
@[simp] theorem State.setSiteState_generations (s : State) (i : Nat) (v : SiteState) : (s.setSiteState i v).generations = s.generations := rfl
@[simp] theorem State.setSiteState_parts (s : State) (i : Nat) (v : SiteState) : (s.setSiteState i v).parts = s.parts := rfl
@[simp] theorem State.setSiteState_rings (s : State) (i : Nat) (v : SiteState) : (s.setSiteState i v).rings = s.rings := rfl
@[simp] theorem State.setSiteState_dies (s : State) (i : Nat) (v : SiteState) : (s.setSiteState i v).dies = s.dies := rfl
@[simp] theorem State.setSiteState_squares (s : State) (i : Nat) (v : SiteState) : (s.setSiteState i v).squares = s.squares := rfl
@[simp] theorem State.setSiteState_hosts (s : State) (i : Nat) (v : SiteState) : (s.setSiteState i v).hosts = s.hosts := rfl
@[simp] theorem State.setSiteState_quads (s : State) (i : Nat) (v : SiteState) : (s.setSiteState i v).quads = s.quads := rfl
@[simp] theorem State.setSiteState_poolLines (s : State) (i : Nat) (v : SiteState) : (s.setSiteState i v).poolLines = s.poolLines := rfl
@[simp] theorem State.setSiteState_exchanges (s : State) (i : Nat) (v : SiteState) : (s.setSiteState i v).exchanges = s.exchanges := rfl
@[simp] theorem State.setSiteState_e2eMisses (s : State) (i : Nat) (v : SiteState) : (s.setSiteState i v).e2eMisses = s.e2eMisses := rfl
@[simp] theorem State.setSiteState_fencedModules (s : State) (i : Nat) (v : SiteState) : (s.setSiteState i v).fencedModules = s.fencedModules := rfl
@[simp] theorem State.setSiteState_clock (s : State) (i : Nat) (v : SiteState) : (s.setSiteState i v).clock = s.clock := rfl
@[simp] theorem State.setSiteState_referee (s : State) (i : Nat) (v : SiteState) : (s.setSiteState i v).referee = s.referee := rfl
@[simp] theorem State.setSiteState_recorder (s : State) (i : Nat) (v : SiteState) : (s.setSiteState i v).recorder = s.recorder := rfl
@[simp] theorem State.setSiteState_pins (s : State) (i : Nat) (v : SiteState) : (s.setSiteState i v).pins = s.pins := rfl
@[simp] theorem State.setSiteState_power (s : State) (i : Nat) (v : SiteState) : (s.setSiteState i v).power = s.power := rfl
@[simp] theorem State.setSiteState_jtag (s : State) (i : Nat) (v : SiteState) : (s.setSiteState i v).jtag = s.jtag := rfl
@[simp] theorem State.setSiteState_barred (s : State) (i : Nat) (v : SiteState) : (s.setSiteState i v).barred = s.barred := rfl
@[simp] theorem State.setSiteState_answer (s : State) (i : Nat) (v : SiteState) : (s.setSiteState i v).answer = s.answer := rfl
@[simp] theorem State.setSiteState_fresh (s : State) (i : Nat) (v : SiteState) : (s.setSiteState i v).fresh = s.fresh := rfl

end Sys2Proof.Machine
end

