-- ==== Sys2Proof/Laws/Registers.lean ====
section
/-! SUPPORT. The register file: a read after a write of a register gives what was written, and a write leaves every other register alone; the same
for the values in effect, the numbered units, and memory. -/

namespace Sys2Proof.Machine

/-- Distinct registers have distinct numbers. -/
theorem RegKey.num_inj (a b : RegKey) : a.num = b.num ↔ a = b := by
  constructor
  · intro h
    obtain ⟨n, i, j⟩ := a
    obtain ⟨n', i', j'⟩ := b
    simp only [RegKey.num, Nat.pair_eq_pair] at h
    obtain ⟨h1, h2, h3⟩ := h
    have : n = n' := by
      have e := congrArg RegName.ofNat h1
      simpa [RegName.ofNat_ctorIdx] using e
    simp [this, h2, h3]
  · rintro rfl; rfl

theorem rk_inj (n n' : RegName) (i i' j j' : Nat) : rk n i j = rk n' i' j' ↔ n = n' ∧ i = i' ∧ j = j' := by
  simp [rk]

/-- A read at a register's key after a write at one, each with the default of its own key. -/
theorem get_set_key {V : Type} [DecidableEq V] (d : RegKey → V) (m : List (RegKey × V)) (k k' : RegKey) (v : V) :
    Sparse.get RegKey.num (d k') (Sparse.set RegKey.num (d k) m k v) k' = if k = k' then v else Sparse.get RegKey.num (d k') m k' := by
  by_cases e : k = k'
  · subst e; rw [if_pos rfl, Sparse.get_set_same]
  · rw [if_neg e, Sparse.get_set_ne _ _ _ _ _ _ _ (fun h => e ((RegKey.num_inj ..).1 h))]

/-- A read of a register after a write of one. -/
@[simp] theorem State.reg_setReg (s : State) (n n' : RegName) (i i' j j' : Nat) (v : Word) :
    (s.setReg n i j v).reg n' i' j' = if n = n' ∧ i = i' ∧ j = j' then v else s.reg n' i' j' := by
  have := get_set_key (fun k => k.reset) s.regs (rk n i j) (rk n' i' j') v
  simp only [rk_inj] at this
  exact this

@[simp] theorem State.reg_setPart (s : State) (p : Nat) (v : Part) (n : RegName) (i j : Nat) : (s.setPart p v).reg n i j = s.reg n i j := rfl
@[simp] theorem State.reg_modPart (s : State) (p : Nat) (f : Part → Part) (n : RegName) (i j : Nat) :
    (s.modPart p f).reg n i j = s.reg n i j := rfl
@[simp] theorem State.reg_modDie (s : State) (p : Nat) (f : Die → Die) (n : RegName) (i j : Nat) :
    (s.modDie p f).reg n i j = s.reg n i j := rfl
@[simp] theorem State.reg_setDie (s : State) (p : Nat) (v : Die) (n : RegName) (i j : Nat) : (s.setDie p v).reg n i j = s.reg n i j := rfl
@[simp] theorem State.reg_modSquare (s : State) (p : Nat) (f : Square → Square) (n : RegName) (i j : Nat) :
    (s.modSquare p f).reg n i j = s.reg n i j := rfl
@[simp] theorem State.reg_modHost (s : State) (p : Nat) (f : HostDie → HostDie) (n : RegName) (i j : Nat) :
    (s.modHost p f).reg n i j = s.reg n i j := rfl
@[simp] theorem State.reg_modQuad (s : State) (p : Nat) (f : Quad → Quad) (n : RegName) (i j : Nat) :
    (s.modQuad p f).reg n i j = s.reg n i j := rfl
@[simp] theorem State.reg_modRing (s : State) (p r : Nat) (f : Ring → Ring) (n : RegName) (i j : Nat) :
    (s.modRing p r f).reg n i j = s.reg n i j := rfl
@[simp] theorem State.reg_setRow (s : State) (k : Nat) (v : StreamEntry) (n : RegName) (i j : Nat) : (s.setRow k v).reg n i j = s.reg n i j := rfl
@[simp] theorem State.reg_setByte (s : State) (a : Nat) (b : Byte) (n : RegName) (i j : Nat) : (s.setByte a b).reg n i j = s.reg n i j := rfl
@[simp] theorem State.reg_zeroRange (s : State) (a k : Nat) (n : RegName) (i j : Nat) : (s.zeroRange a k).reg n i j = s.reg n i j := rfl
@[simp] theorem State.reg_setRecorder (s : State) (x : Recorder) (n : RegName) (i j : Nat) : (s.setRecorder x).reg n i j = s.reg n i j := rfl
@[simp] theorem State.reg_modRecorder (s : State) (f : Recorder → Recorder) (n : RegName) (i j : Nat) :
    (s.modRecorder f).reg n i j = s.reg n i j := rfl
@[simp] theorem State.reg_latchReg (s : State) (m : RegName) (k l : Nat) (v : Word) (n : RegName) (i j : Nat) :
    (s.latchReg m k l v).reg n i j = s.reg n i j := rfl

@[simp] theorem State.reg_setField (s : State) (r n' : RegName) (i i' j j' lo n x : Nat) :
    (s.setField r i j lo n x).reg n' i' j' = if r = n' ∧ i = i' ∧ j = j' then putBits (s.reg r i j) lo n x else s.reg n' i' j' := by
  simp [State.setField]

@[simp] theorem State.reg_setFlag (s : State) (r n' : RegName) (i i' j j' b : Nat) (x : Bool) :
    (s.setFlag r i j b x).reg n' i' j' = if r = n' ∧ i = i' ∧ j = j' then putBit (s.reg r i j) b x else s.reg n' i' j' := by
  simp [State.setFlag]

@[simp] theorem State.reg_bump (s : State) (n n' : RegName) (i i' j j' k : Nat) :
    (s.bump n i j k).reg n' i' j' =
      if n = n' ∧ i = i' ∧ j = j' then (s.reg n i j + BitVec.ofNat 64 k) &&& n.info.defined else s.reg n' i' j' := by
  simp [State.bump]

@[simp] theorem State.reg_setBoth (s : State) (n n' : RegName) (i i' j j' : Nat) (v : Word) :
    (s.setBoth n i j v).reg n' i' j' = if n = n' ∧ i = i' ∧ j = j' then v else s.reg n' i' j' := by
  simp [State.setBoth]

/-- The value in effect after one is put into effect. -/
@[simp] theorem State.latchedReg_latchReg (s : State) (n n' : RegName) (i i' j j' : Nat) (v : Word) :
    (s.latchReg n i j v).latchedReg n' i' j' = if n = n' ∧ i = i' ∧ j = j' then v else s.latchedReg n' i' j' := by
  have := get_set_key (fun k => k.reset) s.latched (rk n i j) (rk n' i' j') v
  simp only [rk_inj] at this
  exact this

/-! Fields -/

/-- Bit k of a word after a field of it is replaced: that of the new value inside the field, and the old one outside it. -/
theorem getLsbD_putBits {w : Nat} (v : BitVec w) (lo n x k : Nat) (h : k < w) :
    (putBits v lo n x).getLsbD k = if lo ≤ k ∧ k < lo + n then x.testBit (k - lo) else v.getLsbD k := by
  simp only [putBits, BitVec.getLsbD_or, BitVec.getLsbD_and, BitVec.getLsbD_not, BitVec.getLsbD_ofNat, h, decide_true, Bool.true_and,
    Nat.testBit_mul_two_pow, Nat.testBit_two_pow_sub_one, Nat.testBit_mod_two_pow]
  by_cases h1 : lo ≤ k
  · by_cases h2 : k < lo + n
    · have : k - lo < n := by omega
      simp [h1, h2, this]
    · have : ¬ (k - lo < n) := by omega
      simp [h1, h2, this]
  · simp [h1]

@[simp] theorem bitAt_putBit {w : Nat} (v : BitVec w) (n k : Nat) (b : Bool) (h : k < w) :
    bitAt (putBit v n b) k = if k = n then b else bitAt v k := by
  unfold bitAt putBit
  rw [getLsbD_putBits _ _ _ _ _ h]
  by_cases e : k = n
  · subst e; cases b <;> simp
  · have : ¬ (n ≤ k ∧ k < n + 1) := by omega
    rw [if_neg this, if_neg e]

/-- A flag after one is set. -/
theorem State.flag_setFlag (s : State) (r : RegName) (i j b c : Nat) (x : Bool) (h : c < 64) :
    (s.setFlag r i j b x).flag r i j c = if c = b then x else s.flag r i j c := by
  simp [State.flag, h]

/-- A field of n bits after it is replaced. -/
theorem bitsAt_putBits_same (v : Word) (lo n x : Nat) (h : lo + n ≤ 64) : bitsAt (putBits v lo n x) lo n = x % 2 ^ n := by
  apply Nat.eq_of_testBit_eq
  intro k
  simp only [bitsAt, Nat.testBit_mod_two_pow, Nat.testBit_div_two_pow]
  by_cases hk : k < n
  · have h1 : k + lo < 64 := by omega
    have := getLsbD_putBits v lo n x (k + lo) h1
    rw [BitVec.getLsbD] at this
    rw [this]
    have : lo ≤ k + lo ∧ k + lo < lo + n := by omega
    simp [hk, this]
  · simp [hk]

/-- A field that does not meet the one replaced. -/
theorem bitsAt_putBits_ne (v : Word) (lo n x lo' n' : Nat) (h : lo' + n' ≤ 64) (d : lo' + n' ≤ lo ∨ lo + n ≤ lo') :
    bitsAt (putBits v lo n x) lo' n' = bitsAt v lo' n' := by
  apply Nat.eq_of_testBit_eq
  intro k
  simp only [bitsAt, Nat.testBit_mod_two_pow, Nat.testBit_div_two_pow]
  by_cases hk : k < n'
  · have h1 : k + lo' < 64 := by omega
    have := getLsbD_putBits v lo n x (k + lo') h1
    rw [BitVec.getLsbD] at this
    rw [this]
    have : ¬ (lo ≤ k + lo' ∧ k + lo' < lo + n) := by omega
    rw [if_neg this]; rfl
  · simp [hk]

/-! Numbered units -/

@[simp] theorem State.part_setPart (s : State) (p q : Nat) (v : Part) : (s.setPart p v).part q = if p = q then v else s.part q :=
  Sparse.nget_nset ..
@[simp] theorem State.part_modPart (s : State) (p q : Nat) (f : Part → Part) :
    (s.modPart p f).part q = if p = q then f (s.part p) else s.part q := by simp [State.modPart]
@[simp] theorem State.die_setDie (s : State) (p q : Nat) (v : Die) : (s.setDie p v).die q = if p = q then v else s.die q := Sparse.nget_nset ..
@[simp] theorem State.die_modDie (s : State) (p q : Nat) (f : Die → Die) :
    (s.modDie p f).die q = if p = q then f (s.die p) else s.die q := by simp [State.modDie]
@[simp] theorem State.square_modSquare (s : State) (p q : Nat) (f : Square → Square) :
    (s.modSquare p f).square q = if p = q then f (s.square p) else s.square q := Sparse.nget_nset ..
@[simp] theorem State.hostDie_modHost (s : State) (p q : Nat) (f : HostDie → HostDie) :
    (s.modHost p f).hostDie q = if p = q then f (s.hostDie p) else s.hostDie q := Sparse.nget_nset ..
@[simp] theorem State.quad_modQuad (s : State) (p q : Nat) (f : Quad → Quad) :
    (s.modQuad p f).quad q = if p = q then f (s.quad p) else s.quad q := Sparse.nget_nset ..
@[simp] theorem State.row_setRow (s : State) (p q : Nat) (v : StreamEntry) : (s.setRow p v).row q = if p = q then v else s.row q :=
  Sparse.nget_nset ..

/-! Free values and the clock -/

@[simp] theorem State.draw_reg (s : State) (n : RegName) (i j : Nat) : s.draw.2.reg n i j = s.reg n i j := rfl
@[simp] theorem State.draw_fresh (s : State) : s.draw.2.fresh = s.fresh + 1 := rfl

/-! Memory -/

/-- A byte read after a byte is written. -/
@[simp] theorem State.byte_setByte (s : State) (a b : Nat) (x : Byte) : (s.setByte a x).byte b = if a = b then x else s.byte b :=
  Sparse.nget_nset ..

/-- Bytes written in a row leave every byte outside them alone. -/
theorem State.byte_setBytes_ne (l : List Byte) (s : State) (a b : Nat) (h : b < a ∨ a + l.length ≤ b) :
    (s.setBytes a l).byte b = s.byte b := by
  induction l generalizing s a with
  | nil => rfl
  | cons x l ih =>
    simp only [List.length_cons] at h
    simp only [State.setBytes]
    rw [ih _ _ (by omega), State.byte_setByte, if_neg (by omega)]

/-- A byte of a row written. -/
theorem State.byte_setBytes (l : List Byte) (s : State) (a k : Nat) (h : k < l.length) :
    (s.setBytes a l).byte (a + k) = l[k] := by
  induction l generalizing s a k with
  | nil => simp at h
  | cons x l ih =>
    simp only [State.setBytes]
    cases k with
    | zero => rw [State.byte_setBytes_ne _ _ _ _ (by omega)]; simp
    | succ k =>
      have := ih (s.setByte a x) (a + 1) k (by simpa using h)
      rw [show a + (k + 1) = a + 1 + k by omega, this]; simp

/-- The canonical form survives a byte written, a row of bytes written, and a range zeroed. -/
theorem Memory.wf_setByte (s : State) (a : Nat) (b : Byte) (h : Memory.wf s.mem = true) : Memory.wf (s.setByte a b).mem = true :=
  Sparse.wf_set _ _ _ _ _ h

theorem Memory.wf_setBytes (l : List Byte) (s : State) (a : Nat) (h : Memory.wf s.mem = true) : Memory.wf (s.setBytes a l).mem = true := by
  induction l generalizing s a with
  | nil => exact h
  | cons x l ih => exact ih _ _ (Memory.wf_setByte _ _ _ h)

theorem Memory.wf_zeroRange (s : State) (a n : Nat) (h : Memory.wf s.mem = true) : Memory.wf (s.zeroRange a n).mem = true :=
  Sparse.wf_filter _ _ _ _ h

end Sys2Proof.Machine
end

