-- ==== Sys2Proof/Laws/Events.lean ====
section
/-! SUPPORT. Recording an event moves only the event recorder. -/

namespace Sys2Proof.Machine

theorem Recorded.refl (s : State) : Recorded s s := by
  constructor <;> intros <;> rfl

theorem Recorded.trans {s t u : State} (h : Recorded s t) (k : Recorded t u) : Recorded s u := by
  constructor
  case reg => intro n i j e; rw [k.reg n i j e, h.reg n i j e]
  case parts => intro p; rw [k.parts, h.parts]
  all_goals simp only [k.pending, k.latched, k.shadowLatched, k.mem, k.general, k.hsc, k.hartBlocks, k.poison, k.overflows, k.tailMem, k.fills,
    k.filledRegions, k.rows, k.generations, k.rings, k.dies, k.squares, k.hosts, k.quads, k.poolLines, k.exchanges, k.e2eMisses,
    k.fencedModules, k.clock, k.referee, k.flash, k.pins, k.power, k.jtag, k.barred, k.answer, h.pending, h.latched, h.shadowLatched, h.mem,
    h.general, h.hsc, h.hartBlocks, h.poison, h.overflows, h.tailMem, h.fills, h.filledRegions, h.rows, h.generations, h.rings, h.dies,
    h.squares, h.hosts, h.quads, h.poolLines, h.exchanges, h.e2eMisses, h.fencedModules, h.clock, h.referee, h.flash, h.pins, h.power, h.jtag,
    h.barred, h.answer]

theorem Recorded.setReg (s : State) (n : RegName) (i j : Nat) (v : Word) (h : n.ofRecorder = true) : Recorded s (s.setReg n i j v) := by
  constructor
  case reg =>
    intro m k l e
    rw [State.reg_setReg, if_neg]
    rintro ⟨rfl, -, -⟩
    simp [h] at e
  case parts => intro p; rfl
  all_goals rfl

theorem Recorded.setRecorder (s : State) (r : Recorder) : Recorded s (s.setRecorder r) := by
  constructor <;> intros <;> rfl

theorem Recorded.modRecorder (s : State) (f : Recorder → Recorder) : Recorded s (s.modRecorder f) := Recorded.setRecorder ..

theorem Recorded.draw (s : State) : Recorded s s.draw.2 := by
  constructor <;> intros <;> rfl

theorem Recorded.modPart (s : State) (p : Nat) (f : Part → Part) (h : ∀ v, (f v).noView = v.noView) : Recorded s (s.modPart p f) := by
  constructor
  case reg => intros; rfl
  case parts => intro q; rw [State.part_modPart]; split <;> simp_all
  all_goals rfl

theorem Recorded.setField (s : State) (n : RegName) (i j lo k x : Nat) (h : n.ofRecorder = true) : Recorded s (s.setField n i j lo k x) :=
  Recorded.setReg _ _ _ _ _ h

theorem Recorded.setFlag (s : State) (n : RegName) (i j b : Nat) (x : Bool) (h : n.ofRecorder = true) : Recorded s (s.setFlag n i j b x) :=
  Recorded.setReg _ _ _ _ _ h

theorem Recorded.bump (s : State) (n : RegName) (i j k : Nat) (h : n.ofRecorder = true) : Recorded s (s.bump n i j k) :=
  Recorded.setReg _ _ _ _ _ h

theorem Recorded.foldl {α : Type} (f : State → α → State) (h : ∀ s a, Recorded s (f s a)) (l : List α) (s : State) : Recorded s (l.foldl f s) := by
  induction l generalizing s with
  | nil => exact Recorded.refl s
  | cons a l ih => exact (h s a).trans (ih _)

theorem Recorded.countUnflushed (s : State) : Recorded s s.countUnflushed := Recorded.setReg _ _ _ _ _ rfl

theorem Part.view_noView (v : Part) (r : Record) : (v.view r).noView = v.noView := rfl

theorem Recorded.viewRecord (s : State) (r : Record) : Recorded s (s.viewRecord r) := by
  unfold State.viewRecord
  split
  · exact Recorded.refl s
  · exact Recorded.foldl _ (fun s p => Recorded.modPart _ _ _ (fun v => Part.view_noView v r)) _ _

theorem Recorded.dropRecord (s : State) (r : Record) : Recorded s (s.dropRecord r) := by
  unfold State.dropRecord
  refine (Recorded.bump s .evLost 0 (sevCode r.report.sev) 1 rfl).trans (Recorded.foldl _ ?_ _ _)
  intro s p
  exact Recorded.modPart _ _ _ (fun _ => rfl)

theorem Recorded.logRecord (s : State) (r : Record) : Recorded s (s.logRecord r) := by
  unfold State.logRecord
  split
  · exact Recorded.modRecorder ..
  · exact Recorded.dropRecord ..

theorem Recorded.beginFlush (s : State) : Recorded s s.beginFlush := by
  unfold State.beginFlush
  split
  · exact Recorded.modRecorder ..
  · exact (Recorded.modRecorder ..).trans (Recorded.setFlag _ _ _ _ _ _ rfl)

/-- A choice between two ways that both only record. -/
theorem Recorded.ite {s t u : State} {c : Prop} [Decidable c] (h : Recorded s t) (k : Recorded s u) : Recorded s (if c then t else u) := by
  split
  · exact h
  · exact k

theorem Recorded.enterRing (s : State) (r : Record) : Recorded s (s.enterRing r) := by
  unfold State.enterRing
  extract_lets wt s1 r1 need ok
  have h1 : Recorded s s1 := Recorded.ite (Recorded.logRecord ..) (Recorded.refl s)
  refine h1.trans (Recorded.ite (Recorded.dropRecord ..) ?_)
  extract_lets lost s2 s3
  have h3 : Recorded s1 s3 := ((Recorded.modRecorder ..).trans (Recorded.viewRecord ..)).trans (Recorded.countUnflushed _)
  exact Recorded.ite (h3.trans (Recorded.beginFlush _)) h3

theorem Recorded.numberRecord (s : State) (r : Report) : Recorded s (s.numberRecord r) := by
  unfold State.numberRecord
  extract_lets x n f s1 s2
  refine Recorded.ite (Recorded.bump _ _ _ _ _ rfl) ?_
  have h : Recorded s s2 := (Recorded.modRecorder ..).trans (Recorded.setReg _ _ _ _ _ rfl)
  exact Recorded.ite (h.trans (Recorded.modRecorder ..)) (h.trans (Recorded.enterRing ..))

theorem Recorded.keepRecord (s : State) (r : Record) : Recorded s (s.keepRecord r) := by
  unfold State.keepRecord
  refine Recorded.ite ((Recorded.modRecorder ..).trans (Recorded.setField _ _ _ _ _ _ _ rfl)) ?_
  extract_lets s1 s2 s3
  have h : Recorded s s2 := (Recorded.setField _ _ _ _ _ _ _ rfl).trans (Recorded.setFlag _ _ _ _ _ _ rfl)
  exact Recorded.ite h ((h.trans (Recorded.modRecorder ..)).trans (Recorded.numberRecord ..))

theorem Recorded.accept (s : State) (r : Report) : Recorded s (s.accept r) := by
  unfold State.accept
  exact Recorded.ite ((Recorded.numberRecord ..).trans (Recorded.keepRecord ..)) (Recorded.numberRecord ..)

theorem Recorded.record (s : State) (r : Report) : Recorded s (s.record r) := by
  unfold State.record
  refine Recorded.ite (Recorded.accept ..) ?_
  split
  · exact (Recorded.modRecorder ..).trans (Recorded.accept ..)
  · extract_lets full w s1 s2
    have h : Recorded s s1 := Recorded.modRecorder ..
    refine Recorded.ite ((h.trans (Recorded.bump _ _ _ _ _ rfl)).trans (Recorded.foldl _ ?_ _ _)) (h.trans (Recorded.accept ..))
    intro s p
    exact Recorded.modPart _ _ _ (fun _ => rfl)

theorem Recorded.report (s : State) (r : Report) : Recorded s (s.report r) := by
  unfold State.report
  exact Recorded.ite (Recorded.record ..) (Recorded.ite (Recorded.modRecorder ..)
    ((Recorded.modRecorder ..).trans (Recorded.bump _ _ _ _ _ rfl)))

/-- Recording an event moves only the event recorder. -/
theorem Recorded.event (s : State) (block ev : Nat) (sev : Severity) (part : Option Nat) (source : Nat) (payload : List Byte) :
    Recorded s (s.event block ev sev part source payload) := Recorded.report ..

theorem Recorded.eventAny (s : State) (block ev : Nat) (part : Option Nat) (source : Nat) (payload : List Byte) :
    Recorded s (s.eventAny block ev part source payload) := (Recorded.draw s).trans (Recorded.event ..)

theorem Recorded.event7F (s : State) (sev : Severity) (part : Option Nat) (source : Nat) (n : RegName) (i j : Nat) (more : List Byte) :
    Recorded s (s.event7F sev part source n i j more) := Recorded.event ..

theorem Recorded.eventStatus (s : State) (block : Nat) (st : Status) (sev : Severity) (part : Option Nat) (source : Nat) (payload : List Byte) :
    Recorded s (s.eventStatus block st sev part source payload) := Recorded.event ..

theorem Recorded.safety (s : State) (block ev : Nat) (part : Option Nat) (source unit : Nat) :
    Recorded s (s.safety block ev part source unit) := Recorded.event ..

theorem Recorded.dropped (s : State) (block ev : Nat) (part : Option Nat) (source addr : Nat) :
    Recorded s (s.dropped block ev part source addr) := Recorded.event ..

theorem Recorded.decision (s : State) (p : Nat) (n : RegName) (turn : Word) : Recorded s (s.decision p n turn) := Recorded.event7F ..

end Sys2Proof.Machine
end

