-- ==== Sys2Proof/Laws/Mailbox.lean ====
section
/-! SUPPORT. Taking a mailbox command: what entering it in the journal leaves, and what a command taken or refused does. -/

namespace Sys2Proof.Machine

@[simp] theorem State.enterCommand_reg (s : State) (c : Cmd) (w : MailRow) (n : RegName) (i j : Nat) :
    (s.enterCommand c w).reg n i j = s.reg n i j := by
  unfold State.enterCommand; dsimp only; split <;> rfl

@[simp] theorem State.enterCommand_flag (s : State) (c : Cmd) (w : MailRow) (n : RegName) (i j b : Nat) :
    (s.enterCommand c w).flag n i j b = s.flag n i j b := by simp [State.flag]

@[simp] theorem State.enterCommand_field (s : State) (c : Cmd) (w : MailRow) (n : RegName) (i j b k : Nat) :
    (s.enterCommand c w).field n i j b k = s.field n i j b k := by simp [State.field]

@[simp] theorem State.enterCommand_flash (s : State) (c : Cmd) (w : MailRow) : (s.enterCommand c w).flash = s.flash := by
  unfold State.enterCommand; dsimp only; split <;> rfl

@[simp] theorem State.enterCommand_parts (s : State) (c : Cmd) (w : MailRow) : (s.enterCommand c w).parts = s.parts := by
  unfold State.enterCommand; dsimp only; split <;> rfl

@[simp] theorem State.enterCommand_part (s : State) (c : Cmd) (w : MailRow) (p : Nat) : (s.enterCommand c w).part p = s.part p := by
  simp [State.part]

@[simp] theorem State.enterCommand_dies (s : State) (c : Cmd) (w : MailRow) : (s.enterCommand c w).dies = s.dies := by
  unfold State.enterCommand; dsimp only; split <;> rfl

@[simp] theorem State.enterCommand_quads (s : State) (c : Cmd) (w : MailRow) : (s.enterCommand c w).quads = s.quads := by
  unfold State.enterCommand; dsimp only; split <;> rfl

@[simp] theorem State.enterCommand_mem (s : State) (c : Cmd) (w : MailRow) : (s.enterCommand c w).mem = s.mem := by
  unfold State.enterCommand; dsimp only; split <;> rfl

@[simp] theorem State.enterCommand_clock (s : State) (c : Cmd) (w : MailRow) : (s.enterCommand c w).clock = s.clock := by
  unfold State.enterCommand; dsimp only; split <;> rfl

@[simp] theorem State.enterCommand_power (s : State) (c : Cmd) (w : MailRow) : (s.enterCommand c w).power = s.power := by
  unfold State.enterCommand; dsimp only; split <;> rfl

@[simp] theorem State.enterCommand_recorder (s : State) (c : Cmd) (w : MailRow) : (s.enterCommand c w).recorder = s.recorder := by
  unfold State.enterCommand; dsimp only; split <;> rfl

@[simp] theorem State.enterCommand_fresh (s : State) (c : Cmd) (w : MailRow) : (s.enterCommand c w).fresh = s.fresh := by
  unfold State.enterCommand; dsimp only; split <;> rfl

@[simp] theorem State.enterCommand_now (s : State) (c : Cmd) (w : MailRow) (q : Nat) : (s.enterCommand c w).now q = s.now q := by
  simp [State.now]

@[simp] theorem State.enterCommand_formed (s : State) (c : Cmd) (w : MailRow) (p : Nat) : (s.enterCommand c w).formed p = s.formed p := by
  simp [State.formed]

@[simp] theorem State.enterCommand_pathLevel (s : State) (c c' : Cmd) (w : MailRow) : (s.enterCommand c w).pathLevel c' = s.pathLevel c' := by
  unfold State.pathLevel; split <;> simp

@[simp] theorem State.enterCommand_refusal (s : State) (c c' : Cmd) (w w' : MailRow) (b : Bool) :
    (s.enterCommand c w).refusal c' w' b = s.refusal c' w' b := by
  simp only [State.refusal, enterCommand_pathLevel, enterCommand_formed, State.partFenced, State.dissolving, enterCommand_flag]
  congr

/-- A command that is taken does its own effect on the state that has entered it. -/
theorem State.take_of_taken {s : State} {c : Cmd} {w : MailRow} {b : Bool} (h : s.taken c w b) (go : Nat → State → State) :
    s.take c w b go = go c.target.toNat (s.enterCommand c w) := by
  simp [State.take, h.1, h.2]

/-- A command that the checks refuse completes with the status of the first that fails. -/
theorem State.take_of_refused {s : State} {c : Cmd} {w : MailRow} {b : Bool} {st : Status} (ha : s.accepts c = true)
    (h : s.refusal c w b = some st) (go : Nat → State → State) :
    s.take c w b go = (s.enterCommand c w).complete c w.opcode st := by
  simp [State.take, ha, h]

/-- A command that is not accepted has no effect. -/
theorem State.take_of_not_accepted {s : State} {c : Cmd} {w : MailRow} {b : Bool} (h : s.accepts c = false) (go : Nat → State → State) :
    s.take c w b go = s := by
  simp [State.take, h]

end Sys2Proof.Machine
end

