-- ==== Sys2Proof/Laws/MemCore.lean ====
section
/-! SUPPORT. Memory keeps its canonical form (Memory.wf, State.memOk) through each function of Ops, Events, Memory, DieMem, Registers, Completion, Access, Pages and StreamOps: one lemma per
function that answers a state, and for a function that answers a state with something else a second one, marked with a prime, that takes
the answer as an equation. -/

namespace Sys2Proof.Machine

set_option linter.unusedTactic false
set_option linter.unreachableTactic false
set_option linter.unusedVariables false

/-! Ops -/

theorem ite_memOk {c : Prop} [Decidable c] {a b : State} (ha : a.memOk) (hb : b.memOk) : (if c then a else b).memOk := by
  split <;> assumption



theorem foldl_memOk {α : Type} {f : State → α → State} {l : List α} {s : State} (hf : ∀ s a, s.memOk → (f s a).memOk) (h : s.memOk) :
    (l.foldl f s).memOk := by
  induction l generalizing s with
  | nil => exact h
  | cons a l ih => exact ih (hf s a h)



theorem foldl_fst_memOk {α β : Type} {f : State × β → α → State × β} {l : List α} {x : State × β} (hf : ∀ x a, x.1.memOk → (f x a).1.memOk)
    (h : x.1.memOk) : (l.foldl f x).1.memOk := by
  induction l generalizing x with
  | nil => exact h
  | cons a l ih => exact ih (hf x a h)



theorem foldl_fst_memOk' {α β : Type} {f : State × β → α → State × β} {l : List α} {x : State × β} {t : State} {r : β} (e : l.foldl f x = (t, r))
    (hf : ∀ x a, x.1.memOk → (f x a).1.memOk) (h : x.1.memOk) : t.memOk := by
  have k := foldl_fst_memOk (l := l) hf h
  rw [e] at k
  exact k

/-- What an operation that can end early leaves, if it ends well. -/
structure OkMem {ε β : Type} (x : Except ε (State × β)) : Prop where
  mem : ∀ t r, x = .ok (t, r) → t.memOk

theorem okMem_error {ε β : Type} {e : ε} : OkMem (.error e : Except ε (State × β)) := ⟨fun _ _ h => by cases h⟩



theorem okMem_ok {ε β : Type} {s : State} {r : β} (h : s.memOk) : OkMem (.ok (s, r) : Except ε (State × β)) := ⟨fun _ _ e => by
  cases e
  exact h⟩



theorem okMem_elim {ε β : Type} {s : State} {r : β} (h : OkMem (.ok (s, r) : Except ε (State × β))) : s.memOk := h.mem s r rfl



theorem okMem_mem {ε β : Type} {x : Except ε (State × β)} {t : State} {r : β} (e : x = .ok (t, r)) (h : OkMem x) : t.memOk := h.mem t r e



theorem pair_memOk {β : Type} {x : State × β} {t : State} {r : β} (e : x = (t, r)) (h : x.1.memOk) : t.memOk := by
  rw [e] at h
  exact h



theorem foldl_okMem {α ε β : Type} {f : Except ε (State × β) → α → Except ε (State × β)} {l : List α} {x : Except ε (State × β)}
    (hf : ∀ x a, OkMem x → OkMem (f x a)) (h : OkMem x) : OkMem (l.foldl f x) := by
  induction l generalizing x with
  | nil => exact h
  | cons a l ih => exact ih (hf x a h)



theorem foldl_okState {α ε : Type} {f : Except ε State → α → Except ε State} {l : List α} {x : Except ε State}
    (hf : ∀ x a, (∀ u, x = .ok u → u.memOk) → ∀ u, f x a = .ok u → u.memOk) (h : ∀ u, x = .ok u → u.memOk) :
    ∀ u, l.foldl f x = .ok u → u.memOk := by
  induction l generalizing x with
  | nil => exact h
  | cons a l ih => exact ih (hf x a h)

theorem State.setReg_memOk (s : State) (n : RegName) (i j : Nat) (v : Word) (hs : s.memOk) : (State.setReg s n i j v).memOk := by
  unfold State.setReg
  with_reducible repeat' first
    | assumption | apply ite_memOk | dsimp only | split

theorem State.latchReg_memOk (s : State) (n : RegName) (i j : Nat) (v : Word) (hs : s.memOk) : (State.latchReg s n i j v).memOk := by
  unfold State.latchReg
  with_reducible repeat' first
    | assumption | apply ite_memOk | dsimp only | split

theorem State.setBoth_memOk (s : State) (n : RegName) (i j : Nat) (v : Word) (hs : s.memOk) : (State.setBoth s n i j v).memOk := by
  unfold State.setBoth
  with_reducible repeat' first
    | assumption | apply State.latchReg_memOk | apply State.setReg_memOk | dsimp only

theorem State.bump_memOk (s : State) (n : RegName) (i : Nat) (j : Nat) (k : Nat) (hs : s.memOk) : (State.bump s n i j k).memOk := by
  unfold State.bump
  with_reducible repeat' first
    | assumption | apply State.setReg_memOk | dsimp only

theorem State.setField_memOk (s : State) (r : RegName) (i j lo n x : Nat) (hs : s.memOk) : (State.setField s r i j lo n x).memOk := by
  unfold State.setField
  with_reducible repeat' first
    | assumption | apply State.setReg_memOk | dsimp only

theorem State.setFlag_memOk (s : State) (r : RegName) (i j b : Nat) (x : Bool) (hs : s.memOk) : (State.setFlag s r i j b x).memOk := by
  unfold State.setFlag
  with_reducible repeat' first
    | assumption | apply State.setReg_memOk | dsimp only

theorem State.setPart_memOk (s : State) (p : Nat) (v : Part) (hs : s.memOk) : (State.setPart s p v).memOk := by
  unfold State.setPart
  with_reducible repeat' first
    | assumption | dsimp only

theorem State.modPart_memOk (s : State) (p : Nat) (f : Part → Part) (hs : s.memOk) : (State.modPart s p f).memOk := by
  unfold State.modPart
  with_reducible repeat' first
    | assumption | apply State.setPart_memOk | dsimp only

theorem State.setDie_memOk (s : State) (i : Nat) (v : Die) (hs : s.memOk) : (State.setDie s i v).memOk := by
  unfold State.setDie
  with_reducible repeat' first
    | assumption | dsimp only

theorem State.modDie_memOk (s : State) (i : Nat) (f : Die → Die) (hs : s.memOk) : (State.modDie s i f).memOk := by
  unfold State.modDie
  with_reducible repeat' first
    | assumption | apply State.setDie_memOk | dsimp only

theorem State.setSquare_memOk (s : State) (q : Nat) (v : Square) (hs : s.memOk) : (State.setSquare s q v).memOk := by
  unfold State.setSquare
  with_reducible repeat' first
    | assumption | dsimp only

theorem State.modSquare_memOk (s : State) (q : Nat) (f : Square → Square) (hs : s.memOk) : (State.modSquare s q f).memOk := by
  unfold State.modSquare
  with_reducible repeat' first
    | assumption | apply State.setSquare_memOk | dsimp only

theorem State.setHost_memOk (s : State) (h : Nat) (v : HostDie) (hs : s.memOk) : (State.setHost s h v).memOk := by
  unfold State.setHost
  with_reducible repeat' first
    | assumption | dsimp only

theorem State.modHost_memOk (s : State) (h : Nat) (f : HostDie → HostDie) (hs : s.memOk) : (State.modHost s h f).memOk := by
  unfold State.modHost
  with_reducible repeat' first
    | assumption | apply State.setHost_memOk | dsimp only

theorem State.setQuad_memOk (s : State) (n : Nat) (v : Quad) (hs : s.memOk) : (State.setQuad s n v).memOk := by
  unfold State.setQuad
  with_reducible repeat' first
    | assumption | dsimp only

theorem State.modQuad_memOk (s : State) (n : Nat) (f : Quad → Quad) (hs : s.memOk) : (State.modQuad s n f).memOk := by
  unfold State.modQuad
  with_reducible repeat' first
    | assumption | apply State.setQuad_memOk | dsimp only

theorem State.setRing_memOk (s : State) (p n : Nat) (v : Ring) (hs : s.memOk) : (State.setRing s p n v).memOk := by
  unfold State.setRing
  with_reducible repeat' first
    | assumption | dsimp only

theorem State.modRing_memOk (s : State) (p n : Nat) (f : Ring → Ring) (hs : s.memOk) : (State.modRing s p n f).memOk := by
  unfold State.modRing
  with_reducible repeat' first
    | assumption | apply State.setRing_memOk | dsimp only

theorem State.setRow_memOk (s : State) (slot : Nat) (v : StreamEntry) (hs : s.memOk) : (State.setRow s slot v).memOk := by
  unfold State.setRow
  with_reducible repeat' first
    | assumption | dsimp only

theorem State.draw_memOk (s : State) (hs : s.memOk) : (State.draw s).2.memOk := by
  unfold State.draw
  with_reducible repeat' first
    | assumption | dsimp only

theorem State.draw_memOk' {s : State} {x0 : Word} {t : State} (eqn : State.draw s = (x0, t)) (hs : s.memOk) : t.memOk := by
  have k := State.draw_memOk s hs
  rw [eqn] at k
  exact k

theorem State.drawBool_memOk (s : State) (hs : s.memOk) : (State.drawBool s).2.memOk := by
  unfold State.drawBool
  with_reducible repeat' first
    | assumption | dsimp only

theorem State.drawBool_memOk' {s : State} {x0 : Bool} {t : State} (eqn : State.drawBool s = (x0, t)) (hs : s.memOk) : t.memOk := by
  have k := State.drawBool_memOk s hs
  rw [eqn] at k
  exact k

theorem State.setSiteOut_memOk (s : State) (i : Nat) (b : Bool) (hs : s.memOk) : (State.setSiteOut s i b).memOk := by
  unfold State.setSiteOut
  with_reducible repeat' first
    | assumption | apply ite_memOk | apply State.setFlag_memOk | dsimp only | split

theorem State.setRowMap_memOk (s : State) (i row v : Nat) (hs : s.memOk) : (State.setRowMap s i row v).memOk := by
  unfold State.setRowMap
  with_reducible repeat' first
    | assumption | apply ite_memOk | apply State.setField_memOk | dsimp only | split

theorem State.setSpareBad_memOk (s : State) (i row : Nat) (hs : s.memOk) : (State.setSpareBad s i row).memOk := by
  unfold State.setSpareBad
  with_reducible repeat' first
    | assumption | apply ite_memOk | apply State.setFlag_memOk | dsimp only | split

theorem State.setSiteState_memOk (s : State) (i : Nat) (v : SiteState) (hs : s.memOk) : (State.setSiteState s i v).memOk := by
  unfold State.setSiteState
  with_reducible repeat' first
    | assumption | dsimp only

theorem State.setPhase_memOk (s : State) (p x : Nat) (hs : s.memOk) : (State.setPhase s p x).memOk := by
  unfold State.setPhase
  with_reducible repeat' first
    | assumption | apply State.setField_memOk | dsimp only

theorem State.setByte_memOk (s : State) (a : Nat) (b : Byte) (h : s.memOk) : (s.setByte a b).memOk := Sparse.wf_set _ _ _ _ _ h

theorem State.setBytes_memOk (s : State) (a : Nat) (l : List Byte) (hs : s.memOk) : (State.setBytes s a l).memOk := Memory.wf_setBytes l s a hs

theorem State.zeroRange_memOk (s : State) (a n : Nat) (h : s.memOk) : (s.zeroRange a n).memOk := Sparse.wf_filter _ _ _ _ h

theorem State.alert_memOk (s : State) (hs : s.memOk) : (State.alert s).memOk := by
  unfold State.alert
  with_reducible repeat' first
    | assumption | dsimp only

theorem State.releaseAlert_memOk (s : State) (hs : s.memOk) : (State.releaseAlert s).memOk := by
  unfold State.releaseAlert
  with_reducible repeat' first
    | assumption | apply ite_memOk | dsimp only | split

/-! Events -/

theorem State.setRecorder_memOk (s : State) (r : Recorder) (hs : s.memOk) : (State.setRecorder s r).memOk := by
  unfold State.setRecorder
  with_reducible repeat' first
    | assumption | dsimp only

theorem State.modRecorder_memOk (s : State) (f : Recorder → Recorder) (hs : s.memOk) : (State.modRecorder s f).memOk := by
  unfold State.modRecorder
  with_reducible repeat' first
    | assumption | apply State.setRecorder_memOk | dsimp only

theorem State.countUnflushed_memOk (s : State) (hs : s.memOk) : (State.countUnflushed s).memOk := by
  unfold State.countUnflushed
  with_reducible repeat' first
    | assumption | apply State.setReg_memOk | intro _ _ _ | intro _ _ | intro _ | dsimp only

theorem State.viewRecord_memOk (s : State) (r : Record) (hs : s.memOk) : (State.viewRecord s r).memOk := by
  unfold State.viewRecord
  with_reducible repeat' first
    | assumption | apply ite_memOk | apply State.modPart_memOk | apply foldl_memOk | apply foldl_fst_memOk | intro _ _ _ | intro _ _
    | intro _ | dsimp only | split

theorem State.dropRecord_memOk (s : State) (r : Record) (hs : s.memOk) : (State.dropRecord s r).memOk := by
  unfold State.dropRecord
  with_reducible repeat' first
    | assumption | apply State.bump_memOk | apply State.modPart_memOk | apply foldl_memOk | apply foldl_fst_memOk | intro _ _ _ | intro _ _
    | intro _ | dsimp only

theorem State.logRecord_memOk (s : State) (r : Record) (hs : s.memOk) : (State.logRecord s r).memOk := by
  unfold State.logRecord
  with_reducible repeat' first
    | assumption | apply State.dropRecord_memOk | apply State.modRecorder_memOk | intro _ _ _ | intro _ _ | intro _ | dsimp only | split

theorem State.beginFlush_memOk (s : State) (hs : s.memOk) : (State.beginFlush s).memOk := by
  unfold State.beginFlush
  with_reducible repeat' first
    | assumption | apply ite_memOk | apply State.modRecorder_memOk | apply State.setFlag_memOk | intro _ _ _ | intro _ _ | intro _
    | dsimp only | split

theorem State.enterRing_memOk (s : State) (r : Record) (hs : s.memOk) : (State.enterRing s r).memOk := by
  unfold State.enterRing
  with_reducible repeat' first
    | assumption | apply ite_memOk | apply State.beginFlush_memOk | apply State.countUnflushed_memOk | apply State.dropRecord_memOk
    | apply State.logRecord_memOk | apply State.modRecorder_memOk | apply State.viewRecord_memOk | intro _ _ _ | intro _ _ | intro _
    | dsimp only | split

theorem State.numberRecord_memOk (s : State) (r : Report) (hs : s.memOk) : (State.numberRecord s r).memOk := by
  unfold State.numberRecord
  with_reducible repeat' first
    | assumption | apply ite_memOk | apply State.bump_memOk | apply State.enterRing_memOk | apply State.modRecorder_memOk
    | apply State.setReg_memOk | intro _ _ _ | intro _ _ | intro _ | dsimp only | split

theorem State.keepRecord_memOk (s : State) (r : Record) (hs : s.memOk) : (State.keepRecord s r).memOk := by
  unfold State.keepRecord
  with_reducible repeat' first
    | assumption | apply ite_memOk | apply State.modRecorder_memOk | apply State.numberRecord_memOk | apply State.setField_memOk
    | apply State.setFlag_memOk | intro _ _ _ | intro _ _ | intro _ | dsimp only | split

theorem State.accept_memOk (s : State) (r : Report) (hs : s.memOk) : (State.accept s r).memOk := by
  unfold State.accept
  with_reducible repeat' first
    | assumption | apply ite_memOk | apply State.keepRecord_memOk | apply State.numberRecord_memOk | dsimp only | split

theorem State.record_memOk (s : State) (r : Report) (hs : s.memOk) : (State.record s r).memOk := by
  unfold State.record
  with_reducible repeat' first
    | assumption | apply ite_memOk | apply State.accept_memOk | apply State.bump_memOk | apply State.modPart_memOk
    | apply State.modRecorder_memOk | apply foldl_memOk | apply foldl_fst_memOk | intro _ _ _ | intro _ _ | intro _ | dsimp only | split

theorem State.report_memOk (s : State) (r : Report) (hs : s.memOk) : (State.report s r).memOk := by
  unfold State.report
  with_reducible repeat' first
    | assumption | apply State.bump_memOk | apply State.modRecorder_memOk | apply State.record_memOk | apply ite_memOk | apply foldl_memOk
    | apply foldl_fst_memOk | apply foldl_okMem | apply okMem_ok | apply okMem_error | refine okMem_elim (by assumption) | intro _ _ _
    | intro _ _ | intro _ | dsimp only | split

theorem State.event_memOk (s : State) (block ev : Nat) (sev : Severity) (part : Option Nat) (source : Nat) (payload : List Byte) (hs : s.memOk) : (State.event s block ev sev part source payload).memOk := by
  unfold State.event
  with_reducible repeat' first
    | assumption | apply State.report_memOk | dsimp only

theorem State.drawSeverity_memOk (s : State) (hs : s.memOk) : (State.drawSeverity s).2.memOk := by
  unfold State.drawSeverity
  with_reducible repeat' first
    | assumption | apply State.draw_memOk | refine State.draw_memOk' (by assumption) ?_ | dsimp only | split

theorem State.drawSeverity_memOk' {s : State} {x0 : Severity} {t : State} (eqn : State.drawSeverity s = (x0, t)) (hs : s.memOk) : t.memOk := by
  have k := State.drawSeverity_memOk s hs
  rw [eqn] at k
  exact k

theorem State.eventAny_memOk (s : State) (block ev : Nat) (part : Option Nat) (source : Nat) (payload : List Byte) (hs : s.memOk) : (State.eventAny s block ev part source payload).memOk := by
  unfold State.eventAny
  with_reducible repeat' first
    | assumption | apply State.drawSeverity_memOk | refine State.drawSeverity_memOk' (by assumption) ?_ | apply State.event_memOk
    | dsimp only | split

theorem State.event7F_memOk (s : State) (sev : Severity) (part : Option Nat) (source : Nat) (n : RegName) (i j : Nat) (more : List Byte) (hs : s.memOk) : (State.event7F s sev part source n i j more).memOk := by
  unfold State.event7F
  with_reducible repeat' first
    | assumption | apply State.event_memOk | dsimp only

theorem State.event7FAny_memOk (s : State) (part : Option Nat) (source : Nat) (n : RegName) (i j : Nat) (more : List Byte) (hs : s.memOk) : (State.event7FAny s part source n i j more).memOk := by
  unfold State.event7FAny
  with_reducible repeat' first
    | assumption | apply State.drawSeverity_memOk | refine State.drawSeverity_memOk' (by assumption) ?_ | apply State.event7F_memOk
    | apply ite_memOk | apply foldl_memOk | apply foldl_fst_memOk | apply foldl_okMem | apply okMem_ok | apply okMem_error
    | refine okMem_elim (by assumption) | intro _ _ _ | intro _ _ | intro _ | dsimp only | split

theorem State.eventStatus_memOk (s : State) (block : Nat) (st : Status) (sev : Severity) (part : Option Nat) (source : Nat) (payload : List Byte) (hs : s.memOk) : (State.eventStatus s block st sev part source payload).memOk := by
  unfold State.eventStatus
  with_reducible repeat' first
    | assumption | apply State.event_memOk | dsimp only

theorem State.safety_memOk (s : State) (block ev : Nat) (part : Option Nat) (source : Nat) (unit : Nat) (hs : s.memOk) : (State.safety s block ev part source unit).memOk := by
  unfold State.safety
  with_reducible repeat' first
    | assumption | apply State.event_memOk | dsimp only

theorem State.dropped_memOk (s : State) (block ev : Nat) (part : Option Nat) (source addr : Nat) (hs : s.memOk) : (State.dropped s block ev part source addr).memOk := by
  unfold State.dropped
  with_reducible repeat' first
    | assumption | apply State.event_memOk | dsimp only

theorem State.decision_memOk (s : State) (p : Nat) (n : RegName) (turn : Word) (hs : s.memOk) : (State.decision s p n turn).memOk := by
  unfold State.decision
  with_reducible repeat' first
    | assumption | apply State.event7F_memOk | dsimp only

/-! Memory -/

theorem State.setPoison_memOk (s : State) (b : Nat) (x : Bool) (hs : s.memOk) : (State.setPoison s b x).memOk := by
  unfold State.setPoison
  with_reducible repeat' first
    | assumption | apply ite_memOk | intro _ _ _ | intro _ _ | intro _ | dsimp only | split

theorem State.breakReservations_memOk (s : State) (ok : Nat → Bool) (hs : s.memOk) : (State.breakReservations s ok).memOk := by
  unfold State.breakReservations
  with_reducible repeat' first
    | assumption | apply ite_memOk | apply State.modHost_memOk | apply foldl_memOk | apply foldl_fst_memOk | intro _ _ _ | intro _ _
    | intro _ | dsimp only | split

theorem State.fillLines_memOk (s : State) (first count : Nat) (hs : s.memOk) : (State.fillLines s first count).memOk := by
  unfold State.fillLines
  with_reducible repeat' first
    | assumption | apply State.breakReservations_memOk | apply State.zeroRange_memOk | intro _ _ _ | intro _ _ | intro _ | dsimp only
    | split

theorem State.applyFill_memOk (s : State) (line : Nat) (hs : s.memOk) : (State.applyFill s line).memOk := by
  unfold State.applyFill
  with_reducible repeat' first
    | assumption | apply ite_memOk | apply State.fillLines_memOk | intro _ _ _ | intro _ _ | intro _ | dsimp only | split

theorem State.queueFill_memOk (s : State) (first count : Nat) (hs : s.memOk) : (State.queueFill s first count).memOk := by
  unfold State.queueFill
  with_reducible repeat' first
    | assumption | apply ite_memOk | dsimp only | split

theorem State.sealPage_memOk (s : State) (page : Nat) (turn : Word) (hs : s.memOk) : (State.sealPage s page turn).memOk := by
  unfold State.sealPage
  with_reducible repeat' first
    | assumption | apply State.modSquare_memOk | apply foldl_memOk | apply foldl_fst_memOk | intro _ _ _ | intro _ _ | intro _ | dsimp only

theorem State.sealDrop_memOk (s : State) (a : Nat) (hs : s.memOk) : (State.sealDrop s a).memOk := by
  unfold State.sealDrop
  with_reducible repeat' first
    | assumption | apply ite_memOk | apply State.bump_memOk | dsimp only | split

theorem State.liftSeals_memOk (s : State) (p : Nat) (turn : Word) (hs : s.memOk) : (State.liftSeals s p turn).memOk := by
  unfold State.liftSeals
  with_reducible repeat' first
    | assumption | apply State.modSquare_memOk | apply foldl_memOk | apply foldl_fst_memOk | intro _ _ _ | intro _ _ | intro _ | dsimp only
    | split

theorem State.putBlock_memOk (s : State) (b : Nat) (d : List Byte) (hs : s.memOk) : (State.putBlock s b d).memOk := by
  unfold State.putBlock
  with_reducible repeat' first
    | assumption | apply State.setBytes_memOk | dsimp only

theorem State.writeBackLine_memOk (s : State) (line : Nat) (c : CacheCopy) (hs : s.memOk) : (State.writeBackLine s line c).memOk := by
  unfold State.writeBackLine
  with_reducible repeat' first
    | assumption | apply ite_memOk | apply State.bump_memOk | apply State.putBlock_memOk | apply State.setPoison_memOk | apply foldl_memOk
    | apply foldl_fst_memOk | intro _ _ _ | intro _ _ | intro _ | dsimp only | split

theorem State.dramUe_memOk (s : State) (line pos : Nat) (requester : Nat) (hs : s.memOk) : (State.dramUe s line pos requester).memOk := by
  unfold State.dramUe
  with_reducible repeat' first
    | assumption | apply State.bump_memOk | apply State.eventStatus_memOk | apply State.setReg_memOk | dsimp only

theorem State.sramUe_memOk (s : State) (n : RegName) (i square addr requester : Nat) (hs : s.memOk) : (State.sramUe s n i square addr requester).memOk := by
  unfold State.sramUe
  with_reducible repeat' first
    | assumption | apply State.bump_memOk | apply State.eventStatus_memOk | apply ite_memOk | apply foldl_memOk | apply foldl_fst_memOk
    | apply foldl_okMem | apply okMem_ok | apply okMem_error | refine okMem_elim (by assumption) | intro _ _ _ | intro _ _ | intro _
    | dsimp only | split

theorem State.sliceUe_memOk (s : State) (q addr requester : Nat) (hs : s.memOk) : (State.sliceUe s q addr requester).memOk := by
  unfold State.sliceUe
  with_reducible repeat' first
    | assumption | apply State.sramUe_memOk | apply ite_memOk | apply foldl_memOk | apply foldl_fst_memOk | apply foldl_okMem
    | apply okMem_ok | apply okMem_error | refine okMem_elim (by assumption) | intro _ _ _ | intro _ _ | intro _ | dsimp only | split

theorem State.computeCopy_memOk (s : State) (line : Nat) (hs : s.memOk) : (State.computeCopy s line).1.memOk := by
  unfold State.computeCopy
  with_reducible repeat' first
    | assumption | apply ite_memOk | apply State.applyFill_memOk | dsimp only | split

theorem State.computeCopy_memOk' {s : State} {line : Nat} {t : State} {x1 : CacheCopy} (eqn : State.computeCopy s line = (t, x1)) (hs : s.memOk) : t.memOk :=
  pair_memOk eqn (State.computeCopy_memOk s line hs)

theorem State.computeReadIn_memOk (s : State) (line off n requester : Nat) (hs : s.memOk) : (State.computeReadIn s line off n requester).1.memOk := by
  unfold State.computeReadIn
  with_reducible repeat' first
    | assumption | apply ite_memOk | apply State.applyFill_memOk | apply State.computeCopy_memOk
    | refine State.computeCopy_memOk' (by assumption) ?_ | apply State.dramUe_memOk | apply State.sliceUe_memOk | apply foldl_okMem
    | apply okMem_ok | apply okMem_error | refine okMem_elim (by assumption) | intro _ _ _ | intro _ _ | intro _ | dsimp only | split

theorem State.computeReadIn_memOk' {s : State} {line off n requester : Nat} {t : State} {x1 : Except Status (List Byte)} (eqn : State.computeReadIn s line off n requester = (t, x1)) (hs : s.memOk) : t.memOk :=
  pair_memOk eqn (State.computeReadIn_memOk s line off n requester hs)

theorem State.computeWriteIn_memOk (s : State) (line off : Nat) (d : List Byte) (hs : s.memOk) : (State.computeWriteIn s line off d).memOk := by
  unfold State.computeWriteIn
  with_reducible repeat' first
    | assumption | apply State.computeCopy_memOk | refine State.computeCopy_memOk' (by assumption) ?_ | apply foldl_memOk
    | apply foldl_fst_memOk | intro _ _ _ | intro _ _ | intro _ | dsimp only | split

theorem State.computeRead_memOk (s : State) (a n requester : Nat) (hs : s.memOk) : (State.computeRead s a n requester).1.memOk := by
  unfold State.computeRead
  with_reducible repeat' first
    | assumption | apply State.computeReadIn_memOk | refine State.computeReadIn_memOk' (by assumption) ?_ | apply foldl_memOk
    | apply foldl_fst_memOk | apply foldl_okMem | apply okMem_ok | apply okMem_error | refine okMem_elim (by assumption) | intro _ _ _
    | intro _ _ | intro _ | dsimp only | split

theorem State.computeRead_memOk' {s : State} {a n requester : Nat} {t : State} {x1 : Except Status (List Byte)} (eqn : State.computeRead s a n requester = (t, x1)) (hs : s.memOk) : t.memOk :=
  pair_memOk eqn (State.computeRead_memOk s a n requester hs)

theorem State.computeWrite_memOk (s : State) (a : Nat) (d : List Byte) (hs : s.memOk) : (State.computeWrite s a d).memOk := by
  unfold State.computeWrite
  with_reducible repeat' first
    | assumption | apply State.computeWriteIn_memOk | apply foldl_memOk | apply foldl_fst_memOk | intro _ _ _ | intro _ _ | intro _
    | dsimp only

theorem State.stateWrite_memOk (s : State) (a : Nat) (d : List Byte) (hs : s.memOk) : (State.stateWrite s a d).memOk := by
  unfold State.stateWrite
  with_reducible repeat' first
    | assumption | apply ite_memOk | apply State.computeWrite_memOk | apply State.sealDrop_memOk | apply State.setBytes_memOk | dsimp only
    | split

theorem State.putHsc_memOk (s : State) (b : Nat) (c : CacheCopy) (hs : s.memOk) : (State.putHsc s b c).memOk := by
  unfold State.putHsc
  with_reducible repeat' first
    | assumption | dsimp only

theorem State.putHart_memOk (s : State) (h b : Nat) (c : CacheCopy) (hs : s.memOk) : (State.putHart s h b c).memOk := by
  unfold State.putHart
  with_reducible repeat' first
    | assumption | dsimp only

theorem State.cleanHart_memOk (s : State) (h b : Nat) (hs : s.memOk) : (State.cleanHart s h b).memOk := by
  unfold State.cleanHart
  with_reducible repeat' first
    | assumption | apply ite_memOk | apply State.putHart_memOk | apply State.putHsc_memOk | dsimp only | split

theorem State.dropHart_memOk (s : State) (h b : Nat) (hs : s.memOk) : (State.dropHart s h b).memOk := by
  unfold State.dropHart
  with_reducible repeat' first
    | assumption | dsimp only

theorem State.gather_memOk (s : State) (b : Nat) (hs : s.memOk) : (State.gather s b).memOk := by
  unfold State.gather
  with_reducible repeat' first
    | assumption | apply State.cleanHart_memOk | apply foldl_memOk | apply foldl_fst_memOk | intro _ _ _ | intro _ _ | intro _ | dsimp only

theorem State.evictDirectory_memOk (s : State) (b : Nat) (hs : s.memOk) : (State.evictDirectory s b).memOk := by
  unfold State.evictDirectory
  with_reducible repeat' first
    | assumption | apply State.dropHart_memOk | apply State.gather_memOk | apply foldl_memOk | apply foldl_fst_memOk | intro _ _ _
    | intro _ _ | intro _ | dsimp only

theorem State.hscFetch_memOk (s : State) (b requester : Nat) (hs : s.memOk) : (State.hscFetch s b requester).1.memOk := by
  unfold State.hscFetch
  with_reducible repeat' first
    | assumption | apply ite_memOk | apply State.applyFill_memOk | apply State.dramUe_memOk | apply State.putHsc_memOk
    | apply State.sliceUe_memOk | apply foldl_okMem | apply okMem_ok | apply okMem_error | refine okMem_elim (by assumption) | dsimp only
    | split

theorem State.hscFetch_memOk' {s : State} {b requester : Nat} {t : State} {x1 : Except Status CacheCopy} (eqn : State.hscFetch s b requester = (t, x1)) (hs : s.memOk) : t.memOk :=
  pair_memOk eqn (State.hscFetch_memOk s b requester hs)

theorem State.hostReadBlock_memOk (s : State) (b requester : Nat) (hs : s.memOk) : (State.hostReadBlock s b requester).1.memOk := by
  unfold State.hostReadBlock
  with_reducible repeat' first
    | assumption | apply State.gather_memOk | apply State.hscFetch_memOk | refine State.hscFetch_memOk' (by assumption) ?_
    | apply foldl_okMem | apply okMem_ok | apply okMem_error | refine okMem_elim (by assumption) | dsimp only | split

theorem State.hostReadBlock_memOk' {s : State} {b requester : Nat} {t : State} {x1 : Except Status (List Byte)} (eqn : State.hostReadBlock s b requester = (t, x1)) (hs : s.memOk) : t.memOk :=
  pair_memOk eqn (State.hostReadBlock_memOk s b requester hs)

theorem State.hostWriteBlock_memOk (s : State) (b off : Nat) (d : List Byte) (hs : s.memOk) : (State.hostWriteBlock s b off d).memOk := by
  unfold State.hostWriteBlock
  with_reducible repeat' first
    | assumption | apply ite_memOk | apply State.applyFill_memOk | apply State.breakReservations_memOk | apply State.evictDirectory_memOk
    | apply State.putHsc_memOk | intro _ _ _ | intro _ _ | intro _ | dsimp only | split

theorem State.hostRead_memOk (s : State) (a n requester : Nat) (hs : s.memOk) : (State.hostRead s a n requester).1.memOk := by
  unfold State.hostRead
  with_reducible repeat' first
    | assumption | apply State.hostReadBlock_memOk | refine State.hostReadBlock_memOk' (by assumption) ?_ | apply foldl_memOk
    | apply foldl_fst_memOk | apply foldl_okMem | apply okMem_ok | apply okMem_error | refine okMem_elim (by assumption) | intro _ _ _
    | intro _ _ | intro _ | dsimp only | split

theorem State.hostRead_memOk' {s : State} {a n requester : Nat} {t : State} {x1 : Except Status (List Byte)} (eqn : State.hostRead s a n requester = (t, x1)) (hs : s.memOk) : t.memOk :=
  pair_memOk eqn (State.hostRead_memOk s a n requester hs)

theorem State.hostWrite_memOk (s : State) (a : Nat) (d : List Byte) (hs : s.memOk) : (State.hostWrite s a d).memOk := by
  unfold State.hostWrite
  with_reducible repeat' first
    | assumption | apply State.hostWriteBlock_memOk | apply foldl_memOk | apply foldl_fst_memOk | intro _ _ _ | intro _ _ | intro _
    | dsimp only

theorem State.hartFetch_memOk (s : State) (h b requester : Nat) (hs : s.memOk) : (State.hartFetch s h b requester).1.memOk := by
  unfold State.hartFetch
  with_reducible repeat' first
    | assumption | apply State.applyFill_memOk | apply State.gather_memOk | apply State.hscFetch_memOk
    | refine State.hscFetch_memOk' (by assumption) ?_ | apply State.putHart_memOk | apply State.sramUe_memOk | apply ite_memOk
    | apply foldl_memOk | apply foldl_fst_memOk | apply foldl_okMem | apply okMem_ok | apply okMem_error | refine okMem_elim (by assumption)
    | intro _ _ _ | intro _ _ | intro _ | dsimp only | split

theorem State.hartFetch_memOk' {s : State} {h b requester : Nat} {t : State} {x1 : Except Status CacheCopy} (eqn : State.hartFetch s h b requester = (t, x1)) (hs : s.memOk) : t.memOk :=
  pair_memOk eqn (State.hartFetch_memOk s h b requester hs)

theorem State.hartRead_memOk (s : State) (h a n requester : Nat) (hs : s.memOk) : (State.hartRead s h a n requester).1.memOk := by
  unfold State.hartRead
  with_reducible repeat' first
    | assumption | apply State.hartFetch_memOk | refine State.hartFetch_memOk' (by assumption) ?_ | apply foldl_memOk
    | apply foldl_fst_memOk | apply foldl_okMem | apply okMem_ok | apply okMem_error | refine okMem_elim (by assumption) | intro _ _ _
    | intro _ _ | intro _ | dsimp only | split

theorem State.hartRead_memOk' {s : State} {h a n requester : Nat} {t : State} {x1 : Except Status (List Byte)} (eqn : State.hartRead s h a n requester = (t, x1)) (hs : s.memOk) : t.memOk :=
  pair_memOk eqn (State.hartRead_memOk s h a n requester hs)

theorem State.hartWrite_memOk (s : State) (h a : Nat) (d : List Byte) (requester : Nat) (hs : s.memOk) : (State.hartWrite s h a d requester).1.memOk := by
  unfold State.hartWrite
  with_reducible repeat' first
    | assumption | apply State.breakReservations_memOk | apply State.dropHart_memOk | apply State.hartRead_memOk
    | refine State.hartRead_memOk' (by assumption) ?_ | apply State.putHart_memOk | apply foldl_memOk | apply foldl_fst_memOk
    | apply foldl_okMem | apply okMem_ok | apply okMem_error | refine okMem_elim (by assumption) | intro _ _ _ | intro _ _ | intro _
    | dsimp only | split

theorem State.hartWrite_memOk' {s : State} {h a : Nat} {d : List Byte} {requester : Nat} {t : State} {x1 : Except Status Unit} (eqn : State.hartWrite s h a d requester = (t, x1)) (hs : s.memOk) : t.memOk :=
  pair_memOk eqn (State.hartWrite_memOk s h a d requester hs)

theorem State.writeBackHost_memOk (s : State) (line : Nat) (skip : List Nat) (hs : s.memOk) : (State.writeBackHost s line skip).memOk := by
  unfold State.writeBackHost
  with_reducible repeat' first
    | assumption | apply ite_memOk | apply State.bump_memOk | apply State.putBlock_memOk | apply State.putHsc_memOk
    | apply State.setPoison_memOk | apply foldl_memOk | apply foldl_fst_memOk | intro _ _ _ | intro _ _ | intro _ | dsimp only | split

theorem State.evictHostLine_memOk (s : State) (line : Nat) (hs : s.memOk) : (State.evictHostLine s line).memOk := by
  unfold State.evictHostLine
  with_reducible repeat' first
    | assumption | apply State.evictDirectory_memOk | apply State.writeBackHost_memOk | apply foldl_memOk | apply foldl_fst_memOk
    | intro _ _ _ | intro _ _ | intro _ | dsimp only

theorem State.writeBackCompute_memOk (s : State) (line : Nat) (skip : List Nat) (hs : s.memOk) : (State.writeBackCompute s line skip).memOk := by
  unfold State.writeBackCompute
  with_reducible repeat' first
    | assumption | apply State.writeBackLine_memOk | intro _ _ _ | intro _ _ | intro _ | dsimp only | split

theorem State.evictGeneral_memOk (s : State) (line : Nat) (hs : s.memOk) : (State.evictGeneral s line).memOk := by
  unfold State.evictGeneral
  with_reducible repeat' first
    | assumption | apply State.writeBackCompute_memOk | dsimp only

theorem State.settleBoth_memOk (s : State) (line : Nat) (hs : s.memOk) : (State.settleBoth s line).1.memOk := by
  unfold State.settleBoth
  with_reducible repeat' first
    | assumption | apply ite_memOk | apply State.drawBool_memOk | refine State.drawBool_memOk' (by assumption) ?_ | apply foldl_memOk
    | apply foldl_fst_memOk | intro _ _ _ | intro _ _ | intro _ | dsimp only | split

theorem State.settleBoth_memOk' {s : State} {line : Nat} {t : State} {x1 : List Nat} {x2 : List Nat} (eqn : State.settleBoth s line = (t, x1, x2)) (hs : s.memOk) : t.memOk :=
  pair_memOk eqn (State.settleBoth_memOk s line hs)

theorem State.publishToCompute_memOk (s : State) (line : Nat) (hs : s.memOk) : (State.publishToCompute s line).memOk := by
  unfold State.publishToCompute
  with_reducible repeat' first
    | assumption | apply State.applyFill_memOk | apply State.settleBoth_memOk | refine State.settleBoth_memOk' (by assumption) ?_
    | apply State.writeBackCompute_memOk | apply State.writeBackHost_memOk | dsimp only | split

theorem State.publishToHost_memOk (s : State) (line : Nat) (hs : s.memOk) : (State.publishToHost s line).memOk := by
  unfold State.publishToHost
  with_reducible repeat' first
    | assumption | apply State.applyFill_memOk | apply State.breakReservations_memOk | apply State.putBlock_memOk
    | apply State.settleBoth_memOk | refine State.settleBoth_memOk' (by assumption) ?_ | apply State.writeBackCompute_memOk
    | apply foldl_memOk | apply foldl_fst_memOk | intro _ _ _ | intro _ _ | intro _ | dsimp only | split

theorem State.publishLines_memOk (s : State) (toHost : Bool) (first count : Nat) (hs : s.memOk) : (State.publishLines s toHost first count).memOk := by
  unfold State.publishLines
  with_reducible repeat' first
    | assumption | apply ite_memOk | apply State.publishToCompute_memOk | apply State.publishToHost_memOk | apply foldl_memOk
    | apply foldl_fst_memOk | intro _ _ _ | intro _ _ | intro _ | dsimp only | split

theorem State.flushSlice_memOk (s : State) (q : Nat) (hs : s.memOk) : (State.flushSlice s q).memOk := by
  unfold State.flushSlice
  with_reducible repeat' first
    | assumption | apply State.evictGeneral_memOk | apply foldl_memOk | apply foldl_fst_memOk | intro _ _ _ | intro _ _ | intro _
    | dsimp only

theorem State.flushHsc_memOk (s : State) (p : Nat) (hs : s.memOk) : (State.flushHsc s p).memOk := by
  unfold State.flushHsc
  with_reducible repeat' first
    | assumption | apply State.evictHostLine_memOk | apply foldl_memOk | apply foldl_fst_memOk | intro _ _ _ | intro _ _ | intro _
    | dsimp only

/-! DieMem -/

theorem State.setDieBytes_memOk (s : State) (i off : Nat) (d : List Byte) (hs : s.memOk) : (State.setDieBytes s i off d).memOk := by
  unfold State.setDieBytes
  with_reducible repeat' first
    | assumption | apply State.setBytes_memOk | dsimp only

theorem State.zeroBanks_memOk (s : State) (i : Nat) (banks : Word) (hs : s.memOk) : (State.zeroBanks s i banks).memOk := by
  unfold State.zeroBanks
  with_reducible repeat' first
    | assumption | apply State.setReg_memOk | apply State.zeroRange_memOk | apply ite_memOk | apply foldl_memOk | apply foldl_fst_memOk
    | apply foldl_okMem | apply okMem_ok | apply okMem_error | refine okMem_elim (by assumption) | intro _ _ _ | intro _ _ | intro _
    | dsimp only | split

/-! Registers -/

theorem State.dropWrite_memOk (s : State) (k : RegKey) (ev : Nat) (hs : s.memOk) : (State.dropWrite s k ev).memOk := by
  unfold State.dropWrite
  with_reducible repeat' first
    | assumption | apply State.dropped_memOk | dsimp only

theorem State.refuseWrite_memOk (s : State) (k : RegKey) (hs : s.memOk) : (State.refuseWrite s k).memOk := by
  unfold State.refuseWrite
  with_reducible repeat' first
    | assumption | apply State.event_memOk | dsimp only

theorem State.doorbell_memOk (s : State) (p n : Nat) (v : BitVec 32) (hs : s.memOk) : (State.doorbell s p n v).memOk := by
  unfold State.doorbell
  with_reducible repeat' first
    | assumption | apply ite_memOk | apply State.event7F_memOk | apply State.setFlag_memOk | apply State.setReg_memOk | dsimp only | split

theorem State.endSession_memOk (s : State) (p : Nat) (hs : s.memOk) : (State.endSession s p).memOk := by
  unfold State.endSession
  with_reducible repeat' first
    | assumption | apply State.modPart_memOk | apply State.setReg_memOk | intro _ _ _ | intro _ _ | intro _ | dsimp only

theorem State.closeRing_memOk (s : State) (p n : Nat) (hs : s.memOk) : (State.closeRing s p n).memOk := by
  unfold State.closeRing
  with_reducible repeat' first
    | assumption | apply State.endSession_memOk | apply State.modRing_memOk | apply State.setFlag_memOk | apply State.setReg_memOk
    | apply ite_memOk | apply foldl_memOk | apply foldl_fst_memOk | apply foldl_okMem | apply okMem_ok | apply okMem_error
    | refine okMem_elim (by assumption) | intro _ _ _ | intro _ _ | intro _ | dsimp only | split

theorem State.disableRing_memOk (s : State) (p n : Nat) (hs : s.memOk) : (State.disableRing s p n).memOk := by
  unfold State.disableRing
  with_reducible repeat' first
    | assumption | apply State.closeRing_memOk | apply State.modRing_memOk | apply ite_memOk | apply foldl_memOk | apply foldl_fst_memOk
    | apply foldl_okMem | apply okMem_ok | apply okMem_error | refine okMem_elim (by assumption) | intro _ _ _ | intro _ _ | intro _
    | dsimp only | split

theorem State.enableRing_memOk (s : State) (p n : Nat) (hs : s.memOk) : (State.enableRing s p n).memOk := by
  unfold State.enableRing
  with_reducible repeat' first
    | assumption | apply ite_memOk | apply State.event7F_memOk | apply State.setFlag_memOk | dsimp only | split

theorem State.writeRingCtl_memOk (s : State) (p n : Nat) (r : Requester) (mask v : Word) (hs : s.memOk) : (State.writeRingCtl s p n r mask v).memOk := by
  unfold State.writeRingCtl
  with_reducible repeat' first
    | assumption | apply State.disableRing_memOk | apply State.dropWrite_memOk | apply State.enableRing_memOk | apply State.setReg_memOk
    | apply ite_memOk | apply foldl_memOk | apply foldl_fst_memOk | apply foldl_okMem | apply okMem_ok | apply okMem_error
    | refine okMem_elim (by assumption) | intro _ _ _ | intro _ _ | intro _ | dsimp only | split

theorem State.writePub_memOk (s : State) (p n : Nat) (isLen : Bool) (v : Word) (hs : s.memOk) : (State.writePub s p n isLen v).memOk := by
  unfold State.writePub
  with_reducible repeat' first
    | assumption | apply ite_memOk | apply State.refuseWrite_memOk | apply State.setReg_memOk | dsimp only | split

theorem State.writePinLend_memOk (s : State) (p n : Nat) (hs : s.memOk) : (State.writePinLend s p n).memOk := by
  unfold State.writePinLend
  with_reducible repeat' first
    | assumption | apply ite_memOk | apply State.refuseWrite_memOk | apply State.setReg_memOk | intro _ _ _ | intro _ _ | intro _
    | dsimp only | split

theorem State.writePool_memOk (s : State) (n : Nat) (isQuads : Bool) (v : Word) (hs : s.memOk) : (State.writePool s n isQuads v).memOk := by
  unfold State.writePool
  with_reducible repeat' first
    | assumption | apply ite_memOk | apply State.refuseWrite_memOk | apply State.setReg_memOk | intro _ _ _ | intro _ _ | intro _
    | dsimp only | split

theorem State.writeErase_memOk (s : State) (k : Nat) (v : Nat) (hs : s.memOk) : (State.writeErase s k v).memOk := by
  unfold State.writeErase
  with_reducible repeat' first
    | assumption | apply State.setFlag_memOk | apply State.setReg_memOk | dsimp only

theorem State.watchdog_memOk (s : State) (v : Word) (hs : s.memOk) : (State.watchdog s v).memOk := by
  unfold State.watchdog
  with_reducible repeat' first
    | assumption | apply State.setReg_memOk | apply ite_memOk | apply foldl_memOk | apply foldl_fst_memOk | apply foldl_okMem
    | apply okMem_ok | apply okMem_error | refine okMem_elim (by assumption) | intro _ _ _ | intro _ _ | intro _ | dsimp only | split

theorem State.setClock_memOk (s : State) (v : Word) (hs : s.memOk) : (State.setClock s v).memOk := by
  unfold State.setClock
  with_reducible repeat' first
    | assumption | apply ite_memOk | apply State.setReg_memOk | apply foldl_memOk | apply foldl_fst_memOk | intro _ _ _ | intro _ _
    | intro _ | dsimp only | split

theorem State.setSlew_memOk (s : State) (v : BitVec 32) (hs : s.memOk) : (State.setSlew s v).memOk := by
  unfold State.setSlew
  with_reducible repeat' first
    | assumption | apply State.setFlag_memOk | dsimp only

theorem State.applyWrite_memOk (s : State) (r : Requester) (k : RegKey) (mask v : Word) (hs : s.memOk) : (State.applyWrite s r k mask v).memOk := by
  unfold State.applyWrite
  with_reducible repeat' first
    | assumption | apply State.doorbell_memOk | apply State.setBoth_memOk | apply State.setClock_memOk | apply State.setFlag_memOk
    | apply State.setReg_memOk | apply State.setSlew_memOk | apply State.watchdog_memOk | apply State.writeErase_memOk
    | apply State.writePinLend_memOk | apply State.writePool_memOk | apply State.writePub_memOk | apply State.writeRingCtl_memOk
    | apply State.zeroBanks_memOk | apply ite_memOk | apply foldl_memOk | apply foldl_fst_memOk | apply foldl_okMem | apply okMem_ok
    | apply okMem_error | refine okMem_elim (by assumption) | intro _ _ _ | intro _ _ | intro _ | dsimp only | split

theorem State.writeReg_memOk (s : State) (r : Requester) (k : RegKey) (o n : Nat) (value : Word) (hs : s.memOk) : (State.writeReg s r k o n value).memOk := by
  unfold State.writeReg
  with_reducible repeat' first
    | assumption | apply State.applyWrite_memOk | apply State.dropWrite_memOk | apply State.setFlag_memOk | apply State.setReg_memOk
    | apply ite_memOk | apply foldl_memOk | apply foldl_fst_memOk | apply foldl_okMem | apply okMem_ok | apply okMem_error
    | refine okMem_elim (by assumption) | intro _ _ _ | intro _ _ | intro _ | dsimp only | split

/-! Completion -/

theorem State.setPending_memOk (s : State) (h file id : Nat) (hs : s.memOk) : (State.setPending s h file id).memOk := by
  unfold State.setPending
  with_reducible repeat' first
    | assumption | apply ite_memOk | apply State.modHost_memOk | intro _ _ _ | intro _ _ | intro _ | dsimp only | split

theorem State.sendMsi_memOk (s : State) (part : Option Nat) (block source addr : Nat) (data : BitVec 32) (hs : s.memOk) : (State.sendMsi s part block source addr data).memOk := by
  unfold State.sendMsi
  with_reducible repeat' first
    | assumption | apply ite_memOk | apply State.bump_memOk | apply State.event_memOk | apply State.setPending_memOk | dsimp only | split

theorem State.pushMsg_memOk (s : State) (quad : Nat) (m : LinkMsg) (hs : s.memOk) : (State.pushMsg s quad m).memOk := by
  unfold State.pushMsg
  with_reducible repeat' first
    | assumption | apply State.modQuad_memOk | intro _ _ _ | intro _ _ | intro _ | dsimp only

theorem State.sendMgmt_memOk (s : State) (quad : Nat) (dst : BitVec 13) (kind srcPart dstPart : Nat) (xid : BitVec 16) (units : List Byte) (hs : s.memOk) : (State.sendMgmt s quad dst kind srcPart dstPart xid units).memOk := by
  unfold State.sendMgmt
  with_reducible repeat' first
    | assumption | apply State.pushMsg_memOk | apply ite_memOk | apply foldl_memOk | apply foldl_fst_memOk | apply foldl_okMem
    | apply okMem_ok | apply okMem_error | refine okMem_elim (by assumption) | intro _ _ _ | intro _ _ | intro _ | dsimp only | split

theorem State.tellMembers_memOk (s : State) (p kind : Nat) (units : List Byte) (hs : s.memOk) : (State.tellMembers s p kind units).memOk := by
  unfold State.tellMembers
  with_reducible repeat' first
    | assumption | apply State.sendMgmt_memOk | apply ite_memOk | apply foldl_memOk | apply foldl_fst_memOk | apply foldl_okMem
    | apply okMem_ok | apply okMem_error | refine okMem_elim (by assumption) | intro _ _ _ | intro _ _ | intro _ | dsimp only | split

theorem State.ringMsi_memOk (s : State) (p n : Nat) (hs : s.memOk) : (State.ringMsi s p n).memOk := by
  unfold State.ringMsi
  with_reducible repeat' first
    | assumption | apply State.modRing_memOk | apply State.sendMsi_memOk | intro _ _ _ | intro _ _ | intro _ | dsimp only

theorem State.notifyRing_memOk (s : State) (p n : Nat) (hs : s.memOk) : (State.notifyRing s p n).memOk := by
  unfold State.notifyRing
  with_reducible repeat' first
    | assumption | apply ite_memOk | apply State.modRing_memOk | apply State.ringMsi_memOk | intro _ _ _ | intro _ _ | intro _ | dsimp only
    | split

theorem State.writeCompletion_memOk (s : State) (p n : Nat) (opcode : BitVec 16) (st : Status) (replay : Bool) (c : Cmd) (turn : Option Word) (result : List Byte) (hs : s.memOk) : (State.writeCompletion s p n opcode st replay c turn result).memOk := by
  unfold State.writeCompletion
  with_reducible repeat' first
    | assumption | apply ite_memOk | apply State.hostWrite_memOk | apply State.modRing_memOk | apply State.notifyRing_memOk
    | apply State.setReg_memOk | intro _ _ _ | intro _ _ | intro _ | dsimp only | split

theorem State.markReached_memOk (s : State) (c : Cmd) (opcode : BitVec 16) (hs : s.memOk) : (State.markReached s c opcode).memOk := by
  unfold State.markReached
  with_reducible repeat' first
    | assumption | apply ite_memOk | apply foldl_memOk | apply foldl_fst_memOk | apply foldl_okMem | apply okMem_ok | apply okMem_error
    | refine okMem_elim (by assumption) | intro _ _ _ | intro _ _ | intro _ | dsimp only | split

theorem State.completeNow_memOk (s : State) (c : Cmd) (opcode : BitVec 16) (st : Status) (replay : Bool) (turn : Option Word) (result : List Byte) (hs : s.memOk) : (State.completeNow s c opcode st replay turn result).memOk := by
  unfold State.completeNow
  with_reducible repeat' first
    | assumption | apply State.bump_memOk | apply State.sendMgmt_memOk | apply State.writeCompletion_memOk | apply ite_memOk
    | apply foldl_memOk | apply foldl_fst_memOk | apply foldl_okMem | apply okMem_ok | apply okMem_error | refine okMem_elim (by assumption)
    | intro _ _ _ | intro _ _ | intro _ | dsimp only | split

theorem State.completeWith_memOk (s : State) (c : Cmd) (opcode : BitVec 16) (st : Status) (replay : Bool) (turn : Option Word) (result : List Byte) (hs : s.memOk) : (State.completeWith s c opcode st replay turn result).memOk := by
  unfold State.completeWith
  with_reducible repeat' first
    | assumption | apply ite_memOk | apply State.completeNow_memOk | dsimp only | split

theorem State.complete_memOk (s : State) (c : Cmd) (opcode : BitVec 16) (st : Status) (turn : Option Word) (result : List Byte) (hs : s.memOk) : (State.complete s c opcode st turn result).memOk := by
  unfold State.complete
  with_reducible repeat' first
    | assumption | apply State.completeWith_memOk | dsimp only

theorem State.completeReset_memOk (s : State) (p : Nat) (c : Cmd) (st : Status) (turn : Option Word) (result : List Byte) (hs : s.memOk) : (State.completeReset s p c st turn result).memOk := by
  unfold State.completeReset
  with_reducible repeat' first
    | assumption | apply State.complete_memOk | apply State.modPart_memOk | apply ite_memOk | apply foldl_memOk | apply foldl_fst_memOk
    | apply foldl_okMem | apply okMem_ok | apply okMem_error | refine okMem_elim (by assumption) | intro _ _ _ | intro _ _ | intro _
    | dsimp only | split

/-! Access -/

theorem State.unmapped_memOk (s : State) (q : Nat) (st : Status) (a : Nat) (hs : s.memOk) : (State.unmapped s q st a).memOk := by
  unfold State.unmapped
  with_reducible repeat' first
    | assumption | apply State.eventStatus_memOk | apply State.setField_memOk | dsimp only

theorem State.userWrite_memOk (s : State) (r : Requester) (p page off : Nat) (d : List Byte) (hs : s.memOk) : (State.userWrite s r p page off d).memOk := by
  unfold State.userWrite
  with_reducible repeat' first
    | assumption | apply ite_memOk | apply State.dropped_memOk | apply State.writeReg_memOk | dsimp only | split

theorem State.behindHost_memOk (s : State) (h : Nat) (go : State × Except Status (List Byte)) (hg : go.1.memOk) (hs : s.memOk) : (State.behindHost s h go).1.memOk := by
  unfold State.behindHost
  split
  · exact State.bump_memOk _ _ _ _ _ hs
  · exact hg

theorem State.behindHost_memOk' {s : State} {h : Nat} {go : State × Except Status (List Byte)} {t : State} {x1 : Except Status (List Byte)} (eqn : State.behindHost s h go = (t, x1)) (hg : go.1.memOk) (hs : s.memOk) : t.memOk :=
  pair_memOk eqn (State.behindHost_memOk s h go hg hs)

theorem State.spotRead_memOk (s : State) (a n : Nat) (hs : s.memOk) : (State.spotRead s a n).1.memOk := by
  unfold State.spotRead
  with_reducible repeat' first
    | assumption | apply State.behindHost_memOk | refine State.behindHost_memOk' (by assumption) ?_ | apply State.unmapped_memOk
    | apply ite_memOk | apply foldl_memOk | apply foldl_fst_memOk | apply foldl_okMem | apply okMem_ok | apply okMem_error
    | refine okMem_elim (by assumption) | intro _ _ _ | intro _ _ | intro _ | dsimp only | split

theorem State.spotRead_memOk' {s : State} {a n : Nat} {t : State} {x1 : Except Status (List Byte)} (eqn : State.spotRead s a n = (t, x1)) (hs : s.memOk) : t.memOk :=
  pair_memOk eqn (State.spotRead_memOk s a n hs)

theorem State.spotWrite_memOk (s : State) (r : Requester) (a : Nat) (d : List Byte) (hs : s.memOk) : (State.spotWrite s r a d).1.memOk := by
  unfold State.spotWrite
  with_reducible repeat' first
    | assumption | apply State.behindHost_memOk | refine State.behindHost_memOk' (by assumption) ?_ | apply State.bump_memOk
    | apply State.dropped_memOk | apply State.modDie_memOk | apply State.modHost_memOk | apply State.setPending_memOk
    | apply State.unmapped_memOk | apply State.writeReg_memOk | apply ite_memOk | apply foldl_memOk | apply foldl_fst_memOk
    | apply foldl_okMem | apply okMem_ok | apply okMem_error | refine okMem_elim (by assumption) | intro _ _ _ | intro _ _ | intro _
    | dsimp only | split

theorem State.spotWrite_memOk' {s : State} {r : Requester} {a : Nat} {d : List Byte} {t : State} {x1 : Except Status (List Byte)} (eqn : State.spotWrite s r a d = (t, x1)) (hs : s.memOk) : t.memOk :=
  pair_memOk eqn (State.spotWrite_memOk s r a d hs)

theorem State.privAccess_memOk (s : State) (r : Requester) (a n : Nat) (data : Option (List Byte)) (hs : s.memOk) : (State.privAccess s r a n data).1.memOk := by
  unfold State.privAccess
  with_reducible repeat' first
    | assumption | apply State.bump_memOk | apply State.dropWrite_memOk | apply State.dropped_memOk | apply State.spotRead_memOk
    | refine State.spotRead_memOk' (by assumption) ?_ | apply State.spotWrite_memOk | refine State.spotWrite_memOk' (by assumption) ?_
    | apply State.unmapped_memOk | apply ite_memOk | apply foldl_memOk | apply foldl_fst_memOk | apply foldl_okMem | apply okMem_ok
    | apply okMem_error | refine okMem_elim (by assumption) | intro _ _ _ | intro _ _ | intro _ | dsimp only | split

theorem State.privAccess_memOk' {s : State} {r : Requester} {a n : Nat} {data : Option (List Byte)} {t : State} {x1 : Except Status (List Byte)} (eqn : State.privAccess s r a n data = (t, x1)) (hs : s.memOk) : t.memOk :=
  pair_memOk eqn (State.privAccess_memOk s r a n data hs)

theorem State.userAccess_memOk (s : State) (r : Requester) (a n : Nat) (data : Option (List Byte)) (hs : s.memOk) : (State.userAccess s r a n data).1.memOk := by
  unfold State.userAccess
  with_reducible repeat' first
    | assumption | apply ite_memOk | apply State.dropped_memOk | apply State.unmapped_memOk | apply State.userWrite_memOk
    | apply foldl_okMem | apply okMem_ok | apply okMem_error | refine okMem_elim (by assumption) | intro _ _ _ | intro _ _ | intro _
    | dsimp only | split

theorem State.userAccess_memOk' {s : State} {r : Requester} {a n : Nat} {data : Option (List Byte)} {t : State} {x1 : Except Status (List Byte)} (eqn : State.userAccess s r a n data = (t, x1)) (hs : s.memOk) : t.memOk :=
  pair_memOk eqn (State.userAccess_memOk s r a n data hs)

theorem State.dieAccess_memOk (s : State) (r : Requester) (compiled : Bool) (a n : Nat) (data : Option (List Byte)) (hs : s.memOk) : (State.dieAccess s r compiled a n data).1.memOk := by
  unfold State.dieAccess
  with_reducible repeat' first
    | assumption | apply ite_memOk | apply State.bump_memOk | apply State.setBytes_memOk | apply State.unmapped_memOk | apply foldl_okMem
    | apply okMem_ok | apply okMem_error | refine okMem_elim (by assumption) | dsimp only | split

theorem State.dieAccess_memOk' {s : State} {r : Requester} {compiled : Bool} {a n : Nat} {data : Option (List Byte)} {t : State} {x1 : Except Status (List Byte)} (eqn : State.dieAccess s r compiled a n data = (t, x1)) (hs : s.memOk) : t.memOk :=
  pair_memOk eqn (State.dieAccess_memOk s r compiled a n data hs)

theorem State.pinnedAccess_memOk (s : State) (a n : Nat) (data : Option (List Byte)) (requester : Nat) (referee : Bool) (hs : s.memOk) : (State.pinnedAccess s a n data requester referee).1.memOk := by
  unfold State.pinnedAccess
  extract_lets q u
  clear_value q u
  repeat' first
    | with_reducible assumption
    | with_reducible apply ite_memOk
    | with_reducible apply State.setBytes_memOk
    | with_reducible apply State.setPoison_memOk
    | with_reducible apply State.sliceUe_memOk
    | with_reducible apply State.unmapped_memOk
    | with_reducible apply foldl_memOk
    | with_reducible apply foldl_fst_memOk
    | with_reducible apply foldl_okMem
    | with_reducible apply okMem_ok
    | with_reducible apply okMem_error
    | with_reducible refine okMem_elim (by with_reducible assumption)
    | (intro _ _ _)
    | (intro _ _)
    | (intro _)
    | dsimp only
    | split
    | with_reducible refine pair_memOk (by with_reducible assumption) ?_
    | with_reducible refine okMem_mem (by with_reducible assumption) ?_

theorem State.pinnedAccess_memOk' {s : State} {a n : Nat} {data : Option (List Byte)} {requester : Nat} {referee : Bool} {t : State} {x1 : Except Status (List Byte)} (eqn : State.pinnedAccess s a n data requester referee = (t, x1)) (hs : s.memOk) : t.memOk :=
  pair_memOk eqn (State.pinnedAccess_memOk s a n data requester referee hs)

theorem State.dramAccess_memOk (s : State) (r : Requester) (a n : Nat) (data : Option (List Byte)) (hs : s.memOk) : (State.dramAccess s r a n data).1.memOk := by
  unfold State.dramAccess
  with_reducible repeat' first
    | assumption | apply ite_memOk | apply State.computeRead_memOk | refine State.computeRead_memOk' (by assumption) ?_
    | apply State.computeWrite_memOk | apply State.hostRead_memOk | refine State.hostRead_memOk' (by assumption) ?_
    | apply State.hostWrite_memOk | apply foldl_okMem | apply okMem_ok | apply okMem_error | refine okMem_elim (by assumption) | dsimp only
    | split

theorem State.dramAccess_memOk' {s : State} {r : Requester} {a n : Nat} {data : Option (List Byte)} {t : State} {x1 : Except Status (List Byte)} (eqn : State.dramAccess s r a n data = (t, x1)) (hs : s.memOk) : t.memOk :=
  pair_memOk eqn (State.dramAccess_memOk s r a n data hs)

theorem State.drawBytes_memOk (s : State) (n : Nat) (hs : s.memOk) : (State.drawBytes s n).1.memOk := by
  unfold State.drawBytes
  with_reducible repeat' first
    | assumption | intro _ _ _ | intro _ _ | intro _ | dsimp only

theorem State.drawBytes_memOk' {s : State} {n : Nat} {t : State} {x1 : List Byte} (eqn : State.drawBytes s n = (t, x1)) (hs : s.memOk) : t.memOk :=
  pair_memOk eqn (State.drawBytes_memOk s n hs)

theorem State.accessAt_memOk (s : State) (r : Requester) (compiled : Bool) (a n : Nat) (data : Option (List Byte)) (hs : s.memOk) : (State.accessAt s r compiled a n data).1.memOk := by
  unfold State.accessAt
  with_reducible repeat' first
    | assumption | apply State.behindHost_memOk | refine State.behindHost_memOk' (by assumption) ?_ | apply State.bump_memOk
    | apply State.dieAccess_memOk | refine State.dieAccess_memOk' (by assumption) ?_ | apply State.dramAccess_memOk
    | refine State.dramAccess_memOk' (by assumption) ?_ | apply State.drawBytes_memOk | refine State.drawBytes_memOk' (by assumption) ?_
    | apply State.pinnedAccess_memOk | refine State.pinnedAccess_memOk' (by assumption) ?_ | apply State.privAccess_memOk
    | refine State.privAccess_memOk' (by assumption) ?_ | apply State.setBytes_memOk | apply State.unmapped_memOk
    | apply State.userAccess_memOk | refine State.userAccess_memOk' (by assumption) ?_ | apply ite_memOk | apply foldl_memOk
    | apply foldl_fst_memOk | apply foldl_okMem | apply okMem_ok | apply okMem_error | refine okMem_elim (by assumption) | intro _ _ _
    | intro _ _ | intro _ | dsimp only | split

theorem State.accessAt_memOk' {s : State} {r : Requester} {compiled : Bool} {a n : Nat} {data : Option (List Byte)} {t : State} {x1 : Except Status (List Byte)} (eqn : State.accessAt s r compiled a n data = (t, x1)) (hs : s.memOk) : t.memOk :=
  pair_memOk eqn (State.accessAt_memOk s r compiled a n data hs)

theorem State.carried_memOk (s : State) (src dst n : Nat) (hs : s.memOk) : (State.carried s src dst n).memOk := by
  unfold State.carried
  with_reducible repeat' first
    | assumption | apply State.bump_memOk | apply foldl_memOk | apply foldl_fst_memOk | intro _ _ _ | intro _ _ | intro _ | dsimp only

theorem State.countTraffic_memOk (s : State) (r : Requester) (a n : Nat) (write : Bool) (hs : s.memOk) : (State.countTraffic s r a n write).memOk := by
  unfold State.countTraffic
  with_reducible repeat' first
    | assumption | apply ite_memOk | apply State.carried_memOk | apply foldl_memOk | apply foldl_fst_memOk | intro _ _ _ | intro _ _
    | intro _ | dsimp only | split

theorem State.countRegister_memOk (s : State) (r : Requester) (a : Nat) (hs : s.memOk) : (State.countRegister s r a).memOk := by
  unfold State.countRegister
  with_reducible repeat' first
    | assumption | apply ite_memOk | apply State.bump_memOk | dsimp only | split

theorem State.access_memOk (s : State) (r : Requester) (compiled : Bool) (a n : Nat) (data : Option (List Byte)) (hs : s.memOk) : (State.access s r compiled a n data).1.memOk := by
  unfold State.access
  with_reducible repeat' first
    | assumption | apply State.accessAt_memOk | refine State.accessAt_memOk' (by assumption) ?_ | apply State.countRegister_memOk
    | apply State.countTraffic_memOk | apply ite_memOk | apply foldl_memOk | apply foldl_fst_memOk | apply foldl_okMem | apply okMem_ok
    | apply okMem_error | refine okMem_elim (by assumption) | intro _ _ _ | intro _ _ | intro _ | dsimp only | split

theorem State.access_memOk' {s : State} {r : Requester} {compiled : Bool} {a n : Nat} {data : Option (List Byte)} {t : State} {x1 : Except Status (List Byte)} (eqn : State.access s r compiled a n data = (t, x1)) (hs : s.memOk) : t.memOk :=
  pair_memOk eqn (State.access_memOk s r compiled a n data hs)

theorem State.answered_memOk (s : State) (x : Except Status (List Byte)) (fault : Bool) (hs : s.memOk) : (State.answered s x fault).memOk := by
  unfold State.answered
  with_reducible repeat' first
    | assumption | apply foldl_okMem | apply okMem_ok | apply okMem_error | refine okMem_elim (by assumption) | dsimp only | split

/-! Pages -/

theorem State.writeEntry_memOk (s : State) (node i : Nat) (e : Word) (hs : s.memOk) : (State.writeEntry s node i e).memOk := by
  unfold State.writeEntry
  with_reducible repeat' first
    | assumption | apply State.hostWrite_memOk | dsimp only

theorem State.invalidate_memOk (s : State) (p : Nat) (h : Handle) (first count : Nat) (hs : s.memOk) : (State.invalidate s p h first count).memOk := by
  unfold State.invalidate
  with_reducible repeat' first
    | assumption | apply ite_memOk | apply State.bump_memOk | apply State.setSquare_memOk | apply foldl_memOk | apply foldl_fst_memOk
    | intro _ _ _ | intro _ _ | intro _ | dsimp only | split

theorem State.setLeaf_memOk (s : State) (p : Nat) (h : Handle) (root page : Nat) (e : Word) (hs : s.memOk) : (State.setLeaf s p h root page e).memOk := by
  unfold State.setLeaf
  with_reducible repeat' first
    | assumption | apply State.invalidate_memOk | apply State.writeEntry_memOk | dsimp only | split

theorem State.takeNode_memOk (s : State) (nodes : List Addr) (hs : s.memOk) : (State.takeNode s nodes).1.memOk := by
  unfold State.takeNode
  with_reducible repeat' first
    | assumption | apply State.draw_memOk | refine State.draw_memOk' (by assumption) ?_ | apply State.hostWrite_memOk | dsimp only | split

theorem State.takeNode_memOk' {s : State} {nodes : List Addr} {t : State} {x1 : Nat} {x2 : List Addr} (eqn : State.takeNode s nodes = (t, x1, x2)) (hs : s.memOk) : t.memOk :=
  pair_memOk eqn (State.takeNode_memOk s nodes hs)

theorem State.ensureNode_memOk (s : State) (node i : Nat) (nodes : List Addr) (hs : s.memOk) : (State.ensureNode s node i nodes).1.memOk := by
  unfold State.ensureNode
  with_reducible repeat' first
    | assumption | apply ite_memOk | apply State.takeNode_memOk | refine State.takeNode_memOk' (by assumption) ?_
    | apply State.writeEntry_memOk | dsimp only | split

theorem State.ensureNode_memOk' {s : State} {node i : Nat} {nodes : List Addr} {t : State} {x1 : Nat} {x2 : List Addr} (eqn : State.ensureNode s node i nodes = (t, x1, x2)) (hs : s.memOk) : t.memOk :=
  pair_memOk eqn (State.ensureNode_memOk s node i nodes hs)

theorem State.placeLeaf_memOk (s : State) (root page : Nat) (e : Word) (nodes : List Addr) (hs : s.memOk) : (State.placeLeaf s root page e nodes).1.memOk := by
  unfold State.placeLeaf
  with_reducible repeat' first
    | assumption | apply State.ensureNode_memOk | refine State.ensureNode_memOk' (by assumption) ?_ | apply State.writeEntry_memOk
    | dsimp only | split

theorem State.placeLeaf_memOk' {s : State} {root page : Nat} {e : Word} {nodes : List Addr} {t : State} {x1 : List Addr} (eqn : State.placeLeaf s root page e nodes = (t, x1)) (hs : s.memOk) : t.memOk :=
  pair_memOk eqn (State.placeLeaf_memOk s root page e nodes hs)

theorem State.takePage_memOk (s : State) (p : Nat) (hs : s.memOk) : (State.takePage s p).1.memOk := by
  unfold State.takePage
  with_reducible repeat' first
    | assumption | apply State.draw_memOk | refine State.draw_memOk' (by assumption) ?_ | dsimp only | split

theorem State.takePage_memOk' {s : State} {p : Nat} {t : State} {x1 : Nat} (eqn : State.takePage s p = (t, x1)) (hs : s.memOk) : t.memOk :=
  pair_memOk eqn (State.takePage_memOk s p hs)

theorem State.writePage_memOk (s : State) (a : Nat) (d : List Byte) (hs : s.memOk) : (State.writePage s a d).memOk := by
  unfold State.writePage
  with_reducible repeat' first
    | assumption | apply State.stateWrite_memOk | apply foldl_memOk | apply foldl_fst_memOk | intro _ _ _ | intro _ _ | intro _ | dsimp only

theorem State.writeSaveLines_memOk (s : State) (p root n : Nat) (d : List Byte) (hs : s.memOk) : (State.writeSaveLines s p root n d).memOk := by
  unfold State.writeSaveLines
  with_reducible repeat' first
    | assumption | apply State.placeLeaf_memOk | refine State.placeLeaf_memOk' (by assumption) ?_ | apply State.stateWrite_memOk
    | apply State.takePage_memOk | refine State.takePage_memOk' (by assumption) ?_ | apply State.writePage_memOk | apply ite_memOk
    | apply foldl_memOk | apply foldl_fst_memOk | apply foldl_okMem | apply okMem_ok | apply okMem_error | refine okMem_elim (by assumption)
    | intro _ _ _ | intro _ _ | intro _ | dsimp only | split

theorem State.setSharers_memOk (s : State) (p frame n : Nat) (hs : s.memOk) : (State.setSharers s p frame n).memOk := by
  unfold State.setSharers
  with_reducible repeat' first
    | assumption | apply State.modPart_memOk | intro _ _ _ | intro _ _ | intro _ | dsimp only

theorem State.fillPage_memOk (s : State) (frame : Nat) (hs : s.memOk) : (State.fillPage s frame).memOk := by
  unfold State.fillPage
  with_reducible repeat' first
    | assumption | apply ite_memOk | apply State.queueFill_memOk | apply State.zeroRange_memOk | intro _ _ _ | intro _ _ | intro _
    | dsimp only | split

theorem State.releasePage_memOk (s : State) (p frame : Nat) (hs : s.memOk) : (State.releasePage s p frame).memOk := by
  unfold State.releasePage
  with_reducible repeat' first
    | assumption | apply State.fillPage_memOk | apply State.sealPage_memOk | dsimp only

theorem State.releaseLeaf_memOk (s : State) (p : Nat) (e : Word) (hs : s.memOk) : (State.releaseLeaf s p e).memOk := by
  unfold State.releaseLeaf
  with_reducible repeat' first
    | assumption | apply ite_memOk | apply State.releasePage_memOk | apply State.setSharers_memOk | dsimp only | split

theorem State.releaseTable_memOk (s : State) (p root : Nat) (hs : s.memOk) : (State.releaseTable s p root).memOk := by
  unfold State.releaseTable
  with_reducible repeat' first
    | assumption | apply State.queueFill_memOk | apply State.releaseLeaf_memOk | apply foldl_memOk | apply foldl_fst_memOk | intro _ _ _
    | intro _ _ | intro _ | dsimp only

/-! StreamOps -/

theorem State.countStreams_memOk (s : State) (p : Nat) (hs : s.memOk) : (State.countStreams s p).memOk := by
  unfold State.countStreams
  with_reducible repeat' first
    | assumption | apply State.setReg_memOk | intro _ _ _ | intro _ _ | intro _ | dsimp only

theorem State.freeRowAt_memOk (s : State) (p slot : Nat) (hs : s.memOk) : (State.freeRowAt s p slot).memOk := by
  unfold State.freeRowAt
  with_reducible repeat' first
    | assumption | apply ite_memOk | apply State.modPart_memOk | apply State.setRow_memOk | intro _ _ _ | intro _ _ | intro _ | dsimp only
    | split

theorem State.issue_memOk (s : State) (p slot : Nat) (hs : s.memOk) : (State.issue s p slot).1.memOk := by
  unfold State.issue
  with_reducible repeat' first
    | assumption | dsimp only

theorem State.issue_memOk' {s : State} {p slot : Nat} {t : State} {x1 : Handle} (eqn : State.issue s p slot = (t, x1)) (hs : s.memOk) : t.memOk :=
  pair_memOk eqn (State.issue_memOk s p slot hs)

theorem State.streamEvent_memOk (s : State) (p : Nat) (e : StreamEntry) (hs : s.memOk) : (State.streamEvent s p e).memOk := by
  unfold State.streamEvent
  with_reducible repeat' first
    | assumption | apply State.eventStatus_memOk | apply foldl_okMem | apply okMem_ok | apply okMem_error
    | refine okMem_elim (by assumption) | dsimp only

theorem State.writeRecord_memOk (s : State) (p : Nat) (h : Handle) (d : List Byte) (hs : s.memOk) : (State.writeRecord s p h d).memOk := by
  unfold State.writeRecord
  with_reducible repeat' first
    | assumption | apply State.computeWrite_memOk | apply ite_memOk | apply foldl_memOk | apply foldl_fst_memOk | apply foldl_okMem
    | apply okMem_ok | apply okMem_error | refine okMem_elim (by assumption) | intro _ _ _ | intro _ _ | intro _ | dsimp only | split

theorem State.setParked_memOk (s : State) (p : Nat) (h : Handle) (e : StreamEntry) (hs : s.memOk) : (State.setParked s p h e).memOk := by
  unfold State.setParked
  with_reducible repeat' first
    | assumption | apply State.modPart_memOk | apply State.writeRecord_memOk | apply ite_memOk | apply foldl_memOk | apply foldl_fst_memOk
    | apply foldl_okMem | apply okMem_ok | apply okMem_error | refine okMem_elim (by assumption) | intro _ _ _ | intro _ _ | intro _
    | dsimp only | split

theorem State.dropParked_memOk (s : State) (p : Nat) (h : Handle) (hs : s.memOk) : (State.dropParked s p h).memOk := by
  unfold State.dropParked
  with_reducible repeat' first
    | assumption | apply State.modPart_memOk | apply State.writeRecord_memOk | apply ite_memOk | apply foldl_memOk | apply foldl_fst_memOk
    | apply foldl_okMem | apply okMem_ok | apply okMem_error | refine okMem_elim (by assumption) | intro _ _ _ | intro _ _ | intro _
    | dsimp only | split

theorem State.setEntryAt_memOk (s : State) (p : Nat) (f : Found) (e : StreamEntry) (hs : s.memOk) : (State.setEntryAt s p f e).memOk := by
  unfold State.setEntryAt
  with_reducible repeat' first
    | assumption | apply State.setParked_memOk | apply State.setRow_memOk | apply ite_memOk | apply foldl_memOk | apply foldl_fst_memOk
    | apply foldl_okMem | apply okMem_ok | apply okMem_error | refine okMem_elim (by assumption) | intro _ _ _ | intro _ _ | intro _
    | dsimp only | split

theorem State.parkRow_memOk (s : State) (p slot : Nat) (hs : s.memOk) : (State.parkRow s p slot).memOk := by
  unfold State.parkRow
  with_reducible repeat' first
    | assumption | apply State.bump_memOk | apply State.freeRowAt_memOk | apply State.setParked_memOk | apply State.streamEvent_memOk
    | apply ite_memOk | apply foldl_memOk | apply foldl_fst_memOk | apply foldl_okMem | apply okMem_ok | apply okMem_error
    | refine okMem_elim (by assumption) | intro _ _ _ | intro _ _ | intro _ | dsimp only | split

theorem State.admitStream_memOk (s : State) (p : Nat) (hs : s.memOk) : (State.admitStream s p).1.memOk := by
  unfold State.admitStream
  with_reducible repeat' first
    | assumption | apply State.parkRow_memOk | apply ite_memOk | apply foldl_memOk | apply foldl_fst_memOk | apply foldl_okMem
    | apply okMem_ok | apply okMem_error | refine okMem_elim (by assumption) | intro _ _ _ | intro _ _ | intro _ | dsimp only | split

theorem State.admitStream_memOk' {s : State} {p : Nat} {t : State} {x1 : Option Nat} (eqn : State.admitStream s p = (t, x1)) (hs : s.memOk) : t.memOk :=
  pair_memOk eqn (State.admitStream_memOk s p hs)

theorem State.unparkStream_memOk (s : State) (p : Nat) (h : Handle) (hs : s.memOk) : (State.unparkStream s p h).1.memOk := by
  unfold State.unparkStream
  with_reducible repeat' first
    | assumption | apply State.admitStream_memOk | refine State.admitStream_memOk' (by assumption) ?_ | apply State.bump_memOk
    | apply State.dropParked_memOk | apply State.modPart_memOk | apply State.setRow_memOk | apply State.streamEvent_memOk | apply ite_memOk
    | apply foldl_memOk | apply foldl_fst_memOk | apply foldl_okMem | apply okMem_ok | apply okMem_error | refine okMem_elim (by assumption)
    | intro _ _ _ | intro _ _ | intro _ | dsimp only | split

theorem State.unparkStream_memOk' {s : State} {p : Nat} {h : Handle} {t : State} {x1 : Option Nat} (eqn : State.unparkStream s p h = (t, x1)) (hs : s.memOk) : t.memOk :=
  pair_memOk eqn (State.unparkStream_memOk s p h hs)

theorem State.setTailBytes_memOk (s : State) (q t : Nat) (y0 : Nat) (y1 : List Byte) (hs : s.memOk) : (State.setTailBytes s q t y0 y1).memOk := by
  induction y1 generalizing s y0 with
  | nil => simpa [State.setTailBytes] using hs
  | cons x l ih =>
    unfold State.setTailBytes
    exact ih _ _ (by exact hs)

theorem State.clearTails_memOk (s : State) (q first count : Nat) (hs : s.memOk) : (State.clearTails s q first count).memOk := by
  unfold State.clearTails
  with_reducible repeat' first
    | assumption | intro _ _ _ | intro _ _ | intro _ | dsimp only

theorem State.countTails_memOk (s : State) (p : Nat) (hs : s.memOk) : (State.countTails s p).memOk := by
  unfold State.countTails
  with_reducible repeat' first
    | assumption | apply State.setReg_memOk | apply foldl_memOk | apply foldl_fst_memOk | intro _ _ _ | intro _ _ | intro _ | dsimp only

theorem State.dropRuns_memOk (s : State) (p : Nat) (h : Handle) (hs : s.memOk) : (State.dropRuns s p h).memOk := by
  unfold State.dropRuns
  with_reducible repeat' first
    | assumption | apply State.countTails_memOk | apply State.modPart_memOk | apply ite_memOk | apply foldl_memOk | apply foldl_fst_memOk
    | apply foldl_okMem | apply okMem_ok | apply okMem_error | refine okMem_elim (by assumption) | intro _ _ _ | intro _ _ | intro _
    | dsimp only | split

theorem State.putSaved_memOk (s : State) (p : Nat) (h : Handle) (root : Nat) (l : List (Nat × Nat × List Byte)) (hs : s.memOk) : (State.putSaved s p h root l).memOk := by
  unfold State.putSaved
  with_reducible repeat' first
    | assumption | apply State.modPart_memOk | apply State.writeSaveLines_memOk | apply ite_memOk | apply foldl_memOk
    | apply foldl_fst_memOk | apply foldl_okMem | apply okMem_ok | apply okMem_error | refine okMem_elim (by assumption) | intro _ _ _
    | intro _ _ | intro _ | dsimp only | split

theorem State.saveTails_memOk (s : State) (p : Nat) (f : Found) (hs : s.memOk) : (State.saveTails s p f).memOk := by
  unfold State.saveTails
  with_reducible repeat' first
    | assumption | apply State.bump_memOk | apply State.dropRuns_memOk | apply State.putSaved_memOk | apply State.setEntryAt_memOk
    | apply ite_memOk | apply foldl_memOk | apply foldl_fst_memOk | apply foldl_okMem | apply okMem_ok | apply okMem_error
    | refine okMem_elim (by assumption) | intro _ _ _ | intro _ _ | intro _ | dsimp only | split

theorem State.takeRun_memOk {s : State} {p : Nat} {h : Handle} {set site n : Nat} {t : State} (eqn : State.takeRun s p h set site n = some t) (hs : s.memOk) : t.memOk := by
  unfold State.takeRun at eqn
  obtain ⟨x, _, rfl⟩ := Option.map_eq_some_iff.mp eqn
  exact State.modPart_memOk _ _ _ (State.clearTails_memOk _ _ _ _ hs)

theorem State.giveRun_memOk (s : State) (p : Nat) (h : Handle) (set site n : Nat) (y0 : Nat) (hs : s.memOk) : (State.giveRun s p h set site n y0).1.memOk := by
  induction y0 generalizing s with
  | zero =>
    unfold State.giveRun
    split
    · exact State.takeRun_memOk (by assumption) hs
    · exact hs
  | succ saves ih =>
    unfold State.giveRun
    split
    · exact State.takeRun_memOk (by assumption) hs
    · split
      · exact ih _ (State.saveTails_memOk _ _ _ hs)
      · exact hs

theorem State.giveRun_memOk' {s : State} {p : Nat} {h : Handle} {set site n : Nat} {y0 : Nat} {t : State} {x1 : Bool} (eqn : State.giveRun s p h set site n y0 = (t, x1)) (hs : s.memOk) : t.memOk :=
  pair_memOk eqn (State.giveRun_memOk s p h set site n y0 hs)

theorem State.giveTails_memOk (s : State) (p slot : Nat) (sheets : List SheetDecl) (saves : Nat) (hs : s.memOk) : (State.giveTails s p slot sheets saves).1.memOk := by
  unfold State.giveTails
  with_reducible repeat' first
    | assumption | apply State.countTails_memOk | apply State.giveRun_memOk | apply State.modPart_memOk | apply State.setRow_memOk
    | apply State.setTailBytes_memOk | apply ite_memOk | apply foldl_memOk | apply foldl_fst_memOk | apply foldl_okMem | apply okMem_ok
    | apply okMem_error | refine okMem_elim (by assumption) | intro _ _ _ | intro _ _ | intro _ | dsimp only | split

theorem State.giveTails_memOk' {s : State} {p slot : Nat} {sheets : List SheetDecl} {saves : Nat} {t : State} {x1 : Bool} (eqn : State.giveTails s p slot sheets saves = (t, x1)) (hs : s.memOk) : t.memOk :=
  pair_memOk eqn (State.giveTails_memOk s p slot sheets saves hs)

theorem State.trimTails_memOk (s : State) (p : Nat) (h : Handle) (length : Nat) (hs : s.memOk) : (State.trimTails s p h length).memOk := by
  unfold State.trimTails
  with_reducible repeat' first
    | assumption | apply foldl_memOk | apply foldl_fst_memOk | intro _ _ _ | intro _ _ | intro _ | dsimp only

theorem State.releaseTails_memOk (s : State) (p : Nat) (h : Handle) (hs : s.memOk) : (State.releaseTails s p h).memOk := by
  unfold State.releaseTails
  with_reducible repeat' first
    | assumption | apply State.clearTails_memOk | apply State.countTails_memOk | apply State.modPart_memOk | apply foldl_memOk
    | apply foldl_fst_memOk | intro _ _ _ | intro _ _ | intro _ | dsimp only

theorem State.failPending_memOk (s : State) (p : Nat) (h : Handle) (st : Status) (length : BitVec 32) (hs : s.memOk) : (State.failPending s p h st length).memOk := by
  unfold State.failPending
  with_reducible repeat' first
    | assumption | apply State.complete_memOk | apply State.modPart_memOk | apply foldl_memOk | apply foldl_fst_memOk | intro _ _ _
    | intro _ _ | intro _ | dsimp only

theorem State.completePlayed_memOk (s : State) (p : Nat) (h : Handle) (hs : s.memOk) : (State.completePlayed s p h).memOk := by
  unfold State.completePlayed
  with_reducible repeat' first
    | assumption | apply State.complete_memOk | apply State.modPart_memOk | apply ite_memOk | apply foldl_memOk | apply foldl_fst_memOk
    | apply foldl_okMem | apply okMem_ok | apply okMem_error | refine okMem_elim (by assumption) | intro _ _ _ | intro _ _ | intro _
    | dsimp only | split

theorem State.stageSlice_memOk (s : State) (p i : Nat) (rows : List BatchRow) (hs : s.memOk) : (State.stageSlice s p i rows).memOk := by
  unfold State.stageSlice
  with_reducible repeat' first
    | assumption | apply State.computeWrite_memOk | apply ite_memOk | apply foldl_memOk | apply foldl_fst_memOk | apply foldl_okMem
    | apply okMem_ok | apply okMem_error | refine okMem_elim (by assumption) | intro _ _ _ | intro _ _ | intro _ | dsimp only | split

theorem State.writeSlices_memOk (s : State) (p : Nat) (hs : s.memOk) : (State.writeSlices s p).memOk := by
  unfold State.writeSlices
  with_reducible repeat' first
    | assumption | apply State.stageSlice_memOk | apply ite_memOk | apply foldl_memOk | apply foldl_fst_memOk | apply foldl_okMem
    | apply okMem_ok | apply okMem_error | refine okMem_elim (by assumption) | intro _ _ _ | intro _ _ | intro _ | dsimp only | split

theorem State.unstage_memOk (s : State) (p : Nat) (h : Handle) (hs : s.memOk) : (State.unstage s p h).memOk := by
  unfold State.unstage
  with_reducible repeat' first
    | assumption | apply State.modPart_memOk | apply State.writeSlices_memOk | apply ite_memOk | apply foldl_memOk | apply foldl_fst_memOk
    | apply foldl_okMem | apply okMem_ok | apply okMem_error | refine okMem_elim (by assumption) | intro _ _ _ | intro _ _ | intro _
    | dsimp only | split

theorem State.restUnbatched_memOk (s : State) (p : Nat) (hs : s.memOk) : (State.restUnbatched s p).memOk := by
  unfold State.restUnbatched
  with_reducible repeat' first
    | assumption | apply State.setRow_memOk | apply State.streamEvent_memOk | apply ite_memOk | apply foldl_memOk | apply foldl_fst_memOk
    | apply foldl_okMem | apply okMem_ok | apply okMem_error | refine okMem_elim (by assumption) | intro _ _ _ | intro _ _ | intro _
    | dsimp only | split

theorem State.applyOpen_memOk (s : State) (p : Nat) (c : Cmd) (tenant : BitVec 16) (prio : BitVec 8) (nodes : List Addr) (hs : s.memOk) : (State.applyOpen s p c tenant prio nodes).1.memOk := by
  unfold State.applyOpen
  with_reducible repeat' first
    | assumption | apply State.admitStream_memOk | refine State.admitStream_memOk' (by assumption) ?_ | apply State.bump_memOk
    | apply State.complete_memOk | apply State.issue_memOk | refine State.issue_memOk' (by assumption) ?_ | apply State.setRow_memOk
    | apply State.streamEvent_memOk | apply State.takeNode_memOk | refine State.takeNode_memOk' (by assumption) ?_ | apply foldl_okMem
    | apply okMem_ok | apply okMem_error | refine okMem_elim (by assumption) | dsimp only | split

theorem State.applyOpen_memOk' {s : State} {p : Nat} {c : Cmd} {tenant : BitVec 16} {prio : BitVec 8} {nodes : List Addr} {t : State} {x1 : List Addr} (eqn : State.applyOpen s p c tenant prio nodes = (t, x1)) (hs : s.memOk) : t.memOk :=
  pair_memOk eqn (State.applyOpen_memOk s p c tenant prio nodes hs)

theorem State.makeResident_memOk (s : State) (p : Nat) (f : Found) (hs : s.memOk) : (State.makeResident s p f).1.memOk := by
  unfold State.makeResident
  with_reducible repeat' first
    | assumption | apply State.unparkStream_memOk | refine State.unparkStream_memOk' (by assumption) ?_ | dsimp only | split

theorem State.makeResident_memOk' {s : State} {p : Nat} {f : Found} {t : State} {x1 : Option Nat} (eqn : State.makeResident s p f = (t, x1)) (hs : s.memOk) : t.memOk :=
  pair_memOk eqn (State.makeResident_memOk s p f hs)

theorem State.applyAppend_memOk (s : State) (p : Nat) (c : Cmd) (h : Handle) (positions : BitVec 32) (prompt : Word) (hs : s.memOk) : (State.applyAppend s p c h positions prompt).memOk := by
  unfold State.applyAppend
  with_reducible repeat' first
    | assumption | apply State.complete_memOk | apply State.makeResident_memOk | refine State.makeResident_memOk' (by assumption) ?_
    | apply State.modPart_memOk | apply State.setRow_memOk | apply ite_memOk | apply foldl_memOk | apply foldl_fst_memOk | apply foldl_okMem
    | apply okMem_ok | apply okMem_error | refine okMem_elim (by assumption) | intro _ _ _ | intro _ _ | intro _ | dsimp only | split

theorem State.applyAdvance_memOk (s : State) (p : Nat) (c : Cmd) (h : Handle) (positions : BitVec 16) (hs : s.memOk) : (State.applyAdvance s p c h positions).memOk := by
  unfold State.applyAdvance
  with_reducible repeat' first
    | assumption | apply State.complete_memOk | apply State.makeResident_memOk | refine State.makeResident_memOk' (by assumption) ?_
    | apply State.modPart_memOk | apply State.setRow_memOk | apply ite_memOk | apply foldl_memOk | apply foldl_fst_memOk | apply foldl_okMem
    | apply okMem_ok | apply okMem_error | refine okMem_elim (by assumption) | intro _ _ _ | intro _ _ | intro _ | dsimp only | split

theorem State.releaseStream_memOk (s : State) (p : Nat) (h : Handle) (root : Nat) (hs : s.memOk) : (State.releaseStream s p h root).memOk := by
  unfold State.releaseStream
  with_reducible repeat' first
    | assumption | apply State.modPart_memOk | apply State.releaseTable_memOk | apply State.releaseTails_memOk | apply ite_memOk
    | apply foldl_memOk | apply foldl_fst_memOk | apply foldl_okMem | apply okMem_ok | apply okMem_error | refine okMem_elim (by assumption)
    | intro _ _ _ | intro _ _ | intro _ | dsimp only | split

theorem State.settleShared_memOk (s : State) (p : Nat) (hs : s.memOk) : (State.settleShared s p).memOk := by
  unfold State.settleShared
  with_reducible repeat' first
    | assumption | apply State.setParked_memOk | apply State.setRow_memOk | apply ite_memOk | apply foldl_memOk | apply foldl_fst_memOk
    | apply foldl_okMem | apply okMem_ok | apply okMem_error | refine okMem_elim (by assumption) | intro _ _ _ | intro _ _ | intro _
    | dsimp only | split

theorem State.applyClose_memOk (s : State) (p : Nat) (c : Cmd) (h : Handle) (hs : s.memOk) : (State.applyClose s p c h).memOk := by
  unfold State.applyClose
  with_reducible repeat' first
    | assumption | apply State.complete_memOk | apply State.dropParked_memOk | apply State.failPending_memOk
    | apply State.releaseStream_memOk | apply State.setRow_memOk | apply State.streamEvent_memOk | apply State.unstage_memOk
    | apply ite_memOk | apply foldl_memOk | apply foldl_fst_memOk | apply foldl_okMem | apply okMem_ok | apply okMem_error
    | refine okMem_elim (by assumption) | intro _ _ _ | intro _ _ | intro _ | dsimp only | split

theorem State.applyPark_memOk (s : State) (p : Nat) (c : Cmd) (h : Handle) (hs : s.memOk) : (State.applyPark s p c h).memOk := by
  unfold State.applyPark
  with_reducible repeat' first
    | assumption | apply ite_memOk | apply State.complete_memOk | apply State.parkRow_memOk | apply foldl_okMem | apply okMem_ok
    | apply okMem_error | refine okMem_elim (by assumption) | dsimp only | split

theorem State.applyUnpark_memOk (s : State) (p : Nat) (c : Cmd) (h : Handle) (hs : s.memOk) : (State.applyUnpark s p c h).memOk := by
  unfold State.applyUnpark
  with_reducible repeat' first
    | assumption | apply State.complete_memOk | apply State.makeResident_memOk | refine State.makeResident_memOk' (by assumption) ?_
    | apply foldl_okMem | apply okMem_ok | apply okMem_error | refine okMem_elim (by assumption) | dsimp only | split

theorem State.sharePages_memOk (s : State) (p : Nat) (parent : Handle) (parentRoot childRoot pre : Nat) (nodes : List Addr) (hs : s.memOk) : (State.sharePages s p parent parentRoot childRoot pre nodes).1.memOk := by
  unfold State.sharePages
  with_reducible repeat' first
    | assumption | apply State.placeLeaf_memOk | refine State.placeLeaf_memOk' (by assumption) ?_ | apply State.setLeaf_memOk
    | apply State.setSharers_memOk | apply foldl_memOk | apply foldl_fst_memOk | intro _ _ _ | intro _ _ | intro _ | dsimp only | split

theorem State.sharePages_memOk' {s : State} {p : Nat} {parent : Handle} {parentRoot childRoot pre : Nat} {nodes : List Addr} {t : State} {x1 : List Addr} (eqn : State.sharePages s p parent parentRoot childRoot pre nodes = (t, x1)) (hs : s.memOk) : t.memOk :=
  pair_memOk eqn (State.sharePages_memOk s p parent parentRoot childRoot pre nodes hs)

theorem State.copyTails_memOk (s : State) (p : Nat) (parent child : Handle) (root : Nat) (hs : s.memOk) : (State.copyTails s p parent child root).memOk := by
  unfold State.copyTails
  with_reducible repeat' first
    | assumption | apply State.putSaved_memOk | apply ite_memOk | apply foldl_memOk | apply foldl_fst_memOk | apply foldl_okMem
    | apply okMem_ok | apply okMem_error | refine okMem_elim (by assumption) | intro _ _ _ | intro _ _ | intro _ | dsimp only | split

theorem State.applyFork_memOk (s : State) (p : Nat) (c : Cmd) (h : Handle) (pre : BitVec 32) (nodes : List Addr) (hs : s.memOk) : (State.applyFork s p c h pre nodes).1.memOk := by
  unfold State.applyFork
  with_reducible repeat' first
    | assumption | apply State.admitStream_memOk | refine State.admitStream_memOk' (by assumption) ?_ | apply State.bump_memOk
    | apply State.complete_memOk | apply State.copyTails_memOk | apply State.issue_memOk | refine State.issue_memOk' (by assumption) ?_
    | apply State.setEntryAt_memOk | apply State.setRow_memOk | apply State.sharePages_memOk
    | refine State.sharePages_memOk' (by assumption) ?_ | apply State.streamEvent_memOk | apply State.takeNode_memOk
    | refine State.takeNode_memOk' (by assumption) ?_ | apply ite_memOk | apply foldl_memOk | apply foldl_fst_memOk | apply foldl_okMem
    | apply okMem_ok | apply okMem_error | refine okMem_elim (by assumption) | intro _ _ _ | intro _ _ | intro _ | dsimp only | split

theorem State.applyFork_memOk' {s : State} {p : Nat} {c : Cmd} {h : Handle} {pre : BitVec 32} {nodes : List Addr} {t : State} {x1 : List Addr} (eqn : State.applyFork s p c h pre nodes = (t, x1)) (hs : s.memOk) : t.memOk :=
  pair_memOk eqn (State.applyFork_memOk s p c h pre nodes hs)

theorem State.advanceStream_memOk (s : State) (p slot : Nat) (r : BatchRow) (hs : s.memOk) : (State.advanceStream s p slot r).memOk := by
  unfold State.advanceStream
  with_reducible repeat' first
    | assumption | apply State.completePlayed_memOk | apply State.modPart_memOk | apply State.setRow_memOk | apply State.trimTails_memOk
    | apply ite_memOk | apply foldl_memOk | apply foldl_fst_memOk | apply foldl_okMem | apply okMem_ok | apply okMem_error
    | refine okMem_elim (by assumption) | intro _ _ _ | intro _ _ | intro _ | dsimp only | split

theorem State.giveUp_memOk (s : State) (p slot : Nat) (hs : s.memOk) : (State.giveUp s p slot).memOk := by
  unfold State.giveUp
  with_reducible repeat' first
    | assumption | apply State.bump_memOk | apply State.complete_memOk | apply State.completePlayed_memOk | apply State.modPart_memOk
    | apply State.setRow_memOk | apply ite_memOk | apply foldl_memOk | apply foldl_fst_memOk | apply foldl_okMem | apply okMem_ok
    | apply okMem_error | refine okMem_elim (by assumption) | intro _ _ _ | intro _ _ | intro _ | dsimp only | split

theorem State.notAdvanceStream_memOk (s : State) (p slot : Nat) (keepRetries : Bool) (hs : s.memOk) : (State.notAdvanceStream s p slot keepRetries).memOk := by
  unfold State.notAdvanceStream
  with_reducible repeat' first
    | assumption | apply State.bump_memOk | apply State.giveUp_memOk | apply State.setRow_memOk | apply State.trimTails_memOk
    | apply State.unstage_memOk | apply ite_memOk | apply foldl_memOk | apply foldl_fst_memOk | apply foldl_okMem | apply okMem_ok
    | apply okMem_error | refine okMem_elim (by assumption) | intro _ _ _ | intro _ _ | intro _ | dsimp only | split

theorem State.batchOutcome_memOk (s : State) (p : Nat) (hs : s.memOk) : (State.batchOutcome s p).memOk := by
  unfold State.batchOutcome
  with_reducible repeat' first
    | assumption | apply ite_memOk | apply State.advanceStream_memOk | apply State.countStreams_memOk | apply State.modPart_memOk
    | apply State.notAdvanceStream_memOk | apply foldl_memOk | apply foldl_fst_memOk | intro _ _ _ | intro _ _ | intro _ | dsimp only
    | split

theorem State.freeClosing_memOk (s : State) (p : Nat) (hs : s.memOk) : (State.freeClosing s p).memOk := by
  unfold State.freeClosing
  with_reducible repeat' first
    | assumption | apply State.countStreams_memOk | apply State.freeRowAt_memOk | apply State.modPart_memOk
    | apply State.releaseStream_memOk | apply State.releaseTable_memOk | apply State.releaseTails_memOk | apply State.settleShared_memOk
    | apply ite_memOk | apply foldl_memOk | apply foldl_fst_memOk | apply foldl_okMem | apply okMem_ok | apply okMem_error
    | refine okMem_elim (by assumption) | intro _ _ _ | intro _ _ | intro _ | dsimp only | split

end Sys2Proof.Machine
end

