-- ==== Sys2Proof/Laws/MemTurns.lean ====
section
/-! SUPPORT. Memory keeps its canonical form (Memory.wf, State.memOk) through each function of Latching, Net, Fences, Snet, Turns, Pool, Migrate and TurnCommands: one lemma per
function that answers a state, and for a function that answers a state with something else a second one, marked with a prime, that takes
the answer as an equation. -/

namespace Sys2Proof.Machine

set_option linter.unusedTactic false
set_option linter.unreachableTactic false
set_option linter.unusedVariables false

/-! Latching -/

theorem State.latch_memOk (s : State) (n : RegName) (i j : Nat) (hs : s.memOk) : (State.latch s n i j).memOk := by
  unfold State.latch
  with_reducible repeat' first
    | assumption | apply ite_memOk | apply State.latchReg_memOk | dsimp only | split

theorem State.latchTurnLen_memOk (s : State) (p : Nat) (v : Word) (hs : s.memOk) : (State.latchTurnLen s p v).memOk := by
  unfold State.latchTurnLen
  with_reducible repeat' first
    | assumption | apply State.event7F_memOk | apply State.latchReg_memOk | apply ite_memOk | apply foldl_memOk | apply foldl_fst_memOk
    | apply foldl_okMem | apply okMem_ok | apply okMem_error | refine okMem_elim (by assumption) | intro _ _ _ | intro _ _ | intro _
    | dsimp only | split

theorem State.latchChgLen_memOk (s : State) (p : Nat) (v : Word) (hs : s.memOk) : (State.latchChgLen s p v).memOk := by
  unfold State.latchChgLen
  with_reducible repeat' first
    | assumption | apply State.event7F_memOk | apply State.latchReg_memOk | apply ite_memOk | apply foldl_memOk | apply foldl_fst_memOk
    | apply foldl_okMem | apply okMem_ok | apply okMem_error | refine okMem_elim (by assumption) | intro _ _ _ | intro _ _ | intro _
    | dsimp only | split

theorem State.latchFields_memOk (s : State) (p : Nat) (hs : s.memOk) : (State.latchFields s p).memOk := by
  unfold State.latchFields
  with_reducible repeat' first
    | assumption | apply State.latch_memOk | apply State.latchChgLen_memOk | apply State.latchTurnLen_memOk | apply ite_memOk
    | apply foldl_memOk | apply foldl_fst_memOk | apply foldl_okMem | apply okMem_ok | apply okMem_error | refine okMem_elim (by assumption)
    | intro _ _ _ | intro _ _ | intro _ | dsimp only | split

theorem State.askStep_memOk (s : State) (p step : Nat) (hs : s.memOk) : (State.askStep s p step).memOk := by
  unfold State.askStep
  with_reducible repeat' first
    | assumption | apply State.decision_memOk | apply State.setReg_memOk | apply ite_memOk | apply foldl_memOk | apply foldl_fst_memOk
    | apply foldl_okMem | apply okMem_ok | apply okMem_error | refine okMem_elim (by assumption) | intro _ _ _ | intro _ _ | intro _
    | dsimp only | split

theorem State.chooseStep_memOk (s : State) (p : Nat) (hs : s.memOk) : (State.chooseStep s p).memOk := by
  unfold State.chooseStep
  with_reducible repeat' first
    | assumption | apply State.askStep_memOk | apply State.bump_memOk | apply State.modPart_memOk | apply State.setFlag_memOk
    | apply ite_memOk | apply foldl_memOk | apply foldl_fst_memOk | apply foldl_okMem | apply okMem_ok | apply okMem_error
    | refine okMem_elim (by assumption) | intro _ _ _ | intro _ _ | intro _ | dsimp only | split

theorem State.trimBatch_memOk (s : State) (p : Nat) (hs : s.memOk) : (State.trimBatch s p).memOk := by
  unfold State.trimBatch
  with_reducible repeat' first
    | assumption | apply State.decision_memOk | apply State.restUnbatched_memOk | apply State.unstage_memOk | apply ite_memOk
    | apply foldl_memOk | apply foldl_fst_memOk | apply foldl_okMem | apply okMem_ok | apply okMem_error | refine okMem_elim (by assumption)
    | intro _ _ _ | intro _ _ | intro _ | dsimp only | split

theorem State.chooseTurnLen_memOk (s : State) (p : Nat) (hs : s.memOk) : (State.chooseTurnLen s p).memOk := by
  unfold State.chooseTurnLen
  with_reducible repeat' first
    | assumption | apply State.decision_memOk | apply State.setReg_memOk | apply ite_memOk | apply foldl_memOk | apply foldl_fst_memOk
    | apply foldl_okMem | apply okMem_ok | apply okMem_error | refine okMem_elim (by assumption) | intro _ _ _ | intro _ _ | intro _
    | dsimp only | split

theorem State.requestMap_memOk (s : State) (p m : Nat) (hs : s.memOk) : (State.requestMap s p m).memOk := by
  unfold State.requestMap
  with_reducible repeat' first
    | assumption | apply State.decision_memOk | apply State.setReg_memOk | apply ite_memOk | apply foldl_memOk | apply foldl_fst_memOk
    | apply foldl_okMem | apply okMem_ok | apply okMem_error | refine okMem_elim (by assumption) | intro _ _ _ | intro _ _ | intro _
    | dsimp only | split

theorem State.chooseMap_memOk (s : State) (p : Nat) (hs : s.memOk) : (State.chooseMap s p).memOk := by
  unfold State.chooseMap
  with_reducible repeat' first
    | assumption | apply State.requestMap_memOk | apply ite_memOk | apply foldl_memOk | apply foldl_fst_memOk | apply foldl_okMem
    | apply okMem_ok | apply okMem_error | refine okMem_elim (by assumption) | intro _ _ _ | intro _ _ | intro _ | dsimp only | split

theorem State.followChange_memOk (s : State) (n : RegName) (p : Nat) (v : Word) (hs : s.memOk) : (State.followChange s n p v).memOk := by
  unfold State.followChange
  with_reducible repeat' first
    | assumption | apply State.setReg_memOk | apply ite_memOk | apply foldl_memOk | apply foldl_fst_memOk | apply foldl_okMem
    | apply okMem_ok | apply okMem_error | refine okMem_elim (by assumption) | intro _ _ _ | intro _ _ | intro _ | dsimp only | split

theorem State.applySpanChanges_memOk (s : State) (p : Nat) (hs : s.memOk) : (State.applySpanChanges s p).memOk := by
  unfold State.applySpanChanges
  with_reducible repeat' first
    | assumption | apply State.decision_memOk | apply State.followChange_memOk | apply State.latchChgLen_memOk | apply State.latchReg_memOk
    | apply State.latchTurnLen_memOk | apply State.modPart_memOk | apply ite_memOk | apply foldl_memOk | apply foldl_fst_memOk
    | apply foldl_okMem | apply okMem_ok | apply okMem_error | refine okMem_elim (by assumption) | intro _ _ _ | intro _ _ | intro _
    | dsimp only | split

theorem State.announceChange_memOk (s : State) (p : Nat) (maint : Bool) (hs : s.memOk) : (State.announceChange s p maint).memOk := by
  unfold State.announceChange
  with_reducible repeat' first
    | assumption | apply State.modPart_memOk | apply State.tellMembers_memOk | apply ite_memOk | apply foldl_memOk | apply foldl_fst_memOk
    | apply foldl_okMem | apply okMem_ok | apply okMem_error | refine okMem_elim (by assumption) | intro _ _ _ | intro _ _ | intro _
    | dsimp only | split

theorem State.announceNew_memOk (s : State) (p : Nat) (hs : s.memOk) : (State.announceNew s p).memOk := by
  unfold State.announceNew
  with_reducible repeat' first
    | assumption | apply State.announceChange_memOk | apply ite_memOk | apply foldl_memOk | apply foldl_fst_memOk | apply foldl_okMem
    | apply okMem_ok | apply okMem_error | refine okMem_elim (by assumption) | intro _ _ _ | intro _ _ | intro _ | dsimp only | split

theorem State.applyPolicies_memOk (s : State) (p : Nat) (hs : s.memOk) : (State.applyPolicies s p).memOk := by
  unfold State.applyPolicies
  with_reducible repeat' first
    | assumption | apply ite_memOk | apply State.complete_memOk | apply State.modPart_memOk | apply State.setReg_memOk | apply foldl_memOk
    | apply foldl_fst_memOk | apply foldl_okMem | apply okMem_ok | apply okMem_error | refine okMem_elim (by assumption) | intro _ _ _
    | intro _ _ | intro _ | dsimp only | split

theorem State.budgetStep_memOk (s : State) (p : Nat) (hs : s.memOk) : (State.budgetStep s p).memOk := by
  unfold State.budgetStep
  with_reducible repeat' first
    | assumption | apply State.setReg_memOk | dsimp only | split

theorem State.takeBoundary_memOk (s : State) (p : Nat) (hs : s.memOk) : (State.takeBoundary s p).memOk := by
  unfold State.takeBoundary
  with_reducible repeat' first
    | assumption | apply State.latchFields_memOk | apply State.modPart_memOk | apply ite_memOk | apply foldl_memOk | apply foldl_fst_memOk
    | apply foldl_okMem | apply okMem_ok | apply okMem_error | refine okMem_elim (by assumption) | intro _ _ _ | intro _ _ | intro _
    | dsimp only | split

theorem State.openChangeover_memOk (s : State) (p : Nat) (hs : s.memOk) : (State.openChangeover s p).memOk := by
  unfold State.openChangeover
  with_reducible repeat' first
    | assumption | apply State.announceNew_memOk | apply State.applyPolicies_memOk | apply State.applySpanChanges_memOk
    | apply State.budgetStep_memOk | apply State.chooseMap_memOk | apply State.chooseStep_memOk | apply State.chooseTurnLen_memOk
    | apply State.modPart_memOk | apply State.takeBoundary_memOk | apply State.trimBatch_memOk | apply ite_memOk | apply foldl_memOk
    | apply foldl_fst_memOk | apply foldl_okMem | apply okMem_ok | apply okMem_error | refine okMem_elim (by assumption) | intro _ _ _
    | intro _ _ | intro _ | dsimp only | split

/-! Net -/

theorem State.setBnetBuf_memOk (s : State) (q k : Nat) (l : List BnetPacket) (hs : s.memOk) : (State.setBnetBuf s q k l).memOk := by
  unfold State.setBnetBuf
  with_reducible repeat' first
    | assumption | apply State.modSquare_memOk | apply ite_memOk | apply foldl_memOk | apply foldl_fst_memOk | apply foldl_okMem
    | apply okMem_ok | apply okMem_error | refine okMem_elim (by assumption) | intro _ _ _ | intro _ _ | intro _ | dsimp only | split

theorem State.setCircuitQueue_memOk (s : State) (q c : Nat) (l : List BnetPacket) (hs : s.memOk) : (State.setCircuitQueue s q c l).memOk := by
  unfold State.setCircuitQueue
  with_reducible repeat' first
    | assumption | apply State.modSquare_memOk | apply ite_memOk | apply foldl_memOk | apply foldl_fst_memOk | apply foldl_okMem
    | apply okMem_ok | apply okMem_error | refine okMem_elim (by assumption) | intro _ _ _ | intro _ _ | intro _ | dsimp only | split

theorem State.sendOver_memOk (s : State) (q d : Nat) (p : BnetPacket) (hs : s.memOk) : (State.sendOver s q d p).memOk := by
  unfold State.sendOver
  with_reducible repeat' first
    | assumption | apply State.bump_memOk | apply State.modSquare_memOk | apply ite_memOk | apply foldl_memOk | apply foldl_fst_memOk
    | apply foldl_okMem | apply okMem_ok | apply okMem_error | refine okMem_elim (by assumption) | intro _ _ _ | intro _ _ | intro _
    | dsimp only | split

theorem State.serveOut_memOk {s : State} {q d : Nat} {t : State}  (eqn : State.serveOut s q d = some t) (hs : s.memOk) : t.memOk := by
  unfold State.serveOut at eqn
  dsimp only at eqn
  repeat' split at eqn
  all_goals cases eqn
  repeat' first
    | with_reducible assumption
    | with_reducible apply State.modSquare_memOk
    | with_reducible apply State.sendOver_memOk
    | with_reducible apply State.setBnetBuf_memOk
    | with_reducible apply ite_memOk
    | with_reducible apply foldl_memOk
    | with_reducible apply foldl_fst_memOk
    | with_reducible apply foldl_okMem
    | with_reducible apply okMem_ok
    | with_reducible apply okMem_error
    | with_reducible refine okMem_elim (by with_reducible assumption)
    | (intro _ _ _)
    | (intro _ _)
    | (intro _)
    | dsimp only
    | split
    | with_reducible refine pair_memOk (by with_reducible assumption) ?_
    | with_reducible refine okMem_mem (by with_reducible assumption) ?_

theorem State.enterLocal_memOk {s : State} {q : Nat} {p : BnetPacket} {t : State}  (eqn : State.enterLocal s q p = some t) (hs : s.memOk) : t.memOk := by
  unfold State.enterLocal at eqn
  dsimp only at eqn
  repeat' split at eqn
  all_goals cases eqn
  repeat' first
    | with_reducible assumption
    | with_reducible apply State.setBnetBuf_memOk
    | with_reducible apply State.setCircuitQueue_memOk
    | with_reducible apply ite_memOk
    | with_reducible apply foldl_memOk
    | with_reducible apply foldl_fst_memOk
    | with_reducible apply foldl_okMem
    | with_reducible apply okMem_ok
    | with_reducible apply okMem_error
    | with_reducible refine okMem_elim (by with_reducible assumption)
    | (intro _ _ _)
    | (intro _ _)
    | (intro _)
    | dsimp only
    | split
    | with_reducible refine pair_memOk (by with_reducible assumption) ?_
    | with_reducible refine okMem_mem (by with_reducible assumption) ?_

theorem State.enterAll_memOk (s : State) (q : Nat) (l : List BnetPacket) (hs : s.memOk) : (State.enterAll s q l).1.memOk := by
  induction l generalizing s with
  | nil => exact hs
  | cons p l ih =>
    unfold State.enterAll
    split
    · exact ih _ (State.enterLocal_memOk (by assumption) hs)
    · exact ih _ hs

theorem State.enterAll_memOk' {s : State} {q : Nat} {l : List BnetPacket} {t : State} {x1 : List BnetPacket} (eqn : State.enterAll s q l = (t, x1)) (hs : s.memOk) : t.memOk :=
  pair_memOk eqn (State.enterAll_memOk s q l hs)

theorem State.refill_memOk (s : State) (q : Nat) (hs : s.memOk) : (State.refill s q).memOk := by
  unfold State.refill
  with_reducible repeat' first
    | assumption | apply State.enterAll_memOk | apply State.modSquare_memOk | apply State.take_memOk | apply ite_memOk | apply foldl_memOk
    | apply foldl_fst_memOk | apply foldl_okMem | apply okMem_ok | apply okMem_error | refine okMem_elim (by assumption) | intro _ _ _
    | intro _ _ | intro _ | dsimp only | split

theorem State.serveFor_memOk (s : State) (q : Nat) (n : Nat) (hs : s.memOk) : (State.serveFor s q n).memOk := by
  induction n generalizing s with
  | zero => exact hs
  | succ n ih =>
    unfold State.serveFor
    dsimp only
    split
    · rename_i t e
      obtain ⟨d, _, e⟩ := List.exists_of_findSome?_eq_some e
      exact ih _ (State.serveOut_memOk e (State.refill_memOk _ _ hs))
    · exact State.refill_memOk _ _ hs

theorem State.serve_memOk (s : State) (q : Nat) (hs : s.memOk) : (State.serve s q).memOk := by
  unfold State.serve
  with_reducible repeat' first
    | assumption | apply State.serveFor_memOk | apply ite_memOk | apply foldl_memOk | apply foldl_fst_memOk | apply foldl_okMem
    | apply okMem_ok | apply okMem_error | refine okMem_elim (by assumption) | intro _ _ _ | intro _ _ | intro _ | dsimp only | split

theorem State.serveRouter_memOk (s : State) (q : Nat) (hs : s.memOk) : (State.serveRouter s q).memOk := by
  unfold State.serveRouter
  with_reducible repeat' first
    | assumption | apply State.serve_memOk | apply ite_memOk | apply foldl_memOk | apply foldl_fst_memOk | apply foldl_okMem
    | apply okMem_ok | apply okMem_error | refine okMem_elim (by assumption) | intro _ _ _ | intro _ _ | intro _ | dsimp only | split

theorem State.injectBnet_memOk (s : State) (q : Nat) (p : BnetPacket) (hs : s.memOk) : (State.injectBnet s q p).memOk := by
  unfold State.injectBnet
  with_reducible repeat' first
    | assumption | apply State.modSquare_memOk | apply State.serveRouter_memOk | apply ite_memOk | apply foldl_memOk | apply foldl_fst_memOk
    | apply foldl_okMem | apply okMem_ok | apply okMem_error | refine okMem_elim (by assumption) | intro _ _ _ | intro _ _ | intro _
    | dsimp only | split

theorem State.setCnetBuf_memOk (s : State) (q k : Nat) (l : List CnetPacket) (hs : s.memOk) : (State.setCnetBuf s q k l).memOk := by
  unfold State.setCnetBuf
  with_reducible repeat' first
    | assumption | apply State.modSquare_memOk | apply ite_memOk | apply foldl_memOk | apply foldl_fst_memOk | apply foldl_okMem
    | apply okMem_ok | apply okMem_error | refine okMem_elim (by assumption) | intro _ _ _ | intro _ _ | intro _ | dsimp only | split

theorem State.cnetServeOut_memOk {s : State} {q d : Nat} {t : State}  (eqn : State.cnetServeOut s q d = some t) (hs : s.memOk) : t.memOk := by
  unfold State.cnetServeOut at eqn
  dsimp only at eqn
  repeat' split at eqn
  all_goals cases eqn
  repeat' first
    | with_reducible assumption
    | with_reducible apply State.modSquare_memOk
    | with_reducible apply State.setCnetBuf_memOk
    | with_reducible apply ite_memOk
    | with_reducible apply foldl_memOk
    | with_reducible apply foldl_fst_memOk
    | with_reducible apply foldl_okMem
    | with_reducible apply okMem_ok
    | with_reducible apply okMem_error
    | with_reducible refine okMem_elim (by with_reducible assumption)
    | (intro _ _ _)
    | (intro _ _)
    | (intro _)
    | dsimp only
    | split
    | with_reducible refine pair_memOk (by with_reducible assumption) ?_
    | with_reducible refine okMem_mem (by with_reducible assumption) ?_

theorem State.cnetEnter_memOk {s : State} {q : Nat} {p : CnetPacket} {t : State}  (eqn : State.cnetEnter s q p = some t) (hs : s.memOk) : t.memOk := by
  unfold State.cnetEnter at eqn
  dsimp only at eqn
  repeat' split at eqn
  all_goals cases eqn
  repeat' first
    | with_reducible assumption
    | with_reducible apply State.bump_memOk
    | with_reducible apply State.setCnetBuf_memOk
    | with_reducible apply ite_memOk
    | with_reducible apply foldl_memOk
    | with_reducible apply foldl_fst_memOk
    | with_reducible apply foldl_okMem
    | with_reducible apply okMem_ok
    | with_reducible apply okMem_error
    | with_reducible refine okMem_elim (by with_reducible assumption)
    | (intro _ _ _)
    | (intro _ _)
    | (intro _)
    | dsimp only
    | split
    | with_reducible refine pair_memOk (by with_reducible assumption) ?_
    | with_reducible refine okMem_mem (by with_reducible assumption) ?_

theorem State.cnetRefill_memOk (s : State) (q : Nat) (hs : s.memOk) : (State.cnetRefill s q).memOk := by
  unfold State.cnetRefill
  with_reducible repeat' first
    | assumption | refine State.cnetEnter_memOk (by assumption) ?_ | apply State.modSquare_memOk | apply ite_memOk | apply foldl_memOk
    | apply foldl_fst_memOk | apply foldl_okMem | apply okMem_ok | apply okMem_error | refine okMem_elim (by assumption) | intro _ _ _
    | intro _ _ | intro _ | dsimp only | split

theorem State.cnetServeFor_memOk (s : State) (q : Nat) (n : Nat) (hs : s.memOk) : (State.cnetServeFor s q n).memOk := by
  induction n generalizing s with
  | zero => exact hs
  | succ n ih =>
    unfold State.cnetServeFor
    dsimp only
    split
    · rename_i t e
      obtain ⟨d, _, e⟩ := List.exists_of_findSome?_eq_some e
      exact ih _ (State.cnetServeOut_memOk e (State.cnetRefill_memOk _ _ hs))
    · exact State.cnetRefill_memOk _ _ hs

theorem State.cnetServe_memOk (s : State) (q : Nat) (hs : s.memOk) : (State.cnetServe s q).memOk := by
  unfold State.cnetServe
  with_reducible repeat' first
    | assumption | apply State.cnetServeFor_memOk | apply ite_memOk | apply foldl_memOk | apply foldl_fst_memOk | apply foldl_okMem
    | apply okMem_ok | apply okMem_error | refine okMem_elim (by assumption) | intro _ _ _ | intro _ _ | intro _ | dsimp only | split

theorem State.cnetServeRouter_memOk (s : State) (q : Nat) (hs : s.memOk) : (State.cnetServeRouter s q).memOk := by
  unfold State.cnetServeRouter
  with_reducible repeat' first
    | assumption | apply State.cnetServe_memOk | apply ite_memOk | apply foldl_memOk | apply foldl_fst_memOk | apply foldl_okMem
    | apply okMem_ok | apply okMem_error | refine okMem_elim (by assumption) | intro _ _ _ | intro _ _ | intro _ | dsimp only | split

theorem State.takeToken_memOk (s : State) (q : Nat) (hs : s.memOk) : (State.takeToken s q).memOk := by
  unfold State.takeToken
  with_reducible repeat' first
    | assumption | apply State.modSquare_memOk | apply ite_memOk | apply foldl_memOk | apply foldl_fst_memOk | apply foldl_okMem
    | apply okMem_ok | apply okMem_error | refine okMem_elim (by assumption) | intro _ _ _ | intro _ _ | intro _ | dsimp only | split

theorem State.cnetAdmit_memOk (s : State) (q : Nat) (p : CnetPacket) (hs : s.memOk) : (State.cnetAdmit s q p).memOk := by
  unfold State.cnetAdmit
  with_reducible repeat' first
    | assumption | refine State.cnetEnter_memOk (by assumption) ?_ | apply State.cnetServeRouter_memOk | apply State.modSquare_memOk
    | apply State.takeToken_memOk | apply ite_memOk | apply foldl_memOk | apply foldl_fst_memOk | apply foldl_okMem | apply okMem_ok
    | apply okMem_error | refine okMem_elim (by assumption) | intro _ _ _ | intro _ _ | intro _ | dsimp only | split

theorem State.injectCnet_memOk (s : State) (q : Nat) (p : CnetPacket) (hs : s.memOk) : (State.injectCnet s q p).memOk := by
  unfold State.injectCnet
  with_reducible repeat' first
    | assumption | apply State.bump_memOk | apply State.cnetAdmit_memOk | apply State.modSquare_memOk | apply ite_memOk | apply foldl_memOk
    | apply foldl_fst_memOk | apply foldl_okMem | apply okMem_ok | apply okMem_error | refine okMem_elim (by assumption) | intro _ _ _
    | intro _ _ | intro _ | dsimp only | split

theorem State.snSend_memOk (s : State) (q : Nat) (dirs : List Nat) (m : BitVec 64) (hs : s.memOk) : (State.snSend s q dirs m).memOk := by
  unfold State.snSend
  with_reducible repeat' first
    | assumption | apply State.modSquare_memOk | apply ite_memOk | apply foldl_memOk | apply foldl_fst_memOk | apply foldl_okMem
    | apply okMem_ok | apply okMem_error | refine okMem_elim (by assumption) | intro _ _ _ | intro _ _ | intro _ | dsimp only | split

theorem State.snDown_memOk (s : State) (q : Nat) (m : BitVec 64) (hs : s.memOk) : (State.snDown s q m).memOk := by
  unfold State.snDown
  with_reducible repeat' first
    | assumption | apply State.snSend_memOk | apply ite_memOk | apply foldl_memOk | apply foldl_fst_memOk | apply foldl_okMem
    | apply okMem_ok | apply okMem_error | refine okMem_elim (by assumption) | intro _ _ _ | intro _ _ | intro _ | dsimp only | split

theorem State.rootSends_memOk (s : State) (p : Nat) (m : BitVec 64) (hs : s.memOk) : (State.rootSends s p m).memOk := by
  unfold State.rootSends
  with_reducible repeat' first
    | assumption | apply State.snDown_memOk | apply ite_memOk | apply foldl_memOk | apply foldl_fst_memOk | apply foldl_okMem
    | apply okMem_ok | apply okMem_error | refine okMem_elim (by assumption) | intro _ _ _ | intro _ _ | intro _ | dsimp only | split

theorem State.snUp_memOk (s : State) (q : Nat) (m : BitVec 64) (hs : s.memOk) : (State.snUp s q m).memOk := by
  unfold State.snUp
  with_reducible repeat' first
    | assumption | apply State.snSend_memOk | apply ite_memOk | apply foldl_memOk | apply foldl_fst_memOk | apply foldl_okMem
    | apply okMem_ok | apply okMem_error | refine okMem_elim (by assumption) | intro _ _ _ | intro _ _ | intro _ | dsimp only | split

/-! Fences -/

theorem State.runWheels_memOk (s : State) (p : Nat) (on : Bool) (hs : s.memOk) : (State.runWheels s p on).memOk := by
  unfold State.runWheels
  with_reducible repeat' first
    | assumption | apply State.setFlag_memOk | apply foldl_memOk | apply foldl_fst_memOk | intro _ _ _ | intro _ _ | intro _ | dsimp only
    | split

theorem State.markAborted_memOk (s : State) (p cause : Nat) (hs : s.memOk) : (State.markAborted s p cause).memOk := by
  unfold State.markAborted
  with_reducible repeat' first
    | assumption | apply ite_memOk | apply State.bump_memOk | apply State.eventAny_memOk | apply State.modPart_memOk
    | apply State.setFlag_memOk | intro _ _ _ | intro _ _ | intro _ | dsimp only | split

theorem State.abortTurn_memOk (s : State) (p cause : Nat) (hs : s.memOk) : (State.abortTurn s p cause).memOk := by
  unfold State.abortTurn
  with_reducible repeat' first
    | assumption | apply State.markAborted_memOk | apply State.modPart_memOk | apply State.openChangeover_memOk
    | apply State.rootSends_memOk | apply State.runWheels_memOk | apply State.setPhase_memOk | apply ite_memOk | apply foldl_memOk
    | apply foldl_fst_memOk | apply foldl_okMem | apply okMem_ok | apply okMem_error | refine okMem_elim (by assumption) | intro _ _ _
    | intro _ _ | intro _ | dsimp only | split

theorem State.fencePartition_memOk (s : State) (p cause : Nat) (hs : s.memOk) : (State.fencePartition s p cause).memOk := by
  unfold State.fencePartition
  with_reducible repeat' first
    | assumption | apply ite_memOk | apply State.bump_memOk | apply State.setField_memOk | apply State.setFlag_memOk
    | apply State.setReg_memOk | dsimp only | split

theorem State.fenceDie_memOk (s : State) (i : Nat) (hs : s.memOk) : (State.fenceDie s i).memOk := by
  unfold State.fenceDie
  with_reducible repeat' first
    | assumption | apply State.modDie_memOk | apply State.setSiteOut_memOk | intro _ _ _ | intro _ _ | intro _ | dsimp only

theorem State.fenceHost_memOk (s : State) (h : Nat) (hs : s.memOk) : (State.fenceHost s h).memOk := by
  unfold State.fenceHost
  with_reducible repeat' first
    | assumption | apply State.modHost_memOk | apply State.setFlag_memOk | intro _ _ _ | intro _ _ | intro _ | dsimp only | split

theorem State.takeOut_memOk (s : State) (p i cause : Nat) (hs : s.memOk) : (State.takeOut s p i cause).memOk := by
  unfold State.takeOut
  with_reducible repeat' first
    | assumption | apply State.fenceDie_memOk | apply State.fencePartition_memOk | dsimp only

theorem State.safetyAt_memOk (s : State) (p : Option Nat) (source : Nat) (n : RegName) (i j unit : Nat) (more : List Byte) (hs : s.memOk) : (State.safetyAt s p source n i j unit more).memOk := by
  unfold State.safetyAt
  with_reducible repeat' first
    | assumption | apply State.event7F_memOk | apply State.safety_memOk | dsimp only

theorem State.safetyOut_memOk (s : State) (p i : Nat) (more : List Byte) (hs : s.memOk) : (State.safetyOut s p i more).memOk := by
  unfold State.safetyOut
  with_reducible repeat' first
    | assumption | apply ite_memOk | apply State.safetyAt_memOk | dsimp only | split

theorem State.enterPeer_memOk (s : State) (p : Nat) (m : BitVec 13) (hs : s.memOk) : (State.enterPeer s p m).memOk := by
  unfold State.enterPeer
  with_reducible repeat' first
    | assumption | apply ite_memOk | apply State.fencePartition_memOk | apply State.setReg_memOk | intro _ _ _ | intro _ _ | intro _
    | dsimp only | split

theorem State.fencePeer_memOk (s : State) (m : BitVec 13) (hs : s.memOk) : (State.fencePeer s m).memOk := by
  unfold State.fencePeer
  with_reducible repeat' first
    | assumption | apply ite_memOk | apply State.abortTurn_memOk | apply State.enterPeer_memOk | apply State.fencePartition_memOk
    | apply foldl_memOk | apply foldl_fst_memOk | intro _ _ _ | intro _ _ | intro _ | dsimp only | split

theorem State.writeOcLimits_memOk (s : State) (hs : s.memOk) : (State.writeOcLimits s).memOk := by
  unfold State.writeOcLimits
  with_reducible repeat' first
    | assumption | apply State.setReg_memOk | apply foldl_memOk | apply foldl_fst_memOk | intro _ _ _ | intro _ _ | intro _ | dsimp only

theorem State.dropRegion_memOk (s : State) (r : Nat) (hs : s.memOk) : (State.dropRegion s r).memOk := by
  unfold State.dropRegion
  with_reducible repeat' first
    | assumption | apply ite_memOk | apply foldl_memOk | apply foldl_fst_memOk | apply foldl_okMem | apply okMem_ok | apply okMem_error
    | refine okMem_elim (by assumption) | intro _ _ _ | intro _ _ | intro _ | dsimp only | split

theorem State.liftRegion_memOk (s : State) (r : Nat) (hs : s.memOk) : (State.liftRegion s r).memOk := by
  unfold State.liftRegion
  with_reducible repeat' first
    | assumption | apply ite_memOk | apply foldl_memOk | apply foldl_fst_memOk | apply foldl_okMem | apply okMem_ok | apply okMem_error
    | refine okMem_elim (by assumption) | intro _ _ _ | intro _ _ | intro _ | dsimp only | split

theorem State.holdRegion_memOk (s : State) (r cause : Nat) (hs : s.memOk) : (State.holdRegion s r cause).memOk := by
  unfold State.holdRegion
  with_reducible repeat' first
    | assumption | apply State.abortTurn_memOk | apply State.dropRegion_memOk | apply State.fenceHost_memOk
    | apply State.fencePartition_memOk | apply State.modDie_memOk | apply State.setFlag_memOk | apply State.writeOcLimits_memOk
    | apply ite_memOk | apply foldl_memOk | apply foldl_fst_memOk | apply foldl_okMem | apply okMem_ok | apply okMem_error
    | refine okMem_elim (by assumption) | intro _ _ _ | intro _ _ | intro _ | dsimp only | split

theorem State.preemptTurn_memOk (s : State) (p : Nat) (hs : s.memOk) : (State.preemptTurn s p).memOk := by
  unfold State.preemptTurn
  with_reducible repeat' first
    | assumption | apply State.rootSends_memOk | apply State.setReg_memOk | apply ite_memOk | apply foldl_memOk | apply foldl_fst_memOk
    | apply foldl_okMem | apply okMem_ok | apply okMem_error | refine okMem_elim (by assumption) | intro _ _ _ | intro _ _ | intro _
    | dsimp only | split

/-! Snet -/

theorem State.hold_memOk (s : State) (k : TreeMsg) (q : Nat) (l : List Nat) (hs : s.memOk) : (State.hold s k q l).memOk := by
  unfold State.hold
  with_reducible repeat' first
    | assumption | apply State.modSquare_memOk | intro _ _ _ | intro _ _ | intro _ | dsimp only | split

theorem State.passUp_memOk (s : State) (k : TreeMsg) (q : Nat) (hs : s.memOk) : (State.passUp s k q).memOk := by
  unfold State.passUp
  with_reducible repeat' first
    | assumption | apply State.hold_memOk | apply State.snUp_memOk | apply ite_memOk | apply foldl_memOk | apply foldl_fst_memOk
    | apply foldl_okMem | apply okMem_ok | apply okMem_error | refine okMem_elim (by assumption) | intro _ _ _ | intro _ _ | intro _
    | dsimp only | split

theorem State.gatherTree_memOk (s : State) (k : TreeMsg) (q dir : Nat) (hs : s.memOk) : (State.gatherTree s k q dir).memOk := by
  unfold State.gatherTree
  with_reducible repeat' first
    | assumption | apply State.hold_memOk | apply State.passUp_memOk | apply ite_memOk | apply foldl_memOk | apply foldl_fst_memOk
    | apply foldl_okMem | apply okMem_ok | apply okMem_error | refine okMem_elim (by assumption) | intro _ _ _ | intro _ _ | intro _
    | dsimp only | split

theorem State.passLeaves_memOk (s : State) (k : TreeMsg) (p : Nat) (hs : s.memOk) : (State.passLeaves s k p).memOk := by
  unfold State.passLeaves
  with_reducible repeat' first
    | assumption | apply State.passUp_memOk | apply ite_memOk | apply foldl_memOk | apply foldl_fst_memOk | apply foldl_okMem
    | apply okMem_ok | apply okMem_error | refine okMem_elim (by assumption) | intro _ _ _ | intro _ _ | intro _ | dsimp only | split

theorem State.treeReceipt_memOk (s : State) (k : TreeMsg) (q dir : Nat) (hs : s.memOk) : (State.treeReceipt s k q dir).memOk := by
  unfold State.treeReceipt
  with_reducible repeat' first
    | assumption | apply State.bump_memOk | apply State.gatherTree_memOk | apply ite_memOk | apply foldl_memOk | apply foldl_fst_memOk
    | apply foldl_okMem | apply okMem_ok | apply okMem_error | refine okMem_elim (by assumption) | intro _ _ _ | intro _ _ | intro _
    | dsimp only | split

/-! Turns -/

theorem State.allMargin_memOk (s : State) (p step : Nat) (hs : s.memOk) : (State.allMargin s p step).2.memOk := by
  unfold State.allMargin
  with_reducible repeat' first
    | assumption | apply State.drawBool_memOk | refine State.drawBool_memOk' (by assumption) ?_ | apply ite_memOk | apply foldl_memOk
    | apply foldl_fst_memOk | apply foldl_okMem | apply okMem_ok | apply okMem_error | refine okMem_elim (by assumption) | intro _ _ _
    | intro _ _ | intro _ | dsimp only | split

theorem State.allMargin_memOk' {s : State} {p step : Nat} {x0 : Bool} {t : State} (eqn : State.allMargin s p step = (x0, t)) (hs : s.memOk) : t.memOk := by
  have k := State.allMargin_memOk s p step hs
  rw [eqn] at k
  exact k

theorem State.settleStep_memOk (s : State) (p : Nat) (hs : s.memOk) : (State.settleStep s p).memOk := by
  unfold State.settleStep
  with_reducible repeat' first
    | assumption | apply State.allMargin_memOk | refine State.allMargin_memOk' (by assumption) ?_ | apply State.event7F_memOk
    | apply State.modPart_memOk | apply State.notice_memOk | apply State.setFlag_memOk | apply ite_memOk | apply foldl_memOk
    | apply foldl_fst_memOk | apply foldl_okMem | apply okMem_ok | apply okMem_error | refine okMem_elim (by assumption) | intro _ _ _
    | intro _ _ | intro _ | dsimp only | split

theorem State.snapshot_memOk (s : State) (p : Nat) (hs : s.memOk) : (State.snapshot s p).memOk := by
  unfold State.snapshot
  with_reducible repeat' first
    | assumption | apply ite_memOk | apply State.draw_memOk | refine State.draw_memOk' (by assumption) ?_ | apply State.modPart_memOk
    | intro _ _ _ | intro _ _ | intro _ | dsimp only | split

theorem State.flushTranslations_memOk (s : State) (p : Nat) (hs : s.memOk) : (State.flushTranslations s p).memOk := by
  unfold State.flushTranslations
  with_reducible repeat' first
    | assumption | apply State.modSquare_memOk | apply foldl_memOk | apply foldl_fst_memOk | intro _ _ _ | intro _ _ | intro _ | dsimp only

theorem State.zeroCounters_memOk (s : State) (i : Nat) (hs : s.memOk) : (State.zeroCounters s i).memOk := by
  unfold State.zeroCounters
  with_reducible repeat' first
    | assumption | intro _ _ _ | intro _ _ | intro _ | dsimp only | split

theorem State.endDie_memOk (s : State) (p i : Nat) (epoch : BitVec 16) (hs : s.memOk) : (State.endDie s p i epoch).memOk := by
  unfold State.endDie
  with_reducible repeat' first
    | assumption | apply State.modDie_memOk | apply State.modSquare_memOk | apply State.setField_memOk | apply State.setFlag_memOk
    | apply State.zeroCounters_memOk | apply ite_memOk | apply foldl_memOk | apply foldl_fst_memOk | apply foldl_okMem | apply okMem_ok
    | apply okMem_error | refine okMem_elim (by assumption) | intro _ _ _ | intro _ _ | intro _ | dsimp only | split

theorem State.dropTiles_memOk (s : State) (i : Nat) (hs : s.memOk) : (State.dropTiles s i).memOk := by
  unfold State.dropTiles
  with_reducible repeat' first
    | assumption | apply State.bump_memOk | apply ite_memOk | apply foldl_memOk | apply foldl_fst_memOk | apply foldl_okMem | apply okMem_ok
    | apply okMem_error | refine okMem_elim (by assumption) | intro _ _ _ | intro _ _ | intro _ | dsimp only | split

theorem State.clearFlags_memOk (s : State) (i : Nat) (hs : s.memOk) : (State.clearFlags s i).memOk := by
  unfold State.clearFlags
  with_reducible repeat' first
    | assumption | apply State.setReg_memOk | dsimp only

theorem State.writeSiteEntry_memOk (s : State) (i : Nat) (e : MapEntry) (hs : s.memOk) : (State.writeSiteEntry s i e).memOk := by
  unfold State.writeSiteEntry
  with_reducible repeat' first
    | assumption | apply ite_memOk | apply State.setReg_memOk | apply foldl_memOk | apply foldl_fst_memOk | intro _ _ _ | intro _ _
    | intro _ | dsimp only | split

theorem State.copyTable_memOk (s : State) (b : Book) (reshard : Bool) (m i : Nat) (tableB : Bool) (hs : s.memOk) : (State.copyTable s b reshard m i tableB).memOk := by
  unfold State.copyTable
  with_reducible repeat' first
    | assumption | apply State.setDieBytes_memOk | apply State.take_memOk | apply ite_memOk | apply foldl_memOk | apply foldl_fst_memOk
    | apply foldl_okMem | apply okMem_ok | apply okMem_error | refine okMem_elim (by assumption) | intro _ _ _ | intro _ _ | intro _
    | dsimp only | split

theorem State.copyStandby_memOk (s : State) (p : Nat) (b : Book) (reshard : Bool) (m i : Nat) (hs : s.memOk) : (State.copyStandby s p b reshard m i).memOk := by
  unfold State.copyStandby
  with_reducible repeat' first
    | assumption | apply State.copyTable_memOk | apply ite_memOk | apply foldl_memOk | apply foldl_fst_memOk | apply foldl_okMem
    | apply okMem_ok | apply okMem_error | refine okMem_elim (by assumption) | intro _ _ _ | intro _ _ | intro _ | dsimp only | split

theorem State.putTable_memOk (s : State) (b : Book) (reshard : Bool) (m i : Nat) (hs : s.memOk) : (State.putTable s b reshard m i).memOk := by
  unfold State.putTable
  with_reducible repeat' first
    | assumption | apply State.modDie_memOk | apply State.setFlag_memOk | intro _ _ _ | intro _ _ | intro _ | dsimp only

theorem State.writePlan_memOk (s : State) (p : Nat) (b : Book) (m : Nat) (hs : s.memOk) : (State.writePlan s p b m).memOk := by
  unfold State.writePlan
  with_reducible repeat' first
    | assumption | apply ite_memOk | apply State.setBoth_memOk | apply foldl_memOk | apply foldl_fst_memOk | intro _ _ _ | intro _ _
    | intro _ | dsimp only | split

theorem State.nextEpoch_memOk (s : State) (p : Nat) (hs : s.memOk) : (State.nextEpoch s p).memOk := by
  unfold State.nextEpoch
  with_reducible repeat' first
    | assumption | apply State.setReg_memOk | dsimp only

theorem State.enterMap_memOk (s : State) (p : Nat) (b : Book) (m : Nat) (hs : s.memOk) : (State.enterMap s p b m).memOk := by
  unfold State.enterMap
  with_reducible repeat' first
    | assumption | apply State.decision_memOk | apply State.modPart_memOk | apply State.nextEpoch_memOk | apply State.putTable_memOk
    | apply State.setReg_memOk | apply State.writePlan_memOk | apply State.writeSiteEntry_memOk | apply foldl_memOk | apply foldl_fst_memOk
    | intro _ _ _ | intro _ _ | intro _ | dsimp only | split

theorem State.enterReshard_memOk (s : State) (p : Nat) (b : Book) (target : Nat) (hs : s.memOk) : (State.enterReshard s p b target).memOk := by
  unfold State.enterReshard
  with_reducible repeat' first
    | assumption | apply State.copyStandby_memOk | apply State.modPart_memOk | apply State.nextEpoch_memOk | apply State.putTable_memOk
    | apply State.setFlag_memOk | apply ite_memOk | apply foldl_memOk | apply foldl_fst_memOk | apply foldl_okMem | apply okMem_ok
    | apply okMem_error | refine okMem_elim (by assumption) | intro _ _ _ | intro _ _ | intro _ | dsimp only | split

theorem State.reshardAborted_memOk (s : State) (p : Nat) (hs : s.memOk) : (State.reshardAborted s p).memOk := by
  unfold State.reshardAborted
  with_reducible repeat' first
    | assumption | apply State.event7F_memOk | apply State.modPart_memOk | apply State.setBoth_memOk | apply ite_memOk | apply foldl_memOk
    | apply foldl_fst_memOk | apply foldl_okMem | apply okMem_ok | apply okMem_error | refine okMem_elim (by assumption) | intro _ _ _
    | intro _ _ | intro _ | dsimp only | split

theorem State.startSwitch_memOk (s : State) (p : Nat) (b : Book) (want : Nat) (hs : s.memOk) : (State.startSwitch s p b want).memOk := by
  unfold State.startSwitch
  with_reducible repeat' first
    | assumption | apply State.enterReshard_memOk | apply State.modPart_memOk | apply State.setFlag_memOk | apply ite_memOk
    | apply foldl_memOk | apply foldl_fst_memOk | apply foldl_okMem | apply okMem_ok | apply okMem_error | refine okMem_elim (by assumption)
    | intro _ _ _ | intro _ _ | intro _ | dsimp only | split

theorem State.trySwitch_memOk (s : State) (p : Nat) (b : Book) (w : Switch) (hs : s.memOk) : (State.trySwitch s p b w).memOk := by
  unfold State.trySwitch
  with_reducible repeat' first
    | assumption | apply State.enterMap_memOk | apply State.setFlag_memOk | apply ite_memOk | apply foldl_memOk | apply foldl_fst_memOk
    | apply foldl_okMem | apply okMem_ok | apply okMem_error | refine okMem_elim (by assumption) | intro _ _ _ | intro _ _ | intro _
    | dsimp only | split

theorem State.switchMaps_memOk (s : State) (p : Nat) (hs : s.memOk) : (State.switchMaps s p).memOk := by
  unfold State.switchMaps
  with_reducible repeat' first
    | assumption | apply State.modPart_memOk | apply State.reshardAborted_memOk | apply State.startSwitch_memOk
    | apply State.trySwitch_memOk | apply ite_memOk | apply foldl_memOk | apply foldl_fst_memOk | apply foldl_okMem | apply okMem_ok
    | apply okMem_error | refine okMem_elim (by assumption) | intro _ _ _ | intro _ _ | intro _ | dsimp only | split

theorem State.completeZeroed_memOk (s : State) (p : Nat) (c : Cmd) (opcode : BitVec 16) (turn : Word) (hs : s.memOk) : (State.completeZeroed s p c opcode turn).memOk := by
  unfold State.completeZeroed
  with_reducible repeat' first
    | assumption | apply State.complete_memOk | apply State.modPart_memOk | apply ite_memOk | apply foldl_memOk | apply foldl_fst_memOk
    | apply foldl_okMem | apply okMem_ok | apply okMem_error | refine okMem_elim (by assumption) | intro _ _ _ | intro _ _ | intro _
    | dsimp only | split

theorem State.zeroDone_memOk (s : State) (p : Nat) (hs : s.memOk) : (State.zeroDone s p).memOk := by
  unfold State.zeroDone
  with_reducible repeat' first
    | assumption | apply State.complete_memOk | apply State.completeReset_memOk | apply State.modPart_memOk | apply ite_memOk
    | apply foldl_memOk | apply foldl_fst_memOk | apply foldl_okMem | apply okMem_ok | apply okMem_error | refine okMem_elim (by assumption)
    | intro _ _ _ | intro _ _ | intro _ | dsimp only | split

theorem State.zeroDie_memOk (s : State) (i : Nat) (hs : s.memOk) : (State.zeroDie s i).memOk := by
  unfold State.zeroDie
  with_reducible repeat' first
    | assumption | apply State.setReg_memOk | apply State.zeroRange_memOk | dsimp only

theorem State.installBook_memOk (s : State) (p : Nat) (l : Loading) (hs : s.memOk) : (State.installBook s p l).memOk := by
  unfold State.installBook
  with_reducible repeat' first
    | assumption | apply State.askStep_memOk | apply State.decision_memOk | apply State.latch_memOk | apply State.modPart_memOk
    | apply State.setBytes_memOk | apply State.setReg_memOk | apply State.writeSiteEntry_memOk | apply State.zeroDie_memOk | apply ite_memOk
    | apply foldl_memOk | apply foldl_fst_memOk | apply foldl_okMem | apply okMem_ok | apply okMem_error | refine okMem_elim (by assumption)
    | intro _ _ _ | intro _ _ | intro _ | dsimp only | split

theorem State.finishLoad_memOk (s : State) (p : Nat) (l : Loading) (hs : s.memOk) : (State.finishLoad s p l).memOk := by
  unfold State.finishLoad
  with_reducible repeat' first
    | assumption | apply State.complete_memOk | apply State.completeReset_memOk | apply State.decision_memOk | apply State.enterMap_memOk
    | apply State.modPart_memOk | apply State.setBoth_memOk | apply State.setFlag_memOk | apply State.setReg_memOk | apply ite_memOk
    | apply foldl_memOk | apply foldl_fst_memOk | apply foldl_okMem | apply okMem_ok | apply okMem_error | refine okMem_elim (by assumption)
    | intro _ _ _ | intro _ _ | intro _ | dsimp only | split

theorem State.loadStep_memOk (s : State) (p : Nat) (hs : s.memOk) : (State.loadStep s p).memOk := by
  unfold State.loadStep
  with_reducible repeat' first
    | assumption | apply State.finishLoad_memOk | apply State.installBook_memOk | apply ite_memOk | apply foldl_memOk
    | apply foldl_fst_memOk | apply foldl_okMem | apply okMem_ok | apply okMem_error | refine okMem_elim (by assumption) | intro _ _ _
    | intro _ _ | intro _ | dsimp only | split

theorem State.releaseBookArea_memOk (s : State) (p : Nat) (hs : s.memOk) : (State.releaseBookArea s p).memOk := by
  unfold State.releaseBookArea
  with_reducible repeat' first
    | assumption | apply State.modPart_memOk | apply State.queueFill_memOk | apply ite_memOk | apply foldl_memOk | apply foldl_fst_memOk
    | apply foldl_okMem | apply okMem_ok | apply okMem_error | refine okMem_elim (by assumption) | intro _ _ _ | intro _ _ | intro _
    | dsimp only | split

theorem State.endBook_memOk (s : State) (p : Nat) (hs : s.memOk) : (State.endBook s p).memOk := by
  unfold State.endBook
  with_reducible repeat' first
    | assumption | apply State.modDie_memOk | apply State.modPart_memOk | apply State.releaseBookArea_memOk | apply State.setField_memOk
    | apply State.setReg_memOk | apply State.zeroDie_memOk | apply ite_memOk | apply foldl_memOk | apply foldl_fst_memOk | apply foldl_okMem
    | apply okMem_ok | apply okMem_error | refine okMem_elim (by assumption) | intro _ _ _ | intro _ _ | intro _ | dsimp only | split

theorem State.unloadStep_memOk (s : State) (p : Nat) (hs : s.memOk) : (State.unloadStep s p).memOk := by
  unfold State.unloadStep
  with_reducible repeat' first
    | assumption | apply State.completeZeroed_memOk | apply State.endBook_memOk | apply ite_memOk | apply foldl_memOk
    | apply foldl_fst_memOk | apply foldl_okMem | apply okMem_ok | apply okMem_error | refine okMem_elim (by assumption) | intro _ _ _
    | intro _ _ | intro _ | dsimp only | split

theorem State.setMargins_memOk (s : State) (r : Nat) (hs : s.memOk) : (State.setMargins s r).memOk := by
  unfold State.setMargins
  with_reducible repeat' first
    | assumption | apply State.setFlag_memOk | apply foldl_memOk | apply foldl_fst_memOk | intro _ _ _ | intro _ _ | intro _ | dsimp only

theorem State.countMaint_memOk (s : State) (p : Nat) (hs : s.memOk) : (State.countMaint s p).memOk := by
  unfold State.countMaint
  with_reducible repeat' first
    | assumption | apply ite_memOk | apply State.modPart_memOk | apply State.setField_memOk | intro _ _ _ | intro _ _ | intro _ | dsimp only
    | split

theorem State.preemptDone_memOk (s : State) (p : Nat) (hs : s.memOk) : (State.preemptDone s p).memOk := by
  unfold State.preemptDone
  with_reducible repeat' first
    | assumption | apply State.complete_memOk | apply State.modPart_memOk | apply State.setReg_memOk | apply foldl_memOk
    | apply foldl_fst_memOk | apply foldl_okMem | apply okMem_ok | apply okMem_error | refine okMem_elim (by assumption) | intro _ _ _
    | intro _ _ | intro _ | dsimp only

theorem State.beginChangeover_memOk (s : State) (p chosenP : Nat) (hs : s.memOk) : (State.beginChangeover s p chosenP).memOk := by
  unfold State.beginChangeover
  with_reducible repeat' first
    | assumption | apply State.clearFlags_memOk | apply State.countMaint_memOk | apply State.dropTiles_memOk | apply State.endDie_memOk
    | apply State.flushTranslations_memOk | apply State.loadStep_memOk | apply State.modPart_memOk | apply State.modSquare_memOk
    | apply State.openChangeover_memOk | apply State.passLeaves_memOk | apply State.preemptDone_memOk | apply State.settleStep_memOk
    | apply State.snapshot_memOk | apply State.switchMaps_memOk | apply State.unloadStep_memOk | apply ite_memOk | apply foldl_memOk
    | apply foldl_fst_memOk | apply foldl_okMem | apply okMem_ok | apply okMem_error | refine okMem_elim (by assumption) | intro _ _ _
    | intro _ _ | intro _ | dsimp only | split

theorem State.enterChangeover_memOk (s : State) (p : Nat) (tick : Word) (hs : s.memOk) : (State.enterChangeover s p tick).memOk := by
  unfold State.enterChangeover
  with_reducible repeat' first
    | assumption | apply State.modPart_memOk | apply State.openChangeover_memOk | apply State.rootSends_memOk | apply State.runWheels_memOk
    | apply State.setPhase_memOk | apply ite_memOk | apply foldl_memOk | apply foldl_fst_memOk | apply foldl_okMem | apply okMem_ok
    | apply okMem_error | refine okMem_elim (by assumption) | intro _ _ _ | intro _ _ | intro _ | dsimp only | split

theorem State.beginPlay_memOk (s : State) (p : Nat) (tick : Word) (hs : s.memOk) : (State.beginPlay s p tick).memOk := by
  unfold State.beginPlay
  with_reducible repeat' first
    | assumption | apply State.bump_memOk | apply State.countStreams_memOk | apply State.hold_memOk | apply State.modDie_memOk
    | apply State.modPart_memOk | apply State.modSquare_memOk | apply State.passLeaves_memOk | apply State.restUnbatched_memOk
    | apply State.runWheels_memOk | apply State.setField_memOk | apply State.setFlag_memOk | apply State.setPhase_memOk
    | apply State.setReg_memOk | apply State.take_memOk | apply ite_memOk | apply foldl_memOk | apply foldl_fst_memOk | apply foldl_okMem
    | apply okMem_ok | apply okMem_error | refine okMem_elim (by assumption) | intro _ _ _ | intro _ _ | intro _ | dsimp only | split

theorem State.setArrival_memOk (s : State) (p i : Nat) (hs : s.memOk) : (State.setArrival s p i).memOk := by
  unfold State.setArrival
  with_reducible repeat' first
    | assumption | apply State.modDie_memOk | apply ite_memOk | apply foldl_memOk | apply foldl_fst_memOk | apply foldl_okMem
    | apply okMem_ok | apply okMem_error | refine okMem_elim (by assumption) | intro _ _ _ | intro _ _ | intro _ | dsimp only | split

theorem State.startTurns_memOk (s : State) (p : Nat) (tick : Word) (hs : s.memOk) : (State.startTurns s p tick).memOk := by
  unfold State.startTurns
  with_reducible repeat' first
    | assumption | apply State.modPart_memOk | apply State.setArrival_memOk | apply ite_memOk | apply foldl_memOk | apply foldl_fst_memOk
    | apply foldl_okMem | apply okMem_ok | apply okMem_error | refine okMem_elim (by assumption) | intro _ _ _ | intro _ _ | intro _
    | dsimp only | split

theorem State.freePins_memOk (s : State) (hs : s.memOk) : (State.freePins s).memOk := by
  unfold State.freePins
  with_reducible repeat' first
    | assumption | apply ite_memOk | apply State.alert_memOk | apply State.modDie_memOk | apply State.setFlag_memOk | apply foldl_memOk
    | apply foldl_fst_memOk | intro _ _ _ | intro _ _ | intro _ | dsimp only | split

theorem State.stopTurns_memOk (s : State) (p : Nat) (hs : s.memOk) : (State.stopTurns s p).memOk := by
  unfold State.stopTurns
  with_reducible repeat' first
    | assumption | apply State.freePins_memOk | apply State.modPart_memOk | apply State.runWheels_memOk | apply State.setPhase_memOk
    | intro _ _ _ | intro _ _ | intro _ | dsimp only

theorem State.endTurns_memOk (s : State) (p : Nat) (hs : s.memOk) : (State.endTurns s p).memOk := by
  unfold State.endTurns
  with_reducible repeat' first
    | assumption | apply State.setFlag_memOk | apply State.setReg_memOk | apply State.stopTurns_memOk | dsimp only

/-! Pool -/

theorem State.sendPool_memOk (s : State) (p a : Nat) (op : BitVec 8) (xid seq lines epoch : BitVec 16) (retry : Bool) (data : List Byte) (hs : s.memOk) : (State.sendPool s p a op xid seq lines epoch retry data).memOk := by
  unfold State.sendPool
  with_reducible repeat' first
    | assumption | apply State.pushMsg_memOk | apply ite_memOk | apply foldl_memOk | apply foldl_fst_memOk | apply foldl_okMem
    | apply okMem_ok | apply okMem_error | refine okMem_elim (by assumption) | intro _ _ _ | intro _ _ | intro _ | dsimp only | split

theorem State.takeXid_memOk (s : State) (p : Nat) (hs : s.memOk) : (State.takeXid s p).1.memOk := by
  unfold State.takeXid
  with_reducible repeat' first
    | assumption | apply State.modPart_memOk | intro _ _ _ | intro _ _ | intro _ | dsimp only

theorem State.takeXid_memOk' {s : State} {p : Nat} {t : State} {x1 : BitVec 16} (eqn : State.takeXid s p = (t, x1)) (hs : s.memOk) : t.memOk :=
  pair_memOk eqn (State.takeXid_memOk s p hs)

theorem State.readFarPage_memOk (s : State) (p : Nat) (h : Handle) (page a : Nat) (epoch : BitVec 16) (hs : s.memOk) : (State.readFarPage s p h page a epoch).memOk := by
  unfold State.readFarPage
  with_reducible repeat' first
    | assumption | apply State.sendPool_memOk | apply State.takeXid_memOk | refine State.takeXid_memOk' (by assumption) ?_ | intro _ _ _
    | intro _ _ | intro _ | dsimp only | split

theorem State.writeFarPage_memOk (s : State) (p : Nat) (h : Handle) (page a : Nat) (epoch : BitVec 16) (lines : List (List Byte)) (hs : s.memOk) : (State.writeFarPage s p h page a epoch lines).memOk := by
  unfold State.writeFarPage
  with_reducible repeat' first
    | assumption | apply State.sendPool_memOk | apply State.takeXid_memOk | refine State.takeXid_memOk' (by assumption) ?_
    | apply foldl_memOk | apply foldl_fst_memOk | intro _ _ _ | intro _ _ | intro _ | dsimp only | split

theorem State.poolData_memOk (s : State) (p : Nat) (xid seq : BitVec 16) (d : List Byte) (hs : s.memOk) : (State.poolData s p xid seq d).memOk := by
  unfold State.poolData
  with_reducible repeat' first
    | assumption | apply ite_memOk | intro _ _ _ | intro _ _ | intro _ | dsimp only | split

theorem State.poolAck_memOk (s : State) (p : Nat) (xid seq : BitVec 16) (hs : s.memOk) : (State.poolAck s p xid seq).memOk := by
  unfold State.poolAck
  with_reducible repeat' first
    | assumption | intro _ _ _ | intro _ _ | intro _ | dsimp only

/-! Migrate -/

theorem State.takeFarPage_memOk (s : State) (p : Nat) (hs : s.memOk) : (State.takeFarPage s p).1.memOk := by
  unfold State.takeFarPage
  with_reducible repeat' first
    | assumption | apply ite_memOk | apply State.draw_memOk | refine State.draw_memOk' (by assumption) ?_ | intro _ _ _ | intro _ _
    | intro _ | dsimp only | split

theorem State.takeFarPage_memOk' {s : State} {p : Nat} {t : State} {x1 : Option Nat} (eqn : State.takeFarPage s p = (t, x1)) (hs : s.memOk) : t.memOk :=
  pair_memOk eqn (State.takeFarPage_memOk s p hs)

theorem State.pageBytes_memOk (s : State) (a : Nat) (hs : s.memOk) : (State.pageBytes s a).1.memOk := by
  unfold State.pageBytes
  with_reducible repeat' first
    | assumption | apply ite_memOk | apply State.computeRead_memOk | refine State.computeRead_memOk' (by assumption) ?_ | apply foldl_okMem
    | apply okMem_ok | apply okMem_error | refine okMem_elim (by assumption) | intro _ _ _ | intro _ _ | intro _ | dsimp only | split

theorem State.pageBytes_memOk' {s : State} {a : Nat} {t : State} {x1 : List Byte} (eqn : State.pageBytes s a = (t, x1)) (hs : s.memOk) : t.memOk :=
  pair_memOk eqn (State.pageBytes_memOk s a hs)

theorem State.applyMigrate_memOk (s : State) (p : Nat) (c : Cmd) (h : Handle) (module : BitVec 16) (dest : BitVec 8) (hs : s.memOk) : (State.applyMigrate s p c h module dest).memOk := by
  unfold State.applyMigrate
  with_reducible repeat' first
    | assumption | apply State.complete_memOk | apply State.failPending_memOk | apply State.makeResident_memOk
    | refine State.makeResident_memOk' (by assumption) ?_ | apply State.modPart_memOk | apply State.sendMgmt_memOk
    | apply State.setRow_memOk | apply State.streamEvent_memOk | apply State.takeXid_memOk | refine State.takeXid_memOk' (by assumption) ?_
    | apply State.unstage_memOk | apply ite_memOk | apply foldl_memOk | apply foldl_fst_memOk | apply foldl_okMem | apply okMem_ok
    | apply okMem_error | refine okMem_elim (by assumption) | intro _ _ _ | intro _ _ | intro _ | dsimp only | split

theorem State.admitArrival_memOk (s : State) (p : Nat) (e : StreamEntry) (a : Arrival) (hs : s.memOk) : (State.admitArrival s p e a).1.memOk := by
  unfold State.admitArrival
  with_reducible repeat' first
    | assumption | apply State.admitStream_memOk | refine State.admitStream_memOk' (by assumption) ?_ | apply State.issue_memOk
    | refine State.issue_memOk' (by assumption) ?_ | apply State.modPart_memOk | apply State.setRow_memOk | apply State.takeNode_memOk
    | refine State.takeNode_memOk' (by assumption) ?_ | intro _ _ _ | intro _ _ | intro _ | dsimp only | split

theorem State.admitArrival_memOk' {s : State} {p : Nat} {e : StreamEntry} {a : Arrival} {t : State} {x1 : Option Handle} (eqn : State.admitArrival s p e a = (t, x1)) (hs : s.memOk) : t.memOk :=
  pair_memOk eqn (State.admitArrival_memOk s p e a hs)

theorem State.copyStream_memOk (s : State) (p dest : Nat) (src dst : StreamEntry) (hs : s.memOk) : (State.copyStream s p dest src dst).memOk := by
  unfold State.copyStream
  with_reducible repeat' first
    | assumption | apply State.pageBytes_memOk | refine State.pageBytes_memOk' (by assumption) ?_ | apply State.placeLeaf_memOk
    | refine State.placeLeaf_memOk' (by assumption) ?_ | apply State.putSaved_memOk | apply State.takePage_memOk
    | refine State.takePage_memOk' (by assumption) ?_ | apply State.writePage_memOk | apply ite_memOk | apply foldl_memOk
    | apply foldl_fst_memOk | apply foldl_okMem | apply okMem_ok | apply okMem_error | refine okMem_elim (by assumption) | intro _ _ _
    | intro _ _ | intro _ | dsimp only | split

theorem State.migrated_memOk (s : State) (p : Nat) (x : Migration) (h : Handle) (hs : s.memOk) : (State.migrated s p x h).memOk := by
  unfold State.migrated
  with_reducible repeat' first
    | assumption | apply State.bump_memOk | apply State.complete_memOk | apply State.modPart_memOk | apply State.setRow_memOk
    | apply State.streamEvent_memOk | apply foldl_okMem | apply okMem_ok | apply okMem_error | refine okMem_elim (by assumption)
    | intro _ _ _ | intro _ _ | intro _ | dsimp only

theorem State.dropArrival_memOk (s : State) (p : Nat) (a : Arrival) (hs : s.memOk) : (State.dropArrival s p a).memOk := by
  unfold State.dropArrival
  with_reducible repeat' first
    | assumption | apply State.freeRowAt_memOk | apply State.modPart_memOk | apply State.releaseStream_memOk | apply ite_memOk
    | apply foldl_memOk | apply foldl_fst_memOk | apply foldl_okMem | apply okMem_ok | apply okMem_error | refine okMem_elim (by assumption)
    | intro _ _ _ | intro _ _ | intro _ | dsimp only | split

theorem State.failMigration_memOk (s : State) (p : Nat) (h : Handle) (st : Status) (hs : s.memOk) : (State.failMigration s p h st).memOk := by
  unfold State.failMigration
  with_reducible repeat' first
    | assumption | apply State.complete_memOk | apply State.dropArrival_memOk | apply State.modPart_memOk | apply State.setRow_memOk
    | intro _ _ _ | intro _ _ | intro _ | dsimp only | split

theorem State.settleArrivals_memOk (s : State) (p : Nat) (hs : s.memOk) : (State.settleArrivals s p).memOk := by
  unfold State.settleArrivals
  with_reducible repeat' first
    | assumption | apply State.migrated_memOk | apply State.modPart_memOk | apply State.sendMgmt_memOk | apply State.setRow_memOk
    | apply State.streamEvent_memOk | apply ite_memOk | apply foldl_memOk | apply foldl_fst_memOk | apply foldl_okMem | apply okMem_ok
    | apply okMem_error | refine okMem_elim (by assumption) | intro _ _ _ | intro _ _ | intro _ | dsimp only | split

theorem State.settleFailed_memOk (s : State) (p : Nat) (hs : s.memOk) : (State.settleFailed s p).memOk := by
  unfold State.settleFailed
  with_reducible repeat' first
    | assumption | apply State.modPart_memOk | apply State.setRow_memOk | apply State.streamEvent_memOk | apply ite_memOk
    | apply foldl_memOk | apply foldl_fst_memOk | apply foldl_okMem | apply okMem_ok | apply okMem_error | refine okMem_elim (by assumption)
    | intro _ _ _ | intro _ _ | intro _ | dsimp only | split

theorem State.syncTiers_memOk (s : State) (p : Nat) (h : Handle) (hs : s.memOk) : (State.syncTiers s p h).memOk := by
  unfold State.syncTiers
  with_reducible repeat' first
    | assumption | apply State.setEntryAt_memOk | apply foldl_okMem | apply okMem_ok | apply okMem_error | refine okMem_elim (by assumption)
    | dsimp only | split

theorem State.applyTier_memOk (s : State) (p : Nat) (c : Cmd) (h : Handle) (first pages : BitVec 32) (tier : BitVec 8) (hs : s.memOk) : (State.applyTier s p c h first pages tier).memOk := by
  unfold State.applyTier
  with_reducible repeat' first
    | assumption | apply State.complete_memOk | apply State.modPart_memOk | apply State.pageBytes_memOk
    | refine State.pageBytes_memOk' (by assumption) ?_ | apply State.readFarPage_memOk | apply State.setLeaf_memOk | apply State.take_memOk
    | apply State.takeFarPage_memOk | refine State.takeFarPage_memOk' (by assumption) ?_ | apply State.writeFarPage_memOk | apply ite_memOk
    | apply foldl_memOk | apply foldl_fst_memOk | apply foldl_okMem | apply okMem_ok | apply okMem_error | refine okMem_elim (by assumption)
    | intro _ _ _ | intro _ _ | intro _ | dsimp only | split

theorem State.relocatePage_memOk (s : State) (p old new tier : Nat) (moving : Word → Bool) (hs : s.memOk) : (State.relocatePage s p old new tier moving).memOk := by
  unfold State.relocatePage
  with_reducible repeat' first
    | assumption | apply State.fillPage_memOk | apply State.sealPage_memOk | apply State.setLeaf_memOk | apply State.setSharers_memOk
    | apply State.syncTiers_memOk | apply ite_memOk | apply foldl_memOk | apply foldl_fst_memOk | apply foldl_okMem | apply okMem_ok
    | apply okMem_error | refine okMem_elim (by assumption) | intro _ _ _ | intro _ _ | intro _ | dsimp only | split

theorem State.switchPage_memOk (s : State) (p : Nat) (t : TierMove) (hs : s.memOk) : (State.switchPage s p t).memOk := by
  unfold State.switchPage
  with_reducible repeat' first
    | assumption | apply State.bump_memOk | apply State.modPart_memOk | apply State.relocatePage_memOk | apply ite_memOk | apply foldl_memOk
    | apply foldl_fst_memOk | apply foldl_okMem | apply okMem_ok | apply okMem_error | refine okMem_elim (by assumption) | intro _ _ _
    | intro _ _ | intro _ | dsimp only | split

theorem State.reclaimLent_memOk (s : State) (p pin : Nat) (hs : s.memOk) : (State.reclaimLent s p pin).memOk := by
  unfold State.reclaimLent
  with_reducible repeat' first
    | assumption | apply State.latchReg_memOk | apply State.modPart_memOk | apply State.pageBytes_memOk
    | refine State.pageBytes_memOk' (by assumption) ?_ | apply State.relocatePage_memOk | apply State.setReg_memOk
    | apply State.takePage_memOk | refine State.takePage_memOk' (by assumption) ?_ | apply State.writePage_memOk | apply ite_memOk
    | apply foldl_memOk | apply foldl_fst_memOk | apply foldl_okMem | apply okMem_ok | apply okMem_error | refine okMem_elim (by assumption)
    | intro _ _ _ | intro _ _ | intro _ | dsimp only | split

theorem State.switchTiers_memOk (s : State) (p : Nat) (hs : s.memOk) : (State.switchTiers s p).memOk := by
  unfold State.switchTiers
  with_reducible repeat' first
    | assumption | apply State.complete_memOk | apply State.modPart_memOk | apply State.setLeaf_memOk | apply State.switchPage_memOk
    | apply ite_memOk | apply foldl_memOk | apply foldl_fst_memOk | apply foldl_okMem | apply okMem_ok | apply okMem_error
    | refine okMem_elim (by assumption) | intro _ _ _ | intro _ _ | intro _ | dsimp only | split

theorem State.applyQueued_memOk (s : State) (p : Nat) (q : Queued) (nodes : List Addr) (hs : s.memOk) : (State.applyQueued s p q nodes).1.memOk := by
  unfold State.applyQueued
  with_reducible repeat' first
    | assumption | apply State.applyAdvance_memOk | apply State.applyAppend_memOk | apply State.applyClose_memOk
    | apply State.applyFork_memOk | refine State.applyFork_memOk' (by assumption) ?_ | apply State.applyMigrate_memOk
    | apply State.applyOpen_memOk | refine State.applyOpen_memOk' (by assumption) ?_ | apply State.applyPark_memOk
    | apply State.applyTier_memOk | apply State.applyUnpark_memOk | dsimp only | split

theorem State.applyQueued_memOk' {s : State} {p : Nat} {q : Queued} {nodes : List Addr} {t : State} {x1 : List Addr} (eqn : State.applyQueued s p q nodes = (t, x1)) (hs : s.memOk) : t.memOk :=
  pair_memOk eqn (State.applyQueued_memOk s p q nodes hs)

theorem State.applyOps_memOk (s : State) (p : Nat) (y0 : Nat) (y1 : List Addr) (hs : s.memOk) : (State.applyOps s p y0 y1).memOk := by
  induction y0 generalizing s y1 with
  | zero => simpa [State.applyOps] using hs
  | succ fuel ih =>
  unfold State.applyOps
  repeat' first
    | with_reducible assumption
    | with_reducible apply ih
    | with_reducible apply ite_memOk
    | with_reducible apply State.applyQueued_memOk
    | with_reducible refine State.applyQueued_memOk' (by with_reducible assumption) ?_
    | with_reducible apply State.modPart_memOk
    | with_reducible apply foldl_memOk
    | with_reducible apply foldl_fst_memOk
    | with_reducible apply foldl_okMem
    | with_reducible apply okMem_ok
    | with_reducible apply okMem_error
    | with_reducible refine okMem_elim (by with_reducible assumption)
    | (intro _ _ _)
    | (intro _ _)
    | (intro _)
    | dsimp only
    | split
    | with_reducible refine pair_memOk (by with_reducible assumption) ?_
    | with_reducible refine okMem_mem (by with_reducible assumption) ?_

theorem State.applyPublish_memOk (s : State) (p lines : Nat) (x : Publish) (hs : s.memOk) : (State.applyPublish s p lines x).1.memOk := by
  unfold State.applyPublish
  with_reducible repeat' first
    | assumption | apply State.complete_memOk | apply State.publishLines_memOk | apply ite_memOk | apply foldl_memOk | apply foldl_fst_memOk
    | apply foldl_okMem | apply okMem_ok | apply okMem_error | refine okMem_elim (by assumption) | intro _ _ _ | intro _ _ | intro _
    | dsimp only | split

theorem State.applyPublish_memOk' {s : State} {p lines : Nat} {x : Publish} {t : State} {x1 : Nat} {x2 : Option Publish} (eqn : State.applyPublish s p lines x = (t, x1, x2)) (hs : s.memOk) : t.memOk :=
  pair_memOk eqn (State.applyPublish_memOk s p lines x hs)

theorem State.applyPublishes_memOk (s : State) (p lines : Nat) (hs : s.memOk) : (State.applyPublishes s p lines).memOk := by
  unfold State.applyPublishes
  with_reducible repeat' first
    | assumption | apply State.applyPublish_memOk | refine State.applyPublish_memOk' (by assumption) ?_ | apply State.modPart_memOk
    | apply State.take_memOk | apply ite_memOk | apply foldl_memOk | apply foldl_fst_memOk | apply foldl_okMem | apply okMem_ok
    | apply okMem_error | refine okMem_elim (by assumption) | intro _ _ _ | intro _ _ | intro _ | dsimp only | split

theorem State.applyStanding_memOk (s : State) (p : Nat) (hs : s.memOk) : (State.applyStanding s p).memOk := by
  unfold State.applyStanding
  with_reducible repeat' first
    | assumption | apply ite_memOk | apply State.publishLines_memOk | apply foldl_memOk | apply foldl_fst_memOk | intro _ _ _ | intro _ _
    | intro _ | dsimp only | split

theorem State.restoreTails_memOk (s : State) (p : Nat) (hs : s.memOk) : (State.restoreTails s p).memOk := by
  unfold State.restoreTails
  with_reducible repeat' first
    | assumption | apply State.dropRuns_memOk | apply State.giveTails_memOk | refine State.giveTails_memOk' (by assumption) ?_
    | apply State.setRow_memOk | apply ite_memOk | apply foldl_memOk | apply foldl_fst_memOk | apply foldl_okMem | apply okMem_ok
    | apply okMem_error | refine okMem_elim (by assumption) | intro _ _ _ | intro _ _ | intro _ | dsimp only | split

theorem State.allotTails_memOk (s : State) (p : Nat) (sheets : List SheetDecl) (handles : List Handle) (hs : s.memOk) : (State.allotTails s p sheets handles).memOk := by
  unfold State.allotTails
  with_reducible repeat' first
    | assumption | apply State.giveTails_memOk | refine State.giveTails_memOk' (by assumption) ?_ | apply ite_memOk | apply foldl_memOk
    | apply foldl_fst_memOk | apply foldl_okMem | apply okMem_ok | apply okMem_error | refine okMem_elim (by assumption) | intro _ _ _
    | intro _ _ | intro _ | dsimp only | split

theorem State.stageBatch_memOk (s : State) (p : Nat) (slices : List (Nat × List Handle)) (hs : s.memOk) : (State.stageBatch s p slices).memOk := by
  unfold State.stageBatch
  with_reducible repeat' first
    | assumption | apply State.allotTails_memOk | apply State.countStreams_memOk | apply State.modPart_memOk
    | apply State.restUnbatched_memOk | apply State.setRow_memOk | apply State.streamEvent_memOk | apply State.take_memOk
    | apply State.writeSlices_memOk | apply ite_memOk | apply foldl_memOk | apply foldl_fst_memOk | apply foldl_okMem | apply okMem_ok
    | apply okMem_error | refine okMem_elim (by assumption) | intro _ _ _ | intro _ _ | intro _ | dsimp only | split

theorem State.contextWork_memOk (s : State) (p lines ops : Nat) (nodes : List Addr) (hs : s.memOk) : (State.contextWork s p lines ops nodes).memOk := by
  unfold State.contextWork
  with_reducible repeat' first
    | assumption | apply State.applyOps_memOk | apply State.applyPublishes_memOk | apply State.applyStanding_memOk
    | apply State.batchOutcome_memOk | apply State.countStreams_memOk | apply State.freeClosing_memOk | apply State.liftSeals_memOk
    | apply State.modPart_memOk | apply State.restoreTails_memOk | apply State.settleArrivals_memOk | apply State.settleFailed_memOk
    | apply State.switchTiers_memOk | apply ite_memOk | apply foldl_memOk | apply foldl_fst_memOk | apply foldl_okMem | apply okMem_ok
    | apply okMem_error | refine okMem_elim (by assumption) | intro _ _ _ | intro _ _ | intro _ | dsimp only | split

/-! TurnCommands -/

theorem State.reportDone_memOk (s : State) (p : Nat) (isDone : Bool) (stamp : Word) (hs : s.memOk) : (State.reportDone s p isDone stamp).memOk := by
  unfold State.reportDone
  with_reducible repeat' first
    | assumption | apply ite_memOk | apply State.draw_memOk | refine State.draw_memOk' (by assumption) ?_ | apply State.tellMembers_memOk
    | dsimp only | split

theorem State.announcePause_memOk (s : State) (p : Nat) (hs : s.memOk) : (State.announcePause s p).memOk := by
  unfold State.announcePause
  with_reducible repeat' first
    | assumption | apply State.tellMembers_memOk | intro _ _ _ | intro _ _ | intro _ | dsimp only | split

theorem State.haltRook_memOk (s : State) (i : Nat) (hs : s.memOk) : (State.haltRook s i).memOk := by
  unfold State.haltRook
  with_reducible repeat' first
    | assumption | apply ite_memOk | apply State.modDie_memOk | apply State.modPart_memOk | apply State.setFlag_memOk | intro _ _ _
    | intro _ _ | intro _ | dsimp only | split

theorem State.stampDone_memOk (s : State) (p : Nat) (stamp : Word) (hs : s.memOk) : (State.stampDone s p stamp).memOk := by
  unfold State.stampDone
  with_reducible repeat' first
    | assumption | apply State.modPart_memOk | apply State.reportDone_memOk | apply ite_memOk | apply foldl_memOk | apply foldl_fst_memOk
    | apply foldl_okMem | apply okMem_ok | apply okMem_error | refine okMem_elim (by assumption) | intro _ _ _ | intro _ _ | intro _
    | dsimp only | split

theorem State.signalDone_memOk (s : State) (p i : Nat) (cycle : Nat) (hs : s.memOk) : (State.signalDone s p i cycle).memOk := by
  unfold State.signalDone
  with_reducible repeat' first
    | assumption | apply State.draw_memOk | refine State.draw_memOk' (by assumption) ?_ | apply State.gatherTree_memOk
    | apply State.setFlag_memOk | apply State.setReg_memOk | apply State.stampDone_memOk | apply ite_memOk | apply foldl_memOk
    | apply foldl_fst_memOk | apply foldl_okMem | apply okMem_ok | apply okMem_error | refine okMem_elim (by assumption) | intro _ _ _
    | intro _ _ | intro _ | dsimp only | split

theorem State.playStart_memOk (s : State) (i : Nat) (hs : s.memOk) : (State.playStart s i).memOk := by
  unfold State.playStart
  with_reducible repeat' first
    | assumption | apply State.abortTurn_memOk | apply State.haltRook_memOk | apply State.modDie_memOk | apply State.modPart_memOk
    | apply State.setField_memOk | apply State.setFlag_memOk | apply State.setReg_memOk | apply State.signalDone_memOk | apply ite_memOk
    | apply foldl_memOk | apply foldl_fst_memOk | apply foldl_okMem | apply okMem_ok | apply okMem_error | refine okMem_elim (by assumption)
    | intro _ _ _ | intro _ _ | intro _ | dsimp only | split

theorem State.finishDie_memOk (s : State) (i : Nat) (cycle : Word) (hs : s.memOk) : (State.finishDie s i cycle).memOk := by
  unfold State.finishDie
  with_reducible repeat' first
    | assumption | apply ite_memOk | apply State.signalDone_memOk | dsimp only | split

theorem State.overrun_memOk (s : State) (p : Nat) (hs : s.memOk) : (State.overrun s p).memOk := by
  unfold State.overrun
  with_reducible repeat' first
    | assumption | apply State.announcePause_memOk | apply State.bump_memOk | apply State.eventAny_memOk | apply State.modPart_memOk
    | apply State.reportDone_memOk | apply State.setFlag_memOk | apply State.setPhase_memOk | apply ite_memOk | apply foldl_memOk
    | apply foldl_fst_memOk | apply foldl_okMem | apply okMem_ok | apply okMem_error | refine okMem_elim (by assumption) | intro _ _ _
    | intro _ _ | intro _ | dsimp only | split

theorem State.plannedBoundary_memOk (s : State) (p : Nat) (hs : s.memOk) : (State.plannedBoundary s p).memOk := by
  unfold State.plannedBoundary
  with_reducible repeat' first
    | assumption | apply State.enterChangeover_memOk | apply State.markAborted_memOk | apply State.modPart_memOk | apply State.overrun_memOk
    | apply State.setPhase_memOk | apply State.stampDone_memOk | apply ite_memOk | apply foldl_memOk | apply foldl_fst_memOk
    | apply foldl_okMem | apply okMem_ok | apply okMem_error | refine okMem_elim (by assumption) | intro _ _ _ | intro _ _ | intro _
    | dsimp only | split

theorem State.slipChangeover_memOk (s : State) (p : Nat) (hs : s.memOk) : (State.slipChangeover s p).memOk := by
  unfold State.slipChangeover
  with_reducible repeat' first
    | assumption | apply State.enterChangeover_memOk | apply State.setReg_memOk | apply State.stampDone_memOk | apply ite_memOk
    | apply foldl_memOk | apply foldl_fst_memOk | apply foldl_okMem | apply okMem_ok | apply okMem_error | refine okMem_elim (by assumption)
    | intro _ _ _ | intro _ _ | intro _ | dsimp only | split

theorem State.debugPauseEntry_memOk (s : State) (p : Nat) (hs : s.memOk) : (State.debugPauseEntry s p).memOk := by
  unfold State.debugPauseEntry
  with_reducible repeat' first
    | assumption | apply State.bump_memOk | apply State.setPhase_memOk | dsimp only

theorem State.slipLimit_memOk (s : State) (p : Nat) (hs : s.memOk) : (State.slipLimit s p).memOk := by
  unfold State.slipLimit
  with_reducible repeat' first
    | assumption | apply ite_memOk | apply State.abortTurn_memOk | apply State.debugPauseEntry_memOk | dsimp only | split

theorem State.markMaint_memOk (s : State) (p : Nat) (hs : s.memOk) : (State.markMaint s p).memOk := by
  unfold State.markMaint
  with_reducible repeat' first
    | assumption | apply State.announceChange_memOk | apply State.modPart_memOk | apply State.setFlag_memOk | apply ite_memOk
    | apply foldl_memOk | apply foldl_fst_memOk | apply foldl_okMem | apply okMem_ok | apply okMem_error | refine okMem_elim (by assumption)
    | intro _ _ _ | intro _ _ | intro _ | dsimp only | split

theorem State.drainEnd_memOk (s : State) (p chosenP : Nat) (hs : s.memOk) : (State.drainEnd s p chosenP).memOk := by
  unfold State.drainEnd
  with_reducible repeat' first
    | assumption | apply ite_memOk | apply State.beginChangeover_memOk | apply State.debugPauseEntry_memOk | apply State.markMaint_memOk
    | dsimp only | split

theorem State.changeoverStart_memOk (s : State) (p chosenP : Nat) (hs : s.memOk) : (State.changeoverStart s p chosenP).memOk := by
  unfold State.changeoverStart
  with_reducible repeat' first
    | assumption | apply ite_memOk | apply State.beginChangeover_memOk | apply State.markMaint_memOk | dsimp only | split

theorem State.clockStep_memOk (s : State) (p : Nat) (hs : s.memOk) : (State.clockStep s p).memOk := by
  unfold State.clockStep
  with_reducible repeat' first
    | assumption | apply ite_memOk | apply State.modPart_memOk | apply State.setField_memOk | apply State.setMargins_memOk
    | apply foldl_memOk | apply foldl_fst_memOk | intro _ _ _ | intro _ _ | intro _ | dsimp only | split

theorem State.changeoverWork_memOk (s : State) (p lines ops : Nat) (nodes : List Addr) (hs : s.memOk) : (State.changeoverWork s p lines ops nodes).memOk := by
  unfold State.changeoverWork
  with_reducible repeat' first
    | assumption | apply ite_memOk | apply State.contextWork_memOk | dsimp only | split

theorem State.spareFails_memOk (s : State) (p i row : Nat) (hs : s.memOk) : (State.spareFails s p i row).memOk := by
  unfold State.spareFails
  with_reducible repeat' first
    | assumption | apply State.event7FAny_memOk | apply State.setSpareBad_memOk | apply ite_memOk | apply foldl_memOk
    | apply foldl_fst_memOk | apply foldl_okMem | apply okMem_ok | apply okMem_error | refine okMem_elim (by assumption) | intro _ _ _
    | intro _ _ | intro _ | dsimp only | split

theorem State.pipCheck_memOk (s : State) (p i : Nat) (failing : List (Nat × Nat)) (hs : s.memOk) : (State.pipCheck s p i failing).memOk := by
  unfold State.pipCheck
  with_reducible repeat' first
    | assumption | apply State.abortTurn_memOk | apply State.bump_memOk | apply State.modDie_memOk | apply State.safetyOut_memOk
    | apply State.setReg_memOk | apply State.spareFails_memOk | apply State.takeOut_memOk | apply ite_memOk | apply foldl_memOk
    | apply foldl_fst_memOk | apply foldl_okMem | apply okMem_ok | apply okMem_error | refine okMem_elim (by assumption) | intro _ _ _
    | intro _ _ | intro _ | dsimp only | split

theorem State.readSlice_memOk (s : State) (p i : Nat) (hs : s.memOk) : (State.readSlice s p i).1.memOk := by
  unfold State.readSlice
  with_reducible repeat' first
    | assumption | apply State.computeRead_memOk | refine State.computeRead_memOk' (by assumption) ?_ | apply State.modDie_memOk
    | apply ite_memOk | apply foldl_memOk | apply foldl_fst_memOk | apply foldl_okMem | apply okMem_ok | apply okMem_error
    | refine okMem_elim (by assumption) | intro _ _ _ | intro _ _ | intro _ | dsimp only | split

theorem State.readSlice_memOk' {s : State} {p i : Nat} {t : State} {x1 : List (BatchRow × TailRun)} {x2 : List Byte} (eqn : State.readSlice s p i = (t, x1, x2)) (hs : s.memOk) : t.memOk :=
  pair_memOk eqn (State.readSlice_memOk s p i hs)

theorem State.writeSheet_memOk (s : State) (i : Nat) (l : List (Nat × Byte)) (hs : s.memOk) : (State.writeSheet s i l).memOk := by
  unfold State.writeSheet
  with_reducible repeat' first
    | assumption | apply State.setDieBytes_memOk | apply ite_memOk | apply foldl_memOk | apply foldl_fst_memOk | apply foldl_okMem
    | apply okMem_ok | apply okMem_error | refine okMem_elim (by assumption) | intro _ _ _ | intro _ _ | intro _ | dsimp only | split

theorem State.copyNext_memOk (s : State) (p i : Nat) (hs : s.memOk) : (State.copyNext s p i).memOk := by
  unfold State.copyNext
  with_reducible repeat' first
    | assumption | apply State.copyStandby_memOk | apply ite_memOk | apply foldl_memOk | apply foldl_fst_memOk | apply foldl_okMem
    | apply okMem_ok | apply okMem_error | refine okMem_elim (by assumption) | intro _ _ _ | intro _ _ | intro _ | dsimp only | split

theorem State.rookWindow_memOk (s : State) (i : Nat) (sheets : List (Nat × Byte)) (failing : List (Nat × Nat)) (copied : Bool) (hs : s.memOk) : (State.rookWindow s i sheets failing copied).memOk := by
  unfold State.rookWindow
  with_reducible repeat' first
    | assumption | apply State.copyNext_memOk | apply State.modDie_memOk | apply State.modPart_memOk | apply State.pipCheck_memOk
    | apply State.readSlice_memOk | refine State.readSlice_memOk' (by assumption) ?_ | apply State.writeSheet_memOk | apply ite_memOk
    | apply foldl_memOk | apply foldl_fst_memOk | apply foldl_okMem | apply okMem_ok | apply okMem_error | refine okMem_elim (by assumption)
    | intro _ _ _ | intro _ _ | intro _ | dsimp only | split

theorem State.setPlay_memOk (s : State) (p : Nat) (tick : Word) (hs : s.memOk) : (State.setPlay s p tick).memOk := by
  unfold State.setPlay
  with_reducible repeat' first
    | assumption | apply State.modPart_memOk | intro _ _ _ | intro _ _ | intro _ | dsimp only

theorem State.rookIsReady_memOk (s : State) (i : Nat) (hs : s.memOk) : (State.rookIsReady s i).memOk := by
  unfold State.rookIsReady
  with_reducible repeat' first
    | assumption | apply ite_memOk | apply State.gatherTree_memOk | apply State.modDie_memOk | apply State.modPart_memOk
    | apply State.setPlay_memOk | intro _ _ _ | intro _ _ | intro _ | dsimp only | split

theorem State.playBarrier_memOk (s : State) (p : Nat) (hs : s.memOk) : (State.playBarrier s p).memOk := by
  unfold State.playBarrier
  with_reducible repeat' first
    | assumption | apply ite_memOk | apply State.bump_memOk | apply State.endTurns_memOk | apply State.modPart_memOk
    | apply State.setPhase_memOk | apply State.setPlay_memOk | intro _ _ _ | intro _ _ | intro _ | dsimp only | split

theorem State.stretchTimeout_memOk (s : State) (p : Nat) (hs : s.memOk) : (State.stretchTimeout s p).memOk := by
  unfold State.stretchTimeout
  with_reducible repeat' first
    | assumption | apply ite_memOk | apply State.modPart_memOk | apply State.safetyOut_memOk | apply State.setPlay_memOk
    | apply State.takeOut_memOk | apply foldl_memOk | apply foldl_fst_memOk | intro _ _ _ | intro _ _ | intro _ | dsimp only | split

theorem State.preempted_memOk (s : State) (p : Nat) (hs : s.memOk) : (State.preempted s p).memOk := by
  unfold State.preempted
  with_reducible repeat' first
    | assumption | apply ite_memOk | apply State.bump_memOk | apply State.enterChangeover_memOk | apply State.markAborted_memOk
    | intro _ _ _ | intro _ _ | intro _ | dsimp only | split

theorem State.beginPlays_memOk (s : State) (hs : s.memOk) : (State.beginPlays s).memOk := by
  unfold State.beginPlays
  with_reducible repeat' first
    | assumption | apply ite_memOk | apply State.beginPlay_memOk | apply foldl_memOk | apply foldl_fst_memOk | intro _ _ _ | intro _ _
    | intro _ | dsimp only | split

theorem State.advanceClock_memOk (s : State) (n : Nat) (hs : s.memOk) : (State.advanceClock s n).memOk := by
  unfold State.advanceClock
  with_reducible repeat' first
    | assumption | apply State.beginPlays_memOk | apply ite_memOk | apply foldl_memOk | apply foldl_fst_memOk | apply foldl_okMem
    | apply okMem_ok | apply okMem_error | refine okMem_elim (by assumption) | intro _ _ _ | intro _ _ | intro _ | dsimp only | split

theorem State.gameTick_memOk (s : State) (hs : s.memOk) : (State.gameTick s).memOk := by
  unfold State.gameTick
  with_reducible repeat' first
    | assumption | apply ite_memOk | apply State.advanceClock_memOk | dsimp only | split

theorem State.slewTick_memOk (s : State) (hs : s.memOk) : (State.slewTick s).memOk := by
  unfold State.slewTick
  with_reducible repeat' first
    | assumption | apply ite_memOk | apply State.advanceClock_memOk | apply State.setFlag_memOk | dsimp only | split

theorem State.timeMessage_memOk (s : State) (q : Nat) (value : BitVec 56) (hs : s.memOk) : (State.timeMessage s q value).memOk := by
  unfold State.timeMessage
  with_reducible repeat' first
    | assumption | apply State.bump_memOk | apply ite_memOk | apply foldl_memOk | apply foldl_fst_memOk | apply foldl_okMem | apply okMem_ok
    | apply okMem_error | refine okMem_elim (by assumption) | intro _ _ _ | intro _ _ | intro _ | dsimp only | split

theorem State.refLoss_memOk (s : State) (hs : s.memOk) : (State.refLoss s).memOk := by
  unfold State.refLoss
  with_reducible repeat' first
    | assumption | apply State.alert_memOk | apply State.event7F_memOk | apply State.setFlag_memOk | dsimp only

theorem State.refRelock_memOk (s : State) (difference : BitVec 32) (hs : s.memOk) : (State.refRelock s difference).memOk := by
  unfold State.refRelock
  with_reducible repeat' first
    | assumption | apply ite_memOk | apply State.releaseAlert_memOk | apply State.setFlag_memOk | apply State.setSlew_memOk | dsimp only
    | split

theorem execPlayStart_memOk {site : Nat} {s : State} {u : State} (eqn : execPlayStart site s = .next u) (hs : s.memOk) : u.memOk := by
  unfold execPlayStart at eqn
  cases eqn
  with_reducible repeat' first
    | assumption | apply State.playStart_memOk | dsimp only

theorem execDieDone_memOk {site : Nat} {cycle : Word} {s : State} {u : State} (eqn : execDieDone site cycle s = .next u) (hs : s.memOk) : u.memOk := by
  unfold execDieDone at eqn
  cases eqn
  with_reducible repeat' first
    | assumption | apply State.finishDie_memOk | dsimp only

theorem execPlannedBoundary_memOk {part : Nat} {s : State} {u : State} (eqn : execPlannedBoundary part s = .next u) (hs : s.memOk) : u.memOk := by
  unfold execPlannedBoundary at eqn
  cases eqn
  with_reducible repeat' first
    | assumption | apply State.plannedBoundary_memOk | dsimp only

theorem execSlipChangeoverStart_memOk {part : Nat} {s : State} {u : State} (eqn : execSlipChangeoverStart part s = .next u) (hs : s.memOk) : u.memOk := by
  unfold execSlipChangeoverStart at eqn
  cases eqn
  with_reducible repeat' first
    | assumption | apply State.slipChangeover_memOk | dsimp only

theorem execSlipLimit_memOk {part : Nat} {s : State} {u : State} (eqn : execSlipLimit part s = .next u) (hs : s.memOk) : u.memOk := by
  unfold execSlipLimit at eqn
  cases eqn
  with_reducible repeat' first
    | assumption | apply State.slipLimit_memOk | dsimp only

theorem execClockStepChange_memOk {part : Nat} {s : State} {u : State} (eqn : execClockStepChange part s = .next u) (hs : s.memOk) : u.memOk := by
  unfold execClockStepChange at eqn
  cases eqn
  with_reducible repeat' first
    | assumption | apply State.clockStep_memOk | dsimp only

theorem execChangeoverWork_memOk {part lines ops : Nat} {nodes : List Addr} {s : State} {u : State} (eqn : execChangeoverWork part lines ops nodes s = .next u) (hs : s.memOk) : u.memOk := by
  unfold execChangeoverWork at eqn
  cases eqn
  with_reducible repeat' first
    | assumption | apply State.changeoverWork_memOk | dsimp only

theorem execRookWindow_memOk {site : Nat} {sheets : List (Nat × Byte)} {failing : List (Nat × Nat)} {copied : Bool} {s : State} {u : State} (eqn : execRookWindow site sheets failing copied s = .next u) (hs : s.memOk) : u.memOk := by
  unfold execRookWindow at eqn
  cases eqn
  with_reducible repeat' first
    | assumption | apply State.rookWindow_memOk | dsimp only

theorem execRookReady_memOk {site : Nat} {s : State} {u : State} (eqn : execRookReady site s = .next u) (hs : s.memOk) : u.memOk := by
  unfold execRookReady at eqn
  cases eqn
  with_reducible repeat' first
    | assumption | apply State.rookIsReady_memOk | dsimp only

theorem execStartOfPlayBarrier_memOk {part : Nat} {s : State} {u : State} (eqn : execStartOfPlayBarrier part s = .next u) (hs : s.memOk) : u.memOk := by
  unfold execStartOfPlayBarrier at eqn
  cases eqn
  with_reducible repeat' first
    | assumption | apply State.playBarrier_memOk | dsimp only

theorem execStretchTimeout_memOk {part : Nat} {s : State} {u : State} (eqn : execStretchTimeout part s = .next u) (hs : s.memOk) : u.memOk := by
  unfold execStretchTimeout at eqn
  cases eqn
  with_reducible repeat' first
    | assumption | apply State.stretchTimeout_memOk | dsimp only

theorem execPreemptionComplete_memOk {part : Nat} {s : State} {u : State} (eqn : execPreemptionComplete part s = .next u) (hs : s.memOk) : u.memOk := by
  unfold execPreemptionComplete at eqn
  cases eqn
  with_reducible repeat' first
    | assumption | apply State.preempted_memOk | dsimp only

theorem execGameClockTick_memOk {s : State} {u : State} (eqn : execGameClockTick s = .next u) (hs : s.memOk) : u.memOk := by
  unfold execGameClockTick at eqn
  cases eqn
  with_reducible repeat' first
    | assumption | apply State.gameTick_memOk | dsimp only

theorem execSlewAdjust_memOk {s : State} {u : State} (eqn : execSlewAdjust s = .next u) (hs : s.memOk) : u.memOk := by
  unfold execSlewAdjust at eqn
  cases eqn
  with_reducible repeat' first
    | assumption | apply State.slewTick_memOk | dsimp only

theorem execTime_memOk {square : Nat} {value : BitVec 56} {s : State} {u : State} (eqn : execTime square value s = .next u) (hs : s.memOk) : u.memOk := by
  unfold execTime at eqn
  cases eqn
  with_reducible repeat' first
    | assumption | apply State.timeMessage_memOk | apply ite_memOk | apply foldl_memOk | apply foldl_fst_memOk | apply foldl_okMem
    | apply okMem_ok | apply okMem_error | refine okMem_elim (by assumption) | intro _ _ _ | intro _ _ | intro _ | dsimp only | split

theorem execTimeBroadcast_memOk {s : State} {u : State} (eqn : execTimeBroadcast s = .next u) (hs : s.memOk) : u.memOk := by
  unfold execTimeBroadcast at eqn
  cases eqn
  with_reducible repeat' first
    | assumption | apply State.bump_memOk | apply State.snSend_memOk | apply ite_memOk | apply foldl_memOk | apply foldl_fst_memOk
    | apply foldl_okMem | apply okMem_ok | apply okMem_error | refine okMem_elim (by assumption) | intro _ _ _ | intro _ _ | intro _
    | dsimp only | split

theorem execBoundary_memOk {square : Nat} {turn : BitVec 56} {s : State} {u : State} (eqn : execBoundary square turn s = .next u) (hs : s.memOk) : u.memOk := by
  unfold execBoundary at eqn
  dsimp only at eqn
  repeat' split at eqn
  all_goals cases eqn
  repeat' first
    | with_reducible assumption
    | with_reducible apply State.bump_memOk
    | with_reducible apply State.setFlag_memOk
    | with_reducible apply State.snDown_memOk
    | with_reducible apply ite_memOk
    | with_reducible apply foldl_memOk
    | with_reducible apply foldl_fst_memOk
    | with_reducible apply foldl_okMem
    | with_reducible apply okMem_ok
    | with_reducible apply okMem_error
    | with_reducible refine okMem_elim (by with_reducible assumption)
    | (intro _ _ _)
    | (intro _ _)
    | (intro _)
    | dsimp only
    | split
    | with_reducible refine pair_memOk (by with_reducible assumption) ?_
    | with_reducible refine okMem_mem (by with_reducible assumption) ?_

theorem execDone_memOk {square fromDir : Nat} {s : State} {u : State} (eqn : execDone square fromDir s = .next u) (hs : s.memOk) : u.memOk := by
  unfold execDone at eqn
  cases eqn
  with_reducible repeat' first
    | assumption | apply State.treeReceipt_memOk | dsimp only

theorem execReady_memOk {square fromDir : Nat} {s : State} {u : State} (eqn : execReady square fromDir s = .next u) (hs : s.memOk) : u.memOk := by
  unfold execReady at eqn
  cases eqn
  with_reducible repeat' first
    | assumption | apply State.treeReceipt_memOk | dsimp only

theorem execYielded_memOk {square fromDir : Nat} {s : State} {u : State} (eqn : execYielded square fromDir s = .next u) (hs : s.memOk) : u.memOk := by
  unfold execYielded at eqn
  cases eqn
  with_reducible repeat' first
    | assumption | apply State.treeReceipt_memOk | dsimp only

theorem execPreempt_memOk {square : Nat} {s : State} {u : State} (eqn : execPreempt square s = .next u) (hs : s.memOk) : u.memOk := by
  unfold execPreempt at eqn
  dsimp only at eqn
  repeat' split at eqn
  all_goals cases eqn
  repeat' first
    | with_reducible assumption
    | with_reducible apply State.bump_memOk
    | with_reducible apply State.gatherTree_memOk
    | with_reducible apply State.passUp_memOk
    | with_reducible apply State.setFlag_memOk
    | with_reducible apply State.snDown_memOk
    | with_reducible apply ite_memOk
    | with_reducible apply foldl_memOk
    | with_reducible apply foldl_fst_memOk
    | with_reducible apply foldl_okMem
    | with_reducible apply okMem_ok
    | with_reducible apply okMem_error
    | with_reducible refine okMem_elim (by with_reducible assumption)
    | (intro _ _ _)
    | (intro _ _)
    | (intro _)
    | dsimp only
    | split
    | with_reducible refine pair_memOk (by with_reducible assumption) ?_
    | with_reducible refine okMem_mem (by with_reducible assumption) ?_

theorem execAbort_memOk {square : Nat} {s : State} {u : State} (eqn : execAbort square s = .next u) (hs : s.memOk) : u.memOk := by
  unfold execAbort at eqn
  dsimp only at eqn
  repeat' split at eqn
  all_goals cases eqn
  repeat' first
    | with_reducible assumption
    | with_reducible apply State.bump_memOk
    | with_reducible apply State.modDie_memOk
    | with_reducible apply State.snDown_memOk
    | with_reducible apply ite_memOk
    | with_reducible apply foldl_memOk
    | with_reducible apply foldl_fst_memOk
    | with_reducible apply foldl_okMem
    | with_reducible apply okMem_ok
    | with_reducible apply okMem_error
    | with_reducible refine okMem_elim (by with_reducible assumption)
    | (intro _ _ _)
    | (intro _ _)
    | (intro _)
    | dsimp only
    | split
    | with_reducible refine pair_memOk (by with_reducible assumption) ?_
    | with_reducible refine okMem_mem (by with_reducible assumption) ?_

theorem execClkRefLoss_memOk {s : State} {u : State} (eqn : execClkRefLoss s = .next u) (hs : s.memOk) : u.memOk := by
  unfold execClkRefLoss at eqn
  cases eqn
  with_reducible repeat' first
    | assumption | apply State.refLoss_memOk | dsimp only

theorem execClkRefRelock_memOk {difference : BitVec 32} {s : State} {u : State} (eqn : execClkRefRelock difference s = .next u) (hs : s.memOk) : u.memOk := by
  unfold execClkRefRelock at eqn
  cases eqn
  with_reducible repeat' first
    | assumption | apply State.refRelock_memOk | dsimp only

theorem execCrossingMarginLow_memOk {square : Nat} {s : State} {u : State} (eqn : execCrossingMarginLow square s = .next u) (hs : s.memOk) : u.memOk := by
  unfold execCrossingMarginLow at eqn
  cases eqn
  with_reducible repeat' first
    | assumption | apply State.bump_memOk | apply State.event7F_memOk | dsimp only

end Sys2Proof.Machine
end

