-- ==== Sys2Proof/Laws/MemUnits.lean ====
section
/-! SUPPORT. Memory keeps its canonical form (Memory.wf, State.memOk) through each function of Flags, Operands, StatePath, Matrix, Dma, Vector, Sequencer, RegisterCommands and MoveCommands: one lemma per
function that answers a state, and for a function that answers a state with something else a second one, marked with a prime, that takes
the answer as an equation. -/

namespace Sys2Proof.Machine

set_option linter.unusedTactic false
set_option linter.unreachableTactic false
set_option linter.unusedVariables false

/-! Flags -/

theorem State.raiseMatrix_memOk (s : State) (i : Nat) (f : Flags) (hs : s.memOk) : (State.raiseMatrix s i f).memOk := by
  unfold State.raiseMatrix
  with_reducible repeat' first
    | assumption | apply State.setReg_memOk | dsimp only

theorem State.raiseVector_memOk (s : State) (i : Nat) (f : Flags) (hs : s.memOk) : (State.raiseVector s i f).memOk := by
  unfold State.raiseVector
  with_reducible repeat' first
    | assumption | apply State.setReg_memOk | dsimp only

/-! Operands -/

theorem State.setPlaceBytes_memOk (s : State) (pl : Place) (off : Nat) (d : List Byte) (hs : s.memOk) : (State.setPlaceBytes s pl off d).memOk := by
  unfold State.setPlaceBytes
  with_reducible repeat' first
    | assumption | apply State.setDieBytes_memOk | apply State.setTailBytes_memOk | dsimp only | split

theorem State.storeAt_memOk (s : State) (pl : Place) (g1 : Bool) (off : Int) (d : List Byte) (hs : s.memOk) : OkMem (State.storeAt s pl g1 off d) := by
  unfold State.storeAt
  with_reducible repeat' first
    | assumption | apply ite_memOk | apply State.setPlaceBytes_memOk | apply foldl_okMem | apply okMem_ok | apply okMem_error
    | refine okMem_elim (by assumption) | dsimp only | split

theorem State.storeAt_memOk' {s : State} {pl : Place} {g1 : Bool} {off : Int} {d : List Byte} {t : State} {x1 : Bool} (eqn : State.storeAt s pl g1 off d = .ok (t, x1)) (hs : s.memOk) : t.memOk :=
  (State.storeAt_memOk s pl g1 off d hs).mem _ _ eqn

theorem State.storeElement_memOk (s : State) (pl : Place) (g1 : Bool) (row : Int) (w k code : Nat) (hs : s.memOk) : OkMem (State.storeElement s pl g1 row w k code) := by
  unfold State.storeElement
  with_reducible repeat' first
    | assumption | apply ite_memOk | apply State.storeAt_memOk | refine State.storeAt_memOk' (by assumption) ?_ | apply foldl_okMem
    | apply okMem_ok | apply okMem_error | refine okMem_elim (by assumption) | dsimp only | split

theorem State.storeElement_memOk' {s : State} {pl : Place} {g1 : Bool} {row : Int} {w k code : Nat} {t : State} {x1 : Bool} (eqn : State.storeElement s pl g1 row w k code = .ok (t, x1)) (hs : s.memOk) : t.memOk :=
  (State.storeElement_memOk s pl g1 row w k code hs).mem _ _ eqn

theorem State.setCellWords_memOk (s : State) (i key : Nat) (w : List (BitVec 32)) (hs : s.memOk) : (State.setCellWords s i key w).memOk := by
  unfold State.setCellWords
  with_reducible repeat' first
    | assumption | apply State.modDie_memOk | intro _ _ _ | intro _ _ | intro _ | dsimp only

theorem State.setBuf_memOk (s : State) (i key : Nat) (b : BufState) (hs : s.memOk) : (State.setBuf s i key b).memOk := by
  unfold State.setBuf
  with_reducible repeat' first
    | assumption | apply State.modDie_memOk | intro _ _ _ | intro _ _ | intro _ | dsimp only

theorem State.writeRow_memOk (s : State) (p i mode : Nat) (v : VStream) (r : Nat) (codes scales : List Nat) (hs : s.memOk) : OkMem (State.writeRow s p i mode v r codes scales) := by
  unfold State.writeRow
  with_reducible repeat' first
    | assumption | apply ite_memOk | apply State.storeElement_memOk | refine State.storeElement_memOk' (by assumption) ?_
    | apply foldl_memOk | apply foldl_fst_memOk | apply foldl_okMem | apply okMem_ok | apply okMem_error | refine okMem_elim (by assumption)
    | intro _ _ _ | intro _ _ | intro _ | dsimp only | split

theorem State.writeRow_memOk' {s : State} {p i mode : Nat} {v : VStream} {r : Nat} {codes scales : List Nat} {t : State} {x1 : Flags} (eqn : State.writeRow s p i mode v r codes scales = .ok (t, x1)) (hs : s.memOk) : t.memOk :=
  (State.writeRow_memOk s p i mode v r codes scales hs).mem _ _ eqn

theorem State.dmaStore_memOk {s : State} {i mode : Nat} {d : DmaDesc} {r : Nat} {data : List Byte} {t : State} (eqn : State.dmaStore s i mode d r data = .ok t) (hs : s.memOk) : t.memOk := by
  unfold State.dmaStore at eqn
  dsimp only at eqn
  split at eqn
  · cases eqn
  · refine foldl_okState ?_ ?_ t eqn
    · intro x a h u e
      split at e
      · cases e
      · split at e <;> cases e
        exact State.storeAt_memOk' (by assumption) (h _ rfl)
    · intro u e
      cases e
      exact hs

/-! StatePath -/

theorem State.walkRead_memOk (s : State) (q node i : Nat) (hs : s.memOk) : (State.walkRead s q node i).1.memOk := by
  unfold State.walkRead
  with_reducible repeat' first
    | assumption | apply State.bump_memOk | apply State.hostReadBlock_memOk | refine State.hostReadBlock_memOk' (by assumption) ?_
    | apply foldl_okMem | apply okMem_ok | apply okMem_error | refine okMem_elim (by assumption) | dsimp only | split

theorem State.walkRead_memOk' {s : State} {q node i : Nat} {t : State} {x1 : Except Status Word} (eqn : State.walkRead s q node i = (t, x1)) (hs : s.memOk) : t.memOk :=
  pair_memOk eqn (State.walkRead_memOk s q node i hs)

theorem State.upperEntry_memOk (s : State) (p q : Nat) (h : Handle) (epoch : BitVec 16) (level node page : Nat) (hs : s.memOk) : (State.upperEntry s p q h epoch level node page).1.memOk := by
  unfold State.upperEntry
  with_reducible repeat' first
    | assumption | apply ite_memOk | apply State.modSquare_memOk | apply State.walkRead_memOk
    | refine State.walkRead_memOk' (by assumption) ?_ | apply foldl_okMem | apply okMem_ok | apply okMem_error
    | refine okMem_elim (by assumption) | intro _ _ _ | intro _ _ | intro _ | dsimp only | split

theorem State.upperEntry_memOk' {s : State} {p q : Nat} {h : Handle} {epoch : BitVec 16} {level node page : Nat} {t : State} {x1 : Except WalkFail Word} (eqn : State.upperEntry s p q h epoch level node page = (t, x1)) (hs : s.memOk) : t.memOk :=
  pair_memOk eqn (State.upperEntry_memOk s p q h epoch level node page hs)

theorem State.walk_memOk (s : State) (p q : Nat) (h : Handle) (epoch : BitVec 16) (root page : Nat) (hs : s.memOk) : (State.walk s p q h epoch root page).1.memOk := by
  unfold State.walk
  extract_lets known low
  clear_value known
  have hl : low.1.memOk := by
    dsimp only [low]
    clear low
    rcases known with _ | t
    · dsimp only
      repeat' first
        | with_reducible assumption
        | with_reducible apply ite_memOk
        | with_reducible apply State.upperEntry_memOk
        | with_reducible refine State.upperEntry_memOk' (by with_reducible assumption) ?_
        | with_reducible apply State.walkRead_memOk
        | with_reducible refine State.walkRead_memOk' (by with_reducible assumption) ?_
        | with_reducible apply foldl_memOk
        | with_reducible apply foldl_fst_memOk
        | with_reducible apply foldl_okMem
        | with_reducible apply okMem_ok
        | with_reducible apply okMem_error
        | with_reducible refine okMem_elim (by with_reducible assumption)
        | (intro _ _ _)
        | (intro _ _)
        | (intro _)
        | dsimp only
        | split
        | with_reducible refine pair_memOk (by with_reducible assumption) ?_
        | with_reducible refine okMem_mem (by with_reducible assumption) ?_
    · exact hs
  clear_value low
  repeat' first
    | with_reducible assumption
    | with_reducible apply ite_memOk
    | with_reducible apply State.upperEntry_memOk
    | with_reducible refine State.upperEntry_memOk' (by with_reducible assumption) ?_
    | with_reducible apply State.walkRead_memOk
    | with_reducible refine State.walkRead_memOk' (by with_reducible assumption) ?_
    | with_reducible apply foldl_memOk
    | with_reducible apply foldl_fst_memOk
    | with_reducible apply foldl_okMem
    | with_reducible apply okMem_ok
    | with_reducible apply okMem_error
    | with_reducible refine okMem_elim (by with_reducible assumption)
    | (intro _ _ _)
    | (intro _ _)
    | (intro _)
    | dsimp only
    | split
    | with_reducible refine pair_memOk (by with_reducible assumption) ?_
    | with_reducible refine okMem_mem (by with_reducible assumption) ?_

theorem State.walk_memOk' {s : State} {p q : Nat} {h : Handle} {epoch : BitVec 16} {root page : Nat} {t : State} {x1 : Except WalkFail Word} (eqn : State.walk s p q h epoch root page = (t, x1)) (hs : s.memOk) : t.memOk :=
  pair_memOk eqn (State.walk_memOk s p q h epoch root page hs)

theorem State.translate_memOk (s : State) (p q slot page : Nat) (hs : s.memOk) : (State.translate s p q slot page).1.memOk := by
  unfold State.translate
  with_reducible repeat' first
    | assumption | apply ite_memOk | apply State.bump_memOk | apply State.drawBool_memOk | refine State.drawBool_memOk' (by assumption) ?_
    | apply State.modSquare_memOk | apply State.walk_memOk | refine State.walk_memOk' (by assumption) ?_ | apply foldl_okMem
    | apply okMem_ok | apply okMem_error | refine okMem_elim (by assumption) | intro _ _ _ | intro _ _ | intro _ | dsimp only | split

theorem State.translate_memOk' {s : State} {p q slot page : Nat} {t : State} {x1 : Except WalkFail Word} (eqn : State.translate s p q slot page = (t, x1)) (hs : s.memOk) : t.memOk :=
  pair_memOk eqn (State.translate_memOk s p q slot page hs)

theorem State.translateRows_memOk (s : State) (p q : Nat) (rows : List StateRow) (kept : Held) (hs : s.memOk) : (State.translateRows s p q rows kept).1.memOk := by
  unfold State.translateRows
  with_reducible repeat' first
    | assumption | apply ite_memOk | apply State.translate_memOk | refine State.translate_memOk' (by assumption) ?_ | apply foldl_memOk
    | apply foldl_fst_memOk | intro _ _ _ | intro _ _ | intro _ | dsimp only | split

theorem State.translateRows_memOk' {s : State} {p q : Nat} {rows : List StateRow} {kept : Held} {t : State} {x1 : Held} (eqn : State.translateRows s p q rows kept = (t, x1)) (hs : s.memOk) : t.memOk :=
  pair_memOk eqn (State.translateRows_memOk s p q rows kept hs)

theorem State.readStateLine_memOk (s : State) (q a : Nat) (hs : s.memOk) : (State.readStateLine s q a).1.memOk := by
  unfold State.readStateLine
  with_reducible repeat' first
    | assumption | apply ite_memOk | apply State.computeRead_memOk | refine State.computeRead_memOk' (by assumption) ?_
    | apply State.sliceUe_memOk | apply foldl_okMem | apply okMem_ok | apply okMem_error | refine okMem_elim (by assumption) | dsimp only
    | split

theorem State.readStateLine_memOk' {s : State} {q a : Nat} {t : State} {x1 : Except Status (List Byte)} (eqn : State.readStateLine s q a = (t, x1)) (hs : s.memOk) : t.memOk :=
  pair_memOk eqn (State.readStateLine_memOk s q a hs)

theorem State.reportFault_memOk (s : State) (p i chan : Nat) (prog flt : Word) (hs : s.memOk) : (State.reportFault s p i chan prog flt).memOk := by
  unfold State.reportFault
  with_reducible repeat' first
    | assumption | apply State.bump_memOk | apply State.injectCnet_memOk | apply ite_memOk | apply foldl_memOk | apply foldl_fst_memOk
    | apply foldl_okMem | apply okMem_ok | apply okMem_error | refine okMem_elim (by assumption) | intro _ _ _ | intro _ _ | intro _
    | dsimp only | split

theorem State.stopOperation_memOk (s : State) (p i chan : Nat) (index : BitVec 18) (done : Nat) (st : Stopped) (hs : s.memOk) : (State.stopOperation s p i chan index done st).memOk := by
  unfold State.stopOperation
  with_reducible repeat' first
    | assumption | apply ite_memOk | apply State.bump_memOk | apply State.modDie_memOk | apply State.reportFault_memOk
    | apply State.setFlag_memOk | apply State.setReg_memOk | intro _ _ _ | intro _ _ | intro _ | dsimp only | split

/-! Matrix -/

theorem State.matrixStatus_memOk (s : State) (i : Nat) (hs : s.memOk) : (State.matrixStatus s i).memOk := by
  unfold State.matrixStatus
  with_reducible repeat' first
    | assumption | apply State.setFlag_memOk | intro _ _ _ | intro _ _ | intro _ | dsimp only

theorem State.performPass_memOk (s : State) (p i : Nat) (f : PassFields) (hs : s.memOk) : (State.performPass s p i f).1.memOk := by
  unfold State.performPass
  with_reducible repeat' first
    | assumption | apply State.bump_memOk | apply State.raiseMatrix_memOk | apply State.setBuf_memOk | apply State.setCellWords_memOk
    | apply ite_memOk | apply foldl_memOk | apply foldl_fst_memOk | apply foldl_okMem | apply okMem_ok | apply okMem_error
    | refine okMem_elim (by assumption) | intro _ _ _ | intro _ _ | intro _ | dsimp only | split

theorem State.performPass_memOk' {s : State} {p i : Nat} {f : PassFields} {t : State} {x1 : Option Status} (eqn : State.performPass s p i f = (t, x1)) (hs : s.memOk) : t.memOk :=
  pair_memOk eqn (State.performPass_memOk s p i f hs)

theorem State.performDrain_memOk (s : State) (i : Nat) (label : BitVec 18) (first count : Nat) (buf held : Bool) (hs : s.memOk) : (State.performDrain s i label first count buf held).memOk := by
  unfold State.performDrain
  with_reducible repeat' first
    | assumption | apply ite_memOk | apply State.modDie_memOk | apply State.setBuf_memOk | apply State.setCellWords_memOk
    | apply foldl_memOk | apply foldl_fst_memOk | intro _ _ _ | intro _ _ | intro _ | dsimp only | split

theorem State.performGang_memOk (s : State) (i mode : Nat) (hs : s.memOk) : (State.performGang s i mode).memOk := by
  unfold State.performGang
  with_reducible repeat' first
    | assumption | apply State.modDie_memOk | apply State.raiseMatrix_memOk | apply State.setField_memOk | intro _ _ _ | intro _ _ | intro _
    | dsimp only | split

/-! Dma -/

theorem State.dmaRow_memOk (s : State) (i mode : Nat) (kind : DmaKind) (d : DmaDesc) (r : Nat) (hs : s.memOk) : (State.dmaRow s i mode kind d r).1.memOk := by
  unfold State.dmaRow
  with_reducible repeat' first
    | assumption | apply State.access_memOk | refine State.access_memOk' (by assumption) ?_ | refine State.dmaStore_memOk (by assumption) ?_
    | apply foldl_okMem | apply okMem_ok | apply okMem_error | refine okMem_elim (by assumption) | dsimp only | split

theorem State.dmaRow_memOk' {s : State} {i mode : Nat} {kind : DmaKind} {d : DmaDesc} {r : Nat} {t : State} {x1 : Option Status} (eqn : State.dmaRow s i mode kind d r = (t, x1)) (hs : s.memOk) : t.memOk :=
  pair_memOk eqn (State.dmaRow_memOk s i mode kind d r hs)

theorem State.dmaRows_memOk (s : State) (i mode : Nat) (kind : DmaKind) (d : DmaDesc) (rows : List Nat) (hs : s.memOk) : (State.dmaRows s i mode kind d rows).1.memOk := by
  unfold State.dmaRows
  with_reducible repeat' first
    | assumption | apply State.dmaRow_memOk | refine State.dmaRow_memOk' (by assumption) ?_ | apply foldl_memOk | apply foldl_fst_memOk
    | intro _ _ _ | intro _ _ | intro _ | dsimp only | split

theorem State.dmaRows_memOk' {s : State} {i mode : Nat} {kind : DmaKind} {d : DmaDesc} {rows : List Nat} {t : State} {x1 : Option Status} (eqn : State.dmaRows s i mode kind d rows = (t, x1)) (hs : s.memOk) : t.memOk :=
  pair_memOk eqn (State.dmaRows_memOk s i mode kind d rows hs)

theorem State.takeTransfers_memOk (s : State) (i lines : Nat) (hs : s.memOk) : (State.takeTransfers s i lines).memOk := by
  unfold State.takeTransfers
  with_reducible repeat' first
    | assumption | apply State.modDie_memOk | apply ite_memOk | apply foldl_memOk | apply foldl_fst_memOk | apply foldl_okMem
    | apply okMem_ok | apply okMem_error | refine okMem_elim (by assumption) | intro _ _ _ | intro _ _ | intro _ | dsimp only | split

theorem State.sendPackets_memOk (s : State) (p i : Nat) (d : DmaDesc) (l : List (Nat × List Byte × BitVec 64)) (hs : s.memOk) : (State.sendPackets s p i d l).1.memOk := by
  unfold State.sendPackets
  with_reducible repeat' first
    | assumption | apply State.injectBnet_memOk | apply State.modDie_memOk | apply ite_memOk | apply foldl_memOk | apply foldl_fst_memOk
    | apply foldl_okMem | apply okMem_ok | apply okMem_error | refine okMem_elim (by assumption) | intro _ _ _ | intro _ _ | intro _
    | dsimp only | split

theorem State.sendPackets_memOk' {s : State} {p i : Nat} {d : DmaDesc} {l : List (Nat × List Byte × BitVec 64)} {t : State} {x1 : BitVec 16} (eqn : State.sendPackets s p i d l = (t, x1)) (hs : s.memOk) : t.memOk :=
  pair_memOk eqn (State.sendPackets_memOk s p i d l hs)

theorem State.stateRow_memOk (s : State) (i mode : Nat) (kind : DmaKind) (d : DmaDesc) (leaf : Word) (x : StateRow) (hs : s.memOk) : (State.stateRow s i mode kind d leaf x).1.memOk := by
  unfold State.stateRow
  with_reducible repeat' first
    | assumption | apply State.countTraffic_memOk | refine State.dmaStore_memOk (by assumption) ?_ | apply State.readStateLine_memOk
    | refine State.readStateLine_memOk' (by assumption) ?_ | apply State.stateWrite_memOk | apply State.take_memOk | apply ite_memOk
    | apply foldl_memOk | apply foldl_fst_memOk | apply foldl_okMem | apply okMem_ok | apply okMem_error | refine okMem_elim (by assumption)
    | intro _ _ _ | intro _ _ | intro _ | dsimp only | split

theorem State.stateRow_memOk' {s : State} {i mode : Nat} {kind : DmaKind} {d : DmaDesc} {leaf : Word} {x : StateRow} {t : State} {x1 : Except WalkFail Unit} (eqn : State.stateRow s i mode kind d leaf x = (t, x1)) (hs : s.memOk) : t.memOk :=
  pair_memOk eqn (State.stateRow_memOk s i mode kind d leaf x hs)

theorem State.performState_memOk (s : State) (p i mode : Nat) (kind : DmaKind) (d : DmaDesc) (mask : BitVec 10) (start : Nat) (skips : List Handle) (kept : List (Handle × Nat × Word)) (hs : s.memOk) : (State.performState s p i mode kind d mask start skips kept).1.memOk := by
  unfold State.performState
  with_reducible repeat' first
    | assumption | apply State.stateRow_memOk | refine State.stateRow_memOk' (by assumption) ?_ | apply State.translateRows_memOk
    | refine State.translateRows_memOk' (by assumption) ?_ | apply foldl_memOk | apply foldl_fst_memOk | apply foldl_okMem | apply okMem_ok
    | apply okMem_error | refine okMem_elim (by assumption) | intro _ _ _ | intro _ _ | intro _ | dsimp only | split

theorem State.performState_memOk' {s : State} {p i mode : Nat} {kind : DmaKind} {d : DmaDesc} {mask : BitVec 10} {start : Nat} {skips : List Handle} {kept : List (Handle × Nat × Word)} {t : State} {x1 : DmaEnd} (eqn : State.performState s p i mode kind d mask start skips kept = (t, x1)) (hs : s.memOk) : t.memOk :=
  pair_memOk eqn (State.performState_memOk s p i mode kind d mask start skips kept hs)

theorem State.performDma_memOk (s : State) (p i mode : Nat) (kind : DmaKind) (ddesc : Nat) (mask : BitVec 10) (start : Nat) (skips : List Handle) (kept : List (Handle × Nat × Word)) (hs : s.memOk) : (State.performDma s p i mode kind ddesc mask start skips kept).1.memOk := by
  unfold State.performDma
  with_reducible repeat' first
    | assumption | apply State.dmaRows_memOk | refine State.dmaRows_memOk' (by assumption) ?_ | apply State.performState_memOk
    | refine State.performState_memOk' (by assumption) ?_ | apply State.sendPackets_memOk
    | refine State.sendPackets_memOk' (by assumption) ?_ | apply State.takeTransfers_memOk | apply ite_memOk | apply foldl_memOk
    | apply foldl_fst_memOk | apply foldl_okMem | apply okMem_ok | apply okMem_error | refine okMem_elim (by assumption) | intro _ _ _
    | intro _ _ | intro _ | dsimp only | split

theorem State.performDma_memOk' {s : State} {p i mode : Nat} {kind : DmaKind} {ddesc : Nat} {mask : BitVec 10} {start : Nat} {skips : List Handle} {kept : List (Handle × Nat × Word)} {t : State} {x1 : DmaEnd} (eqn : State.performDma s p i mode kind ddesc mask start skips kept = (t, x1)) (hs : s.memOk) : t.memOk :=
  pair_memOk eqn (State.performDma_memOk s p i mode kind ddesc mask start skips kept hs)

/-! Vector -/

theorem State.putRow_memOk (s : State) (p i mode : Nat) (v : VStream) (r : Nat) (rnd : Rnd) (draws : List Nat) (l : List Number) (hs : s.memOk) : OkMem (State.putRow s p i mode v r rnd draws l) := by
  unfold State.putRow
  with_reducible repeat' first
    | assumption | apply ite_memOk | apply State.writeRow_memOk | refine State.writeRow_memOk' (by assumption) ?_ | apply foldl_memOk
    | apply foldl_fst_memOk | apply foldl_okMem | apply okMem_ok | apply okMem_error | refine okMem_elim (by assumption) | intro _ _ _
    | intro _ _ | intro _ | dsimp only | split

theorem State.putRow_memOk' {s : State} {p i mode : Nat} {v : VStream} {r : Nat} {rnd : Rnd} {draws : List Nat} {l : List Number} {t : State} {x1 : Flags} (eqn : State.putRow s p i mode v r rnd draws l = .ok (t, x1)) (hs : s.memOk) : t.memOk :=
  (State.putRow_memOk s p i mode v r rnd draws l hs).mem _ _ eqn

theorem State.vecGranule_memOk (s : State) (p i mode : Nat) (v : VStream) (r : Nat) (hs : s.memOk) : (State.vecGranule s p i mode v r).1.memOk := by
  unfold State.vecGranule
  with_reducible repeat' first
    | assumption | apply ite_memOk | apply State.eventStatus_memOk | apply foldl_okMem | apply okMem_ok | apply okMem_error
    | refine okMem_elim (by assumption) | dsimp only | split

theorem State.vecGranule_memOk' {s : State} {p i mode : Nat} {v : VStream} {r : Nat} {t : State} {x1 : Except VecStop (List Byte × Bool)} (eqn : State.vecGranule s p i mode v r = (t, x1)) (hs : s.memOk) : t.memOk :=
  pair_memOk eqn (State.vecGranule_memOk s p i mode v r hs)

theorem State.vecInput_memOk (s : State) (p i mode : Nat) (v : VStream) (n u r : Nat) (held : Held) (hs : s.memOk) : (State.vecInput s p i mode v n u r held).1.memOk := by
  unfold State.vecInput
  with_reducible repeat' first
    | assumption | apply State.readStateLine_memOk | refine State.readStateLine_memOk' (by assumption) ?_ | apply State.vecGranule_memOk
    | refine State.vecGranule_memOk' (by assumption) ?_ | apply ite_memOk | apply foldl_memOk | apply foldl_fst_memOk | apply foldl_okMem
    | apply okMem_ok | apply okMem_error | refine okMem_elim (by assumption) | intro _ _ _ | intro _ _ | intro _ | dsimp only | split

theorem State.vecInput_memOk' {s : State} {p i mode : Nat} {v : VStream} {n u r : Nat} {held : Held} {t : State} {x1 : Except VecStop (List Number × Flags)} (eqn : State.vecInput s p i mode v n u r held = (t, x1)) (hs : s.memOk) : t.memOk :=
  pair_memOk eqn (State.vecInput_memOk s p i mode v n u r held hs)

theorem State.vecInputs_memOk (s : State) (p i : Nat) (o : VecOp) (n r : Nat) (held : Held) (hs : s.memOk) : (State.vecInputs s p i o n r held).1.memOk := by
  unfold State.vecInputs
  with_reducible repeat' first
    | assumption | apply State.vecInput_memOk | refine State.vecInput_memOk' (by assumption) ?_ | apply ite_memOk | apply foldl_memOk
    | apply foldl_fst_memOk | apply foldl_okMem | apply okMem_ok | apply okMem_error | refine okMem_elim (by assumption) | intro _ _ _
    | intro _ _ | intro _ | dsimp only | split

theorem State.vecInputs_memOk' {s : State} {p i : Nat} {o : VecOp} {n r : Nat} {held : Held} {t : State} {x1 : Except VecStop (List (List Number) × Flags)} (eqn : State.vecInputs s p i o n r held = (t, x1)) (hs : s.memOk) : t.memOk :=
  pair_memOk eqn (State.vecInputs_memOk s p i o n r held hs)

theorem State.vecRow_memOk (s : State) (p i : Nat) (o : VecOp) (shape : VStream) (sr : Option (Word × Word)) (held : Held) (r : Nat) (hs : s.memOk) : (State.vecRow s p i o shape sr held r).1.memOk := by
  unfold State.vecRow
  repeat' first
    | with_reducible assumption
    | with_reducible apply State.putRow_memOk
    | with_reducible refine State.putRow_memOk' (by with_reducible assumption) ?_
    | with_reducible apply State.sample_memOk
    | with_reducible apply State.vecInputs_memOk
    | with_reducible refine State.vecInputs_memOk' (by with_reducible assumption) ?_
    | with_reducible apply ite_memOk
    | with_reducible apply foldl_memOk
    | with_reducible apply foldl_fst_memOk
    | with_reducible apply foldl_okMem
    | with_reducible apply okMem_ok
    | with_reducible apply okMem_error
    | with_reducible refine okMem_elim (by with_reducible assumption)
    | (intro _ _ _)
    | (intro _ _)
    | (intro _)
    | dsimp only
    | split
    | with_reducible refine pair_memOk (by with_reducible assumption) ?_
    | with_reducible refine okMem_mem (by with_reducible assumption) ?_

theorem State.vecRow_memOk' {s : State} {p i : Nat} {o : VecOp} {shape : VStream} {sr : Option (Word × Word)} {held : Held} {r : Nat} {t : State} {x1 : Except VecStop Flags} (eqn : State.vecRow s p i o shape sr held r = (t, x1)) (hs : s.memOk) : t.memOk :=
  pair_memOk eqn (State.vecRow_memOk s p i o shape sr held r hs)

theorem State.drawGranule_memOk (s : State) (hs : s.memOk) : (State.drawGranule s).1.memOk := by
  unfold State.drawGranule
  with_reducible repeat' first
    | assumption | apply ite_memOk | apply foldl_memOk | apply foldl_fst_memOk | apply foldl_okMem | apply okMem_ok | apply okMem_error
    | refine okMem_elim (by assumption) | intro _ _ _ | intro _ _ | intro _ | dsimp only | split

theorem State.drawGranule_memOk' {s : State} {t : State} {x1 : List Byte} (eqn : State.drawGranule s = (t, x1)) (hs : s.memOk) : t.memOk :=
  pair_memOk eqn (State.drawGranule_memOk s hs)

theorem State.vecRows_memOk (s : State) (p i : Nat) (o : VecOp) (v : VStream) (n u : Nat) (held : Held) (rows : List Nat) (hs : s.memOk) : (State.vecRows s p i o v n u held rows).1.memOk := by
  unfold State.vecRows
  with_reducible repeat' first
    | assumption | apply State.vecInput_memOk | refine State.vecInput_memOk' (by assumption) ?_ | apply ite_memOk | apply foldl_memOk
    | apply foldl_fst_memOk | apply foldl_okMem | apply okMem_ok | apply okMem_error | refine okMem_elim (by assumption) | intro _ _ _
    | intro _ _ | intro _ | dsimp only | split

theorem State.vecRows_memOk' {s : State} {p i : Nat} {o : VecOp} {v : VStream} {n u : Nat} {held : Held} {rows : List Nat} {t : State} {x1 : Except VecStop (List (List Number) × Flags)} (eqn : State.vecRows s p i o v n u held rows = (t, x1)) (hs : s.memOk) : t.memOk :=
  pair_memOk eqn (State.vecRows_memOk s p i o v n u held rows hs)

theorem State.vecGroup_memOk (s : State) (p i : Nat) (o : VecOp) (held : Held) (g : Nat) (rows : List Nat) (hs : s.memOk) : (State.vecGroup s p i o held g rows).1.memOk := by
  unfold State.vecGroup
  with_reducible repeat' first
    | assumption | apply State.bump_memOk | apply State.drawGranule_memOk | refine State.drawGranule_memOk' (by assumption) ?_
    | apply State.storeAt_memOk | refine State.storeAt_memOk' (by assumption) ?_ | apply State.vecRows_memOk
    | refine State.vecRows_memOk' (by assumption) ?_ | apply ite_memOk | apply foldl_memOk | apply foldl_fst_memOk | apply foldl_okMem
    | apply okMem_ok | apply okMem_error | refine okMem_elim (by assumption) | intro _ _ _ | intro _ _ | intro _ | dsimp only | split

theorem State.vecGroup_memOk' {s : State} {p i : Nat} {o : VecOp} {held : Held} {g : Nat} {rows : List Nat} {t : State} {x1 : Except VecStop Flags} (eqn : State.vecGroup s p i o held g rows = (t, x1)) (hs : s.memOk) : t.memOk :=
  pair_memOk eqn (State.vecGroup_memOk s p i o held g rows hs)

theorem State.vecColumn_memOk (s : State) (p i : Nat) (o : VecOp) (shape : VStream) (sr : Option (Word × Word)) (held : Held) (g : Nat) (rows : List Nat) (hs : s.memOk) : (State.vecColumn s p i o shape sr held g rows).1.memOk := by
  unfold State.vecColumn
  with_reducible repeat' first
    | assumption | apply State.putRow_memOk | refine State.putRow_memOk' (by assumption) ?_ | apply State.vecRows_memOk
    | refine State.vecRows_memOk' (by assumption) ?_ | apply ite_memOk | apply foldl_memOk | apply foldl_fst_memOk | apply foldl_okMem
    | apply okMem_ok | apply okMem_error | refine okMem_elim (by assumption) | intro _ _ _ | intro _ _ | intro _ | dsimp only | split

theorem State.vecColumn_memOk' {s : State} {p i : Nat} {o : VecOp} {shape : VStream} {sr : Option (Word × Word)} {held : Held} {g : Nat} {rows : List Nat} {t : State} {x1 : Except VecStop Flags} (eqn : State.vecColumn s p i o shape sr held g rows = (t, x1)) (hs : s.memOk) : t.memOk :=
  pair_memOk eqn (State.vecColumn_memOk s p i o shape sr held g rows hs)

theorem State.consume_memOk (s : State) (i : Nat) (o : VecOp) (rows : List Nat) (hs : s.memOk) : (State.consume s i o rows).memOk := by
  unfold State.consume
  with_reducible repeat' first
    | assumption | apply State.matrixStatus_memOk | apply State.modDie_memOk | apply State.setBuf_memOk | apply State.setCellWords_memOk
    | apply ite_memOk | apply foldl_memOk | apply foldl_fst_memOk | apply foldl_okMem | apply okMem_ok | apply okMem_error
    | refine okMem_elim (by assumption) | intro _ _ _ | intro _ _ | intro _ | dsimp only | split

theorem State.vecUnit_memOk (s : State) (p i : Nat) (o : VecOp) (shape : VStream) (sr : Option (Word × Word)) (held : Held) (u : Nat) (rows : List Nat) (hs : s.memOk) : (State.vecUnit s p i o shape sr held u rows).1.memOk := by
  unfold State.vecUnit
  with_reducible repeat' first
    | assumption | apply State.vecColumn_memOk | refine State.vecColumn_memOk' (by assumption) ?_ | apply State.vecGroup_memOk
    | refine State.vecGroup_memOk' (by assumption) ?_ | apply State.vecRow_memOk | refine State.vecRow_memOk' (by assumption) ?_
    | apply ite_memOk | apply foldl_memOk | apply foldl_fst_memOk | apply foldl_okMem | apply okMem_ok | apply okMem_error
    | refine okMem_elim (by assumption) | intro _ _ _ | intro _ _ | intro _ | dsimp only | split

theorem State.vecUnit_memOk' {s : State} {p i : Nat} {o : VecOp} {shape : VStream} {sr : Option (Word × Word)} {held : Held} {u : Nat} {rows : List Nat} {t : State} {x1 : Except VecStop Flags} (eqn : State.vecUnit s p i o shape sr held u rows = (t, x1)) (hs : s.memOk) : t.memOk :=
  pair_memOk eqn (State.vecUnit_memOk s p i o shape sr held u rows hs)

theorem State.vecSteps_memOk (s : State) (p i : Nat) (o : VecOp) (shape : VStream) (sr : Option (Word × Word)) (held : Held) (skips : List Handle) (l : List Nat) (w : VecRun) (hs : s.memOk) : (State.vecSteps s p i o shape sr held skips l w).1.memOk := by
  induction l generalizing s w with
  | nil => exact hs
  | cons u l ih =>
    unfold State.vecSteps
    dsimp only
    split
    · split
      · exact State.vecUnit_memOk' (by assumption) hs
      · exact ih _ _ (State.consume_memOk _ _ _ _ (State.vecUnit_memOk' (by assumption) hs))
    · exact hs

theorem State.vecSteps_memOk' {s : State} {p i : Nat} {o : VecOp} {shape : VStream} {sr : Option (Word × Word)} {held : Held} {skips : List Handle} {l : List Nat} {w : VecRun} {t : State} {x1 : VecRun} (eqn : State.vecSteps s p i o shape sr held skips l w = (t, x1)) (hs : s.memOk) : t.memOk :=
  pair_memOk eqn (State.vecSteps_memOk s p i o shape sr held skips l w hs)

theorem State.performVec_memOk (s : State) (p i : Nat) (o : VecOp) (start : Nat) (skips : List Handle) (kept : List (Handle × Nat × Word)) (hs : s.memOk) : (State.performVec s p i o start skips kept).1.memOk := by
  unfold State.performVec
  with_reducible repeat' first
    | assumption | apply State.bump_memOk | apply State.raiseVector_memOk | apply State.translateRows_memOk
    | refine State.translateRows_memOk' (by assumption) ?_ | apply State.vecSteps_memOk | apply ite_memOk | apply foldl_memOk
    | apply foldl_fst_memOk | apply foldl_okMem | apply okMem_ok | apply okMem_error | refine okMem_elim (by assumption) | intro _ _ _
    | intro _ _ | intro _ | dsimp only | split

theorem State.performVec_memOk' {s : State} {p i : Nat} {o : VecOp} {start : Nat} {skips : List Handle} {kept : List (Handle × Nat × Word)} {t : State} {x1 : VecEnd} (eqn : State.performVec s p i o start skips kept = (t, x1)) (hs : s.memOk) : t.memOk :=
  pair_memOk eqn (State.performVec_memOk s p i o start skips kept hs)

/-! Sequencer -/

theorem State.traceRec_memOk (s : State) (p i kind : Nat) (index : BitVec 18) (start : BitVec 24) (cycle : Nat) (label : Nat) (hs : s.memOk) : (State.traceRec s p i kind index start cycle label).memOk := by
  unfold State.traceRec
  with_reducible repeat' first
    | assumption | apply ite_memOk | apply State.bump_memOk | apply State.modDie_memOk | intro _ _ _ | intro _ _ | intro _ | dsimp only
    | split

theorem State.traceEvent_memOk (s : State) (p i kind : Nat) (index : BitVec 18) (start : BitVec 24) (cycle : Nat) (hs : s.memOk) : (State.traceEvent s p i kind index start cycle).memOk := by
  unfold State.traceEvent
  with_reducible repeat' first
    | assumption | apply ite_memOk | apply State.traceRec_memOk | dsimp only | split

theorem State.settleHold_memOk (s : State) (p i cycle : Nat) (hs : s.memOk) : (State.settleHold s p i cycle).memOk := by
  unfold State.settleHold
  with_reducible repeat' first
    | assumption | apply ite_memOk | apply State.modDie_memOk | apply State.setFlag_memOk | apply State.traceEvent_memOk | intro _ _ _
    | intro _ _ | intro _ | dsimp only | split

theorem State.credit_memOk (s : State) (i n : Nat) (hs : s.memOk) : (State.credit s i n).memOk := by
  unfold State.credit
  with_reducible repeat' first
    | assumption | apply ite_memOk | apply State.setField_memOk | dsimp only | split

theorem State.settleCheck_memOk (s : State) (p i cycle : Nat) (hs : s.memOk) : (State.settleCheck s p i cycle).memOk := by
  unfold State.settleCheck
  with_reducible repeat' first
    | assumption | apply ite_memOk | apply State.bump_memOk | apply State.credit_memOk | apply State.modDie_memOk
    | apply State.setFlag_memOk | apply State.settleHold_memOk | intro _ _ _ | intro _ _ | intro _ | dsimp only | split

theorem State.unitStatus_memOk (s : State) (i : Nat) (hs : s.memOk) : (State.unitStatus s i).memOk := by
  unfold State.unitStatus
  with_reducible repeat' first
    | assumption | apply State.matrixStatus_memOk | apply State.setField_memOk | apply State.setFlag_memOk | apply ite_memOk
    | apply foldl_memOk | apply foldl_fst_memOk | apply foldl_okMem | apply okMem_ok | apply okMem_error | refine okMem_elim (by assumption)
    | intro _ _ _ | intro _ _ | intro _ | dsimp only | split

theorem State.busMove_memOk (s : State) (p : Nat) (st : Status) (hs : s.memOk) : (State.busMove s p st).memOk := by
  unfold State.busMove
  with_reducible repeat' first
    | assumption | apply ite_memOk | apply State.abortTurn_memOk | apply State.modPart_memOk | intro _ _ _ | intro _ _ | intro _
    | dsimp only | split

theorem State.twinLine_memOk (s : State) (p i mode : Nat) (v : VStream) (r : Nat) (hs : s.memOk) : (State.twinLine s p i mode v r).1.memOk := by
  unfold State.twinLine
  with_reducible repeat' first
    | assumption | apply State.readStateLine_memOk | refine State.readStateLine_memOk' (by assumption) ?_ | apply State.translateRows_memOk
    | refine State.translateRows_memOk' (by assumption) ?_ | apply ite_memOk | apply foldl_memOk | apply foldl_fst_memOk | apply foldl_okMem
    | apply okMem_ok | apply okMem_error | refine okMem_elim (by assumption) | intro _ _ _ | intro _ _ | intro _ | dsimp only | split

theorem State.twinLine_memOk' {s : State} {p i mode : Nat} {v : VStream} {r : Nat} {t : State} {x1 : Except Status (List Byte)} (eqn : State.twinLine s p i mode v r = (t, x1)) (hs : s.memOk) : t.memOk :=
  pair_memOk eqn (State.twinLine_memOk s p i mode v r hs)

theorem State.twinRow_memOk (s : State) (p i mode : Nat) (mask : BitVec 10) (v : VStream) (r : Nat) (hs : s.memOk) : (State.twinRow s p i mode mask v r).1.memOk := by
  unfold State.twinRow
  with_reducible repeat' first
    | assumption | apply State.twinLine_memOk | refine State.twinLine_memOk' (by assumption) ?_ | apply ite_memOk | apply foldl_memOk
    | apply foldl_fst_memOk | apply foldl_okMem | apply okMem_ok | apply okMem_error | refine okMem_elim (by assumption) | intro _ _ _
    | intro _ _ | intro _ | dsimp only | split

theorem State.twinRow_memOk' {s : State} {p i mode : Nat} {mask : BitVec 10} {v : VStream} {r : Nat} {t : State} {x1 : Except Status (List Nat)} (eqn : State.twinRow s p i mode mask v r = (t, x1)) (hs : s.memOk) : t.memOk :=
  pair_memOk eqn (State.twinRow_memOk s p i mode mask v r hs)

theorem State.twinStream_memOk (s : State) (p i mode : Nat) (mask : BitVec 10) (v : VStream) (hs : s.memOk) : (State.twinStream s p i mode mask v).1.memOk := by
  unfold State.twinStream
  with_reducible repeat' first
    | assumption | apply State.twinRow_memOk | refine State.twinRow_memOk' (by assumption) ?_ | apply ite_memOk | apply foldl_memOk
    | apply foldl_fst_memOk | apply foldl_okMem | apply okMem_ok | apply okMem_error | refine okMem_elim (by assumption) | intro _ _ _
    | intro _ _ | intro _ | dsimp only | split

theorem State.twinStream_memOk' {s : State} {p i mode : Nat} {mask : BitVec 10} {v : VStream} {t : State} {x1 : Except Status (List Byte)} (eqn : State.twinStream s p i mode mask v = (t, x1)) (hs : s.memOk) : t.memOk :=
  pair_memOk eqn (State.twinStream_memOk s p i mode mask v hs)

theorem State.performTwin_memOk (s : State) (p i mode : Nat) (mask : BitVec 10) (oplist : Nat) (hs : s.memOk) : (State.performTwin s p i mode mask oplist).memOk := by
  unfold State.performTwin
  with_reducible repeat' first
    | assumption | apply State.abortTurn_memOk | apply State.busMove_memOk | apply State.consume_memOk | apply State.drawSeverity_memOk
    | refine State.drawSeverity_memOk' (by assumption) ?_ | apply State.event7F_memOk | apply State.modDie_memOk | apply State.modPart_memOk
    | apply State.setFlag_memOk | apply State.twinStream_memOk | refine State.twinStream_memOk' (by assumption) ?_ | apply ite_memOk
    | apply foldl_memOk | apply foldl_fst_memOk | apply foldl_okMem | apply okMem_ok | apply okMem_error | refine okMem_elim (by assumption)
    | intro _ _ _ | intro _ _ | intro _ | dsimp only | split

theorem State.beginRecall_memOk (s : State) (p : Nat) (x : StateRow) (hs : s.memOk) : (State.beginRecall s p x).memOk := by
  unfold State.beginRecall
  with_reducible repeat' first
    | assumption | apply State.readFarPage_memOk | apply ite_memOk | apply foldl_memOk | apply foldl_fst_memOk | apply foldl_okMem
    | apply okMem_ok | apply okMem_error | refine okMem_elim (by assumption) | intro _ _ _ | intro _ _ | intro _ | dsimp only | split

theorem State.settleYield_memOk (s : State) (i : Nat) (hs : s.memOk) : (State.settleYield s i).memOk := by
  unfold State.settleYield
  with_reducible repeat' first
    | assumption | apply State.gatherTree_memOk | apply State.setFlag_memOk | apply ite_memOk | apply foldl_memOk | apply foldl_fst_memOk
    | apply foldl_okMem | apply okMem_ok | apply okMem_error | refine okMem_elim (by assumption) | intro _ _ _ | intro _ _ | intro _
    | dsimp only | split

theorem State.stopMove_memOk (s : State) (p i : Nat) (m : MoveHdr) (c : Instr) (x : StateRow) (code : Nat) (skips : List Handle) (kept : List (Handle × Nat × Word)) (hs : s.memOk) : (State.stopMove s p i m c x code skips kept).memOk := by
  unfold State.stopMove
  with_reducible repeat' first
    | assumption | apply State.beginRecall_memOk | apply State.settleHold_memOk | apply State.settleYield_memOk
    | apply State.stopOperation_memOk | apply State.unitStatus_memOk | apply ite_memOk | apply foldl_memOk | apply foldl_fst_memOk
    | apply foldl_okMem | apply okMem_ok | apply okMem_error | refine okMem_elim (by assumption) | intro _ _ _ | intro _ _ | intro _
    | dsimp only | split

theorem State.modFlight_memOk (s : State) (i : Nat) (index : BitVec 18) (f : Flight → Flight) (hs : s.memOk) : (State.modFlight s i index f).memOk := by
  unfold State.modFlight
  with_reducible repeat' first
    | assumption | apply State.modDie_memOk | apply ite_memOk | apply foldl_memOk | apply foldl_fst_memOk | apply foldl_okMem
    | apply okMem_ok | apply okMem_error | refine okMem_elim (by assumption) | intro _ _ _ | intro _ _ | intro _ | dsimp only | split

theorem State.waitMove_memOk (s : State) (i : Nat) (index : BitVec 18) (row : Nat) (skips : List Handle) (kept : List (Handle × Nat × Word)) (hs : s.memOk) : (State.waitMove s i index row skips kept).memOk := by
  unfold State.waitMove
  with_reducible repeat' first
    | assumption | apply State.modFlight_memOk | apply ite_memOk | apply foldl_memOk | apply foldl_fst_memOk | apply foldl_okMem
    | apply okMem_ok | apply okMem_error | refine okMem_elim (by assumption) | intro _ _ _ | intro _ _ | intro _ | dsimp only | split

theorem State.perform_memOk (s : State) (p i mode : Nat) (m : MoveHdr) (c : Instr) (start : Nat) (skips : List Handle) (kept : List (Handle × Nat × Word)) (hs : s.memOk) : (State.perform s p i mode m c start skips kept).memOk := by
  unfold State.perform
  with_reducible repeat' first
    | assumption | apply State.busMove_memOk | apply State.modFlight_memOk | apply State.performDma_memOk
    | refine State.performDma_memOk' (by assumption) ?_ | apply State.performDrain_memOk | apply State.performGang_memOk
    | apply State.performPass_memOk | refine State.performPass_memOk' (by assumption) ?_ | apply State.performTwin_memOk
    | apply State.performVec_memOk | refine State.performVec_memOk' (by assumption) ?_ | apply State.stopMove_memOk
    | apply State.waitMove_memOk | apply ite_memOk | apply foldl_memOk | apply foldl_fst_memOk | apply foldl_okMem | apply okMem_ok
    | apply okMem_error | refine okMem_elim (by assumption) | intro _ _ _ | intro _ _ | intro _ | dsimp only | split

theorem State.startFlight_memOk (s : State) (i : Nat) (index : BitVec 18) (hs : s.memOk) : (State.startFlight s i index).memOk := by
  unfold State.startFlight
  with_reducible repeat' first
    | assumption | apply State.modFlight_memOk | apply ite_memOk | apply foldl_memOk | apply foldl_fst_memOk | apply foldl_okMem
    | apply okMem_ok | apply okMem_error | refine okMem_elim (by assumption) | intro _ _ _ | intro _ _ | intro _ | dsimp only | split

theorem State.runWaiting_memOk (s : State) (p i : Nat) (y0 : Nat) (hs : s.memOk) : (State.runWaiting s p i y0).memOk := by
  induction y0 generalizing s with
  | zero => simpa [State.runWaiting] using hs
  | succ fuel ih =>
  unfold State.runWaiting
  repeat' first
    | with_reducible assumption
    | with_reducible apply ih
    | with_reducible apply State.perform_memOk
    | with_reducible apply State.startFlight_memOk
    | with_reducible apply ite_memOk
    | with_reducible apply foldl_memOk
    | with_reducible apply foldl_fst_memOk
    | with_reducible apply foldl_okMem
    | with_reducible apply okMem_ok
    | with_reducible apply okMem_error
    | with_reducible refine okMem_elim (by with_reducible assumption)
    | (intro _ _ _)
    | (intro _ _)
    | (intro _)
    | dsimp only
    | split
    | with_reducible refine pair_memOk (by with_reducible assumption) ?_
    | with_reducible refine okMem_mem (by with_reducible assumption) ?_

theorem State.runFlights_memOk (s : State) (p i : Nat) (hs : s.memOk) : (State.runFlights s p i).memOk := by
  unfold State.runFlights
  with_reducible repeat' first
    | assumption | apply State.runWaiting_memOk | apply State.unitStatus_memOk | apply ite_memOk | apply foldl_memOk | apply foldl_fst_memOk
    | apply foldl_okMem | apply okMem_ok | apply okMem_error | refine okMem_elim (by assumption) | intro _ _ _ | intro _ _ | intro _
    | dsimp only | split

theorem State.seqFail_memOk (s : State) (p i : Nat) (hs : s.memOk) : (State.seqFail s p i).memOk := by
  unfold State.seqFail
  with_reducible repeat' first
    | assumption | apply ite_memOk | apply State.abortTurn_memOk | apply State.bump_memOk | apply State.modDie_memOk
    | apply State.safetyAt_memOk | apply State.safetyOut_memOk | apply State.takeOut_memOk | intro _ _ _ | intro _ _ | intro _ | dsimp only
    | split

theorem State.countWaits_memOk (s : State) (i : Nat) (c : Instr) (hs : s.memOk) : (State.countWaits s i c).memOk := by
  unfold State.countWaits
  with_reducible repeat' first
    | assumption | apply State.bump_memOk | dsimp only | split

theorem State.advanceSeq_memOk (s : State) (m : MoveHdr) (c : Instr) (hs : s.memOk) : (State.advanceSeq s m c).memOk := by
  unfold State.advanceSeq
  with_reducible repeat' first
    | assumption | apply State.bump_memOk | apply State.modDie_memOk | apply State.setField_memOk | apply ite_memOk | apply foldl_memOk
    | apply foldl_fst_memOk | apply foldl_okMem | apply okMem_ok | apply okMem_error | refine okMem_elim (by assumption) | intro _ _ _
    | intro _ _ | intro _ | dsimp only | split

theorem State.issueMove_memOk (s : State) (m : MoveHdr) (c : Instr) (go : Nat → State → State) (hs : s.memOk) (hgo : ∀ (z0 : Nat) (z1 : State), z1.memOk → (go z0 z1).memOk) : (State.issueMove s m c go).memOk := by
  unfold State.issueMove
  with_reducible repeat' first
    | assumption | apply ite_memOk | apply State.advanceSeq_memOk | apply State.modDie_memOk | apply State.seqFail_memOk | apply hgo
    | intro _ _ _ | intro _ _ | intro _ | dsimp only | split

theorem State.takeFlight_memOk (s : State) (m : MoveHdr) (c : Instr) (hs : s.memOk) : (State.takeFlight s m c).memOk := by
  unfold State.takeFlight
  with_reducible repeat' first
    | assumption | apply State.countWaits_memOk | apply State.modDie_memOk | apply State.setReg_memOk | apply ite_memOk | apply foldl_memOk
    | apply foldl_fst_memOk | apply foldl_okMem | apply okMem_ok | apply okMem_error | refine okMem_elim (by assumption) | intro _ _ _
    | intro _ _ | intro _ | dsimp only | split

theorem State.issueUnit_memOk (s : State) (m : MoveHdr) (c : Instr) (hs : s.memOk) : (State.issueUnit s m c).memOk := by
  unfold State.issueUnit
  with_reducible repeat' first
    | assumption | apply State.issueMove_memOk | apply State.runFlights_memOk | apply State.takeFlight_memOk | apply ite_memOk
    | apply foldl_memOk | apply foldl_fst_memOk | apply foldl_okMem | apply okMem_ok | apply okMem_error | refine okMem_elim (by assumption)
    | intro _ _ _ | intro _ _ | intro _ | dsimp only | split

theorem State.issueInstant_memOk (s : State) (m : MoveHdr) (c : Instr) (go : Nat → State → State) (hs : s.memOk) (hgo : ∀ (z0 : Nat) (z1 : State), z1.memOk → (go z0 z1).memOk) : (State.issueInstant s m c go).memOk := by
  unfold State.issueInstant
  with_reducible repeat' first
    | assumption | apply State.credit_memOk | apply State.issueMove_memOk | apply hgo | intro _ _ _ | intro _ _ | intro _ | dsimp only

theorem State.issueCheck_memOk (s : State) (m : MoveHdr) (ctr : BitVec 8) (count grace : BitVec 24) (hs : s.memOk) : (State.issueCheck s m ctr count grace).memOk := by
  unfold State.issueCheck
  with_reducible repeat' first
    | assumption | apply ite_memOk | apply State.credit_memOk | apply State.issueMove_memOk | apply State.modDie_memOk
    | apply State.setFlag_memOk | apply State.settleHold_memOk | apply State.traceEvent_memOk | intro _ _ _ | intro _ _ | intro _
    | dsimp only | split

theorem State.issueYield_memOk (s : State) (m : MoveHdr) (hs : s.memOk) : (State.issueYield s m).memOk := by
  unfold State.issueYield
  with_reducible repeat' first
    | assumption | apply State.issueInstant_memOk | apply State.modDie_memOk | apply State.settleYield_memOk | apply State.traceEvent_memOk
    | apply ite_memOk | apply foldl_memOk | apply foldl_fst_memOk | apply foldl_okMem | apply okMem_ok | apply okMem_error
    | refine okMem_elim (by assumption) | intro _ _ _ | intro _ _ | intro _ | dsimp only | split

theorem State.issueTrace_memOk (s : State) (m : MoveHdr) (label : BitVec 16) (hs : s.memOk) : (State.issueTrace s m label).memOk := by
  unfold State.issueTrace
  with_reducible repeat' first
    | assumption | apply ite_memOk | apply State.issueInstant_memOk | apply State.traceRec_memOk | intro _ _ _ | intro _ _ | intro _
    | dsimp only | split

theorem State.landFlight_memOk (s : State) (p i : Nat) (f : Flight) (cycle : Nat) (hs : s.memOk) : (State.landFlight s p i f cycle).memOk := by
  unfold State.landFlight
  with_reducible repeat' first
    | assumption | apply State.bump_memOk | apply State.credit_memOk | apply State.modDie_memOk | apply State.runFlights_memOk
    | apply State.settleCheck_memOk | apply State.settleYield_memOk | apply ite_memOk | apply foldl_memOk | apply foldl_fst_memOk
    | apply foldl_okMem | apply okMem_ok | apply okMem_error | refine okMem_elim (by assumption) | intro _ _ _ | intro _ _ | intro _
    | dsimp only | split

theorem State.completeMove_memOk (s : State) (i : Nat) (index : BitVec 18) (cycle : Word) (hs : s.memOk) : (State.completeMove s i index cycle).memOk := by
  unfold State.completeMove
  with_reducible repeat' first
    | assumption | apply State.landFlight_memOk | apply ite_memOk | apply foldl_memOk | apply foldl_fst_memOk | apply foldl_okMem
    | apply okMem_ok | apply okMem_error | refine okMem_elim (by assumption) | intro _ _ _ | intro _ _ | intro _ | dsimp only | split

theorem State.sackFor_memOk (s : State) (i : Nat) (xid : BitVec 16) (cycle : Word) (hs : s.memOk) : (State.sackFor s i xid cycle).memOk := by
  unfold State.sackFor
  with_reducible repeat' first
    | assumption | apply State.landFlight_memOk | intro _ _ _ | intro _ _ | intro _ | dsimp only | split

theorem State.lateData_memOk (s : State) (i : Nat) (cycle : Word) (hs : s.memOk) : (State.lateData s i cycle).memOk := by
  unfold State.lateData
  with_reducible repeat' first
    | assumption | apply ite_memOk | apply State.abortTurn_memOk | apply State.eventAny_memOk | apply State.setReg_memOk
    | apply State.traceEvent_memOk | dsimp only | split

theorem State.resumeMove_memOk (s : State) (p i key : Nat) (x : Stopped) (skips : List Handle) (hs : s.memOk) : (State.resumeMove s p i key x skips).memOk := by
  unfold State.resumeMove
  with_reducible repeat' first
    | assumption | apply State.modDie_memOk | apply State.perform_memOk | apply State.runFlights_memOk | apply State.setField_memOk
    | apply State.settleHold_memOk | apply ite_memOk | apply foldl_memOk | apply foldl_fst_memOk | apply foldl_okMem | apply okMem_ok
    | apply okMem_error | refine okMem_elim (by assumption) | intro _ _ _ | intro _ _ | intro _ | dsimp only | split

theorem State.listNotAdvanced_memOk (s : State) (i : Nat) (h : Handle) (hs : s.memOk) : (State.listNotAdvanced s i h).memOk := by
  unfold State.listNotAdvanced
  with_reducible repeat' first
    | assumption | apply ite_memOk | apply State.modDie_memOk | intro _ _ _ | intro _ _ | intro _ | dsimp only | split

theorem State.abandonMove_memOk (s : State) (p i key : Nat) (x : Stopped) (hs : s.memOk) : (State.abandonMove s p i key x).memOk := by
  unfold State.abandonMove
  with_reducible repeat' first
    | assumption | apply State.bump_memOk | apply State.landFlight_memOk | apply State.listNotAdvanced_memOk | apply State.modDie_memOk
    | apply State.setField_memOk | apply ite_memOk | apply foldl_memOk | apply foldl_fst_memOk | apply foldl_okMem | apply okMem_ok
    | apply okMem_error | refine okMem_elim (by assumption) | intro _ _ _ | intro _ _ | intro _ | dsimp only | split

theorem State.skipHandle_memOk (s : State) (p i key : Nat) (x : Stopped) (hs : s.memOk) : (State.skipHandle s p i key x).memOk := by
  unfold State.skipHandle
  with_reducible repeat' first
    | assumption | apply ite_memOk | apply State.abandonMove_memOk | apply State.bump_memOk | apply State.listNotAdvanced_memOk
    | apply State.resumeMove_memOk | dsimp only | split

/-! RegisterCommands -/

theorem State.writeKey_memOk (s : State) (r : Requester) (k : RegKey) (size : Nat) (value : Word) (hs : s.memOk) : (State.writeKey s r k size value).memOk := by
  unfold State.writeKey
  with_reducible repeat' first
    | assumption | apply State.access_memOk | refine State.access_memOk' (by assumption) ?_ | apply State.answered_memOk | apply ite_memOk
    | apply foldl_memOk | apply foldl_fst_memOk | apply foldl_okMem | apply okMem_ok | apply okMem_error | refine okMem_elim (by assumption)
    | intro _ _ _ | intro _ _ | intro _ | dsimp only | split

theorem State.registerWrite_memOk (s : State) (r : Requester) (a size : Nat) (value : Word) (hs : s.memOk) : (State.registerWrite s r a size value).memOk := by
  unfold State.registerWrite
  with_reducible repeat' first
    | assumption | apply State.access_memOk | refine State.access_memOk' (by assumption) ?_ | apply State.answered_memOk
    | apply State.unmapped_memOk | apply ite_memOk | apply foldl_memOk | apply foldl_fst_memOk | apply foldl_okMem | apply okMem_ok
    | apply okMem_error | refine okMem_elim (by assumption) | intro _ _ _ | intro _ _ | intro _ | dsimp only | split

theorem execRegisterWrite_memOk {r : Requester} {addr : Addr} {size : Nat} {value : Word} {s : State} {u : State} (eqn : execRegisterWrite r addr size value s = .next u) (hs : s.memOk) : u.memOk := by
  unfold execRegisterWrite at eqn
  cases eqn
  with_reducible repeat' first
    | assumption | apply State.registerWrite_memOk | dsimp only

theorem execGcSet_memOk {r : Requester} {value : Word} {s : State} {u : State} (eqn : execGcSet r value s = .next u) (hs : s.memOk) : u.memOk := by
  unfold execGcSet at eqn
  cases eqn
  with_reducible repeat' first
    | assumption | apply State.writeKey_memOk | dsimp only

theorem execGcSlew_memOk {r : Requester} {value : Word} {s : State} {u : State} (eqn : execGcSlew r value s = .next u) (hs : s.memOk) : u.memOk := by
  unfold execGcSlew at eqn
  cases eqn
  with_reducible repeat' first
    | assumption | apply State.writeKey_memOk | dsimp only

theorem execRefWdog_memOk {r : Requester} {value : Word} {s : State} {u : State} (eqn : execRefWdog r value s = .next u) (hs : s.memOk) : u.memOk := by
  unfold execRefWdog at eqn
  cases eqn
  with_reducible repeat' first
    | assumption | apply State.writeKey_memOk | dsimp only

theorem execMbRingProd_memOk {r : Requester} {part ring : Nat} {value : BitVec 32} {s : State} {u : State} (eqn : execMbRingProd r part ring value s = .next u) (hs : s.memOk) : u.memOk := by
  unfold execMbRingProd at eqn
  cases eqn
  with_reducible repeat' first
    | assumption | apply State.writeKey_memOk | dsimp only

theorem execMbRingCqCons_memOk {r : Requester} {part ring : Nat} {value : BitVec 32} {s : State} {u : State} (eqn : execMbRingCqCons r part ring value s = .next u) (hs : s.memOk) : u.memOk := by
  unfold execMbRingCqCons at eqn
  cases eqn
  with_reducible repeat' first
    | assumption | apply State.writeKey_memOk | dsimp only

theorem execRingEnable_memOk {r : Requester} {part ring : Nat} {value : Word} {s : State} {u : State} (eqn : execRingEnable r part ring value s = .next u) (hs : s.memOk) : u.memOk := by
  unfold execRingEnable at eqn
  cases eqn
  with_reducible repeat' first
    | assumption | apply State.writeKey_memOk | dsimp only

theorem execRingDisable_memOk {r : Requester} {part ring : Nat} {value : Word} {s : State} {u : State} (eqn : execRingDisable r part ring value s = .next u) (hs : s.memOk) : u.memOk := by
  unfold execRingDisable at eqn
  cases eqn
  with_reducible repeat' first
    | assumption | apply State.writeKey_memOk | dsimp only

theorem execStPinLend_memOk {r : Requester} {part : Nat} {value : BitVec 8} {s : State} {u : State} (eqn : execStPinLend r part value s = .next u) (hs : s.memOk) : u.memOk := by
  unfold execStPinLend at eqn
  cases eqn
  with_reducible repeat' first
    | assumption | apply State.writeKey_memOk | dsimp only

theorem execCcPubWrite_memOk {r : Requester} {part range : Nat} {isLen : Bool} {value : Word} {s : State} {u : State} (eqn : execCcPubWrite r part range isLen value s = .next u) (hs : s.memOk) : u.memOk := by
  unfold execCcPubWrite at eqn
  cases eqn
  with_reducible repeat' first
    | assumption | apply ite_memOk | apply State.writeKey_memOk | dsimp only | split

theorem execOlPoolMap_memOk {r : Requester} {window : Nat} {isQuads : Bool} {value : Word} {s : State} {u : State} (eqn : execOlPoolMap r window isQuads value s = .next u) (hs : s.memOk) : u.memOk := by
  unfold execOlPoolMap at eqn
  cases eqn
  with_reducible repeat' first
    | assumption | apply ite_memOk | apply State.writeKey_memOk | dsimp only | split

theorem execMcErase_memOk {r : Requester} {stack : Nat} {value : BitVec 5} {s : State} {u : State} (eqn : execMcErase r stack value s = .next u) (hs : s.memOk) : u.memOk := by
  unfold execMcErase at eqn
  cases eqn
  with_reducible repeat' first
    | assumption | apply State.writeKey_memOk | dsimp only

/-! MoveCommands -/

theorem State.writePacket_memOk (s : State) (r : Requester) (compiled : Bool) (p : BnetPacket) (hs : s.memOk) : (State.writePacket s r compiled p).1.memOk := by
  unfold State.writePacket
  with_reducible repeat' first
    | assumption | apply ite_memOk | apply State.dieAccess_memOk | refine State.dieAccess_memOk' (by assumption) ?_ | apply foldl_memOk
    | apply foldl_fst_memOk | apply foldl_okMem | apply okMem_ok | apply okMem_error | refine okMem_elim (by assumption) | intro _ _ _
    | intro _ _ | intro _ | dsimp only | split

theorem State.writePacket_memOk' {s : State} {r : Requester} {compiled : Bool} {p : BnetPacket} {t : State} {x1 : Option Status} (eqn : State.writePacket s r compiled p = (t, x1)) (hs : s.memOk) : t.memOk :=
  pair_memOk eqn (State.writePacket_memOk s r compiled p hs)

theorem State.countTransfer_memOk (s : State) (p i : Nat) (k : BnetPacket) (cycle : Nat) (hs : s.memOk) : (State.countTransfer s p i k cycle).memOk := by
  unfold State.countTransfer
  with_reducible repeat' first
    | assumption | apply State.credit_memOk | apply State.injectBnet_memOk | apply State.modDie_memOk | apply State.settleCheck_memOk
    | apply ite_memOk | apply foldl_memOk | apply foldl_fst_memOk | apply foldl_okMem | apply okMem_ok | apply okMem_error
    | refine okMem_elim (by assumption) | intro _ _ _ | intro _ _ | intro _ | dsimp only | split

theorem State.takeLine_memOk (s : State) (p i : Nat) (k : BnetPacket) (cycle : Nat) (hs : s.memOk) : (State.takeLine s p i k cycle).memOk := by
  unfold State.takeLine
  with_reducible repeat' first
    | assumption | apply State.countTransfer_memOk | apply State.injectBnet_memOk | apply State.modDie_memOk | apply State.writePacket_memOk
    | refine State.writePacket_memOk' (by assumption) ?_ | apply ite_memOk | apply foldl_memOk | apply foldl_fst_memOk | apply foldl_okMem
    | apply okMem_ok | apply okMem_error | refine okMem_elim (by assumption) | intro _ _ _ | intro _ _ | intro _ | dsimp only | split

theorem State.placeLine_memOk (s : State) (p i : Nat) (k : BnetPacket) (cycle : Nat) (hs : s.memOk) : (State.placeLine s p i k cycle).memOk := by
  unfold State.placeLine
  with_reducible repeat' first
    | assumption | apply State.bump_memOk | apply State.injectBnet_memOk | apply State.modSquare_memOk | apply State.takeLine_memOk
    | apply ite_memOk | apply foldl_memOk | apply foldl_fst_memOk | apply foldl_okMem | apply okMem_ok | apply okMem_error
    | refine okMem_elim (by assumption) | intro _ _ _ | intro _ _ | intro _ | dsimp only | split

theorem State.takeWaiting_memOk (s : State) (p i : Nat) (cycle : Nat) (hs : s.memOk) : (State.takeWaiting s p i cycle).memOk := by
  unfold State.takeWaiting
  with_reducible repeat' first
    | assumption | apply State.bump_memOk | apply State.draw_memOk | refine State.draw_memOk' (by assumption) ?_
    | apply State.modSquare_memOk | apply State.placeLine_memOk | apply ite_memOk | apply foldl_memOk | apply foldl_fst_memOk
    | apply foldl_okMem | apply okMem_ok | apply okMem_error | refine okMem_elim (by assumption) | intro _ _ _ | intro _ _ | intro _
    | dsimp only | split

theorem State.sendArrives_memOk (s : State) (i : Nat) (k : BnetPacket) (cycle : Word) (hs : s.memOk) : (State.sendArrives s i k cycle).memOk := by
  unfold State.sendArrives
  with_reducible repeat' first
    | assumption | apply State.bump_memOk | apply State.injectBnet_memOk | apply State.placeLine_memOk | apply State.takeWaiting_memOk
    | apply ite_memOk | apply foldl_memOk | apply foldl_fst_memOk | apply foldl_okMem | apply okMem_ok | apply okMem_error
    | refine okMem_elim (by assumption) | intro _ _ _ | intro _ _ | intro _ | dsimp only | split

theorem State.placeWaiting_memOk (s : State) (p : Nat) (hs : s.memOk) : (State.placeWaiting s p).memOk := by
  unfold State.placeWaiting
  with_reducible repeat' first
    | assumption | apply State.takeWaiting_memOk | apply ite_memOk | apply foldl_memOk | apply foldl_fst_memOk | apply foldl_okMem
    | apply okMem_ok | apply okMem_error | refine okMem_elim (by assumption) | intro _ _ _ | intro _ _ | intro _ | dsimp only | split

theorem execChangeoverStart_memOk {part chosenP : Nat} {s : State} {u : State} (eqn : execChangeoverStart part chosenP s = .next u) (hs : s.memOk) : u.memOk := by
  unfold execChangeoverStart at eqn
  cases eqn
  with_reducible repeat' first
    | assumption | apply State.changeoverStart_memOk | apply State.placeWaiting_memOk | apply ite_memOk | apply foldl_memOk
    | apply foldl_fst_memOk | apply foldl_okMem | apply okMem_ok | apply okMem_error | refine okMem_elim (by assumption) | intro _ _ _
    | intro _ _ | intro _ | dsimp only | split

theorem execAbortDrainEnd_memOk {part chosenP : Nat} {s : State} {u : State} (eqn : execAbortDrainEnd part chosenP s = .next u) (hs : s.memOk) : u.memOk := by
  unfold execAbortDrainEnd at eqn
  cases eqn
  with_reducible repeat' first
    | assumption | apply State.drainEnd_memOk | apply State.placeWaiting_memOk | apply ite_memOk | apply foldl_memOk | apply foldl_fst_memOk
    | apply foldl_okMem | apply okMem_ok | apply okMem_error | refine okMem_elim (by assumption) | intro _ _ _ | intro _ _ | intro _
    | dsimp only | split

theorem execNop_memOk {m : MoveHdr} {s : State} {u : State} (eqn : execNop m s = .next u) (hs : s.memOk) : u.memOk := by
  unfold execNop at eqn
  cases eqn
  with_reducible repeat' first
    | assumption | apply State.issueInstant_memOk | intro _ _ _ | intro _ _ | intro _ | dsimp only

theorem execCheck_memOk {m : MoveHdr} {ctr : BitVec 8} {count grace : BitVec 24} {s : State} {u : State} (eqn : execCheck m ctr count grace s = .next u) (hs : s.memOk) : u.memOk := by
  unfold execCheck at eqn
  cases eqn
  with_reducible repeat' first
    | assumption | apply State.issueCheck_memOk | dsimp only

theorem execLateData_memOk {site : Nat} {cycle : Word} {s : State} {u : State} (eqn : execLateData site cycle s = .next u) (hs : s.memOk) : u.memOk := by
  unfold execLateData at eqn
  cases eqn
  with_reducible repeat' first
    | assumption | apply State.lateData_memOk | dsimp only

theorem execYield_memOk {m : MoveHdr} {s : State} {u : State} (eqn : execYield m s = .next u) (hs : s.memOk) : u.memOk := by
  unfold execYield at eqn
  cases eqn
  with_reducible repeat' first
    | assumption | apply State.issueYield_memOk | dsimp only

theorem execTrace_memOk {m : MoveHdr} {label : BitVec 16} {s : State} {u : State} (eqn : execTrace m label s = .next u) (hs : s.memOk) : u.memOk := by
  unfold execTrace at eqn
  cases eqn
  with_reducible repeat' first
    | assumption | apply State.issueTrace_memOk | dsimp only

theorem execPass_memOk {m : MoveHdr} {first count : BitVec 8} {adesc bdesc : BitVec 12} {k : BitVec 20} {buf acc shareA shareB orient : Bool} {w : Waits} {s : State} {u : State} (eqn : execPass m first count adesc bdesc k buf acc shareA shareB orient w s = .next u) (hs : s.memOk) : u.memOk := by
  unfold execPass at eqn
  cases eqn
  with_reducible repeat' first
    | assumption | apply State.issueUnit_memOk | dsimp only

theorem execDrain_memOk {m : MoveHdr} {first count : BitVec 8} {buf : Bool} {w : Waits} {s : State} {u : State} (eqn : execDrain m first count buf w s = .next u) (hs : s.memOk) : u.memOk := by
  unfold execDrain at eqn
  cases eqn
  with_reducible repeat' first
    | assumption | apply State.issueUnit_memOk | dsimp only

theorem execDrainHeld_memOk {m : MoveHdr} {first count : BitVec 8} {buf : Bool} {w : Waits} {s : State} {u : State} (eqn : execDrainHeld m first count buf w s = .next u) (hs : s.memOk) : u.memOk := by
  unfold execDrainHeld at eqn
  cases eqn
  with_reducible repeat' first
    | assumption | apply State.issueUnit_memOk | dsimp only

theorem execGang_memOk {m : MoveHdr} {mode : BitVec 3} {w : Waits} {s : State} {u : State} (eqn : execGang m mode w s = .next u) (hs : s.memOk) : u.memOk := by
  unfold execGang at eqn
  cases eqn
  with_reducible repeat' first
    | assumption | apply State.issueUnit_memOk | dsimp only

theorem execLoad_memOk {m : MoveHdr} {ddesc : BitVec 12} {chan : BitVec 3} {s : State} {u : State} (eqn : execLoad m ddesc chan s = .next u) (hs : s.memOk) : u.memOk := by
  unfold execLoad at eqn
  cases eqn
  with_reducible repeat' first
    | assumption | apply State.issueUnit_memOk | dsimp only

theorem execStore_memOk {m : MoveHdr} {ddesc : BitVec 12} {chan : BitVec 3} {s : State} {u : State} (eqn : execStore m ddesc chan s = .next u) (hs : s.memOk) : u.memOk := by
  unfold execStore at eqn
  cases eqn
  with_reducible repeat' first
    | assumption | apply State.issueUnit_memOk | dsimp only

theorem execSend_memOk {m : MoveHdr} {ddesc : BitVec 12} {chan : BitVec 3} {s : State} {u : State} (eqn : execSend m ddesc chan s = .next u) (hs : s.memOk) : u.memOk := by
  unfold execSend at eqn
  cases eqn
  with_reducible repeat' first
    | assumption | apply State.issueUnit_memOk | dsimp only

theorem execTwin_memOk {m : MoveHdr} {oplist : BitVec 12} {s : State} {u : State} (eqn : execTwin m oplist s = .next u) (hs : s.memOk) : u.memOk := by
  unfold execTwin at eqn
  cases eqn
  with_reducible repeat' first
    | assumption | apply State.issueUnit_memOk | dsimp only

theorem execAdd_memOk {m : MoveHdr} {v : VecFields} {s : State} {u : State} (eqn : execAdd m v s = .next u) (hs : s.memOk) : u.memOk := by
  unfold execAdd at eqn
  cases eqn
  with_reducible repeat' first
    | assumption | apply State.issueUnit_memOk | dsimp only

theorem execSub_memOk {m : MoveHdr} {v : VecFields} {s : State} {u : State} (eqn : execSub m v s = .next u) (hs : s.memOk) : u.memOk := by
  unfold execSub at eqn
  cases eqn
  with_reducible repeat' first
    | assumption | apply State.issueUnit_memOk | dsimp only

theorem execMul_memOk {m : MoveHdr} {v : VecFields} {s : State} {u : State} (eqn : execMul m v s = .next u) (hs : s.memOk) : u.memOk := by
  unfold execMul at eqn
  cases eqn
  with_reducible repeat' first
    | assumption | apply State.issueUnit_memOk | dsimp only

theorem execFma_memOk {m : MoveHdr} {v : VecFields} {s : State} {u : State} (eqn : execFma m v s = .next u) (hs : s.memOk) : u.memOk := by
  unfold execFma at eqn
  cases eqn
  with_reducible repeat' first
    | assumption | apply State.issueUnit_memOk | dsimp only

theorem execMin_memOk {m : MoveHdr} {v : VecFields} {s : State} {u : State} (eqn : execMin m v s = .next u) (hs : s.memOk) : u.memOk := by
  unfold execMin at eqn
  cases eqn
  with_reducible repeat' first
    | assumption | apply State.issueUnit_memOk | dsimp only

theorem execMax_memOk {m : MoveHdr} {v : VecFields} {s : State} {u : State} (eqn : execMax m v s = .next u) (hs : s.memOk) : u.memOk := by
  unfold execMax at eqn
  cases eqn
  with_reducible repeat' first
    | assumption | apply State.issueUnit_memOk | dsimp only

theorem execSelect_memOk {m : MoveHdr} {v : VecFields} {s : State} {u : State} (eqn : execSelect m v s = .next u) (hs : s.memOk) : u.memOk := by
  unfold execSelect at eqn
  cases eqn
  with_reducible repeat' first
    | assumption | apply State.issueUnit_memOk | dsimp only

theorem execDiv_memOk {m : MoveHdr} {v : VecFields} {s : State} {u : State} (eqn : execDiv m v s = .next u) (hs : s.memOk) : u.memOk := by
  unfold execDiv at eqn
  cases eqn
  with_reducible repeat' first
    | assumption | apply State.issueUnit_memOk | dsimp only

theorem execSqrt_memOk {m : MoveHdr} {v : VecFields} {s : State} {u : State} (eqn : execSqrt m v s = .next u) (hs : s.memOk) : u.memOk := by
  unfold execSqrt at eqn
  cases eqn
  with_reducible repeat' first
    | assumption | apply State.issueUnit_memOk | dsimp only

theorem execRecip_memOk {m : MoveHdr} {v : VecFields} {s : State} {u : State} (eqn : execRecip m v s = .next u) (hs : s.memOk) : u.memOk := by
  unfold execRecip at eqn
  cases eqn
  with_reducible repeat' first
    | assumption | apply State.issueUnit_memOk | dsimp only

theorem execExp_memOk {m : MoveHdr} {v : VecFields} {s : State} {u : State} (eqn : execExp m v s = .next u) (hs : s.memOk) : u.memOk := by
  unfold execExp at eqn
  cases eqn
  with_reducible repeat' first
    | assumption | apply State.issueUnit_memOk | dsimp only

theorem execLog_memOk {m : MoveHdr} {v : VecFields} {s : State} {u : State} (eqn : execLog m v s = .next u) (hs : s.memOk) : u.memOk := by
  unfold execLog at eqn
  cases eqn
  with_reducible repeat' first
    | assumption | apply State.issueUnit_memOk | dsimp only

theorem execRsqrt_memOk {m : MoveHdr} {v : VecFields} {s : State} {u : State} (eqn : execRsqrt m v s = .next u) (hs : s.memOk) : u.memOk := by
  unfold execRsqrt at eqn
  cases eqn
  with_reducible repeat' first
    | assumption | apply State.issueUnit_memOk | dsimp only

theorem execTanh_memOk {m : MoveHdr} {v : VecFields} {s : State} {u : State} (eqn : execTanh m v s = .next u) (hs : s.memOk) : u.memOk := by
  unfold execTanh at eqn
  cases eqn
  with_reducible repeat' first
    | assumption | apply State.issueUnit_memOk | dsimp only

theorem execSigmoid_memOk {m : MoveHdr} {v : VecFields} {s : State} {u : State} (eqn : execSigmoid m v s = .next u) (hs : s.memOk) : u.memOk := by
  unfold execSigmoid at eqn
  cases eqn
  with_reducible repeat' first
    | assumption | apply State.issueUnit_memOk | dsimp only

theorem execIadd_memOk {m : MoveHdr} {v : VecFields} {s : State} {u : State} (eqn : execIadd m v s = .next u) (hs : s.memOk) : u.memOk := by
  unfold execIadd at eqn
  cases eqn
  with_reducible repeat' first
    | assumption | apply State.issueUnit_memOk | dsimp only

theorem execImul_memOk {m : MoveHdr} {v : VecFields} {s : State} {u : State} (eqn : execImul m v s = .next u) (hs : s.memOk) : u.memOk := by
  unfold execImul at eqn
  cases eqn
  with_reducible repeat' first
    | assumption | apply State.issueUnit_memOk | dsimp only

theorem execCvt_memOk {m : MoveHdr} {v : VecFields} {s : State} {u : State} (eqn : execCvt m v s = .next u) (hs : s.memOk) : u.memOk := by
  unfold execCvt at eqn
  cases eqn
  with_reducible repeat' first
    | assumption | apply State.issueUnit_memOk | dsimp only

theorem execRsum_memOk {m : MoveHdr} {v : VecFields} {s : State} {u : State} (eqn : execRsum m v s = .next u) (hs : s.memOk) : u.memOk := by
  unfold execRsum at eqn
  cases eqn
  with_reducible repeat' first
    | assumption | apply State.issueUnit_memOk | dsimp only

theorem execRmax_memOk {m : MoveHdr} {v : VecFields} {s : State} {u : State} (eqn : execRmax m v s = .next u) (hs : s.memOk) : u.memOk := by
  unfold execRmax at eqn
  cases eqn
  with_reducible repeat' first
    | assumption | apply State.issueUnit_memOk | dsimp only

theorem execRmin_memOk {m : MoveHdr} {v : VecFields} {s : State} {u : State} (eqn : execRmin m v s = .next u) (hs : s.memOk) : u.memOk := by
  unfold execRmin at eqn
  cases eqn
  with_reducible repeat' first
    | assumption | apply State.issueUnit_memOk | dsimp only

theorem execCsum_memOk {m : MoveHdr} {v : VecFields} {s : State} {u : State} (eqn : execCsum m v s = .next u) (hs : s.memOk) : u.memOk := by
  unfold execCsum at eqn
  cases eqn
  with_reducible repeat' first
    | assumption | apply State.issueUnit_memOk | dsimp only

theorem execCmax_memOk {m : MoveHdr} {v : VecFields} {s : State} {u : State} (eqn : execCmax m v s = .next u) (hs : s.memOk) : u.memOk := by
  unfold execCmax at eqn
  cases eqn
  with_reducible repeat' first
    | assumption | apply State.issueUnit_memOk | dsimp only

theorem execCmin_memOk {m : MoveHdr} {v : VecFields} {s : State} {u : State} (eqn : execCmin m v s = .next u) (hs : s.memOk) : u.memOk := by
  unfold execCmin at eqn
  cases eqn
  with_reducible repeat' first
    | assumption | apply State.issueUnit_memOk | dsimp only

theorem execSoftmax_memOk {m : MoveHdr} {v : VecFields} {s : State} {u : State} (eqn : execSoftmax m v s = .next u) (hs : s.memOk) : u.memOk := by
  unfold execSoftmax at eqn
  cases eqn
  with_reducible repeat' first
    | assumption | apply State.issueUnit_memOk | dsimp only

theorem execLnorm_memOk {m : MoveHdr} {v : VecFields} {s : State} {u : State} (eqn : execLnorm m v s = .next u) (hs : s.memOk) : u.memOk := by
  unfold execLnorm at eqn
  cases eqn
  with_reducible repeat' first
    | assumption | apply State.issueUnit_memOk | dsimp only

theorem execRmsnorm_memOk {m : MoveHdr} {v : VecFields} {s : State} {u : State} (eqn : execRmsnorm m v s = .next u) (hs : s.memOk) : u.memOk := by
  unfold execRmsnorm at eqn
  cases eqn
  with_reducible repeat' first
    | assumption | apply State.issueUnit_memOk | dsimp only

theorem execTopk_memOk {m : MoveHdr} {v : VecFields} {s : State} {u : State} (eqn : execTopk m v s = .next u) (hs : s.memOk) : u.memOk := by
  unfold execTopk at eqn
  cases eqn
  with_reducible repeat' first
    | assumption | apply State.issueUnit_memOk | dsimp only

theorem execRand_memOk {m : MoveHdr} {v : VecFields} {s : State} {u : State} (eqn : execRand m v s = .next u) (hs : s.memOk) : u.memOk := by
  unfold execRand at eqn
  cases eqn
  with_reducible repeat' first
    | assumption | apply State.issueUnit_memOk | dsimp only

theorem execSample_memOk {m : MoveHdr} {v : VecFields} {s : State} {u : State} (eqn : execSample m v s = .next u) (hs : s.memOk) : u.memOk := by
  unfold execSample at eqn
  cases eqn
  with_reducible repeat' first
    | assumption | apply State.issueUnit_memOk | dsimp only

theorem execSb3enc_memOk {m : MoveHdr} {v : VecFields} {s : State} {u : State} (eqn : execSb3enc m v s = .next u) (hs : s.memOk) : u.memOk := by
  unfold execSb3enc at eqn
  cases eqn
  with_reducible repeat' first
    | assumption | apply State.issueUnit_memOk | dsimp only

theorem execMoveComplete_memOk {site : Nat} {index : BitVec 18} {cycle : Word} {s : State} {u : State} (eqn : execMoveComplete site index cycle s = .next u) (hs : s.memOk) : u.memOk := by
  unfold execMoveComplete at eqn
  cases eqn
  with_reducible repeat' first
    | assumption | apply State.completeMove_memOk | dsimp only

theorem execSendArrival_memOk {site : Nat} {p : BnetPacket} {cycle : Word} {s : State} {u : State} (eqn : execSendArrival site p cycle s = .next u) (hs : s.memOk) : u.memOk := by
  unfold execSendArrival at eqn
  cases eqn
  with_reducible repeat' first
    | assumption | apply State.sendArrives_memOk | dsimp only

theorem execSackReceipt_memOk {site : Nat} {xid : BitVec 16} {cycle : Word} {s : State} {u : State} (eqn : execSackReceipt site xid cycle s = .next u) (hs : s.memOk) : u.memOk := by
  unfold execSackReceipt at eqn
  cases eqn
  with_reducible repeat' first
    | assumption | apply State.sackFor_memOk | dsimp only

theorem State.storeTrace_memOk (s : State) (r : List Byte) (hs : s.memOk) : (State.storeTrace s r).memOk := by
  unfold State.storeTrace
  with_reducible repeat' first
    | assumption | apply State.bump_memOk | apply State.setReg_memOk | apply foldl_memOk | apply foldl_fst_memOk | intro _ _ _ | intro _ _
    | intro _ | dsimp only

theorem State.sendTrace_memOk (s : State) (i : Nat) (hs : s.memOk) : (State.sendTrace s i).memOk := by
  unfold State.sendTrace
  with_reducible repeat' first
    | assumption | apply State.bump_memOk | apply State.modDie_memOk | apply State.storeTrace_memOk | apply State.takeToken_memOk
    | apply ite_memOk | apply foldl_memOk | apply foldl_fst_memOk | apply foldl_okMem | apply okMem_ok | apply okMem_error
    | refine okMem_elim (by assumption) | intro _ _ _ | intro _ _ | intro _ | dsimp only | split

theorem execTraceRecord_memOk {site : Nat} {s : State} {u : State} (eqn : execTraceRecord site s = .next u) (hs : s.memOk) : u.memOk := by
  unfold execTraceRecord at eqn
  cases eqn
  with_reducible repeat' first
    | assumption | apply State.sendTrace_memOk | dsimp only

end Sys2Proof.Machine
end

