-- ==== Sys2Proof/Laws/MemMailbox.lean ====
section
/-! SUPPORT. Memory keeps its canonical form (Memory.wf, State.memOk) through each function of Mailbox, Books, NetworkCommands, Resets, Quads, Partitions, Recorder, DeviceMail, MailboxCommands and MemoryCommands: one lemma per
function that answers a state, and for a function that answers a state with something else a second one, marked with a prime, that takes
the answer as an equation. -/

namespace Sys2Proof.Machine

set_option linter.unusedTactic false
set_option linter.unreachableTactic false
set_option linter.unusedVariables false

/-! Mailbox -/

theorem State.enterCommand_memOk (s : State) (c : Cmd) (w : MailRow) (hs : s.memOk) : (State.enterCommand s c w).memOk := by
  unfold State.enterCommand
  with_reducible repeat' first
    | assumption | apply State.modRing_memOk | apply ite_memOk | apply foldl_memOk | apply foldl_fst_memOk | apply foldl_okMem
    | apply okMem_ok | apply okMem_error | refine okMem_elim (by assumption) | intro _ _ _ | intro _ _ | intro _ | dsimp only | split

theorem State.take_memOk (s : State) (c : Cmd) (w : MailRow) (badArgs : Bool) (go : Nat → State → State) (hs : s.memOk) (hgo : ∀ (z0 : Nat) (z1 : State), z1.memOk → (go z0 z1).memOk) : (State.take s c w badArgs go).memOk := by
  unfold State.take
  with_reducible repeat' first
    | assumption | apply ite_memOk | apply State.complete_memOk | apply State.enterCommand_memOk | apply hgo | dsimp only | split

theorem State.deviceInfo_memOk (s : State) (c : Cmd) (hs : s.memOk) : (State.deviceInfo s c).memOk := by
  unfold State.deviceInfo
  with_reducible repeat' first
    | assumption | apply State.complete_memOk | apply State.take_memOk | apply foldl_okMem | apply okMem_ok | apply okMem_error
    | refine okMem_elim (by assumption) | intro _ _ _ | intro _ _ | intro _ | dsimp only

theorem State.markSite_memOk (s : State) (i : Nat) (v : SiteState) (hs : s.memOk) : (State.markSite s i v).memOk := by
  unfold State.markSite
  with_reducible repeat' first
    | assumption | dsimp only

theorem State.siteEnable_memOk (s : State) (c : Cmd) (site : BitVec 8) (hs : s.memOk) : (State.siteEnable s c site).memOk := by
  unfold State.siteEnable
  with_reducible repeat' first
    | assumption | apply ite_memOk | apply State.complete_memOk | apply State.markSite_memOk | apply State.take_memOk | apply foldl_okMem
    | apply okMem_ok | apply okMem_error | refine okMem_elim (by assumption) | intro _ _ _ | intro _ _ | intro _ | dsimp only | split

theorem State.siteReserve_memOk (s : State) (c : Cmd) (site : BitVec 8) (hs : s.memOk) : (State.siteReserve s c site).memOk := by
  unfold State.siteReserve
  with_reducible repeat' first
    | assumption | apply ite_memOk | apply State.complete_memOk | apply State.markSite_memOk | apply State.take_memOk | apply foldl_okMem
    | apply okMem_ok | apply okMem_error | refine okMem_elim (by assumption) | intro _ _ _ | intro _ _ | intro _ | dsimp only | split

theorem State.grantFleet_memOk (s : State) (c : Cmd) (part ring : BitVec 8) (hs : s.memOk) : (State.grantFleet s c part ring).memOk := by
  unfold State.grantFleet
  with_reducible repeat' first
    | assumption | apply State.complete_memOk | apply State.setField_memOk | apply State.take_memOk | apply foldl_okMem | apply okMem_ok
    | apply okMem_error | refine okMem_elim (by assumption) | intro _ _ _ | intro _ _ | intro _ | dsimp only

theorem State.publish_memOk (s : State) (c : Cmd) (base : Word) (lines : BitVec 32) (direction : BitVec 8) (hs : s.memOk) : (State.publish s c base lines direction).memOk := by
  unfold State.publish
  with_reducible repeat' first
    | assumption | apply ite_memOk | apply State.complete_memOk | apply State.modPart_memOk | apply State.take_memOk | intro _ _ _
    | intro _ _ | intro _ | dsimp only | split

theorem State.enqueue_memOk (s : State) (p : Nat) (c : Cmd) (op : QueuedOp) (hs : s.memOk) : (State.enqueue s p c op).memOk := by
  unfold State.enqueue
  with_reducible repeat' first
    | assumption | apply State.modPart_memOk | intro _ _ _ | intro _ _ | intro _ | dsimp only

theorem State.queuePolicy_memOk (s : State) (p : Nat) (c : Cmd) (id : BitVec 16) (v : Word) (hs : s.memOk) : (State.queuePolicy s p c id v).memOk := by
  unfold State.queuePolicy
  with_reducible repeat' first
    | assumption | apply State.enqueue_memOk | apply State.modPart_memOk | intro _ _ _ | intro _ _ | intro _ | dsimp only

theorem State.policySet_memOk (s : State) (c : Cmd) (id : BitVec 16) (v : Word) (hs : s.memOk) : (State.policySet s c id v).memOk := by
  unfold State.policySet
  with_reducible repeat' first
    | assumption | apply State.queuePolicy_memOk | apply State.take_memOk | intro _ _ _ | intro _ _ | intro _ | dsimp only

theorem State.policyGet_memOk (s : State) (c : Cmd) (id : BitVec 16) (hs : s.memOk) : (State.policyGet s c id).memOk := by
  unfold State.policyGet
  with_reducible repeat' first
    | assumption | apply State.complete_memOk | apply State.take_memOk | apply foldl_okMem | apply okMem_ok | apply okMem_error
    | refine okMem_elim (by assumption) | intro _ _ _ | intro _ _ | intro _ | dsimp only

theorem State.grantPage_memOk (s : State) (c : Cmd) (page grants : BitVec 8) (mask tenant : BitVec 16) (hs : s.memOk) : (State.grantPage s c page grants mask tenant).memOk := by
  unfold State.grantPage
  with_reducible repeat' first
    | assumption | apply ite_memOk | apply State.complete_memOk | apply State.modPart_memOk | apply State.take_memOk | apply foldl_okMem
    | apply okMem_ok | apply okMem_error | refine okMem_elim (by assumption) | intro _ _ _ | intro _ _ | intro _ | dsimp only | split

theorem State.bookMap_memOk (s : State) (c : Cmd) (map : BitVec 8) (hs : s.memOk) : (State.bookMap s c map).memOk := by
  unfold State.bookMap
  with_reducible repeat' first
    | assumption | apply State.complete_memOk | apply State.requestMap_memOk | apply State.take_memOk | apply foldl_okMem | apply okMem_ok
    | apply okMem_error | refine okMem_elim (by assumption) | intro _ _ _ | intro _ _ | intro _ | dsimp only | split

theorem State.bookUnload_memOk (s : State) (c : Cmd) (flags : BitVec 8) (hs : s.memOk) : (State.bookUnload s c flags).memOk := by
  unfold State.bookUnload
  with_reducible repeat' first
    | assumption | apply State.complete_memOk | apply State.modPart_memOk | apply State.preemptTurn_memOk | apply State.take_memOk
    | apply ite_memOk | apply foldl_memOk | apply foldl_fst_memOk | apply foldl_okMem | apply okMem_ok | apply okMem_error
    | refine okMem_elim (by assumption) | intro _ _ _ | intro _ _ | intro _ | dsimp only | split

theorem State.bookPreempt_memOk (s : State) (c : Cmd) (hs : s.memOk) : (State.bookPreempt s c).memOk := by
  unfold State.bookPreempt
  with_reducible repeat' first
    | assumption | apply State.modPart_memOk | apply State.preemptTurn_memOk | apply State.take_memOk | intro _ _ _ | intro _ _ | intro _
    | dsimp only

theorem State.streamOpen_memOk (s : State) (c : Cmd) (tenant : BitVec 16) (prio : BitVec 8) (hs : s.memOk) : (State.streamOpen s c tenant prio).memOk := by
  unfold State.streamOpen
  with_reducible repeat' first
    | assumption | apply State.enqueue_memOk | apply State.take_memOk | intro _ _ _ | intro _ _ | intro _ | dsimp only

theorem State.streamAppend_memOk (s : State) (c : Cmd) (h : Handle) (positions : BitVec 32) (prompt : Word) (hs : s.memOk) : (State.streamAppend s c h positions prompt).memOk := by
  unfold State.streamAppend
  with_reducible repeat' first
    | assumption | apply State.enqueue_memOk | apply State.take_memOk | intro _ _ _ | intro _ _ | intro _ | dsimp only

theorem State.streamAdvance_memOk (s : State) (c : Cmd) (h : Handle) (positions : BitVec 16) (hs : s.memOk) : (State.streamAdvance s c h positions).memOk := by
  unfold State.streamAdvance
  with_reducible repeat' first
    | assumption | apply State.enqueue_memOk | apply State.take_memOk | intro _ _ _ | intro _ _ | intro _ | dsimp only

theorem State.streamClose_memOk (s : State) (c : Cmd) (h : Handle) (hs : s.memOk) : (State.streamClose s c h).memOk := by
  unfold State.streamClose
  with_reducible repeat' first
    | assumption | apply State.enqueue_memOk | apply State.take_memOk | intro _ _ _ | intro _ _ | intro _ | dsimp only

theorem State.streamPark_memOk (s : State) (c : Cmd) (h : Handle) (hs : s.memOk) : (State.streamPark s c h).memOk := by
  unfold State.streamPark
  with_reducible repeat' first
    | assumption | apply State.enqueue_memOk | apply State.take_memOk | intro _ _ _ | intro _ _ | intro _ | dsimp only

theorem State.streamUnpark_memOk (s : State) (c : Cmd) (h : Handle) (hs : s.memOk) : (State.streamUnpark s c h).memOk := by
  unfold State.streamUnpark
  with_reducible repeat' first
    | assumption | apply State.enqueue_memOk | apply State.take_memOk | intro _ _ _ | intro _ _ | intro _ | dsimp only

theorem State.streamMigrate_memOk (s : State) (c : Cmd) (h : Handle) (module : BitVec 16) (part : BitVec 8) (hs : s.memOk) : (State.streamMigrate s c h module part).memOk := by
  unfold State.streamMigrate
  with_reducible repeat' first
    | assumption | apply State.enqueue_memOk | apply State.take_memOk | intro _ _ _ | intro _ _ | intro _ | dsimp only

theorem State.streamFork_memOk (s : State) (c : Cmd) (h : Handle) (positions : BitVec 32) (hs : s.memOk) : (State.streamFork s c h positions).memOk := by
  unfold State.streamFork
  with_reducible repeat' first
    | assumption | apply State.enqueue_memOk | apply State.take_memOk | intro _ _ _ | intro _ _ | intro _ | dsimp only

theorem State.stateInvalidate_memOk (s : State) (c : Cmd) (h : Handle) (first pages : BitVec 32) (hs : s.memOk) : (State.stateInvalidate s c h first pages).memOk := by
  unfold State.stateInvalidate
  with_reducible repeat' first
    | assumption | apply State.complete_memOk | apply State.invalidate_memOk | apply State.take_memOk | apply foldl_okMem | apply okMem_ok
    | apply okMem_error | refine okMem_elim (by assumption) | intro _ _ _ | intro _ _ | intro _ | dsimp only | split

theorem State.stateTier_memOk (s : State) (c : Cmd) (h : Handle) (first pages : BitVec 32) (tier : BitVec 8) (hs : s.memOk) : (State.stateTier s c h first pages tier).memOk := by
  unfold State.stateTier
  with_reducible repeat' first
    | assumption | apply State.enqueue_memOk | apply State.take_memOk | intro _ _ _ | intro _ _ | intro _ | dsimp only

theorem State.stateQuery_memOk (s : State) (c : Cmd) (h : Handle) (page : BitVec 32) (hs : s.memOk) : (State.stateQuery s c h page).memOk := by
  unfold State.stateQuery
  with_reducible repeat' first
    | assumption | apply State.complete_memOk | apply State.take_memOk | apply foldl_okMem | apply okMem_ok | apply okMem_error
    | refine okMem_elim (by assumption) | intro _ _ _ | intro _ _ | intro _ | dsimp only | split

/-! Books -/

theorem State.sendSpanConfirm_memOk (s : State) (p : Nat) (b : Book) (heard : Nat) (hs : s.memOk) : (State.sendSpanConfirm s p b heard).memOk := by
  unfold State.sendSpanConfirm
  with_reducible repeat' first
    | assumption | apply State.sendMgmt_memOk | apply ite_memOk | apply foldl_memOk | apply foldl_fst_memOk | apply foldl_okMem
    | apply okMem_ok | apply okMem_error | refine okMem_elim (by assumption) | intro _ _ _ | intro _ _ | intro _ | dsimp only | split

theorem State.sendLoadFail_memOk (s : State) (p : Nat) (members : List (Nat × Nat)) (st : Nat) (module : Nat) (hs : s.memOk) : (State.sendLoadFail s p members st module).memOk := by
  unfold State.sendLoadFail
  with_reducible repeat' first
    | assumption | apply State.sendMgmt_memOk | apply ite_memOk | apply foldl_memOk | apply foldl_fst_memOk | apply foldl_okMem
    | apply okMem_ok | apply okMem_error | refine okMem_elim (by assumption) | intro _ _ _ | intro _ _ | intro _ | dsimp only | split

theorem State.endLoad_memOk (s : State) (p : Nat) (st : Status) (hs : s.memOk) : (State.endLoad s p st).memOk := by
  unfold State.endLoad
  with_reducible repeat' first
    | assumption | apply State.complete_memOk | apply State.completeReset_memOk | apply State.endBook_memOk | apply State.modPart_memOk
    | apply State.releaseBookArea_memOk | apply ite_memOk | apply foldl_memOk | apply foldl_fst_memOk | apply foldl_okMem | apply okMem_ok
    | apply okMem_error | refine okMem_elim (by assumption) | intro _ _ _ | intro _ _ | intro _ | dsimp only | split

theorem State.copyImage_memOk (s : State) (p : Nat) (img : List Byte) (hs : s.memOk) : (State.copyImage s p img).memOk := by
  unfold State.copyImage
  with_reducible repeat' first
    | assumption | apply State.computeWrite_memOk | apply State.modPart_memOk | apply State.take_memOk | apply ite_memOk | apply foldl_memOk
    | apply foldl_fst_memOk | apply foldl_okMem | apply okMem_ok | apply okMem_error | refine okMem_elim (by assumption) | intro _ _ _
    | intro _ _ | intro _ | dsimp only | split

theorem State.beginLoad_memOk (s : State) (p : Nat) (c : Cmd) (b : Book) (addr : Nat) (img : List Byte) (hs : s.memOk) : (State.beginLoad s p c b addr img).memOk := by
  unfold State.beginLoad
  with_reducible repeat' first
    | assumption | apply State.copyImage_memOk | apply State.endLoad_memOk | apply State.modPart_memOk | apply State.sendLoadFail_memOk
    | apply State.sendSpanConfirm_memOk | apply ite_memOk | apply foldl_memOk | apply foldl_fst_memOk | apply foldl_okMem | apply okMem_ok
    | apply okMem_error | refine okMem_elim (by assumption) | intro _ _ _ | intro _ _ | intro _ | dsimp only | split

theorem State.refuseLoad_memOk (s : State) (p : Nat) (c : Cmd) (img : List Byte) (st : Status) (hs : s.memOk) : (State.refuseLoad s p c img st).memOk := by
  unfold State.refuseLoad
  with_reducible repeat' first
    | assumption | apply ite_memOk | apply State.complete_memOk | apply State.sendLoadFail_memOk | dsimp only | split

theorem State.bookLoad_memOk (s : State) (c : Cmd) (addr len : Word) (hs : s.memOk) : (State.bookLoad s c addr len).memOk := by
  unfold State.bookLoad
  with_reducible repeat' first
    | assumption | apply State.beginLoad_memOk | apply State.complete_memOk | apply State.hostRead_memOk
    | refine State.hostRead_memOk' (by assumption) ?_ | apply State.refuseLoad_memOk | apply State.take_memOk | apply ite_memOk
    | apply foldl_memOk | apply foldl_fst_memOk | apply foldl_okMem | apply okMem_ok | apply okMem_error | refine okMem_elim (by assumption)
    | intro _ _ _ | intro _ _ | intro _ | dsimp only | split

theorem State.takeHomePage_memOk (s : State) (i : Nat) (hs : s.memOk) : (State.takeHomePage s i).1.memOk := by
  unfold State.takeHomePage
  with_reducible repeat' first
    | assumption | apply State.draw_memOk | refine State.draw_memOk' (by assumption) ?_ | dsimp only | split

theorem State.takeHomePage_memOk' {s : State} {i : Nat} {t : State} {x1 : Nat} (eqn : State.takeHomePage s i = (t, x1)) (hs : s.memOk) : t.memOk :=
  pair_memOk eqn (State.takeHomePage_memOk s i hs)

theorem State.resolveFault_memOk {s : State} {p i : Nat} {x : Stopped} {t : State} (eqn : State.resolveFault s p i x = some t) (hs : s.memOk) : t.memOk := by
  unfold State.resolveFault at eqn
  dsimp only at eqn
  repeat' split at eqn
  all_goals cases eqn
  repeat' first
    | with_reducible assumption
    | with_reducible apply ite_memOk
    | with_reducible apply State.invalidate_memOk
    | with_reducible apply State.modPart_memOk
    | with_reducible apply State.placeLeaf_memOk
    | with_reducible refine State.placeLeaf_memOk' (by with_reducible assumption) ?_
    | with_reducible apply State.setLeaf_memOk
    | with_reducible apply State.takeHomePage_memOk
    | with_reducible refine State.takeHomePage_memOk' (by with_reducible assumption) ?_
    | with_reducible apply State.writePage_memOk
    | with_reducible apply foldl_memOk
    | with_reducible apply foldl_fst_memOk
    | with_reducible apply foldl_okMem
    | with_reducible apply okMem_ok
    | with_reducible apply okMem_error
    | with_reducible refine okMem_elim (by with_reducible assumption)
    | (intro _ _ _)
    | (intro _ _)
    | (intro _)
    | dsimp only
    | split
    | with_reducible refine pair_memOk (by with_reducible assumption) ?_
    | with_reducible refine okMem_mem (by with_reducible assumption) ?_

theorem State.faultResolved_memOk (s : State) (i key : Nat) (hs : s.memOk) : (State.faultResolved s i key).memOk := by
  unfold State.faultResolved
  with_reducible repeat' first
    | assumption | apply State.bump_memOk | refine State.resolveFault_memOk (by assumption) ?_ | apply State.resumeMove_memOk | dsimp only
    | split

theorem State.faultUnresolvable_memOk (s : State) (i key : Nat) (hs : s.memOk) : (State.faultUnresolvable s i key).memOk := by
  unfold State.faultUnresolvable
  with_reducible repeat' first
    | assumption | apply State.drawSeverity_memOk | refine State.drawSeverity_memOk' (by assumption) ?_ | apply State.event7F_memOk
    | apply State.event7FAny_memOk | apply State.skipHandle_memOk | apply ite_memOk | apply foldl_memOk | apply foldl_fst_memOk
    | apply foldl_okMem | apply okMem_ok | apply okMem_error | refine okMem_elim (by assumption) | intro _ _ _ | intro _ _ | intro _
    | dsimp only | split

theorem State.skipAll_memOk (s : State) (p i : Nat) (y0 : Nat) (hs : s.memOk) : (State.skipAll s p i y0).memOk := by
  induction y0 generalizing s with
  | zero => simpa [State.skipAll] using hs
  | succ fuel ih =>
  unfold State.skipAll
  repeat' first
    | with_reducible assumption
    | with_reducible apply ih
    | with_reducible apply ite_memOk
    | with_reducible apply State.skipHandle_memOk
    | with_reducible apply foldl_memOk
    | with_reducible apply foldl_fst_memOk
    | with_reducible apply foldl_okMem
    | with_reducible apply okMem_ok
    | with_reducible apply okMem_error
    | with_reducible refine okMem_elim (by with_reducible assumption)
    | (intro _ _ _)
    | (intro _ _)
    | (intro _)
    | dsimp only
    | split
    | with_reducible refine pair_memOk (by with_reducible assumption) ?_
    | with_reducible refine okMem_mem (by with_reducible assumption) ?_

theorem State.budgetExhausted_memOk (s : State) (i : Nat) (hs : s.memOk) : (State.budgetExhausted s i).memOk := by
  unfold State.budgetExhausted
  with_reducible repeat' first
    | assumption | apply State.skipAll_memOk | dsimp only | split

theorem State.cowResolve_memOk (s : State) (i : Nat) (h : Handle) (page : Nat) (newPage : Nat) (hs : s.memOk) : (State.cowResolve s i h page newPage).memOk := by
  unfold State.cowResolve
  with_reducible repeat' first
    | assumption | apply State.bump_memOk | apply State.pageBytes_memOk | refine State.pageBytes_memOk' (by assumption) ?_
    | apply State.setLeaf_memOk | apply State.setSharers_memOk | apply State.settleShared_memOk | apply State.syncTiers_memOk
    | apply State.writePage_memOk | apply ite_memOk | apply foldl_memOk | apply foldl_fst_memOk | apply foldl_okMem | apply okMem_ok
    | apply okMem_error | refine okMem_elim (by assumption) | intro _ _ _ | intro _ _ | intro _ | dsimp only | split

theorem State.dropReads_memOk (s : State) (p : Nat) (h : Handle) (page : Nat) (hs : s.memOk) : (State.dropReads s p h page).memOk := by
  unfold State.dropReads
  with_reducible repeat' first
    | assumption | intro _ _ _ | intro _ _ | intro _ | dsimp only

theorem State.farRecall_memOk (s : State) (i : Nat) (h : Handle) (page newPage : Nat) (given : List (List Byte)) (hs : s.memOk) : (State.farRecall s i h page newPage given).memOk := by
  unfold State.farRecall
  with_reducible repeat' first
    | assumption | apply State.bump_memOk | apply State.dropReads_memOk | apply State.relocatePage_memOk | apply State.writePage_memOk
    | apply ite_memOk | apply foldl_memOk | apply foldl_fst_memOk | apply foldl_okMem | apply okMem_ok | apply okMem_error
    | refine okMem_elim (by assumption) | intro _ _ _ | intro _ _ | intro _ | dsimp only | split

theorem State.tierCopyDone_memOk (s : State) (p : Nat) (h : Handle) (page newPage : Nat) (hs : s.memOk) : (State.tierCopyDone s p h page newPage).memOk := by
  unfold State.tierCopyDone
  with_reducible repeat' first
    | assumption | apply ite_memOk | apply State.dropReads_memOk | apply State.modPart_memOk | apply State.pageBytes_memOk
    | refine State.pageBytes_memOk' (by assumption) ?_ | apply State.writePage_memOk | intro _ _ _ | intro _ _ | intro _ | dsimp only
    | split

theorem State.migrationCopied_memOk (s : State) (p : Nat) (h : Handle) (dest : Nat) (hs : s.memOk) : (State.migrationCopied s p h dest).memOk := by
  unfold State.migrationCopied
  with_reducible repeat' first
    | assumption | apply State.admitArrival_memOk | refine State.admitArrival_memOk' (by assumption) ?_ | apply State.copyStream_memOk
    | apply State.failMigration_memOk | apply State.modPart_memOk | apply ite_memOk | apply foldl_memOk | apply foldl_fst_memOk
    | apply foldl_okMem | apply okMem_ok | apply okMem_error | refine okMem_elim (by assumption) | intro _ _ _ | intro _ _ | intro _
    | dsimp only | split

theorem State.migrationFailed_memOk (s : State) (p : Nat) (h : Handle) (status : BitVec 8) (hs : s.memOk) : (State.migrationFailed s p h status).memOk := by
  unfold State.migrationFailed
  with_reducible repeat' first
    | assumption | apply ite_memOk | apply State.failMigration_memOk | dsimp only | split

theorem execFaultResolved_memOk {site chan : Nat} {s : State} {u : State} (eqn : execFaultResolved site chan s = .next u) (hs : s.memOk) : u.memOk := by
  unfold execFaultResolved at eqn
  cases eqn
  with_reducible repeat' first
    | assumption | apply ite_memOk | apply State.faultResolved_memOk | dsimp only | split

theorem execFaultUnresolvable_memOk {site chan : Nat} {s : State} {u : State} (eqn : execFaultUnresolvable site chan s = .next u) (hs : s.memOk) : u.memOk := by
  unfold execFaultUnresolvable at eqn
  cases eqn
  with_reducible repeat' first
    | assumption | apply ite_memOk | apply State.faultUnresolvable_memOk | dsimp only | split

theorem execHoldBudgetExhausted_memOk {site : Nat} {s : State} {u : State} (eqn : execHoldBudgetExhausted site s = .next u) (hs : s.memOk) : u.memOk := by
  unfold execHoldBudgetExhausted at eqn
  cases eqn
  with_reducible repeat' first
    | assumption | apply State.budgetExhausted_memOk | dsimp only

theorem execCowResolve_memOk {site : Nat} {handle : Handle} {page : BitVec 21} {newPage : Addr} {s : State} {u : State} (eqn : execCowResolve site handle page newPage s = .next u) (hs : s.memOk) : u.memOk := by
  unfold execCowResolve at eqn
  cases eqn
  with_reducible repeat' first
    | assumption | apply ite_memOk | apply State.cowResolve_memOk | dsimp only | split

theorem execFarRecall_memOk {site : Nat} {handle : Handle} {page : BitVec 21} {newPage : Addr} {lines : List (List Byte)} {s : State} {u : State} (eqn : execFarRecall site handle page newPage lines s = .next u) (hs : s.memOk) : u.memOk := by
  unfold execFarRecall at eqn
  cases eqn
  with_reducible repeat' first
    | assumption | apply ite_memOk | apply State.farRecall_memOk | dsimp only | split

theorem execTierCopyDone_memOk {part : Nat} {handle : Handle} {page : BitVec 21} {newPage : Addr} {s : State} {u : State} (eqn : execTierCopyDone part handle page newPage s = .next u) (hs : s.memOk) : u.memOk := by
  unfold execTierCopyDone at eqn
  cases eqn
  with_reducible repeat' first
    | assumption | apply ite_memOk | apply State.tierCopyDone_memOk | dsimp only | split

theorem execMigrationCopyDone_memOk {part : Nat} {handle : Handle} {destPart : Nat} {s : State} {u : State} (eqn : execMigrationCopyDone part handle destPart s = .next u) (hs : s.memOk) : u.memOk := by
  unfold execMigrationCopyDone at eqn
  cases eqn
  with_reducible repeat' first
    | assumption | apply ite_memOk | apply State.migrationCopied_memOk | dsimp only | split

theorem execMigrationFail_memOk {part : Nat} {handle : Handle} {status : BitVec 8} {s : State} {u : State} (eqn : execMigrationFail part handle status s = .next u) (hs : s.memOk) : u.memOk := by
  unfold execMigrationFail at eqn
  cases eqn
  with_reducible repeat' first
    | assumption | apply ite_memOk | apply State.migrationFailed_memOk | dsimp only | split

/-! NetworkCommands -/

theorem State.failLink_memOk (s : State) (q d : Nat) (hs : s.memOk) : (State.failLink s q d).memOk := by
  unfold State.failLink
  with_reducible repeat' first
    | assumption | apply State.event7F_memOk | apply State.setFlag_memOk | dsimp only | split

theorem State.clearFails_memOk (s : State) (q d : Nat) (p : BnetPacket) (hs : s.memOk) : (State.clearFails s q d p).memOk := by
  unfold State.clearFails
  with_reducible repeat' first
    | assumption | apply State.modSquare_memOk | apply ite_memOk | apply foldl_memOk | apply foldl_fst_memOk | apply foldl_okMem
    | apply okMem_ok | apply okMem_error | refine okMem_elim (by assumption) | intro _ _ _ | intro _ _ | intro _ | dsimp only | split

theorem State.linkFailure_memOk (s : State) (q d : Nat) (p : BnetPacket) (hs : s.memOk) : (State.linkFailure s q d p).memOk := by
  unfold State.linkFailure
  with_reducible repeat' first
    | assumption | apply State.clearFails_memOk | apply State.failLink_memOk | apply State.modSquare_memOk | apply ite_memOk
    | apply foldl_memOk | apply foldl_fst_memOk | apply foldl_okMem | apply okMem_ok | apply okMem_error | refine okMem_elim (by assumption)
    | intro _ _ _ | intro _ _ | intro _ | dsimp only | split

theorem State.acknowledge_memOk (s : State) (q d : Nat) (p : BnetPacket) (hs : s.memOk) : (State.acknowledge s q d p).memOk := by
  unfold State.acknowledge
  with_reducible repeat' first
    | assumption | apply State.modSquare_memOk | apply State.serveRouter_memOk | apply ite_memOk | apply foldl_memOk | apply foldl_fst_memOk
    | apply foldl_okMem | apply okMem_ok | apply okMem_error | refine okMem_elim (by assumption) | intro _ _ _ | intro _ _ | intro _
    | dsimp only | split

theorem State.bounce_memOk (s : State) (q : Nat) (p : BnetPacket) (st : Status) (hs : s.memOk) : (State.bounce s q p st).memOk := by
  unfold State.bounce
  with_reducible repeat' first
    | assumption | apply State.injectBnet_memOk | apply ite_memOk | apply foldl_memOk | apply foldl_fst_memOk | apply foldl_okMem
    | apply okMem_ok | apply okMem_error | refine okMem_elim (by assumption) | intro _ _ _ | intro _ _ | intro _ | dsimp only | split

theorem State.packetWrite_memOk (s : State) (r : Requester) (p : BnetPacket) (hs : s.memOk) : (State.packetWrite s r p).1.memOk := by
  unfold State.packetWrite
  with_reducible repeat' first
    | assumption | apply ite_memOk | apply State.accessAt_memOk | refine State.accessAt_memOk' (by assumption) ?_ | apply foldl_memOk
    | apply foldl_fst_memOk | apply foldl_okMem | apply okMem_ok | apply okMem_error | refine okMem_elim (by assumption) | intro _ _ _
    | intro _ _ | intro _ | dsimp only | split

theorem State.packetWrite_memOk' {s : State} {r : Requester} {p : BnetPacket} {t : State} {x1 : Option Status} (eqn : State.packetWrite s r p = (t, x1)) (hs : s.memOk) : t.memOk :=
  pair_memOk eqn (State.packetWrite_memOk s r p hs)

theorem State.errArrives_memOk (s : State) (i : Nat) (p : BnetPacket) (hs : s.memOk) : (State.errArrives s i p).memOk := by
  unfold State.errArrives
  with_reducible repeat' first
    | assumption | apply State.busMove_memOk | intro _ _ _ | intro _ _ | intro _ | dsimp only | split

theorem State.toEngine_memOk (s : State) (e : Nat) (p : BnetPacket) (hs : s.memOk) : (State.toEngine s e p).memOk := by
  unfold State.toEngine
  with_reducible repeat' first
    | assumption | apply State.pushMsg_memOk | apply ite_memOk | apply foldl_memOk | apply foldl_fst_memOk | apply foldl_okMem
    | apply okMem_ok | apply okMem_error | refine okMem_elim (by assumption) | intro _ _ _ | intro _ _ | intro _ | dsimp only | split

theorem State.errToEngine_memOk (s : State) (e : Nat) (p : BnetPacket) (hs : s.memOk) : (State.errToEngine s e p).memOk := by
  unfold State.errToEngine
  with_reducible repeat' first
    | assumption | apply State.pushMsg_memOk | apply ite_memOk | apply foldl_memOk | apply foldl_fst_memOk | apply foldl_okMem
    | apply okMem_ok | apply okMem_error | refine okMem_elim (by assumption) | intro _ _ _ | intro _ _ | intro _ | dsimp only | split

theorem State.noteLine_memOk (s : State) (q : Nat) (p : BnetPacket) (hs : s.memOk) : (State.noteLine s q p).memOk := by
  unfold State.noteLine
  with_reducible repeat' first
    | assumption | apply State.modSquare_memOk | apply ite_memOk | apply foldl_memOk | apply foldl_fst_memOk | apply foldl_okMem
    | apply okMem_ok | apply okMem_error | refine okMem_elim (by assumption) | intro _ _ _ | intro _ _ | intro _ | dsimp only | split

theorem State.serveHere_memOk (s : State) (q : Nat) (p : BnetPacket) (hs : s.memOk) : (State.serveHere s q p).memOk := by
  unfold State.serveHere
  with_reducible repeat' first
    | assumption | apply State.accessAt_memOk | refine State.accessAt_memOk' (by assumption) ?_ | apply State.bounce_memOk
    | apply State.bump_memOk | apply State.errArrives_memOk | apply State.errToEngine_memOk | apply State.injectBnet_memOk
    | apply State.packetWrite_memOk | refine State.packetWrite_memOk' (by assumption) ?_ | apply State.poolAck_memOk
    | apply State.poolData_memOk | apply State.pushMsg_memOk | apply State.sackFor_memOk | apply State.sendArrives_memOk
    | apply State.toEngine_memOk | apply ite_memOk | apply foldl_memOk | apply foldl_fst_memOk | apply foldl_okMem | apply okMem_ok
    | apply okMem_error | refine okMem_elim (by assumption) | intro _ _ _ | intro _ _ | intro _ | dsimp only | split

theorem State.deliver_memOk (s : State) (q : Nat) (p : BnetPacket) (hs : s.memOk) : (State.deliver s q p).memOk := by
  unfold State.deliver
  with_reducible repeat' first
    | assumption | apply State.bump_memOk | apply State.noteLine_memOk | apply State.serveHere_memOk | apply ite_memOk | apply foldl_memOk
    | apply foldl_fst_memOk | apply foldl_okMem | apply okMem_ok | apply okMem_error | refine okMem_elim (by assumption) | intro _ _ _
    | intro _ _ | intro _ | dsimp only | split

theorem State.takeCircuit_memOk (s : State) (q : Nat) (p : BnetPacket) (hs : s.memOk) : (State.takeCircuit s q p).memOk := by
  unfold State.takeCircuit
  with_reducible repeat' first
    | assumption | apply State.bounce_memOk | apply State.deliver_memOk | apply State.setCircuitQueue_memOk | apply ite_memOk
    | apply foldl_memOk | apply foldl_fst_memOk | apply foldl_okMem | apply okMem_ok | apply okMem_error | refine okMem_elim (by assumption)
    | intro _ _ _ | intro _ _ | intro _ | dsimp only | split

theorem State.carry_memOk (s : State) (q d : Nat) (p : BnetPacket) (hs : s.memOk) : (State.carry s q d p).memOk := by
  unfold State.carry
  with_reducible repeat' first
    | assumption | apply State.bounce_memOk | apply State.deliver_memOk | apply State.serveRouter_memOk | apply State.setBnetBuf_memOk
    | apply State.takeCircuit_memOk | apply ite_memOk | apply foldl_memOk | apply foldl_fst_memOk | apply foldl_okMem | apply okMem_ok
    | apply okMem_error | refine okMem_elim (by assumption) | intro _ _ _ | intro _ _ | intro _ | dsimp only | split

theorem State.fromPort_memOk (s : State) (q : Nat) (p : BnetPacket) (hs : s.memOk) : (State.fromPort s q p).memOk := by
  unfold State.fromPort
  with_reducible repeat' first
    | assumption | apply State.deliver_memOk | apply State.modSquare_memOk | apply State.serveRouter_memOk | apply State.takeCircuit_memOk
    | apply ite_memOk | apply foldl_memOk | apply foldl_fst_memOk | apply foldl_okMem | apply okMem_ok | apply okMem_error
    | refine okMem_elim (by assumption) | intro _ _ _ | intro _ _ | intro _ | dsimp only | split

theorem State.portCounts_memOk (s : State) (q : Nat) (hs : s.memOk) : (State.portCounts s q).memOk := by
  unfold State.portCounts
  with_reducible repeat' first
    | assumption | apply State.bump_memOk | apply State.draw_memOk | refine State.draw_memOk' (by assumption) ?_ | dsimp only | split

theorem State.bnetReceipt_memOk (s : State) (q d : Nat) (check : BitVec 32) (p : BnetPacket) (hs : s.memOk) : (State.bnetReceipt s q d check p).memOk := by
  unfold State.bnetReceipt
  with_reducible repeat' first
    | assumption | apply State.acknowledge_memOk | apply State.bounce_memOk | apply State.bump_memOk | apply State.carry_memOk
    | apply State.clearFails_memOk | apply State.fromPort_memOk | apply State.linkFailure_memOk | apply State.modSquare_memOk
    | apply State.portCounts_memOk | apply ite_memOk | apply foldl_memOk | apply foldl_fst_memOk | apply foldl_okMem | apply okMem_ok
    | apply okMem_error | refine okMem_elim (by assumption) | intro _ _ _ | intro _ _ | intro _ | dsimp only | split

theorem State.replayPacket_memOk (s : State) (q d : Nat) (p : BnetPacket) (hs : s.memOk) : (State.replayPacket s q d p).memOk := by
  unfold State.replayPacket
  with_reducible repeat' first
    | assumption | apply State.bump_memOk | apply State.modSquare_memOk | apply ite_memOk | apply foldl_memOk | apply foldl_fst_memOk
    | apply foldl_okMem | apply okMem_ok | apply okMem_error | refine okMem_elim (by assumption) | intro _ _ _ | intro _ _ | intro _
    | dsimp only | split

theorem State.replayLane_memOk (s : State) (q d lane : Nat) (hs : s.memOk) : (State.replayLane s q d lane).memOk := by
  unfold State.replayLane
  with_reducible repeat' first
    | assumption | apply State.modSquare_memOk | apply State.replayPacket_memOk | apply ite_memOk | apply foldl_memOk
    | apply foldl_fst_memOk | apply foldl_okMem | apply okMem_ok | apply okMem_error | refine okMem_elim (by assumption) | intro _ _ _
    | intro _ _ | intro _ | dsimp only | split

theorem State.replayTimeout_memOk (s : State) (q d lane : Nat) (hs : s.memOk) : (State.replayTimeout s q d lane).memOk := by
  unfold State.replayTimeout
  with_reducible repeat' first
    | assumption | apply State.linkFailure_memOk | apply State.replayPacket_memOk | apply ite_memOk | apply foldl_memOk
    | apply foldl_fst_memOk | apply foldl_okMem | apply okMem_ok | apply okMem_error | refine okMem_elim (by assumption) | intro _ _ _
    | intro _ _ | intro _ | dsimp only | split

theorem State.pushCircuit_memOk (s : State) (n : Nat) (m : LinkMsg) (hs : s.memOk) : (State.pushCircuit s n m).memOk := by
  unfold State.pushCircuit
  with_reducible repeat' first
    | assumption | apply State.modQuad_memOk | apply State.pushMsg_memOk | apply ite_memOk | apply foldl_memOk | apply foldl_fst_memOk
    | apply foldl_okMem | apply okMem_ok | apply okMem_error | refine okMem_elim (by assumption) | intro _ _ _ | intro _ _ | intro _
    | dsimp only | split

theorem State.circuitForward_memOk (s : State) (q : Nat) (c : Nat) (waited : Nat) (hs : s.memOk) : (State.circuitForward s q c waited).memOk := by
  unfold State.circuitForward
  with_reducible repeat' first
    | assumption | apply State.bump_memOk | apply State.pushCircuit_memOk | apply State.sendOver_memOk | apply State.serveRouter_memOk
    | apply State.setCircuitQueue_memOk | apply ite_memOk | apply foldl_memOk | apply foldl_fst_memOk | apply foldl_okMem | apply okMem_ok
    | apply okMem_error | refine okMem_elim (by assumption) | intro _ _ _ | intro _ _ | intro _ | dsimp only | split

theorem State.cnetAccess_memOk (s : State) (q : Nat) (p : CnetPacket) (data : Option (List Byte)) (hs : s.memOk) : (State.cnetAccess s q p data).memOk := by
  unfold State.cnetAccess
  with_reducible repeat' first
    | assumption | apply State.accessAt_memOk | refine State.accessAt_memOk' (by assumption) ?_ | apply State.injectCnet_memOk
    | apply ite_memOk | apply foldl_memOk | apply foldl_fst_memOk | apply foldl_okMem | apply okMem_ok | apply okMem_error
    | refine okMem_elim (by assumption) | intro _ _ _ | intro _ _ | intro _ | dsimp only | split

theorem State.probeAnswered_memOk (s : State) (src : Nat) (hs : s.memOk) : (State.probeAnswered s src).memOk := by
  unfold State.probeAnswered
  with_reducible repeat' first
    | assumption | apply State.modHost_memOk | intro _ _ _ | intro _ _ | intro _ | dsimp only | split

theorem State.ejectCnet_memOk (s : State) (q : Nat) (p : CnetPacket) (hs : s.memOk) : (State.ejectCnet s q p).memOk := by
  unfold State.ejectCnet
  with_reducible repeat' first
    | assumption | apply ite_memOk | apply State.bump_memOk | apply State.cnetAccess_memOk | apply State.doorbell_memOk
    | apply State.event_memOk | apply State.probeAnswered_memOk | apply State.report_memOk | apply State.sendMsi_memOk
    | apply State.storeTrace_memOk | dsimp only | split

theorem State.offWires_memOk (s : State) (q d : Nat) (p : CnetPacket) (hs : s.memOk) : (State.offWires s q d p).memOk := by
  unfold State.offWires
  with_reducible repeat' first
    | assumption | apply State.modSquare_memOk | apply ite_memOk | apply foldl_memOk | apply foldl_fst_memOk | apply foldl_okMem
    | apply okMem_ok | apply okMem_error | refine okMem_elim (by assumption) | intro _ _ _ | intro _ _ | intro _ | dsimp only | split

theorem State.cnetCarry_memOk (s : State) (q d : Nat) (p : CnetPacket) (hs : s.memOk) : (State.cnetCarry s q d p).memOk := by
  unfold State.cnetCarry
  with_reducible repeat' first
    | assumption | apply State.cnetServeRouter_memOk | apply State.ejectCnet_memOk | apply State.injectCnet_memOk
    | apply State.offWires_memOk | apply State.setCnetBuf_memOk | apply ite_memOk | apply foldl_memOk | apply foldl_fst_memOk
    | apply foldl_okMem | apply okMem_ok | apply okMem_error | refine okMem_elim (by assumption) | intro _ _ _ | intro _ _ | intro _
    | dsimp only | split

theorem State.cnetReceipt_memOk (s : State) (q d : Nat) (p : CnetPacket) (hs : s.memOk) : (State.cnetReceipt s q d p).memOk := by
  unfold State.cnetReceipt
  with_reducible repeat' first
    | assumption | apply State.bump_memOk | apply State.cnetCarry_memOk | apply State.ejectCnet_memOk | apply State.injectCnet_memOk
    | apply State.offWires_memOk | apply ite_memOk | apply foldl_memOk | apply foldl_fst_memOk | apply foldl_okMem | apply okMem_ok
    | apply okMem_error | refine okMem_elim (by assumption) | intro _ _ _ | intro _ _ | intro _ | dsimp only | split

theorem State.injectionRelease_memOk (s : State) (q waited : Nat) (hs : s.memOk) : (State.injectionRelease s q waited).memOk := by
  unfold State.injectionRelease
  with_reducible repeat' first
    | assumption | apply State.bump_memOk | refine State.cnetEnter_memOk (by assumption) ?_ | apply State.cnetServeRouter_memOk
    | apply State.modSquare_memOk | apply State.takeToken_memOk | apply ite_memOk | apply foldl_memOk | apply foldl_fst_memOk
    | apply foldl_okMem | apply okMem_ok | apply okMem_error | refine okMem_elim (by assumption) | intro _ _ _ | intro _ _ | intro _
    | dsimp only | split

theorem execBnetPacket_memOk {square link : Nat} {check : BitVec 32} {p : BnetPacket} {s : State} {u : State} (eqn : execBnetPacket square link check p s = .next u) (hs : s.memOk) : u.memOk := by
  unfold execBnetPacket at eqn
  cases eqn
  with_reducible repeat' first
    | assumption | apply State.bnetReceipt_memOk | apply ite_memOk | apply foldl_memOk | apply foldl_fst_memOk | apply foldl_okMem
    | apply okMem_ok | apply okMem_error | refine okMem_elim (by assumption) | intro _ _ _ | intro _ _ | intro _ | dsimp only | split

theorem execBnetNak_memOk {square link lane : Nat} {s : State} {u : State} (eqn : execBnetNak square link lane s = .next u) (hs : s.memOk) : u.memOk := by
  unfold execBnetNak at eqn
  cases eqn
  with_reducible repeat' first
    | assumption | apply State.replayLane_memOk | dsimp only

theorem execBnetReplayTimeout_memOk {square link lane : Nat} {s : State} {u : State} (eqn : execBnetReplayTimeout square link lane s = .next u) (hs : s.memOk) : u.memOk := by
  unfold execBnetReplayTimeout at eqn
  cases eqn
  with_reducible repeat' first
    | assumption | apply State.replayTimeout_memOk | dsimp only

theorem execCircuitForward_memOk {square : Nat} {circ : BitVec 8} {waited : BitVec 32} {s : State} {u : State} (eqn : execCircuitForward square circ waited s = .next u) (hs : s.memOk) : u.memOk := by
  unfold execCircuitForward at eqn
  cases eqn
  with_reducible repeat' first
    | assumption | apply State.circuitForward_memOk | dsimp only

theorem execCnetPacket_memOk {square link : Nat} {p : CnetPacket} {s : State} {u : State} (eqn : execCnetPacket square link p s = .next u) (hs : s.memOk) : u.memOk := by
  unfold execCnetPacket at eqn
  cases eqn
  with_reducible repeat' first
    | assumption | apply State.cnetReceipt_memOk | dsimp only

theorem execCnetInjectionRelease_memOk {square : Nat} {waited : BitVec 32} {s : State} {u : State} (eqn : execCnetInjectionRelease square waited s = .next u) (hs : s.memOk) : u.memOk := by
  unfold execCnetInjectionRelease at eqn
  cases eqn
  with_reducible repeat' first
    | assumption | apply State.injectionRelease_memOk | dsimp only

/-! Resets -/

theorem State.fillRegion_memOk (s : State) (r : Nat) (hs : s.memOk) : (State.fillRegion s r).memOk := by
  unfold State.fillRegion
  with_reducible repeat' first
    | assumption | apply State.fillLines_memOk | apply State.zeroRange_memOk | apply foldl_memOk | apply foldl_fst_memOk | intro _ _ _
    | intro _ _ | intro _ | dsimp only | split

theorem State.writeFences_memOk (s : State) (hs : s.memOk) : (State.writeFences s).memOk := by
  unfold State.writeFences
  with_reducible repeat' first
    | assumption | apply ite_memOk | apply State.setReg_memOk | apply foldl_memOk | apply foldl_fst_memOk | intro _ _ _ | intro _ _
    | intro _ | dsimp only | split

theorem State.writeTree_memOk (s : State) (p : Nat) (hs : s.memOk) : (State.writeTree s p).memOk := by
  unfold State.writeTree
  with_reducible repeat' first
    | assumption | apply ite_memOk | apply State.setReg_memOk | apply foldl_memOk | apply foldl_fst_memOk | intro _ _ _ | intro _ _
    | intro _ | dsimp only | split

theorem State.writeView_memOk (s : State) (p : Nat) (hs : s.memOk) : (State.writeView s p).memOk := by
  unfold State.writeView
  with_reducible repeat' first
    | assumption | apply State.setReg_memOk | dsimp only

theorem State.applySite_memOk (s : State) (enables : Bool) (i : Nat) (hs : s.memOk) : (State.applySite s enables i).memOk := by
  unfold State.applySite
  with_reducible repeat' first
    | assumption | apply State.setSiteState_memOk | apply ite_memOk | apply foldl_memOk | apply foldl_fst_memOk | apply foldl_okMem
    | apply okMem_ok | apply okMem_error | refine okMem_elim (by assumption) | intro _ _ _ | intro _ _ | intro _ | dsimp only | split

theorem State.openIfDisabled_memOk (s : State) (i : Nat) (hs : s.memOk) : (State.openIfDisabled s i).memOk := by
  unfold State.openIfDisabled
  with_reducible repeat' first
    | assumption | apply State.modDie_memOk | apply ite_memOk | apply foldl_memOk | apply foldl_fst_memOk | apply foldl_okMem
    | apply okMem_ok | apply okMem_error | refine okMem_elim (by assumption) | intro _ _ _ | intro _ _ | intro _ | dsimp only | split

theorem State.publishSam_memOk (s : State) (sites : List Nat) (hs : s.memOk) : (State.publishSam s sites).memOk := by
  unfold State.publishSam
  with_reducible repeat' first
    | assumption | apply State.applySite_memOk | apply State.openIfDisabled_memOk | apply State.reserve_memOk | apply State.setReg_memOk
    | apply ite_memOk | apply foldl_memOk | apply foldl_fst_memOk | apply foldl_okMem | apply okMem_ok | apply okMem_error
    | refine okMem_elim (by assumption) | intro _ _ _ | intro _ _ | intro _ | dsimp only | split

theorem State.selfTest_memOk (s : State) (i : Nat) (cells : List (Nat × Nat)) (hs : s.memOk) : (State.selfTest s i cells).memOk := by
  unfold State.selfTest
  with_reducible repeat' first
    | assumption | apply ite_memOk | apply State.modDie_memOk | apply State.setRowMap_memOk | apply foldl_memOk | apply foldl_fst_memOk
    | intro _ _ _ | intro _ _ | intro _ | dsimp only | split

theorem State.writeVsteps_memOk (s : State) (regions : List Nat) (found : List (Nat × BitVec 64)) (hs : s.memOk) : (State.writeVsteps s regions found).memOk := by
  unfold State.writeVsteps
  with_reducible repeat' first
    | assumption | apply State.setReg_memOk | apply ite_memOk | apply foldl_memOk | apply foldl_fst_memOk | apply foldl_okMem
    | apply okMem_ok | apply okMem_error | refine okMem_elim (by assumption) | intro _ _ _ | intro _ _ | intro _ | dsimp only | split

theorem State.firstRowMaps_memOk (s : State) (i : Nat) (hs : s.memOk) : (State.firstRowMaps s i).memOk := by
  unfold State.firstRowMaps
  with_reducible repeat' first
    | assumption | apply State.setRowMap_memOk | apply ite_memOk | apply foldl_memOk | apply foldl_fst_memOk | apply foldl_okMem
    | apply okMem_ok | apply okMem_error | refine okMem_elim (by assumption) | intro _ _ _ | intro _ _ | intro _ | dsimp only | split

theorem State.holdDie_memOk (s : State) (i : Nat) (hs : s.memOk) : (State.holdDie s i).memOk := by
  unfold State.holdDie
  with_reducible repeat' first
    | assumption | apply ite_memOk | apply State.event7F_memOk | apply State.modDie_memOk | apply State.setSiteOut_memOk | intro _ _ _
    | intro _ _ | intro _ | dsimp only | split

theorem State.calibrateDie_memOk (s : State) (i : Nat) (found : TestFindings) (hs : s.memOk) : (State.calibrateDie s i found).memOk := by
  unfold State.calibrateDie
  with_reducible repeat' first
    | assumption | apply ite_memOk | apply State.holdDie_memOk | apply State.setFlag_memOk | apply State.setReg_memOk | dsimp only | split

theorem State.calibrateHost_memOk (s : State) (h : Nat) (found : TestFindings) (hs : s.memOk) : (State.calibrateHost s h found).memOk := by
  unfold State.calibrateHost
  with_reducible repeat' first
    | assumption | apply ite_memOk | apply State.event7F_memOk | apply State.setField_memOk | apply State.setFlag_memOk | dsimp only | split

theorem State.calibrateStack_memOk (s : State) (k : Nat) (found : TestFindings) (hs : s.memOk) : (State.calibrateStack s k found).memOk := by
  unfold State.calibrateStack
  with_reducible repeat' first
    | assumption | apply State.event7FAny_memOk | apply ite_memOk | apply foldl_memOk | apply foldl_fst_memOk | apply foldl_okMem
    | apply okMem_ok | apply okMem_error | refine okMem_elim (by assumption) | intro _ _ _ | intro _ _ | intro _ | dsimp only | split

theorem State.countQuads_memOk (s : State) (hs : s.memOk) : (State.countQuads s).memOk := by
  unfold State.countQuads
  with_reducible repeat' first
    | assumption | apply State.setReg_memOk | apply foldl_memOk | apply foldl_fst_memOk | intro _ _ _ | intro _ _ | intro _ | dsimp only

theorem State.vacateQuad_memOk (s : State) (n : Nat) (sev : Severity) (hs : s.memOk) : (State.vacateQuad s n sev).memOk := by
  unfold State.vacateQuad
  with_reducible repeat' first
    | assumption | apply State.countQuads_memOk | apply State.event7F_memOk | apply State.modQuad_memOk | apply State.setField_memOk
    | intro _ _ _ | intro _ _ | intro _ | dsimp only

theorem State.vacateEngine_memOk (s : State) (e : Nat) (hs : s.memOk) : (State.vacateEngine s e).memOk := by
  unfold State.vacateEngine
  with_reducible repeat' first
    | assumption | apply State.vacateQuad_memOk | apply ite_memOk | apply foldl_memOk | apply foldl_fst_memOk | apply foldl_okMem
    | apply okMem_ok | apply okMem_error | refine okMem_elim (by assumption) | intro _ _ _ | intro _ _ | intro _ | dsimp only | split

theorem State.calibrateEngine_memOk (s : State) (e : Nat) (found : TestFindings) (hs : s.memOk) : (State.calibrateEngine s e found).memOk := by
  unfold State.calibrateEngine
  with_reducible repeat' first
    | assumption | apply State.vacateEngine_memOk | apply ite_memOk | apply foldl_memOk | apply foldl_fst_memOk | apply foldl_okMem
    | apply okMem_ok | apply okMem_error | refine okMem_elim (by assumption) | intro _ _ _ | intro _ _ | intro _ | dsimp only | split

theorem State.calibrateParts_memOk (s : State) (dram hosts engines : List Nat) (found : TestFindings) (hs : s.memOk) : (State.calibrateParts s dram hosts engines found).memOk := by
  unfold State.calibrateParts
  with_reducible repeat' first
    | assumption | apply State.calibrateEngine_memOk | apply State.calibrateHost_memOk | apply State.calibrateStack_memOk | apply ite_memOk
    | apply foldl_memOk | apply foldl_fst_memOk | apply foldl_okMem | apply okMem_ok | apply okMem_error | refine okMem_elim (by assumption)
    | intro _ _ _ | intro _ _ | intro _ | dsimp only | split

theorem State.degradeStack_memOk (s : State) (k : Nat) (sev : Severity) (hs : s.memOk) : (State.degradeStack s k sev).memOk := by
  unfold State.degradeStack
  with_reducible repeat' first
    | assumption | apply State.event7F_memOk | apply State.setFlag_memOk | dsimp only

theorem State.clearLinks_memOk (s : State) (squares : List Nat) (q : Nat) (hs : s.memOk) : (State.clearLinks s squares q).memOk := by
  unfold State.clearLinks
  with_reducible repeat' first
    | assumption | apply State.setFlag_memOk | apply ite_memOk | apply foldl_memOk | apply foldl_fst_memOk | apply foldl_okMem
    | apply okMem_ok | apply okMem_error | refine okMem_elim (by assumption) | intro _ _ _ | intro _ _ | intro _ | dsimp only | split

theorem State.testLinks_memOk (s : State) (squares : List Nat) (found : TestFindings) (hs : s.memOk) : (State.testLinks s squares found).memOk := by
  unfold State.testLinks
  with_reducible repeat' first
    | assumption | apply State.clearLinks_memOk | apply State.degradeStack_memOk | apply State.event7F_memOk | apply State.failLink_memOk
    | apply State.setFlag_memOk | apply State.setReg_memOk | apply State.vacateEngine_memOk | apply ite_memOk | apply foldl_memOk
    | apply foldl_fst_memOk | apply foldl_okMem | apply okMem_ok | apply okMem_error | refine okMem_elim (by assumption) | intro _ _ _
    | intro _ _ | intro _ | dsimp only | split

theorem State.resetDie_memOk (s : State) (i : Nat) (hs : s.memOk) : (State.resetDie s i).memOk := by
  unfold State.resetDie
  with_reducible repeat' first
    | assumption | apply State.bump_memOk | apply State.injectBnet_memOk | apply State.modSquare_memOk | apply State.setArrival_memOk
    | apply State.setDie_memOk | apply State.setField_memOk | apply State.setReg_memOk | apply State.zeroRange_memOk | apply ite_memOk
    | apply foldl_memOk | apply foldl_fst_memOk | apply foldl_okMem | apply okMem_ok | apply okMem_error | refine okMem_elim (by assumption)
    | intro _ _ _ | intro _ _ | intro _ | dsimp only | split

theorem State.stopHost_memOk (s : State) (h : Nat) (hs : s.memOk) : (State.stopHost s h).memOk := by
  unfold State.stopHost
  with_reducible repeat' first
    | assumption | apply State.bump_memOk | apply State.setField_memOk | apply State.setHost_memOk | apply State.setReg_memOk
    | apply foldl_memOk | apply foldl_fst_memOk | intro _ _ _ | intro _ _ | intro _ | dsimp only

theorem State.releaseHost_memOk (s : State) (p h : Nat) (hs : s.memOk) : (State.releaseHost s p h).1.memOk := by
  unfold State.releaseHost
  with_reducible repeat' first
    | assumption | apply ite_memOk | apply State.event7F_memOk | apply State.modHost_memOk | apply State.setField_memOk | intro _ _ _
    | intro _ _ | intro _ | dsimp only | split

theorem State.releaseHost_memOk' {s : State} {p h : Nat} {t : State} {x1 : Bool} (eqn : State.releaseHost s p h = (t, x1)) (hs : s.memOk) : t.memOk :=
  pair_memOk eqn (State.releaseHost_memOk s p h hs)

theorem State.setRing0_memOk (s : State) (p : Nat) (hs : s.memOk) : (State.setRing0 s p).memOk := by
  unfold State.setRing0
  with_reducible repeat' first
    | assumption | apply ite_memOk | apply State.setField_memOk | dsimp only | split

theorem State.finishTurn_memOk (s : State) (p cause : Nat) (hs : s.memOk) : (State.finishTurn s p cause).memOk := by
  unfold State.finishTurn
  with_reducible repeat' first
    | assumption | apply ite_memOk | apply State.abortTurn_memOk | apply State.beginChangeover_memOk | apply State.contextWork_memOk
    | apply State.endTurns_memOk | apply State.stopTurns_memOk | dsimp only | split

/-! Quads -/

theorem State.startTraining_memOk (s : State) (n : Nat) (hs : s.memOk) : (State.startTraining s n).memOk := by
  unfold State.startTraining
  with_reducible repeat' first
    | assumption | apply State.bump_memOk | apply State.modQuad_memOk | apply State.setField_memOk | apply ite_memOk | apply foldl_memOk
    | apply foldl_fst_memOk | apply foldl_okMem | apply okMem_ok | apply okMem_error | refine okMem_elim (by assumption) | intro _ _ _
    | intro _ _ | intro _ | dsimp only | split

theorem State.answerRetrains_memOk (s : State) (n : Nat) (st : Status) (hs : s.memOk) : (State.answerRetrains s n st).memOk := by
  unfold State.answerRetrains
  with_reducible repeat' first
    | assumption | apply State.complete_memOk | apply State.modQuad_memOk | apply foldl_memOk | apply foldl_fst_memOk | intro _ _ _
    | intro _ _ | intro _ | dsimp only

theorem State.bringUp_memOk (s : State) (n : Nat) (hs : s.memOk) : (State.bringUp s n).memOk := by
  unfold State.bringUp
  with_reducible repeat' first
    | assumption | apply ite_memOk | apply State.answerRetrains_memOk | apply State.bump_memOk | apply State.countQuads_memOk
    | apply State.modQuad_memOk | apply State.setField_memOk | apply foldl_okMem | apply okMem_ok | apply okMem_error
    | refine okMem_elim (by assumption) | intro _ _ _ | intro _ _ | intro _ | dsimp only | split

theorem State.failAttempt_memOk (s : State) (n : Nat) (hs : s.memOk) : (State.failAttempt s n).memOk := by
  unfold State.failAttempt
  with_reducible repeat' first
    | assumption | apply ite_memOk | apply State.answerRetrains_memOk | apply State.setField_memOk | apply State.startTraining_memOk
    | apply State.vacateQuad_memOk | dsimp only | split

theorem State.leaveUp_memOk (s : State) (n : Nat) (hs : s.memOk) : (State.leaveUp s n).memOk := by
  unfold State.leaveUp
  with_reducible repeat' first
    | assumption | apply State.markReached_memOk | apply State.modQuad_memOk | apply State.startTraining_memOk | apply ite_memOk
    | apply foldl_memOk | apply foldl_fst_memOk | apply foldl_okMem | apply okMem_ok | apply okMem_error | refine okMem_elim (by assumption)
    | intro _ _ _ | intro _ _ | intro _ | dsimp only | split

theorem State.spanLost_memOk (s : State) (p : Nat) (hs : s.memOk) : (State.spanLost s p).memOk := by
  unfold State.spanLost
  with_reducible repeat' first
    | assumption | apply State.abortTurn_memOk | apply State.fencePartition_memOk | dsimp only

theorem State.spanQuadLost_memOk (s : State) (n : Nat) (hs : s.memOk) : (State.spanQuadLost s n).memOk := by
  unfold State.spanQuadLost
  with_reducible repeat' first
    | assumption | apply ite_memOk | apply State.safetyAt_memOk | apply State.spanLost_memOk | apply State.tellMembers_memOk | dsimp only
    | split

theorem State.quadDown_memOk (s : State) (n : Nat) (hs : s.memOk) : (State.quadDown s n).memOk := by
  unfold State.quadDown
  with_reducible repeat' first
    | assumption | apply ite_memOk | apply State.leaveUp_memOk | apply State.setField_memOk | apply State.spanQuadLost_memOk | dsimp only
    | split

theorem State.retrainQuad_memOk (s : State) (n : Nat) (hs : s.memOk) : (State.retrainQuad s n).memOk := by
  unfold State.retrainQuad
  with_reducible repeat' first
    | assumption | apply ite_memOk | apply State.leaveUp_memOk | apply State.modQuad_memOk | apply State.preemptTurn_memOk | intro _ _ _
    | intro _ _ | intro _ | dsimp only | split

/-! Partitions -/

theorem State.firstRegisters_memOk (s : State) (p : Nat) (hs : s.memOk) : (State.firstRegisters s p).memOk := by
  unfold State.firstRegisters
  with_reducible repeat' first
    | assumption | apply State.countStreams_memOk | apply State.countTails_memOk | apply State.setBoth_memOk | apply State.setField_memOk
    | apply State.setReg_memOk | apply foldl_memOk | apply foldl_fst_memOk | intro _ _ _ | intro _ _ | intro _ | dsimp only

theorem State.formPartition_memOk (s : State) (regions : BitVec 16) (p : Nat) (headless : Bool) (found : TestFindings) (test : Bool) (hs : s.memOk) : (State.formPartition s regions p headless found test).memOk := by
  unfold State.formPartition
  with_reducible repeat' first
    | assumption | apply State.fillRegion_memOk | apply State.firstRegisters_memOk | apply State.modDie_memOk
    | apply State.releaseHost_memOk | refine State.releaseHost_memOk' (by assumption) ?_ | apply State.selfTest_memOk
    | apply State.setReg_memOk | apply State.setRing0_memOk | apply State.startTurns_memOk | apply State.writeFences_memOk
    | apply State.writeOcLimits_memOk | apply State.writeTree_memOk | apply State.writeView_memOk | apply State.writeVsteps_memOk
    | apply ite_memOk | apply foldl_memOk | apply foldl_fst_memOk | apply foldl_okMem | apply okMem_ok | apply okMem_error
    | refine okMem_elim (by assumption) | intro _ _ _ | intro _ _ | intro _ | dsimp only | split

theorem State.recordPartition_memOk (s : State) (p : Nat) (entry : Option (BitVec 16 × Bool)) (hs : s.memOk) : (State.recordPartition s p entry).memOk := by
  unfold State.recordPartition
  with_reducible repeat' first
    | assumption | intro _ _ _ | intro _ _ | intro _ | dsimp only | split

theorem State.partitionForm_memOk (s : State) (c : Cmd) (regions : BitVec 16) (number headless : BitVec 8) (found : TestFindings) (hs : s.memOk) : (State.partitionForm s c regions number headless found).memOk := by
  unfold State.partitionForm
  with_reducible repeat' first
    | assumption | apply State.complete_memOk | apply State.formPartition_memOk | apply State.recordPartition_memOk | apply State.take_memOk
    | apply foldl_okMem | apply okMem_ok | apply okMem_error | refine okMem_elim (by assumption) | intro _ _ _ | intro _ _ | intro _
    | dsimp only | split

theorem State.unassign_memOk (s : State) (p : Nat) (hs : s.memOk) : (State.unassign s p).memOk := by
  unfold State.unassign
  with_reducible repeat' first
    | assumption | apply State.fillRegion_memOk | apply State.setBoth_memOk | apply State.setDie_memOk | apply State.setPart_memOk
    | apply State.setRing_memOk | apply State.writeFences_memOk | apply State.writeOcLimits_memOk | apply ite_memOk | apply foldl_memOk
    | apply foldl_fst_memOk | apply foldl_okMem | apply okMem_ok | apply okMem_error | refine okMem_elim (by assumption) | intro _ _ _
    | intro _ _ | intro _ | dsimp only | split

theorem State.partitionDissolve_memOk (s : State) (c : Cmd) (hs : s.memOk) : (State.partitionDissolve s c).memOk := by
  unfold State.partitionDissolve
  with_reducible repeat' first
    | assumption | apply ite_memOk | apply State.complete_memOk | apply State.endBook_memOk | apply State.finishTurn_memOk
    | apply State.recordPartition_memOk | apply State.setFlag_memOk | apply State.stopHost_memOk | apply State.take_memOk
    | apply State.unassign_memOk | apply foldl_memOk | apply foldl_fst_memOk | apply foldl_okMem | apply okMem_ok | apply okMem_error
    | refine okMem_elim (by assumption) | intro _ _ _ | intro _ _ | intro _ | dsimp only | split

theorem State.busyCommands_memOk (s : State) (p : Nat) (hs : s.memOk) : (State.busyCommands s p).memOk := by
  unfold State.busyCommands
  with_reducible repeat' first
    | assumption | apply ite_memOk | apply State.complete_memOk | apply State.endLoad_memOk | apply State.modPart_memOk | apply foldl_memOk
    | apply foldl_fst_memOk | intro _ _ _ | intro _ _ | intro _ | dsimp only | split

theorem State.endHalts_memOk (s : State) (p : Nat) (hs : s.memOk) : (State.endHalts s p).memOk := by
  unfold State.endHalts
  with_reducible repeat' first
    | assumption | apply State.endSession_memOk | apply State.setReg_memOk | dsimp only

theorem State.liftFences_memOk (s : State) (p : Nat) (full : Bool) (found : TestFindings) (hs : s.memOk) : (State.liftFences s p full found).memOk := by
  unfold State.liftFences
  with_reducible repeat' first
    | assumption | apply State.liftRegion_memOk | apply State.setFlag_memOk | apply State.setReg_memOk | apply State.setSiteOut_memOk
    | apply ite_memOk | apply foldl_memOk | apply foldl_fst_memOk | apply foldl_okMem | apply okMem_ok | apply okMem_error
    | refine okMem_elim (by assumption) | intro _ _ _ | intro _ _ | intro _ | dsimp only | split

theorem State.reloadBook_memOk (s : State) (p : Nat) (c : Cmd) (hs : s.memOk) : (State.reloadBook s p c).1.memOk := by
  unfold State.reloadBook
  with_reducible repeat' first
    | assumption | apply ite_memOk | apply State.endBook_memOk | apply State.enterMap_memOk | apply State.installBook_memOk
    | apply State.modPart_memOk | apply State.sendSpanConfirm_memOk | apply State.setBoth_memOk | apply State.setFlag_memOk
    | apply State.setReg_memOk | apply foldl_memOk | apply foldl_fst_memOk | apply foldl_okMem | apply okMem_ok | apply okMem_error
    | refine okMem_elim (by assumption) | intro _ _ _ | intro _ _ | intro _ | dsimp only | split

theorem State.reloadBook_memOk' {s : State} {p : Nat} {c : Cmd} {t : State} {x1 : Option Status} (eqn : State.reloadBook s p c = (t, x1)) (hs : s.memOk) : t.memOk :=
  pair_memOk eqn (State.reloadBook_memOk s p c hs)

theorem State.resetDies_memOk (s : State) (p : Nat) (full : Bool) (found : TestFindings) (hs : s.memOk) : (State.resetDies s p full found).memOk := by
  unfold State.resetDies
  with_reducible repeat' first
    | assumption | apply State.calibrateDie_memOk | apply State.calibrateParts_memOk | apply State.flushHsc_memOk
    | apply State.flushSlice_memOk | apply State.liftFences_memOk | apply State.modDie_memOk | apply State.publishSam_memOk
    | apply State.resetDie_memOk | apply State.selfTest_memOk | apply State.testLinks_memOk | apply State.writeOcLimits_memOk
    | apply State.writeView_memOk | apply State.writeVsteps_memOk | apply ite_memOk | apply foldl_memOk | apply foldl_fst_memOk
    | apply foldl_okMem | apply okMem_ok | apply okMem_error | refine okMem_elim (by assumption) | intro _ _ _ | intro _ _ | intro _
    | dsimp only | split

theorem State.unfence_memOk (s : State) (p : Nat) (hs : s.memOk) : (State.unfence s p).memOk := by
  unfold State.unfence
  with_reducible repeat' first
    | assumption | apply State.fencePartition_memOk | apply State.setField_memOk | apply State.setFlag_memOk | apply ite_memOk
    | apply foldl_memOk | apply foldl_fst_memOk | apply foldl_okMem | apply okMem_ok | apply okMem_error | refine okMem_elim (by assumption)
    | intro _ _ _ | intro _ _ | intro _ | dsimp only | split

theorem State.tellAbort_memOk (s : State) (p : Nat) (hs : s.memOk) : (State.tellAbort s p).memOk := by
  unfold State.tellAbort
  with_reducible repeat' first
    | assumption | apply ite_memOk | apply State.tellMembers_memOk | dsimp only | split

theorem State.partitionReset_memOk (s : State) (p : Nat) (c : Cmd) (full : Bool) (found : TestFindings) (hs : s.memOk) : (State.partitionReset s p c full found).memOk := by
  unfold State.partitionReset
  with_reducible repeat' first
    | assumption | apply State.busyCommands_memOk | apply State.completeReset_memOk | apply State.completeZeroed_memOk
    | apply State.endHalts_memOk | apply State.finishTurn_memOk | apply State.modPart_memOk | apply State.releaseHost_memOk
    | refine State.releaseHost_memOk' (by assumption) ?_ | apply State.reloadBook_memOk | refine State.reloadBook_memOk' (by assumption) ?_
    | apply State.resetDies_memOk | apply State.setRing0_memOk | apply State.startTurns_memOk | apply State.stopHost_memOk
    | apply State.tellAbort_memOk | apply State.unfence_memOk | apply ite_memOk | apply foldl_memOk | apply foldl_fst_memOk
    | apply foldl_okMem | apply okMem_ok | apply okMem_error | refine okMem_elim (by assumption) | intro _ _ _ | intro _ _ | intro _
    | dsimp only | split

theorem State.computeReset_memOk (s : State) (c : Cmd) (found : TestFindings) (hs : s.memOk) : (State.computeReset s c found).memOk := by
  unfold State.computeReset
  with_reducible repeat' first
    | assumption | apply ite_memOk | apply State.complete_memOk | apply State.partitionReset_memOk | apply State.take_memOk | intro _ _ _
    | intro _ _ | intro _ | dsimp only | split

theorem State.fullReset_memOk (s : State) (c : Cmd) (found : TestFindings) (hs : s.memOk) : (State.fullReset s c found).memOk := by
  unfold State.fullReset
  with_reducible repeat' first
    | assumption | apply ite_memOk | apply State.complete_memOk | apply State.partitionReset_memOk | apply State.take_memOk | intro _ _ _
    | intro _ _ | intro _ | dsimp only | split

theorem State.hostReset_memOk (s : State) (c : Cmd) (die : BitVec 8) (found : TestFindings) (hs : s.memOk) : (State.hostReset s c die found).memOk := by
  unfold State.hostReset
  with_reducible repeat' first
    | assumption | apply State.bump_memOk | apply State.calibrateHost_memOk | apply State.complete_memOk | apply State.releaseHost_memOk
    | refine State.releaseHost_memOk' (by assumption) ?_ | apply State.stopHost_memOk | apply State.take_memOk | apply ite_memOk
    | apply foldl_memOk | apply foldl_fst_memOk | apply foldl_okMem | apply okMem_ok | apply okMem_error | refine okMem_elim (by assumption)
    | intro _ _ _ | intro _ _ | intro _ | dsimp only | split

theorem State.zeroUnit_memOk (s : State) (q u : Nat) (hs : s.memOk) : (State.zeroUnit s q u).memOk := by
  unfold State.zeroUnit
  with_reducible repeat' first
    | assumption | apply State.zeroRange_memOk | intro _ _ _ | intro _ _ | intro _ | dsimp only

/-! Recorder -/

theorem State.hardwareSafety_memOk (s : State) (r : Report) (hs : s.memOk) : (State.hardwareSafety s r).memOk := by
  unfold State.hardwareSafety
  with_reducible repeat' first
    | assumption | apply State.accept_memOk | apply State.keepRecord_memOk | apply State.modRecorder_memOk | apply State.report_memOk
    | apply ite_memOk | apply foldl_memOk | apply foldl_fst_memOk | apply foldl_okMem | apply okMem_ok | apply okMem_error
    | refine okMem_elim (by assumption) | intro _ _ _ | intro _ _ | intro _ | dsimp only | split

theorem State.numberKept_memOk (s : State) (hs : s.memOk) : (State.numberKept s).memOk := by
  unfold State.numberKept
  with_reducible repeat' first
    | assumption | apply State.modRecorder_memOk | apply State.numberRecord_memOk | apply State.report_memOk | apply foldl_memOk
    | apply foldl_fst_memOk | intro _ _ _ | intro _ _ | intro _ | dsimp only | split

theorem State.drainIntake_memOk (s : State) (hs : s.memOk) : (State.drainIntake s).memOk := by
  unfold State.drainIntake
  with_reducible repeat' first
    | assumption | apply State.modRecorder_memOk | apply State.record_memOk | apply foldl_memOk | apply foldl_fst_memOk | intro _ _ _
    | intro _ _ | intro _ | dsimp only

theorem State.logLoss_memOk (s : State) (power intake flash : Nat) (hs : s.memOk) : (State.logLoss s power intake flash).memOk := by
  unfold State.logLoss
  with_reducible repeat' first
    | assumption | apply State.event_memOk | dsimp only

theorem execEventReport_memOk {r : Report} {s : State} {u : State} (eqn : execEventReport r s = .next u) (hs : s.memOk) : u.memOk := by
  unfold execEventReport at eqn
  cases eqn
  with_reducible repeat' first
    | assumption | apply State.report_memOk | apply State.take_memOk | dsimp only

theorem State.finishFlush_memOk (s : State) (hs : s.memOk) : (State.finishFlush s).memOk := by
  unfold State.finishFlush
  with_reducible repeat' first
    | assumption | apply State.beginFlush_memOk | apply State.bump_memOk | apply State.countUnflushed_memOk | apply State.logLoss_memOk
    | apply State.logRecord_memOk | apply State.modRecorder_memOk | apply State.releaseAlert_memOk | apply State.setFlag_memOk
    | apply ite_memOk | apply foldl_memOk | apply foldl_fst_memOk | apply foldl_okMem | apply okMem_ok | apply okMem_error
    | refine okMem_elim (by assumption) | intro _ _ _ | intro _ _ | intro _ | dsimp only | split

theorem State.failFlush_memOk (s : State) (hs : s.memOk) : (State.failFlush s).memOk := by
  unfold State.failFlush
  with_reducible repeat' first
    | assumption | apply ite_memOk | apply State.alert_memOk | apply State.modRecorder_memOk | apply State.setFlag_memOk | intro _ _ _
    | intro _ _ | intro _ | dsimp only | split

theorem execFlush_memOk {s : State} {u : State} (eqn : execFlush s = .next u) (hs : s.memOk) : u.memOk := by
  unfold execFlush at eqn
  cases eqn
  with_reducible repeat' first
    | assumption | apply State.beginFlush_memOk | dsimp only

theorem execFlushComplete_memOk {good : Bool} {s : State} {u : State} (eqn : execFlushComplete good s = .next u) (hs : s.memOk) : u.memOk := by
  unfold execFlushComplete at eqn
  cases eqn
  with_reducible repeat' first
    | assumption | apply ite_memOk | apply State.failFlush_memOk | apply State.finishFlush_memOk | dsimp only | split

theorem execFlashFailRetry_memOk {good : Bool} {s : State} {u : State} (eqn : execFlashFailRetry good s = .next u) (hs : s.memOk) : u.memOk := by
  unfold execFlashFailRetry at eqn
  cases eqn
  with_reducible repeat' first
    | assumption | apply ite_memOk | apply State.beginFlush_memOk | apply State.failFlush_memOk | apply State.finishFlush_memOk
    | apply State.modRecorder_memOk | intro _ _ _ | intro _ _ | intro _ | dsimp only | split

theorem execRateWindowClose_memOk {code : BitVec 16} {part : BitVec 4} {s : State} {u : State} (eqn : execRateWindowClose code part s = .next u) (hs : s.memOk) : u.memOk := by
  unfold execRateWindowClose at eqn
  cases eqn
  with_reducible repeat' first
    | assumption | apply ite_memOk | apply State.modRecorder_memOk | apply State.report_memOk | intro _ _ _ | intro _ _ | intro _
    | dsimp only | split

theorem execOpsecSecond_memOk {s : State} {u : State} (eqn : execOpsecSecond s = .next u) (hs : s.memOk) : u.memOk := by
  unfold execOpsecSecond at eqn
  cases eqn
  with_reducible repeat' first
    | assumption | apply ite_memOk | apply State.logLoss_memOk | apply State.modRecorder_memOk | apply State.setReg_memOk | intro _ _ _
    | intro _ _ | intro _ | dsimp only | split

theorem State.freeze_memOk (s : State) (by_ : CmdPath) (hs : s.memOk) : (State.freeze s by_).memOk := by
  unfold State.freeze
  with_reducible repeat' first
    | assumption | apply State.modRecorder_memOk | apply State.setFlag_memOk | intro _ _ _ | intro _ _ | intro _ | dsimp only

theorem State.thaw_memOk (s : State) (hs : s.memOk) : (State.thaw s).memOk := by
  unfold State.thaw
  split
  · exact hs
  · extract_lets side s1 s2
    have h1 : s1.memOk := State.setFlag_memOk _ _ _ _ _ _ (State.modRecorder_memOk _ _ hs)
    clear_value s1
    have h2 : s2.memOk := @foldl_memOk Record State.enterRing side s1 State.enterRing_memOk h1
    clear_value s2
    split
    · exact State.beginFlush_memOk _ h2
    · exact h2

theorem execFreezeTimeout_memOk {s : State} {u : State} (eqn : execFreezeTimeout s = .next u) (hs : s.memOk) : u.memOk := by
  unfold execFreezeTimeout at eqn
  cases eqn
  with_reducible repeat' first
    | assumption | apply State.thaw_memOk | dsimp only

theorem State.logFreeze_memOk (s : State) (c : Cmd) (hs : s.memOk) : (State.logFreeze s c).memOk := by
  unfold State.logFreeze
  with_reducible repeat' first
    | assumption | apply ite_memOk | apply State.complete_memOk | apply State.freeze_memOk | apply State.take_memOk | apply foldl_okMem
    | apply okMem_ok | apply okMem_error | refine okMem_elim (by assumption) | intro _ _ _ | intro _ _ | intro _ | dsimp only | split

theorem State.logThaw_memOk (s : State) (c : Cmd) (hs : s.memOk) : (State.logThaw s c).memOk := by
  unfold State.logThaw
  with_reducible repeat' first
    | assumption | apply ite_memOk | apply State.complete_memOk | apply State.take_memOk | apply State.thaw_memOk | apply foldl_okMem
    | apply okMem_ok | apply okMem_error | refine okMem_elim (by assumption) | intro _ _ _ | intro _ _ | intro _ | dsimp only | split

theorem State.logRead_memOk (s : State) (c : Cmd) (dest : Word) (first max : BitVec 32) (hs : s.memOk) : (State.logRead s c dest first max).memOk := by
  unfold State.logRead
  with_reducible repeat' first
    | assumption | apply State.complete_memOk | apply State.draw_memOk | refine State.draw_memOk' (by assumption) ?_
    | apply State.hostWrite_memOk | apply State.take_memOk | apply foldl_okMem | apply okMem_ok | apply okMem_error
    | refine okMem_elim (by assumption) | intro _ _ _ | intro _ _ | intro _ | dsimp only | split

theorem State.logClearKeep_memOk (s : State) (c : Cmd) (hs : s.memOk) : (State.logClearKeep s c).memOk := by
  unfold State.logClearKeep
  with_reducible repeat' first
    | assumption | apply State.complete_memOk | apply State.modRecorder_memOk | apply State.setField_memOk | apply State.setFlag_memOk
    | apply State.take_memOk | apply foldl_okMem | apply okMem_ok | apply okMem_error | refine okMem_elim (by assumption) | intro _ _ _
    | intro _ _ | intro _ | dsimp only

theorem State.logRate_memOk (s : State) (c : Cmd) (code rate : BitVec 16) (hs : s.memOk) : (State.logRate s c code rate).memOk := by
  unfold State.logRate
  with_reducible repeat' first
    | assumption | apply ite_memOk | apply State.complete_memOk | apply State.modRecorder_memOk | apply State.take_memOk | apply foldl_okMem
    | apply okMem_ok | apply okMem_error | refine okMem_elim (by assumption) | intro _ _ _ | intro _ _ | intro _ | dsimp only | split

/-! DeviceMail -/

theorem State.setSlot_memOk (s : State) (b : Bool) (v : ImageSlot) (hs : s.memOk) : (State.setSlot s b v).memOk := by
  unfold State.setSlot
  with_reducible repeat' first
    | assumption | apply ite_memOk | dsimp only | split

theorem State.fwStage_memOk (s : State) (c : Cmd) (addr : Word) (len : BitVec 32) (hs : s.memOk) : (State.fwStage s c addr len).memOk := by
  unfold State.fwStage
  with_reducible repeat' first
    | assumption | apply ite_memOk | apply State.complete_memOk | apply State.hostRead_memOk
    | refine State.hostRead_memOk' (by assumption) ?_ | apply State.setSlot_memOk | apply State.take_memOk | apply foldl_okMem
    | apply okMem_ok | apply okMem_error | refine okMem_elim (by assumption) | intro _ _ _ | intro _ _ | intro _ | dsimp only | split

theorem State.linkStatus_memOk (s : State) (c : Cmd) (quad : BitVec 8) (hs : s.memOk) : (State.linkStatus s c quad).memOk := by
  unfold State.linkStatus
  with_reducible repeat' first
    | assumption | apply State.complete_memOk | apply State.take_memOk | apply foldl_okMem | apply okMem_ok | apply okMem_error
    | refine okMem_elim (by assumption) | intro _ _ _ | intro _ _ | intro _ | dsimp only

theorem State.linkRetrain_memOk (s : State) (c : Cmd) (quad : BitVec 8) (hs : s.memOk) : (State.linkRetrain s c quad).memOk := by
  unfold State.linkRetrain
  with_reducible repeat' first
    | assumption | apply State.complete_memOk | apply State.modQuad_memOk | apply State.retrainQuad_memOk | apply State.take_memOk
    | apply ite_memOk | apply foldl_memOk | apply foldl_fst_memOk | apply foldl_okMem | apply okMem_ok | apply okMem_error
    | refine okMem_elim (by assumption) | intro _ _ _ | intro _ _ | intro _ | dsimp only | split

theorem State.roleSet_memOk (s : State) (c : Cmd) (quad role : BitVec 8) (module : BitVec 16) (hs : s.memOk) : (State.roleSet s c quad role module).memOk := by
  unfold State.roleSet
  with_reducible repeat' first
    | assumption | apply State.complete_memOk | apply State.take_memOk | apply foldl_okMem | apply okMem_ok | apply okMem_error
    | refine okMem_elim (by assumption) | intro _ _ _ | intro _ _ | intro _ | dsimp only

theorem State.moduleSet_memOk (s : State) (c : Cmd) (role : BitVec 8) (module : BitVec 16) (hs : s.memOk) : (State.moduleSet s c role module).memOk := by
  unfold State.moduleSet
  with_reducible repeat' first
    | assumption | apply State.complete_memOk | apply State.take_memOk | apply foldl_okMem | apply okMem_ok | apply okMem_error
    | refine okMem_elim (by assumption) | intro _ _ _ | intro _ _ | intro _ | dsimp only

theorem State.debugChallenge_memOk (s : State) (c : Cmd) (hs : s.memOk) : (State.debugChallenge s c).memOk := by
  unfold State.debugChallenge
  with_reducible repeat' first
    | assumption | apply ite_memOk | apply State.complete_memOk | apply State.modPart_memOk | apply State.take_memOk | apply foldl_okMem
    | apply okMem_ok | apply okMem_error | refine okMem_elim (by assumption) | intro _ _ _ | intro _ _ | intro _ | dsimp only | split

theorem State.debugRespond_memOk (s : State) (c : Cmd) (response : BitVec 384) (hs : s.memOk) : (State.debugRespond s c response).memOk := by
  unfold State.debugRespond
  apply State.take_memOk
  · exact hs
  · intro t s hs
    extract_lets q right ring s1
    have h1 : s1.memOk := State.modPart_memOk _ _ _ hs
    clear_value s1
    refine ite_memOk ?_ ?_
    · apply State.complete_memOk
      apply State.modPart_memOk
      exact State.setReg_memOk _ _ _ _ _ h1
    · apply State.complete_memOk
      apply State.eventStatus_memOk
      exact State.modPart_memOk _ _ _ h1

theorem State.askHalt_memOk (s : State) (i : Nat) (waits : Bool) (hs : s.memOk) : (State.askHalt s i waits).memOk := by
  unfold State.askHalt
  with_reducible repeat' first
    | assumption | apply ite_memOk | apply State.haltRook_memOk | apply State.modDie_memOk | intro _ _ _ | intro _ _ | intro _ | dsimp only
    | split

theorem State.resumeGrace_memOk (s : State) (p : Nat) (hs : s.memOk) : (State.resumeGrace s p).memOk := by
  unfold State.resumeGrace
  with_reducible repeat' first
    | assumption | apply State.modDie_memOk | apply State.modPart_memOk | apply ite_memOk | apply foldl_memOk | apply foldl_fst_memOk
    | apply foldl_okMem | apply okMem_ok | apply okMem_error | refine okMem_elim (by assumption) | intro _ _ _ | intro _ _ | intro _
    | dsimp only | split

theorem State.leavePause_memOk (s : State) (p : Nat) (hs : s.memOk) : (State.leavePause s p).memOk := by
  unfold State.leavePause
  with_reducible repeat' first
    | assumption | apply State.markAborted_memOk | apply State.modPart_memOk | apply State.openChangeover_memOk
    | apply State.runWheels_memOk | apply State.setPhase_memOk | apply State.takeBoundary_memOk | apply ite_memOk | apply foldl_memOk
    | apply foldl_fst_memOk | apply foldl_okMem | apply okMem_ok | apply okMem_error | refine okMem_elim (by assumption) | intro _ _ _
    | intro _ _ | intro _ | dsimp only | split

theorem State.resumeRook_memOk (s : State) (i : Nat) (hs : s.memOk) : (State.resumeRook s i).memOk := by
  unfold State.resumeRook
  with_reducible repeat' first
    | assumption | apply ite_memOk | apply State.leavePause_memOk | apply State.modDie_memOk | apply State.reportDone_memOk
    | apply State.resumeGrace_memOk | apply State.setFlag_memOk | intro _ _ _ | intro _ _ | intro _ | dsimp only | split

theorem State.debugHalt_memOk (s : State) (c : Cmd) (site : BitVec 8) (hs : s.memOk) : (State.debugHalt s c site).memOk := by
  unfold State.debugHalt
  with_reducible repeat' first
    | assumption | apply ite_memOk | apply State.askHalt_memOk | apply State.complete_memOk | apply State.take_memOk | apply foldl_okMem
    | apply okMem_ok | apply okMem_error | refine okMem_elim (by assumption) | intro _ _ _ | intro _ _ | intro _ | dsimp only | split

theorem State.debugResume_memOk (s : State) (c : Cmd) (site : BitVec 8) (hs : s.memOk) : (State.debugResume s c site).memOk := by
  unfold State.debugResume
  with_reducible repeat' first
    | assumption | apply ite_memOk | apply State.complete_memOk | apply State.resumeRook_memOk | apply State.take_memOk | apply foldl_okMem
    | apply okMem_ok | apply okMem_error | refine okMem_elim (by assumption) | intro _ _ _ | intro _ _ | intro _ | dsimp only | split

theorem State.debugTrace_memOk (s : State) (c : Cmd) (enable : BitVec 8) (hs : s.memOk) : (State.debugTrace s c enable).memOk := by
  unfold State.debugTrace
  with_reducible repeat' first
    | assumption | apply State.complete_memOk | apply State.enqueue_memOk | apply State.modPart_memOk | apply State.take_memOk
    | apply ite_memOk | apply foldl_memOk | apply foldl_fst_memOk | apply foldl_okMem | apply okMem_ok | apply okMem_error
    | refine okMem_elim (by assumption) | intro _ _ _ | intro _ _ | intro _ | dsimp only | split

theorem State.writeCooling_memOk (s : State) (id : Nat) (v : Word) (hs : s.memOk) : (State.writeCooling s id v).memOk := by
  unfold State.writeCooling
  with_reducible repeat' first
    | assumption | apply ite_memOk | apply State.setField_memOk | dsimp only | split

theorem State.powerSet_memOk (s : State) (c : Cmd) (id : BitVec 16) (v : Word) (hs : s.memOk) : (State.powerSet s c id v).memOk := by
  unfold State.powerSet
  with_reducible repeat' first
    | assumption | apply State.complete_memOk | apply State.queuePolicy_memOk | apply State.take_memOk | apply State.writeCooling_memOk
    | apply ite_memOk | apply foldl_memOk | apply foldl_fst_memOk | apply foldl_okMem | apply okMem_ok | apply okMem_error
    | refine okMem_elim (by assumption) | intro _ _ _ | intro _ _ | intro _ | dsimp only | split

theorem State.powerGet_memOk (s : State) (c : Cmd) (id : BitVec 16) (hs : s.memOk) : (State.powerGet s c id).memOk := by
  unfold State.powerGet
  with_reducible repeat' first
    | assumption | apply ite_memOk | apply State.complete_memOk | apply State.take_memOk | apply foldl_okMem | apply okMem_ok
    | apply okMem_error | refine okMem_elim (by assumption) | intro _ _ _ | intro _ _ | intro _ | dsimp only | split

theorem State.powerStatus_memOk (s : State) (c : Cmd) (hs : s.memOk) : (State.powerStatus s c).memOk := by
  unfold State.powerStatus
  with_reducible repeat' first
    | assumption | apply State.complete_memOk | apply State.take_memOk | apply foldl_okMem | apply okMem_ok | apply okMem_error
    | refine okMem_elim (by assumption) | intro _ _ _ | intro _ _ | intro _ | dsimp only

/-! MailboxCommands -/

theorem State.cacheLayout_memOk (s : State) (c : Cmd) (pin tail hsc : BitVec 8) (hs : s.memOk) : (State.cacheLayout s c pin tail hsc).memOk := by
  unfold State.cacheLayout
  with_reducible repeat' first
    | assumption | apply State.clearTails_memOk | apply State.complete_memOk | apply State.countTails_memOk | apply State.flushHsc_memOk
    | apply State.flushSlice_memOk | apply State.reclaimLent_memOk | apply State.setReg_memOk | apply State.take_memOk
    | apply State.zeroUnit_memOk | apply ite_memOk | apply foldl_memOk | apply foldl_fst_memOk | apply foldl_okMem | apply okMem_ok
    | apply okMem_error | refine okMem_elim (by assumption) | intro _ _ _ | intro _ _ | intro _ | dsimp only | split

theorem execDeviceInfo_memOk {c : Cmd} {s : State} {u : State} (eqn : execDeviceInfo c s = .next u) (hs : s.memOk) : u.memOk := by
  unfold execDeviceInfo at eqn
  cases eqn
  with_reducible repeat' first
    | assumption | apply State.deviceInfo_memOk | dsimp only

theorem execDeviceSiteEnable_memOk {c : Cmd} {site : BitVec 8} {s : State} {u : State} (eqn : execDeviceSiteEnable c site s = .next u) (hs : s.memOk) : u.memOk := by
  unfold execDeviceSiteEnable at eqn
  cases eqn
  with_reducible repeat' first
    | assumption | apply State.siteEnable_memOk | dsimp only

theorem execDeviceSiteReserve_memOk {c : Cmd} {site : BitVec 8} {s : State} {u : State} (eqn : execDeviceSiteReserve c site s = .next u) (hs : s.memOk) : u.memOk := by
  unfold execDeviceSiteReserve at eqn
  cases eqn
  with_reducible repeat' first
    | assumption | apply State.siteReserve_memOk | dsimp only

theorem execDeviceFwStage_memOk {c : Cmd} {addr : Word} {len : BitVec 32} {s : State} {u : State} (eqn : execDeviceFwStage c addr len s = .next u) (hs : s.memOk) : u.memOk := by
  unfold execDeviceFwStage at eqn
  cases eqn
  with_reducible repeat' first
    | assumption | apply State.fwStage_memOk | dsimp only

theorem execDeviceGrantFleet_memOk {c : Cmd} {part ring : BitVec 8} {s : State} {u : State} (eqn : execDeviceGrantFleet c part ring s = .next u) (hs : s.memOk) : u.memOk := by
  unfold execDeviceGrantFleet at eqn
  cases eqn
  with_reducible repeat' first
    | assumption | apply State.grantFleet_memOk | dsimp only

theorem execPartitionForm_memOk {c : Cmd} {regions : BitVec 16} {number headless : BitVec 8} {found : TestFindings} {s : State} {u : State} (eqn : execPartitionForm c regions number headless found s = .next u) (hs : s.memOk) : u.memOk := by
  unfold execPartitionForm at eqn
  cases eqn
  with_reducible repeat' first
    | assumption | apply State.partitionForm_memOk | dsimp only

theorem execPartitionDissolve_memOk {c : Cmd} {s : State} {u : State} (eqn : execPartitionDissolve c s = .next u) (hs : s.memOk) : u.memOk := by
  unfold execPartitionDissolve at eqn
  cases eqn
  with_reducible repeat' first
    | assumption | apply State.partitionDissolve_memOk | dsimp only

theorem execPartitionComputeReset_memOk {c : Cmd} {found : TestFindings} {s : State} {u : State} (eqn : execPartitionComputeReset c found s = .next u) (hs : s.memOk) : u.memOk := by
  unfold execPartitionComputeReset at eqn
  cases eqn
  with_reducible repeat' first
    | assumption | apply State.computeReset_memOk | dsimp only

theorem execPartitionFullReset_memOk {c : Cmd} {found : TestFindings} {s : State} {u : State} (eqn : execPartitionFullReset c found s = .next u) (hs : s.memOk) : u.memOk := by
  unfold execPartitionFullReset at eqn
  cases eqn
  with_reducible repeat' first
    | assumption | apply State.fullReset_memOk | dsimp only

theorem execHostDieReset_memOk {c : Cmd} {die : HostDieTest} {s : State} {u : State} (eqn : execHostDieReset c die s = .next u) (hs : s.memOk) : u.memOk := by
  unfold execHostDieReset at eqn
  cases eqn
  with_reducible repeat' first
    | assumption | apply State.hostReset_memOk | apply ite_memOk | apply foldl_memOk | apply foldl_fst_memOk | apply foldl_okMem
    | apply okMem_ok | apply okMem_error | refine okMem_elim (by assumption) | intro _ _ _ | intro _ _ | intro _ | dsimp only | split

theorem execPartitionCacheLayout_memOk {c : Cmd} {pin tail hsc : BitVec 8} {s : State} {u : State} (eqn : execPartitionCacheLayout c pin tail hsc s = .next u) (hs : s.memOk) : u.memOk := by
  unfold execPartitionCacheLayout at eqn
  cases eqn
  with_reducible repeat' first
    | assumption | apply State.cacheLayout_memOk | dsimp only

theorem execPartitionPublish_memOk {c : Cmd} {base : Word} {lines : BitVec 32} {direction : BitVec 8} {s : State} {u : State} (eqn : execPartitionPublish c base lines direction s = .next u) (hs : s.memOk) : u.memOk := by
  unfold execPartitionPublish at eqn
  cases eqn
  with_reducible repeat' first
    | assumption | apply State.publish_memOk | dsimp only

theorem execPartitionPolicySet_memOk {c : Cmd} {id : BitVec 16} {value : Word} {s : State} {u : State} (eqn : execPartitionPolicySet c id value s = .next u) (hs : s.memOk) : u.memOk := by
  unfold execPartitionPolicySet at eqn
  cases eqn
  with_reducible repeat' first
    | assumption | apply State.policySet_memOk | dsimp only

theorem execPartitionPolicyGet_memOk {c : Cmd} {id : BitVec 16} {s : State} {u : State} (eqn : execPartitionPolicyGet c id s = .next u) (hs : s.memOk) : u.memOk := by
  unfold execPartitionPolicyGet at eqn
  cases eqn
  with_reducible repeat' first
    | assumption | apply State.policyGet_memOk | dsimp only

theorem execPartitionGrant_memOk {c : Cmd} {page grants : BitVec 8} {ringMask tenant : BitVec 16} {s : State} {u : State} (eqn : execPartitionGrant c page grants ringMask tenant s = .next u) (hs : s.memOk) : u.memOk := by
  unfold execPartitionGrant at eqn
  cases eqn
  with_reducible repeat' first
    | assumption | apply State.grantPage_memOk | dsimp only

theorem execBookLoad_memOk {c : Cmd} {addr len : Word} {s : State} {u : State} (eqn : execBookLoad c addr len s = .next u) (hs : s.memOk) : u.memOk := by
  unfold execBookLoad at eqn
  cases eqn
  with_reducible repeat' first
    | assumption | apply State.bookLoad_memOk | dsimp only

theorem execBookUnload_memOk {c : Cmd} {flags : BitVec 8} {s : State} {u : State} (eqn : execBookUnload c flags s = .next u) (hs : s.memOk) : u.memOk := by
  unfold execBookUnload at eqn
  cases eqn
  with_reducible repeat' first
    | assumption | apply State.bookUnload_memOk | dsimp only

theorem execBookMap_memOk {c : Cmd} {map : BitVec 8} {s : State} {u : State} (eqn : execBookMap c map s = .next u) (hs : s.memOk) : u.memOk := by
  unfold execBookMap at eqn
  cases eqn
  with_reducible repeat' first
    | assumption | apply State.bookMap_memOk | dsimp only

theorem execBookPreempt_memOk {c : Cmd} {s : State} {u : State} (eqn : execBookPreempt c s = .next u) (hs : s.memOk) : u.memOk := by
  unfold execBookPreempt at eqn
  cases eqn
  with_reducible repeat' first
    | assumption | apply State.bookPreempt_memOk | dsimp only

theorem execStreamOpen_memOk {c : Cmd} {tenant : BitVec 16} {prio : BitVec 8} {s : State} {u : State} (eqn : execStreamOpen c tenant prio s = .next u) (hs : s.memOk) : u.memOk := by
  unfold execStreamOpen at eqn
  cases eqn
  with_reducible repeat' first
    | assumption | apply State.streamOpen_memOk | dsimp only

theorem execStreamAppend_memOk {c : Cmd} {handle : Handle} {positions : BitVec 32} {prompt : Word} {s : State} {u : State} (eqn : execStreamAppend c handle positions prompt s = .next u) (hs : s.memOk) : u.memOk := by
  unfold execStreamAppend at eqn
  cases eqn
  with_reducible repeat' first
    | assumption | apply State.streamAppend_memOk | dsimp only

theorem execStreamAdvance_memOk {c : Cmd} {handle : Handle} {positions : BitVec 16} {s : State} {u : State} (eqn : execStreamAdvance c handle positions s = .next u) (hs : s.memOk) : u.memOk := by
  unfold execStreamAdvance at eqn
  cases eqn
  with_reducible repeat' first
    | assumption | apply State.streamAdvance_memOk | dsimp only

theorem execStreamClose_memOk {c : Cmd} {handle : Handle} {s : State} {u : State} (eqn : execStreamClose c handle s = .next u) (hs : s.memOk) : u.memOk := by
  unfold execStreamClose at eqn
  cases eqn
  with_reducible repeat' first
    | assumption | apply State.streamClose_memOk | dsimp only

theorem execStreamPark_memOk {c : Cmd} {handle : Handle} {s : State} {u : State} (eqn : execStreamPark c handle s = .next u) (hs : s.memOk) : u.memOk := by
  unfold execStreamPark at eqn
  cases eqn
  with_reducible repeat' first
    | assumption | apply State.streamPark_memOk | dsimp only

theorem execStreamUnpark_memOk {c : Cmd} {handle : Handle} {s : State} {u : State} (eqn : execStreamUnpark c handle s = .next u) (hs : s.memOk) : u.memOk := by
  unfold execStreamUnpark at eqn
  cases eqn
  with_reducible repeat' first
    | assumption | apply State.streamUnpark_memOk | dsimp only

theorem execStreamMigrate_memOk {c : Cmd} {handle : Handle} {module : BitVec 16} {part : BitVec 8} {s : State} {u : State} (eqn : execStreamMigrate c handle module part s = .next u) (hs : s.memOk) : u.memOk := by
  unfold execStreamMigrate at eqn
  cases eqn
  with_reducible repeat' first
    | assumption | apply State.streamMigrate_memOk | dsimp only

theorem execStreamFork_memOk {c : Cmd} {handle : Handle} {positions : BitVec 32} {s : State} {u : State} (eqn : execStreamFork c handle positions s = .next u) (hs : s.memOk) : u.memOk := by
  unfold execStreamFork at eqn
  cases eqn
  with_reducible repeat' first
    | assumption | apply State.streamFork_memOk | dsimp only

theorem execStateInvalidate_memOk {c : Cmd} {handle : Handle} {first pages : BitVec 32} {s : State} {u : State} (eqn : execStateInvalidate c handle first pages s = .next u) (hs : s.memOk) : u.memOk := by
  unfold execStateInvalidate at eqn
  cases eqn
  with_reducible repeat' first
    | assumption | apply State.stateInvalidate_memOk | dsimp only

theorem execStateTier_memOk {c : Cmd} {handle : Handle} {first pages : BitVec 32} {tier : BitVec 8} {s : State} {u : State} (eqn : execStateTier c handle first pages tier s = .next u) (hs : s.memOk) : u.memOk := by
  unfold execStateTier at eqn
  cases eqn
  with_reducible repeat' first
    | assumption | apply State.stateTier_memOk | dsimp only

theorem execStateQuery_memOk {c : Cmd} {handle : Handle} {page : BitVec 32} {s : State} {u : State} (eqn : execStateQuery c handle page s = .next u) (hs : s.memOk) : u.memOk := by
  unfold execStateQuery at eqn
  cases eqn
  with_reducible repeat' first
    | assumption | apply State.stateQuery_memOk | dsimp only

theorem execLinkStatus_memOk {c : Cmd} {quad : BitVec 8} {s : State} {u : State} (eqn : execLinkStatus c quad s = .next u) (hs : s.memOk) : u.memOk := by
  unfold execLinkStatus at eqn
  cases eqn
  with_reducible repeat' first
    | assumption | apply State.linkStatus_memOk | dsimp only

theorem execLinkRetrain_memOk {c : Cmd} {quad : BitVec 8} {s : State} {u : State} (eqn : execLinkRetrain c quad s = .next u) (hs : s.memOk) : u.memOk := by
  unfold execLinkRetrain at eqn
  cases eqn
  with_reducible repeat' first
    | assumption | apply State.linkRetrain_memOk | dsimp only

theorem execLinkRoleSetRole_memOk {c : Cmd} {quad role : BitVec 8} {module : BitVec 16} {s : State} {u : State} (eqn : execLinkRoleSetRole c quad role module s = .next u) (hs : s.memOk) : u.memOk := by
  unfold execLinkRoleSetRole at eqn
  cases eqn
  with_reducible repeat' first
    | assumption | apply State.roleSet_memOk | dsimp only

theorem execLinkRoleSetModuleId_memOk {c : Cmd} {role : BitVec 8} {module : BitVec 16} {s : State} {u : State} (eqn : execLinkRoleSetModuleId c role module s = .next u) (hs : s.memOk) : u.memOk := by
  unfold execLinkRoleSetModuleId at eqn
  cases eqn
  with_reducible repeat' first
    | assumption | apply State.moduleSet_memOk | dsimp only

theorem execLogFreeze_memOk {c : Cmd} {s : State} {u : State} (eqn : execLogFreeze c s = .next u) (hs : s.memOk) : u.memOk := by
  unfold execLogFreeze at eqn
  cases eqn
  with_reducible repeat' first
    | assumption | apply State.logFreeze_memOk | dsimp only

theorem execLogThaw_memOk {c : Cmd} {s : State} {u : State} (eqn : execLogThaw c s = .next u) (hs : s.memOk) : u.memOk := by
  unfold execLogThaw at eqn
  cases eqn
  with_reducible repeat' first
    | assumption | apply State.logThaw_memOk | dsimp only

theorem execLogRead_memOk {c : Cmd} {dest : Word} {first max : BitVec 32} {s : State} {u : State} (eqn : execLogRead c dest first max s = .next u) (hs : s.memOk) : u.memOk := by
  unfold execLogRead at eqn
  cases eqn
  with_reducible repeat' first
    | assumption | apply State.logRead_memOk | dsimp only

theorem execLogClearKeep_memOk {c : Cmd} {s : State} {u : State} (eqn : execLogClearKeep c s = .next u) (hs : s.memOk) : u.memOk := by
  unfold execLogClearKeep at eqn
  cases eqn
  with_reducible repeat' first
    | assumption | apply State.logClearKeep_memOk | dsimp only

theorem execLogRate_memOk {c : Cmd} {code rate : BitVec 16} {s : State} {u : State} (eqn : execLogRate c code rate s = .next u) (hs : s.memOk) : u.memOk := by
  unfold execLogRate at eqn
  cases eqn
  with_reducible repeat' first
    | assumption | apply State.logRate_memOk | dsimp only

theorem execDebugChallenge_memOk {c : Cmd} {s : State} {u : State} (eqn : execDebugChallenge c s = .next u) (hs : s.memOk) : u.memOk := by
  unfold execDebugChallenge at eqn
  cases eqn
  with_reducible repeat' first
    | assumption | apply State.debugChallenge_memOk | dsimp only

theorem execDebugRespond_memOk {c : Cmd} {response : BitVec 384} {s : State} {u : State} (eqn : execDebugRespond c response s = .next u) (hs : s.memOk) : u.memOk := by
  unfold execDebugRespond at eqn
  cases eqn
  with_reducible repeat' first
    | assumption | apply State.debugRespond_memOk | dsimp only

theorem execDebugHalt_memOk {c : Cmd} {site : BitVec 8} {s : State} {u : State} (eqn : execDebugHalt c site s = .next u) (hs : s.memOk) : u.memOk := by
  unfold execDebugHalt at eqn
  cases eqn
  with_reducible repeat' first
    | assumption | apply State.debugHalt_memOk | dsimp only

theorem execDebugResume_memOk {c : Cmd} {site : BitVec 8} {s : State} {u : State} (eqn : execDebugResume c site s = .next u) (hs : s.memOk) : u.memOk := by
  unfold execDebugResume at eqn
  cases eqn
  with_reducible repeat' first
    | assumption | apply State.debugResume_memOk | dsimp only

theorem execDebugTrace_memOk {c : Cmd} {enable : BitVec 8} {s : State} {u : State} (eqn : execDebugTrace c enable s = .next u) (hs : s.memOk) : u.memOk := by
  unfold execDebugTrace at eqn
  cases eqn
  with_reducible repeat' first
    | assumption | apply State.debugTrace_memOk | dsimp only

theorem execPowerPolicySet_memOk {c : Cmd} {id : BitVec 16} {value : Word} {s : State} {u : State} (eqn : execPowerPolicySet c id value s = .next u) (hs : s.memOk) : u.memOk := by
  unfold execPowerPolicySet at eqn
  cases eqn
  with_reducible repeat' first
    | assumption | apply State.powerSet_memOk | dsimp only

theorem execPowerPolicyGet_memOk {c : Cmd} {id : BitVec 16} {s : State} {u : State} (eqn : execPowerPolicyGet c id s = .next u) (hs : s.memOk) : u.memOk := by
  unfold execPowerPolicyGet at eqn
  cases eqn
  with_reducible repeat' first
    | assumption | apply State.powerGet_memOk | dsimp only

theorem execPowerStatus_memOk {c : Cmd} {s : State} {u : State} (eqn : execPowerStatus c s = .next u) (hs : s.memOk) : u.memOk := by
  unfold execPowerStatus at eqn
  cases eqn
  with_reducible repeat' first
    | assumption | apply State.powerStatus_memOk | dsimp only

theorem State.unknownCommand_memOk (s : State) (c : Cmd) (opcode : BitVec 16) (hs : s.memOk) : (State.unknownCommand s c opcode).memOk := by
  unfold State.unknownCommand
  with_reducible repeat' first
    | assumption | apply ite_memOk | apply State.complete_memOk | apply State.enterCommand_memOk | dsimp only | split

theorem State.mailCommand_memOk (s : State) (path : CmdPath) (b : List Byte) (found : TestFindings) (hs : s.memOk) : (State.mailCommand s path b found).memOk := by
  unfold State.mailCommand
  with_reducible repeat' first
    | assumption | apply State.bookLoad_memOk | apply State.bookMap_memOk | apply State.bookPreempt_memOk | apply State.bookUnload_memOk
    | apply State.cacheLayout_memOk | apply State.computeReset_memOk | apply State.debugChallenge_memOk | apply State.debugHalt_memOk
    | apply State.debugRespond_memOk | apply State.debugResume_memOk | apply State.debugTrace_memOk | apply State.deviceInfo_memOk
    | apply State.fullReset_memOk | apply State.fwStage_memOk | apply State.grantFleet_memOk | apply State.grantPage_memOk
    | apply State.hostReset_memOk | apply State.linkRetrain_memOk | apply State.linkStatus_memOk | apply State.logClearKeep_memOk
    | apply State.logFreeze_memOk | apply State.logRate_memOk | apply State.logRead_memOk | apply State.logThaw_memOk
    | apply State.moduleSet_memOk | apply State.partitionDissolve_memOk | apply State.partitionForm_memOk | apply State.policyGet_memOk
    | apply State.policySet_memOk | apply State.powerGet_memOk | apply State.powerSet_memOk | apply State.powerStatus_memOk
    | apply State.publish_memOk | apply State.roleSet_memOk | apply State.siteEnable_memOk | apply State.siteReserve_memOk
    | apply State.stateInvalidate_memOk | apply State.stateQuery_memOk | apply State.stateTier_memOk | apply State.streamAdvance_memOk
    | apply State.streamAppend_memOk | apply State.streamClose_memOk | apply State.streamFork_memOk | apply State.streamMigrate_memOk
    | apply State.streamOpen_memOk | apply State.streamPark_memOk | apply State.streamUnpark_memOk | apply State.take_memOk
    | apply State.unknownCommand_memOk | apply ite_memOk | apply foldl_memOk | apply foldl_fst_memOk | apply foldl_okMem | apply okMem_ok
    | apply okMem_error | refine okMem_elim (by assumption) | intro _ _ _ | intro _ _ | intro _ | dsimp only | split

theorem State.visitRing_memOk (s : State) (p r : Nat) (found : TestFindings) (y0 : Nat) (hs : s.memOk) : (State.visitRing s p r found y0).memOk := by
  induction y0 generalizing s with
  | zero => simpa [State.visitRing] using hs
  | succ fuel ih =>
  unfold State.visitRing
  repeat' first
    | with_reducible assumption
    | with_reducible apply ih
    | with_reducible apply ite_memOk
    | with_reducible apply State.complete_memOk
    | with_reducible apply State.enterCommand_memOk
    | with_reducible apply State.hostRead_memOk
    | with_reducible refine State.hostRead_memOk' (by with_reducible assumption) ?_
    | with_reducible apply State.mailCommand_memOk
    | with_reducible apply State.setFlag_memOk
    | with_reducible apply State.setReg_memOk
    | with_reducible apply foldl_memOk
    | with_reducible apply foldl_fst_memOk
    | with_reducible apply foldl_okMem
    | with_reducible apply okMem_ok
    | with_reducible apply okMem_error
    | with_reducible refine okMem_elim (by with_reducible assumption)
    | (intro _ _ _)
    | (intro _ _)
    | (intro _)
    | dsimp only
    | split
    | with_reducible refine pair_memOk (by with_reducible assumption) ?_
    | with_reducible refine okMem_mem (by with_reducible assumption) ?_

theorem execRingVisit_memOk {part ring : Nat} {found : TestFindings} {s : State} {u : State} (eqn : execRingVisit part ring found s = .next u) (hs : s.memOk) : u.memOk := by
  unfold execRingVisit at eqn
  cases eqn
  with_reducible repeat' first
    | assumption | apply ite_memOk | apply State.visitRing_memOk | dsimp only | split

theorem execRingDrained_memOk {part ring : Nat} {s : State} {u : State} (eqn : execRingDrained part ring s = .next u) (hs : s.memOk) : u.memOk := by
  unfold execRingDrained at eqn
  cases eqn
  with_reducible repeat' first
    | assumption | apply ite_memOk | apply State.closeRing_memOk | dsimp only | split

theorem execMsiHoldoffExpiry_memOk {part ring : Nat} {s : State} {u : State} (eqn : execMsiHoldoffExpiry part ring s = .next u) (hs : s.memOk) : u.memOk := by
  unfold execMsiHoldoffExpiry at eqn
  cases eqn
  with_reducible repeat' first
    | assumption | apply ite_memOk | apply State.ringMsi_memOk | dsimp only | split

theorem execBmcCommand_memOk {bytes : List Byte} {found : TestFindings} {s : State} {u : State} (eqn : execBmcCommand bytes found s = .next u) (hs : s.memOk) : u.memOk := by
  unfold execBmcCommand at eqn
  cases eqn
  with_reducible repeat' first
    | assumption | apply ite_memOk | apply State.mailCommand_memOk | dsimp only | split

/-! MemoryCommands -/

theorem State.retireLayer_memOk (s : State) (stack k : Nat) (hs : s.memOk) : (State.retireLayer s stack k).memOk := by
  unfold State.retireLayer
  with_reducible repeat' first
    | assumption | apply ite_memOk | apply State.degradeStack_memOk | apply State.event7F_memOk | apply State.writeErase_memOk | dsimp only
    | split

theorem State.overflow_memOk (s : State) (cls i j addr : Nat) (hs : s.memOk) : (State.overflow s cls i j addr).memOk := by
  unfold State.overflow
  with_reducible repeat' first
    | assumption | apply ite_memOk | apply State.event7F_memOk | apply State.retireLayer_memOk | apply State.sendMsi_memOk | dsimp only
    | split

theorem State.countCorrection_memOk (s : State) (cls i j addr : Nat) (hs : s.memOk) : (State.countCorrection s cls i j addr).memOk := by
  unfold State.countCorrection
  with_reducible repeat' first
    | assumption | apply ite_memOk | apply State.overflow_memOk | apply State.setField_memOk | dsimp only | split

theorem execBucketLeak_memOk {cls inst sub : Nat} {s : State} {u : State} (eqn : execBucketLeak cls inst sub s = .next u) (hs : s.memOk) : u.memOk := by
  unfold execBucketLeak at eqn
  cases eqn
  with_reducible repeat' first
    | assumption | apply State.setField_memOk | dsimp only

theorem State.badForRequester_memOk (s : State) (r : Requester) (hs : s.memOk) : (State.badForRequester s r).memOk := by
  unfold State.badForRequester
  with_reducible repeat' first
    | assumption | apply State.answered_memOk | apply State.busMove_memOk | apply ite_memOk | apply foldl_memOk | apply foldl_fst_memOk
    | apply foldl_okMem | apply okMem_ok | apply okMem_error | refine okMem_elim (by assumption) | intro _ _ _ | intro _ _ | intro _
    | dsimp only | split

theorem State.landLine_memOk (s : State) (host : Bool) (line : Nat) (data : List Byte) (dirty : Bool) (hs : s.memOk) : (State.landLine s host line data dirty).memOk := by
  unfold State.landLine
  with_reducible repeat' first
    | assumption | apply State.putHsc_memOk | apply State.take_memOk | apply ite_memOk | apply foldl_memOk | apply foldl_fst_memOk
    | apply foldl_okMem | apply okMem_ok | apply okMem_error | refine okMem_elim (by assumption) | intro _ _ _ | intro _ _ | intro _
    | dsimp only | split

theorem State.correctedLine_memOk (s : State) (line p n : Nat) (hs : s.memOk) : (State.correctedLine s line p n).memOk := by
  unfold State.correctedLine
  with_reducible repeat' first
    | assumption | apply ite_memOk | apply State.bump_memOk | apply State.countCorrection_memOk | apply State.retireLayer_memOk
    | apply State.setReg_memOk | dsimp only | split

theorem execDramRead_memOk {addr : Addr} {errors : List (Nat × Nat × Byte)} {host : Bool} {r : Requester} {s : State} {u : State} (eqn : execDramRead addr errors host r s = .next u) (hs : s.memOk) : u.memOk := by
  unfold execDramRead at eqn
  cases eqn
  with_reducible repeat' first
    | assumption | apply State.answered_memOk | apply State.applyFill_memOk | apply State.badForRequester_memOk
    | apply State.correctedLine_memOk | apply State.dramUe_memOk | apply State.landLine_memOk | apply ite_memOk | apply foldl_memOk
    | apply foldl_fst_memOk | apply foldl_okMem | apply okMem_ok | apply okMem_error | refine okMem_elim (by assumption) | intro _ _ _
    | intro _ _ | intro _ | dsimp only | split

theorem execDramWrite_memOk {addr : Addr} {bytes : List Byte} {poisoned : List Nat} {s : State} {u : State} (eqn : execDramWrite addr bytes poisoned s = .next u) (hs : s.memOk) : u.memOk := by
  unfold execDramWrite at eqn
  cases eqn
  with_reducible repeat' first
    | assumption | apply ite_memOk | apply State.applyFill_memOk | apply State.writeBackLine_memOk | dsimp only | split

theorem State.sramCorrected_memOk (s : State) (x : Sram) (a : Nat) (hs : s.memOk) : (State.sramCorrected s x a).memOk := by
  unfold State.sramCorrected
  with_reducible repeat' first
    | assumption | apply State.bump_memOk | apply State.countCorrection_memOk | dsimp only | split

theorem State.closeBadRow_memOk (s : State) (q slot : Nat) (hs : s.memOk) : (State.closeBadRow s q slot).memOk := by
  unfold State.closeBadRow
  with_reducible repeat' first
    | assumption | apply State.complete_memOk | apply State.eventStatus_memOk | apply State.failPending_memOk | apply State.modPart_memOk
    | apply State.setRow_memOk | apply State.streamEvent_memOk | apply State.unstage_memOk | apply ite_memOk | apply foldl_memOk
    | apply foldl_fst_memOk | apply foldl_okMem | apply okMem_ok | apply okMem_error | refine okMem_elim (by assumption) | intro _ _ _
    | intro _ _ | intro _ | dsimp only | split

theorem State.sramBad_memOk (s : State) (x : Sram) (a requester : Nat) (hs : s.memOk) : (State.sramBad s x a requester).memOk := by
  unfold State.sramBad
  with_reducible repeat' first
    | assumption | apply State.closeBadRow_memOk | apply State.dropHart_memOk | apply State.eventStatus_memOk | apply State.putHart_memOk
    | apply State.putHsc_memOk | apply State.report_memOk | apply State.setPoison_memOk | apply State.sliceUe_memOk
    | apply State.sramCorrected_memOk | apply State.sramUe_memOk | apply ite_memOk | apply foldl_memOk | apply foldl_fst_memOk
    | apply foldl_okMem | apply okMem_ok | apply okMem_error | refine okMem_elim (by assumption) | intro _ _ _ | intro _ _ | intro _
    | dsimp only | split

theorem execSramRead_memOk {addr : Addr} {square : Nat} {double : Bool} {r : Requester} {s : State} {u : State} (eqn : execSramRead addr square double r s = .next u) (hs : s.memOk) : u.memOk := by
  unfold execSramRead at eqn
  cases eqn
  with_reducible repeat' first
    | assumption | apply ite_memOk | apply State.badForRequester_memOk | apply State.sramBad_memOk | apply State.sramCorrected_memOk
    | dsimp only | split

theorem execGeneralLineEviction_memOk {addr : Addr} {s : State} {u : State} (eqn : execGeneralLineEviction addr s = .next u) (hs : s.memOk) : u.memOk := by
  unfold execGeneralLineEviction at eqn
  cases eqn
  with_reducible repeat' first
    | assumption | apply ite_memOk | apply State.evictGeneral_memOk | dsimp only | split

theorem execBankZeroComplete_memOk {site bank : Nat} {s : State} {u : State} (eqn : execBankZeroComplete site bank s = .next u) (hs : s.memOk) : u.memOk := by
  unfold execBankZeroComplete at eqn
  cases eqn
  with_reducible repeat' first
    | assumption | apply State.setFlag_memOk | apply State.zeroDone_memOk | apply ite_memOk | apply foldl_memOk | apply foldl_fst_memOk
    | apply foldl_okMem | apply okMem_ok | apply okMem_error | refine okMem_elim (by assumption) | intro _ _ _ | intro _ _ | intro _
    | dsimp only | split

theorem execReleaseFillComplete_memOk {stack : Nat} {s : State} {u : State} (eqn : execReleaseFillComplete stack s = .next u) (hs : s.memOk) : u.memOk := by
  unfold execReleaseFillComplete at eqn
  cases eqn
  with_reducible repeat' first
    | assumption | apply State.fillLines_memOk | apply foldl_memOk | apply foldl_fst_memOk | intro _ _ _ | intro _ _ | intro _ | dsimp only

end Sys2Proof.Machine
end

