-- ==== Sys2Proof/Laws/MemDevice.lean ====
section
/-! SUPPORT. Memory keeps its canonical form (Memory.wf, State.memOk) through each function of DebugCommands, Flits, LinkMessages, OpticalCommands, Power, RefereeCommands, Retrain and Startup: one lemma per
function that answers a state, and for a function that answers a state with something else a second one, marked with a prime, that takes
the answer as an equation. -/

namespace Sys2Proof.Machine

set_option linter.unusedTactic false
set_option linter.unreachableTactic false
set_option linter.unusedVariables false

/-! DebugCommands -/

theorem execDmRegisterAccess_memOk {r : Requester} {site reg : Nat} {a : DmAccess} {s : State} {u : State} (eqn : execDmRegisterAccess r site reg a s = .next u) (hs : s.memOk) : u.memOk := by
  unfold execDmRegisterAccess at eqn
  cases eqn
  with_reducible repeat' first
    | assumption | apply ite_memOk | apply State.access_memOk | refine State.access_memOk' (by assumption) ?_ | apply State.answered_memOk
    | dsimp only | split

theorem execRookHalt_memOk {site : Nat} {cause : HaltCause} {s : State} {u : State} (eqn : execRookHalt site cause s = .next u) (hs : s.memOk) : u.memOk := by
  unfold execRookHalt at eqn
  cases eqn
  with_reducible repeat' first
    | assumption | apply ite_memOk | apply State.askHalt_memOk | dsimp only | split

theorem execRookResume_memOk {site : Nat} {s : State} {u : State} (eqn : execRookResume site s = .next u) (hs : s.memOk) : u.memOk := by
  unfold execRookResume at eqn
  cases eqn
  with_reducible repeat' first
    | assumption | apply ite_memOk | apply State.resumeRook_memOk | dsimp only | split

theorem execSessionExpiry_memOk {part : Nat} {s : State} {u : State} (eqn : execSessionExpiry part s = .next u) (hs : s.memOk) : u.memOk := by
  unfold execSessionExpiry at eqn
  cases eqn
  with_reducible repeat' first
    | assumption | apply ite_memOk | apply State.endSession_memOk | dsimp only | split

theorem execChallengeLockoutEnd_memOk {part : Nat} {s : State} {u : State} (eqn : execChallengeLockoutEnd part s = .next u) (hs : s.memOk) : u.memOk := by
  unfold execChallengeLockoutEnd at eqn
  cases eqn
  with_reducible repeat' first
    | assumption | apply State.modPart_memOk | intro _ _ _ | intro _ _ | intro _ | dsimp only

theorem State.setJtag_memOk (s : State) (j : Jtag) (hs : s.memOk) : (State.setJtag s j).memOk := by
  unfold State.setJtag
  with_reducible repeat' first
    | assumption | dsimp only

theorem State.tapChallenge_memOk (s : State) (hs : s.memOk) : (State.tapChallenge s).memOk := by
  unfold State.tapChallenge
  with_reducible repeat' first
    | assumption | apply State.setJtag_memOk | dsimp only

theorem State.holdInstr_memOk (s : State) (t : TapInstr) (hs : s.memOk) : (State.holdInstr s t).memOk := by
  unfold State.holdInstr
  with_reducible repeat' first
    | assumption | apply ite_memOk | apply State.freePins_memOk | apply State.modPart_memOk | apply State.setJtag_memOk | apply foldl_memOk
    | apply foldl_fst_memOk | intro _ _ _ | intro _ _ | intro _ | dsimp only | split

theorem execJtagInstruction_memOk {t : TapInstr} {s : State} {u : State} (eqn : execJtagInstruction t s = .next u) (hs : s.memOk) : u.memOk := by
  unfold execJtagInstruction at eqn
  cases eqn
  with_reducible repeat' first
    | assumption | apply ite_memOk | apply State.holdInstr_memOk | apply State.setJtag_memOk | apply State.tapChallenge_memOk | dsimp only
    | split

theorem execJtagUnlock_memOk {response : BitVec 384} {s : State} {u : State} (eqn : execJtagUnlock response s = .next u) (hs : s.memOk) : u.memOk := by
  unfold execJtagUnlock at eqn
  cases eqn
  with_reducible repeat' first
    | assumption | apply ite_memOk | apply State.eventStatus_memOk | apply State.setFlag_memOk | apply State.setJtag_memOk | dsimp only
    | split

theorem execBatchStaging_memOk {part : Nat} {slices : List (Nat × List Handle)} {s : State} {u : State} (eqn : execBatchStaging part slices s = .next u) (hs : s.memOk) : u.memOk := by
  unfold execBatchStaging at eqn
  cases eqn
  with_reducible repeat' first
    | assumption | apply ite_memOk | apply State.stageBatch_memOk | dsimp only | split

theorem State.hartLoad_memOk (s : State) (h a n : Nat) (cached : Bool) (r : Requester) (hs : s.memOk) : (State.hartLoad s h a n cached r).1.memOk := by
  unfold State.hartLoad
  with_reducible repeat' first
    | assumption | apply ite_memOk | apply State.hartRead_memOk | refine State.hartRead_memOk' (by assumption) ?_
    | apply State.hostRead_memOk | refine State.hostRead_memOk' (by assumption) ?_ | dsimp only | split

theorem State.hartLoad_memOk' {s : State} {h a n : Nat} {cached : Bool} {r : Requester} {t : State} {x1 : Except Status (List Byte)} (eqn : State.hartLoad s h a n cached r = (t, x1)) (hs : s.memOk) : t.memOk :=
  pair_memOk eqn (State.hartLoad_memOk s h a n cached r hs)

theorem State.hartStore_memOk (s : State) (h a : Nat) (d : List Byte) (cached : Bool) (r : Requester) (hs : s.memOk) : (State.hartStore s h a d cached r).1.memOk := by
  unfold State.hartStore
  with_reducible repeat' first
    | assumption | apply ite_memOk | apply State.hartWrite_memOk | refine State.hartWrite_memOk' (by assumption) ?_
    | apply State.hostWrite_memOk | apply foldl_okMem | apply okMem_ok | apply okMem_error | refine okMem_elim (by assumption) | dsimp only
    | split

theorem State.hartStore_memOk' {s : State} {h a : Nat} {d : List Byte} {cached : Bool} {r : Requester} {t : State} {x1 : Except Status (List Byte)} (eqn : State.hartStore s h a d cached r = (t, x1)) (hs : s.memOk) : t.memOk :=
  pair_memOk eqn (State.hartStore_memOk s h a d cached r hs)

theorem State.reserve_memOk (s : State) (h c : Nat) (b : Option Nat) (hs : s.memOk) : (State.reserve s h c b).memOk := by
  unfold State.reserve
  with_reducible repeat' first
    | assumption | apply State.modHost_memOk | intro _ _ _ | intro _ _ | intro _ | dsimp only

theorem State.hartDram_memOk (s : State) (h c a : Nat) (op : HartOp) (cached : Bool) (r : Requester) (hs : s.memOk) : (State.hartDram s h c a op cached r).1.memOk := by
  unfold State.hartDram
  with_reducible repeat' first
    | assumption | apply ite_memOk | apply State.hartLoad_memOk | refine State.hartLoad_memOk' (by assumption) ?_
    | apply State.hartStore_memOk | refine State.hartStore_memOk' (by assumption) ?_ | apply State.reserve_memOk | apply foldl_okMem
    | apply okMem_ok | apply okMem_error | refine okMem_elim (by assumption) | dsimp only | split

theorem State.hartDram_memOk' {s : State} {h c a : Nat} {op : HartOp} {cached : Bool} {r : Requester} {t : State} {x1 : Except Status (List Byte)} (eqn : State.hartDram s h c a op cached r = (t, x1)) (hs : s.memOk) : t.memOk :=
  pair_memOk eqn (State.hartDram_memOk s h c a op cached r hs)

theorem State.timer_memOk (s : State) (h c : Nat) (hs : s.memOk) : (State.timer s h c).memOk := by
  unfold State.timer
  with_reducible repeat' first
    | assumption | apply ite_memOk | apply State.modHost_memOk | intro _ _ _ | intro _ _ | intro _ | dsimp only | split

theorem State.csrAccess_memOk {s : State} {h c : Nat} {mode : HartMode} {n : Nat} {value : Option Word} {t : State} {x1 : List Byte} (eqn : State.csrAccess s h c mode n value = some (t, x1)) (hs : s.memOk) : t.memOk := by
  unfold State.csrAccess at eqn
  dsimp only at eqn
  repeat' split at eqn
  all_goals cases eqn
  repeat' first
    | with_reducible assumption
    | with_reducible apply ite_memOk
    | with_reducible apply State.setReg_memOk
    | with_reducible apply State.timer_memOk
    | with_reducible apply foldl_memOk
    | with_reducible apply foldl_fst_memOk
    | with_reducible apply foldl_okMem
    | with_reducible apply okMem_ok
    | with_reducible apply okMem_error
    | with_reducible refine okMem_elim (by with_reducible assumption)
    | (intro _ _ _)
    | (intro _ _)
    | (intro _)
    | dsimp only
    | split
    | with_reducible refine pair_memOk (by with_reducible assumption) ?_
    | with_reducible refine okMem_mem (by with_reducible assumption) ?_

theorem execHartAccess_memOk {die core : Nat} {mode : HartMode} {addr : Addr} {op : HartOp} {pbmtNonCacheable : Bool} {s : State} {u : State} (eqn : execHartAccess die core mode addr op pbmtNonCacheable s = .next u) (hs : s.memOk) : u.memOk := by
  unfold execHartAccess at eqn
  cases eqn
  with_reducible repeat' first
    | assumption | apply State.access_memOk | refine State.access_memOk' (by assumption) ?_ | apply State.answered_memOk
    | apply State.bump_memOk | refine State.csrAccess_memOk (by assumption) ?_ | apply State.hartDram_memOk
    | refine State.hartDram_memOk' (by assumption) ?_ | apply State.unmapped_memOk | apply ite_memOk | apply foldl_memOk
    | apply foldl_fst_memOk | apply foldl_okMem | apply okMem_ok | apply okMem_error | refine okMem_elim (by assumption) | intro _ _ _
    | intro _ _ | intro _ | dsimp only | split

theorem execCacheBlockClean_memOk {die core : Nat} {addr : Addr} {flush : Bool} {s : State} {u : State} (eqn : execCacheBlockClean die core addr flush s = .next u) (hs : s.memOk) : u.memOk := by
  unfold execCacheBlockClean at eqn
  cases eqn
  with_reducible repeat' first
    | assumption | apply ite_memOk | apply State.answered_memOk | apply State.bump_memOk | apply State.evictDirectory_memOk
    | apply State.gather_memOk | apply foldl_okMem | apply okMem_ok | apply okMem_error | refine okMem_elim (by assumption) | dsimp only
    | split

theorem execHscRequest_memOk {r : Requester} {addr : Addr} {op : HartOp} {evictBlock evictLine : Option Addr} {s : State} {u : State} (eqn : execHscRequest r addr op evictBlock evictLine s = .next u) (hs : s.memOk) : u.memOk := by
  unfold execHscRequest at eqn
  cases eqn
  with_reducible repeat' first
    | assumption | apply State.access_memOk | refine State.access_memOk' (by assumption) ?_ | apply State.answered_memOk
    | apply State.evictDirectory_memOk | apply State.evictHostLine_memOk | apply ite_memOk | apply foldl_memOk | apply foldl_fst_memOk
    | apply foldl_okMem | apply okMem_ok | apply okMem_error | refine okMem_elim (by assumption) | intro _ _ _ | intro _ _ | intro _
    | dsimp only | split

theorem execMsiWrite_memOk {source : Nat} {addr : Addr} {value : BitVec 32} {s : State} {u : State} (eqn : execMsiWrite source addr value s = .next u) (hs : s.memOk) : u.memOk := by
  unfold execMsiWrite at eqn
  cases eqn
  with_reducible repeat' first
    | assumption | apply State.sendMsi_memOk | dsimp only

theorem execHdMtimecmp_memOk {die core : Nat} {s : State} {u : State} (eqn : execHdMtimecmp die core s = .next u) (hs : s.memOk) : u.memOk := by
  unfold execHdMtimecmp at eqn
  cases eqn
  with_reducible repeat' first
    | assumption | apply ite_memOk | apply State.timer_memOk | dsimp only | split

theorem execHostClockChange_memOk {die : Nat} {value : BitVec 6} {s : State} {u : State} (eqn : execHostClockChange die value s = .next u) (hs : s.memOk) : u.memOk := by
  unfold execHostClockChange at eqn
  cases eqn
  with_reducible repeat' first
    | assumption | apply ite_memOk | apply State.setReg_memOk | dsimp only | split

theorem execInboundPcieRequest_memOk {die : Nat} {addr : Addr} {op : PcieOp} {s : State} {u : State} (eqn : execInboundPcieRequest die addr op s = .next u) (hs : s.memOk) : u.memOk := by
  unfold execInboundPcieRequest at eqn
  cases eqn
  with_reducible repeat' first
    | assumption | apply ite_memOk | apply State.access_memOk | refine State.access_memOk' (by assumption) ?_ | apply State.answered_memOk
    | apply State.unmapped_memOk | dsimp only | split

theorem execIntxMessage_memOk {die : Nat} {s : State} {u : State} (eqn : execIntxMessage die s = .next u) (hs : s.memOk) : u.memOk := by
  unfold execIntxMessage at eqn
  cases eqn
  with_reducible repeat' first
    | assumption | apply ite_memOk | apply State.bump_memOk | dsimp only | split

theorem execPcieWake_memOk {die : Nat} {s : State} {u : State} (eqn : execPcieWake die s = .next u) (hs : s.memOk) : u.memOk := by
  unfold execPcieWake at eqn
  cases eqn
  with_reducible repeat' first
    | assumption | apply State.modHost_memOk | intro _ _ _ | intro _ _ | intro _ | dsimp only

theorem execPcieLinkChange_memOk {die sub : Nat} {up : Bool} {rate : BitVec 3} {width : BitVec 4} {s : State} {u : State} (eqn : execPcieLinkChange die sub up rate width s = .next u) (hs : s.memOk) : u.memOk := by
  unfold execPcieLinkChange at eqn
  cases eqn
  with_reducible repeat' first
    | assumption | apply ite_memOk | apply State.setField_memOk | dsimp only | split

theorem execHostProbe_memOk {die : Nat} {s : State} {u : State} (eqn : execHostProbe die s = .next u) (hs : s.memOk) : u.memOk := by
  unfold execHostProbe at eqn
  cases eqn
  with_reducible repeat' first
    | assumption | apply State.bump_memOk | apply State.modHost_memOk | apply ite_memOk | apply foldl_memOk | apply foldl_fst_memOk
    | apply foldl_okMem | apply okMem_ok | apply okMem_error | refine okMem_elim (by assumption) | intro _ _ _ | intro _ _ | intro _
    | dsimp only | split

theorem execHostProbeMiss_memOk {die : Nat} {s : State} {u : State} (eqn : execHostProbeMiss die s = .next u) (hs : s.memOk) : u.memOk := by
  unfold execHostProbeMiss at eqn
  cases eqn
  with_reducible repeat' first
    | assumption | apply State.fenceHost_memOk | apply State.modHost_memOk | apply State.safetyAt_memOk | apply ite_memOk
    | apply foldl_memOk | apply foldl_fst_memOk | apply foldl_okMem | apply okMem_ok | apply okMem_error | refine okMem_elim (by assumption)
    | intro _ _ _ | intro _ _ | intro _ | dsimp only | split

/-! Flits -/

theorem State.sendFlit_memOk (s : State) (n : Nat) (f : Flit) (hs : s.memOk) : (State.sendFlit s n f).memOk := by
  unfold State.sendFlit
  with_reducible repeat' first
    | assumption | apply State.modQuad_memOk | intro _ _ _ | intro _ _ | intro _ | dsimp only

theorem State.sendMessage_memOk (s : State) (n : Nat) (m : LinkMsg) (hs : s.memOk) : (State.sendMessage s n m).memOk := by
  unfold State.sendMessage
  with_reducible repeat' first
    | assumption | apply State.bump_memOk | apply State.modQuad_memOk | apply ite_memOk | apply foldl_memOk | apply foldl_fst_memOk
    | apply foldl_okMem | apply okMem_ok | apply okMem_error | refine okMem_elim (by assumption) | intro _ _ _ | intro _ _ | intro _
    | dsimp only | split

theorem State.transmit_memOk (s : State) (n : Nat) (y0 : Nat) (hs : s.memOk) : (State.transmit s n y0).memOk := by
  induction y0 generalizing s with
  | zero => simpa [State.transmit] using hs
  | succ fuel ih =>
  unfold State.transmit
  repeat' first
    | with_reducible assumption
    | with_reducible apply ih
    | with_reducible apply State.sendMessage_memOk
    | with_reducible apply ite_memOk
    | with_reducible apply foldl_memOk
    | with_reducible apply foldl_fst_memOk
    | with_reducible apply foldl_okMem
    | with_reducible apply okMem_ok
    | with_reducible apply okMem_error
    | with_reducible refine okMem_elim (by with_reducible assumption)
    | (intro _ _ _)
    | (intro _ _)
    | (intro _)
    | dsimp only
    | split
    | with_reducible refine pair_memOk (by with_reducible assumption) ?_
    | with_reducible refine okMem_mem (by with_reducible assumption) ?_

theorem State.drainQuad_memOk (s : State) (n : Nat) (hs : s.memOk) : (State.drainQuad s n).memOk := by
  unfold State.drainQuad
  with_reducible repeat' first
    | assumption | apply State.transmit_memOk | dsimp only

theorem State.takeAck_memOk (s : State) (n : Nat) (f : Flit) (hs : s.memOk) : (State.takeAck s n f).memOk := by
  unfold State.takeAck
  with_reducible repeat' first
    | assumption | apply ite_memOk | apply State.modQuad_memOk | intro _ _ _ | intro _ _ | intro _ | dsimp only | split

theorem State.replayFlits_memOk (s : State) (n : Nat) (hs : s.memOk) : (State.replayFlits s n).memOk := by
  unfold State.replayFlits
  with_reducible repeat' first
    | assumption | apply ite_memOk | apply State.event7F_memOk | apply State.modQuad_memOk | apply State.quadDown_memOk | intro _ _ _
    | intro _ _ | intro _ | dsimp only | split

theorem State.askReplay_memOk (s : State) (n : Nat) (hs : s.memOk) : (State.askReplay s n).memOk := by
  unfold State.askReplay
  with_reducible repeat' first
    | assumption | apply ite_memOk | apply State.bump_memOk | apply State.modQuad_memOk | apply State.sendFlit_memOk | intro _ _ _
    | intro _ _ | intro _ | dsimp only | split

theorem State.acceptFlit_memOk (s : State) (n : Nat) (f : Flit) (hs : s.memOk) : (State.acceptFlit s n f).1.memOk := by
  unfold State.acceptFlit
  with_reducible repeat' first
    | assumption | apply ite_memOk | apply State.bump_memOk | apply State.modQuad_memOk | intro _ _ _ | intro _ _ | intro _ | dsimp only
    | split

theorem State.acceptFlit_memOk' {s : State} {n : Nat} {f : Flit} {t : State} {x1 : List LinkMsg} (eqn : State.acceptFlit s n f = (t, x1)) (hs : s.memOk) : t.memOk :=
  pair_memOk eqn (State.acceptFlit_memOk s n f hs)

/-! LinkMessages -/

theorem State.answerMsg_memOk (s : State) (n : Nat) (m : LinkMsg) (op : BitVec 8) (st : Status) (payload : List Byte) (hs : s.memOk) : (State.answerMsg s n m op st payload).memOk := by
  unfold State.answerMsg
  with_reducible repeat' first
    | assumption | apply State.pushMsg_memOk | dsimp only

theorem State.refuseMsg_memOk (s : State) (n : Nat) (m : LinkMsg) (st : Status) (hs : s.memOk) : (State.refuseMsg s n m st).memOk := by
  unfold State.refuseMsg
  with_reducible repeat' first
    | assumption | apply State.answerMsg_memOk | dsimp only

theorem State.cannotServe_memOk (s : State) (n : Nat) (m : LinkMsg) (hs : s.memOk) : (State.cannotServe s n m).memOk := by
  unfold State.cannotServe
  with_reducible repeat' first
    | assumption | apply State.draw_memOk | refine State.draw_memOk' (by assumption) ?_ | apply State.refuseMsg_memOk | dsimp only | split

theorem State.request_memOk (s : State) (n : Nat) (m : LinkMsg) (go : Nat → State → State) (hs : s.memOk) (hgo : ∀ (z0 : Nat) (z1 : State), z1.memOk → (go z0 z1).memOk) : (State.request s n m go).memOk := by
  unfold State.request
  with_reducible repeat' first
    | assumption | apply State.refuseMsg_memOk | apply hgo | dsimp only | split

theorem State.notice_memOk (s : State) (n : Nat) (go : Nat → State → State) (hs : s.memOk) (hgo : ∀ (z0 : Nat) (z1 : State), z1.memOk → (go z0 z1).memOk) : (State.notice s n go).memOk := by
  unfold State.notice
  with_reducible repeat' first
    | assumption | apply hgo | dsimp only | split

theorem State.poolAsked_memOk (s : State) (n : Nat) (m : LinkMsg) (hs : s.memOk) : (State.poolAsked s n m).memOk := by
  unfold State.poolAsked
  with_reducible repeat' first
    | assumption | apply State.cannotServe_memOk | dsimp only

theorem State.poolReadAnswer_memOk (s : State) (n : Nat) (m : LinkMsg) (hs : s.memOk) : (State.poolReadAnswer s n m).memOk := by
  unfold State.poolReadAnswer
  with_reducible repeat' first
    | assumption | apply State.notice_memOk | apply State.poolData_memOk | intro _ _ _ | intro _ _ | intro _ | dsimp only

theorem State.poolWriteAnswer_memOk (s : State) (n : Nat) (m : LinkMsg) (hs : s.memOk) : (State.poolWriteAnswer s n m).memOk := by
  unfold State.poolWriteAnswer
  with_reducible repeat' first
    | assumption | apply State.notice_memOk | apply State.poolAck_memOk | intro _ _ _ | intro _ _ | intro _ | dsimp only

theorem State.failPool_memOk (s : State) (l : PoolLine) (hs : s.memOk) : (State.failPool s l).memOk := by
  unfold State.failPool
  with_reducible repeat' first
    | assumption | apply State.complete_memOk | apply State.faultUnresolvable_memOk | apply State.modPart_memOk | apply State.setLeaf_memOk
    | apply foldl_memOk | apply foldl_fst_memOk | apply foldl_okMem | apply okMem_ok | apply okMem_error | refine okMem_elim (by assumption)
    | intro _ _ _ | intro _ _ | intro _ | dsimp only | split

theorem State.poolTimeout_memOk (s : State) (xid seq : BitVec 16) (hs : s.memOk) : (State.poolTimeout s xid seq).memOk := by
  unfold State.poolTimeout
  with_reducible repeat' first
    | assumption | apply State.failPool_memOk | apply State.sendPool_memOk | apply State.takeXid_memOk
    | refine State.takeXid_memOk' (by assumption) ?_ | apply ite_memOk | apply foldl_memOk | apply foldl_fst_memOk | apply foldl_okMem
    | apply okMem_ok | apply okMem_error | refine okMem_elim (by assumption) | intro _ _ _ | intro _ _ | intro _ | dsimp only | split

theorem State.sendMsg_memOk (s : State) (n : Nat) (m : LinkMsg) (hs : s.memOk) : (State.sendMsg s n m).memOk := by
  unfold State.sendMsg
  with_reducible repeat' first
    | assumption | apply State.injectBnet_memOk | apply State.refuseMsg_memOk | apply State.request_memOk | apply ite_memOk
    | apply foldl_memOk | apply foldl_fst_memOk | apply foldl_okMem | apply okMem_ok | apply okMem_error | refine okMem_elim (by assumption)
    | intro _ _ _ | intro _ _ | intro _ | dsimp only | split

theorem State.sackMsg_memOk (s : State) (n : Nat) (m : LinkMsg) (hs : s.memOk) : (State.sackMsg s n m).memOk := by
  unfold State.sackMsg
  with_reducible repeat' first
    | assumption | apply State.notice_memOk | apply State.sackFor_memOk | apply ite_memOk | apply foldl_memOk | apply foldl_fst_memOk
    | apply foldl_okMem | apply okMem_ok | apply okMem_error | refine okMem_elim (by assumption) | intro _ _ _ | intro _ _ | intro _
    | dsimp only | split

theorem State.copyLines_memOk (s : State) (p : Nat) (e : StreamEntry) (h : Handle) (hs : s.memOk) : (State.copyLines s p e h).1.memOk := by
  unfold State.copyLines
  with_reducible repeat' first
    | assumption | apply State.pageBytes_memOk | refine State.pageBytes_memOk' (by assumption) ?_ | apply State.take_memOk | apply ite_memOk
    | apply foldl_memOk | apply foldl_fst_memOk | apply foldl_okMem | apply okMem_ok | apply okMem_error | refine okMem_elim (by assumption)
    | intro _ _ _ | intro _ _ | intro _ | dsimp only | split

theorem State.copyLines_memOk' {s : State} {p : Nat} {e : StreamEntry} {h : Handle} {t : State} {x1 : List (List Byte)} (eqn : State.copyLines s p e h = (t, x1)) (hs : s.memOk) : t.memOk :=
  pair_memOk eqn (State.copyLines_memOk s p e h hs)

theorem State.sendCopies_memOk (s : State) (n p : Nat) (x : Migration) (hs : s.memOk) : (State.sendCopies s n p x).memOk := by
  unfold State.sendCopies
  with_reducible repeat' first
    | assumption | apply State.copyLines_memOk | refine State.copyLines_memOk' (by assumption) ?_ | apply State.modPart_memOk
    | apply State.pushMsg_memOk | apply foldl_memOk | apply foldl_fst_memOk | intro _ _ _ | intro _ _ | intro _ | dsimp only | split

theorem State.migrateAsked_memOk (s : State) (n : Nat) (m : LinkMsg) (hs : s.memOk) : (State.migrateAsked s n m).memOk := by
  unfold State.migrateAsked
  refine State.request_memOk _ _ _ _ hs (fun p s hs => ?_)
  refine ite_memOk (State.sendMgmt_memOk _ _ _ _ _ _ _ _ hs) (ite_memOk (State.sendMgmt_memOk _ _ _ _ _ _ _ _ hs)
    (ite_memOk (State.sendMgmt_memOk _ _ _ _ _ _ _ _ hs) ?_))
  have ht := State.takePage_memOk s p hs
  generalize State.takePage s p = x at ht ⊢
  obtain ⟨t, staging⟩ := x
  dsimp only at ht ⊢
  split
  · rename_i e
    have h := State.admitArrival_memOk' e ht
    exact State.sendMgmt_memOk _ _ _ _ _ _ _ _ h
  · rename_i e
    have h := State.admitArrival_memOk' e ht
    exact State.sendMgmt_memOk _ _ _ _ _ _ _ _ h

theorem State.copyArrives_memOk (s : State) (n : Nat) (m : LinkMsg) (hs : s.memOk) : (State.copyArrives s n m).memOk := by
  unfold State.copyArrives
  with_reducible repeat' first
    | assumption | apply ite_memOk | apply State.answerMsg_memOk | apply State.modPart_memOk | apply State.request_memOk
    | apply State.stateWrite_memOk | apply foldl_okMem | apply okMem_ok | apply okMem_error | refine okMem_elim (by assumption)
    | intro _ _ _ | intro _ _ | intro _ | dsimp only | split

theorem State.copyAnswered_memOk (s : State) (n : Nat) (m : LinkMsg) (hs : s.memOk) : (State.copyAnswered s n m).memOk := by
  unfold State.copyAnswered
  with_reducible repeat' first
    | assumption | apply ite_memOk | apply State.failMigration_memOk | apply State.notice_memOk | apply foldl_okMem | apply okMem_ok
    | apply okMem_error | refine okMem_elim (by assumption) | intro _ _ _ | intro _ _ | intro _ | dsimp only | split

theorem State.migrateAdmitted_memOk (s : State) (n : Nat) (m : LinkMsg) (hs : s.memOk) : (State.migrateAdmitted s n m).memOk := by
  unfold State.migrateAdmitted
  with_reducible repeat' first
    | assumption | apply ite_memOk | apply State.failMigration_memOk | apply State.modPart_memOk | apply State.notice_memOk
    | apply State.sendCopies_memOk | apply foldl_okMem | apply okMem_ok | apply okMem_error | refine okMem_elim (by assumption)
    | intro _ _ _ | intro _ _ | intro _ | dsimp only | split

theorem State.migrateFinished_memOk (s : State) (n : Nat) (m : LinkMsg) (hs : s.memOk) : (State.migrateFinished s n m).memOk := by
  unfold State.migrateFinished
  with_reducible repeat' first
    | assumption | apply State.failMigration_memOk | apply State.migrated_memOk | apply State.notice_memOk | apply foldl_okMem
    | apply okMem_ok | apply okMem_error | refine okMem_elim (by assumption) | intro _ _ _ | intro _ _ | intro _ | dsimp only | split

theorem State.errMsg_memOk (s : State) (n : Nat) (m : LinkMsg) (hs : s.memOk) : (State.errMsg s n m).memOk := by
  unfold State.errMsg
  with_reducible repeat' first
    | assumption | apply ite_memOk | apply State.busMove_memOk | apply State.failMigration_memOk | apply State.notice_memOk | intro _ _ _
    | intro _ _ | intro _ | dsimp only | split

theorem State.endExchanges_memOk (s : State) (m : BitVec 13) (hs : s.memOk) : (State.endExchanges s m).memOk := by
  unfold State.endExchanges
  with_reducible repeat' first
    | assumption | apply State.dropArrival_memOk | apply State.failMigration_memOk | apply State.fencePeer_memOk | apply ite_memOk
    | apply foldl_memOk | apply foldl_fst_memOk | apply foldl_okMem | apply okMem_ok | apply okMem_error | refine okMem_elim (by assumption)
    | intro _ _ _ | intro _ _ | intro _ | dsimp only | split

theorem State.peerSafety_memOk (s : State) (n : Nat) (m : BitVec 13) (hs : s.memOk) : (State.peerSafety s n m).memOk := by
  unfold State.peerSafety
  with_reducible repeat' first
    | assumption | apply State.safetyAt_memOk | dsimp only

theorem State.e2eArrives_memOk (s : State) (n : Nat) (m : LinkMsg) (hs : s.memOk) : (State.e2eArrives s n m).memOk := by
  unfold State.e2eArrives
  with_reducible repeat' first
    | assumption | apply ite_memOk | apply State.endExchanges_memOk | apply State.notice_memOk | apply State.peerSafety_memOk | intro _ _ _
    | intro _ _ | intro _ | dsimp only | split

theorem State.writeSpanOfs_memOk (s : State) (p : Nat) (m : BitVec 13) (first : Nat) (hs : s.memOk) : (State.writeSpanOfs s p m first).memOk := by
  unfold State.writeSpanOfs
  with_reducible repeat' first
    | assumption | apply State.draw_memOk | refine State.draw_memOk' (by assumption) ?_ | apply State.setReg_memOk | apply foldl_memOk
    | apply foldl_fst_memOk | intro _ _ _ | intro _ _ | intro _ | dsimp only | split

theorem State.failSpanLoad_memOk (s : State) (p : Nat) (st : Status) (hs : s.memOk) : (State.failSpanLoad s p st).memOk := by
  unfold State.failSpanLoad
  with_reducible repeat' first
    | assumption | apply State.endLoad_memOk | apply State.modPart_memOk | apply State.sendLoadFail_memOk | intro _ _ _ | intro _ _
    | intro _ | dsimp only

theorem State.spanConfirmed_memOk (s : State) (n : Nat) (m : LinkMsg) (hs : s.memOk) : (State.spanConfirmed s n m).memOk := by
  unfold State.spanConfirmed
  with_reducible repeat' first
    | assumption | apply State.failSpanLoad_memOk | apply State.modPart_memOk | apply State.request_memOk
    | apply State.sendSpanConfirm_memOk | apply State.writeSpanOfs_memOk | apply ite_memOk | apply foldl_memOk | apply foldl_fst_memOk
    | apply foldl_okMem | apply okMem_ok | apply okMem_error | refine okMem_elim (by assumption) | intro _ _ _ | intro _ _ | intro _
    | dsimp only | split

theorem State.spanTimeout_memOk (s : State) (p : Nat) (hs : s.memOk) : (State.spanTimeout s p).memOk := by
  unfold State.spanTimeout
  with_reducible repeat' first
    | assumption | apply ite_memOk | apply State.failSpanLoad_memOk | dsimp only | split

theorem State.spanFailed_memOk (s : State) (n : Nat) (m : LinkMsg) (hs : s.memOk) : (State.spanFailed s n m).memOk := by
  unfold State.spanFailed
  with_reducible repeat' first
    | assumption | apply State.endLoad_memOk | apply State.modPart_memOk | apply State.request_memOk | apply ite_memOk | apply foldl_memOk
    | apply foldl_fst_memOk | apply foldl_okMem | apply okMem_ok | apply okMem_error | refine okMem_elim (by assumption) | intro _ _ _
    | intro _ _ | intro _ | dsimp only | split

theorem State.spanAborted_memOk (s : State) (n : Nat) (m : LinkMsg) (hs : s.memOk) : (State.spanAborted s n m).memOk := by
  unfold State.spanAborted
  with_reducible repeat' first
    | assumption | apply ite_memOk | apply State.request_memOk | apply State.safetyAt_memOk | apply State.spanLost_memOk | intro _ _ _
    | intro _ _ | intro _ | dsimp only | split

theorem State.spanChanged_memOk (s : State) (n : Nat) (m : LinkMsg) (hs : s.memOk) : (State.spanChanged s n m).memOk := by
  unfold State.spanChanged
  with_reducible repeat' first
    | assumption | apply ite_memOk | apply State.modPart_memOk | apply State.request_memOk | intro _ _ _ | intro _ _ | intro _ | dsimp only
    | split

theorem State.pauseAnnounced_memOk (s : State) (n : Nat) (m : LinkMsg) (hs : s.memOk) : (State.pauseAnnounced s n m).memOk := by
  unfold State.pauseAnnounced
  with_reducible repeat' first
    | assumption | apply ite_memOk | apply State.modPart_memOk | apply State.request_memOk | intro _ _ _ | intro _ _ | intro _ | dsimp only
    | split

theorem State.doneReported_memOk (s : State) (n : Nat) (m : LinkMsg) (hs : s.memOk) : (State.doneReported s n m).memOk := by
  unfold State.doneReported
  with_reducible repeat' first
    | assumption | apply ite_memOk | apply State.leavePause_memOk | apply State.modPart_memOk | apply State.notice_memOk
    | apply State.setPhase_memOk | intro _ _ _ | intro _ _ | intro _ | dsimp only | split

theorem State.commandMsg_memOk (s : State) (n : Nat) (m : LinkMsg) (found : TestFindings) (hs : s.memOk) : (State.commandMsg s n m found).memOk := by
  unfold State.commandMsg
  with_reducible repeat' first
    | assumption | apply State.cannotServe_memOk | apply State.mailCommand_memOk | apply State.request_memOk | apply State.take_memOk
    | apply ite_memOk | apply foldl_memOk | apply foldl_fst_memOk | apply foldl_okMem | apply okMem_ok | apply okMem_error
    | refine okMem_elim (by assumption) | intro _ _ _ | intro _ _ | intro _ | dsimp only | split

theorem State.completionMsg_memOk (s : State) (_n : Nat) (_m : LinkMsg) (hs : s.memOk) : (State.completionMsg s _n _m).memOk := by
  unfold State.completionMsg
  with_reducible repeat' first
    | assumption | dsimp only

theorem State.mgmtArrives_memOk (s : State) (n : Nat) (m : LinkMsg) (hs : s.memOk) : (State.mgmtArrives s n m).memOk := by
  unfold State.mgmtArrives
  with_reducible repeat' first
    | assumption | apply State.commandMsg_memOk | apply State.completionMsg_memOk | apply State.migrateAdmitted_memOk
    | apply State.migrateAsked_memOk | apply State.migrateFinished_memOk | apply State.pauseAnnounced_memOk | apply State.refuseMsg_memOk
    | apply State.spanAborted_memOk | apply State.spanChanged_memOk | apply State.spanConfirmed_memOk | apply State.spanFailed_memOk
    | dsimp only | split

theorem State.messageArrives_memOk (s : State) (n : Nat) (m : LinkMsg) (hs : s.memOk) : (State.messageArrives s n m).memOk := by
  unfold State.messageArrives
  with_reducible repeat' first
    | assumption | apply State.cannotServe_memOk | apply State.copyAnswered_memOk | apply State.copyArrives_memOk
    | apply State.e2eArrives_memOk | apply State.errMsg_memOk | apply State.mgmtArrives_memOk | apply State.poolAsked_memOk
    | apply State.poolReadAnswer_memOk | apply State.poolWriteAnswer_memOk | apply State.sackMsg_memOk | apply State.sendMsg_memOk
    | dsimp only | split

/-! OpticalCommands -/

theorem State.badFlit_memOk (s : State) (n : Nat) (f : Flit) (hs : s.memOk) : (State.badFlit s n f).memOk := by
  unfold State.badFlit
  with_reducible repeat' first
    | assumption | apply ite_memOk | apply State.askReplay_memOk | apply State.bump_memOk | apply State.draw_memOk
    | refine State.draw_memOk' (by assumption) ?_ | dsimp only | split

theorem State.dataFlit_memOk (s : State) (n : Nat) (f : Flit) (hs : s.memOk) : (State.dataFlit s n f).memOk := by
  unfold State.dataFlit
  with_reducible repeat' first
    | assumption | apply ite_memOk | apply State.acceptFlit_memOk | refine State.acceptFlit_memOk' (by assumption) ?_
    | apply State.askReplay_memOk | apply State.messageArrives_memOk | apply foldl_memOk | apply foldl_fst_memOk | intro _ _ _ | intro _ _
    | intro _ | dsimp only | split

theorem execFlitReceipt_memOk {quad : Nat} {f : Flit} {s : State} {u : State} (eqn : execFlitReceipt quad f s = .next u) (hs : s.memOk) : u.memOk := by
  unfold execFlitReceipt at eqn
  cases eqn
  with_reducible repeat' first
    | assumption | apply State.badFlit_memOk | apply State.dataFlit_memOk | apply State.drainQuad_memOk | apply State.takeAck_memOk
    | apply ite_memOk | apply foldl_memOk | apply foldl_fst_memOk | apply foldl_okMem | apply okMem_ok | apply okMem_error
    | refine okMem_elim (by assumption) | intro _ _ _ | intro _ _ | intro _ | dsimp only | split

theorem execRetryReq_memOk {quad : Nat} {ack : BitVec 16} {s : State} {u : State} (eqn : execRetryReq quad ack s = .next u) (hs : s.memOk) : u.memOk := by
  unfold execRetryReq at eqn
  cases eqn
  with_reducible repeat' first
    | assumption | apply ite_memOk | apply State.drainQuad_memOk | apply State.modQuad_memOk | apply State.replayFlits_memOk | intro _ _ _
    | intro _ _ | intro _ | dsimp only | split

theorem execFlitReplayTimeout_memOk {quad : Nat} {s : State} {u : State} (eqn : execFlitReplayTimeout quad s = .next u) (hs : s.memOk) : u.memOk := by
  unfold execFlitReplayTimeout at eqn
  cases eqn
  with_reducible repeat' first
    | assumption | apply ite_memOk | apply State.replayFlits_memOk | dsimp only | split

theorem State.setLaser_memOk (s : State) (n : Nat) (low : Bool) (hs : s.memOk) : (State.setLaser s n low).memOk := by
  unfold State.setLaser
  with_reducible repeat' first
    | assumption | apply State.setFlag_memOk | apply foldl_memOk | apply foldl_fst_memOk | intro _ _ _ | intro _ _ | intro _ | dsimp only

theorem execQuadDown_memOk {quad : Nat} {cause : DownCause} {s : State} {u : State} (eqn : execQuadDown quad cause s = .next u) (hs : s.memOk) : u.memOk := by
  unfold execQuadDown at eqn
  cases eqn
  with_reducible repeat' first
    | assumption | apply ite_memOk | apply State.event7F_memOk | apply State.quadDown_memOk | apply State.setFlag_memOk
    | apply State.setLaser_memOk | dsimp only | split

theorem execLaneLock_memOk {quad : Nat} {s : State} {u : State} (eqn : execLaneLock quad s = .next u) (hs : s.memOk) : u.memOk := by
  unfold execLaneLock at eqn
  cases eqn
  with_reducible repeat' first
    | assumption | apply ite_memOk | apply State.modQuad_memOk | apply State.setFlag_memOk | apply State.setLaser_memOk | intro _ _ _
    | intro _ _ | intro _ | dsimp only | split

theorem execHelloSend_memOk {quad : Nat} {s : State} {u : State} (eqn : execHelloSend quad s = .next u) (hs : s.memOk) : u.memOk := by
  unfold execHelloSend at eqn
  cases eqn
  with_reducible repeat' first
    | assumption | apply ite_memOk | apply State.sendFlit_memOk | dsimp only | split

theorem State.takeHello_memOk (s : State) (n : Nat) (f : Flit) (arrival : Word) (hs : s.memOk) : (State.takeHello s n f arrival).memOk := by
  unfold State.takeHello
  with_reducible repeat' first
    | assumption | apply ite_memOk | apply State.hold_memOk | apply State.modQuad_memOk | apply State.setField_memOk
    | apply State.setReg_memOk | apply foldl_memOk | apply foldl_fst_memOk | intro _ _ _ | intro _ _ | intro _ | dsimp only | split

theorem execHello_memOk {quad : Nat} {f : Flit} {arrival : Word} {s : State} {u : State} (eqn : execHello quad f arrival s = .next u) (hs : s.memOk) : u.memOk := by
  unfold execHello at eqn
  cases eqn
  with_reducible repeat' first
    | assumption | apply State.bringUp_memOk | apply State.bump_memOk | apply State.takeHello_memOk | apply ite_memOk | apply foldl_memOk
    | apply foldl_fst_memOk | apply foldl_okMem | apply okMem_ok | apply okMem_error | refine okMem_elim (by assumption) | intro _ _ _
    | intro _ _ | intro _ | dsimp only | split

theorem execTrainingAttemptTimeout_memOk {quad : Nat} {s : State} {u : State} (eqn : execTrainingAttemptTimeout quad s = .next u) (hs : s.memOk) : u.memOk := by
  unfold execTrainingAttemptTimeout at eqn
  cases eqn
  with_reducible repeat' first
    | assumption | apply ite_memOk | apply State.failAttempt_memOk | dsimp only | split

theorem execBackgroundAttempt_memOk {quad : Nat} {s : State} {u : State} (eqn : execBackgroundAttempt quad s = .next u) (hs : s.memOk) : u.memOk := by
  unfold execBackgroundAttempt at eqn
  cases eqn
  with_reducible repeat' first
    | assumption | apply ite_memOk | apply State.startTraining_memOk | dsimp only | split

theorem execFecRetrain_memOk {quad : Nat} {corrected : BitVec 32} {s : State} {u : State} (eqn : execFecRetrain quad corrected s = .next u) (hs : s.memOk) : u.memOk := by
  unfold execFecRetrain at eqn
  cases eqn
  with_reducible repeat' first
    | assumption | apply ite_memOk | apply State.bump_memOk | apply State.retrainQuad_memOk | dsimp only | split

theorem execKnockSend_memOk {quad : Nat} {s : State} {u : State} (eqn : execKnockSend quad s = .next u) (hs : s.memOk) : u.memOk := by
  unfold execKnockSend at eqn
  cases eqn
  with_reducible repeat' first
    | assumption | apply ite_memOk | apply State.drainQuad_memOk | apply State.modQuad_memOk | apply State.sendFlit_memOk
    | apply foldl_memOk | apply foldl_fst_memOk | intro _ _ _ | intro _ _ | intro _ | dsimp only | split

theorem State.fenceSilent_memOk (s : State) (n : Nat) (m : BitVec 13) (hs : s.memOk) : (State.fenceSilent s n m).memOk := by
  unfold State.fenceSilent
  with_reducible repeat' first
    | assumption | apply ite_memOk | apply State.fencePeer_memOk | apply State.peerSafety_memOk | dsimp only | split

theorem execKnock_memOk {quad : Nat} {f : Flit} {s : State} {u : State} (eqn : execKnock quad f s = .next u) (hs : s.memOk) : u.memOk := by
  unfold execKnock at eqn
  cases eqn
  with_reducible repeat' first
    | assumption | apply State.bump_memOk | apply State.drainQuad_memOk | apply State.fenceSilent_memOk | apply State.modQuad_memOk
    | apply State.takeAck_memOk | apply ite_memOk | apply foldl_memOk | apply foldl_fst_memOk | apply foldl_okMem | apply okMem_ok
    | apply okMem_error | refine okMem_elim (by assumption) | intro _ _ _ | intro _ _ | intro _ | dsimp only | split

theorem execKnockWindowExpiry_memOk {quad : Nat} {s : State} {u : State} (eqn : execKnockWindowExpiry quad s = .next u) (hs : s.memOk) : u.memOk := by
  unfold execKnockWindowExpiry at eqn
  cases eqn
  with_reducible repeat' first
    | assumption | apply State.bump_memOk | apply State.fenceSilent_memOk | apply State.modQuad_memOk | apply State.quadDown_memOk
    | apply ite_memOk | apply foldl_memOk | apply foldl_fst_memOk | apply foldl_okMem | apply okMem_ok | apply okMem_error
    | refine okMem_elim (by assumption) | intro _ _ _ | intro _ _ | intro _ | dsimp only | split

theorem execE2eKnockSend_memOk {module : BitVec 13} {s : State} {u : State} (eqn : execE2eKnockSend module s = .next u) (hs : s.memOk) : u.memOk := by
  unfold execE2eKnockSend at eqn
  cases eqn
  with_reducible repeat' first
    | assumption | apply ite_memOk | apply State.pushMsg_memOk | intro _ _ _ | intro _ _ | intro _ | dsimp only | split

theorem execE2eKnockMiss_memOk {module : BitVec 13} {s : State} {u : State} (eqn : execE2eKnockMiss module s = .next u) (hs : s.memOk) : u.memOk := by
  unfold execE2eKnockMiss at eqn
  cases eqn
  with_reducible repeat' first
    | assumption | apply State.endExchanges_memOk | apply State.safetyAt_memOk | apply ite_memOk | apply foldl_memOk | apply foldl_fst_memOk
    | apply foldl_okMem | apply okMem_ok | apply okMem_error | refine okMem_elim (by assumption) | intro _ _ _ | intro _ _ | intro _
    | dsimp only | split

theorem execCsyncRequest_memOk {s : State} {u : State} (eqn : execCsyncRequest s = .next u) (hs : s.memOk) : u.memOk := by
  unfold execCsyncRequest at eqn
  cases eqn
  with_reducible repeat' first
    | assumption | apply ite_memOk | apply State.sendFlit_memOk | apply foldl_memOk | apply foldl_fst_memOk | intro _ _ _ | intro _ _
    | intro _ | dsimp only | split

theorem State.electRoot_memOk (s : State) (hs : s.memOk) : (State.electRoot s).memOk := by
  unfold State.electRoot
  with_reducible repeat' first
    | assumption | apply State.setField_memOk | apply State.setFlag_memOk | apply ite_memOk | apply foldl_memOk | apply foldl_fst_memOk
    | apply foldl_okMem | apply okMem_ok | apply okMem_error | refine okMem_elim (by assumption) | intro _ _ _ | intro _ _ | intro _
    | dsimp only | split

theorem State.applyOffset_memOk (s : State) (x : Int) (hs : s.memOk) : (State.applyOffset s x).memOk := by
  unfold State.applyOffset
  with_reducible repeat' first
    | assumption | apply ite_memOk | apply State.setClock_memOk | apply State.setReg_memOk | apply State.setSlew_memOk | dsimp only | split

theorem State.judgeOffset_memOk (s : State) (x : Int) (hs : s.memOk) : (State.judgeOffset s x).memOk := by
  unfold State.judgeOffset
  with_reducible repeat' first
    | assumption | apply ite_memOk | apply State.event7F_memOk | apply State.setFlag_memOk | dsimp only | split

theorem State.takeOffset_memOk (s : State) (d : List Byte) (t4 : Word) (hs : s.memOk) : (State.takeOffset s d t4).memOk := by
  unfold State.takeOffset
  with_reducible repeat' first
    | assumption | apply ite_memOk | apply State.applyOffset_memOk | apply State.judgeOffset_memOk | dsimp only | split

theorem execCsync_memOk {quad : Nat} {f : Flit} {arrival : Word} {s : State} {u : State} (eqn : execCsync quad f arrival s = .next u) (hs : s.memOk) : u.memOk := by
  unfold execCsync at eqn
  cases eqn
  with_reducible repeat' first
    | assumption | apply State.bump_memOk | apply State.drainQuad_memOk | apply State.electRoot_memOk | apply State.sendFlit_memOk
    | apply State.takeAck_memOk | apply State.takeOffset_memOk | apply ite_memOk | apply foldl_memOk | apply foldl_fst_memOk
    | apply foldl_okMem | apply okMem_ok | apply okMem_error | refine okMem_elim (by assumption) | intro _ _ _ | intro _ _ | intro _
    | dsimp only | split

theorem execPrd_memOk {quad : Nat} {m : LinkMsg} {s : State} {u : State} (eqn : execPrd quad m s = .next u) (hs : s.memOk) : u.memOk := by
  unfold execPrd at eqn
  cases eqn
  with_reducible repeat' first
    | assumption | apply State.poolAsked_memOk | dsimp only

theorem execPdata_memOk {quad : Nat} {m : LinkMsg} {s : State} {u : State} (eqn : execPdata quad m s = .next u) (hs : s.memOk) : u.memOk := by
  unfold execPdata at eqn
  cases eqn
  with_reducible repeat' first
    | assumption | apply State.poolReadAnswer_memOk | dsimp only

theorem execPwr_memOk {quad : Nat} {m : LinkMsg} {s : State} {u : State} (eqn : execPwr quad m s = .next u) (hs : s.memOk) : u.memOk := by
  unfold execPwr at eqn
  cases eqn
  with_reducible repeat' first
    | assumption | apply State.poolAsked_memOk | dsimp only

theorem execPwack_memOk {quad : Nat} {m : LinkMsg} {s : State} {u : State} (eqn : execPwack quad m s = .next u) (hs : s.memOk) : u.memOk := by
  unfold execPwack at eqn
  cases eqn
  with_reducible repeat' first
    | assumption | apply State.poolWriteAnswer_memOk | dsimp only

theorem execOpticalSend_memOk {quad : Nat} {m : LinkMsg} {s : State} {u : State} (eqn : execOpticalSend quad m s = .next u) (hs : s.memOk) : u.memOk := by
  unfold execOpticalSend at eqn
  cases eqn
  with_reducible repeat' first
    | assumption | apply State.sendMsg_memOk | dsimp only

theorem execOpticalSack_memOk {quad : Nat} {m : LinkMsg} {s : State} {u : State} (eqn : execOpticalSack quad m s = .next u) (hs : s.memOk) : u.memOk := by
  unfold execOpticalSack at eqn
  cases eqn
  with_reducible repeat' first
    | assumption | apply State.sackMsg_memOk | dsimp only

theorem execCopy_memOk {quad : Nat} {m : LinkMsg} {s : State} {u : State} (eqn : execCopy quad m s = .next u) (hs : s.memOk) : u.memOk := by
  unfold execCopy at eqn
  cases eqn
  with_reducible repeat' first
    | assumption | apply State.copyArrives_memOk | dsimp only

theorem execCack_memOk {quad : Nat} {m : LinkMsg} {s : State} {u : State} (eqn : execCack quad m s = .next u) (hs : s.memOk) : u.memOk := by
  unfold execCack at eqn
  cases eqn
  with_reducible repeat' first
    | assumption | apply State.copyAnswered_memOk | dsimp only

theorem execErr_memOk {quad : Nat} {m : LinkMsg} {s : State} {u : State} (eqn : execErr quad m s = .next u) (hs : s.memOk) : u.memOk := by
  unfold execErr at eqn
  cases eqn
  with_reducible repeat' first
    | assumption | apply State.errMsg_memOk | dsimp only

theorem execE2eKnock_memOk {quad : Nat} {m : LinkMsg} {s : State} {u : State} (eqn : execE2eKnock quad m s = .next u) (hs : s.memOk) : u.memOk := by
  unfold execE2eKnock at eqn
  cases eqn
  with_reducible repeat' first
    | assumption | apply State.e2eArrives_memOk | dsimp only

theorem execPoolLineTimeout_memOk {xid : BitVec 16} {seq : BitVec 16} {s : State} {u : State} (eqn : execPoolLineTimeout xid seq s = .next u) (hs : s.memOk) : u.memOk := by
  unfold execPoolLineTimeout at eqn
  cases eqn
  with_reducible repeat' first
    | assumption | apply State.poolTimeout_memOk | dsimp only

theorem execCommand_memOk {quad : Nat} {m : LinkMsg} {found : TestFindings} {s : State} {u : State} (eqn : execCommand quad m found s = .next u) (hs : s.memOk) : u.memOk := by
  unfold execCommand at eqn
  cases eqn
  with_reducible repeat' first
    | assumption | apply State.commandMsg_memOk | dsimp only

theorem execCompletion_memOk {quad : Nat} {m : LinkMsg} {s : State} {u : State} (eqn : execCompletion quad m s = .next u) (hs : s.memOk) : u.memOk := by
  unfold execCompletion at eqn
  cases eqn
  with_reducible repeat' first
    | assumption | apply State.completionMsg_memOk | dsimp only

theorem execSpanConfirm_memOk {quad : Nat} {m : LinkMsg} {s : State} {u : State} (eqn : execSpanConfirm quad m s = .next u) (hs : s.memOk) : u.memOk := by
  unfold execSpanConfirm at eqn
  cases eqn
  with_reducible repeat' first
    | assumption | apply State.spanConfirmed_memOk | dsimp only

theorem execSpanConfirmTimeout_memOk {part : Nat} {s : State} {u : State} (eqn : execSpanConfirmTimeout part s = .next u) (hs : s.memOk) : u.memOk := by
  unfold execSpanConfirmTimeout at eqn
  cases eqn
  with_reducible repeat' first
    | assumption | apply State.spanTimeout_memOk | dsimp only

theorem execSpanLoadFail_memOk {quad : Nat} {m : LinkMsg} {s : State} {u : State} (eqn : execSpanLoadFail quad m s = .next u) (hs : s.memOk) : u.memOk := by
  unfold execSpanLoadFail at eqn
  cases eqn
  with_reducible repeat' first
    | assumption | apply State.spanFailed_memOk | dsimp only

theorem execSpanAbort_memOk {quad : Nat} {m : LinkMsg} {s : State} {u : State} (eqn : execSpanAbort quad m s = .next u) (hs : s.memOk) : u.memOk := by
  unfold execSpanAbort at eqn
  cases eqn
  with_reducible repeat' first
    | assumption | apply State.spanAborted_memOk | dsimp only

theorem execSpanChange_memOk {quad : Nat} {m : LinkMsg} {s : State} {u : State} (eqn : execSpanChange quad m s = .next u) (hs : s.memOk) : u.memOk := by
  unfold execSpanChange at eqn
  cases eqn
  with_reducible repeat' first
    | assumption | apply State.spanChanged_memOk | dsimp only

theorem execDebugPause_memOk {quad : Nat} {m : LinkMsg} {s : State} {u : State} (eqn : execDebugPause quad m s = .next u) (hs : s.memOk) : u.memOk := by
  unfold execDebugPause at eqn
  cases eqn
  with_reducible repeat' first
    | assumption | apply State.pauseAnnounced_memOk | dsimp only

theorem execMigrateReq_memOk {quad : Nat} {m : LinkMsg} {s : State} {u : State} (eqn : execMigrateReq quad m s = .next u) (hs : s.memOk) : u.memOk := by
  unfold execMigrateReq at eqn
  cases eqn
  with_reducible repeat' first
    | assumption | apply State.migrateAsked_memOk | dsimp only

theorem execMigrateAdmit_memOk {quad : Nat} {m : LinkMsg} {s : State} {u : State} (eqn : execMigrateAdmit quad m s = .next u) (hs : s.memOk) : u.memOk := by
  unfold execMigrateAdmit at eqn
  cases eqn
  with_reducible repeat' first
    | assumption | apply State.migrateAdmitted_memOk | dsimp only

theorem execMigrateDone_memOk {quad : Nat} {m : LinkMsg} {s : State} {u : State} (eqn : execMigrateDone quad m s = .next u) (hs : s.memOk) : u.memOk := by
  unfold execMigrateDone at eqn
  cases eqn
  with_reducible repeat' first
    | assumption | apply State.migrateFinished_memOk | dsimp only

theorem execDoneReport_memOk {quad : Nat} {m : LinkMsg} {s : State} {u : State} (eqn : execDoneReport quad m s = .next u) (hs : s.memOk) : u.memOk := by
  unfold execDoneReport at eqn
  cases eqn
  with_reducible repeat' first
    | assumption | apply State.doneReported_memOk | dsimp only

/-! Power -/

theorem execVoltageLoop_memOk {region : Nat} {minCode hostCode : BitVec 8} {current : BitVec 16} {s : State} {u : State} (eqn : execVoltageLoop region minCode hostCode current s = .next u) (hs : s.memOk) : u.memOk := by
  unfold execVoltageLoop at eqn
  cases eqn
  with_reducible repeat' first
    | assumption | apply ite_memOk | apply State.event7F_memOk | apply State.modPart_memOk | apply State.setField_memOk
    | apply State.setFlag_memOk | apply State.setMargins_memOk | intro _ _ _ | intro _ _ | intro _ | dsimp only | split

theorem State.slowHost_memOk (s : State) (h : Nat) (hs : s.memOk) : (State.slowHost s h).memOk := by
  unfold State.slowHost
  with_reducible repeat' first
    | assumption | apply ite_memOk | apply State.setReg_memOk | dsimp only | split

theorem State.hostResponse_memOk (s : State) (hs : s.memOk) : (State.hostResponse s).memOk := by
  unfold State.hostResponse
  with_reducible repeat' first
    | assumption | apply ite_memOk | apply State.setFlag_memOk | apply State.slowHost_memOk | apply foldl_memOk | apply foldl_fst_memOk
    | intro _ _ _ | intro _ _ | intro _ | dsimp only | split

theorem execPowerMeasurement_memOk {module : BitVec 32} {parts : List (Nat × BitVec 32 × BitVec 32)} {module100 : BitVec 32} {regions : List (Nat × BitVec 48)} {s : State} {u : State} (eqn : execPowerMeasurement module parts module100 regions s = .next u) (hs : s.memOk) : u.memOk := by
  unfold execPowerMeasurement at eqn
  cases eqn
  with_reducible repeat' first
    | assumption | apply ite_memOk | apply State.hostResponse_memOk | apply State.setFlag_memOk | apply State.setReg_memOk
    | apply foldl_memOk | apply foldl_fst_memOk | intro _ _ _ | intro _ _ | intro _ | dsimp only | split

theorem execSupplyOutOfWindow_memOk {region : Nat} {isC : Bool} {s : State} {u : State} (eqn : execSupplyOutOfWindow region isC s = .next u) (hs : s.memOk) : u.memOk := by
  unfold execSupplyOutOfWindow at eqn
  cases eqn
  with_reducible repeat' first
    | assumption | apply State.holdRegion_memOk | apply State.safetyAt_memOk | apply State.setFlag_memOk | apply ite_memOk
    | apply foldl_memOk | apply foldl_fst_memOk | apply foldl_okMem | apply okMem_ok | apply okMem_error | refine okMem_elim (by assumption)
    | intro _ _ _ | intro _ _ | intro _ | dsimp only | split

theorem execSupplyInWindow_memOk {region : Nat} {isC : Bool} {s : State} {u : State} (eqn : execSupplyInWindow region isC s = .next u) (hs : s.memOk) : u.memOk := by
  unfold execSupplyInWindow at eqn
  cases eqn
  with_reducible repeat' first
    | assumption | apply ite_memOk | apply foldl_memOk | apply foldl_fst_memOk | apply foldl_okMem | apply okMem_ok | apply okMem_error
    | refine okMem_elim (by assumption) | intro _ _ _ | intro _ _ | intro _ | dsimp only | split

theorem execRegionOvercurrent_memOk {region : Nat} {s : State} {u : State} (eqn : execRegionOvercurrent region s = .next u) (hs : s.memOk) : u.memOk := by
  unfold execRegionOvercurrent at eqn
  cases eqn
  with_reducible repeat' first
    | assumption | apply ite_memOk | apply State.bump_memOk | apply State.holdRegion_memOk | apply State.safetyAt_memOk
    | apply State.setFlag_memOk | dsimp only | split

theorem State.heat_memOk (s : State) (q owner : Nat) (t : Int) (hs : s.memOk) : (State.heat s q owner t).memOk := by
  unfold State.heat
  with_reducible repeat' first
    | assumption | apply ite_memOk | apply State.bump_memOk | apply State.event7F_memOk | intro _ _ _ | intro _ _ | intro _ | dsimp only
    | split

theorem State.coolDown_memOk (s : State) (hs : s.memOk) : (State.coolDown s).memOk := by
  unfold State.coolDown
  with_reducible repeat' first
    | assumption | intro _ _ _ | intro _ _ | intro _ | dsimp only

theorem State.writeHeat_memOk (s : State) (r : Nat) (hs : s.memOk) : (State.writeHeat s r).memOk := by
  unfold State.writeHeat
  with_reducible repeat' first
    | assumption | apply State.setFlag_memOk | apply State.setReg_memOk | dsimp only | split

theorem State.takeTemp_memOk (s : State) (q : Nat) (panel above : BitVec 16) (hs : s.memOk) : (State.takeTemp s q panel above).memOk := by
  unfold State.takeTemp
  with_reducible repeat' first
    | assumption | apply State.setReg_memOk | apply ite_memOk | apply foldl_memOk | apply foldl_fst_memOk | apply foldl_okMem
    | apply okMem_ok | apply okMem_error | refine okMem_elim (by assumption) | intro _ _ _ | intro _ _ | intro _ | dsimp only | split

theorem State.sample_memOk (s : State) (q : Nat) (panel above : BitVec 16) (hs : s.memOk) : (State.sample s q panel above).memOk := by
  unfold State.sample
  with_reducible repeat' first
    | assumption | apply State.coolDown_memOk | apply State.heat_memOk | apply State.takeTemp_memOk | apply State.writeHeat_memOk
    | apply ite_memOk | apply foldl_memOk | apply foldl_fst_memOk | apply foldl_okMem | apply okMem_ok | apply okMem_error
    | refine okMem_elim (by assumption) | intro _ _ _ | intro _ _ | intro _ | dsimp only | split

theorem State.openSwitches_memOk (s : State) (hs : s.memOk) : (State.openSwitches s).memOk := by
  unfold State.openSwitches
  with_reducible repeat' first
    | assumption | apply State.modDie_memOk | apply State.stopHost_memOk | apply State.writeOcLimits_memOk | apply ite_memOk
    | apply foldl_memOk | apply foldl_fst_memOk | apply foldl_okMem | apply okMem_ok | apply okMem_error | refine okMem_elim (by assumption)
    | intro _ _ _ | intro _ _ | intro _ | dsimp only | split

theorem execThermTrip_memOk {square : Nat} {junction : BitVec 16} {s : State} {u : State} (eqn : execThermTrip square junction s = .next u) (hs : s.memOk) : u.memOk := by
  unfold execThermTrip at eqn
  cases eqn
  with_reducible repeat' first
    | assumption | apply ite_memOk | apply State.beginFlush_memOk | apply State.hardwareSafety_memOk | apply State.openSwitches_memOk
    | apply State.safety_memOk | apply State.setFlag_memOk | apply State.stopTurns_memOk | apply State.thaw_memOk | apply foldl_memOk
    | apply foldl_fst_memOk | intro _ _ _ | intro _ _ | intro _ | dsimp only | split

theorem State.takeSample_memOk (s : State) (inlet : Int) (hs : s.memOk) : (State.takeSample s inlet).memOk := by
  unfold State.takeSample
  with_reducible repeat' first
    | assumption | apply ite_memOk | apply State.setField_memOk | dsimp only | split

theorem State.pldm_memOk (s : State) (kind detail : BitVec 8) (hs : s.memOk) : (State.pldm s kind detail).memOk := by
  unfold State.pldm
  with_reducible repeat' first
    | assumption | dsimp only

theorem State.coolWarn_memOk (s : State) (cause : BitVec 8) (hs : s.memOk) : (State.coolWarn s cause).memOk := by
  unfold State.coolWarn
  with_reducible repeat' first
    | assumption | apply State.bump_memOk | apply State.event7F_memOk | apply State.pldm_memOk | apply State.setFlag_memOk | dsimp only

theorem State.judgeCooling_memOk (s : State) (before : List (BitVec 8)) (hs : s.memOk) : (State.judgeCooling s before).memOk := by
  unfold State.judgeCooling
  with_reducible repeat' first
    | assumption | apply ite_memOk | apply State.coolWarn_memOk | apply State.pldm_memOk | apply State.setFlag_memOk | apply foldl_memOk
    | apply foldl_fst_memOk | intro _ _ _ | intro _ _ | intro _ | dsimp only | split

theorem execCoolingRead_memOk {inlet flow : Option (BitVec 16)} {s : State} {u : State} (eqn : execCoolingRead inlet flow s = .next u) (hs : s.memOk) : u.memOk := by
  unfold execCoolingRead at eqn
  cases eqn
  with_reducible repeat' first
    | assumption | apply ite_memOk | apply State.judgeCooling_memOk | apply State.setField_memOk | apply State.setFlag_memOk
    | apply State.takeSample_memOk | dsimp only | split

/-! RefereeCommands -/

theorem State.holdReset_memOk (s : State) (p : Nat) (hs : s.memOk) : (State.holdReset s p).memOk := by
  unfold State.holdReset
  with_reducible repeat' first
    | assumption | apply State.modDie_memOk | apply State.modPart_memOk | apply State.stopTurns_memOk | apply ite_memOk | apply foldl_memOk
    | apply foldl_fst_memOk | apply foldl_okMem | apply okMem_ok | apply okMem_error | refine okMem_elim (by assumption) | intro _ _ _
    | intro _ _ | intro _ | dsimp only | split

theorem State.startRestart_memOk (s : State) (cause : Nat) (hs : s.memOk) : (State.startRestart s cause).memOk := by
  unfold State.startRestart
  extract_lets s1 r2 p3 s4 s5 s6 s7
  have h1 : s1.memOk := State.alert_memOk _ (State.setFlag_memOk _ _ _ _ _ _ (State.setFlag_memOk _ _ _ _ _ _ hs))
  have h4 : s4.memOk := h1
  clear_value s4
  have h5 : s5.memOk := State.setReg_memOk _ _ _ _ _ h4
  clear_value s5
  have h6 : s6.memOk := State.bump_memOk _ _ _ _ _ h5
  clear_value s6
  have h7 : s7.memOk := foldl_memOk (fun _ _ h => State.holdReset_memOk _ _ h) h6
  clear_value s7
  exact ite_memOk (foldl_memOk (fun _ _ h => State.modPart_memOk _ _ _ h) (State.setFlag_memOk _ _ _ _ _ _ (State.setFlag_memOk _ _ _ _ _ _ h7))) h7

theorem execLockstep_memOk {cycle : Word} {s : State} {u : State} (eqn : execLockstep cycle s = .next u) (hs : s.memOk) : u.memOk := by
  unfold execLockstep at eqn
  cases eqn
  with_reducible repeat' first
    | assumption | apply ite_memOk | apply State.hardwareSafety_memOk | apply State.safety_memOk | apply State.startRestart_memOk
    | dsimp only | split

theorem execWatchdogExpiry_memOk {s : State} {u : State} (eqn : execWatchdogExpiry s = .next u) (hs : s.memOk) : u.memOk := by
  unfold execWatchdogExpiry at eqn
  cases eqn
  with_reducible repeat' first
    | assumption | apply ite_memOk | apply State.hardwareSafety_memOk | apply State.safety_memOk | apply State.startRestart_memOk
    | dsimp only | split

theorem State.rewriteGlobals_memOk (s : State) (hs : s.memOk) : (State.rewriteGlobals s).memOk := by
  unfold State.rewriteGlobals
  with_reducible repeat' first
    | assumption | apply State.setReg_memOk | apply foldl_memOk | apply foldl_fst_memOk | intro _ _ _ | intro _ _ | intro _ | dsimp only

theorem State.dropQueued_memOk (s : State) (p : Nat) (c : Cmd) (hs : s.memOk) : (State.dropQueued s p c).memOk := by
  unfold State.dropQueued
  with_reducible repeat' first
    | assumption | apply State.debugTrace_memOk | apply State.modPart_memOk | apply State.policySet_memOk | apply State.take_memOk
    | apply ite_memOk | apply foldl_memOk | apply foldl_fst_memOk | apply foldl_okMem | apply okMem_ok | apply okMem_error
    | refine okMem_elim (by assumption) | intro _ _ _ | intro _ _ | intro _ | dsimp only | split

theorem State.dropRetrain_memOk (s : State) (c : Cmd) (n : Nat) (hs : s.memOk) : (State.dropRetrain s c n).memOk := by
  unfold State.dropRetrain
  with_reducible repeat' first
    | assumption | apply State.modQuad_memOk | apply ite_memOk | apply foldl_memOk | apply foldl_fst_memOk | apply foldl_okMem
    | apply okMem_ok | apply okMem_error | refine okMem_elim (by assumption) | intro _ _ _ | intro _ _ | intro _ | dsimp only | split

theorem State.forgetCommand_memOk (s : State) (c : Cmd) (hs : s.memOk) : (State.forgetCommand s c).memOk := by
  unfold State.forgetCommand
  with_reducible repeat' first
    | assumption | apply State.dropQueued_memOk | apply State.dropRetrain_memOk | apply ite_memOk | apply foldl_memOk
    | apply foldl_fst_memOk | apply foldl_okMem | apply okMem_ok | apply okMem_error | refine okMem_elim (by assumption) | intro _ _ _
    | intro _ _ | intro _ | dsimp only | split

theorem State.replayJournal_memOk (s : State) (hs : s.memOk) : (State.replayJournal s).memOk := by
  unfold State.replayJournal
  with_reducible repeat' first
    | assumption | apply State.completeNow_memOk | apply State.forgetCommand_memOk | apply ite_memOk | apply foldl_memOk
    | apply foldl_fst_memOk | apply foldl_okMem | apply okMem_ok | apply okMem_error | refine okMem_elim (by assumption) | intro _ _ _
    | intro _ _ | intro _ | dsimp only | split

theorem State.rerunReset_memOk (s : State) (p : Nat) (hs : s.memOk) : (State.rerunReset s p).memOk := by
  unfold State.rerunReset
  with_reducible repeat' first
    | assumption | apply State.modPart_memOk | apply State.partitionReset_memOk | apply ite_memOk | apply foldl_memOk
    | apply foldl_fst_memOk | apply foldl_okMem | apply okMem_ok | apply okMem_error | refine okMem_elim (by assumption) | intro _ _ _
    | intro _ _ | intro _ | dsimp only | split

theorem execWarmRestartComplete_memOk {s : State} {u : State} (eqn : execWarmRestartComplete s = .next u) (hs : s.memOk) : u.memOk := by
  unfold execWarmRestartComplete at eqn
  cases eqn
  with_reducible repeat' first
    | assumption | apply State.drainIntake_memOk | apply State.numberKept_memOk | apply State.releaseAlert_memOk
    | apply State.replayJournal_memOk | apply State.rerunReset_memOk | apply State.rewriteGlobals_memOk | apply State.setFlag_memOk
    | apply State.watchdog_memOk | apply ite_memOk | apply foldl_memOk | apply foldl_fst_memOk | apply foldl_okMem | apply okMem_ok
    | apply okMem_error | refine okMem_elim (by assumption) | intro _ _ _ | intro _ _ | intro _ | dsimp only | split

theorem execComputeDieClockLoss_memOk {site : Nat} {s : State} {u : State} (eqn : execComputeDieClockLoss site s = .next u) (hs : s.memOk) : u.memOk := by
  unfold execComputeDieClockLoss at eqn
  cases eqn
  with_reducible repeat' first
    | assumption | apply State.abortTurn_memOk | apply State.fenceDie_memOk | apply State.safetyAt_memOk | apply State.setFlag_memOk
    | apply State.takeOut_memOk | dsimp only | split

theorem execHostDieClockLoss_memOk {die : Nat} {s : State} {u : State} (eqn : execHostDieClockLoss die s = .next u) (hs : s.memOk) : u.memOk := by
  unfold execHostDieClockLoss at eqn
  cases eqn
  with_reducible repeat' first
    | assumption | apply State.fenceHost_memOk | apply State.safetyAt_memOk | apply State.setFlag_memOk | dsimp only

theorem State.flipShadow_memOk (s : State) (k : RegKey) (bit : Nat) (hs : s.memOk) : (State.flipShadow s k bit).memOk := by
  unfold State.flipShadow
  with_reducible repeat' first
    | assumption | dsimp only

theorem State.shadowReaction_memOk (s : State) (k : RegKey) (hs : s.memOk) : (State.shadowReaction s k).memOk := by
  unfold State.shadowReaction
  with_reducible repeat' first
    | assumption | apply ite_memOk | apply State.abortTurn_memOk | apply State.draw_memOk | refine State.draw_memOk' (by assumption) ?_
    | apply State.event7F_memOk | apply State.fencePartition_memOk | apply State.record_memOk | apply State.safety_memOk
    | apply State.safetyAt_memOk | apply State.setReg_memOk | apply State.startRestart_memOk | dsimp only | split

theorem execShadowMismatch_memOk {addr : Addr} {bit : Nat} {s : State} {u : State} (eqn : execShadowMismatch addr bit s = .next u) (hs : s.memOk) : u.memOk := by
  unfold execShadowMismatch at eqn
  cases eqn
  with_reducible repeat' first
    | assumption | apply ite_memOk | apply State.flipShadow_memOk | apply State.shadowReaction_memOk | dsimp only | split

theorem execComputeDieReset_memOk {site : Nat} {found : TestFindings} {s : State} {u : State} (eqn : execComputeDieReset site found s = .next u) (hs : s.memOk) : u.memOk := by
  unfold execComputeDieReset at eqn
  cases eqn
  with_reducible repeat' first
    | assumption | apply State.calibrateDie_memOk | apply State.fencePartition_memOk | apply State.modDie_memOk | apply State.resetDie_memOk
    | apply State.setSiteOut_memOk | apply ite_memOk | apply foldl_memOk | apply foldl_fst_memOk | apply foldl_okMem | apply okMem_ok
    | apply okMem_error | refine okMem_elim (by assumption) | intro _ _ _ | intro _ _ | intro _ | dsimp only | split

theorem execReserveSelfTest_memOk {site : Nat} {failing : List (Nat × Nat)} {s : State} {u : State} (eqn : execReserveSelfTest site failing s = .next u) (hs : s.memOk) : u.memOk := by
  unfold execReserveSelfTest at eqn
  cases eqn
  with_reducible repeat' first
    | assumption | apply ite_memOk | apply State.publishSam_memOk | apply State.resetDie_memOk | apply State.selfTest_memOk
    | apply State.setSiteState_memOk | dsimp only | split

/-! Retrain -/

theorem State.trainChannel_memOk (s : State) (stack c : Nat) (hs : s.memOk) : (State.trainChannel s stack c).memOk := by
  unfold State.trainChannel
  with_reducible repeat' first
    | assumption | apply State.setFlag_memOk | dsimp only

theorem State.startRetrains_memOk (s : State) (p : Nat) (hs : s.memOk) : (State.startRetrains s p).memOk := by
  unfold State.startRetrains
  with_reducible repeat' first
    | assumption | apply ite_memOk | apply State.trainChannel_memOk | apply foldl_memOk | apply foldl_fst_memOk | intro _ _ _ | intro _ _
    | intro _ | dsimp only | split

theorem execDramRetrain_memOk {stack channel : Nat} {urgent : Bool} {s : State} {u : State} (eqn : execDramRetrain stack channel urgent s = .next u) (hs : s.memOk) : u.memOk := by
  unfold execDramRetrain at eqn
  cases eqn
  with_reducible repeat' first
    | assumption | apply ite_memOk | apply State.modPart_memOk | apply State.preemptTurn_memOk | apply State.startRetrains_memOk
    | apply State.trainChannel_memOk | intro _ _ _ | intro _ _ | intro _ | dsimp only | split

theorem execDramRetrainComplete_memOk {stack channel : Nat} {good : Bool} {s : State} {u : State} (eqn : execDramRetrainComplete stack channel good s = .next u) (hs : s.memOk) : u.memOk := by
  unfold execDramRetrainComplete at eqn
  cases eqn
  with_reducible repeat' first
    | assumption | apply ite_memOk | apply State.bump_memOk | apply State.modPart_memOk | apply State.retireLayer_memOk
    | apply State.setFlag_memOk | apply State.startRetrains_memOk | intro _ _ _ | intro _ _ | intro _ | dsimp only | split

theorem execMaintenanceTurn_memOk {part : Nat} {s : State} {u : State} (eqn : execMaintenanceTurn part s = .next u) (hs : s.memOk) : u.memOk := by
  unfold execMaintenanceTurn at eqn
  cases eqn
  with_reducible repeat' first
    | assumption | apply ite_memOk | apply State.leaveUp_memOk | apply State.startRetrains_memOk | apply foldl_memOk | apply foldl_fst_memOk
    | intro _ _ _ | intro _ _ | intro _ | dsimp only | split

/-! Startup -/

theorem State.deviceReset_memOk (s : State) (hs : s.memOk) : (State.deviceReset s).memOk := by
  unfold State.deviceReset
  exact Sparse.wf_filter _ _ _ _ hs

theorem State.flushNow_memOk (s : State) (hs : s.memOk) : (State.flushNow s).memOk := by
  unfold State.flushNow
  with_reducible repeat' first
    | assumption | apply ite_memOk | apply State.beginFlush_memOk | apply State.finishFlush_memOk | apply State.thaw_memOk | dsimp only
    | split

theorem State.writeBackAll_memOk (s : State) (hs : s.memOk) : (State.writeBackAll s).memOk := by
  unfold State.writeBackAll
  with_reducible repeat' first
    | assumption | apply State.evictGeneral_memOk | apply State.evictHostLine_memOk | apply foldl_memOk | apply foldl_fst_memOk
    | intro _ _ _ | intro _ _ | intro _ | dsimp only

theorem execResetNAssert_memOk {s : State} {u : State} (eqn : execResetNAssert s = .next u) (hs : s.memOk) : u.memOk := by
  unfold execResetNAssert at eqn
  cases eqn
  with_reducible repeat' first
    | assumption | apply ite_memOk | apply State.deviceReset_memOk | apply State.event_memOk | apply State.flushNow_memOk
    | apply State.notice_memOk | apply State.writeBackAll_memOk | dsimp only | split

theorem State.powerDown_memOk (s : State) (hs : s.memOk) : (State.powerDown s).memOk := by
  unfold State.powerDown
  with_reducible repeat' first
    | assumption | apply State.openSwitches_memOk | apply State.setFlag_memOk | apply State.stopTurns_memOk | apply ite_memOk
    | apply foldl_memOk | apply foldl_fst_memOk | apply foldl_okMem | apply okMem_ok | apply okMem_error | refine okMem_elim (by assumption)
    | intro _ _ _ | intro _ _ | intro _ | dsimp only | split

theorem State.powerFlush_memOk (s : State) (hs : s.memOk) : (State.powerFlush s).memOk := by
  unfold State.powerFlush
  with_reducible repeat' first
    | assumption | apply State.beginFlush_memOk | apply State.modRecorder_memOk | apply State.thaw_memOk | apply ite_memOk
    | apply foldl_memOk | apply foldl_fst_memOk | apply foldl_okMem | apply okMem_ok | apply okMem_error | refine okMem_elim (by assumption)
    | intro _ _ _ | intro _ _ | intro _ | dsimp only | split

theorem State.powerFail_memOk (s : State) (hs : s.memOk) : (State.powerFail s).memOk := by
  unfold State.powerFail
  with_reducible repeat' first
    | assumption | apply State.powerDown_memOk | apply State.powerFlush_memOk | apply ite_memOk | apply foldl_memOk | apply foldl_fst_memOk
    | apply foldl_okMem | apply okMem_ok | apply okMem_error | refine okMem_elim (by assumption) | intro _ _ _ | intro _ _ | intro _
    | dsimp only | split

theorem State.cutFlush_memOk (s : State) (lost : Nat) (hs : s.memOk) : (State.cutFlush s lost).memOk := by
  unfold State.cutFlush
  with_reducible repeat' first
    | assumption | apply State.logRecord_memOk | apply State.take_memOk | apply ite_memOk | apply foldl_memOk | apply foldl_fst_memOk
    | apply foldl_okMem | apply okMem_ok | apply okMem_error | refine okMem_elim (by assumption) | intro _ _ _ | intro _ _ | intro _
    | dsimp only | split

theorem execPwrFailNAssert_memOk {s : State} {u : State} (eqn : execPwrFailNAssert s = .next u) (hs : s.memOk) : u.memOk := by
  unfold execPwrFailNAssert at eqn
  cases eqn
  with_reducible repeat' first
    | assumption | apply ite_memOk | apply State.powerFail_memOk | dsimp only | split

theorem execVaOutOfWindow_memOk {s : State} {u : State} (eqn : execVaOutOfWindow s = .next u) (hs : s.memOk) : u.memOk := by
  unfold execVaOutOfWindow at eqn
  cases eqn
  with_reducible repeat' first
    | assumption | apply State.event7F_memOk | apply State.powerFail_memOk | apply State.safety_memOk | dsimp only

theorem State.atStep_memOk (s : State) (n : Nat) (hs : s.memOk) : (State.atStep s n).memOk := by
  unfold State.atStep
  with_reducible repeat' first
    | assumption | apply State.setField_memOk | dsimp only

theorem State.failStart_memOk (s : State) (cause : Nat) (again : Option ColdStartInputs) (hs : s.memOk) : (State.failStart s cause again).memOk := by
  have e : s.failStart cause again = (fun u : State => ({ u with referee := { u.referee with startup := again } } : State))
      ((((s.setFlag .refBoot 0 0 17 true).setField .refBoot 0 0 32 8 cause).alert)) := rfl
  have k : ∀ u : State, u.memOk → ((fun u : State => ({ u with referee := { u.referee with startup := again } } : State)) u).memOk := fun u h => h
  rw [e]
  exact k _ (State.alert_memOk _ (State.setField_memOk _ _ _ _ _ _ _ (State.setFlag_memOk _ _ _ _ _ _ hs)))

theorem State.reachReady_memOk (s : State) (hs : s.memOk) : (State.reachReady s).memOk := by
  unfold State.reachReady
  with_reducible repeat' first
    | assumption | apply State.atStep_memOk | apply State.pldm_memOk | apply State.releaseAlert_memOk | apply State.setFlag_memOk
    | apply State.setReg_memOk | apply ite_memOk | apply foldl_memOk | apply foldl_fst_memOk | apply foldl_okMem | apply okMem_ok
    | apply okMem_error | refine okMem_elim (by assumption) | intro _ _ _ | intro _ _ | intro _ | dsimp only | split

theorem State.formRecorded_memOk (s : State) (i : ColdStartInputs) (hs : s.memOk) : (State.formRecorded s i).memOk := by
  unfold State.formRecorded
  with_reducible repeat' first
    | assumption | apply State.atStep_memOk | apply State.eventStatus_memOk | apply State.formPartition_memOk | apply State.reachReady_memOk
    | apply State.setBoth_memOk | apply State.setMargins_memOk | apply State.writeFences_memOk | apply State.writeOcLimits_memOk
    | apply ite_memOk | apply foldl_memOk | apply foldl_fst_memOk | apply foldl_okMem | apply okMem_ok | apply okMem_error
    | refine okMem_elim (by assumption) | intro _ _ _ | intro _ _ | intro _ | dsimp only | split

theorem State.trainQuad_memOk (s : State) (i : ColdStartInputs) (n : Nat) (hs : s.memOk) : (State.trainQuad s i n).memOk := by
  unfold State.trainQuad
  with_reducible repeat' first
    | assumption | apply ite_memOk | apply State.bringUp_memOk | apply State.failAttempt_memOk | apply State.modQuad_memOk
    | apply State.startTraining_memOk | apply State.takeHello_memOk | apply State.vacateQuad_memOk | intro _ _ _ | intro _ _ | intro _
    | dsimp only | split

theorem State.joinLinks_memOk (s : State) (i : ColdStartInputs) (hs : s.memOk) : (State.joinLinks s i).memOk := by
  unfold State.joinLinks
  with_reducible repeat' first
    | assumption | apply State.atStep_memOk | apply State.countQuads_memOk | apply State.formRecorded_memOk | apply State.publishSam_memOk
    | apply State.setField_memOk | apply State.setReg_memOk | apply State.trainQuad_memOk | apply foldl_memOk | apply foldl_fst_memOk
    | intro _ _ _ | intro _ _ | intro _ | dsimp only

theorem State.testDies_memOk (s : State) (i : ColdStartInputs) (hs : s.memOk) : (State.testDies s i).memOk := by
  unfold State.testDies
  with_reducible repeat' first
    | assumption | apply State.atStep_memOk | apply State.firstRowMaps_memOk | apply State.joinLinks_memOk | apply State.selfTest_memOk
    | apply State.writeVsteps_memOk | apply ite_memOk | apply foldl_memOk | apply foldl_fst_memOk | apply foldl_okMem | apply okMem_ok
    | apply okMem_error | refine okMem_elim (by assumption) | intro _ _ _ | intro _ _ | intro _ | dsimp only | split

theorem State.trainingFailed_memOk (s : State) (stack k : Nat) (hs : s.memOk) : (State.trainingFailed s stack k).memOk := by
  unfold State.trainingFailed
  with_reducible repeat' first
    | assumption | apply ite_memOk | apply State.degradeStack_memOk | apply State.event7F_memOk | apply State.writeErase_memOk | dsimp only
    | split

theorem State.trainMemory_memOk (s : State) (i : ColdStartInputs) (hs : s.memOk) : (State.trainMemory s i).memOk := by
  unfold State.trainMemory
  with_reducible repeat' first
    | assumption | apply State.atStep_memOk | apply State.testDies_memOk | apply State.testLinks_memOk | apply State.trainingFailed_memOk
    | apply State.writeErase_memOk | apply foldl_memOk | apply foldl_fst_memOk | intro _ _ _ | intro _ _ | intro _ | dsimp only

theorem State.calibrateAll_memOk (s : State) (i : ColdStartInputs) (hs : s.memOk) : (State.calibrateAll s i).memOk := by
  unfold State.calibrateAll
  with_reducible repeat' first
    | assumption | apply State.atStep_memOk | apply State.calibrateDie_memOk | apply State.calibrateParts_memOk | apply State.event7F_memOk
    | apply State.failStart_memOk | apply State.setReg_memOk | apply State.trainMemory_memOk | apply ite_memOk | apply foldl_memOk
    | apply foldl_fst_memOk | apply foldl_okMem | apply okMem_ok | apply okMem_error | refine okMem_elim (by assumption) | intro _ _ _
    | intro _ _ | intro _ | dsimp only | split

theorem State.firstSetpoint_memOk (s : State) (r : Nat) (hs : s.memOk) : (State.firstSetpoint s r).memOk := by
  unfold State.firstSetpoint
  with_reducible repeat' first
    | assumption | apply State.draw_memOk | refine State.draw_memOk' (by assumption) ?_ | apply State.setField_memOk | dsimp only | split

theorem State.firstHostSetpoint_memOk (s : State) (h : Nat) (hs : s.memOk) : (State.firstHostSetpoint s h).memOk := by
  unfold State.firstHostSetpoint
  exact State.draw_memOk s hs

theorem State.raiseRegion_memOk (s : State) (i : ColdStartInputs) (r : Nat) (hs : s.memOk) : (State.raiseRegion s i r).memOk := by
  unfold State.raiseRegion
  with_reducible repeat' first
    | assumption | apply State.dropRegion_memOk | apply State.event7F_memOk | apply State.firstSetpoint_memOk | apply State.modDie_memOk
    | apply State.setFlag_memOk | apply ite_memOk | apply foldl_memOk | apply foldl_fst_memOk | apply foldl_okMem | apply okMem_ok
    | apply okMem_error | refine okMem_elim (by assumption) | intro _ _ _ | intro _ _ | intro _ | dsimp only | split

theorem State.raiseRegions_memOk (s : State) (i : ColdStartInputs) (hs : s.memOk) : (State.raiseRegions s i).memOk := by
  unfold State.raiseRegions
  with_reducible repeat' first
    | assumption | apply State.calibrateAll_memOk | apply State.firstHostSetpoint_memOk | apply State.raiseRegion_memOk
    | apply State.writeOcLimits_memOk | apply ite_memOk | apply foldl_memOk | apply foldl_fst_memOk | apply foldl_okMem | apply okMem_ok
    | apply okMem_error | refine okMem_elim (by assumption) | intro _ _ _ | intro _ _ | intro _ | dsimp only | split

theorem State.powerRegions_memOk (s : State) (i : ColdStartInputs) (hs : s.memOk) : (State.powerRegions s i).memOk := by
  unfold State.powerRegions
  with_reducible repeat' first
    | assumption | apply State.atStep_memOk | apply State.failStart_memOk | apply State.raiseRegions_memOk | apply State.refLoss_memOk
    | apply State.setFlag_memOk | apply State.setReg_memOk | apply State.takeTemp_memOk | apply ite_memOk | apply foldl_memOk
    | apply foldl_fst_memOk | apply foldl_okMem | apply okMem_ok | apply okMem_error | refine okMem_elim (by assumption) | intro _ _ _
    | intro _ _ | intro _ | dsimp only | split

theorem execThermalSample_memOk {square : Nat} {panel above : BitVec 16} {s : State} {u : State} (eqn : execThermalSample square panel above s = .next u) (hs : s.memOk) : u.memOk := by
  unfold execThermalSample at eqn
  cases eqn
  with_reducible repeat' first
    | assumption | apply State.raiseRegions_memOk | apply State.sample_memOk | apply ite_memOk | apply foldl_memOk | apply foldl_fst_memOk
    | apply foldl_okMem | apply okMem_ok | apply okMem_error | refine okMem_elim (by assumption) | intro _ _ _ | intro _ _ | intro _
    | dsimp only | split

theorem State.recordHoldup_memOk (s : State) (v0 v1 : BitVec 16) (hs : s.memOk) : (State.recordHoldup s v0 v1).memOk := by
  unfold State.recordHoldup
  with_reducible repeat' first
    | assumption | apply ite_memOk | apply State.draw_memOk | refine State.draw_memOk' (by assumption) ?_ | apply State.setReg_memOk
    | dsimp only | split

theorem State.holdupCheck_memOk (s : State) (v0 v1 : BitVec 16) (i : ColdStartInputs) (hs : s.memOk) : (State.holdupCheck s v0 v1 i).memOk := by
  unfold State.holdupCheck
  with_reducible repeat' first
    | assumption | apply State.alert_memOk | apply State.atStep_memOk | apply State.eventAny_memOk | apply State.failStart_memOk
    | apply State.powerRegions_memOk | apply State.recordHoldup_memOk | apply State.setField_memOk | apply State.setFlag_memOk
    | apply ite_memOk | apply foldl_memOk | apply foldl_fst_memOk | apply foldl_okMem | apply okMem_ok | apply okMem_error
    | refine okMem_elim (by assumption) | intro _ _ _ | intro _ _ | intro _ | dsimp only | split

theorem execHoldupRetry_memOk {v0 v1 : BitVec 16} {s : State} {u : State} (eqn : execHoldupRetry v0 v1 s = .next u) (hs : s.memOk) : u.memOk := by
  unfold execHoldupRetry at eqn
  cases eqn
  with_reducible repeat' first
    | assumption | apply ite_memOk | apply State.holdupCheck_memOk | dsimp only | split

theorem State.startFirmware_memOk (s : State) (b : Bool) (i : ColdStartInputs) (hs : s.memOk) : (State.startFirmware s b i).memOk := by
  unfold State.startFirmware
  with_reducible repeat' first
    | assumption | apply State.drainIntake_memOk | apply State.logLoss_memOk | apply State.modRecorder_memOk | apply State.numberKept_memOk
    | apply State.setField_memOk | apply State.setReg_memOk | apply State.watchdog_memOk | apply ite_memOk | apply foldl_memOk
    | apply foldl_fst_memOk | apply foldl_okMem | apply okMem_ok | apply okMem_error | refine okMem_elim (by assumption) | intro _ _ _
    | intro _ _ | intro _ | dsimp only | split

theorem State.bootImage_memOk (s : State) (i : ColdStartInputs) (hs : s.memOk) : (State.bootImage s i).memOk := by
  unfold State.bootImage
  with_reducible repeat' first
    | assumption | apply State.atStep_memOk | apply State.event7F_memOk | apply State.failStart_memOk | apply State.holdupCheck_memOk
    | apply State.setField_memOk | apply State.setFlag_memOk | apply State.setReg_memOk | apply State.startFirmware_memOk | apply ite_memOk
    | apply foldl_memOk | apply foldl_fst_memOk | apply foldl_okMem | apply okMem_ok | apply okMem_error | refine okMem_elim (by assumption)
    | intro _ _ _ | intro _ _ | intro _ | dsimp only | split

theorem execMctpRecovery_memOk {image : ImageInfo} {s : State} {u : State} (eqn : execMctpRecovery image s = .next u) (hs : s.memOk) : u.memOk := by
  unfold execMctpRecovery at eqn
  cases eqn
  with_reducible repeat' first
    | assumption | apply State.bootImage_memOk | apply ite_memOk | apply foldl_memOk | apply foldl_fst_memOk | apply foldl_okMem
    | apply okMem_ok | apply okMem_error | refine okMem_elim (by assumption) | intro _ _ _ | intro _ _ | intro _ | dsimp only | split

theorem State.startUp_memOk (s : State) (i : ColdStartInputs) (hs : s.memOk) : (State.startUp s i).memOk := by
  unfold State.startUp
  with_reducible repeat' first
    | assumption | apply State.atStep_memOk | apply State.bootImage_memOk | apply State.cutFlush_memOk | apply State.deviceReset_memOk
    | apply State.failStart_memOk | apply State.setReg_memOk | apply ite_memOk | apply foldl_memOk | apply foldl_fst_memOk
    | apply foldl_okMem | apply okMem_ok | apply okMem_error | refine okMem_elim (by assumption) | intro _ _ _ | intro _ _ | intro _
    | dsimp only | split

theorem execColdStart_memOk {i : ColdStartInputs} {s : State} {u : State} (eqn : execColdStart i s = .next u) (hs : s.memOk) : u.memOk := by
  unfold execColdStart at eqn
  cases eqn
  with_reducible repeat' first
    | assumption | apply ite_memOk | apply State.startUp_memOk | dsimp only | split

theorem execPwrFailNRelease_memOk {i : ColdStartInputs} {s : State} {u : State} (eqn : execPwrFailNRelease i s = .next u) (hs : s.memOk) : u.memOk := by
  unfold execPwrFailNRelease at eqn
  cases eqn
  with_reducible repeat' first
    | assumption | apply State.startUp_memOk | apply ite_memOk | apply foldl_memOk | apply foldl_fst_memOk | apply foldl_okMem
    | apply okMem_ok | apply okMem_error | refine okMem_elim (by assumption) | intro _ _ _ | intro _ _ | intro _ | dsimp only | split

end Sys2Proof.Machine
end

