-- ==== Sys2Proof/WellFormed.lean ====
section
/-! DEFINITION. Which commands are well formed: every unit a command names by number exists (chapters 1, 9, 13, 15), and what it carries has the
size its format gives. A command that is not well formed names a unit the PX-49 does not have. -/

namespace Sys2Proof

/-- A requester names an existing host die, core or site (R21 to R27). -/
def Requester.wf : Requester → Bool
  | .hart die core _ => decide (die < 8) && decide (core < 32)
  | .pcie die => decide (die < 8)
  | .hostDma die => decide (die < 8)
  | .rook site => decide (site < 104)
  | .move site => decide (site < 104)
  | .referee => true
  | .bmc => true

/-- A command path names an existing ring or quad (R250, R266, R406). -/
def CmdPath.wf : CmdPath → Bool
  | .ring part n => decide (part < 8) && decide (n < 16)
  | .bmc => true
  | .mgmt part quad _ _ => decide (part < 8) && decide (quad < 224)

def Cmd.wf (c : Cmd) : Bool := c.path.wf

/-- Findings name existing sites, rows, physical columns, dies, stacks, engines and links (R29, R438). -/
def TestFindings.wf (f : TestFindings) : Bool :=
  f.cells.all (fun (i, r, c) => decide (i < 104 ∧ r < 16 ∧ c < 17)) && f.dies.all (fun i => decide (i < 104)) &&
  f.hosts.all (fun h => decide (h < 8)) && f.stackBonds.all (fun k => decide (k < 48)) && f.engineBonds.all (fun e => decide (e < 56)) &&
  f.stackCrossings.all (fun k => decide (k < 48)) && f.engineCrossings.all (fun e => decide (e < 56)) &&
  f.links.all (fun (q, d, _) => decide (q < 256 ∧ d < 4)) && f.spares.all (fun (q, _) => decide (q < 256))

/-- A packet carries at most a line in blocks of 64 B, in a class that is not reserved, with EPOCH and TURN zero where CMP is 0 (Tables 8.1,
8.4). -/
def BnetPacket.wf (p : BnetPacket) : Bool :=
  decide (p.payload.length ≤ 1024 ∧ p.payload.length % 64 = 0 ∧ p.cls ≠ 3) && (p.compiled || decide (p.epoch = 0 ∧ p.turn = 0))

/-- A C-net packet carries 48 bytes at most, and no more than it holds; a register access moves 1, 2, 4 or 8 (R228). -/
def CnetPacket.wf (p : CnetPacket) : Bool :=
  decide (p.payload.length ≤ 48 ∧ p.size.toNat ≤ 48 ∧ (p.type ≠ .rd ∧ p.type ≠ .wr ∧ p.type ≠ .doorbell ∨ p.size.toNat ∈ [1, 2, 4, 8]))

/-- A flit carries 240 bytes (Table 13.4). -/
def Flit.wf (f : Flit) : Bool := decide (f.payload.length = 240)

/-- A message carries at most 255 units of 16 B (Table 13.6a). -/
def LinkMsg.wf (m : LinkMsg) : Bool := decide (m.payload.length ≤ 4080)

/-- A report carries at most 240 bytes with its tick (R470). -/
def Report.wf (r : Report) : Bool := decide (r.payload.length ≤ 232)

/-- Accesses of a hart: a load or store of 1 to 64 bytes; AMOs, LR and SC of 4 or 8 (R330). -/
def HartOp.wf : HartOp → Bool
  | .load n => decide (1 ≤ n ∧ n ≤ 64)
  | .fetch n => decide (1 ≤ n ∧ n ≤ 64)
  | .store d => decide (1 ≤ d.length ∧ d.length ≤ 64)
  | .amo _ n _ => decide (n = 4 ∨ n = 8)
  | .loadReserved n => decide (n = 4 ∨ n = 8)
  | .storeConditional n _ => decide (n = 4 ∨ n = 8)
  | .csrRead _ => true
  | .csrWrite _ _ => true

/-- What a cold start finds names existing regions, channels and quads. -/
def ColdStartInputs.wf (i : ColdStartInputs) : Bool :=
  i.findings.wf && i.deadRegions.all (fun r => decide (r < 16)) && i.dramFailures.all (fun (k, p) => decide (k < 48 ∧ p < 18)) &&
  i.hellos.all (fun (n, f, _) => decide (n < 224) && f.wf) && i.vstep.all (fun (r, _) => decide (r < 16))

/-- A command is well formed. -/
def Instr.wf (c : Instr) : Bool :=
  match c with
  | .deviceInfo c | .deviceSiteEnable c _ | .deviceSiteReserve c _ | .deviceFwStage c _ _ | .deviceGrantFleet c _ _ | .partitionDissolve c
  | .partitionCacheLayout c _ _ _ | .partitionPublish c _ _ _ | .partitionPolicySet c _ _ | .partitionPolicyGet c _
  | .partitionGrant c _ _ _ _ | .bookLoad c _ _ | .bookUnload c _ | .bookMap c _ | .bookPreempt c | .streamOpen c _ _ | .streamAppend c _ _ _
  | .streamAdvance c _ _ | .streamClose c _ | .streamPark c _ | .streamUnpark c _ | .streamMigrate c _ _ _ | .streamFork c _ _
  | .stateInvalidate c _ _ _ | .stateTier c _ _ _ _ | .stateQuery c _ _ | .linkStatus c _ | .linkRetrain c _ | .linkRoleSetRole c _ _ _
  | .linkRoleSetModuleId c _ _ | .logFreeze c | .logThaw c | .logRead c _ _ _ | .logClearKeep c | .logRate c _ _ | .debugChallenge c
  | .debugRespond c _ | .debugHalt c _ | .debugResume c _ | .debugTrace c _ | .powerPolicySet c _ _ | .powerPolicyGet c _ | .powerStatus c => c.wf
  | .partitionForm c _ _ _ found | .partitionComputeReset c found | .partitionFullReset c found => c.wf && found.wf
  | .hostDieReset c die => c.wf && die.found.wf
  | .nop m | .check m _ _ _ | .yield m | .trace m _ | .pass m _ _ _ _ _ _ _ _ _ _ _ | .drain m _ _ _ _ | .drainHeld m _ _ _ _ | .gang m _ _
  | .add m _ | .sub m _ | .mul m _ | .fma m _ | .min m _ | .max m _ | .select m _ | .div m _ | .sqrt m _ | .recip m _ | .exp m _ | .log m _
  | .rsqrt m _ | .tanh m _ | .sigmoid m _ | .iadd m _ | .imul m _ | .cvt m _ | .rsum m _ | .rmax m _ | .rmin m _ | .csum m _ | .cmax m _
  | .cmin m _ | .softmax m _ | .lnorm m _ | .rmsnorm m _ | .topk m _ | .rand m _ | .sample m _ | .sb3enc m _ | .load m _ _ | .store m _ _
  | .send m _ _ | .twin m _ => decide (m.site < 104)
  | .lateData site _ | .moveComplete site _ _ | .sackReceipt site _ _ | .playStart site | .dieDone site _ | .rookWindow site _ _ _
  | .rookReady site | .holdBudgetExhausted site | .cowResolve site _ _ _ | .farRecall site _ _ _ _ | .reserveSelfTest site _ | .rookHalt site _
  | .rookResume site | .traceRecord site | .computeDieClockLoss site => decide (site < 104)
  | .sendArrival site p _ => decide (site < 104) && p.wf
  | .plannedBoundary part | .slipChangeoverStart part | .slipLimit part | .abortDrainEnd part _ | .changeoverStart part _
  | .clockStepChange part | .changeoverWork part _ _ _ | .startOfPlayBarrier part | .stretchTimeout part | .preemptionComplete part
  | .tierCopyDone part _ _ _ | .migrationFail part _ _ | .spanConfirmTimeout part | .maintenanceTurn part | .sessionExpiry part
  | .challengeLockoutEnd part | .batchStaging part _ => decide (part < 8)
  | .gameClockTick | .slewAdjust | .timeBroadcast | .clkRefLoss | .clkRefRelock _ | .watchdogExpiry | .lockstep _ | .warmRestartComplete
  | .mctpRecovery _ | .generalLineEviction _ | .csyncRequest | .e2eKnockMiss _ | .poolLineTimeout _ _ | .powerMeasurement _ _ _ _
  | .vaOutOfWindow | .coolingRead _ _ | .holdupRetry _ _ | .resetNAssert | .pwrFailNAssert | .flush | .flushComplete _ | .flashFailRetry _
  | .rateWindowClose _ _ | .opsecSecond | .freezeTimeout | .jtagInstruction _ | .jtagUnlock _ | .e2eKnockSend _ => true
  | .time square _ | .boundary square _ | .preempt square | .abort square | .crossingMarginLow square | .circuitForward square _ _
  | .cnetInjectionRelease square _ | .thermalSample square _ _ | .thermTrip square _ => decide (square < 256)
  | .done square fromDir | .ready square fromDir | .yielded square fromDir => decide (square < 256) && decide (fromDir < 4)
  | .gcSet r _ | .gcSlew r _ | .refWdog r _ | .dramRead _ _ _ r | .eventReport r => r.wf
  | .registerWrite r _ size _ => r.wf && decide (size ∈ [1, 2, 4, 8])
  | .mbRingProd r part ring _ | .mbRingCqCons r part ring _ | .ringEnable r part ring _ | .ringDisable r part ring _ => r.wf && decide (part < 8) && decide (ring < 16)
  | .ringDrained part ring | .msiHoldoffExpiry part ring => decide (part < 8) && decide (ring < 16)
  | .ringVisit part ring found => decide (part < 8) && decide (ring < 16) && found.wf
  | .bmcCommand bytes found => decide (bytes.length ≤ 64) && found.wf
  | .bnetPacket square link _ p | .cnetPacket square link p => decide (square < 256) && decide (link < 5) && p.wf
  | .bnetNak square link lane | .bnetReplayTimeout square link lane => decide (square < 256) && decide (link < 5) && decide (lane < 2)
  | .hartAccess die core _ _ op _ => decide (die < 8) && decide (core < 32) && op.wf
  | .cacheBlockClean die core _ _ | .hdMtimecmp die core => decide (die < 8) && decide (core < 32)
  | .hscRequest r _ op _ _ => r.wf && op.wf
  | .dramWrite _ bytes _ => decide (bytes.length ≤ 1024)
  | .sramRead _ square _ r => decide (square < 256) && r.wf
  | .bucketLeak cls _ _ => decide (cls < 7)
  | .bankZeroComplete site bank => decide (site < 104) && decide (bank < 16)
  | .releaseFillComplete stack => decide (stack < 48)
  | .msiWrite source _ _ => decide (source < 256)
  | .hostClockChange die _ | .inboundPcieRequest die _ _ | .intxMessage die | .pcieWake die | .hostProbe die | .hostProbeMiss die
  | .hostDieClockLoss die => decide (die < 8)
  | .faultResolved site chan | .faultUnresolvable site chan => decide (site < 104) && decide (chan < 16)
  | .stPinLend r part _ => r.wf && decide (part < 8)
  | .ccPubWrite r part range _ _ => r.wf && decide (part < 8) && decide (range < 16)
  | .olPoolMap r window _ _ => r.wf && decide (window < 64)
  | .mcErase r stack _ => r.wf && decide (stack < 48)
  | .migrationCopyDone part _ destPart => decide (part < 8) && decide (destPart < 8)
  | .flitReceipt quad f | .knock quad f | .csync quad f _ | .hello quad f _ => decide (quad < 224) && f.wf
  | .retryReq quad _ | .flitReplayTimeout quad | .quadDown quad _ | .knockSend quad | .knockWindowExpiry quad | .trainingAttemptTimeout quad
  | .backgroundAttempt quad | .fecRetrain quad _ | .helloSend quad | .laneLock quad => decide (quad < 224)
  | .prd quad m | .pdata quad m | .pwr quad m | .pwack quad m | .opticalSend quad m | .opticalSack quad m | .copy quad m | .cack quad m
  | .err quad m | .e2eKnock quad m | .completion quad m | .spanConfirm quad m | .spanLoadFail quad m | .spanAbort quad m | .spanChange quad m
  | .debugPause quad m | .migrateReq quad m | .migrateAdmit quad m | .migrateDone quad m | .doneReport quad m => decide (quad < 224) && m.wf
  | .command quad m found => decide (quad < 224) && m.wf && found.wf
  | .voltageLoop region _ _ _ | .supplyOutOfWindow region _ | .regionOvercurrent region | .supplyInWindow region _ => decide (region < 16)
  | .coldStart i | .pwrFailNRelease i => i.wf
  | .dramRetrain stack channel _ | .dramRetrainComplete stack channel _ => decide (stack < 48) && decide (channel < 36)
  | .dmRegisterAccess r site reg _ => r.wf && decide (site < 104) && decide (reg < 256)
  | .shadowMismatch _ bit => decide (bit < 64)
  | .computeDieReset site found => decide (site < 104) && found.wf
  | .pcieLinkChange die k _ _ _ => decide (die < 8) && decide (k < 4)

end Sys2Proof
end

