-- ==== Sys2Proof/Tests/Slice0.lean ====
section
/-! SUPPORT. Tests: commands that are ill formed and refused as such, small runs of one step with results from the spec, and for each statement the
states and operands that meet its hypotheses. -/

namespace Sys2Proof.Tests
open Sys2Proof.Machine
set_option Elab.async false

/-! Small states -/

/-- The state that a command answers. -/
def after (i : Instr) (s : State) : State :=
  match exec i s with
  | .next t => t
  | _ => s

/-- Reset, with Tolerabor running. -/
def sUp : State := State.reset.setFlag .refStatus 0 0 1 true

/-- Ready. -/
def sReady : State := sUp.setFlag .refBoot 0 0 18 true

/-- Ready, with partition 0 of regions 0 and 4 formed and out of reset. -/
def s0 : State := (sReady.setReg .ptRegions 0 0 0x11).setFlag .ptStatus 0 0 1 true

/-- A ring of partition 0 at level FLEET, of 16 entries with a completion ring of 16, in DRAM of its first stack. -/
def sRing : State :=
  ((((s0.setReg .mbRingCtl 0 1 5).setReg .mbRingSq 0 1 0x4).setReg .mbRingCq 0 1 0x1004).setReg .mbRingMsiAddr 0 1 0)

def cBmc : Cmd := { path := .bmc, tag := 7, notify := false, fence := false, target := 0, reserved := false }
def cDev : Cmd := { cBmc with target := 0xFF }
def cRing : Cmd := { cBmc with path := .ring 0 1 }
def cRingDev : Cmd := { cRing with target := 0xFF }

def noFinds : TestFindings := noFindings

def hdr : MoveHdr := { site := 6, index := 0, start := 5, cycle := 5, cdone := 2, mask := 0x3FF }

/-! Mailbox commands -/

/-- A ring of level TENANT. -/
def sTenant : State := sRing.setReg .mbRingCtl 0 1 1

theorem witness_StepRunsFrontCommand :
    ({ s0 with pending := [.nop hdr] } : State).pending = .nop hdr :: [] ∧ State.reset.pending = [] := by decide +kernel

theorem witness_StepKeepsMemoryForm : (s0.setByte 5 1).memOk ∧ ((s0.setByte 5 1).pending = []) := by decide +kernel

theorem witness_ChecksInOrder :
    (sTenant.pathLevel cRing).rank < Level.kernel.rank ∧ sTenant.refusal cRing rowBookMap false = some .notPermitted ∧
    sRing.refusal cRingDev rowInfo false = none ∧ sRing.refusal cRing rowInfo false = some .notPermitted ∧
    sRing.refusal { cRingDev with reserved := true } rowInfo false = some .badArgument ∧
    sRing.refusal { cRing with target := 5 } rowBookMap false = some .notPermitted ∧ sRing.refusal cRing rowBookMap true = some .badArgument ∧
    (sRing.setFlag .ptStatus 0 0 2 true).refusal cRing rowBookMap false = some .partitionFenced ∧ sRing.refusal cRing rowBookMap false = none ∧
    bytesAt [0x06, 0x01] 0 2 ∉ opcodes ∧ sUp.accepts (cmdOf .bmc [0x06, 0x01]) = true := by decide +kernel

theorem witness_CommandsNotTaken :
    State.reset.accepts cRing = false ∧ sTenant.accepts cRing = true ∧ sTenant.refusal cRingDev rowInfo true = some .badArgument ∧
    sTenant.refusal cRing rowInfo false = some .notPermitted ∧ sTenant.refusal cRing rowDissolve false = some .notPermitted ∧
    sTenant.refusal cRing rowBookLoad (!sTenant.inPartDram 0 0 64) = some .notPermitted ∧
    sTenant.refusal { cRing with target := 1 } (streamRow' 0x0403) false = some .notPermitted ∧
    sTenant.refusal { cRing with target := 1 } rowInvalidate (!pagesGood 0 1) = some .notPermitted ∧
    sTenant.refusal cRing (logRow 0x0700 .kernel) false = some .notPermitted ∧ sTenant.refusal cRing (debugRow 0x0800) false = some .notPermitted := by
  decide +kernel

theorem witness_CompletionByPath :
    sUp.up = true ∧ cBmc.path = .bmc ∧ (sUp.enterCommand cBmc rowInfo).referee.journal.any (fun e => e.isOf cBmc 0x0100) = true ∧
    cRing.path = .ring 0 1 ∧ (sRing.enterCommand cRing rowBookMap).referee.journal.any (fun e => e.isOf cRing 0x0302) = true ∧
    (let c : Cmd := { cBmc with path := .mgmt 0 3 5 9 }
     c.path = .mgmt 0 3 5 9 ∧ (sUp.enterCommand c rowBookMap).referee.journal.any (fun e => e.isOf c 0x0302) = true) ∧
    sUp.referee.journal.any (fun e => e.isOf cBmc 0x0100) = false ∧ State.reset.up = false := by
  decide +kernel

/-- Table 9.9: a completion carries its opcode, status, phase and tag. -/
theorem test_completion : (after (.deviceSiteEnable cDev 4) s0).referee.bmcOut.map (fun b => b.take 8) = [[0x01, 0x01, 0x00, 0x01, 0x07, 0, 0, 0]] := by
  decide +kernel

theorem witness_DeviceCommands :
    sRing.taken cRingDev rowInfo false ∧ (4 : BitVec 8).toNat ≤ 103 ∧ sRing.taken cRingDev rowSiteEnable false ∧ sRing.siteState 4 ≠ .retired ∧
    (sRing.siteNext 4 = .enabled ∨ sRing.enabledNext < 100) ∧ sRing.taken cRingDev rowSiteReserve false ∧
    sRing.inOwnDram cRingDev 0 0 = true ∧ sRing.taken cRingDev rowFwStage false ∧
    ((sRing.enterCommand cRingDev rowFwStage).hostRead 0 0 0).2.toOption = some [] ∧
    sRing.formed 0 = true ∧ sRing.taken cRingDev rowGrantFleet false := by decide +kernel

/-- Host die 0 runs in the partition. -/
def sHost : State := sRing.setField .hdStatus 0 0 1 2 1

theorem witness_PartitionCommands :
    sRing.taken cRingDev rowForm false ∧
    (sRing.formed 0 = true ∧ sRing.taken cBmc rowDissolve false ∧ cmdPart cBmc ≠ some 0 ∧ sRing.dissolving 0 = false) ∧
    (sRing.taken cRing rowReset false ∧ sRing.resetting 0 = false) ∧
    (sRing.taken cRing rowLayout false ∧ (sRing.enterCommand cRing rowLayout).layoutRefused 0 16 16 64 = none) ∧
    (sRing.publishArgs 0 0 1 1 = true ∧ sRing.taken cRing rowPublish false ∧ (sRing.part 0).publishes.length < 64) ∧
    (policyGood 5 50 = true ∧ sRing.taken cRing rowPolicySet false ∧ policyDefault 5 = some 5 ∧ sRing.taken cRing rowPolicyGet false) ∧
    (sRing.grantRings 0 0 0 = true ∧ sRing.taken cRing rowGrant false) := by decide +kernel

theorem witness_PartitionCommands_host :
    sHost.hostOwner 0 = some 0 ∧ sHost.taken cRing rowReset false ∧ sHost.hostFenced 0 = false ∧ sHost.flag .hdStatus 0 0 4 = false ∧
    (sHost.part 0).resetCmd = none ∧
    (let w := ((sHost.enterCommand cRing rowReset).stopHost 0).bump .hdResets 0
     (w.calibrateHost 0 { noFinds with hosts := [0] }).flag .hdStatus 0 0 4 = true ∧ (w.calibrateHost 0 noFinds).flag .hdStatus 0 0 4 = false ∧
      ((w.calibrateHost 0 noFinds).releaseHost 0 0).2 = true) := by decide +kernel

/-! Books, streams, state, links, log, debug and power -/

/-- A book of one map and no sites. -/
def book0 : Book :=
  { crc := 0, version := 1, traceSlots := false, span := false, mapCount := 1, minStep := 0, modules := 1, samDigest := 0, regions := 0x11,
    chgMin := 2000, turnMin := 25000, turnMax := 800000, rookBudget := 0, sites := [], entries := [], descs := [], tables := [],
    reshardDescs := [], circuits := [], sheets := [], rook := [] }

/-- The book is loaded. -/
def sBook : State := sRing.modPart 0 (fun v => { v with book := some book0 })

/-- A stream of partition 0 in row 3, OPEN, of tenant 0 with no pages. -/
def sStream : State :=
  (sRing.setReg .stBlock 0 0 0xF).setRow 3 { handle := mkHandle 1 3, part := 0, state := stOpen }

theorem witness_BookCommands :
    (sRing.inPartDram 0 0 64 = true ∧ sRing.taken cRing rowBookLoad false ∧ sRing.bookLoaded 0 = false ∧ (sRing.part 0).loading = none ∧
      ((sRing.enterCommand cRing rowBookLoad).hostRead 0 64 0).2.toOption.isSome = true) ∧ book0.span = false ∧
    (sBook.taken cRing rowBookUnload false ∧ sBook.bookLoaded 0 = true ∧ (sBook.part 0).unload = none) ∧
    (sBook.book 0 = some book0 ∧ (0 : Nat) < book0.mapCount ∧ sBook.taken cRing rowBookMap false ∧ (sBook.part 0).members = []) ∧
    sBook.taken cRing rowBookPreempt false := by decide +kernel

theorem witness_StreamAndStateCommands :
    sRing.taken cRing (streamRow' 0x0400) false ∧ sRing.taken cRing (streamRow' 0x0401) false ∧ sRing.taken cRing (streamRow' 0x0402) false ∧
    sRing.taken cRing (streamRow' 0x0403) false ∧ sRing.taken cRing (streamRow' 0x0404) false ∧ sRing.taken cRing (streamRow' 0x0405) false ∧
    sRing.taken cRing rowMigrate false ∧ sRing.taken cRing (streamRow' 0x0407) false ∧ pagesGood 0 1 = true ∧ sRing.taken cRing rowTier false ∧
    sRing.taken cRing rowInvalidate false ∧ sRing.taken cRing rowQuery false := by decide +kernel

/-- R254: what an accepted stream command does is wait. -/
theorem test_stream_open : (after (.streamOpen cRing 0 3) sRing).part 0 = { queue := [{ cmd := cRing, op := .streamOpen 0 3 }] } := by decide +kernel

theorem witness_LinkAndLogCommands :
    sRing.taken cRing { opcode := 0x0600, level := .kernel } false ∧ sRing.taken cRing { opcode := 0x0601, level := .fleet, reached := !(sRing.quadIsUp 0 && sRing.bookUses 0) } false ∧
    ((sRing.setReg .olQstatus 0 0 0x2000).quadRole 0 ≠ roleDark ∧ (sRing.setReg .olQstatus 0 0 0x2000).quadState 0 = quadUp) ∧
    quadUp ≠ quadDark ∧ quadUp ≠ quadVacant ∧
    sRing.taken cRing { opcode := 0x0602, level := .fleet } false ∧
    (sRing.taken cRing (logRow 0x0700 .kernel) false ∧ sRing.flag .evStatus 0 0 1 = false) ∧
    ((sRing.setFlag .evStatus 0 0 1 true).pathLevel cRing = .fleet ∧ sRing.taken cRing (logRow 0x0701 .kernel) false) ∧
    (sRing.inPartDram 0 0 256 = true ∧ sRing.taken cRing (logRow 0x0702 .kernel) false) ∧
    sRing.taken cRing (logRow 0x0703 .fleet) false ∧ sRing.taken cRing (logRow 0x0704 .fleet) false := by decide +kernel

/-- A debug session of partition 0 is open. -/
def sDebug : State := sRing.setReg .dbSession 0 0 (BitVec.ofNat 64 (2 ^ 63 + 2 ^ 48 + 3600))

theorem witness_DebugAccess_mail :
    (sRing.taken cRing (debugRow 0x0800) false ∧ (sRing.part (challengePart cRing 0)).lockout = false) ∧ sRing.taken cRing (debugRow 0x0801) false ∧
    sRing.responseRight 0 0 = false ∧
    (sDebug.siteOwner 6 = some 0 ∧ sDebug.taken cRing (debugRow 0x0802) false ∧ sDebug.sessionOpen 0 = true ∧ sDebug.siteState 6 = .enabled ∧
      sDebug.siteOut 6 = false) ∧
    sDebug.taken cRing (debugRow 0x0803) false ∧ sDebug.taken cRing (debugRow 0x0804) false := by decide +kernel

theorem witness_PowerCommands :
    (sRing.powerGood 0x0111 150 = true ∧ sRing.taken cRingDev (powerRow 0x0900 .kernel 0x0111) false ∧ isCooling 0x0111 = true) ∧
    (sRing.powerGood 0x0101 7 = true ∧ sRing.taken cRing (powerRow 0x0900 .kernel 0x0101) false ∧ isCooling 0x0101 = false) ∧
    (sRing.powerDefault 0 0x0104 = some 88 ∧ sRing.taken cRing (powerRow 0x0901 .tenant 0x0104) false) ∧
    sRing.taken cRing { opcode := 0x0902, level := .tenant, bmc := true, fencedToo := true } false := by decide +kernel

theorem witness_LogRate :
    (0x1580 : BitVec 16) ∈ safetyCodes ∧ (0x1702 : BitVec 16) ∉ safetyCodes ∧ sRing.recorder.limits.length < 256 ∧
    (sRing.modRecorder (fun x => { x with limits := (List.range 256).map (fun k => (k + 1, 5)) })).recorder.limits.length = 256 ∧
    (sRing.modRecorder (fun x => { x with limits := (List.range 256).map (fun k => (k + 1, 5)) })).taken cRing (logRow 0x0704 .fleet) false := by
  decide +kernel

/-! Moves: a book with descriptors for site 6 -/

/-- Operand lists: stream 0 in three inputs and the first output. -/
def ops0 : BitVec 256 := BitVec.ofNat 256 ((0xFFFFF * 2 ^ 72 + 0xFFFFFFFFFFFF * 2 ^ 24 + 0xFFF) % 2 ^ 84 % 2 ^ 84)

/-- 64 bytes between DRAM line 0 and region 1, and the same bytes sent to region 1 of site 7. -/
def dma0 : BitVec 256 := BitVec.ofNat 256 (64 * 2 ^ 176 + 2 ^ 59)
def dma1 : BitVec 256 := BitVec.ofNat 256 ((0x090000000000 + 7 * 0x08000000) * 2 ^ 208 + 64 * 2 ^ 176 + 2 ^ 59)

def book1 : Book := { book0 with descs := [{ map := 0, site := 6, matrix := [0], vector := [1], dma := [dma0, dma1], oplist := [ops0] }] }

/-- Partition 0 in play with the book; the die of site 6 plays a table of ten moves, has region 1 of one page, and gangs its arrays in mode 4. -/
def sPlay : State :=
  ((((((((sRing.setReg .refSamLo 0 0 0xC0)).modPart 0 (fun v => { v with book := some book1, stage := .play })).modDie 6 (fun d =>
    { d with powered := true, inReset := false, playing := true, tableLen := 10 })).setReg .dmRgn 6 1 (BitVec.ofNat 64 (2 ^ 63 + 2 ^ 32 + 16))).setReg
    .dmBankEn 6 0 0xFFFF).setField .mxStatus 6 0 32 3 4).setField .tnStatus 0 0 8 3 1)

def w0 : Waits := { buffer := 0, bank := 0, queue := 0, held := 0, slice := 0 }

/-- A move in flight, performed. -/
def flight0 : Flight := { index := 3, cdone := 2, unit := .matrix, move := .drain { hdr with index := 3 } 0 0 false w0 }

def vf0 : VecFields := { rnd := 0, firstSlice := 0, sliceCount := 0, oplist := 0, param := 0, waits := w0 }

theorem witness_SequencerMoves :
    sPlay.issues hdr 0 ∧ sPlay.flag .dbTraceCtl 0 0 0 = false ∧
    ((sPlay.setFlag .dbTraceCtl 0 0 0 true).issues hdr 0 ∧ ((sPlay.setFlag .dbTraceCtl 0 0 0 true).die 6).traceQueue.length < 8) ∧
    sPlay.flag .sqPreempt 0 0 0 = false ∧ (sPlay.setFlag .sqPreempt 0 0 0 true).issues hdr 0 ∧
    ((sPlay.setFlag .sqPreempt 0 0 0 true).die 6).flights.all (fun f => f.stopped) = true ∧
    (let s := (sPlay.setFlag .sqPreempt 0 0 0 true).modDie 6 (fun d => { d with flights := [flight0] })
     s.issues hdr 0 ∧ (s.die 6).flights.all (fun f => f.stopped) = false) := by decide +kernel

/-- R191: a NOP passes the sequencer and credits its completion counter. -/
theorem test_nop : (after (.nop hdr) sPlay).field .sqNext 6 0 0 18 = 1 ∧ (after (.nop hdr) sPlay).ctr 6 2 = 1 := by decide +kernel

def fl (i : Instr) : State := (sPlay.inFlight hdr i).startFlight 6 0
def free6 (s : State) : Bool := (s.die 6).flights.all (fun g => !g.waits)

def pass0 : Instr := .pass hdr 0 0 0 0 0 false false false false false w0

theorem witness_UnitMoves :
    (moveHdr (.drain hdr 0 0 false w0) = some hdr ∧ unitMove (.drain hdr 0 0 false w0) = true ∧ sPlay.issues hdr 0 ∧ (sPlay.die 6).flights = [] ∧
      (sPlay.inFlight hdr (.drain hdr 0 0 false w0)).moveReady 0 6 [] (flightOf hdr (.drain hdr 0 0 false w0)) = true) ∧
    ((sPlay.modDie 6 (fun d => { d with bufs := [(0, .held)] })).inFlight hdr pass0).moveReady 0 6 [] (flightOf hdr pass0) = false := by
  decide +kernel

/-- How a vector operation or a DMA ended. -/
def vecDone : VecEnd → Bool
  | .done => true
  | _ => false

def dmaDone : DmaEnd → Bool
  | .done => true
  | _ => false

def dmaSent : DmaEnd → Option (BitVec 16)
  | .sent x => some x
  | _ => none

/-- The 31 vector moves. -/
def vecs : List (MoveHdr → VecFields → Instr) :=
  [.add, .sub, .mul, .fma, .min, .max, .select, .div, .sqrt, .recip, .exp, .log, .rsqrt, .tanh, .sigmoid, .iadd, .imul, .cvt, .rsum, .rmax, .rmin, .csum,
   .cmax, .cmin, .softmax, .lnorm, .rmsnorm, .topk, .rand, .sample, .sb3enc]

/-- A vector move at sPlay meets what VectorMoves asks of it. -/
def vecWitness (c : Instr) : Bool :=
  match vecMove c with
  | none => false
  | some (g, v) => (sPlay.inFlight hdr c).moveReady 0 6 [] (flightOf hdr c) && (match (fl c).vecOp 0 6 g hdr.mask v ((sPlay.inFlight hdr c).modeNow 6) with
      | some o =>
        let r := (fl c).performVec 0 6 o 0 [] []
        vecDone r.2 && free6 r.1
      | none => false)

theorem witness_VectorMoves : sPlay.issues hdr 0 ∧ (sPlay.die 6).flights = [] ∧ vecs.length = 31 ∧
    (vecs.all (fun f => decide (moveHdr (f hdr vf0) = some hdr) && vecWitness (f hdr vf0))) = true := by decide +kernel

def passFields0 : PassFields :=
  { mask := 0x3FF, first := 0, count := 1, adesc := 0, bdesc := 0, k := 0, buf := false, acc := false, shareA := false, shareB := false, pos := false }

/-- A DMA move of a descriptor, performed at sPlay. -/
def dmaRun (k : DmaKind) (c : Instr) (desc : Nat) : State × DmaEnd := (fl c).performDma 0 6 ((sPlay.inFlight hdr c).modeNow 6) k desc 0x3FF 0 [] []

theorem witness_MatrixAndDmaMoves :
    ((sPlay.inFlight hdr pass0).moveReady 0 6 [] (flightOf hdr pass0) = true ∧ ((fl pass0).performPass 0 6 passFields0).2 = none ∧
      free6 ((fl pass0).performPass 0 6 passFields0).1 = true) ∧
    (sPlay.inFlight hdr (.drainHeld hdr 0 0 false w0)).moveReady 0 6 [] (flightOf hdr (.drainHeld hdr 0 0 false w0)) = true ∧
    (sPlay.inFlight hdr (.gang hdr 4 w0)).moveReady 0 6 [] (flightOf hdr (.gang hdr 4 w0)) = true ∧
    (let r := dmaRun .load (.load hdr 0 0) 0
     (sPlay.inFlight hdr (.load hdr 0 0)).moveReady 0 6 [] (flightOf hdr (.load hdr 0 0)) = true ∧ dmaDone r.2 = true ∧ free6 r.1 = true) ∧
    (let r := dmaRun .store (.store hdr 0 0) 0
     (sPlay.inFlight hdr (.store hdr 0 0)).moveReady 0 6 [] (flightOf hdr (.store hdr 0 0)) = true ∧ dmaDone r.2 = true ∧ free6 r.1 = true) ∧
    (let r := dmaRun .send (.send hdr 1 0) 1
     (sPlay.inFlight hdr (.send hdr 1 0)).moveReady 0 6 [] (flightOf hdr (.send hdr 1 0)) = true ∧ dmaSent r.2 = some 0 ∧ free6 r.1 = true) ∧
    ((sPlay.inFlight hdr (.twin hdr 0)).moveReady 0 6 [] (flightOf hdr (.twin hdr 0)) = true ∧
      free6 ((fl (.twin hdr 0)).performTwin 0 6 ((sPlay.inFlight hdr (.twin hdr 0)).modeNow 6) 0x3FF 0) = true) := by decide +kernel

/-- R182: a LOAD of 64 bytes puts them where region 1 begins. -/
theorem test_load : ((after (.load hdr 0 0) (sPlay.setByte 2 0xAB)).dieBytes 6 0x10000 4) = [0, 0, 0xAB, 0] := by decide +kernel

/-! Moves in flight, turns, the S-net and the game clock -/

/-- Site 6 with move 3 in its unit. -/
def sFlight : State := sPlay.modDie 6 (fun d => { d with flights := [flight0] })

/-- Site 6 with a SEND that waits for its SACK. -/
def sSent : State := sPlay.modDie 6 (fun d => { d with flights := [{ flight0 with sendXid := some 0 }] })

/-- A line for site 6. -/
def sendPkt : BnetPacket :=
  { byteEnable := 0, dest := BitVec.ofNat 8 (siteSquare 6), src := 35, kind := .send, compiled := false, cls := 2, xid := 4, seq := 0, lines := 1,
    epoch := 0, turn := 0, rctr := 0, part := 0, circ := 0xFF, addr := 0x093000010000, payload := List.replicate 64 0xAB }

/-- Site 6 tracks 64 transfers. -/
def sTracked : State := sPlay.modDie 6 (fun d => { d with inbound := (List.range 64).map (fun k =>
  { src := 0, xid := BitVec.ofNat 16 k, lines := 2, seqs := [], counted := false }) })

theorem witness_MoveEvents :
    sFlight.siteOwner 6 = some 0 ∧
    (sFlight.die 6).flights.find? (fun f => decide (f.index = 3) && (sFlight.die 6).mayLand f) = some flight0 ∧
    (sSent.die 6).flights.find? (fun f => decide (f.sendXid = some 0)) = some { flight0 with sendXid := some 0 } ∧
    (sendPkt.kind = .send ∧ sPlay.dieAnswer 6 = none ∧ (sPlay.die 6).stale sendPkt = false ∧ (sPlay.die 6).tracked < 64 ∧
      (sPlay.die 6).inbound.find? (fun t => decide (t.src = sendPkt.src ∧ t.xid = sendPkt.xid)) = none) ∧
    (sTracked.siteOwner 6 = some 0 ∧ sTracked.dieAnswer 6 = none ∧ (sTracked.die 6).stale { sendPkt with compiled := true } = false ∧
      64 ≤ (sTracked.die 6).tracked ∧ (sTracked.die 6).inbound.find? (fun t => decide (t.src = sendPkt.src ∧ t.xid = sendPkt.xid)) = none) ∧
    ((sPlay.die 6).stale { sendPkt with compiled := true, turn := 1 } = true ∧ (sPlay.square (siteSquare 6)).sendWait = []) ∧
    (let s := sPlay.modDie 6 (fun d => { d with traceQueue := [[1]] })
     (s.die 6).traceQueue = [1] :: [] ∧ s.hasToken (siteSquare 6) = true) ∧ (sPlay.die 6).traceQueue = [] := by decide +kernel

/-- Partition 0 in play, its die of site 6 not yet playing. -/
def sIdle : State := sPlay.modDie 6 (fun d => { d with playing := false })

/-- A partition at a stage of its turn and a PHASE. -/
def sAt (g : TurnStage) (ph : Nat) : State := (sPlay.modPart 0 (fun v => { v with stage := g })).setPhase 0 ph

/-- No die of the partition has a table. -/
def noTable (s : State) : State := s.modDie 6 (fun d => { d with tableLen := 0 })

theorem witness_PlayAndBoundaries :
    (sIdle.siteOwner 6 = some 0 ∧ sIdle.inPlay 0 = true ∧ sIdle.inService 6 = true ∧ (sIdle.die 6).playing = false ∧
      (sIdle.reg .tnStart 0).toNat ≤ (sIdle.now (siteSquare 6)).toNat ∧ (sIdle.die 6).haltPending = false ∧ (sIdle.die 6).rookFault = false) ∧
    (((sAt .play 1).part 0).stage = .play ∧ (sAt .play 1).phase 0 = 1 ∧ ((sAt .play 1).part 0).pastEnd = false ∧
      ((sAt .play 1).part 0).emptyTurn = false ∧ (sAt .play 1).allDone 0 = false ∧ (sAt .play 1).anyHalted 0 = false) ∧
    ((sAt .play 3).phase 0 = 3 ∧ ((noTable (sAt .play 3)).part 0).members = [] ∧ (noTable (sAt .play 3)).allDone 0 = true ∧ (noTable (sAt .play 3)).anyHalted 0 = false ∧
      (noTable (sAt .play 3)).phase 0 = 3) ∧
    (((sAt .play 3).part 0).stage = .play ∧ (sAt .play 3).anyHalted 0 = false ∧ ((sAt .play 3).part 0).pausePending = false ∧
      (sAt .play 3).allDone 0 = false) := by decide +kernel

/-- Every rook of the partition is ready. -/
def allReady (s : State) : State := (s.lateRooks 0).foldl (fun s i => s.modDie i (fun d => { d with rookReady := true })) s

theorem witness_Changeovers :
    ((sAt .draining 2).phase 0 = 2 ∧ (sAt .draining 2).anyHalted 0 = false ∧ ((sAt .draining 2).part 0).stage = .draining) ∧
    ((sAt .begun 2).part 0).stage = .begun ∧
    (((sAt .started 2).modPart 0 (fun v => { v with stepPending := some 2 })).part 0).stage = .started ∧
    ((sAt .started 2).part 0).stage = .started ∧
    ((sAt .worked 2).siteOwner 6 = some 0 ∧ ((sAt .worked 2).part 0).stage = .worked ∧ (sAt .worked 2).inService 6 = true ∧
      ((sAt .worked 2).die 6).pipNext = false ∧ ((sAt .worked 2).turn 0).toNat % 256 ≠ 6 ∧ ((sAt .worked 2).die 6).rookReady = false) ∧
    ((sAt .worked 2).phase 0 = 2 ∧ ((sAt .worked 2).part 0).stopNext = false ∧ (sAt .worked 2).lateRooks 0 ≠ [] ∧
      (allReady (sAt .worked 2)).lateRooks 0 = [] ∧ ((allReady (sAt .worked 2)).part 0).stage = .worked) ∧
    ((sAt .worked 4).phase 0 = 4 ∧ ((sAt .worked 4).lateRooks 0).filter (fun i => decide (i ∈ ((sAt .worked 4).part 0).lateRooks)) = []) ∧
    (let s := noTable (sPlay.setFlag .sqPreempt 0 0 0 true)
     s.inPlay 0 = true ∧ s.flag .sqPreempt 0 0 0 = true ∧ s.anyHalted 0 = false ∧
      (s.enabledSites 0).all (fun i => s.dieDone 0 i || s.flag .sqStatus i 0 19 || s.flag .sqStatus i 0 18) = true) := by decide +kernel

/-- A square of the partition without a site, with a child to its north in the tree, in the same region. -/
def sTree : State := sPlay.setReg .snTree 32 0 0x100

/-- Site 7 done, under preemption. -/
def sPre : State := sPlay.setFlag .sqPreempt 0 0 0 true

theorem witness_SnetMessages :
    (let s := sPlay.setPhase 0 2
     s.owner 32 = some 0 ∧ (s.turn 0).toNat % 2 ^ 56 = (0 : BitVec 56).toNat ∧ s.phase 0 = 2) ∧
    (0 ∈ sTree.treeChildren 32 ∧ sTree.linkIdle 32 0 = false ∧
      (sTree.treeChildren 32).all (fun c => decide (c ∈ Sparse.insertNat (sTree.square 32).snDone 0)) = true ∧ sTree.ownDie 32 = false) ∧
    (let q := siteSquare 7
     sPre.owner q = some 0 ∧ squareSite q = some 7 ∧ sPre.flag .sqPreempt 0 0 0 = true ∧ sPre.inPlay 0 = true ∧ sPre.dieDone 0 7 = true ∧
      sPre.siteEnabled 7 = true) ∧
    (let q := siteSquare 7
     (sAt .draining 2).owner q = some 0 ∧ squareSite q = some 7 ∧ ((sAt .draining 2).part 0).stage = .draining) := by decide +kernel

def sClock (slew : Int) : State := { sReady with clock := { sReady.clock with running := true, slew := slew } }

theorem witness_GameClock :
    (sClock 0).clock.running = true ∧ 0 < (sClock 5).clock.slew ∧ (sClock 5).clock.running = true ∧ (sClock (-5)).clock.slew < 0 ∧
    (sReady.setFlag .gcStatus 0 0 0 true).flag .gcStatus 0 0 0 = true ∧ sReady.ready = true ∧
    (let lat := (2 * sReady.field .snTimeLat 32 0 0 8 + 15) / 30
     2 < (((sReady.now 32).setWidth 56 - ((100 : BitVec 56) + BitVec.ofNat 56 lat)).toInt).natAbs ∧
      (((sReady.now 32).setWidth 56 - ((1 : BitVec 56) + BitVec.ofNat 56 lat)).toInt).natAbs ≤ 2) := by decide +kernel

/-! Registers, rings and command bytes -/

theorem witness_RegisterWriteReachesRegister :
    (let k : RegKey := rk .mbRingMsiAddr 7 15
     spotAt k.addr = .reg k 0 ∧ 0xF00000000000 ≤ k.addr ∧ k.addr < 0xF10001000000 ∧ k.addr % 8 = 0 ∧ k.addr < 2 ^ 48) ∧
    (let k : RegKey := rk .dmRgn 103 3
     spotAt k.addr = .reg k 0 ∧ 0xF00000000000 ≤ k.addr ∧ k.addr < 0xF10001000000 ∧ k.addr % 8 = 0 ∧ k.addr < 2 ^ 48) := by decide +kernel

/-- R14: TN_SPAN of a partition whose book is loaded is in use. -/
def sSpanBusy : State := sBook

theorem witness_RefusedWrites :
    RegName.ofRecorder .tnSpan = false ∧ ((2 : Word) ^ 63) &&& ~~~RegName.tnSpan.info.defined ≠ 0 ∧
    (RegName.ptRegions.info.refereeOnly = true ∧ Requester.bmc ≠ .referee) ∧ RegName.gcNow.info.readOnly = RegName.gcNow.info.defined ∧
    (RegName.ccUnmapped.info.clearOnZero = true ∧ (5 : Word) ≠ 0) ∧
    (RegName.ccLayout.info.clearOnZero = false ∧ RegName.xlFieldLat.info.cls = .boot ∧ sReady.ready = true) ∧
    (let k := rk .tnSpan 0
     let v : Word := 1
     v &&& ~~~k.name.info.defined = 0 ∧ k.name.info.readOnly ≠ k.name.info.defined ∧ k.name.info.clearOnZero = false ∧ k.name.info.cls = .locked ∧
      k.name.info.liveMask = 0 ∧ sSpanBusy.blockRunning k = true ∧ (v ^^^ sSpanBusy.readReg k) &&& k.name.info.defined ≠ 0 ∧
      busyRegister k.name = some .tnStatus) := by decide +kernel
/-- A hart in machine mode reaches the Referee window, and finds GC_SET behind its partition's boundary; a device below a root port, a rook and a hart in
user mode do not reach GC_SET. -/
theorem witness_RegisterWriteReachesRegister_reach :
    (let k : RegKey := rk .tnTurnLen 0
     let r : Requester := .hart 0 0 .m
     spotAt k.addr = .reg k 0 ∧ s0.coresRun = true ∧ s0.blocked r = false ∧ s0.memoryFence r k.addr 8 = none ∧ s0.memoryCut r k.addr 8 = false ∧
      s0.reach r k.addr true = .yes ∧ s0.crossing true r.square (windowSquare k.addr) = none) ∧
    (let k : RegKey := rk .gcSet
     let r : Requester := .hart 0 0 .m
     spotAt k.addr = .reg k 0 ∧ s0.reach r k.addr true = .yes ∧ s0.crossing true r.square (windowSquare k.addr) = some 116 ∧
      s0.memoryFence r k.addr 8 = none ∧ s0.memoryCut r k.addr 8 = false ∧
      s0.memoryFence (.pcie 0) k.addr 8 = none ∧ s0.reach (.pcie 0) k.addr true = .no ∧ s0.memoryCut (.pcie 0) k.addr 8 = false ∧
      s0.reach (.rook 3) k.addr true = .blind ∧ s0.memoryFence (.rook 3) k.addr 8 = none ∧ s0.memoryCut (.rook 3) k.addr 8 = false ∧
      s0.reach (.hart 0 0 .u) k.addr true = .fault ∧ s0.memoryFence (.hart 0 0 .u) k.addr 8 = none ∧ s0.memoryCut (.hart 0 0 .u) k.addr 8 = false) := by
  decide +kernel

/-- Every slice of partition 0 pins two units. -/
def sPins : State := (s0.partSquares 0).foldl (fun s q => s.setReg .ccLayout q 0 0x401002) s0

theorem witness_OperationRegisters :
    (sUp.ready = false ∧ sReady.ready = true ∧ (5 : Word).toNat < 2 ^ 32 ∧
      ({ sUp with referee := { sUp.referee with wdogWritten := true } } : State).referee.wdogWritten = true ∧
      sUp.now.toNat < sUp.referee.lastToggle.toNat + 100000 ∧
      (let s : State := { sUp with clock := { sUp.clock with counter := 200000 } }
       s.referee.lastToggle.toNat + 100000 ≤ s.now.toNat)) ∧
    ((1 : Word) &&& ~~~RegName.ccPubBase.info.defined = 0 ∧
      s0.pubAllowed 0 15 (fun m => if m = 15 then 1 else s0.reg .ccPubBase 0 m) (fun m => s0.reg .ccPubLen 0 m) = true ∧
      (0 : Word) &&& ~~~RegName.ccPubLen.info.defined = 0 ∧
      s0.pubAllowed 0 15 (fun m => s0.reg .ccPubBase 0 m) (fun m => if m = 15 then 0 else s0.reg .ccPubLen 0 m) = true) ∧
    ((∀ q ∈ sPins.partSquares 0, (2 : BitVec 8).toNat ≤ sPins.field .ccLayout q 0 0 8) ∧ sPins.field .stPinLend 0 0 0 8 ≤ 2) ∧
    (∃ q ∈ sPins.partSquares 0, sPins.field .ccLayout q 0 0 8 < (3 : BitVec 8).toNat) ∧
    ((0x0003000500000000 : Word) &&& ~~~RegName.olPoolMap.info.defined = 0 ∧ bitAt (0x0003000500000000 : Word) 63 = false ∧ s0.poolRunning 63 = false ∧
      s0.flag .olPoolMap 0 63 63 = false) := by decide +kernel

/-- The stream in row 3 has page 0 in pinned unit 2 of square 0. -/
def sPinned : State :=
  let s := (sPins.setReg .stPinLend 0 0 1).setRow 3 { handle := mkHandle 1 3, part := 0, state := stOpen, root := 0x10000 }
  (s.placeLeaf 0x10000 0 (mkEntry (0x080000000000 + 16 * 0x04000000 + 2 * 0x40000) 1 false false false) [0x20000, 0x30000]).1

/-- Pool window 0 holds a far page. -/
def sPooled : State :=
  let s := s0.setRow 3 { handle := mkHandle 1 3, part := 0, state := stOpen, root := 0x10000 }
  (s.placeLeaf 0x10000 0 (mkEntry 0x800000050000 2 false false false) [0x20000, 0x30000]).1

theorem witness_OperationRegisters_refused :
    sReady.coresRun = true ∧ s0.coresRun = true ∧ sPins.coresRun = true ∧
    s0.pubAllowed 0 15 (fun m => if m = 15 then 1 else s0.reg .ccPubBase 0 m) (fun m => if m = 15 then 0xFFFFFFFF else s0.reg .ccPubLen 0 m) = false ∧
    (let s := s0.setReg .ccPubBase 0 15 1
     s.coresRun = true ∧ s.pubAllowed 0 15 (fun m => s.reg .ccPubBase 0 m) (fun m => if m = 15 then 0xFFFFFFFF else s.reg .ccPubLen 0 m) = false) ∧
    (let s := s0.setReg .ccPubLen 0 15 0xFFFFFFFF
     s.coresRun = true ∧ s.pubAllowed 0 15 (fun m => if m = 15 then 1 else s.reg .ccPubBase 0 m) (fun m => s.reg .ccPubLen 0 m) = false) ∧
    (16 ∈ sPinned.partSquares 0 ∧ sPinned.field .ccLayout 16 0 0 8 - sPinned.field .stPinLend 0 0 0 8 < 2 ∧ 2 + 0 ≤ sPinned.field .ccLayout 16 0 0 8 ∧
      (0 : Nat) < sPinned.field .stPinLend 0 0 0 8 ∧ sPinned.unitHoldsPage 0 16 2 = true) ∧
    sPooled.poolRunning 0 = true ∧ sPooled.coresRun = true ∧ s0.poolRunning 63 = false ∧ s0.formed 7 = false ∧
    ((poolQuads 0xFFFFFFFFFFFFFF00).all (fun q => decide (q < 224) && decide (q ∈ s0.partQuads 0)) = true ∧ s0.formed 0 = true) := by decide +kernel

/-- The ring holds device.info for the device, and its doorbell has been written. -/
def sRang : State := (sRing.setBytes 0 [0x00, 0x01, 0, 0, 7, 0, 0, 0, 0xFF]).setReg .mbRingProd 0 1 1

/-- Ring 1 with one command outstanding whose close waits. -/
def sClosing (n : Nat) : State := sRing.modRing 0 1 (fun r => { r with closing := true, outstanding := n, msiOwed := true })

theorem witness_RingRegisters :
    (((16 : BitVec 32).toNat + 2 ^ 32 - sRing.field .mbRingCons 0 1 0 32) % 2 ^ 32 ≤ ringEntries (sRing.reg .mbRingSq 0 1) ∧
      ringEntries (sRing.reg .mbRingSq 0 1) < ((17 : BitVec 32).toNat + 2 ^ 32 - sRing.field .mbRingCons 0 1 0 32) % 2 ^ 32) ∧
    (let s := sRing.setReg .mbRingCtl 0 1 0
     (5 : Word) &&& ~~~RegName.mbRingCtl.info.defined = 0 ∧ bitsAt (5 : Word) 1 2 ≠ 3 ∧ s.flag .mbRingCtl 0 1 0 = false ∧ s.ringBasesGood 0 1 = true) ∧
    (bitsAt (sRing.reg .mbRingCtl 0 1) 1 2 ≠ 3 ∧ sRing.flag .mbRingCtl 0 1 0 = true ∧ (sRing.ring 0 1).outstanding = 0) ∧
    (sRing.coresRun = true ∧ sRang.coresRun = true ∧ (sClosing 1).flag .mbRingCtl 0 1 0 = true ∧ ((sClosing 1).ring 0 1).outstanding ≠ 0) ∧
    ((sClosing 0).ring 0 1).closing = true ∧ ((sClosing 0).ring 0 1).outstanding = 0 ∧ ((sClosing 1).ring 0 1).msiOwed = true ∧
    (let r := sRang.hostRead (ringBase (sRang.reg .mbRingSq 0 1) + 0 % ringEntries (sRang.reg .mbRingSq 0 1) * 64) 64 0
     sRang.field .mbRingCons 0 1 0 32 = 0 ∧ sRang.up = true ∧ sRang.ringWaits 0 1 = true ∧ sRang.ringRoom 0 1 = true ∧
      (r.2.toOption.any (fun b => decide (¬((cmdOf (.ring 0 1) b).fence = true ∧ (r.1.ring 0 1).outstanding ≠ 0)))) = true) := by decide +kernel

theorem witness_CommandBytes :
    bytesAt [0x00, 0x01] 0 2 = 0x0100 ∧ bytesAt [0x00, 0x02] 0 2 = 0x0200 ∧
    (let b := [0x02, 0x02] ++ List.replicate 14 0 ++ [2, 5]
     bytesAt b 0 2 = 0x0202 ∧ bytesAt b 16 1 = 2) ∧
    bytesAt [0x00, 0x03] 0 2 = 0x0300 ∧ bytesAt [0x01, 0x04] 0 2 = 0x0401 ∧ bytesAt [0x01, 0x05] 0 2 = 0x0501 ∧
    (let b := [0x02, 0x06] ++ List.replicate 14 0 ++ [0xFF, 1]
     bytesAt b 0 2 = 0x0602 ∧ bytesAt b 16 1 = 0xFF) ∧
    bytesAt [0x01, 0x08] 0 2 = 0x0801 ∧ (bytesAt [0, 0] 0 2 = 0x0000 ∧ sUp.accepts (cmdOf .bmc [0, 0]) = true) ∧
    sReady.flag .refBoot 0 0 18 = true ∧ sUp.flag .refBoot 0 0 18 = false := by decide +kernel

/-! Networks -/

def cnetPkt (t : CnetType) (src dest : BitVec 8) : CnetPacket :=
  { type := t, src := src, dest := dest, part := 0, tag := 3, status := 0, size := 8, addr := 0xF00020000000, payload := [] }

/-- A packet of square 32 for another square, on the lanes. -/
def bnetPkt : BnetPacket := { sendPkt with kind := .rdata, dest := 36, src := 32 }

/-- Every region is powered, with its clamps open. -/
def sOpen : State := { s0 with pins := { s0.pins with enC := List.range 16 }, power := { s0.power with clampsOpen := List.range 16 } }

/-- Square 32 holds a packet to replay east, which has failed 15 times at the other end. -/
def sNet : State :=
  (s0.modSquare 32 (fun x => { x with replay := [(laneKey 1 0, [bnetPkt])] })).modSquare 33 (fun x => { x with linkFails := [(3, bnetPkt, 15)] })

/-- Circuit 3 leaves a square by a port, in slot 0 of an output; its queue holds a packet. -/
def sCirc (q port out : Nat) : State :=
  let s := (s0.modSquare q (fun x => { x with circuitQueues := [(3, [{ bnetPkt with circ := 3 }])] })).setFlag .bnStatus q 0 8 true
  { s with latched := ((s.setReg .bnCroute q 0 (BitVec.ofNat 64 (port * 2 ^ 24))).setReg .bnSlot q (8 * out) 0xFFFFFFFFFFFFFF03).regs }

/-- 256 lines wait for the engine of square 1. -/
def sFull : State := s0.modQuad 2 (fun v => { v with outMsgs := List.replicate 256 (portMessage s0 2 sendPkt) })

theorem witness_NetworkPackets_links :
    (neighbour 32 1 = some 33 ∧ s0.maintOnly 32 = false ∧ s0.flag .bnStatus 32 0 5 = false ∧ s0.clamped 33 32 = false ∧
      s0.failsOf 32 1 bnetPkt < 15) ∧
    (neighbour 33 3 = some 32 ∧ sNet.maintOnly 33 = false ∧ sNet.flag .bnStatus 33 0 7 = false ∧ sNet.clamped 32 33 = false ∧
      sNet.failsOf 33 3 bnetPkt = 15) ∧
    (neighbour 51 1 = some 52 ∧ sOpen.maintOnly 51 = false ∧ sOpen.flag .bnStatus 51 0 5 = false ∧ sOpen.clamped 52 51 = false ∧
      sOpen.portHeld 51 bnetPkt = false ∧ sOpen.hasInput 51 1 bnetPkt = true ∧ sOpen.owner 51 ≠ sOpen.owner 52 ∧ bnetRequest bnetPkt.kind = false) ∧
    (s0.portHeld 32 bnetPkt = false ∧ s0.hasInput 32 1 bnetPkt = true ∧ s0.owner 32 = s0.owner 33) ∧
    (neighbour 1 1 = some 2 ∧ sFull.maintOnly 1 = false ∧ sFull.flag .bnStatus 1 0 5 = false ∧ sFull.clamped 2 1 = false ∧
      sFull.portHeld 1 sendPkt = true ∧ (sFull.readReg (rk .bnStatus 1)).getLsbD 9 = true) ∧
    (s0.maintOnly 36 = false ∧ s0.portHeld 36 bnetPkt = false ∧ bnetPkt.circ = 0xFF ∧ bnetPkt.dest.toNat = 36) := by decide +kernel

theorem witness_NetworkPackets_lanes :
    (sNet.nakked 32 1 0 = some bnetPkt ∧ sNet.flag .bnStatus 32 0 5 = false ∧ sNet.lane 32 1 0 = bnetPkt :: []) ∧
    ((sCirc 32 2 1).circuitQueue 32 (3 : BitVec 8).toNat = { bnetPkt with circ := 3 } :: [] ∧ (sCirc 32 2 1).circuitGoes 32 3 = true ∧
      (sCirc 32 2 1).circuitPort 32 3 = 1 + 1) ∧
    ((sCirc 1 6 4).circuitGoes 1 3 = true ∧ (sCirc 1 6 4).circuitPort 1 3 = 6 ∧ squareKind 1 = .optical 0) := by decide +kernel

theorem witness_NetworkPackets_cnet :
    (s0.maintOnly 32 = false ∧ (cnetPkt .rd 0 32).dest.toNat = 32 ∧ (cnetPkt .rd 0 32).type = .rd) ∧
    (State.reset.maintOnly 32 = true ∧ (cnetPkt .maint 0 32).type = .maint) ∧
    (neighbour 51 1 = some 52 ∧ sOpen.flag .cnStatus 51 0 2 = false ∧ sOpen.clamped 52 51 = false ∧ sOpen.owner 51 ≠ sOpen.owner 52 ∧
      (cnetPkt .rsp 51 52).src ≠ 0 ∧ (cnetPkt .rsp 51 52).dest ≠ 0 ∧ cnetRequest (cnetPkt .rsp 51 52).type = false) ∧
    (neighbour 32 1 = some 33 ∧ s0.flag .cnStatus 32 0 2 = false ∧ s0.clamped 33 32 = false ∧ s0.owner 32 = s0.owner 33) ∧
    (let s := s0.modSquare 32 (fun x => { x with cnetHeld := [cnetPkt .rd 32 0] })
     (s.square 32).cnetHeld = cnetPkt .rd 32 0 :: [] ∧ (s.cnetEnter 32 (cnetPkt .rd 32 0)).isSome = true) := by decide +kernel

/-! Memory, host dies, translation and migration -/

theorem witness_DramCommands :
    inDram (0x400 : Addr).toNat = true ∧ s0.holdsLine false ((0x400 : Addr).toNat / 1024) = false ∧
    (s0.applyFill 1).linePoisoned 1 = false ∧ (s0.applyFill 1).erasedOf (stackOf (1024 * 1)) = none ∧ (0xFF : Byte) ≠ 0 := by decide +kernel

theorem witness_DramWriteStores : inDram (0x5BC : Addr).toNat = true ∧ (List.replicate 1024 (1 : Byte)).length = 1024 := by decide +kernel

theorem witness_SramAndFills :
    s0.refetched (s0.sramAt (0x400 : Addr).toNat 20) (0x400 : Addr).toNat = false ∧ inDram (0x400 : Addr).toNat = true := by decide +kernel

/-- An address of the window of a device below a root port. -/
def pcieAddr : Addr := 0xC00000000001

theorem witness_HartAccesses :
    sHost.hartRuns 0 31 = true ∧ HartMode.u ≠ HartMode.m ∧
    (inDram (0x40 : Addr).toNat = true ∧ inDram ((0x40 : Addr).toNat + 8 - 1) = true ∧
      sHost.memoryFence (.hart 0 31 .u) (0x40 : Addr).toNat 8 = none ∧ sHost.memoryCut (.hart 0 31 .u) (0x40 : Addr).toNat 8 = false ∧
      (0x40 : Addr).toNat % 8 = 0 ∧ (31, (0x40 : Addr).toNat / 64) ∉ (sHost.hostDie 0).reservations) ∧
    (0xC00000000000 ≤ pcieAddr.toNat ∧ pcieAddr.toNat % 4 ≠ 0 ∧ hartReaches 0 pcieAddr.toNat = true) ∧
    (inDram (0x0A0000000000 : Addr).toNat = false ∧ hartReaches 0 (0x0A0000000000 : Addr).toNat = false) ∧
    sHost.blocked (.hostDma 0) = false ∧
    sHost.memoryFence (.hart 0 31 .m) ((0x40 : Addr).toNat / 64 * 64) 64 = none ∧
    ((Requester.hostDma 0).computeSide = false ∧ Requester.hostDma 0 ≠ .bmc) := by decide +kernel

/-- The page of interrupt file 1 of host die 0. -/
def fileAddr : Addr := BitVec.ofNat 48 (squareWindow (hostSquare 0) + 0x200000)

def sPort : State := sHost.modHost 0 (fun v => { v with portInReset := false, probeOpen := true })

theorem witness_HostDieCommands :
    (interruptFile fileAddr.toNat = some (0, 1, 0) ∧ sHost.hostOwner 0 = sHost.owner 32 ∧ sHost.owner 32 ≠ none ∧ sHost.hostRunning 0 = true ∧
      sHost.hostFenced 0 = false ∧ sHost.coresRun = true ∧ sPort.coresRun = true ∧ (255 : BitVec 32) ≠ 0 ∧ (255 : BitVec 32).toNat ≤ 255) ∧
    (sHost.up = true ∧ 8 ≤ (34 : BitVec 6).toNat ∧ (34 : BitVec 6).toNat ≤ sHost.hostClockTop 0) ∧
    ((sPort.hostDie 0).portInReset = false ∧ (sPort.hostDie 0).probeOpen = true ∧ (sPort.hostDie 0).probeMisses < 2) ∧
    ((sPort.modHost 0 (fun v => { v with probeMisses := 2 })).hostDie 0).probeMisses = 2 ∧
    (0 < (subPorts (sPort.field .hdPcieCfg 0 0 0 2)).1 ∧ (4 : BitVec 4).toNat ≤ (subPorts (sPort.field .hdPcieCfg 0 0 0 2)).2 ∧ (5 : BitVec 3) ≠ 7) := by
  decide +kernel

def handle3 : Handle := mkHandle 1 3

/-- Page 0 of the stream in row 3 lies at 0x50000, with a leaf of these bits. -/
def sLeaf (tier : Nat) (cow moving : Bool) : State :=
  let s := sStream.setRow 3 { handle := handle3, part := 0, state := stOpen, root := 0x10000 }
  (s.placeLeaf 0x10000 0 (mkEntry (if tier = 2 then 0x800000050000 else 0x50000) tier cow false moving) [0x20000, 0x30000]).1

/-- Site 6 holds a stopped LOAD of that page, in channel 0. -/
def stop0 (code : BitVec 4) : Stopped :=
  { move := .load hdr 0 0, row := 0, code := code, handle := handle3, line := 0, skips := [], kept := [] }

def sStop (code : BitVec 4) (tier : Nat) (moving : Bool) : State := (sLeaf tier false moving).modDie 6 (fun d => { d with stopped := [(0, stop0 code)] })

theorem witness_TranslationCommands :
    (sStop 5 0 true).siteOwner 6 = some 0 ∧ (sStop 5 0 true).up = true ∧
    (Sparse.nfind ((sStop (BitVec.ofNat 4 faultMoving) 0 true).die 6).stopped 0 = some (stop0 (BitVec.ofNat 4 faultMoving)) ∧
      ((sStop (BitVec.ofNat 4 faultMoving) 0 true).resolveFault 0 6 (stop0 (BitVec.ofNat 4 faultMoving))).isSome = true) ∧
    ((stop0 (BitVec.ofNat 4 faultMoving)).code.toNat ≠ faultHeader ∧ (stop0 (BitVec.ofNat 4 faultMoving)).code.toNat ≠ faultNotPresent) ∧
    (Sparse.nfind ((sStop (BitVec.ofNat 4 faultNotPresent) 0 true).die 6).stopped 0 = some (stop0 (BitVec.ofNat 4 faultNotPresent)) ∧
      (stop0 (BitVec.ofNat 4 faultNotPresent)).code.toNat = faultNotPresent ∧ (sStop (BitVec.ofNat 4 faultNotPresent) 0 true).up = true) ∧ ((sLeaf 0 true false).die 6).stopped = [] ∧
    ((sLeaf 0 true false).leafAt 0 handle3 0).any (fun e => leafCow e && decide (leafTier e ≠ 2) &&
      decide ((sLeaf 0 true false).sharersOf 0 (pageOf (entryAddr e)) ≤ 1)) = true ∧
    (((sLeaf 0 true false).setSharers 0 5 2).leafAt 0 handle3 0).any (fun e => leafCow e && decide (leafTier e ≠ 2) &&
      decide (1 < ((sLeaf 0 true false).setSharers 0 5 2).sharersOf 0 (pageOf (entryAddr e)))) = true ∧
    ((sLeaf 2 false false).leafAt 0 handle3 0).any (fun e => decide (leafTier e = 2)) = true := by decide +kernel

def tier0 : TierMove := { cmd := cRing, handle := handle3, page := 0, tier := 0, copied := false, newPage := 0 }

theorem witness_TranslationCommands_tier :
    (let s := (sLeaf 1 false true).modPart 0 (fun v => { v with tierMoves := [tier0] })
     (s.part 0).tierMoves.find? (fun t => decide (t.handle = handle3 ∧ t.page = (0 : BitVec 21).toNat)) = some tier0 ∧
      (s.leafAt 0 handle3 (0 : BitVec 21).toNat).any leafMoving = true ∧ tier0.copied = false ∧ tier0.tier.toNat < 2 ∧
      s.pageFits 0 (0x70000 : Addr).toNat tier0.tier.toNat = true) := by decide +kernel

theorem witness_StateCommands :
    sStream.taken cRing rowInvalidate false ∧ sStream.taken cRing rowQuery false ∧
    ((sStream.enterCommand cRing rowInvalidate).resolve 0 (sStream.cmdTenant cRing) handle3).toOption = some (.row 3) ∧
    ((sLeaf 0 false false).enterCommand cRing rowQuery).resolve 0 ((sLeaf 0 false false).cmdTenant cRing) handle3 = .ok (.row 3) ∧
    (((sLeaf 0 false false).enterCommand cRing rowQuery).leafOf
      (((sLeaf 0 false false).enterCommand cRing rowQuery).entryAt 0 (.row 3)).root.toNat 0).isSome = true := by decide +kernel
/-! Migration and optical ports -/

/-- The device is module 9; quad n of partition 0 has a role and a state, and its partner is module 5. -/
def sQuadOf (n role state : Nat) : State :=
  (({ sRing with flash := { sRing.flash with moduleId := 9 } } : State).setReg .olModuleId 0 0 9).setReg .olQstatus n 0
    (BitVec.ofNat 64 (5 * 2 ^ 51 + role * 2 ^ 16 + state * 2 ^ 12))

def sQuad : State := sQuadOf 0 roleFabric quadUp

def link (op : BitVec 8) (payload : List Byte) : LinkMsg :=
  { op := op, status := 0, dst := 9, src := 5, srcPart := 1, dstPart := 0, xid := 7, seq := 0, lines := 0, epoch := 0, turn := 0, rctr := 0,
    addr := 0x60000, payload := payload }

def migr0 : Migration :=
  { cmd := cRing, handle := handle3, slot := 3, module := 5, part := 0, xid := 7, staging := 0, newHandle := 0 }

/-- The stream in row 3 leaves for module 5; another arrives, at staging address 0x60000. -/
def sMigr : State :=
  (sQuad.setRow 3 { handle := handle3, part := 0, state := stOpen }).modPart 0 (fun v => { v with
    migrations := [migr0], arrivals := [{ quad := some 0, xid := 7, source := 1, handle := handle3, module := 5, entry := {}, slot := 4, newHandle := 5, bytes := 2048,
                                          staging := 0x60000, lines := [(7, 1)], copied := false }] })

def mgmt (u : List Byte) : LinkMsg := link 0x09 (List.replicate 16 0 ++ u)

/-- A MIGRATE_REQ for a stream with no pages. -/
def reqMsg (dest : Byte) : LinkMsg := mgmt ([0, 0, 0, 0, dest, 0, 0, 0] ++ List.replicate 8 0 ++ List.replicate 64 0)

theorem witness_MigrationSteps :
    (sMigr.up = true ∧
      (sMigr.part 0).migrations.find? (fun x => decide (x.handle = 99 ∧ x.part.toNat = 0 ∧ x.module.setWidth 13 = sMigr.moduleId)) = none) ∧
    (let s := sMigr.setReg .olModuleId 0 0 5
     (s.part 0).migrations.find? (fun x => decide (x.handle = handle3 ∧ x.part.toNat = 0 ∧ x.module.setWidth 13 = s.moduleId)) = some migr0 ∧
      (s.part 0).arrivals.any (fun a => decide (a.quad = none ∧ a.source = 0 ∧ a.handle = handle3)) = false) ∧
    (Status.ofCode (BitVec.ofNat 8 Status.busy.code).toNat = some .busy ∧ (∃ st ∈ migrationFailures, Status.ofCode st.code = some st)) ∧
    (sMigr.servedPart 0 = some 0 ∧
      ((sMigr.part 0).arrivals.find? (fun x => decide (x.quad = some 0 ∧ x.staging ≤ 0x60000 ∧ 0x60000 < x.staging + x.bytes))).any
        (fun x => decide (((link 0x07 []).xid, (link 0x07 []).seq) ∉ x.lines) && decide (((link 0x07 []).xid, (1 : BitVec 16)) ∈ x.lines)) = true ∧
      (link 0x07 []).addr.toNat = 0x60000) ∧
    (sMigr.migrationOf 0 (mgmt [0]) = some migr0 ∧ (mgmt [0]).status = 0 ∧ bytesAt ((mgmt [0]).payload.drop 16) 0 1 = 0) ∧
    (Status.ofCode ({ mgmt [0] with status := BitVec.ofNat 8 Status.busy.code } : LinkMsg).status.toNat = some .busy ∧
      sMigr.migrationOf 0 { mgmt [0] with status := BitVec.ofNat 8 Status.busy.code } = some migr0) ∧
    Status.ofCode (bytesAt ((mgmt [BitVec.ofNat 8 Status.busy.code]).payload.drop 16) 0 1) = some .busy ∧
    sMigr.formed (bytesAt ((reqMsg 5).payload.drop 16) 4 1) = false ∧
    (bytesAt ((reqMsg 0).payload.drop 16) 4 1 = 0 ∧ sMigr.formed 0 = true ∧ sMigr.partFenced 0 = false) := by decide +kernel

/-- Row 3 of four blocks is taken and the others are free: there is a row, whichever Tolerabor picks. -/
theorem freeRow_isSome (s : State) (p : Nat)
    (h : ((s.ownBlocks p).findSome? (fun b => (rangeFrom (4096 * b) 4096).find? (fun k => s.rowFree p k))).isSome = true) :
    (s.freeRow p).isSome = true := by
  simp only [State.freeRow]
  split
  · rfl
  · exact h

/-- The stream in row 3 moves within module 5, whose partition 0 owns no row. -/
def sFullUp : State := (sUp.setReg .olModuleId 0 0 5).modPart 0 (fun v => { v with migrations := [migr0] })

theorem witness_MigrationSteps_full (e : StreamEntry) (a : Arrival) :
    sFullUp.up = true ∧ (sFullUp.part 0).migrations.find? (fun x => decide (x.handle = handle3 ∧ x.part.toNat = 0 ∧ x.module.setWidth 13 = sFullUp.moduleId)) =
      some migr0 ∧ (sFullUp.part 0).arrivals = [] ∧ ∃ w, sFullUp.admitArrival 0 e a = (w, none) := by
  have h : ∀ k, sFullUp.reg .stBlock 0 k = 0 := fun k => by simp [sFullUp, sUp, State.setFlag]; rfl
  have f : sFullUp.freeRow 0 = none := by simp [State.freeRow, State.rowFree, State.ownsSlot, State.ownBlocks, bitAt, h]
  have w : sFullUp.victim 0 = none := by decide +kernel
  exact ⟨by decide +kernel, by decide +kernel, by decide +kernel, by simp [State.admitArrival, State.admitStream, f, w]⟩

/-- Rows and a stream of partition 0. -/
def sRoom : State := (sMigr.setReg .stRows 0 0 16384).setReg .stBlock 0 0 0xF

theorem witness_MigrationSteps_admit (e : StreamEntry) (a : Arrival) : ∃ w h, (sRoom.takePage 0).1.admitArrival 0 e a = (w, some h) := by
  obtain ⟨k, hk⟩ := Option.isSome_iff_exists.mp (freeRow_isSome (sRoom.takePage 0).1 0 (by decide +kernel))
  simp [State.admitArrival, State.admitStream, hk]

/-- A sum and the next one differ: a packet or a flit whose CRC is one off. -/
theorem next_differs (x : BitVec 32) : x + 1 ≠ x := by bv_omega

theorem sealed_good (f : Flit) : flitGood (sealFlit f) = true := by simp [flitGood, sealFlit, flitBytes]

theorem bumped_bad (f : Flit) : flitGood { sealFlit f with crc := (sealFlit f).crc + 1 } = false := by
  simpa [flitGood, sealFlit, flitBytes] using next_differs _

def flit0 : Flit :=
  sealFlit { type := .data, vl := 0, first := 0, seq := 0, ack := 0xFFFF, cvl := 0, credits := 0, srcId := 5, crc := 0, payload := List.replicate 240 0 }

theorem witness_failed_check : bnetPkt.check + 1 ≠ bnetPkt.check := next_differs _

theorem witness_Flits_crc :
    flitGood { flit0 with crc := flit0.crc + 1 } = false ∧ flitGood flit0 = true ∧ flitGood (sealFlit { flit0 with seq := 3 }) = true :=
  ⟨bumped_bad _, sealed_good _, sealed_good _⟩

theorem witness_Flits :
    sQuad.quadIsUp 0 = true ∧ (sQuad.quad 0).retrySent = false ∧
    sQuad.fencedQuad 0 flit0 = false ∧ flit0.seq = (sQuad.quad 0).expected ∧ (sealFlit { flit0 with seq := 3 }).seq ≠ (sQuad.quad 0).expected ∧
    (let s := sQuad.modQuad 0 (fun v => { v with replay := [flit0] })
     (s.quad 0).replay ≠ [] ∧ (s.quad 0).failedReplays < 16 ∧ afterAck 0xFFFF (s.quad 0).replay ≠ []) := by decide +kernel

def sLocked (hellos : Nat) : State := (sQuadOf 0 roleFabric quadTraining).modQuad 0 (fun v => { v with locked := true, hellos := hellos })

def hello0 : Flit := sealFlit { flit0 with type := .hello, payload := 1 :: List.replicate 239 0 }

/-- A knock, and one whose sender says that it falls silent. -/
def knock1 : Flit := sealFlit { flit0 with payload := [0, 0, 0, 0, 2] }

theorem witness_hello_and_knock_crc : flitGood hello0 = true ∧ flitGood knock1 = true := ⟨sealed_good _, sealed_good _⟩

theorem witness_QuadStates :
    (sQuadOf 223 roleFabric quadUp).quadIsUp 223 = true ∧ (sQuadOf 223 roleFabric quadTraining).quadState 223 = quadTraining ∧
    ((sLocked 0).quadState 0 = quadTraining ∧ ((sLocked 0).quad 0).locked = true ∧ ((sLocked 0).quad 0).hellos < 2 ∧ bytesAt hello0.payload 0 1 = 1 ∧ (((sLocked 0).takeHello 0 hello0 5).quad 0).hellos < 2 ∧ 2 ≤ (((sLocked 1).takeHello 0 hello0 5).quad 0).hellos ∧
      ((sLocked 1).takeHello 0 hello0 5).partnerFits 0 = true) ∧
    (sLocked 0).field .olQstatus 0 0 32 2 < 2 ∧ 2 ≤ ((sLocked 0).setField .olQstatus 0 0 32 2 2).field .olQstatus 0 0 32 2 ∧
    ((sLocked 0).setField .olQstatus 0 0 32 2 2).quadState 0 = quadTraining ∧
    ((sQuadOf 0 roleFabric quadVacant).quadState 0 = quadVacant ∧ (sQuadOf 0 roleFabric quadVacant).mayTrain 0 = true) := by decide +kernel

/-- Module 5 has an exchange in progress; quad 0 has an open knock window. -/
def sKnock (role misses : Nat) : State :=
  { (sQuadOf 0 role quadUp).modQuad 0 (fun v => { v with windowOpen := true, misses := misses }) with exchanges := [(5, 0)] }

theorem witness_Knocks :
    ((sKnock 1 0).quadIsUp 0 = true ∧ bitAt (flit0.payload.getD 4 0) 1 = false ∧
      bitAt (knock1.payload.getD 4 0) 1 = true ∧ (sKnock 1 0).quadRole 0 = roleDirect) ∧
    (((sKnock 1 1).quad 0).windowOpen = true ∧ ((sKnock 1 1).quad 0).misses < 2) ∧
    ((sKnock 0 2).quadIsUp 0 = true ∧ ((sKnock 0 2).quad 0).misses = 2 ∧ (sKnock 0 2).quadRole 0 ≠ roleDirect ∧
      (sKnock 0 2).flag .olQstatus 0 0 2 = false) ∧
    ((sKnock 0 0).up = true ∧ (sKnock 0 0).exchangeOpen 5 = true ∧
      (sKnock 0 0).formedParts.findSome? (fun p => ((sKnock 0 0).quadTo p 5).map (fun q => (p, q))) = some (0, 0)) ∧
    Sparse.nget 0 (sKnock 0 0).e2eMisses 5 < 2 ∧ 2 ≤ Sparse.nget 0 ({ sKnock 0 0 with e2eMisses := [(5, 2)] } : State).e2eMisses 5 := by decide +kernel

/-- The parent is quad 0. -/
def sSync : State := sQuad.setField .olSyncStatus 0 0 24 8 0

theorem witness_ClockSync :
    (sSync.field .olSyncStatus 0 0 24 8 = 0 ∧ sSync.quadIsUp 0 = true ∧ 0 ∈ sQuad.syncQuads) ∧
    7 ≤ ({ sQuad with clock := { sQuad.clock with goodOffsets := 7 } } : State).clock.goodOffsets ∧ sQuad.clock.goodOffsets < 7 := by decide +kernel

def line0 (retried : Bool) : PoolLine :=
  { part := 0, xid := 7, seq := 0, addr := 0x800000000000, isWrite := false, retried := retried, data := [], handle := handle3, page := 0 }

/-- Pool window 0 serves partition 0 through quad 0, and a line of it waits. -/
def sPool (retried : Bool) : State :=
  let s := ((sQuadOf 0 rolePool quadUp).setReg .olPoolMap 0 0 0x8000000500000000).setReg .olPoolQuads 0 0 0xFFFFFFFFFFFFFF00
  { s with poolLines := [line0 retried] }

theorem witness_PoolMessages :
    (sPool false).servedPart 0 = some 0 ∧
    (sPool false).poolLines.find? (fun l => decide (l.xid = 7 ∧ l.seq = 0 ∧ (l.isWrite = true ∨ l.data = []))) = some (line0 false) ∧
    (sPool true).poolLines.find? (fun l => decide (l.xid = 7 ∧ l.seq = 0 ∧ (l.isWrite = true ∨ l.data = []))) = some (line0 true) ∧
    (line0 false).retried = false ∧ (sPool false).poolQuad (line0 false).part (line0 false).addr true ≠ none ∧ (line0 true).retried = true := by decide +kernel

theorem witness_ModuleMessages :
    (sQuad.servedPart 0 = some 0 ∧ dieAt ({ link 0x05 [] with addr := 0x090030000000 } : LinkMsg).addr.toNat = some 6 ∧
      dieAt (link 0x05 []).addr.toNat = none) ∧
    (let s := sQuad.modDie 6 (fun d => { d with flights := [{ flight0 with sendXid := some 7 }] })
     (s.partSites 0).find? (fun i => (s.die i).flights.any (fun f => decide (f.sendXid = some (link 0x06 []).xid))) = some 6 ∧ 6 ∈ s.partSites 0) ∧
    ((link 0x0B [0x05]).payload.headD 0 = 0x05 ∧ Status.ofCode ({ link 0x0B [0x05] with status := BitVec.ofNat 8 Status.busy.code } : LinkMsg).status.toNat =
      some .busy) ∧
    sMigr.migrationOf 0 (link 0x0B [0x09]) = some migr0 ∧
    (bitAt ((link 0x0A []).payload.getD 4 0) 1 = false ∧ bitAt ((link 0x0A [0, 0, 0, 0, 2]).payload.getD 4 0) 1 = true) ∧
    ((sQuad.setFlag .ptRegions 0 0 16 true).servedPart 0 = some 0 ∧ (sQuad.setFlag .ptRegions 0 0 16 true).flag .ptRegions 0 0 16 = true ∧
      sQuad.quadRole 0 = roleFabric ∧ State.reset.servedPart 0 = none) := by decide +kernel

def spanBook : Book := { book0 with span := true, crc := 77, modules := 3 }
def loading0 : Loading := { cmd := cRing, book := spanBook, image := 0, installed := false, heard := [], firstFail := none, reload := false }

/-- Partition 0 waits for the other members of a spanning book. -/
def sSpan : State := sQuad.modPart 0 (fun v => { v with loading := some loading0 })

/-- Partition 0 plays a spanning book with module 5. -/
def sMember (ph : Nat) : State :=
  (sQuad.modPart 0 (fun v => { v with book := some spanBook, members := [(5, 0)], stage := .play })).setPhase 0 ph

def confirm (crc : Nat) : LinkMsg := mgmt (leBytes 8 crc ++ [3])

theorem witness_SpanMessages :
    (sSpan.servedPart 0 = some 0 ∧ (sSpan.part 0).loading = some loading0 ∧ loading0.book.span = true ∧ loading0.installed = false ∧
      bytesAt ((confirm 77).payload.drop 16) 0 8 = loading0.book.crc.toNat ∧ bytesAt ((confirm 77).payload.drop 16) 8 1 = loading0.book.modules ∧
      (confirm 77).src.toNat ∉ loading0.heard ∧ loading0.heard.length + 1 < loading0.book.modules) ∧
    (let s := sSpan.modPart 0 (fun v => { v with members := [(5, 0)] })
     (s.part 0).loading = some loading0 ∧ (s.part 0).members.any (fun x => decide (x.1 = (confirm 77).src.toNat)) = true) ∧
    (sSpan.part 0).members.any (fun x => decide (x.1 = (confirm 77).src.toNat)) = false ∧
    bytesAt ((confirm 78).payload.drop 16) 0 8 ≠ loading0.book.crc.toNat ∧
    ((sMember 1).servedPart 0 = some 0 ∧ ((sMember 1).part 0).members.any (fun x => decide (x.1 = (confirm 1).src.toNat)) = true ∧
      (sMember 1).bookLoaded 0 = true ∧ ((sMember 1).part 0).stage = .play ∧ (sMember 1).phase 0 = 1 ∧
      bytesAt ((mgmt [0]).payload.drop 16) 0 1 = 0 ∧ bytesAt ((mgmt [1]).payload.drop 16) 0 1 ≠ 0 ∧ (sMember 1).phase 0 ≠ 5) := by decide +kernel
/-! Power, start-up, the recorder, failures, debug, and the rules word for word -/

theorem witness_SequencerFrame : (4 : Nat) ≠ 3 ∧ (7 : Nat) ≠ 0xFF ∧ ¬((RegName.sqCtr = .sqNext ∨ RegName.sqCtr = .sqMoves) ∧ (4 : Nat) = 3 ∧ (0 : Nat) = 0) := by decide

theorem witness_VoltageLoop :
    (800 : Nat) ≤ 1200 ∧ (3 : Nat) ≤ 3 ∧ 1200 + 40 ≤ 1800 ∧ 1100 ≤ 1200 ∧ 1800 < 1790 + 40 ∧ (4 ≤ 11 ∧ 11 ≤ 11) ∧ (12 ≤ 20 ∧ 20 ≤ 20) ∧
    (21 ≤ 21 ∧ 800 + 5 ≤ 1200 ∧ 1105 ≤ 1105) ∧ ((12 : Nat) ≤ 12 ∧ (1100 : Nat) < 1101 ∧ (1101 : Nat) ≤ 1800) ∧ ((1200 : Nat) ≤ 1202 ∧ 1202 < 1200 + 5 ∧ 1100 ≤ 1200) ∧
    (1200 ≤ 1200 + 40 ∧ 2060 + 40 ≤ 2100 ∧ 1200 ≤ 2105 ∧ hostRegion 0 = 4 ∧ hostRegion 0 ≠ 5) := by decide

def sRails : State := { sReady with pins := { sReady.pins with enA := [0], enC := [0] } }

/-- The cooling of the module has an inlet sensor. -/
def sInlet : State := { sReady with flash := { sReady.flash with cooling := [(0x0116, 0x40)] } }

theorem witness_SupplyAndTemperature :
    0 ∈ sRails.pins.enA ∧ 0 ∈ sRails.pins.enC ∧ sReady.up = true ∧ (1840 : BitVec 16).toInt = 1840 ∧ 1520 ≤ reading (1520 : BitVec 16).toNat ∧
    (1839 : BitVec 16).toInt < 1840 ∧ sReady.referee.startup = none ∧ sInlet.up = true ∧ sInlet.cooling 0x0116 % 256 ≠ 0 := by decide +kernel

def image0 : ImageInfo := { version := 1, svn := 0, keyGood := true, signatureGood := true, digestGood := true }

/-- An image in slot A, as the device leaves the factory. -/
def sOff : State := { State.reset with flash := { State.reset.flash with slotA := { image := some image0 } } }

def start0 : ColdStartInputs :=
  { sramGood := true, vaRise := true, straps := 0, v0 := 12000, v1 := 11990, mainRailsGood := true, deadRegions := [], clkRefGood := true,
    findings := noFinds, dramFailures := [], hellos := [], recordsLost := 0, vstep := [] }

theorem witness_ColdStartReachesReady :
    start0.sramGood = true ∧ sOff.flash.boots sOff.flash.preferB = true ∧
    holdupGood ([1, 2, 4, 8].getD (start0.straps.toNat % 4) 1) start0.v0.toNat start0.v1.toNat = true ∧ start0.mainRailsGood = true ∧
    start0.findings.fieldCrossing = false ∧ start0.flashGood = true ∧
    start0.temps.all (fun x => decide (x.2.1.toInt ≤ 1440 ∧ x.2.2.toInt ≤ 1440)) = true ∧ sOff.pins.pwrFailN = true ∧
    (let s : State := { sOff with pins := { sOff.pins with pwrFailN := false } }
     s.pins.pwrFailN = false ∧ s.pins.resetN = true) := by decide +kernel

/-- Start-up waits at step 4 for a sensor that is too hot, and its next sample comes. -/
theorem witness_SupplyAndTemperature_startup :
    (let s := ({ sOff with referee := { sOff.referee with startup := some start0 } } : State).setField .refBoot 0 0 0 4 4
     s.referee.startup = some start0 ∧ s.field .refBoot 0 0 0 4 = 4) := by decide +kernel

theorem witness_StopsAndResets :
    ({ start0 with sramGood := false } : ColdStartInputs).sramGood = false ∧ State.reset.flash.boots true = false ∧
    State.reset.flash.boots false = false ∧ holdupGood ([1, 2, 4, 8].getD (start0.straps.toNat % 4) 1) 12000 6500 = false ∧
    bitAt start0.straps 2 = false ∧
    (let s : State := { sOff with referee := { sOff.referee with startup := some start0 } }
     (s.setField .refBoot 0 0 0 4 3).referee.startup = some start0 ∧ (s.setField .refBoot 0 0 0 4 3).field .refBoot 0 0 0 4 = 3 ∧
      (s.setField .refBoot 0 0 0 4 2).field .refBoot 0 0 0 4 = 2) ∧
    sOff.pins.pwrFailN = true ∧ sOff.pins.resetN = true ∧
    (let i : ColdStartInputs := { start0 with flashGood := false }
     i.sramGood = true ∧ i.flashGood = false) ∧
    (start0.sramGood = true ∧ start0.flashGood = true ∧ sOff.flash.boots sOff.flash.preferB = true ∧
      holdupGood ([1, 2, 4, 8].getD (start0.straps.toNat % 4) 1) start0.v0.toNat start0.v1.toNat = true ∧
      ({ start0 with mainRailsGood := false } : ColdStartInputs).mainRailsGood = false ∧ start0.mainRailsGood = true ∧
      ({ start0 with temps := [(52, 1441, 0)] } : ColdStartInputs).temps = [(52, 1441, 0)] ∧ (1440 : Int) < (1441 : BitVec 16).toInt) ∧
    (let s : State := { sOff with pins := { sOff.pins with pwrFailN := false, resetN := false } }
     s.pins.pwrFailN = false ∧ s.pins.resetN = false) := by decide +kernel

def sMaint : State := sBook.modPart 0 (fun v => { v with maintTurn := true, stage := .play })

theorem witness_RetrainAndTest :
    (sReady.up = true ∧ sReady.stackOwner 47 = none ∧ sReady.stackQuiet 47 = true) ∧
    (sBook.stackOwner 0 = some 0 ∧ sBook.bookLoaded 0 = true ∧ (sBook.part 0).maintTurn = false) ∧
    (sReady.setFlag .mcTrainStatus 47 0 35 true).flag .mcTrainStatus 47 0 35 = true ∧
    ((sMaint.part 0).maintTurn = true ∧ (sMaint.part 0).stage = .play) ∧
    (sRing.up = true ∧ (6 : Nat) < 104 ∧ sRing.siteOwner 6 = some 0 ∧ sRing.bookLoaded 0 = false ∧ (sRing.setReg .refSamLo 0 0 0xC0).siteEnabled 6 = true ∧
      (sRing.die 6).fenced = false ∧ 6 ∈ ({ noFinds with dies := [6] } : TestFindings).dies ∧ 6 ∉ noFinds.dies ∧
      ((sRing.modDie 6 (fun d => { d with fenced := true })).die 6).fenced = true) ∧
    (sReady.siteState 0 = .reserve ∧ Sparse.nfind ((sReady.resetDie 0).selfTest 0 []).flash.sitesNext 0 ≠ some .retired) := by decide +kernel

def report0 : Report := { code := 0x1702, sev := .warning, part := 0, source := 1, tick := 5, payload := [] }

def winds (count suppressed : Nat) : State :=
  sReady.modRecorder (fun x => { x with windows := [{ code := 0x1702, part := 0, count := count, suppressed := suppressed, highest := .debug,
                                                      firstTick := 1, lastTick := 1 }] })

theorem witness_ReportsAndFlushes :
    State.reset.up = false ∧ State.reset.recording = false ∧ report0.source ≠ 0 ∧ ({ report0 with source := 0 } : Report).source = 0 ∧ State.reset.recorder.intake.length < 512 ∧
    512 ≤ (State.reset.modRecorder (fun x => { x with intake := List.replicate 512 report0 })).recorder.intake.length ∧
    sReady.flag .evStatus 0 0 1 = false ∧ sReady.recorder.flushing = false ∧
    (let s := sReady.modRecorder (fun x => { x with flushing := true })
     s.recorder.flushing = true ∧ s.recorder.flushRetry = false ∧ (s.modRecorder (fun x => { x with flushRetry := true })).recorder.flushRetry = true) ∧
    ((sReady.setFlag .evStatus 0 0 5 true).up = true ∧ (sReady.setFlag .evStatus 0 0 5 true).flag .evStatus 0 0 5 = true ∧
      (sReady.setFlag .evStatus 0 0 5 true).flag .evStatus 0 0 1 = false) ∧ sReady.recorder.intakeLostSecond = 0 := by decide +kernel

theorem witness_RateWindows :
    (report0.sev ≠ .safety ∧ report0.code ≠ 0x0080) ∧ sReady.recorder.windows = [] ∧
    ((winds 16 0).recorder.windows.find? (fun w => w.code = report0.code ∧ w.part = report0.part)).any
      (fun w => decide (16 ≤ w.count ∧ w.suppressed = 0)) = true ∧ (winds 16 3).rateLimit 0x1702 = some 16 ∧
    ((winds 15 0).recorder.windows.find? (fun w => w.code = report0.code ∧ w.part = report0.part)).any (fun w => decide (w.count < 16)) = true := by
  decide +kernel

theorem witness_FailuresAndMonitors :
    sReady.coresRun = true ∧ (sReady.setFlag .refStatus 0 0 2 true).coresRun = false ∧
    (let s := sOff.setFlag .refStatus 0 0 2 true
     s.flag .refStatus 0 0 2 = true ∧ s.flash.boots s.referee.runningB = true) ∧
    (let s := State.reset.setFlag .refStatus 0 0 2 true
     s.flag .refStatus 0 0 2 = true ∧ s.flash.boots s.referee.runningB = false) ∧ sReady.siteOwner 50 = none ∧
    (s0.siteOwner 6 = some 0 ∧ s0.formed 0 = true ∧ s0.partFenced 0 = false) ∧
    (regAtAddr ((BitVec.ofNat 48 (rk .mcErase 3).addr : Addr)).toNat = some (rk .mcErase 3) ∧ RegName.mcErase.info.shadowed = true) ∧
    (regAtAddr ((BitVec.ofNat 48 (rk .gcFix 3).addr : Addr)).toNat = some (rk .gcFix 3) ∧ RegName.gcFix.info.shadowed = false) := by decide +kernel

def sRook : State := sDebug.modDie 6 (fun d => { d with inReset := false })

def sTap : State := { s0 with jtag := { s0.jtag with instr := .dbUnlock, challenge := [1, 2, 3] } }

theorem witness_DebugAccess_events :
    ((sRook.die 6).halted = false ∧ (sRook.die 6).inReset = false ∧ (sRook.die 6).rookReady = false) ∧ s0.dmOpen 6 = false ∧
    sRook.dmOpen 6 = true ∧ sDebug.sessionOpen 0 = true ∧ s0.tapUnlocked = false ∧ (sTap.jtag.instr = .dbUnlock ∧ sTap.jtag.challenge ≠ []) ∧
    (sPlay.up = true ∧ sPlay.formed 0 = true ∧ sPlay.inPlay 0 = true ∧ sPlay.bookLoaded 0 = true) := by decide +kernel

theorem witness_ElementCases : (Number.fin true 0 0).isNan = false ∧ (Number.fin true 0 0).isZero = true ∧ (Number.fin true 1 0).isZero = false := by
  decide

theorem witness_BootRegisterWrites : (rk .xlFieldLat 5).name.info.cls = .boot ∧ sReady.ready = true := by decide +kernel

theorem witness_TurnLatchedRegisters :
    (let n := RegName.bnCroute
     n.info.cls = .turn ∧ n ∉ ownWrites ∧ (n.info.refereeOnly = false ∨ Requester.referee = .referee) ∧ n.info.readOnly = 0 ∧ n.info.writeOneClear = 0 ∧ n.info.clearOnZero = false ∧
      (1 : Word) &&& ~~~n.info.defined = 0 ∧ (2 : Word) &&& ~~~n.info.defined = 0 ∧ valueAllowed (rk n 32) (laneMask 0 8) 1 = true ∧ valueAllowed (rk n 32) (laneMask 0 8) 2 = true ∧
      n.info.defined ≠ 0) ∧
    s0.regOwner (rk .bnCroute 32) ≠ none ∧ s0.regOwner (rk .bnCroute 52) = none := by decide +kernel

def wait0 : CheckWait := { index := 3, start := 5, cdone := 2, ctr := 4, count := 1, grace := 10, deadline := 15, since := 0 }

def sCheck : State := sPlay.modDie 6 (fun d => { d with check := some wait0 })

theorem witness_CheckAndLateData :
    (sPlay.issues hdr 0 ∧ (0 : BitVec 24).toNat ≤ sPlay.ctr hdr.site (4 : BitVec 8).toNat ∧ sPlay.ctr hdr.site (4 : BitVec 8).toNat < (1 : BitVec 24).toNat) ∧
    (sCheck.die 6).check = some wait0 ∧ wait0.count.toNat ≤ (sCheck.setField .sqCtr 6 4 0 32 1).ctr 6 wait0.ctr.toNat ∧ sCheck.ctr 6 wait0.ctr.toNat < wait0.count.toNat ∧
    (sCheck.siteOwner 6 = some 0 ∧ sCheck.inPlay 0 = true ∧ sCheck.flag .sqStatus 6 0 18 = false ∧ sCheck.anyHalted 0 = false ∧
      wait0.deadline.toNat ≤ (15 : Word).toNat ∧ (sCheck.part 0).aborted = false) ∧ (14 : Word).toNat < wait0.deadline.toNat := by decide +kernel

/-- Site 6 has passed its moves and signals done; a member of a spanning book has reported its own. -/
def sPassed : State := sPlay.setField .sqNext 6 0 0 18 10

theorem witness_DoneAtPlannedBoundary :
    (sPassed.siteOwner 6 = some 0 ∧ sPassed.inPlay 0 = true ∧ (sPassed.die 6).playing = true ∧ sPassed.dieIssues 0 6 = true ∧
      sPassed.flag .sqStatus 6 0 16 = false ∧ (sPassed.die 6).halted = false ∧ sPassed.field .sqNext 6 0 0 18 = (sPassed.die 6).tableLen ∧
      (sPassed.die 6).flights = [] ∧ (sPassed.die 6).check = none) ∧
    sPlay.field .sqNext 6 0 0 18 ≠ (sPlay.die 6).tableLen ∧
    (let s := (noTable (sAt .play 1)).modPart 0 (fun v => { v with members := [(5, 0)], doneStamps := [(5, 9)] })
     (s.part 0).stage = .play ∧ s.phase 0 = 1 ∧ s.allDone 0 = true ∧ s.anyHalted 0 = false ∧ (s.part 0).pastEnd = false ∧ s.membersDone 0 = true) := by
  decide +kernel
/-! Results that the spec's examples state -/

/-- The example beneath Table 1.3: MC_HOME of site 35. -/
theorem test_home_stacks : mcHome 35 = 0x1211 ∧ siteSquare 35 = sqAt 6 5 := by decide +kernel

/-- The examples of chapters 2 and 8: the home slice of 0x0110_0040_0000 is (4,4), three hops from site 35. -/
theorem test_home_slice : homeSlice 0x011000400000 = sqAt 4 4 ∧ route (sqAt 6 5) (sqAt 4 4) = [sqAt 6 5, sqAt 5 5, sqAt 4 5, sqAt 4 4] := by
  decide +kernel

/-- The example of chapter 11: the walk of record line 0x4B1C7, and the set of its leaf. -/
theorem test_walk_indices :
    levelIndex 0x4B1C7 1 = 0 ∧ levelIndex 0x4B1C7 2 = 0x25 ∧ levelIndex 0x4B1C7 3 = 0x47 ∧ leafSet 0x0B130A04 (0x4B1C7 / 64) = 0x0C3 := by decide +kernel

/-- The example of chapter 7: block 18, code bits and outlier entry of channel 77 at position 9. -/
theorem test_sb3_places : sb3Block 1229 = 18 ∧ sb3Block 1157 = 18 ∧ slotOf 0x05C23A17 = 0x23A17 := by decide +kernel

/-- Table 16.5's cold start: V0 12.00 V, V1 11.92 V and a load of 4 give REF_HOLDUP. -/
theorem test_holdup : ((sUp.setField .refStraps 0 0 0 2 2).recordHoldup 12000 11920).reg .refHoldup = 0x00000A5C2EE02E90 := by decide +kernel

/-- The same start: a channel at position 11 that fails training has its position erased. -/
theorem test_training_erases :
    (sUp.trainingFailed 30 11).reg .mcErase 30 = 11 ∧ (sUp.trainingFailed 30 11).flag .mcEccStatus 30 0 1 = true := by decide +kernel

/-- R17: a tenant's write of an ungranted user page is dropped under the code of a denied access of block PC. -/
theorem test_dropped_code :
    (after (.hartAccess 0 0 .u 0xF20000041000 (.store (leBytes 8 1)) false) sHost).recorder.ring.map (fun r => (r.report.code, r.report.sev)) =
      [(0x1702, .notice)] := by decide +kernel

/-- R8: a T register reads back at once and takes effect at the changeover (the example beneath R16). -/
theorem test_turn_length :
    (after (.registerWrite .referee (BitVec.ofNat 48 (rk .tnTurnLen 2).addr) 8 400000) s0).reg .tnTurnLen 2 = 400000 ∧
    (after (.registerWrite .referee (BitVec.ofNat 48 (rk .tnTurnLen 2).addr) 8 400000) s0).latchedReg .tnTurnLen 2 = 200000 := by decide +kernel

/-- Table 7.3 and R184: the 16 bytes of a PASS. -/
theorem test_move_bytes : (moveBody pass0).1 = 0x10 ∧ (moveBody (.twin hdr 5)).1 = 0x40 := by decide +kernel

/-- No row of the opcode table has bits, so no word spells a command. -/
theorem test_no_words : decodeTableWord 16 0x0100 = none ∧ (s0.withFetchWord 16 0x0100).pending = [] := by decide +kernel

/-! Commands that are ill formed -/

theorem wf_site : (Instr.nop { hdr with site := 104 }).wf = false ∧ (Instr.nop hdr).wf = true := by decide
theorem wf_requester : (Instr.gcSet (.hart 8 0 .m) 0).wf = false ∧ (Instr.gcSet (.hart 7 32 .m) 0).wf = false ∧ (Instr.gcSet (.rook 104) 0).wf = false ∧
    (Instr.gcSet (.pcie 8) 0).wf = false ∧ (Instr.gcSet (.move 103) 0).wf = true := by decide
theorem wf_path : (Instr.deviceInfo { cBmc with path := .ring 8 0 }).wf = false ∧ (Instr.deviceInfo { cBmc with path := .ring 0 16 }).wf = false ∧
    (Instr.deviceInfo { cBmc with path := .mgmt 0 224 0 0 }).wf = false ∧ (Instr.deviceInfo cRing).wf = true := by decide
theorem wf_findings : (Instr.partitionForm cBmc 1 0 0 { noFinds with cells := [(0, 16, 0)] }).wf = false ∧
    (Instr.partitionForm cBmc 1 0 0 { noFinds with cells := [(0, 15, 17)] }).wf = false ∧
    (Instr.partitionForm cBmc 1 0 0 { noFinds with dies := [104] }).wf = false ∧ (Instr.partitionForm cBmc 1 0 0 { noFinds with hosts := [8] }).wf = false ∧
    (Instr.partitionForm cBmc 1 0 0 { noFinds with stackBonds := [48] }).wf = false ∧
    (Instr.partitionForm cBmc 1 0 0 { noFinds with engineBonds := [56] }).wf = false ∧
    (Instr.partitionForm cBmc 1 0 0 { noFinds with links := [(0, 4, false)] }).wf = false ∧
    (Instr.partitionForm cBmc 1 0 0 { noFinds with spares := [(256, 1)] }).wf = false ∧ (Instr.partitionForm cBmc 1 0 0 noFinds).wf = true := by decide +kernel
theorem wf_packet : (Instr.sendArrival 6 { sendPkt with payload := List.replicate 1025 0 } 0).wf = false ∧
    (Instr.bnetPacket 256 0 0 sendPkt).wf = false ∧ (Instr.bnetPacket 0 5 0 sendPkt).wf = false ∧ (Instr.bnetNak 0 0 2).wf = false ∧
    (Instr.cnetPacket 0 0 { cnetPkt .rd 0 32 with payload := List.replicate 49 0 }).wf = false ∧ (Instr.bnetPacket 255 4 0 sendPkt).wf = true := by
  decide +kernel
theorem wf_flit : (Instr.knock 0 { flit0 with payload := [] }).wf = false ∧ (Instr.knock 224 flit0).wf = false ∧ (Instr.knock 223 flit0).wf = true ∧
    (Instr.prd 0 { link 1 [] with payload := List.replicate 4081 0 }).wf = false := by decide +kernel
theorem wf_hart : (Instr.hartAccess 0 0 .u 0 (.load 0) false).wf = false ∧ (Instr.hartAccess 0 0 .u 0 (.storeConditional 2 0) false).wf = false ∧
    (Instr.hartAccess 8 0 .u 0 (.load 8) false).wf = false ∧ (Instr.hartAccess 0 32 .u 0 (.load 8) false).wf = false ∧
    (Instr.hartAccess 0 31 .u 0 (.load 8) false).wf = true := by decide
theorem wf_numbers : (Instr.plannedBoundary 8).wf = false ∧ (Instr.time 256 0).wf = false ∧ (Instr.done 0 4).wf = false ∧
    (Instr.registerWrite .referee 0 3 0).wf = false ∧ (Instr.ringDrained 0 16).wf = false ∧ (Instr.bmcCommand (List.replicate 65 0) noFinds).wf = false ∧
    (Instr.dramWrite 0 (List.replicate 1025 0) []).wf = false ∧ (Instr.bucketLeak 7 0 0).wf = false ∧ (Instr.bankZeroComplete 0 16).wf = false ∧
    (Instr.releaseFillComplete 48).wf = false ∧ (Instr.hostProbe 8).wf = false ∧ (Instr.faultResolved 0 16).wf = false ∧
    (Instr.ccPubWrite .referee 0 16 false 0).wf = false ∧ (Instr.olPoolMap .referee 64 false 0).wf = false ∧ (Instr.mcErase .referee 48 0).wf = false ∧
    (Instr.voltageLoop 16 0 0 0).wf = false ∧ (Instr.dramRetrain 0 36 false).wf = false ∧ (Instr.dmRegisterAccess .referee 0 256 .read).wf = false ∧
    (Instr.shadowMismatch 0 64).wf = false ∧ (Instr.pcieLinkChange 0 4 true 0 0).wf = false := by decide +kernel
theorem wf_start : (Instr.coldStart { start0 with deadRegions := [16] }).wf = false ∧ (Instr.coldStart { start0 with dramFailures := [(0, 18)] }).wf = false ∧
    (Instr.coldStart { start0 with hellos := [(224, flit0, 0)] }).wf = false ∧ (Instr.coldStart { start0 with vstep := [(16, 0)] }).wf = false ∧
    (Instr.coldStart start0).wf = true := by decide +kernel
theorem wf_report : (Instr.eventReport { report0 with payload := List.replicate 233 0 }).wf = false ∧ (Instr.eventReport report0).wf = true := by
  decide +kernel
end Sys2Proof.Tests
end

section
/-! SUPPORT. What a register write does (chapter 0): when the rules of registers drop it, when a running block refuses it, and when it takes effect. -/

namespace Sys2Proof.Machine

/-! Writes of whole registers -/

theorem laneMask_whole : laneMask 0 8 = BitVec.allOnes 64 := by decide

/-- A word masked with all ones, in the form that simp gives the mask. -/
@[simp] theorem word_and_ones (x : Word) : x &&& 18446744073709551615#64 = x := BitVec.and_allOnes

/-- A write of a whole register carries its value in the lanes. -/
@[simp] theorem and_laneMask_whole (v : Word) : v &&& laneMask 0 8 = v := laneMask_whole ▸ BitVec.and_allOnes

/-- A write of a whole register covers the bytes of every field. -/
@[simp] theorem laneMask_whole_and (d : Word) : laneMask 0 8 &&& d = d := laneMask_whole ▸ BitVec.allOnes_and

/-- A write of a whole register keeps no byte of the old value. -/
@[simp] theorem and_not_laneMask_whole (old : Word) : old &&& ~~~laneMask 0 8 = 0#64 := by
  rw [laneMask_whole, BitVec.not_allOnes, BitVec.and_zero]

/-! Dropped writes -/

/-- What forbids a write that carries the given bytes in its lanes: a reserved bit (R7), a register of the Referee's alone (R18), a read-only register
or a nonzero value for a counter that is cleared by 0 (R523), or a boot-only register from Ready on (R15). -/
def State.forbidsWrite (s : State) (r : Requester) (k : RegKey) (lanes : Word) : Prop :=
  lanes &&& ~~~k.name.info.defined ≠ 0 ∨ (k.name.info.refereeOnly = true ∧ r ≠ .referee) ∨ k.name.info.readOnly = k.name.info.defined ∨
    (k.name.info.clearOnZero = true ∧ lanes ≠ 0) ∨ (k.name.info.clearOnZero = false ∧ k.name.info.cls = .boot ∧ s.ready = true)

/-- A forbidden write is dropped, or covers no field and writes nothing. -/
theorem State.writeReg_of_forbidden {s : State} {r : Requester} {k : RegKey} {o n : Nat} {v : Word}
    (h : s.forbidsWrite r k ((v <<< (8 * o)) &&& laneMask o n)) :
    s.writeReg r k o n v = s ∨ ∃ ev, s.writeReg r k o n v = s.dropWrite k ev := by
  unfold State.writeReg
  extract_lets info mask lanes old merged kbits refused
  split
  · exact .inr ⟨_, rfl⟩
  split
  · exact .inr ⟨_, rfl⟩
  split
  · exact .inr ⟨_, rfl⟩
  split
  · exact .inl rfl
  split
  next hreserved hreferee hreadOnly _ hclear =>
    have hlanes : lanes ≠ 0 := by
      rcases h with h | h | h | h | h
      · exact absurd h hreserved
      · exact absurd h hreferee
      · exact absurd h hreadOnly
      · exact h.2
      · exact absurd h.1 (by simp [hclear, info])
    rw [if_neg hlanes]
    exact .inr ⟨_, rfl⟩
  split
  · exact .inr ⟨_, rfl⟩
  next hreserved hreferee hreadOnly _ hclear hboot =>
    rcases h with h | h | h | h | h
    · exact absurd h hreserved
    · exact absurd h hreferee
    · exact absurd h hreadOnly
    · exact absurd h.1 hclear
    · exact absurd h.2 hboot

theorem Recorded.dropWrite (s : State) (k : RegKey) (ev : Nat) : Recorded s (s.dropWrite k ev) := Recorded.dropped ..

/-- A forbidden write moves only the event recorder. -/
theorem Recorded.writeReg_of_forbidden {s : State} {r : Requester} {k : RegKey} {o n : Nat} {v : Word}
    (h : s.forbidsWrite r k ((v <<< (8 * o)) &&& laneMask o n)) : Recorded s (s.writeReg r k o n v) := by
  rcases State.writeReg_of_forbidden h with e | ⟨ev, e⟩ <;> rw [e]
  · exact Recorded.refl s
  · exact Recorded.dropWrite ..

/-- A register that others may write too, or one written by the Referee itself, is not refused for its requester (R18). -/
theorem referee_permits {only : Bool} {r : Requester} (h : only = false ∨ r = .referee) : ¬ (only = true ∧ r ≠ .referee) := by
  rintro ⟨honly, hr⟩
  rcases h with h | h
  · simp [h] at honly
  · exact hr h

/-! Writes that a running block refuses (R14) -/

/-- A register of the event recorder is class L. -/
theorem RegName.cls_of_ofRecorder {n : RegName} (h : n.ofRecorder = true) : n.info.cls = .live := by
  unfold RegName.ofRecorder at h
  split at h
  case h_12 => cases h
  all_goals rfl

theorem RegName.ofRecorder_of_cls {n : RegName} (h : n.info.cls ≠ .live) : n.ofRecorder = false :=
  Bool.eq_false_iff.2 fun e => h (RegName.cls_of_ofRecorder e)

/-- A status register that shows BUSY_WRITE is class L and none of the event recorder's. -/
theorem busyRegister_live {n b : RegName} (h : busyRegister n = some b) : b.info.cls = .live ∧ b.ofRecorder = false := by
  unfold busyRegister at h
  split at h <;> cases h <;> exact ⟨rfl, rfl⟩

/-- BUSY_WRITE is set in the status register of a register's block, where the block has one. -/
def State.markBusy (s : State) (k : RegKey) : State :=
  (busyRegister k.name).elim s (fun b => s.setFlag b k.i (if b = RegName.mbRingStatus then k.j else 0) 0 true)

theorem State.flag_markBusy {s : State} {k : RegKey} {b : RegName} (h : busyRegister k.name = some b) :
    (s.markBusy k).flag b k.i (if b = RegName.mbRingStatus then k.j else 0) 0 = true := by
  simp only [State.markBusy, h, Option.elim_some]
  rw [State.flag_setFlag _ _ _ _ _ _ _ (by omega), if_pos rfl]

/-- Setting BUSY_WRITE leaves every register but those of class L. -/
theorem State.reg_markBusy {s : State} {k : RegKey} {n : RegName} (h : n.info.cls ≠ .live) (i j : Nat) :
    (s.markBusy k).reg n i j = s.reg n i j := by
  unfold State.markBusy
  cases hb : busyRegister k.name with
  | none => rfl
  | some b =>
    have hne : b ≠ n := fun e => h (e ▸ (busyRegister_live hb).1)
    simp [hne]

/-- A whole write that would change a register of class K with no live field, while its block runs, is dropped, and BUSY_WRITE shows it. -/
theorem State.writeReg_of_busy {s : State} {r : Requester} {k : RegKey} {v : Word} (hreserved : v &&& ~~~k.name.info.defined = 0)
    (hreferee : k.name.info.refereeOnly = false ∨ r = .referee) (hreadOnly : k.name.info.readOnly ≠ k.name.info.defined)
    (hclear : k.name.info.clearOnZero = false) (hlocked : k.name.info.cls = .locked) (hlive : k.name.info.liveMask = 0)
    (hrun : s.blockRunning k = true) (hchange : (v ^^^ s.readReg k) &&& k.name.info.defined ≠ 0#64) :
    s.writeReg r k 0 8 v = (s.markBusy k).dropWrite k 0x01 := by
  have hdefined : k.name.info.defined ≠ 0#64 := fun e => hchange (by rw [e]; exact BitVec.and_zero)
  have hforeign := referee_permits hreferee
  unfold State.writeReg State.markBusy
  cases busyRegister k.name <;> simp [hreserved, hforeign, hreadOnly, hdefined, hclear, hlocked, hlive, hrun, hchange]

/-! Writes that take effect -/

/-- A whole write that no rule forbids, of a register that no running block locks, puts its value into effect under the register's class. -/
theorem State.writeReg_of_allowed {s : State} {r : Requester} {k : RegKey} {v : Word} (hreserved : v &&& ~~~k.name.info.defined = 0)
    (hreferee : k.name.info.refereeOnly = false ∨ r = .referee) (hreadOnly : k.name.info.readOnly = 0)
    (hw1c : k.name.info.writeOneClear = 0) (hclear : k.name.info.clearOnZero = false) (hboot : k.name.info.cls ≠ .boot)
    (hlocked : k.name.info.cls ≠ .locked) (hvalue : valueAllowed k (laneMask 0 8) v = true) (hdefined : k.name.info.defined ≠ 0#64) :
    s.writeReg r k 0 8 v = s.applyWrite r k (laneMask 0 8) v := by
  have hforeign := referee_permits hreferee
  unfold State.writeReg
  simp [hreserved, hforeign, hreadOnly, hw1c, hclear, hboot, hlocked, hvalue, hdefined, Ne.symm hdefined]

/-- A register whose write is no operation of its own holds the value; one of class T that no partition owns takes effect at once (R8, R12). -/
theorem State.applyWrite_of_plain {s : State} {r : Requester} {k : RegKey} {mask v : Word} (h : k.name ∉ ownWrites) :
    s.applyWrite r k mask v =
      if k.name.info.cls = .turn ∧ s.regOwner k = none then s.setBoth k.name k.i k.j v else s.setReg k.name k.i k.j v := by
  unfold State.applyWrite
  split
  case h_14 => rfl
  all_goals
    next e => exact absurd (by rw [e]; decide) h

/-! Turn-latched registers (R8 to R12) -/

@[simp] theorem State.latchedReg_setReg (s : State) (n n' : RegName) (i i' j j' : Nat) (v : Word) :
    (s.setReg n i j v).latchedReg n' i' j' = s.latchedReg n' i' j' := rfl

@[simp] theorem State.latchedReg_setBoth (s : State) (n n' : RegName) (i i' j j' : Nat) (v : Word) :
    (s.setBoth n i j v).latchedReg n' i' j' = if n = n' ∧ i = i' ∧ j = j' then v else s.latchedReg n' i' j' := by
  simp [State.setBoth]

/-- A latch puts the value last written into effect. -/
@[simp] theorem State.latchedReg_latch_same (s : State) (n : RegName) (i j : Nat) : (s.latch n i j).latchedReg n i j = s.reg n i j := by
  unfold State.latch
  split
  next h => exact h
  · simp

/-- Who owns a register follows from the regions of the partitions and the pool map alone. -/
theorem State.regOwner_setReg {s : State} {n : RegName} (hmap : n ≠ .olPoolMap) (hregions : n ≠ .ptRegions) (i j : Nat) (v : Word) (k : RegKey) :
    (s.setReg n i j v).regOwner k = s.regOwner k := by
  simp only [State.regOwner, State.flag, State.field, State.owner, State.regionOwner, State.reg_setReg, hmap, hregions, false_and, if_false] <;>
    rfl

/-- A permitted whole write of a turn-latched register stores the value, and puts it into effect only where no partition owns the register. -/
theorem State.writeReg_of_turn {s : State} {r : Requester} {k : RegKey} {v : Word} (hturn : k.name.info.cls = .turn) (hplain : k.name ∉ ownWrites)
    (hreserved : v &&& ~~~k.name.info.defined = 0) (hreferee : k.name.info.refereeOnly = false ∨ r = .referee)
    (hreadOnly : k.name.info.readOnly = 0) (hw1c : k.name.info.writeOneClear = 0) (hclear : k.name.info.clearOnZero = false)
    (hvalue : valueAllowed k (laneMask 0 8) v = true) (hdefined : k.name.info.defined ≠ 0) :
    s.writeReg r k 0 8 v = if s.regOwner k = none then s.setBoth k.name k.i k.j v else s.setReg k.name k.i k.j v := by
  rw [State.writeReg_of_allowed hreserved hreferee hreadOnly hw1c hclear (by simp [hturn]) (by simp [hturn]) hvalue hdefined,
    State.applyWrite_of_plain hplain]
  simp [hturn]

/-! The obligations -/

/-- Settles O26: a forbidden write only records its event, and a refused one sets BUSY_WRITE and leaves the locked register. -/
theorem refusedWrites : Obligations.RefusedWrites := by
  refine ⟨fun s r k v hname h => ?_, fun s r k v hreserved hreferee hreadOnly hclear hlocked hlive hrun hchange => ?_⟩
  · have hrec : Recorded s (s.writeReg r k 0 8 v) := Recorded.writeReg_of_forbidden (by simpa [State.forbidsWrite] using h)
    exact ⟨hrec, hrec.reg _ _ _ hname⟩
  · have hcls : k.name.info.cls ≠ .live := by simp [hlocked]
    have hdrop := Recorded.dropWrite (s.markBusy k) k 0x01
    rw [State.writeReg_of_busy hreserved hreferee hreadOnly hclear hlocked hlive hrun hchange]
    refine ⟨fun b hb => ?_, ?_⟩
    · rw [State.flag, hdrop.reg _ _ _ (busyRegister_live hb).2]
      exact State.flag_markBusy hb
    · rw [hdrop.reg _ _ _ (RegName.ofRecorder_of_cls hcls), State.reg_markBusy hcls]

/-- A state in Ready whose register file holds, for the read-only DB_IDCODE, another value than the fused code that a read returns. -/
def idcodeMismatch : State :=
  (State.reset.setFlag .refBoot 0 0 18 true).setReg .dbIdcode 0 0 (~~~(Config.idcode.setWidth 64))

theorem idcodeMismatch_ready : idcodeMismatch.ready = true := by
  simp [idcodeMismatch, State.ready, State.flag]

theorem idcodeMismatch_reg : idcodeMismatch.reg .dbIdcode = ~~~(Config.idcode.setWidth 64) := by
  simp [idcodeMismatch]

/-- Refutes O56: DB_IDCODE is boot-only, and a read of it returns the fused code whatever the register file holds. -/
theorem not_bootRegisterWrites : ¬ Obligations.BootRegisterWrites := by
  intro h
  obtain ⟨-, -, -, hread⟩ := h idcodeMismatch .referee (rk .dbIdcode) 0 8 0 rfl idcodeMismatch_ready
  have hbits : Config.idcode.setWidth 64 = ~~~(Config.idcode.setWidth 64) := hread.trans idcodeMismatch_reg
  have hbit := congrArg (BitVec.getLsbD · 0) hbits
  simp at hbit

/-- Settles O57: the write stores the value, in effect at once only where no partition owns the register, and the latch copies what is stored. -/
theorem turnLatchedRegisters : Obligations.TurnLatchedRegisters := by
  intro s r k v w hturn hplain hreferee hreadOnly hw1c hclear hv hw hvalueV hvalueW hdefined t u
  have hmap : k.name ≠ .olPoolMap := fun e => by simp [e, RegName.info, RegInfo.writable] at hturn
  have hregions : k.name ≠ .ptRegions := fun e => by simp [e, RegName.info, RegInfo.writable] at hturn
  have ht : t = if s.regOwner k = none then s.setBoth k.name k.i k.j v else s.setReg k.name k.i k.j v :=
    State.writeReg_of_turn hturn hplain hv hreferee hreadOnly hw1c hclear hvalueV hdefined
  have hu : u = if t.regOwner k = none then t.setBoth k.name k.i k.j w else t.setReg k.name k.i k.j w :=
    State.writeReg_of_turn hturn hplain hw hreferee hreadOnly hw1c hclear hvalueW hdefined
  have htreg : t.reg k.name k.i k.j = v := by rw [ht]; split <;> simp
  have hureg : u.reg k.name k.i k.j = w := by rw [hu]; split <;> simp
  refine ⟨htreg, hureg, fun howned => ?_, fun hfree => ?_, ?_⟩
  · rw [if_neg howned] at ht
    have howned' : t.regOwner k ≠ none := by rwa [ht, State.regOwner_setReg hmap hregions]
    rw [if_neg howned'] at hu
    simp [hu, ht]
  · simp [ht, hfree]
  · simp [hureg]

end Sys2Proof.Machine
end

section
/-! SUPPORT. Register writes through the privileged windows (chapters 0, 2, 8 and 12): an access there meets no memory fence, and reaches the register
at its address as its requester's reach allows. -/

namespace Sys2Proof.Machine

/-! Bytes of a word -/

/-- The number that the n little-endian bytes of x spell. -/
theorem leNat_leBytes (n x : Nat) : leNat (leBytes n x) = x % 256 ^ n := by
  induction n generalizing x with
  | zero => simp [leBytes, leNat, Nat.mod_one]
  | succ n ih =>
    simp only [leBytes, leNat, ih, BitVec.toNat_ofNat]
    rw [pow_succ' 256 n]
    exact Nat.mod_mul.symm

@[simp] theorem length_leBytes (n x : Nat) : (leBytes n x).length = n := by
  induction n generalizing x with
  | zero => rfl
  | succ n ih => simp [leBytes, ih]

/-- A word is the one that its eight bytes spell. -/
@[simp] theorem ofNat_leNat_leBytes (v : Word) : BitVec.ofNat 64 (leNat (leBytes 8 v.toNat)) = v := by
  have hv : v.toNat < 256 ^ 8 := v.isLt
  rw [leNat_leBytes, Nat.mod_eq_of_lt hv, BitVec.ofNat_toNat, BitVec.setWidth_eq]

/-! Accesses to the privileged windows -/

theorem registerWindow_bounds {a : Nat} (h : registerWindow a = true) : 0xF00000000000 ≤ a ∧ a < 0xF10001000000 := by
  simp only [registerWindow, Bool.or_eq_true, decide_eq_true_eq] at h
  unfold refereeWindow at h
  omega

/-- Only the privileged windows hold registers. -/
theorem registerWindow_of_spotAt {a b : Nat} {k : RegKey} (h : spotAt a = .reg k b) : registerWindow a = true := by
  by_contra hw
  simp [spotAt, Bool.eq_false_iff.2 hw] at h

theorem inDram_of_registerWindow {a : Nat} (h : registerWindow a = true) : inDram a = false := by
  have := registerWindow_bounds h
  simp only [inDram, decide_eq_false_iff_not]
  omega

/-- No memory lies in the privileged windows. -/
theorem memorySquares_of_registerWindow {a : Nat} (h : registerWindow a = true) (n : Nat) : memorySquares a n = [] := by
  have := registerWindow_bounds h
  rw [memorySquares, inDram_of_registerWindow h, if_neg Bool.false_ne_true, if_neg (by omega), if_neg (by omega), if_neg (by omega)]

theorem State.memoryFence_of_registerWindow (s : State) (r : Requester) {a : Nat} (h : registerWindow a = true) (n : Nat) :
    s.memoryFence r a n = none := by
  simp [State.memoryFence, requestSquares, inDram_of_registerWindow h, memorySquares_of_registerWindow h]

theorem State.memoryCut_of_registerWindow (s : State) (r : Requester) {a : Nat} (h : registerWindow a = true) (n : Nat) :
    s.memoryCut r a n = false := by
  simp [State.memoryCut, inDram_of_registerWindow h, memorySquares_of_registerWindow h]

/-- An access to a privileged window is one under R18, R237 and R331. -/
theorem State.accessAt_of_registerWindow (s : State) (r : Requester) (compiled : Bool) {a : Nat} (h : registerWindow a = true) (n : Nat)
    (data : Option (List Byte)) : s.accessAt r compiled a n data = s.privAccess r a n data := by
  have hb := registerWindow_bounds h
  have hmmio : mmioWindow a = false := by
    simp only [mmioWindow, decide_eq_false_iff_not]
    omega
  unfold State.accessAt
  rw [s.memoryFence_of_registerWindow r h, s.memoryCut_of_registerWindow r h, inDram_of_registerWindow h, hmmio, h]
  dsimp only
  rw [if_neg Bool.false_ne_true, if_neg Bool.false_ne_true, if_neg (by omega), if_neg (by omega), if_neg (by omega), if_neg (by omega),
    if_neg Bool.false_ne_true, if_pos rfl]

/-- A write to a privileged window that is carried out, or dropped, is answered with its packets counted. -/
theorem State.registerWrite_of_ok {s t : State} {r : Requester} {a n : Nat} {v : Word} {d : List Byte} (hw : registerWindow a = true)
    (hb : s.blocked r = false) (hf : registerForm a n = true) (h : s.privAccess r a n (some (leBytes n v.toNat)) = (t, .ok d)) :
    s.registerWrite r a n v = (t.countRegister r a).answered (.ok d) := by
  simp [State.registerWrite, State.access, s.accessAt_of_registerWindow r false hw, hb, hf, h, hw]

/-- A write to a privileged window that takes a bus error is answered with it. -/
theorem State.registerWrite_of_error {s t : State} {r : Requester} {a n : Nat} {v : Word} {e : Status} (hw : registerWindow a = true)
    (hb : s.blocked r = false) (hf : registerForm a n = true) (h : s.privAccess r a n (some (leBytes n v.toNat)) = (t, .error e)) :
    s.registerWrite r a n v = t.answered (.error e) := by
  simp [State.registerWrite, State.access, s.accessAt_of_registerWindow r false hw, hb, hf, h]

/-! What a requester reaches -/

theorem State.privAccess_of_yes {s : State} {r : Requester} {k : RegKey} {v : Word} (hk : spotAt k.addr = .reg k 0)
    (h : s.reach r k.addr true = .yes) (hc : s.crossing true r.square (windowSquare k.addr) = none) :
    s.privAccess r k.addr 8 (some (leBytes 8 v.toNat)) = (s.writeReg r k 0 8 v, .ok []) := by
  simp [State.privAccess, State.spotWrite, h, hc, hk]

theorem State.privAccess_of_crossing {s : State} {r : Requester} {a n q : Nat} {d : List Byte} (h : s.reach r a true = .yes)
    (hc : s.crossing true r.square (windowSquare a) = some q) :
    s.privAccess r a n (some d) = (s.bump .cnFenceDrop q, .error .partitionFenced) := by
  simp [State.privAccess, h, hc]

theorem State.privAccess_of_no {s : State} {r : Requester} {a n : Nat} {d : List Byte} (h : s.reach r a true = .no) :
    s.privAccess r a n (some d) = (s.unmapped r.square .notPermitted a, .error .notPermitted) := by
  simp [State.privAccess, h]

theorem State.privAccess_of_blind {s : State} {r : Requester} {k : RegKey} {n : Nat} {d : List Byte} (hk : spotAt k.addr = .reg k 0)
    (h : s.reach r k.addr true = .blind) : s.privAccess r k.addr n (some d) = (s.dropWrite k 0x02, .ok []) := by
  simp [State.privAccess, h, hk]

theorem State.privAccess_of_fault {s : State} {h c a n : Nat} {mode : HartMode} {d : List Byte} (hf : s.reach (.hart h c mode) a true = .fault) :
    s.privAccess (.hart h c mode) a n (some d) = (s.bump .hdPrivFaults h, .error .notPermitted) := by
  simp [State.privAccess, hf]

/-- The C-net lets every packet of the Referee square pass (R237). -/
theorem State.crossing_referee (s : State) (q : Nat) : s.crossing true Requester.referee.square q = none := by
  simp [State.crossing, Requester.square]

/-! Commands that write one register -/

/-- A register's row lies at multiples of 8 in its window, but for the harts' CSRs. -/
theorem RegName.info_aligned (n : RegName) (h : n.info.window ≠ .csr) : n.info.offset % 8 = 0 ∧ n.info.stride % 8 = 0 ∧ n.info.step % 8 = 0 := by
  cases n
  case hdTurn | hdTurnStart | hdWhere | hdMpriv | hdMtimecmp => exact absurd rfl h
  all_goals exact ⟨rfl, rfl, rfl⟩


/-- A row lies below 16 MiB in its window, and repeats in strides and steps of no more than 4 KiB. -/
theorem RegName.info_bounds (n : RegName) : n.info.offset < 2 ^ 24 ∧ n.info.stride ≤ 2 ^ 12 ∧ n.info.step ≤ 2 ^ 12 := by
  cases n <;> decide

/-- A register outside the CSRs lies at a multiple of 8. -/
theorem RegKey.addr_aligned {k : RegKey} (h : k.name.info.window ≠ .csr) : k.addr % 8 = 0 := by
  obtain ⟨hoffset, hstride, hstep⟩ := k.name.info_aligned h
  have hi := Nat.mul_mod k.i k.name.info.stride 8
  have hj := Nat.mul_mod k.j k.name.info.step 8
  rw [hstride, Nat.mul_zero, Nat.zero_mod] at hi
  rw [hstep, Nat.mul_zero, Nat.zero_mod] at hj
  unfold RegKey.addr squareWindow refereeWindow
  dsimp only
  split <;> omega

/-- The address of a register of a square's or the Referee window lies below the end of the map. -/
theorem RegKey.addr_lt {k : RegKey} (hq : k.square < 256) (hi : k.i < 256) (hj : k.j < 256) : k.addr < 2 ^ 48 := by
  obtain ⟨hoffset, hstride, hstep⟩ := k.name.info_bounds
  have hi' := Nat.mul_le_mul hi.le hstride
  have hj' := Nat.mul_le_mul hj.le hstep
  unfold RegKey.square at hq
  unfold RegKey.addr squareWindow refereeWindow
  dsimp only
  cases hw : k.name.info.window <;> simp only [hw] at hq ⊢ <;> omega

theorem stackSquare_lt : ∀ k < 48, stackSquare k < 256 := by decide

/-- An access of 4 or 8 bytes at a register's address has the form that registers take. -/
theorem registerForm_addr {k : RegKey} {size : Nat} (h : k.addr % 8 = 0) (hsize : size = 4 ∨ size = 8) : registerForm k.addr size = true := by
  rcases hsize with rfl | rfl
  · simp only [registerForm, Bool.and_eq_true, decide_eq_true_eq]
    exact ⟨by decide, by omega⟩
  · simp [registerForm, h]

/-- A write of one register outside the CSRs, as the rows that name the register perform it, is REGISTER_WRITE at its address. -/
theorem writeKey_eq_exec_registerWrite (s : State) (r : Requester) {n : RegName} {i j size : Nat} (v : Word) (hw : n.info.window ≠ .csr)
    (hq : (rk n i j).square < 256) (hi : i < 256) (hj : j < 256) (hsize : size = 4 ∨ size = 8) :
    Host.Outcome.next (s.writeKey r (rk n i j) size v) = exec (.registerWrite r (BitVec.ofNat 48 (rk n i j).addr) size v) s := by
  have haddr : (BitVec.ofNat 48 (rk n i j).addr).toNat = (rk n i j).addr := Nat.mod_eq_of_lt (RegKey.addr_lt hq hi hj)
  change _ = Host.Outcome.next (s.registerWrite r (BitVec.ofNat 48 (rk n i j).addr).toNat size v)
  rw [haddr, State.registerWrite, State.writeKey, if_pos (registerForm_addr (RegKey.addr_aligned hw) hsize)]

theorem exec_registerWrite_of_ok {s t : State} {r : Requester} {k : RegKey} {v : Word} (hk : spotAt k.addr = .reg k 0) (ha : k.addr % 8 = 0)
    (hlt : k.addr < 2 ^ 48) (hb : s.blocked r = false) (h : s.privAccess r k.addr 8 (some (leBytes 8 v.toNat)) = (t, .ok [])) :
    exec (.registerWrite r (BitVec.ofNat 48 k.addr) 8 v) s = .next ((t.countRegister r k.addr).answered (.ok [])) := by
  change Host.Outcome.next (s.registerWrite r (BitVec.ofNat 48 k.addr).toNat 8 v) = _
  rw [BitVec.toNat_ofNat, Nat.mod_eq_of_lt hlt,
    State.registerWrite_of_ok (registerWindow_of_spotAt hk) hb (registerForm_addr ha (.inr rfl)) h]

theorem exec_registerWrite_of_error {s t : State} {r : Requester} {k : RegKey} {v : Word} {e : Status} (hk : spotAt k.addr = .reg k 0)
    (ha : k.addr % 8 = 0) (hlt : k.addr < 2 ^ 48) (hb : s.blocked r = false)
    (h : s.privAccess r k.addr 8 (some (leBytes 8 v.toNat)) = (t, .error e)) :
    exec (.registerWrite r (BitVec.ofNat 48 k.addr) 8 v) s = .next (t.answered (.error e)) := by
  change Host.Outcome.next (s.registerWrite r (BitVec.ofNat 48 k.addr).toNat 8 v) = _
  rw [BitVec.toNat_ofNat, Nat.mod_eq_of_lt hlt,
    State.registerWrite_of_error (registerWindow_of_spotAt hk) hb (registerForm_addr ha (.inr rfl)) h]

/-- Settles O25: an access to a privileged window by the reach of its requester, and the rows that write one register. -/
theorem registerWriteReachesRegister : Obligations.RegisterWriteReachesRegister := by
  refine ⟨fun s k v hk _ _ ha hlt => ⟨fun hrun => ?_, fun r hb _ _ hr hc => ?_⟩, fun s k v r hk _ _ ha hlt hb _ _ => ?_,
    fun s r v x y z p n w k hp hn hw hk => ?_⟩
  · exact exec_registerWrite_of_ok hk ha hlt (by simp [State.blocked, hrun]) (State.privAccess_of_yes hk rfl (s.crossing_referee _))
  · exact exec_registerWrite_of_ok hk ha hlt hb (State.privAccess_of_yes hk hr hc)
  · refine ⟨fun q hr hc => ?_, fun hr => ?_, fun hr => ?_, fun h c mode e hr => ?_⟩
    · exact exec_registerWrite_of_error hk ha hlt hb (State.privAccess_of_crossing hr hc)
    · exact exec_registerWrite_of_error hk ha hlt hb (State.privAccess_of_no hr)
    · exact exec_registerWrite_of_ok hk ha hlt hb (State.privAccess_of_blind hk hr)
    · subst e
      exact exec_registerWrite_of_error hk ha hlt hb (State.privAccess_of_fault hr)
  · have hp' : p < 256 := by omega
    have hn' : n < 256 := by omega
    have hw' : w < 256 := by omega
    have hk' : k < 256 := by omega
    have h0 : 0 < 256 := by decide
    have h15 : 15 < 256 := by decide
    refine ⟨?gcSet, ?gcSlew, ?refWdog, ?mbRingProd, ?mbRingCqCons, ?ringEnable, ?ringDisable, ?ccPubBase, ?ccPubLen, ?stPinLend, ?olPoolMap,
      ?olPoolQuads, ?mcErase⟩
    case gcSet | gcSlew => exact writeKey_eq_exec_registerWrite s r v (by decide) h15 h0 h0 (.inr rfl)
    case refWdog => exact writeKey_eq_exec_registerWrite s r v (by decide) h0 h0 h0 (.inr rfl)
    case mbRingProd | mbRingCqCons => exact writeKey_eq_exec_registerWrite s r _ (by decide) h0 hp' hn' (.inl rfl)
    case ringEnable | ringDisable | ccPubBase | ccPubLen => exact writeKey_eq_exec_registerWrite s r _ (by decide) h0 hp' hn' (.inr rfl)
    case stPinLend => exact writeKey_eq_exec_registerWrite s r _ (by decide) h0 hp' h0 (.inr rfl)
    case olPoolMap | olPoolQuads => exact writeKey_eq_exec_registerWrite s r v (by decide) h0 h0 hw' (.inr rfl)
    case mcErase => exact writeKey_eq_exec_registerWrite s r _ (by decide) (stackSquare_lt k hk) hk' h0 (.inr rfl)

end Sys2Proof.Machine
end

section
/-! SUPPORT. The device.* commands (chapters 0, 1, 9 and 16): what entering a command leaves of what they read, and that a host-side read leaves the
flash. -/

namespace Sys2Proof.Machine

/-! What entering a command leaves -/

@[simp] theorem State.enterCommand_runningB (s : State) (c : Cmd) (w : MailRow) : (s.enterCommand c w).referee.runningB = s.referee.runningB := by
  unfold State.enterCommand; dsimp only; split <;> rfl

@[simp] theorem State.enterCommand_siteState (s : State) (c : Cmd) (w : MailRow) (i : Nat) : (s.enterCommand c w).siteState i = s.siteState i := by
  simp [State.siteState]

@[simp] theorem State.enterCommand_siteNext (s : State) (c : Cmd) (w : MailRow) (i : Nat) : (s.enterCommand c w).siteNext i = s.siteNext i := by
  simp [State.siteNext]

@[simp] theorem State.enterCommand_enabledNext (s : State) (c : Cmd) (w : MailRow) : (s.enterCommand c w).enabledNext = s.enabledNext := by
  simp [State.enabledNext]

@[simp] theorem State.enterCommand_infoRegions (s : State) (c c' : Cmd) (w : MailRow) : (s.enterCommand c w).infoRegions c' = s.infoRegions c' := by
  simp only [State.infoRegions, State.enterCommand_field]

/-! Site states -/

theorem nfind_nput_same {V : Type} (m : List (Nat × V)) (k : Nat) (v : V) : Sparse.nfind (Sparse.nput m k v) k = some v := by
  unfold Sparse.nput
  induction m with
  | nil => simp [Sparse.put, Sparse.nfind]
  | cons x m ih =>
    obtain ⟨a, b⟩ := x
    simp only [Sparse.put, id]
    split
    · simp [Sparse.nfind]
    split
    · simp [Sparse.nfind]
    next hne => simp [Sparse.nfind, ih, Ne.symm hne]

/-- A site that has been marked will have the state that it was marked with. -/
theorem State.siteNext_markSite (s : State) (i : Nat) (v : SiteState) : (s.markSite i v).siteNext i = v := by
  simp [State.siteNext, State.markSite, nfind_nput_same]

/-! A host-side read leaves the flash -/

theorem State.flash_foldl {α : Type} {f : State → α → State} (h : ∀ s a, (f s a).flash = s.flash) (l : List α) (s : State) :
    (l.foldl f s).flash = s.flash := by
  induction l generalizing s with
  | nil => rfl
  | cons a l ih => exact (ih _).trans (h s a)

@[simp] theorem State.breakReservations_flash (s : State) (ok : Nat → Bool) : (s.breakReservations ok).flash = s.flash :=
  State.flash_foldl (fun s h => by split <;> rfl) _ s

@[simp] theorem State.fillLines_flash (s : State) (first count : Nat) : (s.fillLines first count).flash = s.flash := by
  simp [State.fillLines]

@[simp] theorem State.applyFill_flash (s : State) (line : Nat) : (s.applyFill line).flash = s.flash := by
  unfold State.applyFill
  split
  · simp only [State.fillLines_flash]
  · rfl

@[simp] theorem State.cleanHart_flash (s : State) (h b : Nat) : (s.cleanHart h b).flash = s.flash := by
  unfold State.cleanHart
  split
  · split <;> rfl
  · rfl

@[simp] theorem State.gather_flash (s : State) (b : Nat) : (s.gather b).flash = s.flash :=
  State.flash_foldl (fun s h => s.cleanHart_flash h b) _ s

@[simp] theorem State.eventStatus_flash (s : State) (block : Nat) (st : Status) (sev : Severity) (part : Option Nat) (source : Nat)
    (payload : List Byte) : (s.eventStatus block st sev part source payload).flash = s.flash := (Recorded.eventStatus ..).flash

@[simp] theorem State.sramUe_flash (s : State) (n : RegName) (i square addr requester : Nat) :
    (s.sramUe n i square addr requester).flash = s.flash :=
  (State.eventStatus_flash ..).trans (State.bump_flash ..)

@[simp] theorem State.dramUe_flash (s : State) (line pos requester : Nat) : (s.dramUe line pos requester).flash = s.flash :=
  (State.eventStatus_flash ..).trans ((State.setReg_flash ..).trans (State.bump_flash ..))

@[simp] theorem State.hscFetch_flash (s : State) (b requester : Nat) : (s.hscFetch b requester).1.flash = s.flash := by
  unfold State.hscFetch
  dsimp only
  split
  · split
    · exact s.applyFill_flash _
    · exact (State.sramUe_flash ..).trans (s.applyFill_flash _)
  · split
    · exact (State.dramUe_flash ..).trans (s.applyFill_flash _)
    · exact s.applyFill_flash _

@[simp] theorem State.hostReadBlock_flash (s : State) (b requester : Nat) : (s.hostReadBlock b requester).1.flash = s.flash := by
  have h : ((s.gather b).hscFetch b requester).1.flash = s.flash := by simp
  unfold State.hostReadBlock
  split <;> next e => rwa [e] at h

/-- A read of DRAM by a host-side requester leaves the flash. -/
theorem State.hostRead_flash (s : State) (a n requester : Nat) : (s.hostRead a n requester).1.flash = s.flash := by
  unfold State.hostRead
  generalize (Except.ok [] : Except Status (List Byte)) = r
  induction blockPieces a n generalizing s r with
  | nil => rfl
  | cons piece l ih =>
    obtain ⟨b, o, k⟩ := piece
    rw [List.foldl_cons]
    refine (ih _ _).trans ?_
    split
    · rfl
    · have h := s.hostReadBlock_flash b requester
      split <;> next e => rwa [e] at h

/-- The checks of an image look at nothing but the fused count in the flash. -/
theorem State.imageAccepted_of_flash {s t : State} (h : t.flash = s.flash) (i : ImageInfo) : t.imageAccepted i = s.imageAccepted i := by
  unfold State.imageAccepted State.svnCount
  rw [h]

/-! The rows -/

theorem State.deviceInfo_of_taken {s : State} {c : Cmd} (h : s.taken c rowInfo false) :
    s.deviceInfo c = (s.enterCommand c rowInfo).complete c 0x0100 .ok none (resultOf
      [(16, [BitVec.ofNat 8 Config.variant.code]), (17, [BitVec.ofNat 8 Config.variant.fusedStep]), (20, leBytes 4 Config.variant.powerLimit),
       (24, leBytes 8 (s.reg .refSamDigest).toNat), (32, leBytes 4 (s.reg .refFwVersion).toNat), (36, leBytes 4 (s.reg .refSamGen).toNat),
       (40, leBytes 2 (s.infoRegions c))]) := by
  rw [State.deviceInfo, State.take_of_taken h]
  simp

theorem State.siteEnable_of_taken {s : State} {c : Cmd} {site : BitVec 8} (hsite : site.toNat ≤ 103) (h : s.taken c rowSiteEnable false)
    (hretired : s.siteState site.toNat ≠ .retired) (hroom : s.siteNext site.toNat = .enabled ∨ s.enabledNext < 100) :
    s.siteEnable c site = ((s.enterCommand c rowSiteEnable).markSite site.toNat .enabled).complete c 0x0101 .ok := by
  have hfull : ¬ (s.siteNext site.toNat ≠ .enabled ∧ 100 ≤ s.enabledNext) := by
    rintro ⟨hne, hle⟩
    rcases hroom with e | e
    · exact hne e
    · omega
  rw [State.siteEnable, decide_eq_false (by omega), State.take_of_taken h]
  dsimp only
  rw [if_neg]
  simpa [hretired] using hfull

theorem State.siteReserve_of_taken {s : State} {c : Cmd} {site : BitVec 8} (hsite : site.toNat ≤ 103) (h : s.taken c rowSiteReserve false)
    (hretired : s.siteState site.toNat ≠ .retired) :
    s.siteReserve c site = ((s.enterCommand c rowSiteReserve).markSite site.toNat .reserve).complete c 0x0102 .ok := by
  rw [State.siteReserve, decide_eq_false (by omega), State.take_of_taken h]
  simp [hretired]

theorem State.grantFleet_of_taken {s : State} {c : Cmd} {part ring : BitVec 8} (hpart : part.toNat < 8) (hring : ring.toNat < 16)
    (hformed : s.formed part.toNat = true) (h : s.taken c rowGrantFleet false) :
    s.grantFleet c part ring = ((s.enterCommand c rowGrantFleet).setField .mbRingCtl part.toNat ring.toNat 1 2 2).complete c 0x0104 .ok := by
  rw [State.grantFleet, decide_eq_false (by omega), hformed]
  exact State.take_of_taken h _

/-- A staged image goes to the slot that is not running; one that the boot ROM would refuse leaves that slot invalid. -/
def State.stageImage (s u : State) (c : Cmd) (d : List Byte) : State :=
  match Config.image d with
  | some i =>
    if s.imageAccepted i then
      { u.setSlot (!s.referee.runningB) { image := some i } with
        flash := { (u.setSlot (!s.referee.runningB) { image := some i }).flash with preferB := !s.referee.runningB } }.complete c 0x0103 .ok none
        (resultOf [(16, leBytes 4 i.version.toNat)])
    else (u.setSlot (!s.referee.runningB) {}).complete c 0x0103 .notPermitted
  | none => (u.setSlot (!s.referee.runningB) {}).complete c 0x0103 .notPermitted

theorem State.fwStage_of_taken {s u : State} {c : Cmd} {addr : Word} {len : BitVec 32} {d : List Byte} (hlen : len.toNat ≤ 0x1000000)
    (hdram : s.inOwnDram c addr.toNat len.toNat = true) (h : s.taken c rowFwStage false)
    (hread : (s.enterCommand c rowFwStage).hostRead addr.toNat len.toNat 0 = (u, .ok d)) : s.fwStage c addr len = s.stageImage u c d := by
  have hflash : u.flash = s.flash := by
    have := (s.enterCommand c rowFwStage).hostRead_flash addr.toNat len.toNat 0
    rwa [hread, State.enterCommand_flash] at this
  rw [State.fwStage, decide_eq_false (by omega), hdram]
  refine (State.take_of_taken h _).trans ?_
  simp only [hread, State.enterCommand_runningB, State.stageImage, State.imageAccepted_of_flash hflash] <;> rfl

/-- Settles O8, row by row. -/
theorem deviceCommands : Obligations.DeviceCommands := by
  intro s c
  refine ⟨fun h => ?_, fun site hsite h hretired hroom => ⟨?_, State.siteNext_markSite ..⟩,
    fun site hsite h hretired => ⟨?_, State.siteNext_markSite ..⟩, fun addr len u d hlen hdram h hread => ?_,
    fun part ring hpart hring hformed h => ?_⟩
  · exact congrArg Host.Outcome.next (State.deviceInfo_of_taken h)
  · exact congrArg Host.Outcome.next (State.siteEnable_of_taken hsite h hretired hroom)
  · exact congrArg Host.Outcome.next (State.siteReserve_of_taken hsite h hretired)
  · exact congrArg Host.Outcome.next (State.fwStage_of_taken hlen hdram h hread)
  · exact congrArg Host.Outcome.next (State.grantFleet_of_taken hpart hring hformed h)

end Sys2Proof.Machine
end

section
/-! SUPPORT. Retraining in service and the dies that Tolerabor tests on its own (chapters 1 and 16): which registers a router's service and a
compute-die reset leave, where a die stands after its reset and its calibration, and that a partition fence moves no die. -/

namespace Sys2Proof.Machine

/-! A square's router counts the bytes that leave over a link, and moves no other register -/

theorem State.reg_foldl {α : Type} {f : State → α → State} {n : RegName} {i j : Nat} (h : ∀ s a, (f s a).reg n i j = s.reg n i j) (l : List α)
    (s : State) : (l.foldl f s).reg n i j = s.reg n i j := by
  induction l generalizing s with
  | nil => rfl
  | cons a l ih => exact (ih _).trans (h s a)

theorem State.reg_of_regs {s t : State} (h : t.regs = s.regs) (n : RegName) (i j : Nat) : t.reg n i j = s.reg n i j := by
  rw [State.reg, State.reg, h]

theorem State.enterLocal_regs {s t : State} {q : Nat} {p : BnetPacket} (h : s.enterLocal q p = some t) : t.regs = s.regs := by
  unfold State.enterLocal at h
  dsimp only at h
  split at h <;> split at h <;> cases h <;> rfl

theorem State.enterAll_regs (s : State) (q : Nat) (l : List BnetPacket) : (s.enterAll q l).1.regs = s.regs := by
  induction l generalizing s with
  | nil => rfl
  | cons p l ih =>
    unfold State.enterAll
    split
    · next t ht => exact (ih t).trans (State.enterLocal_regs ht)
    · exact ih s

theorem State.refill_regs (s : State) (q : Nat) : (s.refill q).regs = s.regs := by
  unfold State.refill
  split
  · exact (State.modSquare_regs ..).trans ((State.enterAll_regs ..).trans (State.modSquare_regs ..))
  · exact (State.modSquare_regs ..).trans (State.enterAll_regs ..)

section
variable {n : RegName} (h : n ≠ .bnTxBytes) (i j : Nat)
include h

theorem State.reg_sendOver (s : State) (q d : Nat) (p : BnetPacket) : (s.sendOver q d p).reg n i j = s.reg n i j := by
  unfold State.sendOver
  split
  · simp [h.symm]
  · rfl

theorem State.reg_serveOut {s t : State} {q d : Nat} (ht : s.serveOut q d = some t) : t.reg n i j = s.reg n i j := by
  unfold State.serveOut at ht
  dsimp only at ht
  split at ht
  · cases ht
  · split at ht
    · cases ht
    next p rest _ =>
      have hpop (k m : Nat) : ((s.setBnetBuf q k rest).modSquare q
          (fun v => { v with bnetNext := Sparse.nset 0 v.bnetNext d m })).reg n i j = s.reg n i j := rfl
      split at ht <;> cases ht
      · split
        · exact hpop ..
        · exact (State.reg_modSquare ..).trans (hpop ..)
      · exact (State.reg_sendOver h ..).trans (hpop ..)

theorem State.reg_serveFor (s : State) (q k : Nat) : (s.serveFor q k).reg n i j = s.reg n i j := by
  induction k generalizing s with
  | zero => rfl
  | succ k ih =>
    have hrefill := State.reg_of_regs (s.refill_regs q) n i j
    unfold State.serveFor
    dsimp only
    split
    · next t ht =>
      obtain ⟨d, -, hd⟩ := List.exists_of_findSome?_eq_some ht
      exact (ih t).trans ((State.reg_serveOut h i j hd).trans hrefill)
    · exact hrefill

/-- A packet that leaves a square moves no register but the counts of bytes sent. -/
theorem State.reg_injectBnet (s : State) (q : Nat) (p : BnetPacket) : (s.injectBnet q p).reg n i j = s.reg n i j := by
  unfold State.injectBnet
  split
  · exact State.reg_modSquare ..
  · exact (State.reg_foldl (fun s m => State.reg_serveFor h i j s m _) ..).trans (State.reg_serveFor h ..)

end

/-! A compute-die reset (R441) -/

/-- The registers that a compute-die reset may move: the die's own status and counters, and the counts of its square's answers to lines that
waited there. -/
def dieResetRegs : List RegName := [.sqCtr, .sqNext, .mxStatus, .vxStatus, .mxFlags, .vxFlags, .sqStatus, .bnResetErr, .bnTxBytes]

@[simp] theorem State.setArrival_regs (s : State) (p i : Nat) : (s.setArrival p i).regs = s.regs := rfl

theorem State.inReset_setArrival (s : State) (p i : Nat) : ((s.setArrival p i).die i).inReset = (s.die i).inReset := by
  simp [State.setArrival]

theorem State.reg_resetDie {n : RegName} (h : n ∉ dieResetRegs) (s : State) (i k l : Nat) : (s.resetDie i).reg n k l = s.reg n k l := by
  simp only [dieResetRegs, List.mem_cons, List.not_mem_nil, or_false, not_or] at h
  obtain ⟨hctr, hnext, hmx, hvx, hmxf, hvxf, hstatus, herr, htx⟩ := h
  unfold State.resetDie
  extract_lets s1 s2 s3 s4 s5 q s6 s7 on s8
  -- Each stage is closed before the next is compared with it: the stages seen through would be evaluated whole.
  have h2 : s2.reg n k l = s.reg n k l := State.reg_of_regs rfl n k l
  clear_value s2
  have h3 : s3.reg n k l = s2.reg n k l := State.reg_foldl (fun s m => by simp [Ne.symm hctr]) ..
  clear_value s3
  have h4 : s4.reg n k l = s3.reg n k l := by simp [s4, Ne.symm hnext, Ne.symm hmx, Ne.symm hvx, Ne.symm hmxf, Ne.symm hvxf]
  clear_value s4
  have h5 : s5.reg n k l = s4.reg n k l := by simp [s5, Ne.symm hstatus]
  clear_value s5
  have h6 : s6.reg n k l = s5.reg n k l :=
    State.reg_foldl (fun s m => (State.reg_injectBnet htx ..).trans (by simp [Ne.symm herr])) ..
  have h8 : s8.reg n k l = s.reg n k l := (State.reg_of_regs rfl n k l).trans (h6.trans (h5.trans (h4.trans (h3.trans h2))))
  clear_value s8
  split
  · exact (State.reg_of_regs (State.setArrival_regs ..) n k l).trans h8
  · exact h8

theorem State.siteEnabled_of_reg {s t : State} (hlo : t.reg .refSamLo = s.reg .refSamLo) (hhi : t.reg .refSamHi = s.reg .refSamHi) (i : Nat) :
    t.siteEnabled i = s.siteEnabled i := by
  simp only [State.siteEnabled, State.flag, hlo, hhi]

/-- After its reset a die runs just where its site is ENABLED (R441). -/
theorem State.inReset_resetDie (s : State) (i : Nat) : ((s.resetDie i).die i).inReset = !s.siteEnabled i := by
  have hlo : (s.resetDie i).reg .refSamLo = s.reg .refSamLo := State.reg_resetDie (by decide) ..
  have hhi : (s.resetDie i).reg .refSamHi = s.reg .refSamHi := State.reg_resetDie (by decide) ..
  rw [← State.siteEnabled_of_reg hlo hhi]
  unfold State.resetDie
  extract_lets s1 s2 s3 s4 s5 q s6 s7 on s8
  have hon : s8.siteEnabled i = on := State.siteEnabled_of_reg (State.reg_setDie ..) (State.reg_setDie ..) i
  have h8 : (s8.die i).inReset = !s8.siteEnabled i := by rw [hon]; simp [s8]
  clear_value s8
  split
  · next p _ =>
    have harr : (s8.setArrival p i).siteEnabled i = s8.siteEnabled i :=
      State.siteEnabled_of_reg (State.reg_modDie ..) (State.reg_modDie ..) i
    rw [State.inReset_setArrival, harr, h8]
  · exact h8

/-! Out of service (R36), calibration (R77) and fences (R422) -/

theorem State.siteOut_setSiteOut {i : Nat} (h : i < 104) (s : State) (b : Bool) : (s.setSiteOut i b).siteOut i = b := by
  unfold State.setSiteOut State.siteOut
  split
  · next hlo => simp [State.flag_setFlag _ _ _ _ _ _ _ hlo]
  · simp [State.flag_setFlag _ _ _ _ _ _ _ (show i - 64 < 64 by omega)]

@[simp] theorem State.setSiteOut_dies (s : State) (i : Nat) (b : Bool) : (s.setSiteOut i b).dies = s.dies := by
  unfold State.setSiteOut; split <;> rfl

theorem State.die_of_dies {s t : State} (h : t.dies = s.dies) (i : Nat) : t.die i = s.die i := by
  rw [State.die, State.die, h]

theorem State.siteOut_of_reg {s t : State} (hlo : t.reg .refOutLo = s.reg .refOutLo) (hhi : t.reg .refOutHi = s.reg .refOutHi) (i : Nat) :
    t.siteOut i = s.siteOut i := by
  simp only [State.siteOut, State.flag, hlo, hhi]

theorem Recorded.siteOut {s t : State} (h : Recorded s t) (i : Nat) : t.siteOut i = s.siteOut i :=
  State.siteOut_of_reg (h.reg .refOutLo 0 0 rfl) (h.reg .refOutHi 0 0 rfl) i

/-- A die whose crossing fails calibration is held in reset, with its REF_OUT bit set. -/
theorem State.holdDie_outcome {i : Nat} (hi : i < 104) (s : State) : ((s.holdDie i).die i).inReset = true ∧ (s.holdDie i).siteOut i = true := by
  unfold State.holdDie
  extract_lets s1 s2
  have hrec : Recorded s2 (s2.event7F .error (s2.siteOwner i) 0 (if i < 64 then .refOutLo else .refOutHi) 0 0 (leBytes 4 i)) :=
    Recorded.event7F ..
  refine ⟨?_, ?_⟩
  · rw [State.die_of_dies (hrec.dies.trans (State.setSiteOut_dies ..)) i]
    simp
  · exact (hrec.siteOut i).trans (State.siteOut_setSiteOut hi ..)

theorem State.calibrateDie_of_mem {i : Nat} {f : TestFindings} (hi : i < 104) (h : i ∈ f.dies) (s : State) :
    ((s.calibrateDie i f).die i).inReset = true ∧ (s.calibrateDie i f).siteOut i = true := by
  simp only [State.calibrateDie, if_pos h]
  exact State.holdDie_outcome hi _

/-- Calibration that finds no fault leaves the die as it stands. -/
theorem State.calibrateDie_of_not_mem {i : Nat} {f : TestFindings} (h : i ∉ f.dies) (s : State) :
    (s.calibrateDie i f).dies = s.dies ∧ (s.calibrateDie i f).siteOut i = s.siteOut i := by
  unfold State.calibrateDie
  generalize dieLat = lat
  rw [if_neg h]
  exact ⟨(State.setFlag_dies ..).trans (State.setReg_dies ..), State.siteOut_of_reg (by simp) (by simp) i⟩

theorem State.fencePartition_dies (s : State) (p cause : Nat) : (s.fencePartition p cause).dies = s.dies := by
  unfold State.fencePartition
  split
  · rfl
  · exact (State.setReg_dies ..).trans ((State.bump_dies ..).trans ((State.setField_dies ..).trans (State.setFlag_dies ..)))

theorem State.siteOut_fencePartition (s : State) (p cause i : Nat) : (s.fencePartition p cause).siteOut i = s.siteOut i := by
  unfold State.fencePartition
  split
  · rfl
  · exact State.siteOut_of_reg (by simp) (by simp) i

/-! The test of a die in service (R442) -/

/-- A die after its reset and its calibration: the REF_OUT bit of one that is not fenced ends with the reset (R77). -/
def State.retestDie (s : State) (i : Nat) (f : TestFindings) : State :=
  (if (s.die i).fenced then s.resetDie i else (s.resetDie i).setSiteOut i false).calibrateDie i f

theorem State.retestDie_of_not_mem {s : State} {i : Nat} {f : TestFindings} (hi : i < 104) (hfenced : (s.die i).fenced = false) (h : i ∉ f.dies) :
    ((s.retestDie i f).die i).inReset = (!s.siteEnabled i) ∧ (s.retestDie i f).siteOut i = false := by
  obtain ⟨hdies, hout⟩ := State.calibrateDie_of_not_mem h ((s.resetDie i).setSiteOut i false)
  simp only [State.retestDie, hfenced, Bool.false_eq_true, if_false]
  refine ⟨?_, hout.trans (State.siteOut_setSiteOut hi ..)⟩
  rw [State.die_of_dies (hdies.trans (State.setSiteOut_dies ..)), State.inReset_resetDie]

/-- What a test of a die in service leaves it in: a fence stays (R424), and a fence or a REF_OUT bit holds it in reset. -/
def State.holdTested (s : State) (i : Nat) (fenced : Bool) : State :=
  s.modDie i (fun d => { d with fenced := fenced, inReset := d.inReset || fenced || s.siteOut i })

/-- The partition of an ENABLED site that is out of service is fenced (R422). -/
def State.fenceOwner (s : State) (i : Nat) : State :=
  match s.siteOwner i with
  | some p => if s.siteOut i ∧ s.siteEnabled i then s.fencePartition p 0 else s
  | none => s

theorem State.fenceOwner_dies (s : State) (i : Nat) : (s.fenceOwner i).dies = s.dies := by
  unfold State.fenceOwner
  split
  · split
    · exact State.fencePartition_dies ..
    · rfl
  · rfl

theorem State.siteOut_fenceOwner (s : State) (i k : Nat) : (s.fenceOwner i).siteOut k = s.siteOut k := by
  unfold State.fenceOwner
  split
  · split
    · exact State.siteOut_fencePartition ..
    · rfl
  · rfl

/-- COMPUTE_DIE_RESET of a site whose partition has no book. -/
theorem execComputeDieReset_of_allowed {s : State} {i p : Nat} (f : TestFindings) (hup : s.up = true) (howner : s.siteOwner i = some p)
    (hbook : s.bookLoaded p = false) :
    execComputeDieReset i f s = .next (((s.retestDie i f).holdTested i (s.die i).fenced).fenceOwner i) := by
  simp only [execComputeDieReset, hup, howner, hbook]
  rfl

/-! Retraining in service (R448, R449) -/

theorem State.stackOwner_of_reg {s t : State} (h : ∀ p, t.reg .ptRegions p = s.reg .ptRegions p) (k : Nat) : t.stackOwner k = s.stackOwner k := by
  simp only [State.stackOwner, State.owner, State.regionOwner, h]

/-- A retrain of a channel waits for its partition's resources. -/
def State.awaitRetrain (s : State) (p k c : Nat) : State :=
  s.modPart p (fun v => { v with retrains := if (k, c) ∈ v.retrains then v.retrains else v.retrains ++ [(k, c)] })

theorem State.mem_retrains_awaitRetrain (s : State) (p k c : Nat) : (k, c) ∈ ((s.awaitRetrain p k c).part p).retrains := by
  simp only [State.awaitRetrain, State.part_modPart, if_true]
  split
  · assumption
  · simp

/-- A book in a turn that is no maintenance turn keeps its resources, before and after a retrain waits for them. -/
theorem State.mayRetrain_awaitRetrain {s : State} {p : Nat} (hbook : s.bookLoaded p = true) (hmaint : (s.part p).maintTurn = false) (k c : Nat) :
    (s.awaitRetrain p k c).mayRetrain p = false := by
  have hbook' : (s.awaitRetrain p k c).bookLoaded p = true := by
    simpa [State.bookLoaded, State.awaitRetrain] using hbook
  have hmaint' : ((s.awaitRetrain p k c).part p).maintTurn = false := by
    simp [State.awaitRetrain, hmaint]
  simp [State.mayRetrain, hbook', hmaint']

section
variable {s : State} {k c : Nat} (hk : k < 48) (hc : c < 36)
include hk hc

/-- DRAM_RETRAIN of a stack that no partition owns trains the channel at once. -/
theorem execDramRetrain_of_unowned (hup : s.up = true) (howner : s.stackOwner k = none) (hquiet : s.stackQuiet k = true) (urgent : Bool) :
    execDramRetrain k c urgent s = .next (s.trainChannel k c) := by
  simp [execDramRetrain, hup, howner, hquiet, Nat.not_le.2 hk, Nat.not_le.2 hc]

/-- DRAM_RETRAIN of a stack that a loaded book uses waits for a maintenance turn. -/
theorem execDramRetrain_of_booked {p : Nat} (hup : s.up = true) (howner : s.stackOwner k = some p) (hbook : s.bookLoaded p = true)
    (hmaint : (s.part p).maintTurn = false) : execDramRetrain k c false s = .next (s.awaitRetrain p k c) := by
  have hmay := State.mayRetrain_awaitRetrain hbook hmaint k c
  unfold State.awaitRetrain at hmay ⊢
  simp [execDramRetrain, hup, howner, hmay, Nat.not_le.2 hk, Nat.not_le.2 hc]

/-- DRAM_RETRAIN_COMPLETE of a channel in a stack that no partition owns ends the training and counts it. -/
theorem execDramRetrainComplete_of_unowned (htrains : s.flag .mcTrainStatus k 0 c = true) (howner : s.stackOwner k = none) :
    execDramRetrainComplete k c true s = .next ((s.setFlag .mcTrainStatus k 0 c false).bump .mcRetrains k) := by
  have howner' : ((s.setFlag .mcTrainStatus k 0 c false).bump .mcRetrains k).stackOwner k = none :=
    (State.stackOwner_of_reg (by simp) k).trans howner
  simp [execDramRetrainComplete, htrains, howner', Nat.not_le.2 hk, Nat.not_le.2 hc]

end

theorem State.flag_trainChannel {c : Nat} (hc : c < 36) (s : State) (k : Nat) : (s.trainChannel k c).flag .mcTrainStatus k 0 c = true := by
  rw [State.trainChannel, State.flag_setFlag _ _ _ _ _ _ _ (by omega), if_pos rfl]

theorem State.flag_setFlag_bump {n m : RegName} (h : m ≠ n) {b : Nat} (hb : b < 64) (s : State) (i j k l : Nat) (x : Bool) :
    ((s.setFlag n i j b x).bump m k l).flag n i j b = x := by
  rw [State.flag, State.reg_bump, if_neg (fun e => h e.1), ← State.flag, State.flag_setFlag _ _ _ _ _ _ _ hb, if_pos rfl]

theorem execMaintenanceTurn_of_play {s : State} {p : Nat} (hmaint : (s.part p).maintTurn = true) (hplay : (s.part p).stage = .play) :
    execMaintenanceTurn p s = .next (((s.startRetrains p).partQuads p).foldl
      (fun s n => if (s.quad n).maintWanted ∧ s.quadIsUp n then s.leaveUp n else s) (s.startRetrains p)) := by
  simp [execMaintenanceTurn, hmaint, hplay]

/-! The test of a reserve site (R35) -/

section
variable {s : State} {i : Nat} (hup : s.up = true) (hreserve : s.siteState i = .reserve) (l : List (Nat × Nat))
include hup hreserve

theorem execReserveSelfTest_of_retired (h : Sparse.nfind ((s.resetDie i).selfTest i l).flash.sitesNext i = some .retired) :
    let u := (s.resetDie i).selfTest i l
    execReserveSelfTest i l s =
      .next ((({ u with flash := { u.flash with sitesNext := Sparse.ndrop u.flash.sitesNext i } } : State).setSiteState i .retired).publishSam []) := by
  simp [execReserveSelfTest, hup, hreserve, h]

theorem execReserveSelfTest_of_good (h : Sparse.nfind ((s.resetDie i).selfTest i l).flash.sitesNext i ≠ some .retired) :
    execReserveSelfTest i l s = .next ((s.resetDie i).selfTest i l) := by
  simp [execReserveSelfTest, hup, hreserve, h]

end

/-- COMPUTE_DIE_RESET: the die keeps its fence, and runs after the test just where nothing holds it. -/
theorem computeDieReset_outcome {s : State} {i p : Nat} (f : TestFindings) (hup : s.up = true) (hi : i < 104) (howner : s.siteOwner i = some p)
    (hbook : s.bookLoaded p = false) :
    ∃ t : State, execComputeDieReset i f s = .next t ∧ (t.die i).fenced = (s.die i).fenced ∧
      ((s.die i).fenced = true ∨ i ∈ f.dies → (t.die i).inReset = true) ∧
      ((s.die i).fenced = false → (t.siteOut i = true ↔ i ∈ f.dies)) ∧
      ((s.die i).fenced = false → i ∉ f.dies → s.siteEnabled i = true → (t.die i).inReset = false) := by
  refine ⟨_, execComputeDieReset_of_allowed f hup howner hbook, ?_⟩
  have hout : (((s.retestDie i f).holdTested i (s.die i).fenced).fenceOwner i).siteOut i = (s.retestDie i f).siteOut i :=
    (State.siteOut_fenceOwner ..).trans (State.siteOut_of_reg (State.reg_modDie ..) (State.reg_modDie ..) i)
  rw [hout, State.die_of_dies (State.fenceOwner_dies ..)]
  simp only [State.holdTested, State.die_modDie, if_true, true_and]
  by_cases hmem : i ∈ f.dies
  · obtain ⟨hreset, hbit⟩ : ((s.retestDie i f).die i).inReset = true ∧ (s.retestDie i f).siteOut i = true := State.calibrateDie_of_mem hi hmem _
    simp [hreset, hbit, hmem]
  · refine ⟨fun h => ?_, fun hf => ?_, fun hf _ hon => ?_⟩
    · simp [h.resolve_right hmem]
    · simp [(State.retestDie_of_not_mem hi hf hmem).2, hmem]
    · obtain ⟨hreset, hbit⟩ := State.retestDie_of_not_mem hi hf hmem
      simp [hreset, hbit, hf, hon]

/-- Settles O49, row by row. -/
theorem retrainAndTest : Obligations.RetrainAndTest := by
  intro s
  refine ⟨fun k c urgent hup hk hc howner hquiet => ?_, fun k c p hup hk hc howner hbook hmaint => ?_, fun k c hk hc htrains howner => ?_,
    fun p hmaint hplay => execMaintenanceTurn_of_play hmaint hplay,
    fun i p f hup hi howner hbook => computeDieReset_outcome f hup hi howner hbook,
    fun i l hup hreserve => ⟨execReserveSelfTest_of_retired hup hreserve l, execReserveSelfTest_of_good hup hreserve l⟩⟩
  · exact ⟨_, execDramRetrain_of_unowned hk hc hup howner hquiet urgent, State.flag_trainChannel hc s k, State.setFlag_mem ..⟩
  · exact ⟨_, execDramRetrain_of_booked hk hc hup howner hbook hmaint, s.mem_retrains_awaitRetrain p k c, State.modPart_regs ..⟩
  · exact ⟨_, execDramRetrainComplete_of_unowned hk hc htrains howner, State.flag_setFlag_bump (by decide) (by omega) .., by simp⟩

end Sys2Proof.Machine
end

section
/-! SUPPORT. DRAM lines (chapters 2 and 14): the code of a line that is read clean or with one position in error, and a whole line written. -/

namespace Sys2Proof.Machine

/-! Multiplication by α (R380) -/

/-- Division by α: what undoes a step of timesAlpha. -/
def divAlpha (y : Byte) : Byte := if y.getLsbD 0 then ((y ^^^ 0x1D) >>> 1) ||| 0x80 else y >>> 1

theorem divAlpha_timesAlpha : ∀ x : Byte, divAlpha (timesAlpha x) = x := by decide

theorem timesAlpha_injective : Function.Injective timesAlpha := Function.LeftInverse.injective divAlpha_timesAlpha

theorem timesAlphaPow_add (x : Byte) (m n : Nat) : timesAlphaPow x (m + n) = timesAlphaPow (timesAlphaPow x m) n := by
  induction n with
  | zero => rfl
  | succ n ih => exact congrArg timesAlpha ih

theorem timesAlphaPow_injective (n : Nat) : Function.Injective (timesAlphaPow · n) := by
  induction n with
  | zero => exact fun _ _ h => h
  | succ n ih => exact timesAlpha_injective.comp ih

@[simp] theorem timesAlphaPow_zero_left (n : Nat) : timesAlphaPow 0#8 n = 0#8 := by
  induction n with
  | zero => rfl
  | succ n ih => rw [timesAlphaPow, ih]; rfl

theorem timesAlphaPow_ne_zero {e : Byte} (he : e ≠ 0#8) (n : Nat) : timesAlphaPow e n ≠ 0#8 := fun h =>
  he (timesAlphaPow_injective n (h.trans (timesAlphaPow_zero_left n).symm))

/-- No power of α below the length of the code fixes a nonzero byte. -/
theorem timesAlphaPow_ne_self : ∀ e : Byte, e ≠ 0#8 → ∀ k < 17, timesAlphaPow e (k + 1) ≠ e := by decide +kernel

/-- The powers of α below the length of the code take a nonzero byte to bytes that differ. -/
theorem timesAlphaPow_inj {e : Byte} (he : e ≠ 0#8) {m n : Nat} (hm : m < 18) (hn : n < 18) (h : timesAlphaPow e m = timesAlphaPow e n) : m = n := by
  wlog hlt : m < n generalizing m n
  · rcases Nat.lt_or_ge n m with h' | h'
    · exact (this hn hm h.symm h').symm
    · exact Nat.le_antisymm h' (Nat.not_lt.1 hlt)
  obtain ⟨k, rfl⟩ := Nat.exists_eq_add_of_lt hlt
  rw [show m + k + 1 = (k + 1) + m by omega, timesAlphaPow_add] at h
  exact absurd (timesAlphaPow_injective m h).symm (timesAlphaPow_ne_self e he k (by omega))

/-! Columns and lines (R381 to R383) -/

/-- The syndromes of a single error locate its position. -/
theorem located_single {e : Byte} (he : e ≠ 0#8) {p : Nat} (hp : p < 18) : located e (timesAlphaPow e (17 - p)) = some p := by
  have hfind : (List.range 18).find? (fun n => decide (timesAlphaPow e n = timesAlphaPow e (17 - p))) = some (17 - p) := by
    rw [List.find?_range_eq_some]
    refine ⟨by simp, by simp; omega, fun j hj => ?_⟩
    simpa using fun h => absurd (timesAlphaPow_inj he (by omega) (by omega) h) (by omega)
  rw [located, if_neg (by simp [he, timesAlphaPow_ne_zero he]), hfind]
  simp only [Option.map_some, Option.some.injEq]
  omega

/-- A column with one symbol in error is corrected at its position, and differs by nothing afterwards. -/
theorem decodeColumn_single {e : Byte} (he : e ≠ 0#8) {p : Nat} (hp : p < 18) : decodeColumn none [(p, e)] = .corrected p [(p, e), (p, e)] := by
  simp [decodeColumn, syndromes, he, located_single he hp]

/-- A column read as it was stored decodes with nothing to add, erased position or not. -/
theorem decodeColumn_clean (erased : Option Nat) : ∃ l, decodeColumn erased [] = .good l ∧ ∀ x ∈ l, x.2 = 0#8 := by
  cases erased with
  | none => exact ⟨[], rfl, by simp⟩
  | some p => exact ⟨[(p, 0#8)], by simp [decodeColumn, syndromes], by simp⟩

/-- Adding zeros to a line changes no byte. -/
theorem addErrors_of_zero {l : List (Nat × Nat × Byte)} (h : ∀ x ∈ l, x.2.2 = 0#8) (data : List Byte) : addErrors data l = data := by
  induction l generalizing data with
  | nil => rfl
  | cons x l ih =>
    obtain ⟨p, c, e⟩ := x
    obtain ⟨he, hl⟩ := List.forall_mem_cons.1 h
    have hid : (fun x : Byte => x ^^^ 0#8) = id := funext fun x => by simp
    simp only at he
    subst he
    refine Eq.trans ?_ (ih hl data)
    simp only [addErrors, List.foldl_cons, hid, List.modify_id, ite_self]

/-- An error and its correction cancel. -/
theorem addErrors_twice (data : List Byte) (p c : Nat) (e : Byte) : addErrors data [(p, c, e), (p, c, e)] = data := by
  have hid : ((fun x : Byte => x ^^^ e) ∘ fun x => x ^^^ e) = id := funext fun x => by simp
  by_cases hp : p < 16 <;> simp [addErrors, hp, List.modify_modify_eq, hid, List.modify_id]

/-- A line read as it was stored is delivered as it was stored. -/
theorem decodeLine_clean (erased : Option Nat) (data : List Byte) : decodeLine erased data [] = .line data none := by
  obtain ⟨l, hl, hzero⟩ := decodeColumn_clean erased
  have hleft : ∀ x ∈ (List.range 64).flatMap (fun c => l.map (fun y => (y.1, c, y.2))), x.2.2 = 0#8 := by
    simp only [List.mem_flatMap, List.mem_map]
    rintro x ⟨c, -, y, hy, rfl⟩
    exact hzero y hy
  simpa [decodeLine, hl, List.flatMap_map] using addErrors_of_zero hleft data

/-- A number below n stands once in the list of those numbers. -/
theorem range_split {c n : Nat} (h : c < n) : ∃ l r : List Nat, List.range n = l ++ c :: r ∧ c ∉ l ∧ c ∉ r := by
  obtain ⟨l, r, e⟩ := List.append_of_mem (List.mem_range.2 h)
  have hnd : (l ++ c :: r).Nodup := e ▸ List.nodup_range
  simp only [List.nodup_append, List.nodup_cons] at hnd
  exact ⟨l, r, e, fun hc => hnd.2.2 c hc c (List.mem_cons_self ..) rfl, hnd.2.1.1⟩

/-- What column c of a line decodes to. -/
def columnOf (erased : Option Nat) (errors : List (Nat × Nat × Byte)) (c : Nat) : Column :=
  decodeColumn erased ((errors.filter (fun x => decide (x.2.1 = c))).map (fun x => (x.1, x.2.2)))

/-- Of a line with one symbol in error, its column is corrected and the others are good. -/
theorem columnOf_single {e : Byte} (he : e ≠ 0#8) {p : Nat} (hp : p < 18) (c c' : Nat) :
    columnOf none [(p, c, e)] c' = if c = c' then .corrected p [(p, e), (p, e)] else .good [] := by
  by_cases h : c = c'
  · simp [columnOf, h, decodeColumn_single he hp]
  · simp [columnOf, h, decodeColumn, syndromes]

/-- A line with one symbol in error is delivered as it was stored, with the position that was corrected. -/
theorem decodeLine_single {e : Byte} (he : e ≠ 0#8) {p c : Nat} (hp : p < 18) (hc : c < 64) (data : List Byte) :
    decodeLine none data [(p, c, e)] = .line data (some (p, 1)) := by
  obtain ⟨l, r, hsplit, hl, hr⟩ := range_split hc
  have hgood (m : List Nat) (hm : c ∉ m) :
      m.map (fun c' => (c', columnOf none [(p, c, e)] c')) = m.map (fun c' => (c', Column.good [])) :=
    List.map_congr_left fun c' hc' => by rw [columnOf_single he hp, if_neg (ne_of_mem_of_not_mem hc' hm).symm]
  have hcols : (List.range 64).map (fun c' => (c', columnOf none [(p, c, e)] c')) =
      l.map (fun c' => (c', .good [])) ++ (c, .corrected p [(p, e), (p, e)]) :: r.map (fun c' => (c', .good [])) := by
    rw [hsplit, List.map_append, List.map_cons, hgood l hl, hgood r hr, columnOf_single he hp, if_pos rfl]
  have hnil (m : List Nat) : m.flatMap (fun _ => ([] : List (Nat × Nat × Byte))) = [] := List.flatMap_eq_nil_iff.2 fun _ _ => rfl
  unfold decodeLine
  extract_lets cols bads hits left
  have hcols' : cols = _ := hcols
  simp [bads, hits, left, hcols', List.flatMap_map, hnil, addErrors_twice, show [p].eraseDups = [p] from rfl]

/-! Reads (R46, R382 to R384) -/

/-- A read of a DRAM line that its side does not hold, and that decodes, is answered with the bytes that the code delivers. -/
theorem execDramRead_of_line {s : State} {addr : Addr} {errors : List (Nat × Nat × Byte)} {r : Requester} {data : List Byte}
    {at_ : Option (Nat × Nat)} (hdram : inDram addr.toNat = true) (hheld : s.holdsLine false (addr.toNat / 1024) = false)
    (hclean : (s.applyFill (addr.toNat / 1024)).linePoisoned (addr.toNat / 1024) = false)
    (hline : decodeLine ((s.applyFill (addr.toNat / 1024)).erasedOf (stackOf (1024 * (addr.toNat / 1024))))
      ((s.applyFill (addr.toNat / 1024)).bytes (1024 * (addr.toNat / 1024)) 1024) errors = .line data at_) :
    execDramRead addr errors false r s = .next (match at_ with
      | none => ((s.applyFill (addr.toNat / 1024)).landLine false (addr.toNat / 1024) data false).answered (.ok data)
      | some (p, n) => (((s.applyFill (addr.toNat / 1024)).landLine false (addr.toNat / 1024) data true).correctedLine
          (addr.toNat / 1024) p n).answered (.ok data)) := by
  simp only [execDramRead, hdram, hheld, hclean, hline]
  cases at_ <;> rfl

/-- Settles O31: a line decodes to what is stored, read clean or with one position in error. -/
theorem dramCommands : Obligations.DramCommands := by
  intro s addr r hdram line k u hheld hclean
  refine ⟨execDramRead_of_line hdram hheld hclean (decodeLine_clean ..), fun p c e hp hc he herased => ?_⟩
  exact execDramRead_of_line hdram hheld hclean (at_ := some (p, 1)) (herased ▸ decodeLine_single he hp hc _)

/-! Whole lines written (R46) -/

theorem State.setBytes_append (s : State) (a : Nat) (l m : List Byte) : s.setBytes a (l ++ m) = (s.setBytes a l).setBytes (a + l.length) m := by
  induction l generalizing s a with
  | nil => rfl
  | cons b l ih => simp only [List.cons_append, State.setBytes, ih, List.length_cons, Nat.add_assoc, Nat.add_comm 1]

theorem padTo_of_length {n : Nat} {l : List Byte} (h : l.length = n) : padTo n l = l := by
  simp [padTo, h]

/-- The blocks of a line put back in order are its bytes in a row. -/
theorem State.putBlocks_eq_setBytes (s : State) (line n : Nat) (d : List Byte) (h : 64 * n ≤ d.length) :
    (List.range n).foldl (fun s k => s.putBlock (16 * line + k) ((d.drop (64 * k)).take 64)) s = s.setBytes (1024 * line) (d.take (64 * n)) := by
  induction n with
  | zero => rfl
  | succ n ih =>
    have hlen : ((d.drop (64 * n)).take 64).length = 64 := by simp; omega
    have hfront : (d.take (64 * n)).length = 64 * n := by simp; omega
    rw [List.range_succ, List.foldl_append, ih (by omega), show 64 * (n + 1) = 64 * n + 64 by omega, List.take_add, State.setBytes_append, hfront]
    simp only [List.foldl_cons, List.foldl_nil, State.putBlock, padTo_of_length hlen, show 64 * (16 * line + n) = 1024 * line + 64 * n by omega]

/-- A whole clean line written back holds its bytes, and nothing else of memory moves. -/
theorem State.byte_writeBackLine_whole (s : State) (line : Nat) {d : List Byte} (h : d.length = 1024) (a : Nat) :
    (s.writeBackLine line { dirty := List.range 16, bad := [], data := d }).byte a = (s.setBytes (1024 * line) d).byte a := by
  have hput := s.putBlocks_eq_setBytes line 16 d (by omega)
  rw [List.take_of_length_le (by omega)] at hput
  rw [← hput]
  rfl

/-- Settles O32: the line written back is the bytes given, in a row. -/
theorem dramWriteStores : Obligations.DramWriteStores := by
  intro s addr bytes hdram hlen base u
  have hbase : base = 1024 * (addr.toNat / 1024) := Nat.mul_comm ..
  refine ⟨u.writeBackLine (addr.toNat / 1024) { dirty := List.range 16, bad := [], data := bytes }, ?_, fun j hj => ?_, fun a ha => ?_⟩
  · change execDramWrite addr bytes [] s = _
    simp only [execDramWrite, hdram, padTo_of_length hlen]
    rfl
  · rw [State.byte_writeBackLine_whole _ _ hlen, hbase, State.byte_setBytes]
  · rw [State.byte_writeBackLine_whole _ _ hlen, State.byte_setBytes_ne _ _ _ _ (by omega)]

end Sys2Proof.Machine
end

section
/-! SUPPORT. SRAM and fills (chapters 2 and 14): which registers a completion may move (chapter 9), what is left of an evicted line, and the outcome of
a leak, of the end of a zeroing and of a fill. -/

namespace Sys2Proof.Machine

/-! What a host-side write leaves -/

theorem State.regs_foldl {α : Type} {f : State → α → State} (h : ∀ s a, (f s a).regs = s.regs) (l : List α) (s : State) :
    (l.foldl f s).regs = s.regs := by
  induction l generalizing s with
  | nil => rfl
  | cons a l ih => exact (ih _).trans (h s a)

@[simp] theorem State.breakReservations_regs (s : State) (ok : Nat → Bool) : (s.breakReservations ok).regs = s.regs :=
  State.regs_foldl (fun s h => by split <;> rfl) _ s

@[simp] theorem State.fillLines_regs (s : State) (first count : Nat) : (s.fillLines first count).regs = s.regs := by
  simp [State.fillLines]

@[simp] theorem State.applyFill_regs (s : State) (line : Nat) : (s.applyFill line).regs = s.regs := by
  unfold State.applyFill
  split
  · simp only [State.fillLines_regs]
  · rfl

@[simp] theorem State.cleanHart_regs (s : State) (h b : Nat) : (s.cleanHart h b).regs = s.regs := by
  unfold State.cleanHart
  split
  · split <;> rfl
  · rfl

@[simp] theorem State.gather_regs (s : State) (b : Nat) : (s.gather b).regs = s.regs := State.regs_foldl (fun s h => s.cleanHart_regs h b) _ s

@[simp] theorem State.dropHart_regs (s : State) (h b : Nat) : (s.dropHart h b).regs = s.regs := rfl

@[simp] theorem State.evictDirectory_regs (s : State) (b : Nat) : (s.evictDirectory b).regs = s.regs :=
  (State.regs_foldl (fun s h => s.dropHart_regs h b) _ _).trans (s.gather_regs b)

@[simp] theorem State.putHsc_regs (s : State) (b : Nat) (c : CacheCopy) : (s.putHsc b c).regs = s.regs := rfl

@[simp] theorem State.hostWriteBlock_regs (s : State) (b off : Nat) (d : List Byte) : (s.hostWriteBlock b off d).regs = s.regs := by
  unfold State.hostWriteBlock
  dsimp only
  split <;> simp

/-- A write of DRAM by a host-side requester leaves every register. -/
@[simp] theorem State.hostWrite_regs (s : State) (a : Nat) (d : List Byte) : (s.hostWrite a d).regs = s.regs :=
  State.regs_foldl (fun _ _ => State.hostWriteBlock_regs ..) _ s

/-! What a completion leaves (chapter 9) -/

/-- The registers that the completion of a command may move, beside the event recorder's: the producer index of its ring, and two counters. -/
def completionRegs : List RegName := [.mbRingCqProd, .stFullRefused, .hdMsiDrop]

section
variable {n : RegName} (hn : n ∉ completionRegs) (hrec : n.ofRecorder = false) (i j : Nat)
include hn hrec

theorem State.reg_sendMsi (s : State) (part : Option Nat) (block source addr : Nat) (data : BitVec 32) :
    (s.sendMsi part block source addr data).reg n i j = s.reg n i j := by
  have hevent : (s.event block 0x02 .warning part source (leBytes 8 addr)).reg n i j = s.reg n i j := (Recorded.event ..).reg n i j hrec
  have hne : RegName.hdMsiDrop ≠ n := fun e => hn (by simp [completionRegs, e])
  unfold State.sendMsi
  split
  · split
    · split
      · unfold State.setPending; split <;> rfl
      · simp [hne]
    · exact hevent
  · exact hevent

theorem State.reg_ringMsi (s : State) (p r : Nat) : (s.ringMsi p r).reg n i j = s.reg n i j := State.reg_sendMsi hn hrec ..

theorem State.reg_notifyRing (s : State) (p r : Nat) : (s.notifyRing p r).reg n i j = s.reg n i j := by
  unfold State.notifyRing
  dsimp only
  split
  · split
    · exact State.reg_ringMsi hn hrec ..
    · rfl
  · exact State.reg_ringMsi hn hrec ..

theorem State.reg_writeCompletion (s : State) (p r : Nat) (opcode : BitVec 16) (st : Status) (replay : Bool) (c : Cmd) (turn : Option Word)
    (result : List Byte) : (s.writeCompletion p r opcode st replay c turn result).reg n i j = s.reg n i j := by
  have hne : RegName.mbRingCqProd ≠ n := fun e => hn (by simp [completionRegs, e])
  have hwrite (a : Nat) (d : List Byte) : (s.hostWrite a d).reg n i j = s.reg n i j := State.reg_of_regs (by simp) ..
  unfold State.writeCompletion
  dsimp only
  split
  · rw [State.reg_notifyRing hn hrec]
    simp [hne, hwrite]
  · simp [hne, hwrite]

theorem State.reg_completeNow (s : State) (c : Cmd) (opcode : BitVec 16) (st : Status) (replay : Bool) (turn : Option Word) (result : List Byte) :
    (s.completeNow c opcode st replay turn result).reg n i j = s.reg n i j := by
  have hne : RegName.stFullRefused ≠ n := fun e => hn (by simp [completionRegs, e])
  unfold State.completeNow
  split
  · rfl
  extract_lets r s1 s2
  have h2 : s2.reg n i j = s.reg n i j := by
    have h1 : s1.reg n i j = s.reg n i j := rfl
    unfold s2
    split
    · split
      · rwa [State.reg_bump, if_neg fun e => hne e.1]
      · exact h1
    · exact h1
  split
  · exact (State.reg_writeCompletion hn hrec ..).trans h2
  · exact h2
  · exact h2

/-- A completion leaves every register but its ring's producer index, two counters and the event recorder's. -/
theorem State.reg_complete (s : State) (c : Cmd) (opcode : BitVec 16) (st : Status) (turn : Option Word) (result : List Byte) :
    (s.complete c opcode st turn result).reg n i j = s.reg n i j := by
  unfold State.complete State.completeWith
  split
  · exact State.reg_completeNow hn hrec ..
  · rfl

theorem State.reg_completeReset (s : State) (p : Nat) (c : Cmd) (st : Status) (turn : Option Word) (result : List Byte) :
    (s.completeReset p c st turn result).reg n i j = s.reg n i j := State.reg_complete hn hrec ..

/-- The commands that complete at the end of a zeroing leave what a completion leaves. -/
theorem State.reg_zeroDone (s : State) (p : Nat) : (s.zeroDone p).reg n i j = s.reg n i j := by
  unfold State.zeroDone
  split
  · rfl
  · refine (State.reg_foldl (fun s x => ?_) ..).trans (State.reg_modPart ..)
    dsimp only
    split
    · exact State.reg_completeReset hn hrec ..
    · exact State.reg_complete hn hrec ..

end

/-! SRAM reads (R390, R391) -/

theorem State.badForRequester_status (s : State) (r : Requester) : (s.badForRequester r).answer.status = BitVec.ofNat 8 Status.uncorrectable.code := rfl

/-- A double-bit error that no cache fetches again is answered UNCORRECTABLE. -/
theorem execSramRead_double {s : State} {addr : Addr} {q : Nat} (r : Requester) (h : s.refetched (s.sramAt addr.toNat q) addr.toNat = false) :
    execSramRead addr q true r s = .next ((s.sramBad (s.sramAt addr.toNat q) addr.toNat r.square).badForRequester r) := by
  simp [execSramRead, h]

/-! Evictions (R62) -/

theorem nfind_ndrop_same {V : Type} (m : List (Nat × V)) (k : Nat) : Sparse.nfind (Sparse.ndrop m k) k = none := by
  unfold Sparse.ndrop
  induction m with
  | nil => rfl
  | cons x m ih =>
    obtain ⟨a, b⟩ := x
    simp only [Sparse.drop, id]
    split
    · exact ih
    next hne => simp [Sparse.nfind, hne, ih]

theorem execGeneralLineEviction_of_dram {s : State} {addr : Addr} (h : inDram addr.toNat = true) :
    execGeneralLineEviction addr s = .next (s.evictGeneral (addr.toNat / 1024)) := by
  simp [execGeneralLineEviction, h]

/-! Fields -/

/-- A field after it is replaced by a number that fits. -/
theorem State.field_setField_same {lo k x : Nat} (hfit : lo + k ≤ 64) (hx : x < 2 ^ k) (s : State) (n : RegName) (i j : Nat) :
    (s.setField n i j lo k x).field n i j lo k = x := by
  rw [State.field, State.reg_setField, if_pos ⟨rfl, rfl, rfl⟩, bitsAt_putBits_same _ _ _ _ hfit, Nat.mod_eq_of_lt hx]

/-- A field beside one that is replaced. -/
theorem State.field_setField_ne {lo k lo' k' : Nat} (hfit : lo' + k' ≤ 64) (hd : lo' + k' ≤ lo ∨ lo + k ≤ lo') (s : State) (n : RegName)
    (i j x : Nat) : (s.setField n i j lo k x).field n i j lo' k' = s.field n i j lo' k' := by
  rw [State.field, State.reg_setField, if_pos ⟨rfl, rfl, rfl⟩, bitsAt_putBits_ne _ _ _ _ _ _ hfit hd, ← State.field]

theorem State.field_lt (s : State) (n : RegName) (i j lo k : Nat) : s.field n i j lo k < 2 ^ k := Nat.mod_lt _ (Nat.two_pow_pos k)

/-! Leaks, banks and fills (R53, R393, R397) -/

/-- A leak takes one from the fill of its bucket, and leaves the bucket's count of overflows and every other register. -/
theorem execBucketLeak_outcome (s : State) (cls i j : Nat) :
    ∃ t : State, execBucketLeak cls i j s = .next t ∧ t.field (bucketReg cls) i j 0 16 = s.field (bucketReg cls) i j 0 16 - 1 ∧
      t.field (bucketReg cls) i j 32 16 = s.field (bucketReg cls) i j 32 16 ∧
      ∀ n x y, ¬(n = bucketReg cls ∧ x = i ∧ y = j) → t.reg n x y = s.reg n x y := by
  have hfill := s.field_lt (bucketReg cls) i j 0 16
  refine ⟨_, rfl, State.field_setField_same (by decide) (by omega) .., State.field_setField_ne (by decide) (.inr (by decide)) .., fun n x y h => ?_⟩
  rw [State.reg_setField, if_neg]
  rintro ⟨rfl, rfl, rfl⟩
  exact h ⟨rfl, rfl, rfl⟩

/-- The end of a bank's zeroing clears the bank's busy bit and leaves the others. -/
theorem execBankZeroComplete_outcome {bank : Nat} (hbank : bank < 16) (s : State) (site : Nat) :
    ∃ t : State, execBankZeroComplete site bank s = .next t ∧ t.flag .dmZeroBusy site 0 bank = false ∧
      ∀ b, b ≠ bank → b < 64 → t.flag .dmZeroBusy site 0 b = s.flag .dmZeroBusy site 0 b := by
  obtain ⟨u, hset⟩ : ∃ u, u = s.setFlag .dmZeroBusy site 0 bank false := ⟨_, rfl⟩
  have hu : ∀ b < 64, u.flag .dmZeroBusy site 0 b = if b = bank then false else s.flag .dmZeroBusy site 0 b := fun b hb =>
    hset ▸ State.flag_setFlag _ _ _ _ _ _ _ hb
  have hafter {t : State} (ht : t.reg .dmZeroBusy site 0 = u.reg .dmZeroBusy site 0) : t.flag .dmZeroBusy site 0 bank = false ∧
      ∀ b, b ≠ bank → b < 64 → t.flag .dmZeroBusy site 0 b = s.flag .dmZeroBusy site 0 b := by
    have hflag (b : Nat) : t.flag .dmZeroBusy site 0 b = u.flag .dmZeroBusy site 0 b := by rw [State.flag, ht, ← State.flag]
    exact ⟨by rw [hflag, hu _ (by omega), if_pos rfl], fun b hne hb => by rw [hflag, hu b hb, if_neg hne]⟩
  simp only [execBankZeroComplete, if_pos hbank, ← hset]
  cases u.siteOwner site with
  | none => exact ⟨u, rfl, hafter rfl⟩
  | some p => exact ⟨u.zeroDone p, rfl, hafter (State.reg_zeroDone (by decide) rfl ..)⟩

/-- Once the fills of a stack are done none is queued there. -/
theorem execReleaseFillComplete_outcome (s : State) (k : Nat) :
    ∃ t : State, execReleaseFillComplete k s = .next t ∧ ∀ x ∈ t.fills, stackOf (1024 * x.1) ≠ k :=
  ⟨_, rfl, fun _ hx => of_decide_eq_true (List.mem_filter.1 hx).2⟩

/-- Settles O33, row by row. -/
theorem sramAndFills : Obligations.SramAndFills := by
  intro s
  refine ⟨fun addr q r => rfl, fun addr q r h => ⟨_, execSramRead_double r h, State.badForRequester_status ..⟩,
    fun addr h => ⟨execGeneralLineEviction_of_dram h, nfind_ndrop_same ..⟩, fun cls i j => execBucketLeak_outcome s cls i j,
    fun site bank h => execBankZeroComplete_outcome h s site, fun k => execReleaseFillComplete_outcome s k⟩

end Sys2Proof.Machine
end

section
/-! SUPPORT. The partition.* commands (chapters 2, 9, 12, 15 and 16): which registers a change of layout may move beside CC_LAYOUT, and what each command
that is taken does. -/

namespace Sys2Proof.Machine

/-! What memory operations leave of the register file -/

@[simp] theorem State.setBytes_regs (s : State) (a : Nat) (l : List Byte) : (s.setBytes a l).regs = s.regs := by
  induction l generalizing s a with
  | nil => rfl
  | cons b l ih => exact ih ..

@[simp] theorem State.putBlock_regs (s : State) (b : Nat) (d : List Byte) : (s.putBlock b d).regs = s.regs := State.setBytes_regs ..

@[simp] theorem State.computeCopy_regs (s : State) (line : Nat) : (s.computeCopy line).1.regs = s.regs := by
  unfold State.computeCopy
  dsimp only
  split <;> simp

@[simp] theorem State.computeWriteIn_regs (s : State) (line off : Nat) (d : List Byte) : (s.computeWriteIn line off d).regs = s.regs :=
  s.computeCopy_regs line

@[simp] theorem State.computeWrite_regs (s : State) (a : Nat) (d : List Byte) : (s.computeWrite a d).regs = s.regs :=
  State.regs_foldl (fun _ _ => State.computeWriteIn_regs ..) _ s

@[simp] theorem State.sealPage_regs (s : State) (page : Nat) (turn : Word) : (s.sealPage page turn).regs = s.regs :=
  State.regs_foldl (fun s q => s.modSquare_regs q _) _ s

@[simp] theorem State.fillPage_regs (s : State) (frame : Nat) : (s.fillPage frame).regs = s.regs := by
  unfold State.fillPage State.queueFill
  dsimp only
  split
  · split <;> rfl
  · split <;> rfl

@[simp] theorem State.setParked_regs (s : State) (p : Nat) (h : Handle) (e : StreamEntry) : (s.setParked p h e).regs = s.regs := by
  unfold State.setParked State.writeRecord
  dsimp only
  split
  · exact (State.computeWrite_regs ..).trans (State.modPart_regs ..)
  · exact State.modPart_regs ..

@[simp] theorem State.setPoison_regs (s : State) (b : Nat) (x : Bool) : (s.setPoison b x).regs = s.regs := rfl

@[simp] theorem State.syncTiers_regs (s : State) (p : Nat) (h : Handle) : (s.syncTiers p h).regs = s.regs := by
  unfold State.syncTiers State.setEntryAt
  split
  · dsimp only
    split
    · exact State.setRow_regs ..
    · exact State.setParked_regs ..
  · rfl

/-! The registers that a change of layout may move -/

/-- The registers that the work of a layout change may move, beside CC_LAYOUT, ST_TAILS_FREE and the event recorder's: counts of errors and of
dropped entries, and the units lent to state. -/
def layoutRegs : List RegName := [.mcUeLines, .mcLastUe, .mcPoisonWr, .ccEccUe, .ccSealDrop, .stTcInvals, .stPinLend]

section
variable {n : RegName} (hn : n ∉ layoutRegs) (hrec : n.ofRecorder = false) (i j : Nat)

theorem State.reg_foldl_fst {α β : Type} {f : State × β → α → State × β} (h : ∀ x a, (f x a).1.reg n i j = x.1.reg n i j) (l : List α)
    (x : State × β) : (l.foldl f x).1.reg n i j = x.1.reg n i j := by
  induction l generalizing x with
  | nil => rfl
  | cons a l ih => exact (ih _).trans (h x a)

include hn

theorem ne_of_layoutReg {m : RegName} (h : m ∈ layoutRegs) : m ≠ n := fun e => hn (e ▸ h)

theorem State.reg_bump_of_layoutReg {m : RegName} (h : m ∈ layoutRegs) (s : State) (k l x : Nat) : (s.bump m k l x).reg n i j = s.reg n i j := by
  rw [State.reg_bump, if_neg fun e => ne_of_layoutReg hn h e.1]

/-- The blocks of a line that is written back, poisoned or not, leave the registers but one count. -/
theorem State.reg_writeBackLine (s : State) (line : Nat) (c : CacheCopy) : (s.writeBackLine line c).reg n i j = s.reg n i j := by
  unfold State.writeBackLine
  split
  · rfl
  extract_lets s1
  have h1 : s1.reg n i j = s.reg n i j := State.reg_of_regs (State.regs_foldl (fun _ _ => State.putBlock_regs ..) _ s) ..
  clear_value s1
  split
  · exact h1
  · rw [State.reg_bump_of_layoutReg hn _ _ (by decide)]
    exact (State.reg_of_regs (State.regs_foldl (fun s b => s.setPoison_regs b true) _ s1) ..).trans h1

theorem State.reg_writeBackCompute (s : State) (line : Nat) (skip : List Nat) : (s.writeBackCompute line skip).reg n i j = s.reg n i j := by
  unfold State.writeBackCompute
  split
  · exact State.reg_writeBackLine hn ..
  · rfl

theorem State.reg_evictGeneral (s : State) (line : Nat) : (s.evictGeneral line).reg n i j = s.reg n i j := State.reg_writeBackCompute hn i j s line []

theorem State.reg_flushSlice (s : State) (q : Nat) : (s.flushSlice q).reg n i j = s.reg n i j :=
  State.reg_foldl (fun s l => State.reg_evictGeneral hn i j s l) ..

theorem State.reg_writeBackHost (s : State) (line : Nat) (skip : List Nat) : (s.writeBackHost line skip).reg n i j = s.reg n i j := by
  unfold State.writeBackHost
  extract_lets ds bad s1 s2
  split
  · rfl
  have h1 : s1.reg n i j = s.reg n i j := State.reg_of_regs (State.regs_foldl (fun s b => by split <;> simp) _ s) ..
  have h2 : s2.reg n i j = s1.reg n i j := State.reg_of_regs (State.regs_foldl (fun s b => by split <;> simp) _ s1) ..
  clear_value s1 s2
  rw [h1] at h2
  split
  · rw [State.reg_bump_of_layoutReg hn _ _ (by decide)]
    exact (State.reg_of_regs (State.regs_foldl (fun s b => s.setPoison_regs b true) _ s2) ..).trans h2
  · exact h2

theorem State.reg_evictHostLine (s : State) (line : Nat) : (s.evictHostLine line).reg n i j = s.reg n i j := by
  unfold State.evictHostLine
  extract_lets s1 s2
  have h1 : s1.reg n i j = s.reg n i j := State.reg_of_regs (State.regs_foldl (fun _ _ => State.evictDirectory_regs ..) _ s) ..
  have h2 : s2.reg n i j = s1.reg n i j := State.reg_writeBackHost hn ..
  clear_value s1 s2
  exact h2.trans h1

theorem State.reg_flushHsc (s : State) (p : Nat) : (s.flushHsc p).reg n i j = s.reg n i j :=
  State.reg_foldl (fun s l => State.reg_evictHostLine hn i j s l) ..

theorem State.reg_stateWrite (s : State) (a : Nat) (d : List Byte) : (s.stateWrite a d).reg n i j = s.reg n i j := by
  unfold State.stateWrite
  split
  · exact State.reg_bump_of_layoutReg hn i j (by decide) ..
  · split
    · exact State.reg_of_regs (by simp) ..
    · exact State.reg_of_regs (by simp) ..

theorem State.reg_writePage (s : State) (a : Nat) (d : List Byte) : (s.writePage a d).reg n i j = s.reg n i j :=
  State.reg_foldl (fun s _ => State.reg_stateWrite hn i j s _ _) ..

theorem State.reg_invalidate (s : State) (p : Nat) (h : Handle) (first count : Nat) : (s.invalidate p h first count).reg n i j = s.reg n i j := by
  refine State.reg_foldl (fun s q => ?_) ..
  dsimp only
  split
  · rfl
  · rw [State.reg_bump_of_layoutReg hn _ _ (by decide)]
    rfl

theorem State.reg_setLeaf (s : State) (p : Nat) (h : Handle) (root page : Nat) (e : Word) : (s.setLeaf p h root page e).reg n i j = s.reg n i j := by
  unfold State.setLeaf
  split
  · exact (State.reg_invalidate hn ..).trans (State.reg_of_regs (State.hostWrite_regs ..) ..)
  · rfl

theorem State.reg_relocatePage (s : State) (p old new tier : Nat) (moving : Word → Bool) :
    (s.relocatePage p old new tier moving).reg n i j = s.reg n i j := by
  unfold State.relocatePage
  extract_lets sharers s1 s2 s3
  have h1 : s1.reg n i j = s.reg n i j := State.reg_of_regs (State.sealPage_regs ..) ..
  clear_value s1 sharers
  have h2 : s2.reg n i j = s1.reg n i j := by
    refine State.reg_foldl (fun s x => ?_) sharers s1
    obtain ⟨h, root, page, l⟩ := x
    exact (State.reg_of_regs (State.syncTiers_regs ..) ..).trans (State.reg_setLeaf hn ..)
  have h3 : s3.reg n i j = s2.reg n i j := rfl
  clear_value s2 s3
  exact (State.reg_of_regs (State.fillPage_regs ..) ..).trans (h3.trans (h2.trans h1))

include hrec

theorem State.reg_sramUe {m : RegName} (h : m ∈ layoutRegs) (s : State) (k q a r : Nat) : (s.sramUe m k q a r).reg n i j = s.reg n i j :=
  ((Recorded.eventStatus ..).reg n i j hrec).trans (State.reg_bump_of_layoutReg hn i j h ..)

theorem State.reg_dramUe (s : State) (line pos r : Nat) : (s.dramUe line pos r).reg n i j = s.reg n i j := by
  refine ((Recorded.eventStatus ..).reg n i j hrec).trans ?_
  rw [State.reg_setReg, if_neg fun e => ne_of_layoutReg hn (by decide) e.1, State.reg_bump_of_layoutReg hn _ _ (by decide)]

theorem State.reg_computeReadIn (s : State) (line off k r : Nat) : (s.computeReadIn line off k r).1.reg n i j = s.reg n i j := by
  have hfill : (s.applyFill line).reg n i j = s.reg n i j := State.reg_of_regs (State.applyFill_regs ..) ..
  unfold State.computeReadIn
  dsimp only
  split
  · split
    · exact (State.reg_dramUe hn hrec ..).trans hfill
    · exact (State.reg_of_regs (State.computeCopy_regs ..) ..).trans hfill
  · split
    · exact (State.reg_sramUe hn hrec i j (by decide) ..).trans hfill
    · exact hfill

theorem State.reg_computeRead (s : State) (a k r : Nat) : (s.computeRead a k r).1.reg n i j = s.reg n i j := by
  refine State.reg_foldl_fst i j (fun x y => ?_) ..
  obtain ⟨u, res⟩ := x
  obtain ⟨l, o, k⟩ := y
  have h := State.reg_computeReadIn hn hrec i j u l o k r
  dsimp only
  split
  · rfl
  · split <;> next e => rwa [e] at h

theorem State.reg_pageBytes (s : State) (a : Nat) : (s.pageBytes a).1.reg n i j = s.reg n i j := by
  have h := State.reg_computeRead hn hrec i j s a 65536 0
  unfold State.pageBytes
  split
  · split <;> next e => rwa [e] at h
  · split <;> rfl

/-- Pages that leave lent units for DRAM leave the registers but those counts, and the number of units lent. -/
theorem State.reg_reclaimLent (s : State) (p pin : Nat) : (s.reclaimLent p pin).reg n i j = s.reg n i j := by
  unfold State.reclaimLent
  extract_lets gone m pages s1 s2 v
  split
  · rfl
  have h1 : s1.reg n i j = s.reg n i j := by
    refine State.reg_foldl (fun s a => ?_) ..
    have hpage := State.reg_pageBytes hn hrec i j s a
    generalize s.pageBytes a = x at hpage ⊢
    exact (State.reg_relocatePage hn ..).trans ((State.reg_writePage hn ..).trans hpage)
  rw [State.reg_latchReg, State.reg_setReg, if_neg fun e => ne_of_layoutReg hn (by decide) e.1]
  exact h1

end

/-! A layout put into a partition's slices (R60) -/

/-- Put a layout into one slice: units that change role are zeroed, tails of units that no longer hold any are cleared, and CC_LAYOUT takes the
new counts. -/
def State.relayout (s : State) (pin tail hsc q : Nat) : State :=
  let v := s.reg .ccLayout q
  let s := (List.range 256).foldl (fun s u =>
    let old := unitRole (bitsAt v 0 8) (bitsAt v 8 8) (bitsAt v 16 8) u
    let s := if old = 2 ∧ unitRole pin tail hsc u ≠ 2 then s.clearTails q (128 * (u - 1 - bitsAt v 0 8)) 128 else s
    if old ≠ unitRole pin tail hsc u then s.zeroUnit q u else s) s
  s.setReg .ccLayout q 0 (BitVec.ofNat 64 (pin + 256 * tail + 65536 * hsc))

/-- The slices of a partition whose layout differs from the one given. -/
def State.slicesToMove (s : State) (p pin tail hsc : Nat) : List Nat :=
  (s.partSquares p).filter (fun q =>
    decide (¬(s.field .ccLayout q 0 0 8 = pin ∧ s.field .ccLayout q 0 8 8 = tail ∧ s.field .ccLayout q 0 16 8 = hsc)))

/-- The caches of a partition give way to a layout: slices that change are flushed, and the host system cache where its units move. -/
def State.flushForLayout (s : State) (p pin tail hsc : Nat) : State :=
  let u := (s.slicesToMove p pin tail hsc).foldl (fun s q => s.flushSlice q) s
  if (s.partSquares p).any (fun q => decide (s.field .ccLayout q 0 16 8 ≠ hsc)) then u.flushHsc p else u

/-- Put a layout into every slice of a partition that has another. -/
def State.applyLayout (s : State) (p pin tail hsc : Nat) : State :=
  (s.slicesToMove p pin tail hsc).foldl (fun s q => s.relayout pin tail hsc q) (s.flushForLayout p pin tail hsc)

theorem State.cacheLayout_of_taken {s : State} {c : Cmd} {pin tail hsc : BitVec 8} (h : s.taken c rowLayout false)
    (hok : (s.enterCommand c rowLayout).layoutRefused c.target.toNat pin.toNat tail.toNat hsc.toNat = none) :
    s.cacheLayout c pin tail hsc = (((((s.enterCommand c rowLayout).reclaimLent c.target.toNat pin.toNat).applyLayout c.target.toNat pin.toNat
      tail.toNat hsc.toNat).countTails c.target.toNat)).complete c 0x0203 .ok := by
  rw [State.cacheLayout, State.take_of_taken h]
  simp only [hok]
  rfl

theorem State.zeroUnit_regs (s : State) (q u : Nat) : (s.zeroUnit q u).regs = s.regs := rfl

theorem State.clearTails_regs (s : State) (q first count : Nat) : (s.clearTails q first count).regs = s.regs := rfl

/-- A slice that takes a layout holds it in CC_LAYOUT, and no other register moves. -/
theorem State.reg_relayout (s : State) (pin tail hsc q : Nat) (n : RegName) (i j : Nat) : (s.relayout pin tail hsc q).reg n i j =
    if RegName.ccLayout = n ∧ q = i ∧ 0 = j then BitVec.ofNat 64 (pin + 256 * tail + 65536 * hsc) else s.reg n i j := by
  unfold State.relayout
  extract_lets v s1
  have h1 : s1.regs = s.regs := State.regs_foldl (fun s u => by
    dsimp only
    split <;> split <;> simp only [State.zeroUnit_regs, State.clearTails_regs]) _ s
  clear_value s1
  rw [State.reg_setReg, State.reg_of_regs h1]

theorem State.reg_relayouts (pin tail hsc : Nat) (l : List Nat) (s : State) (q : Nat) :
    (l.foldl (fun s q => s.relayout pin tail hsc q) s).reg .ccLayout q =
      if q ∈ l then BitVec.ofNat 64 (pin + 256 * tail + 65536 * hsc) else s.reg .ccLayout q := by
  induction l generalizing s with
  | nil => rfl
  | cons a l ih =>
    rw [List.foldl_cons, ih, State.reg_relayout]
    by_cases hq : q ∈ l
    · simp [hq]
    · by_cases ha : a = q
      · simp [hq, ha]
      · simp [hq, ha, Ne.symm ha]

theorem State.reg_flushForLayout {n : RegName} (hn : n ∉ layoutRegs) (s : State) (p pin tail hsc i j : Nat) :
    (s.flushForLayout p pin tail hsc).reg n i j = s.reg n i j := by
  unfold State.flushForLayout
  extract_lets u
  have hu : u.reg n i j = s.reg n i j := State.reg_foldl (fun s q => State.reg_flushSlice hn i j s q) ..
  clear_value u
  split
  · exact (State.reg_flushHsc hn ..).trans hu
  · exact hu

/-- The three counts of a layout as CC_LAYOUT holds them. -/
theorem bitsAt_layout {pin tail hsc : Nat} (hpin : pin < 256) (htail : tail < 256) (hhsc : hsc < 256) :
    bitsAt (BitVec.ofNat 64 (pin + 256 * tail + 65536 * hsc)) 0 8 = pin ∧ bitsAt (BitVec.ofNat 64 (pin + 256 * tail + 65536 * hsc)) 8 8 = tail ∧
      bitsAt (BitVec.ofNat 64 (pin + 256 * tail + 65536 * hsc)) 16 8 = hsc := by
  simp only [bitsAt, BitVec.toNat_ofNat]
  omega

/-- A slice holds a layout. -/
def State.holdsLayout (s : State) (q pin tail hsc : Nat) : Prop :=
  s.field .ccLayout q 0 0 8 = pin ∧ s.field .ccLayout q 0 8 8 = tail ∧ s.field .ccLayout q 0 16 8 = hsc

theorem State.holdsLayout_of_reg {s t : State} {q pin tail hsc : Nat} (h : t.reg .ccLayout q = s.reg .ccLayout q) :
    t.holdsLayout q pin tail hsc ↔ s.holdsLayout q pin tail hsc := by
  simp only [State.holdsLayout, State.field, h]

/-- Once a layout is applied, every slice of the partition holds it. -/
theorem State.holdsLayout_applyLayout {s : State} {p q pin tail hsc : Nat} (hpin : pin < 256) (htail : tail < 256) (hhsc : hsc < 256)
    (hq : q ∈ s.partSquares p) : (s.applyLayout p pin tail hsc).holdsLayout q pin tail hsc := by
  have hreg := State.reg_relayouts pin tail hsc (s.slicesToMove p pin tail hsc) (s.flushForLayout p pin tail hsc) q
  by_cases hmove : q ∈ s.slicesToMove p pin tail hsc
  · rw [if_pos hmove] at hreg
    simp only [State.holdsLayout, State.field, State.applyLayout, hreg]
    exact bitsAt_layout hpin htail hhsc
  · rw [if_neg hmove, State.reg_flushForLayout (by decide)] at hreg
    refine (State.holdsLayout_of_reg hreg).2 ?_
    simpa [State.slicesToMove, hq, State.holdsLayout] using hmove

theorem State.partSquares_of_reg {s t : State} {p : Nat} (h : t.reg .ptRegions p = s.reg .ptRegions p) : t.partSquares p = s.partSquares p := by
  simp only [State.partSquares, State.partRegions, h]

/-- A layout that is not refused stands in every slice of the partition when the command completes. -/
theorem execPartitionCacheLayout_outcome {s : State} {c : Cmd} {pin tail hsc : BitVec 8} (h : s.taken c rowLayout false)
    (hok : (s.enterCommand c rowLayout).layoutRefused c.target.toNat pin.toNat tail.toNat hsc.toNat = none) :
    ∃ u : State, execPartitionCacheLayout c pin tail hsc s = .next (u.complete c 0x0203 .ok) ∧ ∀ q ∈ s.partSquares c.target.toNat,
      u.field .ccLayout q 0 0 8 = pin.toNat ∧ u.field .ccLayout q 0 8 8 = tail.toNat ∧ u.field .ccLayout q 0 16 8 = hsc.toNat := by
  refine ⟨_, congrArg Host.Outcome.next (State.cacheLayout_of_taken h hok), fun q hq => ?_⟩
  have hsquares : ((s.enterCommand c rowLayout).reclaimLent c.target.toNat pin.toNat).partSquares c.target.toNat = s.partSquares c.target.toNat :=
    State.partSquares_of_reg ((State.reg_reclaimLent (by decide) rfl ..).trans (State.enterCommand_reg ..))
  have hcount (w : State) : (w.countTails c.target.toNat).reg .ccLayout q = w.reg .ccLayout q := by
    simp [State.countTails]
  exact (State.holdsLayout_of_reg (hcount _)).2 (State.holdsLayout_applyLayout pin.isLt tail.isLt hsc.isLt (hsquares ▸ hq))

/-! Forming, dissolving and resets (R343, R402, R405, R445, R446) -/

theorem State.partitionForm_of_taken {s : State} {c : Cmd} (h : s.taken c rowForm false) (regions : BitVec 16) (number headless : BitVec 8)
    (f : TestFindings) :
    s.partitionForm c regions number headless f =
      match (s.enterCommand c rowForm).formRefused regions number.toNat headless.toNat with
      | some st => (s.enterCommand c rowForm).complete c 0x0200 st
      | none => (((s.enterCommand c rowForm).formPartition regions number.toNat (decide (headless = 1)) f).recordPartition number.toNat
          (some (regions, decide (headless = 1)))).complete c 0x0200 .ok :=
  State.take_of_taken h _

/-- Once a partition's record is removed none of its number is left. -/
theorem State.partitions_recordPartition_none (s : State) (p : Nat) : ∀ x ∈ (s.recordPartition p none).flash.partitions, x.1 ≠ p :=
  fun _ hx => of_decide_eq_true (List.mem_filter.1 hx).2

/-- A dissolve that is neither its own partition's nor a second one ends with the removal of the partition's record. -/
theorem State.partitionDissolve_of_taken {s : State} {c : Cmd} (h : s.taken c rowDissolve false) (hown : cmdPart c ≠ some c.target.toNat)
    (hfirst : s.dissolving c.target.toNat = false) :
    ∃ w : State, s.partitionDissolve c = (w.recordPartition c.target.toNat none).complete c 0x0201 .ok := by
  have hfirst' : (s.enterCommand c rowDissolve).dissolving c.target.toNat = false := by rwa [State.dissolving, State.enterCommand_flag]
  rw [State.partitionDissolve, State.take_of_taken h]
  simp only [hown, hfirst', if_false, Bool.false_eq_true]
  exact ⟨_, rfl⟩

theorem State.computeReset_of_taken {s : State} {c : Cmd} (h : s.taken c rowReset false) (hfirst : s.resetting c.target.toNat = false)
    (f : TestFindings) : s.computeReset c f = (s.enterCommand c rowReset).partitionReset c.target.toNat c false f := by
  rw [State.computeReset, State.take_of_taken h, State.resetting, State.enterCommand_part, ← State.resetting, hfirst]
  rfl

theorem State.fullReset_of_taken {s : State} {c : Cmd} (h : s.taken c rowReset false) (hfirst : s.resetting c.target.toNat = false)
    (f : TestFindings) : s.fullReset c f = (s.enterCommand c rowReset).partitionReset c.target.toNat c true f := by
  rw [State.fullReset, State.take_of_taken h, State.resetting, State.enterCommand_part, ← State.resetting, hfirst]
  rfl

/-- A host die with its crossings tested again, before its release. -/
def State.retestHost (s : State) (h : Nat) (f : TestFindings) : State := ((s.stopHost h).bump .hdResets h).calibrateHost h f

section
variable {s : State} {c : Cmd} {die : BitVec 8} (f : TestFindings) (hdie : die.toNat < 8) (howner : s.hostOwner die.toNat = some c.target.toNat)
  (htaken : s.taken c rowReset false) (hfence : s.hostFenced die.toNat = false) (hcal : s.flag .hdStatus die.toNat 0 4 = false)
  (hreset : (s.part c.target.toNat).resetCmd = none)
include hdie howner htaken hfence hcal hreset

theorem State.hostReset_of_taken : s.hostReset c die f =
    if ((s.enterCommand c rowReset).retestHost die.toNat f).flag .hdStatus die.toNat 0 4 then
      ((s.enterCommand c rowReset).retestHost die.toNat f).complete c 0x0202 .busy
    else match ((s.enterCommand c rowReset).retestHost die.toNat f).releaseHost c.target.toNat die.toNat with
      | (u, true) => u.complete c 0x0202 .ok (some (u.turn c.target.toNat))
      | (u, false) => u.complete c 0x0202 .badArgument := by
  have hfence' : (s.enterCommand c rowReset).hostFenced die.toNat = false := by rwa [State.hostFenced, State.enterCommand_flag]
  rw [State.hostReset, decide_eq_false (by omega), decide_eq_false (by simp [howner])]
  refine (State.take_of_taken htaken _).trans ?_
  simp only [hfence', State.enterCommand_flag, hcal, State.enterCommand_part, hreset] <;> rfl

/-- A crossing that fails its test keeps the die in reset. -/
theorem State.hostReset_of_failed (hfail : ((s.enterCommand c rowReset).retestHost die.toNat f).flag .hdStatus die.toNat 0 4 = true) :
    s.hostReset c die f = ((s.enterCommand c rowReset).retestHost die.toNat f).complete c 0x0202 .busy := by
  rw [State.hostReset_of_taken f hdie howner htaken hfence hcal hreset, if_pos hfail]

theorem State.hostReset_of_released {u : State}
    (hgood : ((s.enterCommand c rowReset).retestHost die.toNat f).flag .hdStatus die.toNat 0 4 = false)
    (hrel : ((s.enterCommand c rowReset).retestHost die.toNat f).releaseHost c.target.toNat die.toNat = (u, true)) :
    s.hostReset c die f = u.complete c 0x0202 .ok (some (u.turn c.target.toNat)) := by
  rw [State.hostReset_of_taken f hdie howner htaken hfence hcal hreset, if_neg (by simp [hgood]), hrel]

end

/-! Publishes, policy and grants (R67, R249, R265) -/

/-- A publish that is taken while fewer than 64 wait is put at their end. -/
theorem State.publish_of_taken {s : State} {c : Cmd} {base : Word} {lines : BitVec 32} {dir : BitVec 8}
    (hargs : s.publishArgs c.target.toNat base lines dir = true) (h : s.taken c rowPublish false) (hroom : (s.part c.target.toNat).publishes.length < 64) :
    s.publish c base lines dir = (s.enterCommand c rowPublish).modPart c.target.toNat (fun v => { v with publishes := v.publishes ++
      [{ cmd := c, base := base.toNat, lines := lines.toNat, toHost := decide (dir = 1) }] }) := by
  rw [State.publish, hargs]
  refine (State.take_of_taken h _).trans (if_neg ?_)
  rw [State.enterCommand_part]
  omega

theorem State.policySet_of_taken {s : State} {c : Cmd} {id : BitVec 16} {v : Word} (hgood : policyGood id.toNat v.toNat = true)
    (h : s.taken c rowPolicySet false) : s.policySet c id v = (s.enterCommand c rowPolicySet).queuePolicy c.target.toNat c id v := by
  rw [State.policySet, hgood]
  exact State.take_of_taken h _

/-- A policy value that is queued pends, at the end of the partition's queue, and the one in effect stays. -/
theorem State.part_queuePolicy (s : State) (p : Nat) (c : Cmd) (id : BitVec 16) (v : Word) :
    Sparse.nfind ((s.queuePolicy p c id v).part p).policyNext id.toNat = some v ∧
      ((s.queuePolicy p c id v).part p).queue = (s.part p).queue ++ [{ cmd := c, op := .policySet id v }] ∧
      ((s.queuePolicy p c id v).part p).policy = (s.part p).policy := by
  simp [State.queuePolicy, State.enqueue, nfind_nput_same]

theorem State.policyGet_of_taken {s : State} {c : Cmd} {id : BitVec 16} {d : Word} (hid : policyDefault id.toNat = some d)
    (h : s.taken c rowPolicyGet false) :
    s.policyGet c id = (s.enterCommand c rowPolicyGet).complete c 0x0206 .ok none (s.policyResult c.target.toNat id d) := by
  rw [State.policyGet, hid]
  refine (State.take_of_taken h _).trans ?_
  simp only [State.policyResult, State.policyValue, State.enterCommand_part, Option.getD_some]

/-- What a page is granted: nothing where no grant is named. -/
def grantOf (grants : BitVec 8) (mask tenant : BitVec 16) : Grant :=
  if grants = 0 then {}
  else { doorbells := bitAt grants 0, counters := bitAt grants 1, logView := bitAt grants 2, ringMask := mask, tenant := tenant }

theorem State.grantPage_of_taken {s : State} {c : Cmd} {page grants : BitVec 8} {mask tenant : BitVec 16} (hpage : page.toNat ≤ 15)
    (hgrants : grants.toNat ≤ 7) (hrings : s.grantRings c.target.toNat mask tenant = true) (h : s.taken c rowGrant false) :
    s.grantPage c page grants mask tenant = ((s.enterCommand c rowGrant).modPart c.target.toNat
      (fun v => { v with grants := Sparse.nset {} v.grants page.toNat (grantOf grants mask tenant) })).complete c 0x0207 .ok := by
  rw [State.grantPage, decide_eq_false (by omega), hrings]
  exact State.take_of_taken h _

/-- Settles O9, row by row. -/
theorem partitionCommands : Obligations.PartitionCommands := by
  intro s c p
  refine ⟨fun regions number headless f h => congrArg Host.Outcome.next (State.partitionForm_of_taken h ..), fun h hown hfirst => ?dissolve,
    fun f h hfirst => ⟨congrArg Host.Outcome.next (State.computeReset_of_taken h hfirst f),
      congrArg Host.Outcome.next (State.fullReset_of_taken h hfirst f)⟩,
    fun die f u hdie howner h hfence hcal hreset => ⟨fun hfail => congrArg Host.Outcome.next
      (State.hostReset_of_failed f hdie howner h hfence hcal hreset hfail), fun hgood hrel => congrArg Host.Outcome.next
      (State.hostReset_of_released f hdie howner h hfence hcal hreset hgood hrel)⟩,
    fun pin tail hsc h hok => execPartitionCacheLayout_outcome h hok, fun base lines dir hargs h hroom => ?publish, fun id v hgood h => ?policySet,
    fun id d hid h => congrArg Host.Outcome.next (State.policyGet_of_taken hid h), fun page grants mask tenant hpage hgrants hrings h => ?grant⟩
  case dissolve =>
    obtain ⟨w, hw⟩ := State.partitionDissolve_of_taken h hown hfirst
    exact ⟨_, congrArg Host.Outcome.next hw, w.partitions_recordPartition_none p⟩
  case publish => exact ⟨_, congrArg Host.Outcome.next (State.publish_of_taken hargs h hroom), by simp [p]⟩
  case policySet =>
    refine ⟨_, congrArg Host.Outcome.next (State.policySet_of_taken hgood h), ?_⟩
    rw [← State.enterCommand_part s c rowPolicySet p]
    exact State.part_queuePolicy ..
  case grant => exact ⟨_, congrArg Host.Outcome.next (State.grantPage_of_taken hpage hgrants hrings h), by simp [p, grantOf]⟩

end Sys2Proof.Machine
end

section
/-! SUPPORT. Accesses of harts (chapters 2 and 12): what each kind of access comes to, given what its address allows. -/

namespace Sys2Proof.Machine

/-! Accesses of a hart that runs -/

theorem exec_hartAccess (h c : Nat) (mode : HartMode) (a : Addr) (op : HartOp) (nc : Bool) (s : State) :
    exec (.hartAccess h c mode a op nc) s = execHartAccess h c mode a op nc s := rfl

section
variable {s : State} {h c : Nat} {mode : HartMode} {a : Addr} (hrun : s.hartRuns h c = true) (nc : Bool)
include hrun

theorem execHartAccess_csrRead {n : BitVec 12} {u : State} {d : List Byte} (hcsr : s.csrAccess h c mode n.toNat none = some (u, d)) :
    execHartAccess h c mode a (.csrRead n) nc s = .next (u.answered (.ok d)) := by
  simp [execHartAccess, hrun, hcsr]

theorem execHartAccess_csrWrite {n : BitVec 12} {v : Word} {u : State} {d : List Byte} (hcsr : s.csrAccess h c mode n.toNat (some v) = some (u, d)) :
    execHartAccess h c mode a (.csrWrite n v) nc s = .next (u.answered (.ok d)) := by
  simp [execHartAccess, hrun, hcsr]

/-- A CSR instruction that its mode may not perform, or that names no writable custom CSR, is refused. -/
theorem execHartAccess_csrWrite_refused {n : BitVec 12} {v : Word} (hcsr : s.csrAccess h c mode n.toNat (some v) = none) :
    execHartAccess h c mode a (.csrWrite n v) nc s = .next (s.answered (.error .notPermitted) true) := by
  simp [execHartAccess, hrun, hcsr]

/-- An access to DRAM of the hart's partition that no boundary, failed link or end of memory stops. -/
theorem execHartAccess_dram {op : HartOp} (hmem : ∀ n v, op ≠ .csrRead n ∧ op ≠ .csrWrite n v) (hbytes : 0 < op.bytes)
    (hatomic : op.isAtomic = true → aligned a.toNat op.bytes = true ∧ (op.bytes = 4 ∨ op.bytes = 8)) (hdram : inDram a.toNat = true)
    (hend : inDram (a.toNat + op.bytes - 1) = true) (hfence : s.memoryFence (.hart h c mode) a.toNat op.bytes = none)
    (hcut : s.memoryCut (.hart h c mode) a.toNat op.bytes = false) :
    execHartAccess h c mode a op nc s = .next ((s.hartDram h c a.toNat op (!nc) (.hart h c mode)).1.answered
      (s.hartDram h c a.toNat op (!nc) (.hart h c mode)).2 true) := by
  have hform : ¬ (op.isAtomic = true ∧ ¬ (aligned a.toNat op.bytes = true ∧ (op.bytes = 4 ∨ op.bytes = 8))) := fun h => h.2 (hatomic h.1)
  cases op with
  | csrRead n => exact absurd rfl (hmem n 0).1
  | csrWrite n v => exact absurd rfl (hmem n v).2
  | _ => simp only [execHartAccess, hrun, hdram, hend, hfence, hcut, hform, Nat.ne_of_gt hbytes]; rfl

/-- A load outside DRAM and the windows that a hart reaches takes a bus error. -/
theorem execHartAccess_unreached {n : Nat} (hn : 0 < n) (hdram : inDram a.toNat = false) (hreach : hartReaches h a.toNat = false) :
    execHartAccess h c mode a (.load n) nc s = .next ((s.unmapped (hostSquare h) (if inWindow a.toNat then .notPermitted else .badArgument)
      a.toNat).answered (.error (if inWindow a.toNat then .notPermitted else .badArgument)) true) := by
  simp only [execHartAccess, hrun, hdram, hreach, HartOp.bytes, Nat.ne_of_gt hn]
  rfl

/-- A load outside DRAM that breaks the attributes of its window is refused. -/
theorem execHartAccess_not_allowed {n : Nat} (hn : 0 < n) (hdram : inDram a.toNat = false) (hreach : hartReaches h a.toNat = true)
    (hallowed : hartAllowed a.toNat (.load n) = false) :
    execHartAccess h c mode a (.load n) nc s = .next (s.answered (.error .notPermitted) true) := by
  simp only [execHartAccess, hrun, hdram, hreach, hallowed, HartOp.bytes, Nat.ne_of_gt hn]
  rfl

end

/-- No DRAM and no slice or die memory lies from the MMIO windows up. -/
theorem inDram_of_mmio {a : Nat} (h : 0xC00000000000 ≤ a) : inDram a = false := by
  simp only [inDram, decide_eq_false_iff_not]
  omega

/-- No window takes a load that is not naturally aligned. -/
theorem hartAllowed_of_misaligned {a n : Nat} (h : a % n ≠ 0) : hartAllowed a (.load n) = false := by
  simp [hartAllowed, aligned, HartOp.bytes, h]

/-- A store-conditional by a core that holds no reservation of the block stores nothing and answers 1. -/
theorem State.hartDram_storeConditional_failed {s : State} {h c a : Nat} {n : Nat} {x : Word} (cached : Bool) (r : Requester)
    (hres : (c, a / 64) ∉ (s.hostDie h).reservations) :
    s.hartDram h c a (.storeConditional n x) cached r = (s.reserve h c none, .ok [1]) := by
  simp [State.hartDram, hres]

/-- M-mode writes HD_MTIMECMP whole. -/
theorem State.csrAccess_mtimecmp (s : State) (h c : Nat) (v : Word) :
    s.csrAccess h c .m (0x7C1 : BitVec 12).toNat (some v) = some ((s.setReg .hdMtimecmp (32 * h + c) 0 v).timer h c, []) := by
  simp [State.csrAccess, customCsr, RegName.info, RegInfo.writable]

theorem State.csrAccess_mtimecmp_of_not_m {mode : HartMode} (hm : mode ≠ .m) (s : State) (h c : Nat) (v : Word) :
    s.csrAccess h c mode (0x7C1 : BitVec 12).toNat (some v) = none := by
  simp [State.csrAccess, customCsr, hm]

/-- The timer of a hart moves no register. -/
theorem State.reg_timer_setReg (s : State) (h c : Nat) (n : RegName) (i : Nat) (v : Word) :
    (((s.setReg n i 0 v).timer h c).answered (.ok [])).reg n i = v := by
  have h1 : (((s.setReg n i 0 v).timer h c).answered (.ok [])).reg n i = (s.setReg n i 0 v).reg n i := rfl
  simp [h1]

/-! Cache blocks and requests to the host system cache -/

theorem inDram_of_le {a b : Nat} (hle : b ≤ a) (h : inDram a = true) : inDram b = true := by
  simp only [inDram, decide_eq_true_eq] at h ⊢
  omega

theorem execCacheBlockClean_of_dram {s : State} {h c : Nat} {a : Addr} (flush : Bool) (hrun : s.hartRuns h c = true) (hdram : inDram a.toNat = true)
    (hfence : s.memoryFence (.hart h c .m) (a.toNat / 64 * 64) 64 = none) :
    execCacheBlockClean h c a flush s =
      .next ((if flush then s.evictDirectory (a.toNat / 64) else s.gather (a.toNat / 64)).answered (.ok [])) := by
  have hblock : inDram (a.toNat / 64 * 64) = true := inDram_of_le (Nat.div_mul_le_self ..) hdram
  have hindex : a.toNat / 64 * 64 / 64 = a.toNat / 64 := Nat.mul_div_cancel _ (by decide)
  simp [execCacheBlockClean, hrun, hblock, hfence, hindex]

section
variable {s : State} {r : Requester} {a : Addr} (hside : r.computeSide = false) (hbmc : r ≠ .bmc) (hblocked : s.blocked r = false)
  (hdram : inDram a.toNat = true)
include hside hbmc hblocked hdram

theorem execHscRequest_load {n : Nat} (hn : 0 < n) : execHscRequest r a (.load n) none none s =
    .next ((s.access r false a.toNat n none).1.answered (s.access r false a.toNat n none).2) := by
  simp [execHscRequest, hside, hbmc, hblocked, hdram, HartOp.bytes, Nat.ne_of_gt hn]

theorem execHscRequest_store {d : List Byte} (hd : d ≠ []) : execHscRequest r a (.store d) none none s =
    .next ((s.access r false a.toNat d.length (some d)).1.answered (s.access r false a.toNat d.length (some d)).2) := by
  simp [execHscRequest, hside, hbmc, hblocked, hdram, HartOp.bytes, hd]

end

/-- Settles O34, access by access. -/
theorem hartAccesses : Obligations.HartAccesses := by
  refine ⟨fun s h c mode a hrun => ⟨fun nc => ?csrRead, fun nc v => ?csrWrite, fun nc v hm => ?csrRefused, fun n hn hdram hend hfence hcut => ?load,
    fun d hd hdram hend hfence hcut => ?store, fun x nc hdram halign hend hfence hcut hres => ?conditional,
    fun n nc hn hdram hreach => execHartAccess_unreached hrun nc hn hdram hreach, fun n nc hn hwindow hreach hmis => ?misaligned⟩,
    fun s h c a => ⟨fun flush hrun hdram hfence => execCacheBlockClean_of_dram flush hrun hdram hfence,
      fun r n hside hbmc hblocked hdram hn => execHscRequest_load hside hbmc hblocked hdram hn,
      fun r d hside hbmc hblocked hdram hd => execHscRequest_store hside hbmc hblocked hdram hd⟩⟩
  case csrRead => exact (exec_hartAccess ..).trans (execHartAccess_csrRead (n := 0xCC0) hrun nc rfl)
  case csrWrite =>
    exact ⟨_, (exec_hartAccess ..).trans (execHartAccess_csrWrite hrun nc (s.csrAccess_mtimecmp h c v)), State.reg_timer_setReg ..⟩
  case csrRefused => exact (exec_hartAccess ..).trans (execHartAccess_csrWrite_refused hrun nc (State.csrAccess_mtimecmp_of_not_m hm ..))
  case load =>
    exact (exec_hartAccess ..).trans
      (execHartAccess_dram (op := .load n) hrun false (by simp) hn (by simp [HartOp.isAtomic]) hdram hend hfence hcut)
  case store =>
    exact (exec_hartAccess ..).trans (execHartAccess_dram (op := .store d) hrun true (by simp) (List.length_pos_iff.2 hd)
      (by simp [HartOp.isAtomic]) hdram hend hfence hcut)
  case conditional =>
    have h := execHartAccess_dram hrun nc (op := .storeConditional 8 x) (by simp) (show 0 < 8 by decide)
      (fun _ => ⟨by simp [aligned, HartOp.bytes, halign], .inr rfl⟩) hdram hend hfence hcut
    rw [State.hartDram_storeConditional_failed _ _ hres] at h
    exact ⟨_, (exec_hartAccess ..).trans h, rfl, rfl, rfl⟩
  case misaligned =>
    exact (exec_hartAccess ..).trans
      (execHartAccess_not_allowed hrun nc hn (inDram_of_mmio hwindow) hreach (hartAllowed_of_misaligned hmis))

end Sys2Proof.Machine
end

section
/-! SUPPORT. Pool windows (chapters 0 and 13): a write that leaves every field of a locked register as it is, and a running pool window in whose map a
reserved bit stands. -/

namespace Sys2Proof.Machine

/-! Writes that change no field -/

/-- R14 refuses changes only: a whole write that leaves every field of a locked register takes effect while its block runs. -/
theorem State.writeReg_of_unchanged {s : State} {r : Requester} {k : RegKey} {v : Word} (hreserved : v &&& ~~~k.name.info.defined = 0)
    (hreferee : k.name.info.refereeOnly = false ∨ r = .referee) (hreadOnly : k.name.info.readOnly = 0) (hw1c : k.name.info.writeOneClear = 0)
    (hclear : k.name.info.clearOnZero = false) (hlocked : k.name.info.cls = .locked) (hlive : k.name.info.liveMask = 0)
    (hsame : (v ^^^ s.readReg k) &&& k.name.info.defined = 0) (hvalue : valueAllowed k (laneMask 0 8) v = true)
    (hdefined : k.name.info.defined ≠ 0#64) : s.writeReg r k 0 8 v = s.applyWrite r k (laneMask 0 8) v := by
  have hforeign := referee_permits hreferee
  unfold State.writeReg
  simp [hreserved, hforeign, hreadOnly, hw1c, hclear, hlocked, hlive, hsame, hvalue, hdefined, Ne.symm hdefined]

/-- A map that is not VALID may be written to any window that takes writes. -/
theorem State.writePool_of_invalid {v : Word} (h : bitAt v 63 = false) (s : State) (n : Nat) : s.writePool n false v = s.setReg .olPoolMap 0 n v := by
  simp [State.writePool, h, rk]

/-- A table whose entry is at once node and leaf, and points to itself, has that leaf. -/
theorem State.anyLeaf_of_self {s : State} {root i : Nat} {e : Word} {ok : Word → Bool} (hi : i < 128) (hentry : s.peekEntry root i = e)
    (hself : entryAddr e = root) (hvalid : bitAt e 63 = true) (hok : ok e = true) : s.anyLeaf root ok = true := by
  have hmem : i ∈ List.range 128 := List.mem_range.2 hi
  simp only [State.anyLeaf, List.any_eq_true, Bool.and_eq_true]
  refine ⟨i, hmem, ?_, i, hmem, ?_, i, hmem, ?_, ?_⟩ <;> simp only [hentry, hself, hvalid, hok]

/-- The answer to a register write, and the packets that carried it, leave every register but the counts of packets. -/
theorem State.reg_countRegister_answered {n : RegName} (htx : n ≠ .cnTxPkts) (hrx : n ≠ .cnRxPkts) (s : State) (r : Requester) (a i j : Nat)
    (x : Except Status (List Byte)) : ((s.countRegister r a).answered x).reg n i j = s.reg n i j := by
  have hanswer (t : State) : (t.answered x).reg n i j = t.reg n i j := by cases x <;> rfl
  rw [hanswer]
  unfold State.countRegister
  extract_lets q
  split
  · rfl
  · simp [Ne.symm htx, Ne.symm hrx]

/-! The counterexample -/

/-- The map of pool window 0 holds a reserved bit and no field. The one stream has its root at the window's own address, where entry 0 is at once node
and leaf: it is valid, in the FAR tier, and points to itself. -/
def reservedMap : State :=
  { State.reset.setReg .olPoolMap 0 0 1 with
    rows := [(0, { root := 0x800000000000 })]
    mem := [(0x800000000005, 0x80), (0x800000000007, 0xC0)] }

theorem reservedMap_entry : reservedMap.peekEntry 0x800000000000 0 = 0xC000800000000000 := by decide +kernel

theorem reservedMap_poolRunning : reservedMap.poolRunning 0 = true := by
  have hleaf : reservedMap.anyLeaf 0x800000000000 (fun l => decide (bitsAt l 61 2 = 2 ∧ bitsAt l 40 8 = 0x80 + 0)) = true :=
    State.anyLeaf_of_self (by decide) reservedMap_entry (by decide) (by decide) (by decide)
  simp only [State.poolRunning, reservedMap, List.any_cons, Bool.or_eq_true, Bool.and_eq_true]
  exact .inl (.inl ⟨by decide, hleaf⟩)

theorem reservedMap_coresRun : reservedMap.coresRun = true := by decide +kernel

theorem reservedMap_reg : reservedMap.reg .olPoolMap = 1 := by decide +kernel

theorem spotAt_olPoolMap : spotAt (rk .olPoolMap 0 0).addr = .reg (rk .olPoolMap 0 0) 0 := by decide +kernel

/-- A write of 0, which leaves every field as it is, clears the reserved bit. -/
theorem reservedMap_write : reservedMap.writeReg .referee (rk .olPoolMap 0 0) 0 8 0 = reservedMap.setReg .olPoolMap 0 0 0 := by
  have hsame : (0 ^^^ reservedMap.readReg (rk .olPoolMap 0 0)) &&& RegName.olPoolMap.info.defined = 0 := by
    rw [show reservedMap.readReg (rk .olPoolMap 0 0) = 1 from reservedMap_reg]
    decide
  rw [State.writeReg_of_unchanged (by decide) (.inl rfl) rfl rfl rfl rfl rfl hsame (by decide) (by decide)]
  exact State.writePool_of_invalid (v := 0) (by decide) reservedMap 0

/-- Refutes O27: R14 refuses a write to a running pool window only where it would change a field, so the write of 0 to a map that holds nothing but a
reserved bit takes effect, and clears that bit. The statement leaves out that no reserved bit of the map is set, which R7 ensures of every write. -/
theorem not_operationRegisters : ¬ Obligations.OperationRegisters := by
  intro h
  obtain ⟨-, -, -, -, -, -, hpool, -⟩ := h.2 reservedMap 0 0 reservedMap_coresRun (by decide)
  obtain ⟨-, -, hkept, -⟩ := hpool 0 (by decide)
  obtain ⟨t, hexec, hreg⟩ := hkept (.inl reservedMap_poolRunning)
  have hwrite := exec_registerWrite_of_ok spotAt_olPoolMap (RegKey.addr_aligned (by decide)) (RegKey.addr_lt (by decide) (by decide) (by decide))
    (by simp [State.blocked, reservedMap_coresRun]) (State.privAccess_of_yes (v := 0) spotAt_olPoolMap rfl (reservedMap.crossing_referee _))
  rw [← writeKey_eq_exec_registerWrite reservedMap .referee 0 (by decide) (by decide) (by decide) (by decide) (.inr rfl), reservedMap_write] at hwrite
  obtain rfl : _ = t := Host.Outcome.next.inj (hwrite.symm.trans hexec)
  rw [State.reg_countRegister_answered (by decide) (by decide), reservedMap_reg] at hreg
  simp at hreg

end Sys2Proof.Machine
end

section
/-! SUPPORT. What Tolerabor's work at the opening of a changeover leaves alone (R85, R94): the place of each turn, the slip last recorded, the dies and
the game clock. -/

namespace Sys2Proof.Machine

/-- Where the turn of a partition stands: the stage, the tick at which its changeover began, the base of its offsets, and whether the turn aborted. -/
def Part.turnPlace (v : Part) : TurnStage × Word × Word × Bool := (v.stage, v.chgStart, v.chgBase, v.aborted)

/-- From s to t no turn has moved: each partition's turn stands where it stood, and the last slips, the dies and the game clock are the same. -/
structure TurnKept (s t : State) : Prop where
  place : ∀ p, (t.part p).turnPlace = (s.part p).turnPlace
  slip : ∀ p, t.reg .tnLastSlip p = s.reg .tnLastSlip p
  dies : t.dies = s.dies
  clock : t.clock = s.clock

namespace TurnKept

theorem refl (s : State) : TurnKept s s := ⟨fun _ => rfl, fun _ => rfl, rfl, rfl⟩

theorem trans {s t u : State} (h : TurnKept s t) (k : TurnKept t u) : TurnKept s u :=
  ⟨fun p => (k.place p).trans (h.place p), fun p => (k.slip p).trans (h.slip p), k.dies.trans h.dies, k.clock.trans h.clock⟩

/-- A choice between two ways that both leave the turns. -/
theorem ite {s t u : State} {c : Prop} [Decidable c] (h : TurnKept s t) (k : TurnKept s u) : TurnKept s (if c then t else u) := by
  split
  · exact h
  · exact k

theorem foldl {α : Type} {f : State → α → State} (h : ∀ s a, TurnKept s (f s a)) (l : List α) (s : State) : TurnKept s (l.foldl f s) := by
  induction l generalizing s with
  | nil => exact refl s
  | cons a l ih => exact (h s a).trans (ih _)

/-- Recording an event leaves the turns. -/
theorem recorded {s t : State} (h : Recorded s t) : TurnKept s t :=
  ⟨fun p => (congrArg Part.turnPlace (h.parts p) :), fun p => h.reg .tnLastSlip p 0 rfl, h.dies, h.clock⟩

/-! Updates of the state -/

theorem setReg {n : RegName} (h : n ≠ .tnLastSlip) (s : State) (i j : Nat) (v : Word) : TurnKept s (s.setReg n i j v) :=
  ⟨fun _ => rfl, fun p => by rw [State.reg_setReg, if_neg fun e => h e.1], rfl, rfl⟩

theorem setField {n : RegName} (h : n ≠ .tnLastSlip) (s : State) (i j lo k x : Nat) : TurnKept s (s.setField n i j lo k x) := setReg h ..

theorem setFlag {n : RegName} (h : n ≠ .tnLastSlip) (s : State) (i j b : Nat) (x : Bool) : TurnKept s (s.setFlag n i j b x) := setReg h ..

theorem bump {n : RegName} (h : n ≠ .tnLastSlip) (s : State) (i j k : Nat) : TurnKept s (s.bump n i j k) := setReg h ..

theorem latchReg (s : State) (n : RegName) (i j : Nat) (v : Word) : TurnKept s (s.latchReg n i j v) := ⟨fun _ => rfl, fun _ => rfl, rfl, rfl⟩

theorem modPart {f : Part → Part} (h : ∀ v, (f v).turnPlace = v.turnPlace) (s : State) (p : Nat) : TurnKept s (s.modPart p f) := by
  refine ⟨fun q => ?_, fun _ => rfl, rfl, rfl⟩
  rw [State.part_modPart]
  split
  · next e => rw [← e, h]
  · rfl

theorem modSquare (s : State) (q : Nat) (f : Square → Square) : TurnKept s (s.modSquare q f) := ⟨fun _ => rfl, fun _ => rfl, rfl, rfl⟩

theorem modHost (s : State) (h : Nat) (f : HostDie → HostDie) : TurnKept s (s.modHost h f) := ⟨fun _ => rfl, fun _ => rfl, rfl, rfl⟩

theorem modRing (s : State) (p r : Nat) (f : Ring → Ring) : TurnKept s (s.modRing p r f) := ⟨fun _ => rfl, fun _ => rfl, rfl, rfl⟩

theorem modQuad (s : State) (n : Nat) (f : Quad → Quad) : TurnKept s (s.modQuad n f) := ⟨fun _ => rfl, fun _ => rfl, rfl, rfl⟩

theorem setRow (s : State) (k : Nat) (v : StreamEntry) : TurnKept s (s.setRow k v) := ⟨fun _ => rfl, fun _ => rfl, rfl, rfl⟩

/-! Writes of DRAM -/

theorem breakReservations (s : State) (ok : Nat → Bool) : TurnKept s (s.breakReservations ok) :=
  foldl (fun s _ => ite (modHost ..) (refl s)) _ s

theorem fillLines (s : State) (first count : Nat) : TurnKept s (s.fillLines first count) := by
  have hzero : TurnKept s (s.zeroRange (1024 * first) (1024 * count)) := ⟨fun _ => rfl, fun _ => rfl, rfl, rfl⟩
  unfold State.fillLines
  extract_lets inside s1 s2
  have h1 : TurnKept s s1 := hzero.trans (breakReservations ..)
  clear_value s1
  exact h1.trans ⟨fun _ => rfl, fun _ => rfl, rfl, rfl⟩

theorem applyFill (s : State) (line : Nat) : TurnKept s (s.applyFill line) := by
  unfold State.applyFill
  extract_lets s1
  have h1 : TurnKept s s1 := fillLines ..
  clear_value s1
  exact ite (h1.trans ⟨fun _ => rfl, fun _ => rfl, rfl, rfl⟩) (refl s)

theorem computeCopy (s : State) (line : Nat) : TurnKept s (s.computeCopy line).1 := by
  unfold State.computeCopy
  dsimp only
  split
  · exact applyFill ..
  · exact (applyFill ..).trans ⟨fun _ => rfl, fun _ => rfl, rfl, rfl⟩

theorem computeWriteIn (s : State) (line off : Nat) (d : List Byte) : TurnKept s (s.computeWriteIn line off d) :=
  (computeCopy s line).trans ⟨fun _ => rfl, fun _ => rfl, rfl, rfl⟩

theorem computeWrite (s : State) (a : Nat) (d : List Byte) : TurnKept s (s.computeWrite a d) := foldl (fun _ _ => computeWriteIn ..) _ s

theorem cleanHart (s : State) (h b : Nat) : TurnKept s (s.cleanHart h b) := by
  unfold State.cleanHart
  split
  · exact ite (refl s) ⟨fun _ => rfl, fun _ => rfl, rfl, rfl⟩
  · exact refl s

theorem evictDirectory (s : State) (b : Nat) : TurnKept s (s.evictDirectory b) :=
  have hgather : TurnKept s (s.gather b) := foldl (fun s h => cleanHart s h b) _ s
  have hdrop (u : State) (h : Nat) : TurnKept u (u.dropHart h b) := ⟨fun _ => rfl, fun _ => rfl, rfl, rfl⟩
  hgather.trans (foldl hdrop ..)

theorem hostWriteBlock (s : State) (b off : Nat) (d : List Byte) : TurnKept s (s.hostWriteBlock b off d) := by
  unfold State.hostWriteBlock
  extract_lets u
  have hu : TurnKept s u := ((applyFill ..).trans (evictDirectory ..)).trans (breakReservations ..)
  clear_value u
  exact ite (hu.trans ⟨fun _ => rfl, fun _ => rfl, rfl, rfl⟩) (hu.trans ⟨fun _ => rfl, fun _ => rfl, rfl, rfl⟩)

theorem hostWrite (s : State) (a : Nat) (d : List Byte) : TurnKept s (s.hostWrite a d) := foldl (fun _ _ => hostWriteBlock ..) _ s

/-! Messages and completions -/

theorem sendMgmt (s : State) (n : Nat) (dst : BitVec 13) (kind p q : Nat) (xid : BitVec 16) (units : List Byte) :
    TurnKept s (s.sendMgmt n dst kind p q xid units) := by
  unfold State.sendMgmt State.pushMsg
  exact modQuad ..

theorem tellMembers (s : State) (p kind : Nat) (units : List Byte) : TurnKept s (s.tellMembers p kind units) := by
  refine foldl (fun s m => ?_) _ s
  dsimp only
  split
  · exact sendMgmt ..
  · exact refl s

theorem sendMsi (s : State) (part : Option Nat) (block source addr : Nat) (data : BitVec 32) :
    TurnKept s (s.sendMsi part block source addr data) := by
  unfold State.sendMsi
  split
  · exact ite (ite (ite (refl s) (modHost ..)) (bump (by decide) ..)) (recorded (Recorded.event ..))
  · exact recorded (Recorded.event ..)

theorem ringMsi (s : State) (p r : Nat) : TurnKept s (s.ringMsi p r) := (modRing ..).trans (sendMsi ..)

theorem notifyRing (s : State) (p r : Nat) : TurnKept s (s.notifyRing p r) := by
  unfold State.notifyRing
  dsimp only
  split
  · exact ite (ringMsi ..) (modRing ..)
  · exact ringMsi ..

theorem writeCompletion (s : State) (p r : Nat) (opcode : BitVec 16) (st : Status) (replay : Bool) (c : Cmd) (turn : Option Word)
    (result : List Byte) : TurnKept s (s.writeCompletion p r opcode st replay c turn result) := by
  unfold State.writeCompletion
  extract_lets cq i size phase s1 s2 s3
  have h3 : TurnKept s s3 := ((hostWrite ..).trans (setReg (by decide) ..)).trans (modRing ..)
  clear_value s3
  exact ite (h3.trans (notifyRing ..)) h3

/-- A completion leaves the turns. -/
theorem complete (s : State) (c : Cmd) (opcode : BitVec 16) (st : Status) (turn : Option Word) (result : List Byte) :
    TurnKept s (s.complete c opcode st turn result) := by
  refine ite (ite (refl s) ?_) ⟨fun _ => rfl, fun _ => rfl, rfl, rfl⟩
  extract_lets r s1 s2
  have h1 : TurnKept s s1 := ⟨fun _ => rfl, fun _ => rfl, rfl, rfl⟩
  have h2 : TurnKept s s2 := by
    unfold s2
    split
    · exact ite (h1.trans (bump (by decide) ..)) h1
    · exact h1
  clear_value s2
  split
  · exact h2.trans (writeCompletion ..)
  · exact h2.trans ⟨fun _ => rfl, fun _ => rfl, rfl, rfl⟩
  · exact h2.trans (sendMgmt ..)

/-! Decisions of Tolerabor -/

theorem decision (s : State) (p : Nat) (n : RegName) (turn : Word) : TurnKept s (s.decision p n turn) := recorded (Recorded.decision ..)

/-- A decision that is written and recorded. -/
theorem decided {n m : RegName} (h : n ≠ .tnLastSlip) (s : State) (i j : Nat) (v : Word) (p : Nat) (turn : Word) :
    TurnKept s ((s.setReg n i j v).decision p m turn) := (setReg h ..).trans (decision ..)

theorem askStep (s : State) (p step : Nat) : TurnKept s (s.askStep p step) := ite (refl s) (decided (by decide) ..)

theorem restUnbatched (s : State) (p : Nat) : TurnKept s (s.restUnbatched p) :=
  foldl (fun _ _ => (setRow ..).trans (recorded (Recorded.eventStatus ..))) _ s

theorem unstage (s : State) (p : Nat) (h : Handle) : TurnKept s (s.unstage p h) := by
  unfold State.unstage State.writeSlices
  have hpart : TurnKept s (s.modPart p (fun v => v.unstage h)) := modPart (by intro; rfl) ..
  split
  · exact hpart.trans (foldl (fun s _ => ite (computeWrite ..) (refl s)) ..)
  · exact hpart

theorem trimBatch (s : State) (p : Nat) : TurnKept s (s.trimBatch p) := by
  unfold State.trimBatch
  dsimp only
  split
  · exact refl s
  · exact ite (refl s) (((foldl (fun _ _ => unstage ..) ..).trans (restUnbatched ..)).trans (decision ..))

theorem chooseTurnLen (s : State) (p : Nat) : TurnKept s (s.chooseTurnLen p) :=
  ite (refl s) (ite (refl s) (decided (by decide) ..))

theorem chooseStep (s : State) (p : Nat) : TurnKept s (s.chooseStep p) := by
  unfold State.chooseStep
  extract_lets v now top hot s1 s2 s3
  have h1 : TurnKept s s1 := ite ((setFlag (by decide) ..).trans (bump (by decide) ..)) (refl s)
  have h2 : TurnKept s s2 := h1.trans (modPart (by intro; rfl) ..)
  have h3 : TurnKept s s3 := h2.trans (modPart (by intro; rfl) ..)
  clear_value s1 s2 s3
  exact ite (ite (h3.trans (askStep ..)) h3) (ite (h2.trans (askStep ..)) (ite h2 (h2.trans (askStep ..))))

theorem chooseMap (s : State) (p : Nat) : TurnKept s (s.chooseMap p) := by
  unfold State.chooseMap
  split
  · exact refl s
  · refine ite (refl s) ?_
    split
    · exact ite (refl s) (decided (by decide) ..)
    · exact refl s

theorem announceChange (s : State) (p : Nat) (maint : Bool) : TurnKept s (s.announceChange p maint) :=
  (modPart (by intro; rfl) s p).trans (tellMembers ..)

theorem announceNew (s : State) (p : Nat) : TurnKept s (s.announceNew p) := ite (announceChange ..) (refl s)

/-! The tick at which a changeover begins -/

theorem latch (s : State) (n : RegName) (i j : Nat) : TurnKept s (s.latch n i j) := ite (refl s) (latchReg ..)

theorem latchTurnLen (s : State) (p : Nat) (v : Word) : TurnKept s (s.latchTurnLen p v) :=
  ite (refl s) (ite (latchReg ..) (recorded (Recorded.event7F ..)))

theorem latchChgLen (s : State) (p : Nat) (v : Word) : TurnKept s (s.latchChgLen p v) :=
  ite (refl s) (ite (latchReg ..) (recorded (Recorded.event7F ..)))

theorem takeBoundary (s : State) (p : Nat) : TurnKept s (s.takeBoundary p) := by
  unfold State.takeBoundary State.latchFields
  extract_lets alone s1 s2
  have h1 : TurnKept s s1 := foldl (fun _ _ => latch ..) ..
  have h2 : TurnKept s s2 := ite (h1.trans ((latchTurnLen ..).trans (latchChgLen ..))) h1
  clear_value s2
  exact h2.trans (modPart (by intro; rfl) ..)

theorem followChange {n : RegName} (h : n ≠ .tnLastSlip) (s : State) (p : Nat) (v : Word) : TurnKept s (s.followChange n p v) :=
  ite (setReg h ..) (refl s)

theorem applySpanChanges (s : State) (p : Nat) : TurnKept s (s.applySpanChanges p) := by
  unfold State.applySpanChanges
  extract_lets due s0
  refine TurnKept.trans (t := s0) (foldl (fun s x => ?_) ..) (modPart (by intro; rfl) ..)
  obtain ⟨_, len, chg, step, map, maint⟩ := x
  dsimp -zeta only
  extract_lets s1 s2 s3 s4
  have h1 : TurnKept s s1 := ((followChange (by decide) ..).trans (followChange (by decide) ..)).trans (followChange (by decide) ..)
  have h2 : TurnKept s1 s2 := (decision ..).trans (decision ..)
  have h3 : TurnKept s2 s3 := ((latchTurnLen ..).trans (latchChgLen ..)).trans (latchReg ..)
  have h4 : TurnKept s3 s4 := ite (refl _) ((followChange (by decide) ..).trans (latchReg ..))
  have h : TurnKept s s4 := ((h1.trans h2).trans h3).trans h4
  clear_value s4
  exact ite (h.trans (modPart (by intro; rfl) ..)) h

theorem applyPolicies (s : State) (p : Nat) : TurnKept s (s.applyPolicies p) := by
  unfold State.applyPolicies
  extract_lets v s1 now s2 s3
  have h2 : TurnKept s s2 := (modPart (by intro; rfl) ..).trans (modPart (by intro; rfl) ..)
  have h3 : TurnKept s2 s3 := by
    unfold s3
    split
    · exact setReg (by decide) ..
    · exact refl _
  clear_value s2 s3
  refine (h2.trans h3).trans (foldl (fun s q => ?_) ..)
  split
  · exact complete ..
  · exact complete ..

theorem budgetStep (s : State) (p : Nat) : TurnKept s (s.budgetStep p) := by
  unfold State.budgetStep
  split
  · exact setReg (by decide) ..
  · exact refl s

/-- The opening of a changeover leaves the turns: what it decides and latches governs the next one. -/
theorem openChangeover (s : State) (p : Nat) : TurnKept s (s.openChangeover p) := by
  unfold State.openChangeover
  extract_lets s1 s2 s3
  have h1 : TurnKept s s1 := modPart (by intro; rfl) ..
  have h2 : TurnKept s1 s2 := ((applySpanChanges ..).trans (applyPolicies ..)).trans (budgetStep ..)
  have h3 : TurnKept s2 s3 :=
    ite (((((trimBatch ..).trans (chooseTurnLen ..)).trans (chooseStep ..)).trans (chooseMap ..)).trans (announceNew ..)) (refl _)
  exact ((h1.trans h2).trans h3).trans (takeBoundary ..)

/-! Wheels, phases and the S-net -/

theorem runWheels (s : State) (p : Nat) (on : Bool) : TurnKept s (s.runWheels p on) := foldl (fun _ _ => setFlag (by decide) ..) _ s

theorem setPhase (s : State) (p x : Nat) : TurnKept s (s.setPhase p x) := setField (by decide) ..

theorem rootSends (s : State) (p : Nat) (m : BitVec 64) : TurnKept s (s.rootSends p m) := by
  unfold State.rootSends
  split
  · unfold State.snDown State.snSend
    exact modSquare ..
  · exact refl s

theorem passUp (s : State) (k : TreeMsg) (q : Nat) : TurnKept s (s.passUp k q) := by
  unfold State.passUp State.snUp
  extract_lets l whole
  refine ite ?_ (refl s)
  exact ite (modSquare ..) ((modSquare ..).trans (modSquare ..))

/-! What stands -/

theorem stage {s t : State} (h : TurnKept s t) (p : Nat) : (t.part p).stage = (s.part p).stage := congrArg (·.1) (h.place p)

theorem chgStart {s t : State} (h : TurnKept s t) (p : Nat) : (t.part p).chgStart = (s.part p).chgStart := congrArg (·.2.1) (h.place p)

theorem chgBase {s t : State} (h : TurnKept s t) (p : Nat) : (t.part p).chgBase = (s.part p).chgBase := congrArg (·.2.2.1) (h.place p)

theorem aborted {s t : State} (h : TurnKept s t) (p : Nat) : (t.part p).aborted = (s.part p).aborted := congrArg (·.2.2.2) (h.place p)

theorem now {s t : State} (h : TurnKept s t) (q : Nat) : t.now q = s.now q := by rw [State.now, State.now, h.clock]

end TurnKept

end Sys2Proof.Machine
end

section
/-! SUPPORT. The stream.* and state.* commands (chapters 3, 9, 10 and 11): one that waits for a changeover moves its partition's queue alone. -/

namespace Sys2Proof.Machine

@[simp] theorem State.enterCommand_rows (s : State) (c : Cmd) (w : MailRow) : (s.enterCommand c w).rows = s.rows := by
  unfold State.enterCommand; dsimp only; split <;> rfl

@[simp] theorem State.enterCommand_cmdTenant (s : State) (c c' : Cmd) (w : MailRow) : (s.enterCommand c w).cmdTenant c' = s.cmdTenant c' := by
  unfold State.cmdTenant; split <;> simp

/-- An operation put at the end of a partition's queue by a command that is taken: the queue alone moves. -/
theorem State.enqueue_enterCommand_outcome (s : State) (c : Cmd) (w : MailRow) (p : Nat) (op : QueuedOp) :
    let u := (s.enterCommand c w).enqueue p c op
    (u.part p).queue = (s.part p).queue ++ [{ cmd := c, op := op }] ∧ u.rows = s.rows ∧ u.mem = s.mem ∧ (∀ n i j, u.reg n i j = s.reg n i j) ∧
      ∀ q, q ≠ p → u.part q = s.part q := by
  refine ⟨?_, State.enterCommand_rows .., State.enterCommand_mem .., State.enterCommand_reg s c w, fun q hq => ?_⟩
  · simp [State.enqueue]
  · simp [State.enqueue, hq.symm]

/-- A command whose taking puts an operation in its partition's queue waits there (R85, R254). -/
theorem waits_of_taken {s : State} {c : Cmd} {w : MailRow} {i : Instr} {bad : Bool} {go : Nat → State → State} {op : QueuedOp}
    (hexec : exec i s = .next (s.take c w bad go)) (hargs : bad = false) (h : s.taken c w false)
    (hgo : go c.target.toNat (s.enterCommand c w) = (s.enterCommand c w).enqueue c.target.toNat c op) :
    ∃ u : State, exec i s = .next u ∧ (u.part c.target.toNat).queue = (s.part c.target.toNat).queue ++ [{ cmd := c, op := op }] ∧
      u.rows = s.rows ∧ u.mem = s.mem ∧ (∀ n i j, u.reg n i j = s.reg n i j) ∧ ∀ q, q ≠ c.target.toNat → u.part q = s.part q := by
  subst hargs
  rw [State.take_of_taken h, hgo] at hexec
  exact ⟨_, hexec, State.enqueue_enterCommand_outcome ..⟩

theorem State.stateInvalidate_of_taken {s : State} {c : Cmd} {h : Handle} {first pages : BitVec 32} {f : Found}
    (hargs : pagesGood first pages = true) (htaken : s.taken c rowInvalidate false)
    (hfound : (s.enterCommand c rowInvalidate).resolve c.target.toNat (s.cmdTenant c) h = .ok f) :
    s.stateInvalidate c h first pages = ((s.enterCommand c rowInvalidate).invalidate c.target.toNat
      ((s.enterCommand c rowInvalidate).entryAt c.target.toNat f).handle first.toNat pages.toNat).complete c 0x0500 .ok := by
  rw [State.stateInvalidate, hargs]
  refine (State.take_of_taken htaken _).trans ?_
  simp only [State.enterCommand_cmdTenant, hfound]

theorem State.stateQuery_of_taken {s : State} {c : Cmd} {h : Handle} {page : BitVec 32} {f : Found} {a b : Nat} {e : Word}
    (hpage : page.toNat < 2 ^ 21) (htaken : s.taken c rowQuery false)
    (hfound : (s.enterCommand c rowQuery).resolve c.target.toNat (s.cmdTenant c) h = .ok f)
    (hleaf : (s.enterCommand c rowQuery).leafOf ((s.enterCommand c rowQuery).entryAt c.target.toNat f).root.toNat page.toNat = some (a, b, e)) :
    s.stateQuery c h page = (s.enterCommand c rowQuery).complete c 0x0502 .ok none
      (resultOf [(16, [BitVec.ofNat 8 (leafTier e)]), (24, leBytes 8 (entryAddr e))]) := by
  rw [State.stateQuery, decide_eq_false (by omega)]
  refine (State.take_of_taken htaken _).trans ?_
  simp only [State.enterCommand_cmdTenant, hfound, hleaf]

/-- Settles O11, row by row. -/
theorem streamAndStateCommands : Obligations.StreamAndStateCommands := by
  refine ⟨fun s c => ⟨fun tenant prio hprio h => ?openRow, fun handle n prompt hprompt h => ?append, fun handle n hn h => ?advance,
    fun handle h => waits_of_taken rfl rfl h rfl, fun handle h => waits_of_taken rfl rfl h rfl, fun handle h => waits_of_taken rfl rfl h rfl,
    fun handle m d hm hd h => ?migrate, fun handle n h => waits_of_taken rfl rfl h rfl, fun handle first pages tier hpages htier h => ?tier⟩,
    fun s c handle f => ⟨fun first pages hpages h hfound => ?invalidate, fun page a b e hpage h hfound hleaf => ?query⟩⟩
  case openRow => exact waits_of_taken rfl (decide_eq_false (by omega)) h (by simp [State.openTenant])
  case append => exact waits_of_taken rfl (decide_eq_false (by omega)) h rfl
  case advance => exact waits_of_taken rfl (decide_eq_false hn) h rfl
  case migrate => exact waits_of_taken rfl (decide_eq_false (by omega)) h rfl
  case tier => exact waits_of_taken rfl (by rw [hpages, decide_eq_false (by omega)]; rfl) h rfl
  case invalidate => exact ⟨_, congrArg Host.Outcome.next (State.stateInvalidate_of_taken hpages h hfound), rfl⟩
  case query => exact congrArg Host.Outcome.next (State.stateQuery_of_taken hpage h hfound hleaf)

end Sys2Proof.Machine
end

section
/-! SUPPORT. The messages of a spanning book (R99, R100, R376 to R378, R494): what each does at a member that serves it. -/

namespace Sys2Proof.Machine

/-- The sender of a message is a member of the spanning book of a partition. -/
def State.fromMember (s : State) (p : Nat) (m : LinkMsg) : Bool := (s.part p).members.any (fun x => decide (x.1 = m.src.toNat))

/-- No member has sent a message just where its sender is not one of them. -/
theorem State.all_ne_iff (s : State) (p : Nat) (m : LinkMsg) :
    (s.part p).members.all (fun x => decide (x.1 ≠ m.src.toNat)) = true ↔ s.fromMember p m = false := by
  simp [State.fromMember]

section
variable {s : State} {n p : Nat} (hserved : s.servedPart n = some p) (m : LinkMsg)
include hserved

theorem State.request_of_served (go : Nat → State → State) : s.request n m go = go p s := by
  rw [State.request, hserved]

theorem State.notice_of_served (go : Nat → State → State) : s.notice n go = go p s := by
  rw [State.notice, hserved]

/-! SPAN_CONFIRM (R376, R377) -/

section
variable {l : Loading} (hload : (s.part p).loading = some l) (hspan : l.book.span = true) (hopen : l.installed = false)
include hload hspan hopen

theorem State.spanConfirmed_of_new (hcrc : bytesAt (m.payload.drop 16) 0 8 = l.book.crc.toNat)
    (hmodules : bytesAt (m.payload.drop 16) 8 1 = l.book.modules) (hmember : s.fromMember p m = true) (hnew : m.src.toNat ∉ l.heard) :
    s.spanConfirmed n m =
      ((s.modPart p (fun v => { v with loading := some { l with heard := l.heard ++ [m.src.toNat] } })).writeSpanOfs p m.src
        (bytesAt (m.payload.drop 16) 12 4)).sendSpanConfirm p l.book (l.heard.length + 1) := by
  have hnone : ¬ (s.part p).members.all (fun x => decide (x.1 ≠ m.src.toNat)) = true := by
    rw [State.all_ne_iff, hmember]
    decide
  rw [State.spanConfirmed, State.request_of_served hserved]
  simp only [hload, hspan, hopen, hcrc, hmodules, hnone, hnew]
  simp

/-- One module too many, another image or another MODULES ends the load. -/
theorem State.spanConfirmed_of_mismatch (hbad : bytesAt (m.payload.drop 16) 0 8 ≠ l.book.crc.toNat ∨
    bytesAt (m.payload.drop 16) 8 1 ≠ l.book.modules ∨ s.fromMember p m = false) : s.spanConfirmed n m = s.failSpanLoad p .mapMismatch := by
  rw [← State.all_ne_iff] at hbad
  rw [State.spanConfirmed, State.request_of_served hserved]
  simp only [hload, hspan, hopen, if_pos hbad]
  simp

omit hserved in
theorem State.spanTimeout_of_short (hshort : l.heard.length + 1 < l.book.modules) : s.spanTimeout p = s.failSpanLoad p .busy := by
  simp [State.spanTimeout, hload, hspan, hopen, hshort]

end

/-- SPAN_LOAD_FAIL ends the load of a spanning book with BUSY, and tells this partition alone of it. -/
theorem State.spanFailed_of_loading {l : Loading} (hload : (s.part p).loading = some l) (hspan : l.book.span = true) :
    ∃ v : State, s.spanFailed n m = v.endLoad p .busy ∧ ∀ q, q ≠ p → v.part q = s.part q := by
  rw [State.spanFailed, State.request_of_served hserved]
  simp only [hload, hspan]
  exact ⟨_, rfl, fun q hq => by simp [hq.symm]⟩

/-! The messages of members that play a book -/

section
variable (hmember : s.fromMember p m = true)
include hmember

theorem State.spanAborted_of_loaded (hbook : s.bookLoaded p = true) :
    s.spanAborted n m = (s.spanLost p).safetyAt (some p) (engineSquare (quadEngine n)) .olQstatus n 0 m.src.toNat := by
  rw [State.fromMember] at hmember
  rw [State.spanAborted, State.request_of_served hserved]
  simp only [hmember, hbook, Bool.and_self, if_true]

theorem State.spanChanged_of_member :
    s.spanChanged n m = s.modPart p (fun v => { v with spanChanges := v.spanChanges ++
      [(BitVec.ofNat 64 (bytesAt (m.payload.drop 16) 8 4), BitVec.ofNat 64 (bytesAt (m.payload.drop 16) 0 4),
        BitVec.ofNat 64 (bytesAt (m.payload.drop 16) 4 2), BitVec.ofNat 3 (bytesAt (m.payload.drop 16) 6 1),
        BitVec.ofNat 8 (bytesAt (m.payload.drop 16) 7 1), decide (bytesAt (m.payload.drop 16) 12 1 % 2 = 1))] }) := by
  rw [State.fromMember] at hmember
  rw [State.spanChanged, State.request_of_served hserved]
  simp only [hmember, if_true]

theorem State.pauseAnnounced_of_member : s.pauseAnnounced n m = s.modPart p (fun v => { v with pausePending := true }) := by
  rw [State.fromMember] at hmember
  rw [State.pauseAnnounced, State.request_of_served hserved]
  simp only [hmember, if_true]

/-- The overrun notice of a member: this one slips with it (R100). -/
theorem State.doneReported_of_overrun (hkind : bytesAt (m.payload.drop 16) 0 1 = 0) (hplay : (s.part p).stage = .play) (hphase : s.phase p = 1) :
    s.doneReported n m = s.setPhase p 3 := by
  rw [State.fromMember] at hmember
  rw [State.doneReported, State.notice_of_served hserved]
  simp [hmember, hkind, hplay, hphase]

/-- The done report of a member out of debug pause: its stamp is held (R100). -/
theorem State.doneReported_of_done (hkind : bytesAt (m.payload.drop 16) 0 1 ≠ 0) (hphase : s.phase p ≠ 5) :
    s.doneReported n m = s.modPart p (fun v => { v with
      doneStamps := Sparse.nput v.doneStamps m.src.toNat (BitVec.ofNat 64 (bytesAt (m.payload.drop 16) 8 8)) }) := by
  have hphase' (f : Part → Part) : (s.modPart p f).phase p ≠ 5 := hphase
  rw [State.fromMember] at hmember
  rw [State.doneReported, State.notice_of_served hserved]
  simp [hmember, hkind, hphase']

end

end

/-- A phase is read as it was set. -/
theorem State.phase_setPhase {x : Nat} (hx : x < 8) (s : State) (p : Nat) : (s.setPhase p x).phase p = x :=
  State.field_setField_same (by decide) hx s .tnStatus p 0

/-- Settles O44, message by message. -/
theorem spanMessages : Obligations.SpanMessages := by
  intro s n m p hserved
  refine ⟨fun l hload hspan hopen hcrc hmodules hmember hnew => congrArg Host.Outcome.next
      (State.spanConfirmed_of_new hserved m hload hspan hopen hcrc hmodules hmember hnew),
    fun l hload hspan hopen hbad => congrArg Host.Outcome.next (State.spanConfirmed_of_mismatch hserved m hload hspan hopen hbad),
    fun l hload hspan hopen hshort => congrArg Host.Outcome.next (State.spanTimeout_of_short hload hspan hopen hshort),
    fun l hload hspan => ?loadFail,
    fun hmember hbook => congrArg Host.Outcome.next (State.spanAborted_of_loaded hserved m hmember hbook),
    fun hmember => ⟨?change, ?pause⟩, fun hmember hkind hplay hphase => ?overrun, fun hmember hkind hphase => ?done⟩
  case loadFail =>
    obtain ⟨v, hv, hparts⟩ := State.spanFailed_of_loading hserved m hload hspan
    exact ⟨v, congrArg Host.Outcome.next hv, hparts⟩
  case change => exact ⟨_, congrArg Host.Outcome.next (State.spanChanged_of_member hserved m hmember), by simp, rfl⟩
  case pause => exact ⟨_, congrArg Host.Outcome.next (State.pauseAnnounced_of_member hserved m hmember), by simp, rfl⟩
  case overrun =>
    exact ⟨_, congrArg Host.Outcome.next (State.doneReported_of_overrun hserved m hmember hkind hplay hphase), State.phase_setPhase (by decide) ..⟩
  case done =>
    refine ⟨_, congrArg Host.Outcome.next (State.doneReported_of_done hserved m hmember hkind hphase), ?_, rfl⟩
    rw [State.part_modPart, if_pos rfl]
    exact nfind_nput_same ..

end Sys2Proof.Machine
end

section
/-! SUPPORT. The game clock (R70 to R74, R78): how its counter and its slew move, and that the plays that begin at a tick leave the clock. -/

namespace Sys2Proof.Machine

/-- A counter that advances by one. -/
theorem State.reg_bump_one (s : State) (n : RegName) (i : Nat) : (s.bump n i).reg n i = (s.reg n i + 1) &&& n.info.defined := by
  rw [State.reg_bump, if_pos ⟨rfl, rfl, rfl⟩]
  rfl

/-! A tick -/

/-- The corrections of local copies leave the counter and the slew. -/
theorem Clock.converge_counter (c : Clock) (n : Nat) : (c.converge n).counter = c.counter ∧ (c.converge n).slew = c.slew :=
  List.foldlRecOn c.fixing _ (motive := fun d : Clock => d.counter = c.counter ∧ d.slew = c.slew) ⟨rfl, rfl⟩ (fun _ hd _ _ => hd)

theorem State.clock_foldl {α : Type} {f : State → α → State} (h : ∀ s a, (f s a).clock = s.clock) (l : List α) (s : State) :
    (l.foldl f s).clock = s.clock := by
  induction l generalizing s with
  | nil => rfl
  | cons a l ih => exact (ih _).trans (h s a)

/-- A play that begins leaves the game clock. -/
theorem State.beginPlay_clock (s : State) (p : Nat) (tick : Word) : (s.beginPlay p tick).clock = s.clock := by
  unfold State.beginPlay
  extract_lets v s1 s2 s3 maint reshard duty stamped hold rows s4 prefill s5 s6 s7 s8 s9
  have h1 : s1.clock = s.clock := rfl
  have h2 : s2.clock = s1.clock := by
    unfold s2
    split <;> rfl
  have h3 : s3.clock = s2.clock := rfl
  have h4 : s4.clock = s3.clock := by
    unfold s4
    split <;> rfl
  have h6 : s6.clock = s4.clock := rfl
  have h7 : s7.clock = s6.clock :=
    (State.clock_foldl (fun s q => (TurnKept.passUp s .done q).clock) ..).trans (State.clock_foldl (fun _ _ => State.modSquare_clock ..) ..)
  have h8 : s8.clock = s7.clock := by
    unfold s8
    split
    · exact State.clock_foldl (fun _ _ => State.modDie_clock ..) ..
    · rfl
  have h9 : s9.clock = s8.clock := State.clock_foldl (fun _ _ => State.setField_clock ..) ..
  have hrest : ((s9.restUnbatched p).runWheels p true).clock = s9.clock := ((TurnKept.restUnbatched ..).trans (TurnKept.runWheels ..)).clock
  calc (((s9.restUnbatched p).runWheels p true).countStreams p).clock
    _ = ((s9.restUnbatched p).runWheels p true).clock := rfl
    _ = s.clock := by rw [hrest, h9, h8, h7, h6, h4, h3, h2, h1]

theorem State.beginPlays_clock (s : State) : s.beginPlays.clock = s.clock := by
  refine State.clock_foldl (fun s p => ?_) _ s
  split
  · split
    · exact State.beginPlay_clock ..
    · rfl
  · rfl

theorem State.advanceClock_clock (s : State) (n : Nat) :
    (s.advanceClock n).clock.counter = s.clock.counter + BitVec.ofNat 64 n ∧ (s.advanceClock n).clock.slew = s.clock.slew := by
  rw [State.advanceClock, State.beginPlays_clock]
  exact Clock.converge_counter ..

/-- The slew that is left falls by k, and GC_STATUS shows whether any is left. -/
def State.slewBy (s : State) (k : Int) : State :=
  ({ s with clock := { s.clock with slew := s.clock.slew - k } } : State).setFlag .gcStatus 0 0 2 (decide (s.clock.slew - k ≠ 0))

section
variable {s : State} (hrun : s.clock.running = true)
include hrun

theorem State.gameTick_counter : s.gameTick.clock.counter = s.clock.counter + 1 := by
  rw [State.gameTick, if_pos hrun]
  exact (s.advanceClock_clock 1).1

/-- An adjusting tick of a clock that is behind: the counter advances by 2. -/
theorem State.slewTick_of_pos (hslew : 0 < s.clock.slew) : s.slewTick = (s.slewBy 1).advanceClock 2 := by
  have hne : s.clock.slew ≠ 0 := by omega
  simp [State.slewTick, State.slewBy, hrun, hne, hslew]

/-- An adjusting tick of a clock that is ahead: the counter stays. -/
theorem State.slewTick_of_neg (hslew : s.clock.slew < 0) : s.slewTick = (s.slewBy (-1)).advanceClock 0 := by
  have hne : s.clock.slew ≠ 0 := by omega
  have hpos : ¬ 0 < s.clock.slew := by omega
  simp [State.slewTick, State.slewBy, hrun, hne, hpos]

theorem State.slewTick_outcome_of_pos (hslew : 0 < s.clock.slew) :
    s.slewTick.clock.counter = s.clock.counter + 2 ∧ s.slewTick.clock.slew = s.clock.slew - 1 := by
  rw [State.slewTick_of_pos hrun hslew]
  exact State.advanceClock_clock ..

theorem State.slewTick_outcome_of_neg (hslew : s.clock.slew < 0) :
    s.slewTick.clock.counter = s.clock.counter ∧ s.slewTick.clock.slew = s.clock.slew + 1 := by
  rw [State.slewTick_of_neg hrun hslew]
  obtain ⟨hcounter, hrest⟩ := State.advanceClock_clock (s.slewBy (-1)) 0
  exact ⟨hcounter.trans (BitVec.add_zero _), hrest.trans (Int.sub_neg ..)⟩

end

/-! CLK_REF (R73) -/

theorem State.refLoss_outcome (s : State) :
    s.refLoss.flag .gcStatus 0 0 0 = true ∧ s.refLoss.flag .gcStatus 0 0 1 = false ∧ s.refLoss.pins.alertN = false ∧ s.refLoss.clock = s.clock := by
  have hrec : Recorded (((s.setFlag .gcStatus 0 0 0 true).setFlag .gcStatus 0 0 1 false).alert) s.refLoss := Recorded.event7F ..
  have hflag (b : Nat) : s.refLoss.flag .gcStatus 0 0 b = ((s.setFlag .gcStatus 0 0 0 true).setFlag .gcStatus 0 0 1 false).flag .gcStatus 0 0 b := by
    rw [State.flag, hrec.reg _ _ _ rfl]
    rfl
  refine ⟨?_, ?_, by rw [hrec.pins]; rfl, hrec.clock⟩
  · rw [hflag, State.flag_setFlag _ _ _ _ _ _ _ (by decide), if_neg (by decide), State.flag_setFlag _ _ _ _ _ _ _ (by decide), if_pos rfl]
  · rw [hflag, State.flag_setFlag _ _ _ _ _ _ _ (by decide), if_pos rfl]

/-- The relock of the PLL, before the difference is slewed. -/
def State.relock (s : State) : State := ((s.setFlag .gcStatus 0 0 0 false).setFlag .gcStatus 0 0 1 true).releaseAlert

theorem State.releaseAlert_outcome (s : State) : s.releaseAlert.regs = s.regs ∧ s.releaseAlert.clock = s.clock := by
  unfold State.releaseAlert
  split <;> exact ⟨rfl, rfl⟩

theorem State.refRelock_of_holdover {s : State} (d : BitVec 32) (h : s.flag .gcStatus 0 0 0 = true) :
    s.refRelock d = s.relock.setSlew (BitVec.ofInt 32 (s.clock.slew + d.toInt)) := by
  have hclock : s.relock.clock = s.clock := (State.releaseAlert_outcome _).2
  rw [State.refRelock, h]
  change s.relock.setSlew (BitVec.ofInt 32 (s.relock.clock.slew + d.toInt)) = _
  rw [hclock]

theorem State.refRelock_outcome {s : State} (d : BitVec 32) (h : s.flag .gcStatus 0 0 0 = true) :
    (s.refRelock d).flag .gcStatus 0 0 0 = false ∧ (s.refRelock d).flag .gcStatus 0 0 1 = true ∧
      (s.refRelock d).clock.slew = (BitVec.ofInt 32 (s.clock.slew + d.toInt)).toInt ∧ (s.refRelock d).clock.counter = s.clock.counter := by
  obtain ⟨hregs, hclock⟩ := State.releaseAlert_outcome ((s.setFlag .gcStatus 0 0 0 false).setFlag .gcStatus 0 0 1 true)
  have hflag (v : BitVec 32) {b : Nat} (hb : b < 2) : (s.relock.setSlew v).flag .gcStatus 0 0 b =
      ((s.setFlag .gcStatus 0 0 0 false).setFlag .gcStatus 0 0 1 true).flag .gcStatus 0 0 b := by
    rw [State.setSlew, State.flag_setFlag _ _ _ _ _ _ _ (by omega), if_neg (by omega), State.flag, State.flag]
    exact congrArg (bitAt · b) (State.reg_of_regs hregs ..)
  rw [State.refRelock_of_holdover d h]
  refine ⟨?_, ?_, rfl, (congrArg Clock.counter hclock :)⟩
  · rw [hflag _ (by decide), State.flag_setFlag _ _ _ _ _ _ _ (by decide), if_neg (by decide), State.flag_setFlag _ _ _ _ _ _ _ (by decide),
      if_pos rfl]
  · rw [hflag _ (by decide), State.flag_setFlag _ _ _ _ _ _ _ (by decide), if_pos rfl]

/-! Local copies (R71, R78, R236) -/

/-- Ticks that a TIME message takes to a square: SN_TIME_LAT rounded to nearest. -/
def State.timeLat (s : State) (q : Nat) : Nat := (2 * s.field .snTimeLat q 0 0 8 + 15) / 30

/-- How far the copy of a square is ahead of what a TIME message tells. -/
def State.timeOff (s : State) (q : Nat) (v : BitVec 56) : Int := ((s.now q).setWidth 56 - (v + BitVec.ofNat 56 (s.timeLat q))).toInt

/-- From Ready on, a copy that is off by no more than 2 ticks stands, and any other is to be corrected, which GC_FIX counts. -/
theorem State.timeMessage_of_ready {s : State} (q : Nat) (v : BitVec 56) (h : s.ready = true) :
    s.timeMessage q v = if (s.timeOff q v).natAbs ≤ 2 then s.bump .snMsgs q else ({ s.bump .snMsgs q with
      clock := { s.clock with fixing := Sparse.nset 0 s.clock.fixing q (s.timeOff q v) } } : State).bump .gcFix q := by
  have hready : (s.bump .snMsgs q).ready = true := by rw [← h]; simp [State.ready, State.flag]
  have hoff : (((s.bump .snMsgs q).now q).setWidth 56 - (v + BitVec.ofNat 56 ((2 * (s.bump .snMsgs q).field .snTimeLat q 0 0 8 + 15) / 30))).toInt =
      s.timeOff q v := by
    simp [State.timeOff, State.timeLat, State.now, State.field]
  unfold State.timeMessage
  simp only [hready, hoff]
  rfl

theorem State.timeMessage_outcome {s : State} (q : Nat) (v : BitVec 56) (h : s.ready = true) :
    (s.timeMessage q v).now q = s.now q ∧
      (2 < (s.timeOff q v).natAbs → (s.timeMessage q v).reg .gcFix q = (s.reg .gcFix q + 1) &&& RegName.gcFix.info.defined) ∧
      ((s.timeOff q v).natAbs ≤ 2 → (s.timeMessage q v).reg .gcFix q = s.reg .gcFix q) := by
  have hbump : (s.bump .snMsgs q).reg .gcFix q = s.reg .gcFix q := by simp
  have hreg (c : Clock) : ({ s.bump .snMsgs q with clock := c } : State).reg .gcFix q = s.reg .gcFix q :=
    (State.reg_of_regs rfl ..).trans hbump
  rw [State.timeMessage_of_ready q v h]
  split
  next hnear => exact ⟨rfl, fun hfar => absurd hnear (by omega), fun _ => hbump⟩
  next hfar =>
    refine ⟨rfl, fun _ => ?_, fun hnear => absurd hnear hfar⟩
    rw [State.reg_bump_one, hreg]

/-- Settles O24, row by row. -/
theorem gameClock : Obligations.GameClock := by
  intro s
  refine ⟨fun hrun => ⟨_, rfl, State.gameTick_counter hrun⟩, fun hrun hslew => ⟨_, rfl, State.slewTick_outcome_of_pos hrun hslew⟩,
    fun hrun hslew => ⟨_, rfl, State.slewTick_outcome_of_neg hrun hslew⟩, ⟨_, rfl, s.refLoss_outcome⟩,
    fun d hhold => ⟨_, rfl, State.refRelock_outcome d hhold⟩, fun q => ⟨_, rfl, ?_⟩,
    fun q v hready => ⟨_, rfl, State.timeMessage_outcome q v hready⟩⟩
  rw [(Recorded.event7F ..).reg _ _ _ rfl, State.reg_bump_one]

end Sys2Proof.Machine
end

section
/-! SUPPORT. The reports of dies and members (R84, R100, R235), and how a changeover begins (R84, R92 to R94, R196). -/

namespace Sys2Proof.Machine

/-! Sorted lists of numbers -/

theorem mem_insertNat {l : List Nat} {n k : Nat} : k ∈ Sparse.insertNat l n ↔ k = n ∨ k ∈ l := by
  induction l with
  | nil => simp [Sparse.insertNat]
  | cons a l ih =>
    unfold Sparse.insertNat
    split
    · simp
    split
    next e => simp [e]
    next => simp [ih, or_left_comm]

/-- A list keeps its numbers when a value is put at one. -/
theorem exists_key_nput {V : Type} {m : List (Nat × V)} {x : Nat × V} (h : x ∈ m) (k : Nat) (v : V) : ∃ y ∈ Sparse.nput m k v, y.1 = x.1 := by
  unfold Sparse.nput
  induction m with
  | nil => cases h
  | cons a m ih =>
    obtain ⟨a, b⟩ := a
    simp only [Sparse.put, id]
    split
    · exact ⟨x, .tail _ h, rfl⟩
    split
    next e =>
      obtain rfl | hm := List.mem_cons.1 h
      · exact ⟨_, .head _, e⟩
      · exact ⟨x, .tail _ hm, rfl⟩
    next =>
      obtain rfl | hm := List.mem_cons.1 h
      · exact ⟨_, .head _, rfl⟩
      · obtain ⟨y, hy, hkey⟩ := ih hm
        exact ⟨y, .tail _ hy, hkey⟩

/-! Messages on the S-net tree (R235) -/

theorem State.held_hold (s : State) (k k' : TreeMsg) (q q' : Nat) (l : List Nat) :
    (s.hold k q l).held k' q' = if k = k' ∧ q = q' then l else s.held k' q' := by
  unfold State.hold State.held
  by_cases hq : q = q'
  · subst hq
    cases k <;> cases k' <;> simp
  · simp [hq]

/-- A message to the parent of a router leaves what the routers hold. -/
theorem State.held_snUp (s : State) (q : Nat) (x : BitVec 64) (k : TreeMsg) (q' : Nat) : (s.snUp q x).held k q' = s.held k q' := by
  unfold State.snUp
  dsimp only
  split
  · rfl
  · unfold State.snSend State.held
    rw [State.square_modSquare]
    by_cases hq : q = q'
    · subst hq
      cases k <;> simp
    · simp only [if_neg hq]

/-- A message passed on stays held, and no other is. -/
theorem State.mem_held_passUp {s : State} {k' : TreeMsg} {q' d : Nat} (h : d ∈ s.held k' q') (k : TreeMsg) (q : Nat) :
    d ∈ (s.passUp k q).held k' q' := by
  unfold State.passUp
  dsimp only
  split
  · rw [State.held_snUp, State.held_hold]
    split
    next e =>
      obtain ⟨rfl, rfl⟩ := e
      exact mem_insertNat.2 (.inr h)
    next => exact h
  · exact h

theorem State.mem_held_gatherTree_of_mem {s : State} {k' : TreeMsg} {q' d' : Nat} (h : d' ∈ s.held k' q') (k : TreeMsg) (q d : Nat) :
    d' ∈ (s.gatherTree k q d).held k' q' := by
  refine State.mem_held_passUp ?_ k q
  rw [State.held_hold]
  split
  next e =>
    obtain ⟨rfl, rfl⟩ := e
    exact mem_insertNat.2 (.inr h)
  next => exact h

/-- A message put at a router is held there. -/
theorem State.mem_held_gatherTree (s : State) (k : TreeMsg) (q d : Nat) : d ∈ (s.gatherTree k q d).held k q := by
  refine State.mem_held_passUp ?_ k q
  rw [State.held_hold, if_pos ⟨rfl, rfl⟩]
  exact mem_insertNat.2 (.inl rfl)

/-- A message put at a router moves the squares alone. -/
theorem State.gatherTree_eq (s : State) (k : TreeMsg) (q d : Nat) : ∃ l, s.gatherTree k q d = { s with squares := l } := by
  unfold State.gatherTree State.passUp
  dsimp only
  split
  · unfold State.snUp
    dsimp only
    split
    · exact ⟨_, rfl⟩
    · exact ⟨_, rfl⟩
  · exact ⟨_, rfl⟩

/-! Reports between members (R100) -/

theorem State.tellMembers_eq (s : State) (p kind : Nat) (units : List Byte) : ∃ l, s.tellMembers p kind units = { s with quads := l } := by
  refine List.foldlRecOn (s.part p).members _ (motive := fun t : State => ∃ l, t = { s with quads := l }) ⟨s.quads, rfl⟩ ?_
  rintro t ⟨l, rfl⟩ x -
  dsimp only
  split
  · exact ⟨_, rfl⟩
  · exact ⟨l, rfl⟩

/-- A report to the members moves the quads, and draws a free value. -/
theorem State.reportDone_eq (s : State) (p : Nat) (isDone : Bool) (stamp : Word) :
    ∃ l k, s.reportDone p isDone stamp = { s with quads := l, fresh := k } := by
  unfold State.reportDone
  split
  · exact ⟨s.quads, s.fresh, rfl⟩
  · obtain ⟨l, hl⟩ := s.draw.2.tellMembers_eq p (s.draw.1.toNat % 256) ([if isDone then 1 else 0] ++ List.replicate 7 0 ++ leBytes 8 stamp.toNat)
    exact ⟨l, s.fresh + 1, hl⟩

/-- A done report moves the quads, a free value, and the partition's stamps. -/
theorem State.stampDone_eq (s : State) (p : Nat) (stamp : Word) : ∃ l k, s.stampDone p stamp = { s with quads := l, fresh := k } ∨
    s.stampDone p stamp = { s.modPart p (fun v => { v with doneStamps := Sparse.nput v.doneStamps s.moduleId.toNat stamp }) with
      quads := l, fresh := k } := by
  unfold State.stampDone
  split
  · exact ⟨s.quads, s.fresh, .inl rfl⟩
  · obtain ⟨l, k, h⟩ := State.reportDone_eq (s.modPart p (fun v => { v with doneStamps := Sparse.nput v.doneStamps s.moduleId.toNat stamp })) p
      true stamp
    exact ⟨l, k, .inr h⟩

theorem State.stampDone_regs (s : State) (p : Nat) (stamp : Word) : (s.stampDone p stamp).regs = s.regs := by
  obtain ⟨l, k, h | h⟩ := s.stampDone_eq p stamp
  exacts [(congrArg State.regs h :), (congrArg State.regs h :)]

theorem State.stampDone_squares (s : State) (p : Nat) (stamp : Word) : (s.stampDone p stamp).squares = s.squares := by
  obtain ⟨l, k, h | h⟩ := s.stampDone_eq p stamp
  exacts [(congrArg State.squares h :), (congrArg State.squares h :)]

/-- The reports heard stand when this member makes its own. -/
theorem State.membersDone_stampDone {s : State} {p : Nat} (h : s.membersDone p = true) (stamp : Word) : (s.stampDone p stamp).membersDone p = true := by
  obtain ⟨l, k, e | e⟩ := s.stampDone_eq p stamp <;> rw [e]
  · exact h
  · have hpart (f : Part → Part) : (({ s.modPart p f with quads := l, fresh := k } : State).part p) = f (s.part p) :=
      (s.part_modPart p p f).trans (if_pos rfl)
    simp only [State.membersDone, hpart, List.all_eq_true, List.any_eq_true, decide_eq_true_eq] at h ⊢
    intro x hx
    obtain ⟨y, hy, hkey⟩ := h x hx
    obtain ⟨z, hz, hsame⟩ := exists_key_nput hy s.moduleId.toNat stamp
    exact ⟨z, hz, hsame.trans hkey⟩

/-! A die that is done (R84) -/

/-- SQ_STATUS.DONE of a site is set, and its square holds DONE from its own die. -/
def State.saysDone (s : State) (i : Nat) : Prop := s.flag .sqStatus i 0 16 = true ∧ 4 ∈ (s.square (siteSquare i)).snDone

/-- SQ_STATUS.DONE and the slack of a die that is done. -/
def State.markDone (s : State) (i : Nat) (slack : Word) : State :=
  (s.setFlag .sqStatus i 0 16 true).setReg .sqSlack i 0 (BitVec.ofNat 64 (slack.toNat % 2 ^ 32))

/-- DONE on the S-net, and under pre-emption YIELDED with it. -/
def State.sendDone (s : State) (p i : Nat) : State :=
  let u := s.gatherTree .done (siteSquare i) 4
  if u.flag .sqPreempt p 0 0 then (u.setFlag .sqStatus i 0 19 true).gatherTree .yielded (siteSquare i) 4 else u

/-- The last die of a partition that is done has it stamp its report (R100). -/
def State.stampIfDone (s : State) (p : Nat) : State := if s.allDone p then s.stampDone p s.now else s

theorem State.signalDone_eq (s : State) (p i cycle : Nat) :
    ∃ (u : State) (slack : Word), s.signalDone p i cycle = ((u.markDone i slack).sendDone p i).stampIfDone p := by
  unfold State.signalDone
  exact ⟨_, _, rfl⟩

theorem State.flag_markDone (s : State) (i : Nat) (slack : Word) : (s.markDone i slack).flag .sqStatus i 0 16 = true := by
  simp [State.markDone, State.flag]

theorem State.saysDone_gatherTree {s : State} {i : Nat} (h : s.saysDone i) (k : TreeMsg) (q d : Nat) : (s.gatherTree k q d).saysDone i := by
  obtain ⟨l, hl⟩ := s.gatherTree_eq k q d
  refine ⟨?_, State.mem_held_gatherTree_of_mem (k' := .done) h.2 k q d⟩
  rw [hl]
  exact h.1

theorem State.saysDone_sendDone {s : State} {i : Nat} (h : s.flag .sqStatus i 0 16 = true) (p : Nat) : (s.sendDone p i).saysDone i := by
  have hdone : (s.gatherTree .done (siteSquare i) 4).saysDone i := by
    obtain ⟨l, hl⟩ := s.gatherTree_eq .done (siteSquare i) 4
    refine ⟨?_, State.mem_held_gatherTree s .done (siteSquare i) 4⟩
    rw [hl]
    exact h
  unfold State.sendDone
  dsimp only
  split
  · exact State.saysDone_gatherTree ⟨(State.flag_setFlag _ _ _ _ _ _ _ (by decide)).trans ((if_neg (by decide)).trans hdone.1), hdone.2⟩ ..
  · exact hdone

theorem State.saysDone_stampIfDone {s : State} {i : Nat} (h : s.saysDone i) (p : Nat) : (s.stampIfDone p).saysDone i := by
  unfold State.stampIfDone
  split
  · refine ⟨(congrArg (bitAt · 16) (State.reg_of_regs (s.stampDone_regs p s.now) ..)).trans h.1, ?_⟩
    rw [State.square, s.stampDone_squares p s.now]
    exact h.2
  · exact h

/-- A die that is done says so in SQ_STATUS and on the S-net (R84). -/
theorem State.saysDone_signalDone (s : State) (p i cycle : Nat) : (s.signalDone p i cycle).saysDone i := by
  obtain ⟨u, slack, h⟩ := s.signalDone_eq p i cycle
  rw [h]
  exact State.saysDone_stampIfDone (State.saysDone_sendDone (State.flag_markDone ..) p) p

/-! The start of a changeover -/

/-- A changeover that begins at a tick: the partition's turn stands at its start, aborted or not, and the last slips stand. -/
theorem State.enterChangeover_outcome (s : State) (p : Nat) (tick : Word) :
    ((s.enterChangeover p tick).part p).stage = .begun ∧ ((s.enterChangeover p tick).part p).chgStart = tick ∧
      ((s.enterChangeover p tick).part p).aborted = (s.part p).aborted ∧
      (s.enterChangeover p tick).reg .tnLastSlip p = s.reg .tnLastSlip p := by
  have hsent : TurnKept s (((s.runWheels p false).setPhase p 2).rootSends p (snMessage snBoundary ((s.turn p).setWidth 56))) :=
    ((TurnKept.runWheels ..).trans (TurnKept.setPhase ..)).trans (TurnKept.rootSends ..)
  unfold State.enterChangeover
  generalize (((s.runWheels p false).setPhase p 2).rootSends p (snMessage snBoundary ((s.turn p).setWidth 56))) = t at hsent ⊢
  generalize hu : State.modPart _ p _ = u
  have hopen := TurnKept.openChangeover u p
  rw [hopen.stage, hopen.chgStart, hopen.aborted, hopen.slip, ← hu, State.part_modPart, if_pos rfl, State.reg_modPart]
  exact ⟨rfl, rfl, hsent.aborted p, hsent.slip p⟩

theorem State.markAborted_outcome (s : State) (p cause : Nat) :
    ((s.markAborted p cause).part p).aborted = true ∧ (s.markAborted p cause).clock = s.clock := by
  unfold State.markAborted
  split
  next h => exact ⟨h, rfl⟩
  · extract_lets s1 s2
    have hrec : TurnKept s2 (s2.eventAny 0x2 0x31 (some p) 0 (leBytes 8 cause ++ leBytes 8 (s2.turn p).toNat)) := TurnKept.recorded (Recorded.eventAny ..)
    rw [hrec.aborted, hrec.clock]
    have hpart : (s2.part p).aborted = (s1.part p).aborted := rfl
    exact ⟨hpart.trans (by simp [s1]), rfl⟩

end Sys2Proof.Machine
end

section
/-! SUPPORT. The boundaries of a turn (R83, R84, R92 to R94, R100): what the end of play, a slip and an abort come to. -/

namespace Sys2Proof.Machine

theorem State.flag_of_regs {s t : State} (h : t.regs = s.regs) (n : RegName) (i j b : Nat) : t.flag n i j b = s.flag n i j b :=
  congrArg (bitAt · b) (State.reg_of_regs h n i j)

theorem State.phase_of_regs {s t : State} (h : t.regs = s.regs) (p : Nat) : t.phase p = s.phase p :=
  congrArg (bitsAt · 8 3) (State.reg_of_regs h .tnStatus p 0)

/-- A bit outside a field stands when the field is replaced. -/
theorem State.flag_setField_ne {lo k b : Nat} (hb : b < 64) (hd : b < lo ∨ lo + k ≤ b) (s : State) (n : RegName) (i j x i' j' : Nat) :
    (s.setField n i j lo k x).flag n i' j' b = s.flag n i' j' b := by
  rw [State.flag, State.reg_setField]
  split
  next e =>
    obtain ⟨-, rfl, rfl⟩ := e
    rw [bitAt, getLsbD_putBits _ _ _ _ _ hb, if_neg (by omega)]
    rfl
  next => rfl

/-- A die has moves to issue where its partition has, it is in service, and its table is not empty. -/
theorem State.dieIssues_congr {s t : State} {p i : Nat} (hpart : t.partIssues p = s.partIssues p) (hservice : t.inService i = s.inService i)
    (htable : (t.die i).tableLen = (s.die i).tableLen) : t.dieIssues p i = s.dieIssues p i := by
  rw [State.dieIssues, State.dieIssues, hpart, hservice, htable]

/-! End of play (R84, R92) -/

/-- A partition whose planned boundary has come. -/
def State.endPlay (s : State) (p : Nat) : State := s.modPart p (fun v => { v with pastEnd := true })

theorem State.part_endPlay (s : State) (p : Nat) : (s.endPlay p).part p = { s.part p with pastEnd := true } :=
  (s.part_modPart p p _).trans (if_pos rfl)

theorem State.allDone_endPlay (s : State) (p : Nat) : (s.endPlay p).allDone p = s.allDone p := by
  have hpart : (s.endPlay p).partIssues p = s.partIssues p := by
    unfold State.partIssues State.bookLoaded
    rw [State.part_endPlay]
    rfl
  have hdie (i : Nat) : (s.endPlay p).dieDone p i = s.dieDone p i := by
    unfold State.dieDone
    rw [State.dieIssues_congr hpart rfl rfl]
    rfl
  unfold State.allDone
  simp only [hdie]
  rfl

theorem State.membersDone_endPlay (s : State) (p : Nat) : (s.endPlay p).membersDone p = s.membersDone p := by
  unfold State.membersDone
  rw [State.part_endPlay]

theorem State.anyHalted_endPlay (s : State) (p : Nat) : (s.endPlay p).anyHalted p = s.anyHalted p := rfl

section
variable {s : State} {p : Nat} (hplay : (s.part p).stage = .play) (hphase : s.phase p = 1) (hend : (s.part p).pastEnd = false)
include hplay hphase hend

theorem State.plannedBoundary_eq : s.plannedBoundary p =
    if (s.part p).emptyTurn then ((s.endPlay p).markAborted p abortStretch).enterChangeover p (s.part p).boundary
    else if (s.endPlay p).allDone p ∧ ¬(s.endPlay p).anyHalted p then
      let t := (s.endPlay p).stampDone p (s.part p).boundary
      if t.membersDone p ∧ t.phase p = 1 then t.enterChangeover p (s.part p).boundary else t.setPhase p 3
    else (s.endPlay p).overrun p := by
  unfold State.plannedBoundary
  exact if_neg (by simp [hplay, hphase, hend])

/-- With a die not done the turn overruns. -/
theorem State.plannedBoundary_of_late (hempty : (s.part p).emptyTurn = false) (hdone : s.allDone p = false) :
    s.plannedBoundary p = (s.endPlay p).overrun p := by
  rw [State.plannedBoundary_eq hplay hphase hend, if_neg (by simp [hempty]), if_neg (by simp [State.allDone_endPlay, hdone])]

/-- With every die done the changeover begins at the planned boundary. -/
theorem State.plannedBoundary_of_done (hdone : s.allDone p = true) (hmembers : s.membersDone p = true) (hhalt : s.anyHalted p = false) :
    ∃ u : State, s.plannedBoundary p = u.enterChangeover p (s.part p).boundary := by
  rw [State.plannedBoundary_eq hplay hphase hend]
  split
  · exact ⟨_, rfl⟩
  · have hall : (s.endPlay p).allDone p ∧ ¬(s.endPlay p).anyHalted p := ⟨(s.allDone_endPlay p).trans hdone, by simp [s.anyHalted_endPlay, hhalt]⟩
    have hstamp := State.membersDone_stampDone ((s.membersDone_endPlay p).trans hmembers) (s.part p).boundary
    have hphase' : ((s.endPlay p).stampDone p (s.part p).boundary).phase p = 1 := (State.phase_of_regs (State.stampDone_regs ..) p).trans hphase
    rw [if_pos hall]
    exact ⟨_, if_pos ⟨hstamp, hphase'⟩⟩

end

theorem State.partSites_of_reg {s t : State} {p : Nat} (h : t.reg .ptRegions p = s.reg .ptRegions p) : t.partSites p = s.partSites p := by
  unfold State.partSites State.partRegions
  rw [h]

theorem Recorded.anyHalted {s t : State} (h : Recorded s t) (p : Nat) : t.anyHalted p = s.anyHalted p := by
  simp only [State.anyHalted, State.partSites_of_reg (h.reg .ptRegions p 0 rfl), State.die_of_dies h.dies]

/-- SLIP at the planned boundary of a partition (R92): OVERRUN is set and TN_OVERRUNS counts. -/
def State.slip (s : State) (p : Nat) (halted : Bool) : State :=
  (((s.bump .tnOverruns p).setFlag .tnStatus p 0 1 true).setPhase p 3).modPart p (fun v =>
    { v with overran := true, hadHalt := v.hadHalt || halted, overrunsInRow := if v.hadHalt || halted then v.overrunsInRow else v.overrunsInRow + 1 })

theorem State.slip_outcome (s : State) (p : Nat) (halted : Bool) :
    (s.slip p halted).phase p = 3 ∧ (s.slip p halted).flag .tnStatus p 0 1 = true ∧ ((s.slip p halted).part p).overran = true ∧
      (s.slip p halted).reg .tnOverruns p = (s.reg .tnOverruns p + 1) &&& RegName.tnOverruns.info.defined := by
  have hregs : (s.slip p halted).regs = (((s.bump .tnOverruns p).setFlag .tnStatus p 0 1 true).setPhase p 3).regs := State.modPart_regs ..
  refine ⟨(State.phase_of_regs hregs p).trans (State.phase_setPhase (by decide) ..), ?_, by simp [State.slip], ?_⟩
  · rw [State.flag_of_regs hregs, State.setPhase, State.flag_setField_ne (by decide) (by decide), State.flag_setFlag _ _ _ _ _ _ _ (by decide),
      if_pos rfl]
  · rw [State.reg_of_regs hregs, State.setPhase, State.reg_setField, if_neg (by simp), State.reg_setFlag, if_neg (by simp), State.reg_bump_one]

theorem State.reportDone_regs (s : State) (p : Nat) (isDone : Bool) (stamp : Word) : (s.reportDone p isDone stamp).regs = s.regs := by
  obtain ⟨l, k, h⟩ := s.reportDone_eq p isDone stamp
  exact (congrArg State.regs h :)

theorem State.reportDone_parts (s : State) (p : Nat) (isDone : Bool) (stamp : Word) : (s.reportDone p isDone stamp).parts = s.parts := by
  obtain ⟨l, k, h⟩ := s.reportDone_eq p isDone stamp
  exact (congrArg State.parts h :)

/-- An overrun in which no rook is halted records its events, slips and tells the members. -/
theorem State.overrun_of_running {s : State} {p : Nat} (hhalt : s.anyHalted p = false) :
    ∃ u : State, Recorded s u ∧ s.overrun p = (u.slip p false).reportDone p false (u.slip p false).now := by
  unfold State.overrun
  extract_lets late s1 halted s2
  have hrec : Recorded s s1 := Recorded.foldl _ (fun _ _ => Recorded.eventAny ..) ..
  have hhalted : halted = false := (hrec.anyHalted p).trans hhalt
  have hslip : s2 = s1.slip p halted := rfl
  rw [hslip, hhalted]
  exact ⟨s1, hrec, rfl⟩

theorem State.overrun_outcome {s : State} {p : Nat} (hhalt : s.anyHalted p = false) :
    (s.overrun p).phase p = 3 ∧ (s.overrun p).flag .tnStatus p 0 1 = true ∧ ((s.overrun p).part p).overran = true ∧
      (s.overrun p).reg .tnOverruns p = (s.reg .tnOverruns p + 1) &&& RegName.tnOverruns.info.defined := by
  obtain ⟨u, hrec, hrun⟩ := State.overrun_of_running hhalt
  obtain ⟨hphase, hflag, hover, hcount⟩ := u.slip_outcome p false
  have hregs : (s.overrun p).regs = (u.slip p false).regs := by rw [hrun, State.reportDone_regs]
  have hparts : (s.overrun p).parts = (u.slip p false).parts := by rw [hrun, State.reportDone_parts]
  rw [State.phase_of_regs hregs, State.flag_of_regs hregs, State.reg_of_regs hregs, State.part, hparts, hcount, hrec.reg _ _ _ rfl]
  exact ⟨hphase, hflag, hover, rfl⟩

/-! Slip and abort (R93, R94) -/

/-- A slip of a partition that plays alone ends once every die is done. -/
theorem State.slipChangeover_of_done {s : State} {p : Nat} (hplay : (s.part p).stage = .play) (hphase : s.phase p = 3)
    (hmembers : (s.part p).members = []) (hdone : s.allDone p = true) (hhalt : s.anyHalted p = false) :
    s.slipChangeover p =
      (s.setReg .tnLastSlip p 0 (BitVec.ofNat 64 ((s.now - (s.part p).boundary).toNat % 2 ^ 32))).enterChangeover p s.now := by
  have hheard : s.membersDone p = true := by simp [State.membersDone, hmembers]
  have halone : s.isMember p = false := by simp [State.isMember, hmembers]
  unfold State.slipChangeover
  refine (if_neg ?_).trans (if_pos ?_)
  · simp [hplay, hphase, hdone, hhalt, hheard]
  · simp [halone]

theorem State.slipLimit_of_late {s : State} {p : Nat} (hplay : (s.part p).stage = .play) (hphase : s.phase p = 3) (hhalt : s.anyHalted p = false)
    (hpause : (s.part p).pausePending = false) (hdone : s.allDone p = false) : s.slipLimit p = s.abortTurn p abortSlip := by
  simp [State.slipLimit, hplay, hphase, hhalt, hpause, hdone]

/-- The drain of an aborted turn: its changeover begins now, and its work 500 ticks on. -/
def State.drain (s : State) (p : Nat) : State :=
  s.modPart p (fun v => { v with stage := .draining, chgStart := s.now, chgBase := s.now + 500, chgNow := s.chgLen p })

/-- A turn that aborts in play or slip drains, and takes its boundary unless a rook is halted. -/
theorem State.abortTurn_eq {s : State} {p : Nat} (hplay : (s.part p).stage = .play) (cause : Nat) :
    let t := ((((s.markAborted p cause).runWheels p false).setPhase p 2).rootSends p (snMessage snAbort ((s.turn p).setWidth 56))).drain p
    s.abortTurn p cause = if t.anyHalted p then t else t.openChangeover p := by
  unfold State.abortTurn
  simp only [hplay]
  rfl

theorem State.abortTurn_of_play {s : State} {p : Nat} (hplay : (s.part p).stage = .play) (cause : Nat) :
    ((s.abortTurn p cause).part p).aborted = true ∧ ((s.abortTurn p cause).part p).chgBase = s.now + 500 := by
  obtain ⟨haborted, hclock⟩ := s.markAborted_outcome p cause
  have hsent : TurnKept (s.markAborted p cause)
      ((((s.markAborted p cause).runWheels p false).setPhase p 2).rootSends p (snMessage snAbort ((s.turn p).setWidth 56))) :=
    ((TurnKept.runWheels ..).trans (TurnKept.setPhase ..)).trans (TurnKept.rootSends ..)
  rw [State.abortTurn_eq hplay]
  generalize ((((s.markAborted p cause).runWheels p false).setPhase p 2).rootSends p (snMessage snAbort ((s.turn p).setWidth 56))) = t
    at hsent ⊢
  have hopen : TurnKept (t.drain p) (if (t.drain p).anyHalted p then t.drain p else (t.drain p).openChangeover p) :=
    TurnKept.ite (TurnKept.refl _) (TurnKept.openChangeover ..)
  have hnow : t.now = s.now := by rw [hsent.now, State.now, State.now, hclock]
  rw [hopen.aborted, hopen.chgBase, State.drain, State.part_modPart, if_pos rfl, hnow]
  exact ⟨(hsent.aborted p).trans haborted, rfl⟩

/-! The start of play at a die (R83) -/

/-- The registers of a die that takes up the play of its partition: its status, its mode and its sequencer are those of the start. -/
def State.startRegs (s : State) (i : Nat) : State :=
  let u := s.setField .sqStatus i 0 16 5 0
  ((u.setField .mxStatus i 0 32 3 (u.field .mxModeInit i 0 0 3)).setFlag .mxStatus i 0 2 false).setReg .sqNext i 0 0

/-- A die at the start of play: both buffers of every MAC hold +0. -/
def Die.start (d : Die) : Die :=
  { d with accum := [], bufs := [], lastStart := none, lastCycle := none, issuedCrc := 0xFFFFFFFF, playing := true, rookReady := false }

/-- A die takes up the play of its partition. -/
def State.enterPlay (s : State) (i : Nat) : State := (s.startRegs i).modDie i Die.start

theorem State.reg_enterPlay {n : RegName} (hq : RegName.sqStatus ≠ n) (hm : RegName.mxStatus ≠ n) (hn : RegName.sqNext ≠ n) (s : State)
    (i a b : Nat) : (s.enterPlay i).reg n a b = s.reg n a b := by
  rw [State.enterPlay, State.reg_modDie, State.startRegs, State.reg_setReg, if_neg fun e => hn e.1, State.reg_setFlag, if_neg fun e => hm e.1,
    State.reg_setField, if_neg fun e => hm e.1, State.reg_setField, if_neg fun e => hq e.1]

theorem State.flag_enterPlay {n : RegName} (hq : RegName.sqStatus ≠ n) (hm : RegName.mxStatus ≠ n) (hn : RegName.sqNext ≠ n) (s : State)
    (i a b c : Nat) : (s.enterPlay i).flag n a b c = s.flag n a b c :=
  congrArg (bitAt · c) (State.reg_enterPlay hq hm hn s i a b)

theorem State.die_enterPlay (s : State) (i : Nat) : (s.enterPlay i).die i = (s.die i).start :=
  ((s.startRegs i).die_modDie i i Die.start).trans (if_pos rfl)

theorem State.dieIssues_enterPlay (s : State) (p i : Nat) : (s.enterPlay i).dieIssues p i = s.dieIssues p i := by
  refine State.dieIssues_congr ?_ ?_ ?_
  · have hfenced : (s.enterPlay i).partFenced p = s.partFenced p := State.flag_enterPlay (by simp) (by simp) (by simp) ..
    unfold State.partIssues
    rw [hfenced]
    rfl
  · have henabled : (s.enterPlay i).siteEnabled i = s.siteEnabled i := by
      unfold State.siteEnabled
      rw [State.flag_enterPlay (by simp) (by simp) (by simp), State.flag_enterPlay (by simp) (by simp) (by simp)]
    have hout : (s.enterPlay i).siteOut i = s.siteOut i := by
      unfold State.siteOut
      rw [State.flag_enterPlay (by simp) (by simp) (by simp), State.flag_enterPlay (by simp) (by simp) (by simp)]
    unfold State.inService
    rw [henabled, hout, State.die_enterPlay]
    rfl
  · rw [State.die_enterPlay]
    rfl

/-- The registers of a die that plays: its sequencer at its first move, no status of the last turn, and the mode of MX_MODE_INIT. -/
theorem State.startRegs_outcome (s : State) (i : Nat) :
    (s.startRegs i).reg .sqNext i = 0 ∧ (s.startRegs i).field .sqStatus i 0 16 5 = 0 ∧
      (s.startRegs i).field .mxStatus i 0 32 3 = s.field .mxModeInit i 0 0 3 := by
  have hmode : (s.setField .sqStatus i 0 16 5 0).field .mxModeInit i 0 0 3 = s.field .mxModeInit i 0 0 3 := by
    simp [State.field]
  have hstatus : (s.startRegs i).reg .sqStatus i = (s.setField .sqStatus i 0 16 5 0).reg .sqStatus i := by
    rw [State.startRegs, State.reg_setReg, if_neg (by simp), State.reg_setFlag, if_neg (by simp), State.reg_setField, if_neg (by simp)]
  have hflag (u : State) : (u.setFlag .mxStatus i 0 2 false).field .mxStatus i 0 32 3 = u.field .mxStatus i 0 32 3 :=
    State.field_setField_ne (by decide) (by decide) ..
  refine ⟨?_, ?_, ?_⟩
  · simp [State.startRegs]
  · rw [State.field, hstatus, ← State.field, State.field_setField_same (by decide) (by decide)]
  · rw [State.startRegs, State.field, State.reg_setReg, if_neg (by simp), ← State.field, hflag,
      State.field_setField_same (by decide) (State.field_lt ..), hmode]

section
variable {s : State} {p i : Nat} (howner : s.siteOwner i = some p) (hplay : s.inPlay p = true) (hservice : s.inService i = true)
  (hidle : (s.die i).playing = false) (hstart : (s.reg .tnStart p).toNat ≤ (s.now (siteSquare i)).toNat)
  (hhalt : (s.die i).haltPending = false) (hfault : (s.die i).rookFault = false)
include howner hplay hservice hidle hstart hhalt hfault

/-- A die that no halt and no fault awaits takes up the play: with no moves it is done at once. -/
theorem State.playStart_eq : s.playStart i = if s.dieIssues p i then s.enterPlay i else (s.enterPlay i).signalDone p i 0 := by
  have hhalt' : ¬((s.enterPlay i).die i).haltPending = true := by
    rw [State.die_enterPlay]
    simp [Die.start, hhalt]
  have hfault' : ¬((s.enterPlay i).die i).rookFault = true := by
    rw [State.die_enterPlay]
    simp [Die.start, hfault]
  rw [← s.dieIssues_enterPlay p i]
  unfold State.playStart
  rw [howner]
  refine (if_neg (by simp [hplay, hservice, hidle, hstart])).trans ?_
  extract_lets s1 s2 s3 s4 s5
  have h4 : s4 = s.enterPlay i := rfl
  have h5 : s5 = s4 := if_neg (h4 ▸ hhalt')
  rw [h5, h4, if_neg hfault']

end

theorem State.enterPlay_outcome (s : State) (i : Nat) :
    ((s.enterPlay i).die i).playing = true ∧ ((s.enterPlay i).die i).accum = [] ∧ ((s.enterPlay i).die i).bufs = [] ∧
      (s.enterPlay i).reg .sqNext i = 0 ∧ (s.enterPlay i).field .sqStatus i 0 16 5 = 0 ∧
      (s.enterPlay i).field .mxStatus i 0 32 3 = s.field .mxModeInit i 0 0 3 := by
  rw [State.die_enterPlay, State.field, State.field, State.enterPlay, State.reg_modDie, State.reg_modDie, State.reg_modDie]
  exact ⟨rfl, rfl, rfl, s.startRegs_outcome i⟩

/-- Settles O21: a die starts by its registers, a late turn slips, a slip ends when the last die is done, and at its limit the turn aborts. -/
theorem playAndBoundaries : Obligations.PlayAndBoundaries := by
  unfold Obligations.PlayAndBoundaries
  intro s p site
  refine ⟨?_, ?_, ?_, ?_⟩
  · intro howner hplay hservice hidle hstart hhalt hfault
    exact ⟨s.enterPlay site, congrArg Host.Outcome.next (State.playStart_eq howner hplay hservice hidle hstart hhalt hfault), s.enterPlay_outcome site⟩
  · intro hplay hphase hend hempty hdone hhalt
    exact ⟨_, congrArg Host.Outcome.next (State.plannedBoundary_of_late hplay hphase hend hempty hdone),
      State.overrun_outcome ((s.anyHalted_endPlay p).trans hhalt)⟩
  · intro hplay hphase hmembers hdone hhalt
    refine ⟨_, congrArg Host.Outcome.next (State.slipChangeover_of_done hplay hphase hmembers hdone hhalt), ?_⟩
    obtain ⟨hstage, hstart, -, hslip⟩ := State.enterChangeover_outcome
      (s.setReg .tnLastSlip p 0 (BitVec.ofNat 64 ((s.now - (s.part p).boundary).toNat % 2 ^ 32))) p s.now
    exact ⟨hstage, hstart, hslip.trans (by simp)⟩
  · intro hplay hphase hhalt hpause hdone
    have hlimit := State.slipLimit_of_late hplay hphase hhalt hpause hdone
    exact ⟨congrArg Host.Outcome.next hlimit, State.abortTurn_of_play hplay abortSlip⟩

theorem State.finishDie_of_passed {s : State} {p i : Nat} (howner : s.siteOwner i = some p) (hplay : s.inPlay p = true)
    (hplaying : (s.die i).playing = true) (hissues : s.dieIssues p i = true) (hnew : s.flag .sqStatus i 0 16 = false)
    (hhalt : (s.die i).halted = false)
    (hpassed : s.field .sqNext i 0 0 18 = (s.die i).tableLen ∧ (s.die i).flights = [] ∧ (s.die i).check = none) (cycle : Word) :
    s.finishDie i cycle = s.signalDone p i cycle.toNat := by
  unfold State.finishDie
  rw [howner]
  exact if_pos (by simp [hplay, hplaying, hissues, hnew, hhalt, hpassed])

theorem State.finishDie_of_not_passed {s : State} {i : Nat}
    (hpassed : ¬(s.field .sqNext i 0 0 18 = (s.die i).tableLen ∧ (s.die i).flights = [] ∧ (s.die i).check = none)) (cycle : Word) :
    s.finishDie i cycle = s := by
  unfold State.finishDie
  split
  · rfl
  · exact if_neg (by simp [hpassed])

/-- Settles O59: a die that has passed its last move says so once, and with every die done the boundary is the planned one. -/
theorem doneAtPlannedBoundary : Obligations.DoneAtPlannedBoundary := by
  unfold Obligations.DoneAtPlannedBoundary
  intro s p i cycle howner passed
  refine ⟨?_, ?_, ?_⟩
  · intro hplay hplaying hissues hnew hhalt hpassed
    exact ⟨congrArg Host.Outcome.next (State.finishDie_of_passed howner hplay hplaying hissues hnew hhalt hpassed cycle),
      s.saysDone_signalDone p i cycle.toNat⟩
  · intro hpassed
    exact congrArg Host.Outcome.next (State.finishDie_of_not_passed hpassed cycle)
  · intro hplay hphase hend hmembers hdone hhalt
    obtain ⟨u, hu⟩ := State.plannedBoundary_of_done hplay hphase hend hdone hmembers hhalt
    obtain ⟨hstage, hstart, -⟩ := u.enterChangeover_outcome p (s.part p).boundary
    exact ⟨_, congrArg Host.Outcome.next hu, hstage, hstart⟩

end Sys2Proof.Machine
end

section
/-! SUPPORT. The steps of a changeover (R80, R85 to R90, R94, R197): the change of the step's clock, the rook window, the barrier, the stretch and
a preemption. -/

namespace Sys2Proof.Machine

/-! The change of the step's clock (R88) -/

theorem State.parts_foldl {α : Type} {f : State → α → State} (h : ∀ s a, (f s a).parts = s.parts) (l : List α) (s : State) :
    (l.foldl f s).parts = s.parts := by
  induction l generalizing s with
  | nil => rfl
  | cons a l ih => exact (ih _).trans (h s a)

/-- The margins of a region are bits of its own register. -/
theorem State.reg_setMargins {n : RegName} (hn : RegName.pwRgnStatus ≠ n) (s : State) (r i j : Nat) : (s.setMargins r).reg n i j = s.reg n i j :=
  State.reg_foldl (fun s k => by rw [State.reg_setFlag, if_neg fun e => hn e.1]) _ s

theorem State.parts_setMargins (s : State) (r : Nat) : (s.setMargins r).parts = s.parts :=
  State.parts_foldl (f := fun s k => s.setFlag .pwRgnStatus r 0 (40 + k) (s.regionMargin r k)) (fun _ _ => rfl) _ s

/-- The step of a partition, once its clocks have changed. -/
def State.putStep (s : State) (p : Nat) (k : BitVec 3) : State :=
  (s.setField .tnStatus p 0 16 3 k.toNat).modPart p (fun v => { v with stepPending := none })

theorem State.clockStep_eq {s : State} {p : Nat} {k : BitVec 3} (hpending : (s.part p).stepPending = some k)
    (hstage : (s.part p).stage = .started ∨ (s.part p).stage = .worked) :
    s.clockStep p = ((s.putStep p k).partRegions p).foldl (fun s r => s.setMargins r) (s.putStep p k) := by
  unfold State.clockStep
  dsimp only
  rw [hpending]
  exact if_pos hstage

theorem State.clockStep_outcome {s : State} {p : Nat} {k : BitVec 3} (hpending : (s.part p).stepPending = some k)
    (hstage : (s.part p).stage = .started ∨ (s.part p).stage = .worked) :
    (s.clockStep p).stepNow p = k.toNat ∧ ((s.clockStep p).part p).stepPending = none := by
  rw [State.clockStep_eq hpending hstage]
  constructor
  · rw [State.stepNow, State.field, State.reg_foldl (fun s r => State.reg_setMargins (by simp) s r _ _), ← State.field, State.putStep]
    exact State.field_setField_same (by decide) k.isLt s .tnStatus p 0
  · rw [State.part, State.parts_foldl State.parts_setMargins, ← State.part, State.putStep, State.part_modPart, if_pos rfl]

/-! The rook window (R197, R199) -/

section
variable (s : State)

theorem TurnKept.computeReadIn (line off n r : Nat) : TurnKept s (s.computeReadIn line off n r).1 := by
  have hfill : TurnKept s (s.applyFill line) := TurnKept.applyFill ..
  have hdram (u : State) : TurnKept u (u.dramUe line 0x1F r) :=
    ((TurnKept.bump (by decide) ..).trans (TurnKept.setReg (by decide) ..)).trans (TurnKept.recorded (Recorded.eventStatus ..))
  have hslice (u : State) (q a : Nat) : TurnKept u (u.sliceUe q a r) :=
    (TurnKept.bump (by decide) ..).trans (TurnKept.recorded (Recorded.eventStatus ..))
  unfold State.computeReadIn
  dsimp only
  split
  · split
    · exact hfill.trans (hdram ..)
    · exact hfill.trans (TurnKept.computeCopy ..)
  · split
    · exact hfill.trans (hslice ..)
    · exact hfill

theorem TurnKept.foldl_fst {α β : Type} {f : State × β → α → State × β} (h : ∀ x a, TurnKept x.1 (f x a).1) (l : List α) (x : State × β) :
    TurnKept x.1 (l.foldl f x).1 := by
  induction l generalizing x with
  | nil => exact TurnKept.refl _
  | cons a l ih => exact (h x a).trans (ih _)

theorem TurnKept.computeRead (a n r : Nat) : TurnKept s (s.computeRead a n r).1 := by
  unfold State.computeRead
  refine TurnKept.foldl_fst (fun x y => ?_) (linePieces a n) (s, Except.ok [])
  obtain ⟨u, res⟩ := x
  obtain ⟨l, o, k⟩ := y
  have h := TurnKept.computeReadIn u l o k r
  dsimp only
  split
  · exact TurnKept.refl _
  · split <;> next e => rwa [e] at h

/-- A slice that a rook reads leaves the turn, and whether the pip check is due. -/
theorem State.readSlice_outcome (p i : Nat) :
    ((s.readSlice p i).1.die i).pipNext = (s.die i).pipNext ∧ (s.readSlice p i).1.turn p = s.turn p := by
  have hdies := (TurnKept.computeRead s (Config.stagingArea p i) (64 * (s.stagedRows p i).length) (siteSquare i)).dies
  have hturn : (s.computeRead (Config.stagingArea p i) (64 * (s.stagedRows p i).length) (siteSquare i)).1.turn p = s.turn p :=
    State.reg_computeRead (by decide) rfl ..
  unfold State.readSlice
  dsimp only
  split
  · split
    next t d e =>
      rw [e] at hdies hturn
      exact ⟨congrArg Die.pipNext (State.die_of_dies hdies i), hturn⟩
    next t d e =>
      rw [e] at hdies hturn
      refine ⟨?_, hturn⟩
      rw [State.die_modDie, if_pos rfl]
      exact (congrArg Die.pipNext (State.die_of_dies hdies i) :)
  · exact ⟨rfl, rfl⟩

theorem State.setBytes_eq (a : Nat) (l : List Byte) : ∃ m, s.setBytes a l = { s with mem := m } := by
  induction l generalizing s a with
  | nil => exact ⟨s.mem, rfl⟩
  | cons b l ih =>
    obtain ⟨m, hm⟩ := ih (s.setByte a b) (a + 1)
    exact ⟨m, hm⟩

theorem State.writeSheet_eq (i : Nat) (l : List (Nat × Byte)) : ∃ m, s.writeSheet i l = { s with mem := m } := by
  unfold State.writeSheet
  split
  · refine List.foldlRecOn l _ (motive := fun t : State => ∃ m, t = { s with mem := m }) ⟨s.mem, rfl⟩ ?_
    rintro t ⟨m, rfl⟩ ⟨o, b⟩ -
    dsimp only
    split
    · exact State.setBytes_eq _ _ [b]
    · exact ⟨m, rfl⟩
  · exact ⟨s.mem, rfl⟩

theorem State.copyNext_eq (p i : Nat) : ∃ m, s.copyNext p i = { s with mem := m } := by
  unfold State.copyNext
  dsimp only
  split
  · unfold State.copyStandby State.copyTable
    split
    · exact State.setBytes_eq ..
    · exact ⟨s.mem, rfl⟩
  · exact ⟨s.mem, rfl⟩

end

/-- The rook's copy of its slice, the sheets that it writes from it, and the tail map that it installs. -/
def State.copySlice (s : State) (p i : Nat) (sheets : List (Nat × Byte)) : State :=
  let r := s.readSlice p i
  ((r.1.writeSheet i (r.2.2.mapIdx (fun k b => (Config.sliceCopy i + k, b)))).writeSheet i sheets).modDie i (fun d =>
    { d with batchCopy := r.2.1.map Prod.fst, tailMap := r.2.1.map Prod.snd, notAdvanced := [] })

/-- The table copy that a map switch awaits, where it has ended. -/
def State.endCopy (s : State) (p i : Nat) (copied : Bool) : State :=
  if copied then
    ((s.copyNext p i).modDie i (fun d => { d with standbyReady := true })).modPart p (fun v =>
      { v with switch := v.switch.map (fun w => { w with copied := Sparse.insertNat w.copied i }) })
  else s

theorem State.copySlice_outcome (s : State) (p i : Nat) (sheets : List (Nat × Byte)) :
    ((s.copySlice p i sheets).die i).batchCopy = (s.readSlice p i).2.1.map Prod.fst ∧
      ((s.copySlice p i sheets).die i).tailMap = (s.readSlice p i).2.1.map Prod.snd ∧ ((s.copySlice p i sheets).die i).notAdvanced = [] ∧
      ((s.copySlice p i sheets).die i).pipNext = (s.die i).pipNext ∧ (s.copySlice p i sheets).turn p = s.turn p := by
  obtain ⟨hpip, hturn⟩ := s.readSlice_outcome p i
  unfold State.copySlice
  dsimp only
  generalize s.readSlice p i = r at hpip hturn ⊢
  obtain ⟨m, hm⟩ := r.1.writeSheet_eq i (r.2.2.mapIdx (fun k b => (Config.sliceCopy i + k, b)))
  obtain ⟨m', hm'⟩ := State.writeSheet_eq { r.1 with mem := m } i sheets
  rw [hm, hm', State.die_modDie, if_pos rfl]
  exact ⟨rfl, rfl, rfl, hpip, hturn⟩

theorem State.die_modPart (s : State) (p i : Nat) (f : Part → Part) : (s.modPart p f).die i = s.die i := rfl

theorem State.endCopy_outcome (s : State) (p i : Nat) (copied : Bool) :
    (s.endCopy p i copied).die i = { s.die i with standbyReady := copied || (s.die i).standbyReady } ∧ (s.endCopy p i copied).turn p = s.turn p := by
  unfold State.endCopy
  cases copied with
  | false => exact ⟨rfl, rfl⟩
  | true =>
    obtain ⟨m, hm⟩ := s.copyNext_eq p i
    rw [if_pos rfl, hm, State.die_modPart, State.die_modDie, if_pos rfl]
    exact ⟨rfl, rfl⟩

/-- Where no pip check is due, the rook window copies the slice, and the table where that copy has ended. -/
theorem State.rookWindow_of_no_pip {s : State} {p i : Nat} (howner : s.siteOwner i = some p) (hworked : (s.part p).stage = .worked)
    (hservice : s.inService i = true) (hpip : (s.die i).pipNext = false) (hturn : (s.turn p).toNat % 256 ≠ i) (sheets : List (Nat × Byte))
    (failing : List (Nat × Nat)) (copied : Bool) : s.rookWindow i sheets failing copied = (s.copySlice p i sheets).endCopy p i copied := by
  obtain ⟨-, -, -, hpip', hturn'⟩ := s.copySlice_outcome p i sheets
  obtain ⟨hdie, hturn''⟩ := (s.copySlice p i sheets).endCopy_outcome p i copied
  have hcheck : ¬((((s.copySlice p i sheets).endCopy p i copied).die i).pipNext ||
      decide ((((s.copySlice p i sheets).endCopy p i copied).turn p).toNat % 256 = i)) = true := by
    simp [hdie, hturn'', hpip', hturn', hpip, hturn]
  unfold State.rookWindow
  rw [howner]
  exact (if_neg (by simp [hworked, hservice])).trans (if_neg hcheck)

theorem State.gatherTree_dies (s : State) (k : TreeMsg) (q d : Nat) : (s.gatherTree k q d).dies = s.dies := by
  obtain ⟨l, hl⟩ := s.gatherTree_eq k q d
  exact (congrArg State.dies hl :)

theorem State.rookIsReady_outcome {s : State} {p i : Nat} (howner : s.siteOwner i = some p) (hworked : (s.part p).stage = .worked)
    (hservice : s.inService i = true) (hready : (s.die i).rookReady = false) : ((s.rookIsReady i).die i).rookReady = true := by
  have hdie : (((s.modDie i (fun d => { d with rookReady := true })).gatherTree .ready (siteSquare i) 4).die i).rookReady = true := by
    rw [State.die_of_dies (State.gatherTree_dies ..), State.die_modDie, if_pos rfl]
  unfold State.rookIsReady
  rw [howner]
  dsimp only
  rw [if_neg (by simp [hworked, hservice, hready])]
  split
  · exact hdie
  · exact hdie

/-! The barrier and the stretch (R80, R87) -/

section
variable {s : State} {p : Nat} (hworked : (s.part p).stage = .worked)
include hworked

/-- With every rook ready play begins where the changeover ends. -/
theorem State.playBarrier_of_ready (hphase : s.phase p = 2) (hstop : (s.part p).stopNext = false) (hlate : s.lateRooks p = []) :
    s.playBarrier p = (s.setPlay p ((s.part p).chgBase + BitVec.ofNat 64 (s.part p).chgNow)).modPart p (fun v => { v with lateRooks := [] }) := by
  simp [State.playBarrier, hworked, hphase, hstop, hlate]

/-- With a rook late the changeover stretches. -/
theorem State.playBarrier_of_late (hphase : s.phase p = 2) (hstop : (s.part p).stopNext = false) (hlate : s.lateRooks p ≠ []) :
    s.playBarrier p = (s.setPhase p 4).bump .tnStretches p := by
  simp [State.playBarrier, hworked, hphase, hstop, hlate]

/-- At the end of a stretch, with no rook late a second time, an empty turn begins. -/
theorem State.stretchTimeout_of_first (hphase : s.phase p = 4)
    (hfirst : (s.lateRooks p).filter (fun i => decide (i ∈ (s.part p).lateRooks)) = []) :
    s.stretchTimeout p = (s.setPlay p ((s.part p).chgBase + BitVec.ofNat 64 (2 * (s.part p).chgNow))).modPart p (fun v =>
      { v with lateRooks := s.lateRooks p, emptyNext := true }) := by
  unfold State.stretchTimeout
  dsimp only
  rw [if_neg (by simp [hworked, hphase]), hfirst]
  rfl

end

/-! Preemption (R196) -/

theorem State.preempted_of_yielded {s : State} {p : Nat} (hplay : s.inPlay p = true) (hpreempt : s.flag .sqPreempt p 0 0 = true)
    (hhalt : s.anyHalted p = false)
    (hyielded : (s.enabledSites p).all (fun i => s.dieDone p i || s.flag .sqStatus i 0 19 || s.flag .sqStatus i 0 18) = true) :
    s.preempted p = ((s.markAborted p abortPreempt).bump .sqYields p).enterChangeover p s.now := by
  unfold State.preempted
  exact if_neg (by simp [hplay, hpreempt, hhalt, hyielded])

/-- Settles O22: each step of a changeover by what it comes to where its conditions hold. -/
theorem changeovers : Obligations.Changeovers := by
  unfold Obligations.Changeovers
  intro s p site chosen
  refine ⟨?drain, ?start, ?clock, ?work, ?window, ?rook, ?ready, ?late, ?stretch, ?preempt⟩
  case drain =>
    intro hstage hphase hhalt
    have h : s.drainEnd p chosen = (s.beginChangeover p chosen).markMaint p := by simp [State.drainEnd, hstage, hphase, hhalt]
    exact congrArg (fun t : State => Host.Outcome.next (t.placeWaiting p)) h
  case start =>
    intro hstage
    have h : s.changeoverStart p chosen = (s.beginChangeover p chosen).markMaint p := if_neg (by simp [hstage])
    exact congrArg (fun t : State => Host.Outcome.next (t.placeWaiting p)) h
  case clock =>
    intro k hpending hstage
    exact ⟨_, rfl, State.clockStep_outcome hpending hstage⟩
  case work =>
    intro lines ops nodes hstage
    have h : s.changeoverWork p lines ops nodes = s.contextWork p lines ops nodes := if_neg (by simp [hstage])
    exact congrArg Host.Outcome.next h
  case window =>
    intro sheets failing copied howner hworked hservice hpip hturn
    refine ⟨_, congrArg Host.Outcome.next (State.rookWindow_of_no_pip howner hworked hservice hpip hturn sheets failing copied), ?_⟩
    obtain ⟨hbatch, htail, hadvanced, -, -⟩ := s.copySlice_outcome p site sheets
    rw [((s.copySlice p site sheets).endCopy_outcome p site copied).1]
    exact ⟨hbatch, htail, hadvanced, fun h => by simp [h]⟩
  case rook =>
    intro howner hworked hservice hready
    exact ⟨_, rfl, State.rookIsReady_outcome howner hworked hservice hready⟩
  case ready =>
    intro hworked hphase hstop hlate
    exact ⟨_, congrArg Host.Outcome.next (State.playBarrier_of_ready hworked hphase hstop hlate), by simp [State.setPlay], by simp [State.setPlay]⟩
  case late =>
    intro hworked hphase hstop hlate
    refine ⟨_, congrArg Host.Outcome.next (State.playBarrier_of_late hworked hphase hstop hlate), ?_, ?_⟩
    · rw [State.phase, State.field, State.reg_bump, if_neg (by simp)]
      exact State.phase_setPhase (by decide) ..
    · rw [State.reg_bump_one, State.setPhase, State.reg_setField, if_neg (by simp)]
  case stretch =>
    intro hworked hphase hfirst
    exact ⟨_, congrArg Host.Outcome.next (State.stretchTimeout_of_first hworked hphase hfirst), by simp [State.setPlay], by simp, by simp⟩
  case preempt =>
    intro hplay hpreempt hhalt hyielded
    obtain ⟨hstage, hstart, haborted, -⟩ := ((s.markAborted p abortPreempt).bump .sqYields p).enterChangeover_outcome p s.now
    exact ⟨_, congrArg Host.Outcome.next (State.preempted_of_yielded hplay hpreempt hhalt hyielded), hstage,
      haborted.trans (s.markAborted_outcome p abortPreempt).1, hstart⟩

end Sys2Proof.Machine
end

section
/-! SUPPORT. Moves of a unit (chapters 4, 6 and 7): what issue comes to, when the moves in flight of a die go on, and what performing one leaves of
them. -/

namespace Sys2Proof.Machine

/-! Issue (R190) -/

theorem State.issueMove_of_issues {s : State} {m : MoveHdr} {p : Nat} (h : s.issues m p) (c : Instr) (go : Nat → State → State) :
    s.issueMove m c go = go p (s.advanceSeq m c) := by
  obtain ⟨howner, hcan, hrises, hlast⟩ := h
  unfold State.issueMove
  rw [howner]
  cases hstart : (s.die m.site).lastStart with
  | none => simp [hcan, hstart, hlast]
  | some t =>
    have hrise : t.toNat < m.start.toNat := by simpa [hstart] using hrises
    simp [hcan, hstart, hlast, hrise]

/-- Every move of a unit is issued to its unit. -/
theorem exec_of_unitMove {c : Instr} {m : MoveHdr} (hm : moveHdr c = some m) (hunit : unitMove c = true) (s : State) :
    exec c s = .next (s.issueUnit m c) := by
  unfold moveHdr at hm
  split at hm <;> cases hm
  case h_1 | h_2 | h_3 | h_4 => cases hunit
  all_goals rfl

/-! A move as it enters flight -/

/-- A move as it is issued waits, has not started, and stands at its first row with nothing kept. -/
theorem flightOf_eq (m : MoveHdr) (c : Instr) :
    ∃ (u : MoveUnit) (slices : List Nat) (k : Option RegName),
      flightOf m c = { index := m.index, cdone := m.cdone, unit := u, move := c, slices := slices, counter := k, waits := true } := by
  unfold flightOf
  dsimp only
  split
  case h_9 => split <;> exact ⟨_, _, _, rfl⟩
  all_goals exact ⟨_, _, _, rfl⟩

theorem State.countWaits_dies (s : State) (i : Nat) (c : Instr) : (s.countWaits i c).dies = s.dies := by
  unfold State.countWaits
  dsimp only
  split
  case h_5 => split <;> rfl
  all_goals rfl

theorem State.flights_takeFlight (s : State) (m : MoveHdr) (c : Instr) :
    ((s.takeFlight m c).die m.site).flights = (s.die m.site).flights ++ [flightOf m c] := by
  have hdies : (s.takeFlight m c).dies = (s.modDie m.site (fun d => { d with flights := d.flights ++ [flightOf m c] })).dies := by
    unfold State.takeFlight
    dsimp only
    split <;> exact State.countWaits_dies ..
  rw [State.die_of_dies hdies, State.die_modDie, if_pos rfl]

theorem State.flights_advanceSeq (s : State) (m : MoveHdr) (c : Instr) : ((s.advanceSeq m c).die m.site).flights = (s.die m.site).flights := by
  rw [State.advanceSeq, State.die_modDie, if_pos rfl]
  rfl

theorem State.flights_inFlight {s : State} {m : MoveHdr} (hidle : (s.die m.site).flights = []) (c : Instr) :
    ((s.inFlight m c).die m.site).flights = [flightOf m c] := by
  rw [State.inFlight, State.flights_takeFlight, State.flights_advanceSeq, hidle, List.nil_append]

/-! What a die's flights go on with -/

/-- No move in flight at a die waits. -/
def State.noneWaits (s : State) (i : Nat) : Prop := (s.die i).flights.all (fun g => !g.waits) = true

theorem State.noneWaits_iff {s : State} {i : Nat} : s.noneWaits i ↔ ∀ g ∈ (s.die i).flights, g.waits = false := by
  simp [State.noneWaits]

theorem State.noneWaits_of_flights {s t : State} {i : Nat} (h : (t.die i).flights = (s.die i).flights) (hs : s.noneWaits i) : t.noneWaits i := by
  rwa [State.noneWaits, h]

theorem State.nextReady_eq_none {l : List Flight} (h : ∀ g ∈ l, g.waits = false) (s : State) (p i : Nat) (before : List Flight) :
    s.nextReady p i before l = none := by
  induction l generalizing before with
  | nil => rfl
  | cons f l ih => simp [State.nextReady, h f, ih fun g hg => h g (.tail _ hg)]

theorem State.runWaiting_of_noneWaits {s : State} {i : Nat} (h : s.noneWaits i) (p fuel : Nat) : s.runWaiting p i fuel = s := by
  cases fuel with
  | zero => rfl
  | succ fuel => rw [State.runWaiting, State.nextReady_eq_none (State.noneWaits_iff.1 h)]

section
variable {s : State} {m : MoveHdr} {c : Instr} {i p : Nat} (hsole : (s.die i).flights = [flightOf m c])
include hsole

/-- Once a sole move in flight has started, none waits. -/
theorem State.noneWaits_startFlight : (s.startFlight i m.index).noneWaits i := by
  obtain ⟨u, l, k, hflight⟩ := flightOf_eq m c
  rw [State.noneWaits, State.startFlight, State.modFlight, State.die_modDie, if_pos rfl, hsole, hflight]
  simp

/-- A sole move in flight for which nothing is missing is performed, in the ganging mode in force, and what it leaves waiting goes on (R170). -/
theorem State.runFlights_of_ready (hm : moveHdr c = some m) (hready : s.moveReady p i [] (flightOf m c) = true) :
    s.runFlights p i = (((s.startFlight i m.index).perform p i (s.modeNow i) m c 0 [] []).runWaiting p i 3).unitStatus i := by
  obtain ⟨u, l, k, hflight⟩ := flightOf_eq m c
  have hnext : s.nextReady p i [] (s.die i).flights = some (flightOf m c) := by
    rw [hsole, State.nextReady, if_pos]
    rw [hready, hflight]
    rfl
  have hstep : s.runWaiting p i 4 = ((s.startFlight i m.index).perform p i (s.modeNow i) m c 0 [] []).runWaiting p i 3 := by
    rw [State.runWaiting, hnext, hflight]
    dsimp only
    rw [hm]
    rfl
  have hsteps : flightSteps (s.die i).flights = 4 := by rw [hsole]; rfl
  rw [State.runFlights, hsteps, hstep]

/-- A sole move in flight for which something is missing waits (R117, R118, R149). -/
theorem State.runFlights_of_not_ready (hready : s.moveReady p i [] (flightOf m c) = false) : s.runFlights p i = s.unitStatus i := by
  have hnext : s.nextReady p i [] (s.die i).flights = none := by
    rw [hsole, State.nextReady, if_neg (by simp [hready]), State.nextReady]
  have hsteps : flightSteps (s.die i).flights = 4 := by rw [hsole]; rfl
  rw [State.runFlights, hsteps, State.runWaiting, hnext]

end

/-! A unit's move with no other in flight -/

section
variable {s : State} {c : Instr} {m : MoveHdr} {p : Nat} (hm : moveHdr c = some m) (hunit : unitMove c = true) (hissues : s.issues m p)
include hm hunit hissues

theorem exec_unitMove_eq_runFlights : exec c s = .next ((s.inFlight m c).runFlights p m.site) := by
  rw [exec_of_unitMove hm hunit, State.issueUnit, State.issueMove_of_issues hissues]
  rfl

variable (hidle : (s.die m.site).flights = [])
include hidle

/-- A move whose performance leaves nothing waiting is done with it: the units show their status. -/
theorem exec_unitMove_of_performed {t : State} (hready : (s.inFlight m c).moveReady p m.site [] (flightOf m c) = true)
    (hperform : ((s.inFlight m c).startFlight m.site m.index).perform p m.site ((s.inFlight m c).modeNow m.site) m c 0 [] [] = t)
    (hfree : t.noneWaits m.site) : exec c s = .next (t.unitStatus m.site) := by
  rw [exec_unitMove_eq_runFlights hm hunit hissues, State.runFlights_of_ready (State.flights_inFlight hidle c) hm hready, hperform,
    State.runWaiting_of_noneWaits hfree]

end

/-- Settles O17: the move is the sole one in flight, so it is performed where it is ready, and waits where it is not. -/
theorem unitMoves : Obligations.UnitMoves := by
  unfold Obligations.UnitMoves
  intro s c m p hm hunit hissues hidle
  have hsole := State.flights_inFlight hidle c
  dsimp only
  rw [exec_unitMove_eq_runFlights hm hunit hissues]
  exact ⟨fun hready => congrArg Host.Outcome.next (State.runFlights_of_ready hsole hm hready),
    fun hready => congrArg Host.Outcome.next (State.runFlights_of_not_ready hsole hready)⟩

/-! What performing a move leaves in flight (R115, R116, R118) -/

theorem State.flights_setBuf (s : State) (i key : Nat) (b : BufState) : ((s.setBuf i key b).die i).flights = (s.die i).flights := by
  rw [State.setBuf, State.die_modDie, if_pos rfl]

theorem State.flights_setCellWords (s : State) (i key : Nat) (w : List (BitVec 32)) :
    ((s.setCellWords i key w).die i).flights = (s.die i).flights := by
  rw [State.setCellWords, State.die_modDie, if_pos rfl]

theorem State.flights_performDrain (s : State) (i : Nat) (label : BitVec 18) (first count : Nat) (buf held : Bool) :
    ((s.performDrain i label first count buf held).die i).flights = (s.die i).flights := by
  unfold State.performDrain
  refine List.foldlRecOn (motive := fun t : State => (t.die i).flights = (s.die i).flights) _ _ rfl fun t ht a _ => ?_
  refine List.foldlRecOn (motive := fun t : State => (t.die i).flights = (s.die i).flights) _ _ ht fun t ht cell _ => ?_
  dsimp only
  split
  · exact (State.flights_setBuf ..).trans ht
  · rw [State.flights_setBuf, State.flights_setCellWords, State.die_modDie, if_pos rfl, ht]

theorem State.flights_performGang (s : State) (i mode : Nat) : ((s.performGang i mode).die i).flights = (s.die i).flights := by
  unfold State.performGang
  dsimp only
  rw [State.raiseMatrix, State.die_of_dies (State.setReg_dies ..), State.die_modDie, if_pos rfl, State.die_of_dies (State.setField_dies ..)]

/-! A SEND in flight (R216) -/

/-- A SEND whose packets are on their way stays in flight under its XID (R216). -/
theorem State.perform_send_sent {s t : State} {m : MoveHdr} {p mode : Nat} {d : BitVec 12} {x : BitVec 16}
    (h : s.performDma p m.site mode .send d.toNat m.mask 0 [] [] = (t, .sent x)) (ch : BitVec 3) :
    s.perform p m.site mode m (.send m d ch) 0 [] [] = t.modFlight m.site m.index (fun f => { f with sendXid := some x }) := by
  simp only [State.perform, h]

theorem State.noneWaits_modFlight_sendXid {s : State} {i : Nat} (h : s.noneWaits i) (index : BitVec 18) (x : Option (BitVec 16)) :
    (s.modFlight i index (fun f => { f with sendXid := x })).noneWaits i := by
  rw [State.noneWaits_iff] at h ⊢
  rw [State.modFlight, State.die_modDie, if_pos rfl]
  intro g hg
  obtain ⟨f, hf, rfl⟩ := List.mem_map.1 hg
  split <;> exact h f hf

theorem State.sendXid_modFlight {s : State} {i : Nat} {index : BitVec 18} {x : Option (BitVec 16)} {g : Flight}
    (hg : g ∈ ((s.modFlight i index (fun f => { f with sendXid := x })).die i).flights) (hindex : g.index = index) : g.sendXid = x := by
  rw [State.modFlight, State.die_modDie, if_pos rfl] at hg
  obtain ⟨f, -, rfl⟩ := List.mem_map.1 hg
  split at hindex
  next h => rw [if_pos h]
  next h => exact absurd hindex h

theorem State.unitStatus_mem (s : State) (i : Nat) : (s.unitStatus i).mem = s.mem := rfl

theorem State.unitStatus_dies (s : State) (i : Nat) : (s.unitStatus i).dies = s.dies := rfl

/-- Settles O19, row by row: each move is performed as the sole one in flight, and none waits after it. -/
theorem matrixAndDmaMoves : Obligations.MatrixAndDmaMoves := by
  unfold Obligations.MatrixAndDmaMoves
  constructor
  · intro s m p first count buf w hissues hidle
    have hstarted (c : Instr) := State.noneWaits_startFlight (State.flights_inFlight hidle c)
    dsimp only
    refine ⟨?pass, ?drain, ?drainHeld, ?gang⟩
    case pass =>
      intro adesc bdesc k acc sa sb orient t hready hpass hfree
      refine exec_unitMove_of_performed rfl rfl hissues hidle hready ?_ hfree
      simp only [State.perform, hpass]
    case drain =>
      exact fun hready => exec_unitMove_of_performed rfl rfl hissues hidle hready rfl
        (State.noneWaits_of_flights (State.flights_performDrain ..) (hstarted _))
    case drainHeld =>
      exact fun hready => exec_unitMove_of_performed rfl rfl hissues hidle hready rfl
        (State.noneWaits_of_flights (State.flights_performDrain ..) (hstarted _))
    case gang =>
      exact fun mode hready => exec_unitMove_of_performed rfl rfl hissues hidle hready rfl
        (State.noneWaits_of_flights (State.flights_performGang ..) (hstarted _))
  · intro s m p d ch t hissues hidle
    dsimp only
    refine ⟨?load, ?store, ?send, ?twin⟩
    case load =>
      intro hready hdone hfree
      refine exec_unitMove_of_performed rfl rfl hissues hidle hready ?_ hfree
      simp only [State.perform, hdone]
    case store =>
      intro hready hdone hfree
      refine exec_unitMove_of_performed rfl rfl hissues hidle hready ?_ hfree
      simp only [State.perform, hdone]
    case send =>
      intro x hready hsent hfree
      refine ⟨_, exec_unitMove_of_performed rfl rfl hissues hidle hready (State.perform_send_sent hsent ch)
        (State.noneWaits_modFlight_sendXid hfree _ _), ?_, fun g hg => ?_⟩
      · exact (State.unitStatus_mem ..).trans (State.modDie_mem ..)
      · rw [State.die_of_dies (State.unitStatus_dies ..)] at hg
        exact State.sendXid_modFlight hg
    case twin =>
      intro l hready
      refine ⟨_, rfl, fun hfree => exec_unitMove_of_performed rfl rfl hissues hidle hready ?_ hfree⟩
      rfl

end Sys2Proof.Machine
end

section
/-! SUPPORT. The vector engine (chapter 6): a vector move in flight that runs to its end, and the values of the element functions of R159. -/

namespace Sys2Proof.Machine

/-! Vector moves (R150 to R173) -/

section
variable {c : Instr} {f : VecFunc} {v : VecFields} (hvec : vecMove c = some (f, v))
include hvec

theorem unitMove_of_vecMove : unitMove c = true := by
  unfold unitMove
  split
  case h_9 => rw [hvec, Option.isSome_some]
  all_goals rfl

/-- A vector move whose operation runs to its end leaves what the operation left: nothing waits, stops, or takes a bus error. -/
theorem State.perform_vecMove_of_done {s t : State} {p i mode start : Nat} {m : MoveHdr} {o : VecOp} {skips : List Handle}
    {kept : List (Handle × Nat × Word)} (hop : s.vecOp p i f m.mask v mode = some o)
    (hdone : s.performVec p i o start skips kept = (t, .done)) : s.perform p i mode m c start skips kept = t := by
  unfold State.perform
  dsimp only
  split
  case h_9 => simp only [hvec, hop, hdone]
  all_goals cases hvec

end

/-- Settles O18: the move is the sole one in flight, and performing it comes to its operation's end. -/
theorem vectorMoves : Obligations.VectorMoves := by
  unfold Obligations.VectorMoves
  intro s c m p f v o t hm hvec hissues hidle
  dsimp only
  intro hready hop hdone hfree
  exact exec_unitMove_of_performed hm (unitMove_of_vecMove hvec) hissues hidle hready (State.perform_vecMove_of_done hvec hop hdone) hfree

/-! Zeros, MIN and MAX (R159) -/

@[simp] theorem Number.isZero_fin (neg : Bool) (m : Nat) (e : Int) : (Number.fin neg m e).isZero = decide (m = 0) := by
  cases m <;> rfl

/-- Two zeros are in order only by their signs, −0 before +0, and only where zeros are signed. -/
@[simp] theorem numberLt_zero_zero (signedZero n₁ n₂ : Bool) (e₁ e₂ : Int) :
    numberLt signedZero (.fin n₁ 0 e₁) (.fin n₂ 0 e₂) = (signedZero && n₁ && !n₂) := by
  simp [numberLt]

theorem minOf_nan_left (b : Number) : minOf .nan b = (b, { nanIn := true }) := rfl

theorem minOf_nan_right {a : Number} (ha : a.isNan = false) : minOf a .nan = (a, { nanIn := true }) := by
  rw [minOf, ha]
  rfl

theorem maxOf_nan_left (b : Number) : maxOf .nan b = (b, { nanIn := true }) := rfl

theorem maxOf_nan_right {a : Number} (ha : a.isNan = false) : maxOf a .nan = (a, { nanIn := true }) := by
  rw [maxOf, ha]
  rfl

/-- MIN of two zeros is −0 where either is. -/
theorem minOf_zero_zero (n₁ n₂ : Bool) : minOf (.fin n₁ 0 0) (.fin n₂ 0 0) = (.fin (n₁ || n₂) 0 0, {}) := by
  cases n₁ <;> cases n₂ <;> simp [minOf, Number.isNan]

/-- MAX of two zeros is +0 where either is. -/
theorem maxOf_zero_zero (n₁ n₂ : Bool) : maxOf (.fin n₁ 0 0) (.fin n₂ 0 0) = (.fin (n₁ && n₂) 0 0, {}) := by
  cases n₁ <;> cases n₂ <;> simp [maxOf, Number.isNan]

theorem element_min (w : FloatFmt) (r : Rnd) (a b c : Number) : element .min w r a b c = minOf a b := rfl

theorem element_max (w : FloatFmt) (r : Rnd) (a b c : Number) : element .max w r a b c = maxOf a b := rfl

theorem element_select (w : FloatFmt) (r : Rnd) (a b c : Number) : element .select w r a b c = (if c.isZero then b else a, {}) := rfl

/-! Integers (R159) -/

/-- An integer that a two's complement format holds is encoded as its residue, with no rounding and no flag. -/
theorem intEncode_ofInt {w : Nat} {i : Int} (hlow : -2 ^ (w - 1) ≤ i) (hhigh : i < 2 ^ (w - 1)) (r : Rnd) (draw : Nat) :
    intEncode w 0 r draw (Number.ofInt i) = ((i % 2 ^ w).toNat, {}) := by
  have hmag : roundMag r (decide (i < 0)) i.natAbs 0 0 draw = i.natAbs := by simp [roundMag, scaleTo]
  have hsigned : (if i < 0 then -(i.natAbs : Int) else i.natAbs) = i := by split <;> omega
  simp only [intEncode, Number.ofInt, hmag, decide_eq_true_eq, hsigned, if_neg hlow.not_gt, if_neg hhigh.not_ge]

/-- An INT32 operand is read as its own bits, without a flag. -/
theorem toInt32_ofInt_toInt (r : Rnd) (x : BitVec 32) : toInt32 r (Number.ofInt x.toInt) = (x, {}) := by
  have hbits : x.toInt % 2 ^ 32 = x.toNat := by
    have := x.isLt
    rw [BitVec.toInt_eq_toNat_cond]
    split <;> omega
  rw [toInt32, intEncode_ofInt x.le_toInt x.toInt_lt]
  simp only [hbits, Int.toNat_natCast, BitVec.ofNat_toNat, BitVec.setWidth_eq]

theorem intElement_ofInt_toInt (f : VecFunc) (r : Rnd) (x y : BitVec 32) :
    intElement f r (Number.ofInt x.toInt) (Number.ofInt y.toInt) = (Number.ofInt (if f = .iadd then x + y else x * y).toInt, {}) := by
  rw [intElement, toInt32_ofInt_toInt, toInt32_ofInt_toInt]
  rfl

/-! Poles and operands outside the domain (R159) -/

theorem transcend_log_zero (n : Bool) (e : Int) : transcend .log (.fin n 0 e) = (.inf true, { dz := true }) := rfl

theorem transcend_rsqrt_zero (n : Bool) (e : Int) : transcend .rsqrt (.fin n 0 e) = (.inf n, { dz := true }) := rfl

/-- LOG and RSQRT of a negative number other than −0, −Inf among them, are invalid. -/
theorem transcend_of_neg {f : VecFunc} (hf : f = .log ∨ f = .rsqrt) {x : Number} (hneg : x.isNeg = true) (hzero : x.isZero = false) :
    transcend f x = (.nan, { nv := true }) := by
  have hnan : x.isNan = false := by
    cases x with
    | nan => cases hneg
    | inf | fin => rfl
  obtain rfl | rfl := hf <;> simp [transcend, hnan, hneg, hzero]

/-- Settles O54: each clause is the case of its function. -/
theorem elementCases : Obligations.ElementCases := by
  unfold Obligations.ElementCases
  refine ⟨?nans, ?zeros, ?select, ?integers, ?transcendental⟩
  case nans =>
    intro w r b c hb
    simp only [element_min, element_max]
    exact ⟨minOf_nan_left b, minOf_nan_right hb, maxOf_nan_left b, maxOf_nan_right hb⟩
  case zeros =>
    intro w r c
    simp only [element_min, element_max]
    exact ⟨minOf_zero_zero .., minOf_zero_zero .., maxOf_zero_zero .., maxOf_zero_zero ..⟩
  case select =>
    intro w r a b c
    rw [element_select]
    exact ⟨fun hzero => by simp [hzero], fun hzero => by simp [hzero]⟩
  case integers =>
    exact fun r x y => ⟨intElement_ofInt_toInt .iadd r x y, intElement_ofInt_toInt .imul r x y⟩
  case transcendental =>
    have hinvalid {f : VecFunc} (hf : f = .log ∨ f = .rsqrt) (m : Nat) (e : Int) (hm : m ≠ 0) : transcend f (.fin true m e) = (.nan, { nv := true }) :=
      transcend_of_neg hf rfl (by simp [hm])
    exact ⟨rfl, rfl, transcend_log_zero, hinvalid (.inl rfl), transcend_of_neg (.inl rfl) rfl rfl, transcend_rsqrt_zero, hinvalid (.inr rfl),
      transcend_of_neg (.inr rfl) rfl rfl, fun _ => rfl, rfl, rfl⟩

end Sys2Proof.Machine
end

section
/-! SUPPORT. The sequencer's own moves (chapter 7): what passing a move and crediting a counter change and what they leave, and what NOP, TRACE and
YIELD come to. -/

namespace Sys2Proof.Machine

/-! Passing a move (R190) -/

theorem State.reg_advanceSeq {m : MoveHdr} {n : RegName} {i j : Nat} (h : ¬((n = .sqNext ∨ n = .sqMoves) ∧ i = m.site ∧ j = 0)) (s : State)
    (c : Instr) : (s.advanceSeq m c).reg n i j = s.reg n i j := by
  have hnext : ¬(RegName.sqNext = n ∧ m.site = i ∧ 0 = j) := fun ⟨e, ei, ej⟩ => h ⟨.inl e.symm, ei.symm, ej.symm⟩
  have hmoves : ¬(RegName.sqMoves = n ∧ m.site = i ∧ 0 = j) := fun ⟨e, ei, ej⟩ => h ⟨.inr e.symm, ei.symm, ej.symm⟩
  rw [State.advanceSeq, State.reg_modDie, State.reg_bump, if_neg hmoves, State.reg_setField, if_neg hnext]

theorem State.flag_advanceSeq {n : RegName} (hnext : n ≠ .sqNext) (hmoves : n ≠ .sqMoves) (s : State) (m : MoveHdr) (c : Instr) (i j b : Nat) :
    (s.advanceSeq m c).flag n i j b = s.flag n i j b :=
  congrArg (bitAt · b) (State.reg_advanceSeq (fun h => h.1.elim hnext hmoves) s c)

/-- SQ_NEXT names the move after the one passed. -/
theorem State.next_advanceSeq (s : State) (m : MoveHdr) (c : Instr) :
    (s.advanceSeq m c).field .sqNext m.site 0 0 18 = (m.index.toNat + 1) % 2 ^ 18 := by
  rw [State.field, State.advanceSeq, State.reg_modDie, State.reg_bump, if_neg fun e => RegName.noConfusion e.1, State.reg_setField,
    if_pos ⟨rfl, rfl, rfl⟩, bitsAt_putBits_same _ _ _ _ (by decide)]

theorem State.die_advanceSeq (s : State) (m : MoveHdr) (c : Instr) : (s.advanceSeq m c).die m.site =
    { s.die m.site with
      lastStart := some m.start, lastCycle := some m.cycle
      issuedCrc := crcRun (0x82F63B78 : BitVec 32) (s.die m.site).issuedCrc (moveBytes c) } := by
  rw [State.advanceSeq, State.die_modDie, if_pos rfl]
  rfl

theorem State.die_advanceSeq_ne {m : MoveHdr} {i : Nat} (h : i ≠ m.site) (s : State) (c : Instr) : (s.advanceSeq m c).die i = s.die i := by
  rw [State.advanceSeq, State.die_modDie, if_neg h.symm]
  rfl

/-! Crediting a counter (R191) -/

theorem State.credit_none (s : State) (i : Nat) : s.credit i 0xFF = s := if_pos rfl

theorem State.credit_of_ne {n : Nat} (h : n ≠ 0xFF) (s : State) (i : Nat) : s.credit i n = s.setField .sqCtr i n 0 32 (s.ctr i n + 1) := if_neg h

theorem State.credit_dies (s : State) (i n : Nat) : (s.credit i n).dies = s.dies := by
  unfold State.credit
  split <;> rfl

theorem State.reg_credit {k : RegName} {a b i n : Nat} (h : ¬(k = .sqCtr ∧ a = i ∧ b = n)) (s : State) :
    (s.credit i n).reg k a b = s.reg k a b := by
  have hctr : ¬(RegName.sqCtr = k ∧ i = a ∧ n = b) := fun ⟨ek, ea, eb⟩ => h ⟨ek.symm, ea.symm, eb.symm⟩
  unfold State.credit
  split
  · rfl
  · rw [State.reg_setField, if_neg hctr]

theorem State.flag_credit {k : RegName} (h : k ≠ .sqCtr) (s : State) (i n a b x : Nat) : (s.credit i n).flag k a b x = s.flag k a b x :=
  congrArg (bitAt · x) (State.reg_credit (fun e => h e.1) s)

theorem State.ctr_credit {n : Nat} (h : n ≠ 0xFF) (s : State) (i : Nat) : (s.credit i n).ctr i n = (s.ctr i n + 1) % 2 ^ 32 := by
  rw [State.credit_of_ne h, State.ctr, State.field, State.reg_setField, if_pos ⟨rfl, rfl, rfl⟩, bitsAt_putBits_same _ _ _ _ (by decide)]

/-- Settles O16: the sequencer's registers are the ones it passes a move with, and a counter's register the one it credits. -/
theorem sequencerFrame : Obligations.SequencerFrame := by
  unfold Obligations.SequencerFrame
  intro s m c
  refine ⟨State.next_advanceSeq s m c, rfl, rfl, fun n i j h => State.reg_advanceSeq h s c, fun i h => State.die_advanceSeq_ne h s c,
    fun i => State.credit_none s i, fun i n hn => ⟨State.ctr_credit hn s i, ?_, State.credit_dies s i n, fun k a b h => State.reg_credit h s⟩⟩
  rw [State.credit_of_ne hn]
  rfl

/-! Moves that complete as they issue (Table 7.3) -/

theorem State.issueInstant_of_issues {s : State} {m : MoveHdr} {p : Nat} (h : s.issues m p) (c : Instr) (go : Nat → State → State) :
    s.issueInstant m c go = (go p (s.advanceSeq m c)).credit m.site m.cdone.toNat := State.issueMove_of_issues h c _

/-! Trace records (R498, R499) -/

section
variable (s : State) (p i kind : Nat) (index : BitVec 18) (start : BitVec 24) (cycle label : Nat)

theorem State.length_traceQueue_traceRec (h : (s.die i).traceQueue.length < 8) :
    ((s.traceRec p i kind index start cycle label).die i).traceQueue.length = (s.die i).traceQueue.length + 1 := by
  rw [State.traceRec, if_pos h, State.die_modDie, if_pos rfl]
  exact List.length_append

/-- A record is queued, or counted as lost: a die's moves and its YIELD stand, and every register but the count of lost records. -/
theorem State.traceRec_outcome :
    (∀ n k l, n ≠ .dbTraceLost → (s.traceRec p i kind index start cycle label).reg n k l = s.reg n k l) ∧
    ((s.traceRec p i kind index start cycle label).die i).yielding = (s.die i).yielding ∧
    ((s.traceRec p i kind index start cycle label).die i).flights = (s.die i).flights := by
  unfold State.traceRec
  dsimp only
  split
  · rw [State.die_modDie, if_pos rfl]
    exact ⟨fun _ _ _ _ => rfl, rfl, rfl⟩
  · rw [State.die_of_dies (State.bump_dies ..), State.die_modDie, if_pos rfl]
    refine ⟨fun n k l hn => ?_, rfl, rfl⟩
    rw [State.reg_bump, if_neg fun e => hn e.1.symm, State.reg_modDie]

theorem State.traceEvent_outcome :
    (∀ n k l, n ≠ .dbTraceLost → (s.traceEvent p i kind index start cycle).reg n k l = s.reg n k l) ∧
    ((s.traceEvent p i kind index start cycle).die i).yielding = (s.die i).yielding ∧
    ((s.traceEvent p i kind index start cycle).die i).flights = (s.die i).flights := by
  unfold State.traceEvent
  split
  · exact s.traceRec_outcome ..
  · exact ⟨fun _ _ _ _ => rfl, rfl, rfl⟩

end

theorem State.issueTrace_of_issues {s : State} {m : MoveHdr} {p : Nat} (h : s.issues m p) (label : BitVec 16) :
    s.issueTrace m label =
      (if s.flag .dbTraceCtl p 0 0 then
        (s.advanceSeq m (.trace m label)).traceRec p m.site 0 m.index m.start m.cycle.toNat label.toNat
      else s.advanceSeq m (.trace m label)).credit m.site m.cdone.toNat := by
  rw [State.issueTrace, State.issueInstant_of_issues h, State.flag_advanceSeq (by decide) (by decide)]

/-! YIELD (R196) -/

/-- The die stops issuing at a YIELD, and the condition is traced. -/
def State.stopAtYield (s : State) (p : Nat) (m : MoveHdr) : State :=
  (s.modDie m.site (fun d => { d with yielding := true })).traceEvent p m.site 3 m.index m.start m.cycle.toNat

theorem State.stopAtYield_outcome (s : State) (p : Nat) (m : MoveHdr) :
    (∀ k l b, (s.stopAtYield p m).flag .sqStatus k l b = s.flag .sqStatus k l b) ∧ ((s.stopAtYield p m).die m.site).yielding = true ∧
    ((s.stopAtYield p m).die m.site).flights = (s.die m.site).flights := by
  unfold State.stopAtYield
  obtain ⟨hreg, hyields, hflights⟩ := (s.modDie m.site (fun d => { d with yielding := true })).traceEvent_outcome p m.site 3 m.index m.start
    m.cycle.toNat
  rw [State.die_modDie, if_pos rfl] at hyields hflights
  exact ⟨fun k l b => congrArg (bitAt · b) (hreg _ k l (by decide)), hyields, hflights⟩

theorem State.issueYield_of_issues {s : State} {m : MoveHdr} {p : Nat} (h : s.issues m p) :
    s.issueYield m =
      (if s.flag .sqPreempt p 0 0 then ((s.advanceSeq m (.yield m)).stopAtYield p m).settleYield m.site
      else s.advanceSeq m (.yield m)).credit m.site m.cdone.toNat := by
  rw [State.issueYield, State.issueInstant_of_issues h, State.flag_advanceSeq (by decide) (by decide)]
  rfl

theorem State.gatherTree_regs (s : State) (k : TreeMsg) (q d : Nat) : (s.gatherTree k q d).regs = s.regs := by
  obtain ⟨l, hl⟩ := s.gatherTree_eq k q d
  rw [hl]

/-- A die that yields with every move in flight at rest has yielded. -/
theorem State.yielded_settleYield {s : State} {i : Nat} (hyields : (s.die i).yielding = true)
    (hrest : (s.die i).flights.all (fun f => f.stopped) = true) : (s.settleYield i).flag .sqStatus i 0 19 = true := by
  unfold State.settleYield
  dsimp only
  cases hflag : s.flag .sqStatus i 0 19 with
  | true => rwa [Bool.not_true, Bool.and_false, Bool.false_and, if_neg Bool.false_ne_true]
  | false =>
    rw [hyields, hrest, if_pos (by decide), State.flag_of_regs (State.gatherTree_regs ..), State.flag_setFlag _ _ _ _ _ _ _ (by decide), if_pos rfl]

/-- A die with a move in flight that goes on has not yielded yet. -/
theorem State.settleYield_of_moving {s : State} {i : Nat} (h : (s.die i).flights.all (fun f => f.stopped) = false) : s.settleYield i = s := by
  rw [State.settleYield, h, Bool.and_false]
  exact if_neg Bool.false_ne_true

/-- A die that issues a move has not yielded. -/
theorem State.not_yielded_of_issues {s : State} {m : MoveHdr} {p : Nat} (h : s.issues m p) : s.flag .sqStatus m.site 0 19 = false := by
  obtain ⟨-, hcan, -⟩ := h
  simp only [State.canIssue, Bool.and_eq_true, Bool.not_eq_true'] at hcan
  obtain ⟨⟨⟨⟨⟨-, hyielded⟩, -⟩, -⟩, -⟩, -⟩ := hcan
  exact hyielded

theorem State.canIssue_of_yielding {s : State} {m : MoveHdr} (h : (s.die m.site).yielding = true) (p : Nat) : s.canIssue p m = false := by
  simp [State.canIssue, h]

/-- Settles O15: each move passes the sequencer and is credited, with its own effect between. -/
theorem sequencerMoves : Obligations.SequencerMoves := by
  unfold Obligations.SequencerMoves
  intro s m p hissues
  refine ⟨?nop, ?untraced, ?traced, ?unyielded, ?yielded, ?yielding⟩
  case nop => exact congrArg Host.Outcome.next (State.issueInstant_of_issues hissues (.nop m) _)
  case untraced =>
    intro label htags
    refine congrArg Host.Outcome.next ((State.issueTrace_of_issues hissues label).trans ?_)
    rw [htags]
    rfl
  case traced =>
    intro label htags hroom
    refine ⟨_, congrArg Host.Outcome.next (State.issueTrace_of_issues hissues label), ?_⟩
    have hqueue : ((s.advanceSeq m (.trace m label)).die m.site).traceQueue = (s.die m.site).traceQueue := by rw [State.die_advanceSeq]
    rw [State.die_of_dies (State.credit_dies ..), if_pos htags, State.length_traceQueue_traceRec _ _ _ _ _ _ _ _ (hqueue ▸ hroom), hqueue]
  case unyielded =>
    intro hpreempt
    refine congrArg Host.Outcome.next ((State.issueYield_of_issues hissues).trans ?_)
    rw [hpreempt]
    rfl
  case yielded =>
    intro hpreempt hrest
    obtain ⟨-, hyields, hflights⟩ := (s.advanceSeq m (.yield m)).stopAtYield_outcome p m
    refine ⟨_, congrArg Host.Outcome.next (State.issueYield_of_issues hissues), ?_⟩
    rw [State.flag_credit (by decide), if_pos hpreempt]
    refine State.yielded_settleYield hyields ?_
    rwa [hflights, State.flights_advanceSeq]
  case yielding =>
    intro hpreempt hmoving
    obtain ⟨hflag, hyields, hflights⟩ := (s.advanceSeq m (.yield m)).stopAtYield_outcome p m
    rw [← State.flights_advanceSeq s m (.yield m), ← hflights] at hmoving
    have hyielding : ((((s.advanceSeq m (.yield m)).stopAtYield p m).credit m.site m.cdone.toNat).die m.site).yielding = true := by
      rwa [State.die_of_dies (State.credit_dies ..)]
    refine ⟨_, congrArg Host.Outcome.next (State.issueYield_of_issues hissues), ?_⟩
    rw [if_pos hpreempt, State.settleYield_of_moving hmoving]
    refine ⟨?_, hyielding, fun m' hsite => State.canIssue_of_yielding (hsite ▸ hyielding) p⟩
    rw [State.flag_credit (by decide), hflag, State.flag_advanceSeq (by decide) (by decide), State.not_yielded_of_issues hissues]

end Sys2Proof.Machine
end

section
/-! SUPPORT. What comes to a die from its units and from the network (chapters 7, 8 and 19): completions, acknowledgements, the lines of SENDs, and
trace records on their way out. -/

namespace Sys2Proof.Machine

/-! Lines of SENDs (R216 to R218) -/

section
variable {s : State} {k : BnetPacket} {p i : Nat}

theorem State.sendArrives_of_send (howner : s.siteOwner i = some p) (hkind : k.kind = .send) (hanswer : s.dieAnswer i = none) (cycle : Word) :
    s.sendArrives i k cycle = (s.placeLine p i k cycle.toNat).takeWaiting p i cycle.toNat := by
  simp [State.sendArrives, howner, hkind, hanswer]

/-- The first line of a transfer is taken while the die has a tracking entry for it; that of a 65th transfer waits. -/
theorem State.placeLine_of_new (hstale : (s.die i).stale k = false)
    (hnew : (s.die i).inbound.find? (fun t => decide (t.src = k.src ∧ t.xid = k.xid)) = none) (cycle : Nat) :
    s.placeLine p i k cycle =
      if 64 ≤ (s.die i).tracked then s.modSquare (siteSquare i) (fun v => { v with sendWait := v.sendWait ++ [k] })
      else s.takeLine p i k cycle := by
  unfold State.placeLine
  dsimp only
  rw [if_neg (by simp [hstale]), hnew]

/-- A line of an earlier turn or epoch is counted and dropped. -/
theorem State.placeLine_of_stale (hstale : (s.die i).stale k = true) (cycle : Nat) :
    s.placeLine p i k cycle = s.bump .bnStaleArrivals (siteSquare i) := by
  simp [State.placeLine, hstale]

theorem State.takeWaiting_of_none (h : (s.square (siteSquare i)).sendWait = []) (cycle : Nat) :
    s.takeWaiting p i cycle = s.modSquare (siteSquare i) (fun v => { v with sendWait := [] }) := by
  rw [State.takeWaiting, h]
  rfl

theorem State.sendArrives_of_stale (howner : s.siteOwner i = some p) (hkind : k.kind = .send) (hanswer : s.dieAnswer i = none)
    (hstale : (s.die i).stale k = true) (hwait : (s.square (siteSquare i)).sendWait = []) (cycle : Word) :
    s.sendArrives i k cycle = (s.bump .bnStaleArrivals (siteSquare i)).modSquare (siteSquare i) (fun v => { v with sendWait := [] }) := by
  have hnone : ((s.bump .bnStaleArrivals (siteSquare i)).square (siteSquare i)).sendWait = [] := hwait
  rw [State.sendArrives_of_send howner hkind hanswer, State.placeLine_of_stale hstale, State.takeWaiting_of_none hnone]

end

/-! Trace records (R499, R500) -/

/-- The bytes of a record go to their own words of the buffer, and the head to the next entry. -/
theorem State.storeTrace_outcome (s : State) (r : List Byte) :
    (s.storeTrace r).dies = s.dies ∧ (s.storeTrace r).reg .dbTraceHead = (s.reg .dbTraceHead + 1) &&& RegName.dbTraceHead.info.defined := by
  unfold State.storeTrace
  dsimp only
  generalize hstored : (List.range 8).foldl _ s = t
  have hkept : t.dies = s.dies ∧ t.reg .dbTraceHead = s.reg .dbTraceHead := by
    rw [← hstored]
    refine List.foldlRecOn (motive := fun t : State => t.dies = s.dies ∧ t.reg .dbTraceHead = s.reg .dbTraceHead) _ _ ⟨rfl, rfl⟩
      fun t ht w _ => ⟨(State.setReg_dies ..).trans ht.1, ?_⟩
    rw [State.reg_setReg, if_neg fun e => RegName.noConfusion e.1, ht.2]
  exact ⟨hkept.1, by rw [State.reg_bump_one, hkept.2]⟩

section
variable {s : State} {i : Nat}

/-- With a token the oldest record of the site goes to the buffer. -/
theorem State.sendTrace_outcome {r : List Byte} {rest : List (List Byte)} (hqueue : (s.die i).traceQueue = r :: rest)
    (htoken : s.hasToken (siteSquare i) = true) :
    ((s.sendTrace i).die i).traceQueue = rest ∧
    (s.sendTrace i).reg .dbTraceHead = (s.reg .dbTraceHead + 1) &&& RegName.dbTraceHead.info.defined := by
  have hsent : s.sendTrace i =
      (((s.modDie i (fun d => { d with traceQueue := rest })).storeTrace r).bump .cnTxPkts (siteSquare i)).takeToken (siteSquare i) := by
    simp [State.sendTrace, hqueue, htoken]
  obtain ⟨hdies, hhead⟩ := (s.modDie i (fun d => { d with traceQueue := rest })).storeTrace_outcome r
  rw [hsent, State.takeToken]
  constructor
  · rw [State.die_of_dies ((State.modSquare_dies ..).trans ((State.bump_dies ..).trans hdies)), State.die_modDie, if_pos rfl]
  · rw [State.reg_modSquare, State.reg_bump, if_neg fun e => RegName.noConfusion e.1, hhead, State.reg_modDie]

theorem State.sendTrace_of_waiting (h : (s.die i).traceQueue = [] ∨ s.hasToken (siteSquare i) = false) : s.sendTrace i = s := by
  unfold State.sendTrace
  dsimp only
  split
  · rfl
  next r rest hqueue =>
    have htoken := h.resolve_left (by rw [hqueue]; exact List.cons_ne_nil r rest)
    rw [htoken]
    rfl

end

/-- Settles O20: each event finds the move, the transfer or the record that it names. -/
theorem moveEvents : Obligations.MoveEvents := by
  unfold Obligations.MoveEvents
  intro s site p cycle howner
  refine ⟨?complete, ?sack, ?line, ?stale, ?record, ?waiting⟩
  case complete =>
    intro index f hfound
    refine congrArg Host.Outcome.next ?_
    rw [State.completeMove, howner]
    dsimp only
    rw [hfound]
  case sack =>
    intro xid f hfound
    refine congrArg Host.Outcome.next ?_
    rw [State.sackFor, howner]
    dsimp only
    rw [hfound]
  case line =>
    intro k hkind hanswer hstale hnew
    have harrives := State.sendArrives_of_send howner hkind hanswer cycle
    refine ⟨fun hroom => congrArg Host.Outcome.next ?_, fun hfull => congrArg Host.Outcome.next ?_⟩
    · rw [harrives, State.placeLine_of_new hstale hnew, if_neg (Nat.not_le.2 hroom)]
    · rw [harrives, State.placeLine_of_new hstale hnew, if_pos hfull]
  case stale =>
    intro k hkind hanswer hstale hwait
    exact ⟨_, congrArg Host.Outcome.next (State.sendArrives_of_stale howner hkind hanswer hstale hwait cycle), rfl, rfl,
      by rw [State.reg_modSquare, State.reg_bump_one]⟩
  case record => exact fun r rest hqueue htoken => ⟨s.sendTrace site, rfl, State.sendTrace_outcome hqueue htoken⟩
  case waiting => exact fun h => congrArg Host.Outcome.next (State.sendTrace_of_waiting h)

end Sys2Proof.Machine
end

section
/-! SUPPORT. The book.* commands (chapter 7) that are taken: the load of an image, the end of a book, the request for a map, and a pre-emption. -/

namespace Sys2Proof.Machine

@[simp] theorem State.enterCommand_bookLoaded (s : State) (c : Cmd) (w : MailRow) (p : Nat) : (s.enterCommand c w).bookLoaded p = s.bookLoaded p := by
  rw [State.bookLoaded, State.enterCommand_part, ← State.bookLoaded]

section
variable {s : State} {c : Cmd}

/-! book.load (R206, R207) -/

/-- What book.load does with an image that it has read: the load begins, or fails the first check of Table 7.10 that the image does not pass. -/
def State.loadImage (s : State) (p : Nat) (c : Cmd) (addr : Nat) (img : List Byte) : State :=
  match s.verifyBook p img with
  | .error st => s.refuseLoad p c img st
  | .ok b => s.beginLoad p c b addr img

theorem State.bookLoad_of_taken {addr len : Word} {u : State} {img : List Byte} (hdram : s.inPartDram c.target.toNat addr.toNat len.toNat = true)
    (h : s.taken c rowBookLoad false) (hbook : s.bookLoaded c.target.toNat = false) (hload : (s.part c.target.toNat).loading = none)
    (hread : (s.enterCommand c rowBookLoad).hostRead addr.toNat len.toNat 0 = (u, .ok img)) :
    s.bookLoad c addr len = u.loadImage c.target.toNat c addr.toNat img := by
  rw [State.bookLoad, hdram, Bool.not_true, State.take_of_taken h, if_neg (by simp [hbook, hload]), hread]
  rfl

/-- The load of a book that does not span modules is under way, and awaits no other module. -/
theorem State.loading_beginLoad {b : Book} (hspan : b.span = false) (p a : Nat) (img : List Byte) : ((s.beginLoad p c b a img).part p).loading =
    some { cmd := c, book := b, image := a, installed := false, heard := [], firstFail := none, reload := false } := by
  unfold State.beginLoad
  dsimp only
  rw [if_neg (by simp [hspan]), State.part_modPart, if_pos rfl]

/-! book.unload and book.preempt (R195, R205) -/

theorem State.bookUnload_of_taken {flags : BitVec 8} (hflags : flags.toNat ≤ 1) (h : s.taken c rowBookUnload false)
    (hbook : s.bookLoaded c.target.toNat = true) (hunload : (s.part c.target.toNat).unload = none) :
    s.bookUnload c flags =
      let u := (s.enterCommand c { rowBookUnload with reached := bitAt flags 0 }).modPart c.target.toNat (fun v => { v with unload := some c })
      if bitAt flags 0 then u.preemptTurn c.target.toNat else u := by
  have hrow : s.taken c { rowBookUnload with reached := bitAt flags 0 } false := h
  rw [State.bookUnload, decide_eq_false (by omega), State.take_of_taken hrow]
  dsimp only
  rw [if_neg (by simp [hbook, hunload])]

theorem State.bookPreempt_of_taken (h : s.taken c rowBookPreempt false) :
    s.bookPreempt c =
      ((s.enterCommand c rowBookPreempt).modPart c.target.toNat (fun v => { v with preemptCmds := v.preemptCmds ++ [c] })).preemptTurn
        c.target.toNat :=
  State.take_of_taken h _

/-! book.map (R202) -/

theorem State.bookMap_of_taken {map : BitVec 8} {b : Book} (hbook : s.book c.target.toNat = some b) (hmap : map.toNat < b.mapCount)
    (h : s.taken c rowBookMap false) :
    s.bookMap c map = ((s.enterCommand c rowBookMap).requestMap c.target.toNat map.toNat).complete c 0x0302 .ok := by
  rw [State.bookMap, hbook]
  dsimp only
  rw [decide_eq_true hmap]
  exact State.take_of_taken h _

end

/-- The map asked for stands in SQ_MAP_REQ: the decision is recorded beside it. -/
theorem State.reg_requestMap (s : State) (p map : Nat) : (s.requestMap p map).reg .sqMapReq p = BitVec.ofNat 64 map := by
  rw [State.requestMap, (Recorded.decision ..).reg _ _ _ rfl, State.reg_setReg, if_pos ⟨rfl, rfl, rfl⟩]

/-- Settles O10, row by row. -/
theorem bookCommands : Obligations.BookCommands := by
  unfold Obligations.BookCommands
  intro s c
  dsimp only
  refine ⟨?load, ?loading, ?unload, ?map, ?preempt⟩
  case load =>
    exact fun addr len u img hdram h hbook hload hread => congrArg Host.Outcome.next (State.bookLoad_of_taken hdram h hbook hload hread)
  case loading => exact fun b a img hspan => State.loading_beginLoad hspan _ a img
  case unload =>
    exact fun flags hflags h hbook hunload => ⟨_, rfl, congrArg Host.Outcome.next (State.bookUnload_of_taken hflags h hbook hunload)⟩
  case map =>
    exact fun map b hbook hmap h _ => ⟨_, congrArg Host.Outcome.next (State.bookMap_of_taken hbook hmap h), State.reg_requestMap ..⟩
  case preempt => exact fun h => congrArg Host.Outcome.next (State.bookPreempt_of_taken h)

end Sys2Proof.Machine
end

section
/-! SUPPORT. The messages of the S-net at a square (R234 to R236): what counting a message and sending it on down the tree leave, and the combined
messages that a router gathers and passes up. -/

namespace Sys2Proof.Machine

/-! A message that goes down the tree (R234) -/

/-- A message received at a square: counted, and sent on to the children. -/
def State.takeDown (s : State) (q : Nat) (m : BitVec 64) : State := (s.bump .snMsgs q).snDown q m

section
variable (s : State) (q : Nat) (m : BitVec 64)

theorem State.reg_takeDown_count : (s.takeDown q m).reg .snMsgs q = (s.reg .snMsgs q + 1) &&& RegName.snMsgs.info.defined :=
  s.reg_bump_one .snMsgs q

theorem State.reg_takeDown {n : RegName} (h : n ≠ .snMsgs) (i j : Nat) : (s.takeDown q m).reg n i j = s.reg n i j :=
  (s.reg_bump ..).trans (if_neg fun e => h e.1.symm)

theorem State.flag_takeDown {n : RegName} (h : n ≠ .snMsgs) (i j b : Nat) : (s.takeDown q m).flag n i j b = s.flag n i j b :=
  congrArg (bitAt · b) (s.reg_takeDown q m h i j)

end

theorem State.owner_of_reg {s t : State} (h : ∀ p, t.reg .ptRegions p = s.reg .ptRegions p) (q : Nat) : t.owner q = s.owner q := by
  simp only [State.owner, State.regionOwner, h]

theorem State.owner_takeDown (s : State) (q : Nat) (m : BitVec 64) (q' : Nat) : (s.takeDown q m).owner q' = s.owner q' :=
  State.owner_of_reg (fun p => s.reg_takeDown q m (by decide) p 0) q'

theorem State.siteEnabled_takeDown (s : State) (q : Nat) (m : BitVec 64) (i : Nat) : (s.takeDown q m).siteEnabled i = s.siteEnabled i :=
  State.siteEnabled_of_reg (s.reg_takeDown q m (by decide) 0 0) (s.reg_takeDown q m (by decide) 0 0) i

/-- Whether a die is done with the turn is not a matter of the messages at its square. -/
theorem State.dieDone_takeDown (s : State) (q : Nat) (m : BitVec 64) (p i : Nat) : (s.takeDown q m).dieDone p i = s.dieDone p i := by
  have hissues : (s.takeDown q m).dieIssues p i = s.dieIssues p i := by
    refine State.dieIssues_congr ?_ ?_ rfl
    · have hfenced : (s.takeDown q m).partFenced p = s.partFenced p := s.flag_takeDown q m (by decide) ..
      unfold State.partIssues
      rw [hfenced]
      rfl
    · have hout : (s.takeDown q m).siteOut i = s.siteOut i :=
        State.siteOut_of_reg (s.reg_takeDown q m (by decide) 0 0) (s.reg_takeDown q m (by decide) 0 0) i
      unfold State.inService
      rw [s.siteEnabled_takeDown, hout]
      rfl
  rw [State.dieDone, State.dieDone, hissues, s.flag_takeDown q m (by decide)]

/-! TIME (R236) -/

/-- TIME is counted, whether the copy takes the value, stands or is to be corrected. -/
theorem State.reg_timeMessage_count (s : State) (q : Nat) (v : BitVec 56) :
    (s.timeMessage q v).reg .snMsgs q = (s.reg .snMsgs q + 1) &&& RegName.snMsgs.info.defined := by
  have hcount := s.reg_bump_one .snMsgs q
  unfold State.timeMessage
  extract_lets u lat d
  split
  · exact hcount
  split
  · exact hcount
  · rw [State.reg_bump, if_neg fun e => RegName.noConfusion e.1]
    exact hcount

/-! BOUNDARY, PREEMPT and ABORT at a square (R94, R196, R220, R234) -/

/-- The changeover that BOUNDARY names stops the square's wheel. -/
theorem execBoundary_of_changeover {s : State} {q p : Nat} {n : BitVec 56} (howner : s.owner q = some p)
    (hturn : (s.turn p).toNat % 2 ^ 56 = n.toNat) (hphase : s.phase p = 2) :
    execBoundary q n s = .next ((s.takeDown q (snMessage snBoundary n)).setFlag .bnStatus q 0 8 false) := by
  unfold execBoundary
  extract_lets u
  have ho : u.owner q = some p := (s.owner_takeDown ..).trans howner
  have ht : u.turn p = s.turn p := s.reg_takeDown q _ (by decide) p 0
  have hp : u.phase p = s.phase p := congrArg (bitsAt · 8 3) (s.reg_takeDown q _ (by decide) p 0)
  rw [ho]
  exact if_pos ⟨ht ▸ hturn, hp.trans hphase⟩

/-- Under PREEMPT a die that is done counts as yielded. -/
theorem execPreempt_of_done {s : State} {q p i : Nat} (howner : s.owner q = some p) (hsite : squareSite q = some i)
    (hpreempt : s.flag .sqPreempt p 0 0 = true) (hplay : s.inPlay p = true) (hdone : s.dieDone p i = true) (henabled : s.siteEnabled i = true) :
    execPreempt q s =
      .next (((s.takeDown q (snMessage snPreempt 0)).setFlag .sqStatus i 0 19 true).gatherTree .yielded q 4) := by
  unfold execPreempt
  extract_lets u
  have ho : u.owner q = some p := (s.owner_takeDown ..).trans howner
  have hf : u.flag .sqPreempt p 0 0 = true := (s.flag_takeDown q _ (by decide) ..).trans hpreempt
  have hp : u.inPlay p = true := hplay
  have hd : u.dieDone p i = true := (s.dieDone_takeDown ..).trans hdone
  have he : u.siteEnabled i = true := (s.siteEnabled_takeDown ..).trans henabled
  rw [ho, hsite]
  exact if_pos (by simp only [hf, hp, hd, he, Bool.and_self])

/-- In the drain of an abort the sequencer stops, and what it awaits is discarded. -/
theorem execAbort_of_draining {s : State} {q p i : Nat} (howner : s.owner q = some p) (hsite : squareSite q = some i)
    (hdrain : (s.part p).stage = .draining) :
    execAbort q s = .next ((s.takeDown q (snMessage snAbort 0)).modDie i (fun d => { d with playing := false, check := none })) := by
  unfold execAbort
  extract_lets u
  have ho : u.owner q = some p := (s.owner_takeDown ..).trans howner
  rw [ho, hsite]
  exact if_pos hdrain

/-! DONE, READY and YIELDED (R235) -/

/-- A combined message from a child is counted and gathered. -/
theorem State.treeReceipt_of_child {s : State} {q d : Nat} (hchild : d ∈ s.treeChildren q) (hidle : s.linkIdle q d = false) (k : TreeMsg) :
    s.treeReceipt k q d = (s.bump .snMsgs q).gatherTree k q d := by
  have hchildren : (s.bump .snMsgs q).treeChildren q = s.treeChildren q := by simp [State.treeChildren, State.field]
  unfold State.treeReceipt
  rw [if_neg (by simp [hidle])]
  exact if_pos (hchildren ▸ hchild)

theorem State.treeReceipt_outcome {s : State} {q d : Nat} (hchild : d ∈ s.treeChildren q) (hidle : s.linkIdle q d = false) (k : TreeMsg) :
    (s.treeReceipt k q d).reg .snMsgs q = (s.reg .snMsgs q + 1) &&& RegName.snMsgs.info.defined ∧ d ∈ (s.treeReceipt k q d).held k q := by
  rw [State.treeReceipt_of_child hchild hidle]
  exact ⟨(State.reg_of_regs (State.gatherTree_regs ..) ..).trans (s.reg_bump_one .snMsgs q), State.mem_held_gatherTree ..⟩

/-- A router that holds a message from all it awaits has passed it on. -/
theorem State.passed_of_whole {s : State} {k : TreeMsg} {q : Nat} (hchildren : (s.treeChildren q).all (fun c => decide (c ∈ s.held k q)) = true)
    (hdie : s.ownDie q = false) : 5 ∈ (s.passUp k q).held k q := by
  unfold State.passUp
  extract_lets l whole
  have hwhole : whole = true := by simp only [whole, l, hchildren, hdie, Bool.not_false, Bool.true_or, Bool.and_true]
  split
  · rw [State.held_snUp, State.held_hold, if_pos ⟨rfl, rfl⟩]
    exact mem_insertNat.2 (.inl rfl)
  next hheld => exact not_not.1 fun h => hheld ⟨hwhole, h⟩

/-- The last child's message is passed on by a router without a die of its own. -/
theorem State.passed_treeReceipt {s : State} {q d : Nat} {k : TreeMsg} (hchild : d ∈ s.treeChildren q) (hidle : s.linkIdle q d = false)
    (hlast : (s.treeChildren q).all (fun c => decide (c ∈ Sparse.insertNat (s.held k q) d)) = true) (hdie : s.ownDie q = false) :
    5 ∈ (s.treeReceipt k q d).held k q := by
  rw [State.treeReceipt_of_child hchild hidle, State.gatherTree]
  refine State.passed_of_whole ?_ ?_
  · have hchildren (l : List Nat) : ((s.bump .snMsgs q).hold k q l).treeChildren q = s.treeChildren q := by
      simp [State.treeChildren, State.field, State.hold]
    rw [State.held_hold, if_pos ⟨rfl, rfl⟩, hchildren]
    exact hlast
  · have henabled (i : Nat) : ((s.bump .snMsgs q).hold k q (Sparse.insertNat ((s.bump .snMsgs q).held k q) d)).siteEnabled i = s.siteEnabled i :=
      State.siteEnabled_of_reg (by simp [State.hold]) (by simp [State.hold]) i
    rw [← hdie]
    simp only [State.ownDie, henabled]

/-- Settles O23, message by message. -/
theorem snetMessages : Obligations.SnetMessages := by
  unfold Obligations.SnetMessages
  intro s q
  dsimp only
  refine ⟨?time, ?broadcast, ?boundary, ?done, ?ready, ?yielded, ?preempt, ?abort⟩
  case time => exact fun v => ⟨_, rfl, s.reg_timeMessage_count q v⟩
  case broadcast => exact ⟨_, rfl, s.reg_bump_one .snMsgs 15, rfl⟩
  case boundary =>
    intro n p howner hturn hphase
    refine ⟨_, execBoundary_of_changeover howner hturn hphase, ?_, ?_⟩
    · rw [State.reg_setFlag, if_neg fun e => RegName.noConfusion e.1, s.reg_takeDown_count]
    · rw [State.flag_setFlag _ _ _ _ _ _ _ (by decide), if_pos rfl]
  case done =>
    intro d hchild hidle hlast hdie
    exact ⟨_, rfl, (State.treeReceipt_outcome hchild hidle .done).1, State.passed_treeReceipt (k := .done) hchild hidle hlast hdie⟩
  case ready => exact fun d hchild hidle => ⟨_, rfl, State.treeReceipt_outcome hchild hidle .ready⟩
  case yielded => exact fun d hchild hidle => ⟨_, rfl, State.treeReceipt_outcome hchild hidle .yielded⟩
  case preempt =>
    intro p i howner hsite hpreempt hplay hdone henabled
    refine ⟨_, execPreempt_of_done howner hsite hpreempt hplay hdone henabled, ?_, ?_, State.mem_held_gatherTree _ .yielded ..⟩
    · rw [State.reg_of_regs (State.gatherTree_regs ..), State.reg_setFlag, if_neg fun e => RegName.noConfusion e.1, s.reg_takeDown_count]
    · rw [State.flag_of_regs (State.gatherTree_regs ..), State.flag_setFlag _ _ _ _ _ _ _ (by decide), if_pos rfl]
  case abort =>
    intro p i howner hsite hdrain
    refine ⟨_, execAbort_of_draining howner hsite hdrain, s.reg_takeDown_count q (snMessage snAbort 0), ?_, ?_⟩ <;>
      rw [State.die_modDie, if_pos rfl]

end Sys2Proof.Machine
end

section
/-! SUPPORT. Packets of both networks at a router (R213, R214, R221, R227 to R230, R232, R233, R237, R239): what serving a router leaves, and what
becomes of a packet by its check, its place in the buffers and the fence it meets. -/

namespace Sys2Proof.Machine

/-! What serving a router leaves (R226) -/

/-- Between s and t packets have moved within the network alone: memory, dies and partitions stand, and so do the failures counted at each link. -/
structure PacketsMoved (s t : State) : Prop where
  mem : t.mem = s.mem
  dies : t.dies = s.dies
  parts : t.parts = s.parts
  fails : ∀ q, (t.square q).linkFails = (s.square q).linkFails

namespace PacketsMoved

theorem refl (s : State) : PacketsMoved s s := ⟨rfl, rfl, rfl, fun _ => rfl⟩

theorem trans {s t u : State} (h : PacketsMoved s t) (k : PacketsMoved t u) : PacketsMoved s u :=
  ⟨k.mem.trans h.mem, k.dies.trans h.dies, k.parts.trans h.parts, fun q => (k.fails q).trans (h.fails q)⟩

theorem foldl {α : Type} {f : State → α → State} (h : ∀ s a, PacketsMoved s (f s a)) (l : List α) (s : State) : PacketsMoved s (l.foldl f s) := by
  induction l generalizing s with
  | nil => exact refl s
  | cons a l ih => exact (h s a).trans (ih _)

theorem bump (s : State) (n : RegName) (i j k : Nat) : PacketsMoved s (s.bump n i j k) := ⟨rfl, rfl, rfl, fun _ => rfl⟩

theorem modSquare (s : State) (q : Nat) {f : Square → Square} (h : ∀ v, (f v).linkFails = v.linkFails := by exact fun _ => rfl) :
    PacketsMoved s (s.modSquare q f) := by
  refine ⟨rfl, rfl, rfl, fun q' => ?_⟩
  rw [State.square_modSquare]
  split
  next e => rw [← e, h]
  next => rfl

theorem sendOver (s : State) (q d : Nat) (p : BnetPacket) : PacketsMoved s (s.sendOver q d p) := by
  unfold State.sendOver
  split
  · exact (modSquare ..).trans (bump ..)
  · exact refl s

theorem serveOut {s t : State} {q d : Nat} (h : s.serveOut q d = some t) : PacketsMoved s t := by
  unfold State.serveOut at h
  dsimp only at h
  split at h
  · cases h
  split at h
  · cases h
  next p rest _ =>
    have hpop (k m : Nat) : PacketsMoved s
        ((s.setBnetBuf q k rest).modSquare q (fun v => { v with bnetNext := Sparse.nset 0 v.bnetNext d m })) :=
      (modSquare s q).trans (modSquare ..)
    split at h <;> cases h
    · split
      · exact hpop ..
      · exact (hpop ..).trans (modSquare ..)
    · exact (hpop ..).trans (sendOver ..)

theorem enterLocal {s t : State} {q : Nat} {p : BnetPacket} (h : s.enterLocal q p = some t) : PacketsMoved s t := by
  unfold State.enterLocal at h
  dsimp only at h
  split at h <;> split at h <;> cases h <;> exact modSquare ..

theorem enterAll (s : State) (q : Nat) (l : List BnetPacket) : PacketsMoved s (s.enterAll q l).1 := by
  induction l generalizing s with
  | nil => exact refl s
  | cons p l ih =>
    unfold State.enterAll
    split
    next t ht => exact (enterLocal ht).trans (ih t)
    next => exact ih s

theorem refill (s : State) (q : Nat) : PacketsMoved s (s.refill q) := by
  unfold State.refill
  split
  · exact (modSquare s q).trans ((enterAll ..).trans (modSquare ..))
  · exact (enterAll s q _).trans (modSquare ..)

theorem serveFor (s : State) (q k : Nat) : PacketsMoved s (s.serveFor q k) := by
  induction k generalizing s with
  | zero => exact refl s
  | succ k ih =>
    unfold State.serveFor
    dsimp only
    split
    next t ht =>
      obtain ⟨d, -, hd⟩ := List.exists_of_findSome?_eq_some ht
      exact (refill s q).trans ((serveOut hd).trans (ih t))
    next => exact refill s q

theorem serve (s : State) (q : Nat) : PacketsMoved s (s.serve q) := serveFor ..

theorem serveRouter (s : State) (q : Nat) : PacketsMoved s (s.serveRouter q) := by
  unfold State.serveRouter
  exact (serve s q).trans (foldl serve ..)

theorem acknowledge (s : State) (q d : Nat) (p : BnetPacket) : PacketsMoved s (s.acknowledge q d p) := by
  unfold State.acknowledge
  exact (modSquare ..).trans (serveRouter ..)

end PacketsMoved

/-- An acknowledgement moves no register but the counts of bytes sent by the routers that it serves. -/
theorem State.reg_acknowledge {n : RegName} (h : n ≠ .bnTxBytes) (i j : Nat) (s : State) (q d : Nat) (p : BnetPacket) :
    (s.acknowledge q d p).reg n i j = s.reg n i j :=
  (State.reg_foldl (fun s m => State.reg_serveFor h i j s m _) ..).trans ((State.reg_serveFor h ..).trans (State.reg_modSquare ..))

/-! Failures of a packet at a link (R214, R239) -/

section
variable (s : State) (q d : Nat) (k : BnetPacket)

theorem State.failsOf_of_linkFails {s t : State} {q : Nat} (h : (t.square q).linkFails = (s.square q).linkFails) (d : Nat) (k : BnetPacket) :
    t.failsOf q d k = s.failsOf q d k := by
  rw [State.failsOf, State.failsOf, h]

theorem State.linkFails_clearFails : ((s.clearFails q d k).square q).linkFails =
    (s.square q).linkFails.filter (fun x => decide (¬(x.1 = d ∧ x.2.1 = k))) := by
  rw [State.clearFails, State.square_modSquare, if_pos rfl]

/-- No failure of a packet is left once its failures are forgotten. -/
theorem State.find_linkFails_clearFails : ((s.clearFails q d k).square q).linkFails.find? (fun x => decide (x.1 = d ∧ x.2.1 = k)) = none := by
  rw [State.linkFails_clearFails, List.find?_eq_none]
  intro x hx
  have hother := (List.mem_filter.1 hx).2
  rwa [decide_not, Bool.not_eq_true', ← Bool.not_eq_true] at hother

theorem State.failsOf_clearFails : (s.clearFails q d k).failsOf q d k = 0 := by
  rw [State.failsOf, State.find_linkFails_clearFails]
  rfl

variable {s q d k}

/-- A failure before the sixteenth is counted, and that is all. -/
theorem State.linkFailure_of_few (h : s.failsOf q d k < 15) : s.linkFailure q d k =
    (s.clearFails q d k).modSquare q (fun v => { v with linkFails := v.linkFails ++ [(d, k, s.failsOf q d k + 1)] }) :=
  if_neg (by omega)

theorem State.failsOf_linkFailure (h : s.failsOf q d k < 15) : (s.linkFailure q d k).failsOf q d k = s.failsOf q d k + 1 := by
  rw [State.linkFailure_of_few h, State.failsOf, State.square_modSquare, if_pos rfl]
  dsimp only
  rw [List.find?_append, State.find_linkFails_clearFails]
  simp

theorem State.naks_linkFailure (h : s.failsOf q d k < 15) : ((s.linkFailure q d k).square q).naks = (s.square q).naks := by
  rw [State.linkFailure_of_few h, State.square_modSquare, if_pos rfl, State.clearFails, State.square_modSquare, if_pos rfl]

/-- The sixteenth failure in a row fails the link. -/
theorem State.linkFailure_of_sixteenth (h : s.failsOf q d k = 15) : s.linkFailure q d k = (s.clearFails q d k).failLink q d :=
  if_pos (by omega)

/-- A flag that is set stays so when one is set. -/
theorem State.flag_setFlag_true {n n' : RegName} {i j b : Nat} (hb : b < 64) (h : s.flag n i j b = true) (i' j' b' : Nat) :
    (s.setFlag n' i' j' b' true).flag n i j b = true := by
  rw [State.flag, State.reg_setFlag]
  split
  next e =>
    obtain ⟨rfl, rfl, rfl⟩ := e
    rw [bitAt_putBit _ _ _ _ hb]
    split
    · rfl
    · exact h
  next => exact h

/-- A failed link is marked at both of its routers. -/
theorem State.failLink_outcome {n : Nat} (hd : d < 4) (hn : neighbour q d = some n) : (s.failLink q d).flag .bnStatus q 0 (4 + d) = true ∧
    (s.failLink q d).flag .bnStatus n 0 (4 + opposite d) = true ∧ (s.failLink q d).mem = s.mem := by
  unfold State.failLink
  rw [hn]
  dsimp only
  have hrec := Recorded.event7F ((s.setFlag .bnStatus q 0 (4 + d) true).setFlag .bnStatus n 0 (4 + opposite d) true) .error
    (((s.setFlag .bnStatus q 0 (4 + d) true).setFlag .bnStatus n 0 (4 + opposite d) true).owner q) q .bnStatus q 0 []
  have hflag (i b : Nat) := congrArg (bitAt · b) (hrec.reg .bnStatus i 0 rfl)
  have hbound : 4 + opposite d < 64 := by unfold opposite; omega
  refine ⟨(hflag q (4 + d)).trans ?_, (hflag n (4 + opposite d)).trans ?_, hrec.mem⟩
  · exact State.flag_setFlag_true (by omega) ((State.flag_setFlag _ _ _ _ _ _ _ (by omega)).trans (if_pos rfl)) ..
  · exact (State.flag_setFlag _ _ _ _ _ _ _ hbound).trans (if_pos rfl)

end

/-- A packet that fails its check is negatively acknowledged. -/
def State.refuse (s : State) (q d : Nat) (k : BnetPacket) : State := s.modSquare q (fun v => { v with naks := v.naks ++ [(d, k)] })

theorem State.square_refuse (s : State) (q d : Nat) (k : BnetPacket) :
    (s.refuse q d k).square q = { s.square q with naks := (s.square q).naks ++ [(d, k)] } :=
  (State.square_modSquare ..).trans (if_pos rfl)

theorem State.failsOf_refuse (s : State) (q d : Nat) (k : BnetPacket) : (s.refuse q d k).failsOf q d k = s.failsOf q d k :=
  State.failsOf_of_linkFails (congrArg Square.linkFails (s.square_refuse q d k) :) d k

/-- A refusal before the sixteenth is counted, and moves neither registers nor memory. -/
theorem State.refuse_outcome {s : State} {q d : Nat} {k : BnetPacket} (hfew : s.failsOf q d k < 15) :
    ((s.refuse q d k).linkFailure q d k).failsOf q d k = s.failsOf q d k + 1 ∧
    (((s.refuse q d k).linkFailure q d k).square q).naks = (s.square q).naks ++ [(d, k)] ∧
    ((s.refuse q d k).linkFailure q d k).regs = s.regs ∧ ((s.refuse q d k).linkFailure q d k).mem = s.mem := by
  have hfew' : (s.refuse q d k).failsOf q d k < 15 := (s.failsOf_refuse q d k).symm ▸ hfew
  refine ⟨by rw [State.failsOf_linkFailure hfew', s.failsOf_refuse], by rw [State.naks_linkFailure hfew', s.square_refuse], ?_, ?_⟩
  · rw [State.linkFailure_of_few hfew', State.clearFails, State.refuse, State.modSquare_regs, State.modSquare_regs, State.modSquare_regs]
  · rw [State.linkFailure_of_few hfew', State.clearFails, State.refuse, State.modSquare_mem, State.modSquare_mem, State.modSquare_mem]

/-! A B-net packet over a link (R213, R214, R226, R237) -/

/-- A good packet taken over a link: its failures forgotten, its bytes counted, and the sender's router told. -/
def State.takeGood (s : State) (q d n : Nat) (k : BnetPacket) : State :=
  ((s.clearFails q d k).bump .bnRxBytes q 0 k.payload.length).acknowledge n (opposite d) k

section
variable {s : State} {q d n : Nat} {k : BnetPacket}

theorem State.reg_takeGood {m : RegName} (htx : m ≠ .bnTxBytes) (hrx : m ≠ .bnRxBytes) (i j : Nat) :
    (s.takeGood q d n k).reg m i j = s.reg m i j :=
  (State.reg_acknowledge htx ..).trans ((State.reg_bump ..).trans (if_neg fun e => hrx e.1.symm))

theorem State.owner_takeGood (x : Nat) : (s.takeGood q d n k).owner x = s.owner x :=
  State.owner_of_reg (fun p => State.reg_takeGood (by decide) (by decide) p 0) x

theorem State.takeGood_outcome : (s.takeGood q d n k).mem = s.mem ∧ (s.takeGood q d n k).dies = s.dies ∧ (s.takeGood q d n k).parts = s.parts ∧
    (s.takeGood q d n k).failsOf q d k = 0 := by
  have hmoved := PacketsMoved.acknowledge ((s.clearFails q d k).bump .bnRxBytes q 0 k.payload.length) n (opposite d) k
  exact ⟨hmoved.mem, hmoved.dies, hmoved.parts, (State.failsOf_of_linkFails (hmoved.fails q) d k).trans (s.failsOf_clearFails q d k)⟩

variable (hlink : neighbour q d = some n) (hd : d < 4) (hmaint : s.maintOnly q = false)
  (hlive : s.flag .bnStatus q 0 (4 + d) = false ∧ s.clamped n q = false)
include hlink hd hmaint hlive

/-- What a working link does with a packet, by its check, the egress buffer and the place that it needs. -/
theorem State.bnetReceipt_of_live (check : BitVec 32) : s.bnetReceipt q d check k =
    if check ≠ k.check then (s.refuse q d k).linkFailure q d k
    else if s.portHeld q k then s.portCounts q
    else if !s.hasInput q d k then s
    else if s.owner q ≠ s.owner n then
      if bnetRequest k.kind then ((s.takeGood q d n k).bump .bnFenceDrop q).bounce q k .partitionFenced
      else (s.takeGood q d n k).bump .bnFenceDrop q
    else (s.takeGood q d n k).carry q d k := by
  have howner := State.owner_takeGood (s := s) (q := q) (d := d) (n := n) (k := k)
  rw [← howner q, ← howner n]
  unfold State.bnetReceipt
  rw [hmaint, if_neg Bool.false_ne_true, if_neg (Nat.not_le.2 hd), hlink]
  dsimp only
  rw [hlive.1, hlive.2, Bool.or_false, if_neg Bool.false_ne_true]
  rfl

theorem State.bnetReceipt_of_bad {check : BitVec 32} (hcheck : check ≠ k.check) :
    s.bnetReceipt q d check k = (s.refuse q d k).linkFailure q d k := by
  rw [State.bnetReceipt_of_live hlink hd hmaint hlive, if_pos hcheck]

theorem State.bnetReceipt_of_held (hheld : s.portHeld q k = true) : s.bnetReceipt q d k.check k = s.portCounts q := by
  rw [State.bnetReceipt_of_live hlink hd hmaint hlive, if_neg fun h => h rfl, if_pos hheld]

/-- A good packet that answers another is dropped at a fence. -/
theorem State.bnetReceipt_of_fence (hheld : s.portHeld q k = false) (hroom : s.hasInput q d k = true) (hfence : s.owner q ≠ s.owner n)
    (hkind : bnetRequest k.kind = false) : s.bnetReceipt q d k.check k = (s.takeGood q d n k).bump .bnFenceDrop q := by
  rw [State.bnetReceipt_of_live hlink hd hmaint hlive, if_neg fun h => h rfl, hheld, hroom, if_neg Bool.false_ne_true, Bool.not_true,
    if_neg Bool.false_ne_true, if_pos hfence, hkind, if_neg Bool.false_ne_true]

theorem State.bnetReceipt_of_good (hheld : s.portHeld q k = false) (hroom : s.hasInput q d k = true) (hsame : s.owner q = s.owner n) :
    s.bnetReceipt q d k.check k = (s.takeGood q d n k).carry q d k := by
  rw [State.bnetReceipt_of_live hlink hd hmaint hlive, if_neg fun h => h rfl, hheld, hroom, if_neg Bool.false_ne_true, Bool.not_true,
    if_neg Bool.false_ne_true, if_neg fun h => h hsame]

end

/-- A full egress buffer moves its own count alone. -/
theorem State.reg_portCounts {m : RegName} {q i j : Nat} (h : ¬(m = .bnPortFull ∧ i = q ∧ j = 0)) (s : State) :
    (s.portCounts q).reg m i j = s.reg m i j :=
  (State.reg_bump ..).trans (if_neg fun ⟨hm, hi, hj⟩ => h ⟨hm.symm, hi.symm, hj.symm⟩)

/-! A B-net packet from the square's own port (R226, R227) -/

section
variable {s : State} {q e : Nat} {k : BnetPacket} (hmaint : s.maintOnly q = false) (he : 4 ≤ e) (check : BitVec 32)
include hmaint he

theorem State.bnetReceipt_port_of_held (hheld : s.portHeld q k = true) :
    s.bnetReceipt q e check k = (s.portCounts q).modSquare q (fun v => { v with bnetHeld := v.bnetHeld ++ [k] }) := by
  rw [State.bnetReceipt, hmaint, if_neg Bool.false_ne_true, if_pos he, if_pos hheld]

theorem State.bnetReceipt_port_of_here (hheld : s.portHeld q k = false) (hcirc : k.circ = 0xFF) (hdest : k.dest.toNat = q) :
    s.bnetReceipt q e check k = s.deliver q k := by
  rw [State.bnetReceipt, hmaint, if_neg Bool.false_ne_true, if_pos he, hheld, if_neg Bool.false_ne_true, State.fromPort,
    if_neg fun h => h.1 hcirc, if_pos ⟨hcirc, hdest⟩]

end

/-! Replays (R214) -/

/-- A negative acknowledgement is taken up: it is no longer on its way from a square. -/
def State.takeNak (s : State) (n d : Nat) (x : BnetPacket) : State := s.modSquare n (fun v => { v with naks := v.naks.erase (d, x) })

theorem State.square_takeNak (s : State) (n d : Nat) (x : BnetPacket) (q : Nat) :
    ((s.takeNak n d x).square q).bnetOut = (s.square q).bnetOut ∧ ((s.takeNak n d x).square q).replay = (s.square q).replay := by
  rw [State.takeNak, State.square_modSquare]
  split
  next e => exact e ▸ ⟨rfl, rfl⟩
  next => exact ⟨rfl, rfl⟩

section
variable {s : State} {q d n : Nat} (hlink : neighbour q d = some n) (hlive : s.flag .bnStatus q 0 (4 + d) = false)
include hlink hlive

theorem State.replayPacket_of_live (x : BnetPacket) : s.replayPacket q d x =
    ((s.modSquare q (fun v => { v with bnetOut := v.bnetOut ++ [x] })).bump .bnTxBytes q 0 x.payload.length).bump .bnReplays n := by
  rw [State.replayPacket, hlink]
  dsimp only
  rw [hlive, if_neg Bool.false_ne_true]

/-- A packet that is replayed goes out again, stays in the replay buffer, and counts at the receiver. -/
theorem State.replayPacket_outcome (x : BnetPacket) : ((s.replayPacket q d x).square q).bnetOut = (s.square q).bnetOut ++ [x] ∧
    (s.replayPacket q d x).reg .bnReplays n = (s.reg .bnReplays n + 1) &&& RegName.bnReplays.info.defined ∧
    ((s.replayPacket q d x).square q).replay = (s.square q).replay := by
  have hsent (f : Square → Square) : (((s.modSquare q f).bump .bnTxBytes q 0 x.payload.length).bump .bnReplays n).square q = f (s.square q) :=
    (s.square_modSquare q q f).trans (if_pos rfl)
  rw [State.replayPacket_of_live hlink hlive, hsent]
  exact ⟨rfl, by rw [State.reg_bump_one, State.reg_bump, if_neg fun e => RegName.noConfusion e.1, State.reg_modSquare], rfl⟩

/-- The packet that a negative acknowledgement names is replayed. -/
theorem State.replayLane_outcome {lane : Nat} {x : BnetPacket} (hnak : s.nakked q d lane = some x) :
    ((s.replayLane q d lane).square q).bnetOut = (s.square q).bnetOut ++ [x] ∧
    (s.replayLane q d lane).reg .bnReplays n = (s.reg .bnReplays n + 1) &&& RegName.bnReplays.info.defined ∧
    ((s.replayLane q d lane).square q).replay = (s.square q).replay := by
  obtain ⟨hout, hreplay⟩ := s.square_takeNak n (opposite d) x q
  obtain ⟨hout', hcount, hreplay'⟩ := State.replayPacket_outcome (s := s.takeNak n (opposite d) x) hlink hlive x
  rw [State.replayLane, hnak, hlink]
  exact ⟨hout'.trans (congrArg (· ++ [x]) hout), hcount, hreplay'.trans hreplay⟩

theorem State.replayTimeout_of_oldest {lane : Nat} {x : BnetPacket} {l : List BnetPacket} (hlane : s.lane q d lane = x :: l) :
    s.replayTimeout q d lane = (s.linkFailure n (opposite d) x).replayPacket q d x := by
  rw [State.replayTimeout, hlink, hlane]
  dsimp only
  rw [hlive, if_neg Bool.false_ne_true]

end

/-! The head of a circuit (R221) -/

section
variable {s : State} {q c : Nat} {x : BnetPacket} {l : List BnetPacket} (hqueue : s.circuitQueue q c = x :: l) (hgoes : s.circuitGoes q c = true)
include hqueue hgoes

theorem State.circuitForward_of_link {d : Nat} (hd : d < 4) (hport : s.circuitPort q c = d + 1) (w : Nat) : s.circuitForward q c w =
    (((s.setCircuitQueue q c l).bump .bnCircWait q 0 w).sendOver q d x).serveRouter q := by
  rw [State.circuitForward, hqueue]
  dsimp only
  rw [hgoes, Bool.not_true, if_neg Bool.false_ne_true, hport, if_neg (by omega), Nat.add_sub_cancel]

theorem State.circuitForward_of_engine {e : Nat} (hport : s.circuitPort q c = 6) (hkind : squareKind q = .optical e) (w : Nat) :
    s.circuitForward q c w = (((s.setCircuitQueue q c l).bump .bnCircWait q 0 w).pushCircuit (s.engineQuad e x)
      (portMessage s (s.engineQuad e x) x)).serveRouter q := by
  rw [State.circuitForward, hqueue]
  dsimp only
  rw [hgoes, Bool.not_true, if_neg Bool.false_ne_true, if_pos hport, hkind]

end

/-! C-net packets (R229, R230, R232, R233, R237) -/

section
variable {s : State} {q d : Nat} {k : CnetPacket}

theorem State.cnetAccess_of_ok {t : State} {data : Option (List Byte)} {b : List Byte}
    (h : s.accessAt (cnetRequester k.src.toNat) false k.addr.toNat k.size.toNat data = (t, .ok b)) :
    s.cnetAccess q k data = t.injectCnet q (t.rspFor q k 0 b) := by
  rw [State.cnetAccess, h]

theorem State.cnetAccess_of_error {t : State} {data : Option (List Byte)} {e : Status}
    (h : s.accessAt (cnetRequester k.src.toNat) false k.addr.toNat k.size.toNat data = (t, .error e)) :
    s.cnetAccess q k data = t.injectCnet q (t.rspFor q k e.code []) := by
  rw [State.cnetAccess, h]

theorem State.ejectCnet_of_rd (h : k.type = .rd) : s.ejectCnet q k = (s.bump .cnRxPkts q).cnetAccess q k none := by
  rw [State.ejectCnet, h]

variable (hserved : s.maintOnly q = false ∨ k.src ≠ 0 ∨ k.type = .maint)
include hserved

/-- A packet that the Referee may send, or that is another's, is not held off before Ready. -/
theorem State.cnet_not_barred : ¬ (s.maintOnly q && decide (k.src = 0 ∧ k.type ≠ .maint ∧ k.type ≠ .rsp)) = true := by
  intro h
  rw [Bool.and_eq_true, decide_eq_true_eq] at h
  obtain ⟨hmaint, hsrc, htype, -⟩ := h
  obtain hopen | hother | hsame := hserved
  · exact Bool.false_ne_true (hopen.symm.trans hmaint)
  · exact hother hsrc
  · exact htype hsame

theorem State.cnetReceipt_of_here (hd : 4 ≤ d) (hdest : k.dest.toNat = q) : s.cnetReceipt q d k = s.ejectCnet q k := by
  rw [State.cnetReceipt, if_neg (State.cnet_not_barred hserved), if_pos hd, if_pos hdest]

variable {n : Nat} (hlink : neighbour q d = some n) (hd : d < 4) (hlive : s.flag .cnStatus q 0 (1 + d) = false) (hopen : s.clamped n q = false)
include hlink hd hlive hopen

/-- An answer is dropped at a fence. -/
theorem State.cnetReceipt_of_fence (hfence : s.owner q ≠ s.owner n) (hsrc : k.src ≠ 0) (hdest : k.dest ≠ 0) (htype : cnetRequest k.type = false) :
    s.cnetReceipt q d k = (s.offWires q d k).bump .cnFenceDrop q := by
  rw [State.cnetReceipt, if_neg (State.cnet_not_barred hserved), if_neg (Nat.not_le.2 hd), hlink]
  dsimp only
  rw [hlive, hopen, Bool.or_false, if_neg Bool.false_ne_true, if_pos ⟨hfence, hsrc, hdest⟩, htype, if_neg Bool.false_ne_true]

theorem State.cnetReceipt_of_dest (hsame : s.owner q = s.owner n) (hdest : k.dest.toNat = q) :
    s.cnetReceipt q d k = ((s.offWires q d k).ejectCnet q k).cnetServeRouter q := by
  rw [State.cnetReceipt, if_neg (State.cnet_not_barred hserved), if_neg (Nat.not_le.2 hd), hlink]
  dsimp only
  rw [hlive, hopen, Bool.or_false, if_neg Bool.false_ne_true, if_neg fun h => h.1 hsame, State.cnetCarry, if_pos hdest]

end

/-- A packet off the wires of its link moves the square at the other end alone. -/
theorem State.offWires_outcome {q d n : Nat} (hlink : neighbour q d = some n) (s : State) (k : CnetPacket) :
    (s.offWires q d k).mem = s.mem ∧ (∀ m i j, (s.offWires q d k).reg m i j = s.reg m i j) ∧
      ∀ x, x ≠ n → (s.offWires q d k).square x = s.square x := by
  rw [State.offWires, hlink]
  exact ⟨rfl, fun _ _ _ => rfl, fun x hx => (State.square_modSquare ..).trans (if_neg hx.symm)⟩

/-- A packet that enters a router is counted. -/
theorem State.cnetEnter_outcome {s u : State} {q : Nat} {k : CnetPacket} (h : s.cnetEnter q k = some u) :
    u.reg .cnTxPkts q = (s.reg .cnTxPkts q + 1) &&& RegName.cnTxPkts.info.defined ∧ u.mem = s.mem := by
  unfold State.cnetEnter at h
  dsimp only at h
  split at h <;> cases h
  exact ⟨State.reg_bump_one .., rfl⟩

theorem State.injectionRelease_of_entered {s u : State} {q : Nat} {k : CnetPacket} {l : List CnetPacket} (hheld : (s.square q).cnetHeld = k :: l)
    (henter : s.cnetEnter q k = some u) (w : Nat) : s.injectionRelease q w =
      (((u.modSquare q (fun v => { v with cnetHeld := l })).bump .cnInjWait q 0 w).takeToken q).cnetServeRouter q := by
  rw [State.injectionRelease, hheld]
  dsimp only
  rw [henter]

/-- Settles O30, command by command. -/
theorem networkPackets : Obligations.NetworkPackets := by
  unfold Obligations.NetworkPackets
  refine ⟨?receipt, ?links, ?cnet, ?release⟩
  case receipt =>
    intro s q d n k hd hlink hmaint
    dsimp only
    refine ⟨?bad, ?sixteenth, ?fence, ?good, ?held, ?portHeld, ?portHere⟩
    case bad =>
      intro check hlive hcheck hfew
      exact ⟨_, congrArg Host.Outcome.next (State.bnetReceipt_of_bad hlink hd hmaint hlive hcheck), State.refuse_outcome hfew⟩
    case sixteenth =>
      intro check hlive hcheck hmany
      exact ⟨_, congrArg Host.Outcome.next ((State.bnetReceipt_of_bad hlink hd hmaint hlive hcheck).trans
        (State.linkFailure_of_sixteenth ((s.failsOf_refuse q d k).trans hmany))), State.failLink_outcome hd hlink⟩
    case fence =>
      intro hlive hheld hroom hfence hkind
      obtain ⟨hmem, hdies, hparts, hfails⟩ := State.takeGood_outcome (s := s) (q := q) (d := d) (n := n) (k := k)
      refine ⟨_, congrArg Host.Outcome.next (State.bnetReceipt_of_fence hlink hd hmaint hlive hheld hroom hfence hkind), hmem, hdies, hparts,
        ?_, hfails⟩
      rw [State.reg_bump_one, State.reg_takeGood (by decide) (by decide)]
    case good =>
      exact fun hlive hheld hroom hsame =>
        congrArg Host.Outcome.next (State.bnetReceipt_of_good hlink hd hmaint hlive hheld hroom hsame)
    case held =>
      exact fun hlive hheld => ⟨_, congrArg Host.Outcome.next (State.bnetReceipt_of_held hlink hd hmaint hlive hheld), rfl, rfl, rfl, rfl,
        fun m i j h => State.reg_portCounts h s⟩
    case portHeld =>
      intro e check he hheld
      refine ⟨_, congrArg Host.Outcome.next (State.bnetReceipt_port_of_held hmaint he check hheld), ?_, rfl, rfl, rfl,
        fun m i j h => State.reg_portCounts h s⟩
      rw [State.square_modSquare, if_pos rfl]
      rfl
    case portHere =>
      exact fun e check he hheld hcirc hdest =>
        congrArg Host.Outcome.next (State.bnetReceipt_port_of_here hmaint he check hheld hcirc hdest)
  case links =>
    intro s q d n hd hlink
    refine ⟨?nak, ?timeout, ?circuit⟩
    case nak => exact fun lane x hnak hlive => ⟨_, rfl, State.replayLane_outcome hlink hlive hnak⟩
    case timeout => exact fun lane x l hlane hlive => congrArg Host.Outcome.next (State.replayTimeout_of_oldest hlink hlive hlane)
    case circuit =>
      intro c w x l hqueue hgoes
      exact ⟨fun hport => congrArg Host.Outcome.next (State.circuitForward_of_link hqueue hgoes hd hport w.toNat),
        fun e hport hkind => congrArg Host.Outcome.next (State.circuitForward_of_engine hqueue hgoes hport hkind w.toNat)⟩
  case cnet =>
    intro s q k hserved
    refine ⟨?here, ?read, ?link⟩
    case here => exact fun d hd hdest => congrArg Host.Outcome.next (State.cnetReceipt_of_here hserved hd hdest)
    case read =>
      intro d hd hdest htype
      have hread := (State.cnetReceipt_of_here hserved hd hdest).trans (State.ejectCnet_of_rd htype)
      dsimp only
      generalize haccess : (s.bump .cnRxPkts q).accessAt (cnetRequester k.src.toNat) false k.addr.toNat k.size.toNat none = x
      refine congrArg Host.Outcome.next (hread.trans ?_)
      obtain ⟨t, e | b⟩ := x
      · exact State.cnetAccess_of_error haccess
      · exact State.cnetAccess_of_ok haccess
    case link =>
      intro d n hd hlink hlive hopen
      refine ⟨fun hfence hsrc hdest htype => ?_, fun hsame hdest =>
        congrArg Host.Outcome.next (State.cnetReceipt_of_dest hserved hlink hd hlive hopen hsame hdest)⟩
      obtain ⟨hmem, hreg, hsquare⟩ := State.offWires_outcome hlink s k
      refine ⟨_, congrArg Host.Outcome.next (State.cnetReceipt_of_fence hserved hlink hd hlive hopen hfence hsrc hdest htype), ?_, hmem, hsquare,
        fun m i j h => ?_⟩
      · rw [State.reg_bump_one, hreg]
      · rw [State.reg_bump, if_neg fun ⟨hm, hi, hj⟩ => h ⟨hm.symm, hi.symm, hj.symm⟩, hreg]
  case release =>
    intro s u q k l w hheld henter
    exact ⟨congrArg Host.Outcome.next (State.injectionRelease_of_entered hheld henter w.toNat), State.cnetEnter_outcome henter⟩

end Sys2Proof.Machine
end

section
/-! SUPPORT. The acceptance of mailbox commands (chapter 9): the checks of R259 in their order, commands that are not taken, and the row that a
command's bytes spell. -/

namespace Sys2Proof.Machine

/-! The checks of R259 -/

/-- A path names a partition that it may: its own, or from level FLEET any that is formed. -/
abbrev State.mayName (s : State) (c : Cmd) : Prop :=
  cmdPart c = some c.target.toNat ∨ (s.pathLevel c = .fleet ∧ c.target.toNat < 8 ∧ s.formed c.target.toNat = true)

theorem State.refusal_of_level {s : State} {c : Cmd} {w : MailRow} {bad : Bool} (h : (s.pathLevel c).rank < w.level.rank) :
    s.refusal c w bad = some .notPermitted := by
  simp [State.refusal, h]

/-- A device-level command that its path may give: partition 0xFF, and then the arguments. -/
theorem State.refusal_of_device {s : State} {c : Cmd} {w : MailRow} {bad : Bool} (hlevel : ¬(s.pathLevel c).rank < w.level.rank)
    (hpath : c.path ≠ .bmc ∨ w.bmc = true) (hdevice : w.device = true) :
    s.refusal c w bad =
      if c.target ≠ 0xFF then some .notPermitted else if (c.reserved || bad) = true then some .badArgument else none := by
  have hbmc : ¬(c.path = .bmc ∧ w.bmc = false) := fun h => hpath.elim (fun k => k h.1) fun k => by simp [h.2] at k
  simp only [State.refusal, if_neg hlevel, if_neg hbmc, if_pos hdevice]

/-- A partition's command that its path may give: the partition that it names, the arguments, and the partition's fence or dissolution. -/
theorem State.refusal_of_partition {s : State} {c : Cmd} {w : MailRow} {bad : Bool} (hlevel : ¬(s.pathLevel c).rank < w.level.rank)
    (hpath : c.path ≠ .bmc ∨ w.bmc = true) (hdevice : w.device = false) :
    s.refusal c w bad =
      if ¬ s.mayName c then some .notPermitted else if (c.reserved || bad) = true then some .badArgument
      else if ((s.partFenced c.target.toNat || s.dissolving c.target.toNat) && !w.fencedToo) = true then some .partitionFenced else none := by
  have hbmc : ¬(c.path = .bmc ∧ w.bmc = false) := fun h => hpath.elim (fun k => k h.1) fun k => by simp [h.2] at k
  have hrow : ¬w.device = true := by simp [hdevice]
  simp only [State.refusal, if_neg hlevel, if_neg hbmc, if_neg hrow, decide_eq_true_eq]

/-! Commands as bytes (Tables 9.8 and 9.11) -/

/-- A command whose opcode Table 9.11 does not list. -/
theorem State.mailCommand_of_unlisted (s : State) (path : CmdPath) {b : List Byte} (f : TestFindings) (h : bytesAt b 0 2 ∉ opcodes) :
    s.mailCommand path b f = s.unknownCommand (cmdOf path b) (BitVec.ofNat 16 (bytesAt b 0 2)) := by
  unfold State.mailCommand
  dsimp only
  split
  case h_45 => rfl
  all_goals
    next e => exact absurd (by rw [e]; decide) h

theorem State.unknownCommand_of_accepted {s : State} {c : Cmd} (h : s.accepts c = true) (opcode : BitVec 16) :
    s.unknownCommand c opcode = (s.enterCommand c { opcode := opcode, level := .tenant }).complete c opcode .badArgument := by
  simp [State.unknownCommand, h]

/-- Settles O5: each check of the refusal where those before it pass. -/
theorem checksInOrder : Obligations.ChecksInOrder := by
  refine ⟨fun s path b f hop haccept => ?_, fun s c w bad => ?_⟩
  · rw [s.mailCommand_of_unlisted path f hop, State.unknownCommand_of_accepted haccept]
  intro t mayName
  refine ⟨State.refusal_of_level, fun hlevel hpath => ?_⟩
  have hdevice (h : w.device = true) := State.refusal_of_device (bad := bad) hlevel hpath h
  have hpart (h : w.device = false) := State.refusal_of_partition (bad := bad) hlevel hpath h
  refine ⟨fun h htarget => ?_, fun h htarget hbad => ?_, fun h htarget hres hbad => ?_, fun h hname => ?_, fun h hname hbad => ?_,
    fun h hname hres hbad hfence htoo => ?_, fun h hname hres hbad hfence => ?_⟩
  · rw [hdevice h, if_pos htarget]
  · rw [hdevice h, if_neg (not_not.2 htarget), if_pos (by simpa using hbad)]
  · rw [hdevice h, if_neg (not_not.2 htarget), if_neg (by simp [hres, hbad])]
  · rw [hpart h, if_pos hname]
  · rw [hpart h, if_neg (not_not.2 hname), if_pos (by simpa using hbad)]
  · rw [hpart h, if_neg (not_not.2 hname), if_neg (by simp [hres, hbad]), if_pos (by simpa [htoo] using hfence)]
  · rw [hpart h, if_neg (not_not.2 hname), if_neg (by simp [hres, hbad]), if_neg (by rcases hfence with ⟨hf, hd⟩ | htoo <;> simp [t, *] at *)]

/-! Commands that are not taken -/

/-- Settles O6: each row goes through the one acceptance. -/
theorem commandsNotTaken : Obligations.CommandsNotTaken := by
  refine ⟨fun s c h => ?_, fun s c st h => ?_⟩
  · have hskip (w : MailRow) (bad : Bool) (go : Nat → State → State) : Host.Outcome.next (s.take c w bad go) = (.next s : Answered) :=
      congrArg Host.Outcome.next (State.take_of_not_accepted h go)
    exact ⟨hskip .., hskip .., fun _ _ => hskip .., fun _ => hskip .., fun _ _ _ => hskip .., fun _ => hskip .., hskip .., hskip .., hskip ..⟩
  · have hrefuse {w : MailRow} {bad : Bool} (hst : s.refusal c w bad = some st) (go : Nat → State → State) :
        Host.Outcome.next (s.take c w bad go) = (.next ((s.enterCommand c w).complete c w.opcode st) : Answered) :=
      congrArg Host.Outcome.next (State.take_of_refused h hst go)
    exact ⟨fun k => hrefuse k _, fun k => hrefuse k _, fun _ _ k => hrefuse k _, fun _ k => hrefuse k _, fun _ _ _ k => hrefuse k _,
      fun k => hrefuse k _, fun k => hrefuse k _⟩

/-! Rows as bytes -/

/-- While the device is not Ready the board controller's path answers REF_BOOT, and nothing else moves (R431). -/
theorem execBmcCommand_of_not_ready {s : State} (h : s.flag .refBoot 0 0 18 = false) (bytes : List Byte) (f : TestFindings) :
    execBmcCommand bytes f s =
      .next { s with referee := { s.referee with bmcOut := s.referee.bmcOut ++ [leBytes 8 (s.reg .refBoot).toNat] } } := by
  simp [execBmcCommand, h]

/-- Settles O29: the opcode picks the row, whose arguments are the bytes that Table 9.8 gives it. -/
theorem commandBytes : Obligations.CommandBytes := by
  refine ⟨fun s path b f => ?_, fun s bytes f => ⟨fun h => ?_, fun h => ⟨_, execBmcCommand_of_not_ready h bytes f, rfl, rfl, rfl⟩⟩⟩
  · have hrow {t : State} (h : s.mailCommand path b f = t) : Host.Outcome.next t = (.next (s.mailCommand path b f) : Answered) := by rw [h]
    refine ⟨fun h => hrow ?_, fun h => hrow ?_, fun h hkind => hrow ?_, fun h => hrow ?_, fun h => hrow ?_, fun h => hrow ?_,
      fun h hquad => hrow ?_, fun h => hrow ?_, fun h haccept => ?unlisted⟩
    case unlisted =>
      have hop : bytesAt b 0 2 ∉ opcodes := by rw [h]; decide
      rw [s.mailCommand_of_unlisted path f hop, h, State.unknownCommand_of_accepted haccept]
      rfl
    all_goals simp only [State.mailCommand, *] <;> rfl
  · simp [exec, execBmcCommand, h]

end Sys2Proof.Machine
end

section
/-! SUPPORT. Completions (chapter 9): what a host-side write and an MSI leave alone, and what the completion of a command does on each path. -/

namespace Sys2Proof.Machine

/-! What a host-side write leaves (chapter 2) -/

/-- The state apart from its memories: without the bytes, the caches, the poison, the fills, the squares' seals and the reservations of harts. -/
def State.apart (s : State) : State :=
  { s with mem := [], general := [], hsc := [], hartBlocks := [], poison := [], tailMem := [], fills := [], squares := [], hosts := [] }

theorem State.apart_foldl {α : Type} {f : State → α → State} (h : ∀ s a, (f s a).apart = s.apart) (l : List α) (s : State) :
    (l.foldl f s).apart = s.apart := by
  induction l generalizing s with
  | nil => rfl
  | cons a l ih => exact (ih _).trans (h s a)

@[simp] theorem State.apart_breakReservations (s : State) (ok : Nat → Bool) : (s.breakReservations ok).apart = s.apart :=
  State.apart_foldl (fun s h => by split <;> rfl) _ s

@[simp] theorem State.apart_fillLines (s : State) (first count : Nat) : (s.fillLines first count).apart = s.apart := by
  unfold State.fillLines
  extract_lets inside s1 s2
  have h1 : s1.apart = s.apart := State.apart_breakReservations ..
  clear_value s1
  exact h1

@[simp] theorem State.apart_applyFill (s : State) (line : Nat) : (s.applyFill line).apart = s.apart := by
  unfold State.applyFill
  extract_lets s1
  have h1 : s1.apart = s.apart := s.apart_fillLines line 1
  clear_value s1
  split
  · exact h1
  · rfl

@[simp] theorem State.apart_cleanHart (s : State) (h b : Nat) : (s.cleanHart h b).apart = s.apart := by
  unfold State.cleanHart
  split
  · split <;> rfl
  · rfl

@[simp] theorem State.apart_gather (s : State) (b : Nat) : (s.gather b).apart = s.apart := State.apart_foldl (fun s h => s.apart_cleanHart h b) _ s

@[simp] theorem State.apart_evictDirectory (s : State) (b : Nat) : (s.evictDirectory b).apart = s.apart :=
  (State.apart_foldl (f := fun s h => s.dropHart h b) (fun _ _ => rfl) _ _).trans (s.apart_gather b)

@[simp] theorem State.apart_putHsc (s : State) (b : Nat) (c : CacheCopy) : (s.putHsc b c).apart = s.apart := rfl

@[simp] theorem State.apart_hostWriteBlock (s : State) (b off : Nat) (d : List Byte) : (s.hostWriteBlock b off d).apart = s.apart := by
  unfold State.hostWriteBlock
  dsimp only
  split <;> simp

/-- A write of DRAM by a host-side requester moves nothing but memory. -/
@[simp] theorem State.apart_hostWrite (s : State) (a : Nat) (d : List Byte) : (s.hostWrite a d).apart = s.apart :=
  State.apart_foldl (fun _ _ => State.apart_hostWriteBlock ..) _ s

/-! MSIs (R256, R338) -/

/-- A register that an MSI leaves: none of the event recorder's, and not the count of dropped MSIs. -/
def quietForMsi (n : RegName) : Prop := n.ofRecorder = false ∧ n ≠ .hdMsiDrop

/-- From s to t an MSI may have gone out, or been dropped or refused: an interrupt file, the count of dropped MSIs and the event recorder may have
moved. -/
structure MsiSent (s t : State) : Prop where
  rows : t.rows = s.rows
  dies : t.dies = s.dies
  views : ∀ p, (t.part p).noView = (s.part p).noView
  flash : t.flash = s.flash
  referee : t.referee = s.referee
  rings : t.rings = s.rings
  reg : ∀ n i j, quietForMsi n → t.reg n i j = s.reg n i j

theorem MsiSent.refl (s : State) : MsiSent s s := ⟨rfl, rfl, fun _ => rfl, rfl, rfl, rfl, fun _ _ _ _ => rfl⟩

theorem MsiSent.recorded {s t : State} (h : Recorded s t) : MsiSent s t :=
  ⟨h.rows, h.dies, h.parts, h.flash, h.referee, h.rings, fun n i j hn => h.reg n i j hn.1⟩

theorem MsiSent.setPending (s : State) (h file id : Nat) : MsiSent s (s.setPending h file id) := by
  unfold State.setPending
  split
  · exact MsiSent.refl s
  · exact ⟨rfl, rfl, fun _ => rfl, rfl, rfl, rfl, fun _ _ _ _ => rfl⟩

theorem MsiSent.dropped (s : State) (h : Nat) : MsiSent s (s.bump .hdMsiDrop h) :=
  ⟨rfl, rfl, fun _ => rfl, rfl, rfl, rfl, fun n i j hn => by rw [State.reg_bump, if_neg fun e => hn.2 e.1.symm]⟩

theorem MsiSent.sendMsi (s : State) (part : Option Nat) (block source addr : Nat) (data : BitVec 32) :
    MsiSent s (s.sendMsi part block source addr data) := by
  unfold State.sendMsi
  split
  · split
    · split
      · exact MsiSent.setPending ..
      · exact MsiSent.dropped ..
    · exact MsiSent.recorded (Recorded.event ..)
  · exact MsiSent.recorded (Recorded.event ..)

@[simp] theorem State.ring_modRing (s : State) (p n q m : Nat) (f : Ring → Ring) :
    (s.modRing p n f).ring q m = if p = q ∧ n = m then f (s.ring p n) else s.ring q m := by
  simp only [State.modRing, State.setRing, State.ring, Sparse.nget_nset, Nat.pair_eq_pair]

theorem State.ringMsi_sent (s : State) (p n : Nat) :
    MsiSent (s.modRing p n (fun r => { r with lastMsi := some s.now, msiOwed := false })) (s.ringMsi p n) := MsiSent.sendMsi ..

/-- NOTIFY moves the ring's own record of MSIs, and sends at most one. -/
theorem State.notifyRing_sent (s : State) (p n : Nat) :
    ∃ f : Ring → Ring, (∀ r, (f r).outstanding = r.outstanding) ∧ MsiSent (s.modRing p n f) (s.notifyRing p n) := by
  have hsend : ∃ f : Ring → Ring, (∀ r, (f r).outstanding = r.outstanding) ∧ MsiSent (s.modRing p n f) (s.ringMsi p n) :=
    ⟨_, fun _ => by rfl, s.ringMsi_sent p n⟩
  unfold State.notifyRing
  dsimp only
  split
  · split
    · exact hsend
    · exact ⟨_, fun _ => by rfl, MsiSent.refl _⟩
  · exact hsend

/-! A completion entry on a ring (R253, R256) -/

/-- A completion written to a ring: memory has moved, CQ_PROD has advanced, and a ring has one command fewer outstanding. -/
structure EntryWritten (p n : Nat) (s t : State) : Prop where
  rows : t.rows = s.rows
  dies : t.dies = s.dies
  views : ∀ q, (t.part q).noView = (s.part q).noView
  flash : t.flash = s.flash
  referee : t.referee = s.referee
  prod : t.reg .mbRingCqProd p n = BitVec.ofNat 64 ((s.field .mbRingCqProd p n 0 32 + 1) % 2 ^ 32)
  outstanding : (t.ring p n).outstanding = (s.ring p n).outstanding - 1

theorem EntryWritten.sent {p n : Nat} {s t u : State} (h : EntryWritten p n s t) {f : Ring → Ring} (hf : ∀ r, (f r).outstanding = r.outstanding)
    (hu : MsiSent (t.modRing p n f) u) : EntryWritten p n s u := by
  refine ⟨hu.rows.trans h.rows, hu.dies.trans h.dies, fun q => (hu.views q).trans (h.views q), hu.flash.trans h.flash,
    hu.referee.trans h.referee, ?_, ?_⟩
  · rw [hu.reg _ _ _ ⟨rfl, by decide⟩]
    exact h.prod
  · have hring : u.ring p n = (t.modRing p n f).ring p n := by rw [State.ring, State.ring, hu.rings]
    rw [hring, State.ring_modRing, if_pos ⟨rfl, rfl⟩, hf, h.outstanding]

theorem State.writeCompletion_written (s : State) (p n : Nat) (opcode : BitVec 16) (st : Status) (replay : Bool) (c : Cmd) (turn : Option Word)
    (result : List Byte) : EntryWritten p n s (s.writeCompletion p n opcode st replay c turn result) := by
  unfold State.writeCompletion
  extract_lets cq i size phase s1 s2 s3
  have hmem : s1.apart = s.apart := State.apart_hostWrite ..
  have hrings : s1.rings = s.rings := (congrArg State.rings hmem :)
  have h3 : EntryWritten p n s s3 := by
    refine ⟨(congrArg State.rows hmem :), (congrArg State.dies hmem :), fun q => (congrArg (fun u => (u.part q).noView) hmem :),
      (congrArg State.flash hmem :), (congrArg State.referee hmem :), ?_, ?_⟩
    · simp [s3, s2, i]
    · simp only [s3, State.ring_modRing, and_self, if_true]
      rw [State.ring, State.ring, show s2.rings = s.rings from hrings]
  clear_value s3
  split
  · obtain ⟨f, hf, hsent⟩ := s3.notifyRing_sent p n
    exact EntryWritten.sent h3 hf hsent
  · exact h3

/-! A command's completion by its path (R246, R266) -/

/-- The journal entry of a command goes, and a partition counts an open that its full stream table refuses (R246). -/
def State.settleEntry (s : State) (c : Cmd) (opcode : BitVec 16) (st : Status) : State :=
  let t : State := { s with referee := { s.referee with journal := s.referee.journal.eraseP (fun e => e.isOf c opcode) } }
  match cmdPart c with
  | some p => if st = Status.streamTableFull then t.bump .stFullRefused p else t
  | none => t

/-- The journal holds a command that is owed a completion. -/
abbrev State.owes (s : State) (c : Cmd) (opcode : BitVec 16) : Prop := s.referee.journal.any (fun e => e.isOf c opcode) = true

/-- What a settled entry leaves: everything but the journal and the count of refused opens. -/
structure EntrySettled (c : Cmd) (opcode : BitVec 16) (s t : State) : Prop where
  rows : t.rows = s.rows
  dies : t.dies = s.dies
  parts : t.parts = s.parts
  flash : t.flash = s.flash
  rings : t.rings = s.rings
  quads : t.quads = s.quads
  clock : t.clock = s.clock
  referee : t.referee = { s.referee with journal := s.referee.journal.eraseP (fun e => e.isOf c opcode) }
  reg : ∀ n i j, n ≠ .stFullRefused → t.reg n i j = s.reg n i j

theorem State.settleEntry_settled (s : State) (c : Cmd) (opcode : BitVec 16) (st : Status) : EntrySettled c opcode s (s.settleEntry c opcode st) := by
  have hplain : EntrySettled c opcode s { s with referee := { s.referee with journal := s.referee.journal.eraseP (fun e => e.isOf c opcode) } } :=
    ⟨rfl, rfl, rfl, rfl, rfl, rfl, rfl, rfl, fun _ _ _ _ => rfl⟩
  unfold State.settleEntry
  dsimp only
  split
  · split
    · exact ⟨rfl, rfl, rfl, rfl, rfl, rfl, rfl, rfl, fun n i j hn => by rw [State.reg_bump, if_neg fun e => hn e.1.symm]; rfl⟩
    · exact hplain
  · exact hplain

theorem State.completeNow_of_not_owed {s : State} {c : Cmd} {opcode : BitVec 16} (h : ¬ s.owes c opcode) (st : Status) (replay : Bool)
    (turn : Option Word) (result : List Byte) : s.completeNow c opcode st replay turn result = s := by
  rw [State.completeNow, if_pos]
  rw [Bool.eq_false_iff.2 h, Bool.not_false]

section
variable {s : State} {c : Cmd} {opcode : BitVec 16} (howed : s.owes c opcode) (st : Status) (replay : Bool) (turn : Option Word) (result : List Byte)
include howed

theorem State.completeNow_of_ring {p n : Nat} (hpath : c.path = .ring p n) :
    s.completeNow c opcode st replay turn result = (s.settleEntry c opcode st).writeCompletion p n opcode st replay c turn result := by
  simp only [State.completeNow, howed, hpath]
  rfl

theorem State.completeNow_of_bmc (hpath : c.path = .bmc) :
    s.completeNow c opcode st replay turn result =
      { s.settleEntry c opcode st with referee := { (s.settleEntry c opcode st).referee with
          bmcOut := (s.settleEntry c opcode st).referee.bmcOut ++ [completionBytes opcode st true replay c.tag turn result] } } := by
  simp only [State.completeNow, howed, hpath]
  rfl

theorem State.completeNow_of_mgmt {p q : Nat} {m : BitVec 13} {x : BitVec 16} (hpath : c.path = .mgmt p q m x) :
    s.completeNow c opcode st replay turn result =
      (s.settleEntry c opcode st).sendMgmt q m 0x02 p 0 x (completionBytes opcode st true replay c.tag turn result) := by
  simp only [State.completeNow, howed, hpath]
  rfl

end

theorem State.complete_of_up {s : State} (h : s.up = true) (c : Cmd) (opcode : BitVec 16) (st : Status) (turn : Option Word) (result : List Byte) :
    s.complete c opcode st turn result = s.completeNow c opcode st false turn result := by
  simp [State.complete, State.completeWith, h]

theorem State.complete_of_down {s : State} (h : s.up = false) (c : Cmd) (opcode : BitVec 16) (st : Status) (turn : Option Word) (result : List Byte) :
    s.complete c opcode st turn result =
      { s with referee := { s.referee with held := s.referee.held ++ [(c, opcode, BitVec.ofNat 8 st.code, turn, result)] } } := by
  simp [State.complete, State.completeWith, h]

/-- What every completion leaves: the stream table, the dies, what the partitions hold and the flash. While the Referee is up the command's
journal entry goes. -/
structure Completed (c : Cmd) (opcode : BitVec 16) (s t : State) : Prop where
  rows : t.rows = s.rows
  dies : t.dies = s.dies
  views : ∀ p, (t.part p).noView = (s.part p).noView
  flash : t.flash = s.flash
  journal : s.up = true → t.referee.journal = s.referee.journal.eraseP (fun e => e.isOf c opcode)

theorem EntrySettled.completed {c : Cmd} {opcode : BitVec 16} {s t : State} (h : EntrySettled c opcode s t) : Completed c opcode s t :=
  ⟨h.rows, h.dies, fun p => by rw [State.part, State.part, h.parts], h.flash, fun _ => by rw [h.referee]⟩

theorem State.complete_completed (s : State) (c : Cmd) (opcode : BitVec 16) (st : Status) (turn : Option Word) (result : List Byte) :
    Completed c opcode s (s.complete c opcode st turn result) := by
  have hsettled := (s.settleEntry_settled c opcode st).completed
  by_cases hup : s.up = true
  case neg =>
    have hdown : s.up = false := by simpa using hup
    rw [State.complete_of_down hdown]
    exact ⟨rfl, rfl, fun _ => rfl, rfl, fun h => absurd h hup⟩
  rw [State.complete_of_up hup]
  by_cases howed : s.owes c opcode
  case neg =>
    rw [State.completeNow_of_not_owed howed]
    refine ⟨rfl, rfl, fun _ => rfl, rfl, fun _ => (List.eraseP_of_forall_not fun e he hof => howed ?_).symm⟩
    exact List.any_eq_true.2 ⟨e, he, hof⟩
  cases hpath : c.path with
  | ring p n =>
    rw [State.completeNow_of_ring howed _ _ _ _ hpath]
    have hw := (s.settleEntry c opcode st).writeCompletion_written p n opcode st false c turn result
    exact ⟨hw.rows.trans hsettled.rows, hw.dies.trans hsettled.dies, fun q => (hw.views q).trans (hsettled.views q),
      hw.flash.trans hsettled.flash, fun h => by rw [hw.referee, hsettled.journal h]⟩
  | bmc =>
    rw [State.completeNow_of_bmc howed _ _ _ _ hpath]
    exact ⟨hsettled.rows, hsettled.dies, hsettled.views, hsettled.flash, hsettled.journal⟩
  | mgmt p q m x =>
    rw [State.completeNow_of_mgmt howed _ _ _ _ hpath]
    exact ⟨hsettled.rows, hsettled.dies, hsettled.views, hsettled.flash, hsettled.journal⟩

/-- Settles O7: a completion by the path of its command, and what every completion leaves. -/
theorem completionByPath : Obligations.CompletionByPath := by
  intro s c op st turn r owed
  have hsettled := s.settleEntry_settled c op st
  have hdone := s.complete_completed c op st turn r
  refine ⟨fun hup howed hpath => ?_, fun hup howed p n hpath => ?_, fun hup howed p q m x hpath => ?_, hdone.journal, fun hup howed => ?_,
    fun hup => State.complete_of_down hup .., hdone.rows, hdone.dies, hdone.views, hdone.flash⟩
  · rw [State.complete_of_up hup, State.completeNow_of_bmc howed _ _ _ _ hpath, hsettled.referee]
  · have hw := (s.settleEntry c op st).writeCompletion_written p n op st false c turn r
    rw [State.complete_of_up hup, State.completeNow_of_ring howed _ _ _ _ hpath, hw.prod, hw.outstanding, State.field, State.field,
      hsettled.reg _ _ _ (by decide), State.ring, State.ring, hsettled.rings]
    exact ⟨rfl, rfl⟩
  · rw [State.complete_of_up hup, State.completeNow_of_mgmt howed _ _ _ _ hpath]
    have hmsg : ((s.settleEntry c op st).mgmtMsg m 0x02 p 0 x) = s.mgmtMsg m 0x02 p 0 x := by
      funext units
      simp only [State.mgmtMsg, State.moduleId, State.field, State.now, hsettled.clock, hsettled.reg .olModuleId 0 0 (by decide)]
    simp only [State.sendMgmt, State.pushMsg, State.quad_modQuad, if_true, hmsg]
    rw [State.quad, State.quad, hsettled.quads]
  · rw [State.complete_of_up hup, State.completeNow_of_not_owed (by simpa [State.owes, owed] using howed)]

end Sys2Proof.Machine
end

section
/-! SUPPORT. Rings (chapter 9): the doorbell and the completion index as writes of four bytes, ENABLE among the locked fields of a ring's control
register, and the end of a ring. -/

namespace Sys2Proof.Machine

/-! A register written by the Referee -/

/-- A write by the Referee's own rows reaches the register: nothing lies between the Referee square and a privileged window. -/
theorem State.writeKey_referee {s : State} {k : RegKey} (hrun : s.coresRun = true) (hk : spotAt k.addr = .reg k 0) (size : Nat) (v : Word) :
    s.writeKey .referee k size v =
      ((s.writeReg .referee k 0 size (BitVec.ofNat 64 (v.toNat % 256 ^ size))).countRegister .referee k.addr).answered (.ok []) := by
  have hw := registerWindow_of_spotAt hk
  have hblocked : s.blocked .referee = false := by simp [State.blocked, hrun]
  have haccess : s.privAccess .referee k.addr size (some (leBytes size v.toNat)) =
      (s.writeReg .referee k 0 size (BitVec.ofNat 64 (v.toNat % 256 ^ size)), .ok []) := by
    simp [State.privAccess, State.reach, State.crossing_referee, State.spotWrite, hk, leNat_leBytes]
  simp [State.writeKey, hblocked, State.access, State.accessAt_of_registerWindow _ _ _ hw, haccess, hw]

/-- The registers of a ring lie where the Referee window's table has them. -/
theorem spotAt_ring :
    ∀ p < 8, ∀ n < 16, ∀ r ∈ [RegName.mbRingProd, .mbRingCqCons, .mbRingCtl], spotAt (rk r p n).addr = .reg (rk r p n) 0 := by
  decide +kernel

theorem State.ring_countRegister_answered (s : State) (r : Requester) (a p n : Nat) (x : Except Status (List Byte)) :
    ((s.countRegister r a).answered x).ring p n = s.ring p n := by
  have hanswer (t : State) : (t.answered x).ring p n = t.ring p n := by cases x <;> rfl
  rw [hanswer]
  unfold State.countRegister
  extract_lets q
  split <;> rfl

/-! Writes of four bytes -/

theorem laneMask_low : laneMask 0 4 = 0xFFFFFFFF := by decide

@[simp] theorem setWidth_and_low (v : BitVec 32) : v.setWidth 64 &&& 4294967295#64 = v.setWidth 64 := by
  apply BitVec.eq_of_toNat_eq
  have hv : v.toNat % 2 ^ 64 = v.toNat := Nat.mod_eq_of_lt (by omega)
  have h : v.toNat &&& 2 ^ 32 - 1 = v.toNat := by rw [Nat.and_two_pow_sub_one_eq_mod, Nat.mod_eq_of_lt v.isLt]
  rw [BitVec.toNat_and, BitVec.toNat_setWidth, hv]
  exact h

/-- A write of the low half of a class L register, whose fields all lie there, puts the written half into effect beside the old high half. -/
theorem State.writeReg_of_low {s : State} {r : Requester} {k : RegKey} (v : BitVec 32) (hdefined : k.name.info.defined = 0xFFFFFFFF)
    (hreferee : k.name.info.refereeOnly = false) (hreadOnly : k.name.info.readOnly = 0) (hw1c : k.name.info.writeOneClear = 0)
    (hclear : k.name.info.clearOnZero = false) (hlive : k.name.info.cls = .live) (hvalue : fieldChecks k = []) :
    s.writeReg r k 0 4 (v.setWidth 64) = s.applyWrite r k (laneMask 0 4) (s.readReg k &&& ~~~(0xFFFFFFFF : Word) ||| v.setWidth 64) := by
  have hreserved : v.setWidth 64 &&& 18446744069414584320#64 = 0#64 := by
    rw [← setWidth_and_low, BitVec.and_assoc, show 4294967295#64 &&& 18446744069414584320#64 = 0#64 by decide, BitVec.and_zero]
  unfold State.writeReg
  simp [laneMask_low, hreserved, hdefined, hreferee, hreadOnly, hw1c, hclear, hlive, valueAllowed, hvalue]

/-! The doorbell and the completion index (R252, R254) -/

/-- A doorbell within the ring moves PROD. -/
theorem State.doorbell_of_room {s : State} {p n : Nat} {v : BitVec 32}
    (h : (v.toNat + 2 ^ 32 - s.field .mbRingCons p n 0 32) % 2 ^ 32 ≤ ringEntries (s.reg .mbRingSq p n)) :
    s.doorbell p n v = s.setReg .mbRingProd p n (v.setWidth 64) := if_pos h

/-- Any other doorbell stops the ring. -/
theorem State.doorbell_of_beyond {s : State} {p n : Nat} {v : BitVec 32}
    (h : ringEntries (s.reg .mbRingSq p n) < (v.toNat + 2 ^ 32 - s.field .mbRingCons p n 0 32) % 2 ^ 32) :
    (s.doorbell p n v).reg .mbRingProd p n = s.reg .mbRingProd p n ∧ (s.doorbell p n v).flag .mbRingStatus p n 1 = true ∧
      (s.doorbell p n v).flag .mbRingStatus p n 2 = true := by
  obtain ⟨t, ht⟩ : ∃ t, t = (s.setFlag .mbRingStatus p n 1 true).setFlag .mbRingStatus p n 2 true := ⟨_, rfl⟩
  have hdoor : s.doorbell p n v = t.event7F .warning (some p) 0 .mbRingStatus p n := by
    rw [ht]
    exact if_neg (Nat.not_le.2 h)
  have hreg {m : RegName} (hm : m.ofRecorder = false) : (s.doorbell p n v).reg m p n = t.reg m p n := by
    rw [hdoor]
    exact (Recorded.event7F ..).reg _ _ _ hm
  rw [State.flag, State.flag, hreg rfl, hreg rfl, ht]
  simp

/-- The low half of a word put together from an old high half and a new low half. -/
theorem bitsAt_low (old : Word) (v : BitVec 32) : bitsAt (old &&& ~~~(0xFFFFFFFF : Word) ||| v.setWidth 64) 0 32 = v.toNat := by
  have hput : old &&& ~~~(0xFFFFFFFF : Word) ||| v.setWidth 64 = putBits old 0 32 v.toNat := by
    rw [putBits, Nat.mod_eq_of_lt v.isLt]
    simp
  rw [hput, bitsAt_putBits_same _ _ _ _ (by decide), Nat.mod_eq_of_lt v.isLt]

theorem setWidth_low (old : Word) (v : BitVec 32) : (old &&& ~~~(0xFFFFFFFF : Word) ||| v.setWidth 64).setWidth 32 = v := by
  apply BitVec.eq_of_toNat_eq
  have h := bitsAt_low old v
  rwa [bitsAt, Nat.pow_zero, Nat.div_one, ← BitVec.toNat_setWidth] at h

/-- The completion index takes the written half; a move of it takes the ring's pause away. -/
theorem State.cqCons_outcome (s : State) (r : Requester) (p n : Nat) (mask v : Word) :
    (s.applyWrite r (rk .mbRingCqCons p n) mask v).reg .mbRingCqCons p n = v ∧
      (s.reg .mbRingCqCons p n ≠ v → (s.applyWrite r (rk .mbRingCqCons p n) mask v).flag .mbRingStatus p n 3 = false) := by
  by_cases hmoved : s.reg .mbRingCqCons p n = v
  · simp [State.applyWrite, rk, hmoved]
  · simp [State.applyWrite, rk, hmoved, State.flag]

/-! The end of a ring (R257) -/

/-- The registers that the end of a ring zeroes. -/
def ringCounters : List RegName := [.mbRingProd, .mbRingCons, .mbRingCqProd, .mbRingCqCons, .mbRingStatus]

theorem State.closeRing_flag (s : State) (p n : Nat) : (s.closeRing p n).flag .mbRingCtl p n 0 = false := by
  unfold State.closeRing
  extract_lets s1 s2 s3
  have h : s3.flag .mbRingCtl p n 0 = false := by simp [s3, s2, s1, State.flag]
  clear_value s3
  split
  · simpa [State.endSession, State.flag] using h
  · exact h

theorem State.closeRing_counters (s : State) (p n : Nat) : ∀ r ∈ ringCounters, (s.closeRing p n).reg r p n = 0 := by
  unfold State.closeRing
  extract_lets s1 s2 s3
  have h : ∀ r ∈ ringCounters, s3.reg r p n = 0 := by simp [s3, s2, ringCounters]
  clear_value s3
  split
  · simpa [State.endSession, ringCounters] using h
  · exact h

theorem State.closeRing_ring (s : State) (p n : Nat) : (s.closeRing p n).ring p n = { s.ring p n with outstanding := 0, closing := false } := by
  unfold State.closeRing
  extract_lets s1 s2 s3
  have h : s3.ring p n = { s.ring p n with outstanding := 0, closing := false } := by
    simp only [s3, State.ring_modRing, and_self, if_true]
    rfl
  clear_value s3
  split
  · exact h
  · exact h

/-- A ring with no command outstanding ends as it is closed. -/
theorem State.closeRing_ring_of_drained {s : State} {p n : Nat} (h : (s.ring p n).outstanding = 0) :
    (s.closeRing p n).ring p n = { s.ring p n with closing := false } := by
  rw [s.closeRing_ring p n, ← h]

/-! ENABLE (R251, R257) -/

theorem valueAllowed_mbRingCtl {p n : Nat} {v : Word} (h : bitsAt v 1 2 ≠ 3) : valueAllowed (rk .mbRingCtl p n) (laneMask 0 8) v = true := by
  simp [valueAllowed, fieldChecks, rk, h]

/-- A whole write of a locked register that changes none of its locked fields, or whose block is at rest, takes effect. -/
theorem State.writeReg_of_unlocked {s : State} {r : Requester} {k : RegKey} {v : Word} (hreserved : v &&& ~~~k.name.info.defined = 0)
    (hreferee : k.name.info.refereeOnly = false ∨ r = .referee) (hreadOnly : k.name.info.readOnly = 0) (hw1c : k.name.info.writeOneClear = 0)
    (hclear : k.name.info.clearOnZero = false) (hlocked : k.name.info.cls = .locked)
    (hfree : s.blockRunning k = true → (v ^^^ s.readReg k) &&& (k.name.info.defined &&& ~~~k.name.info.liveMask) = 0)
    (hvalue : valueAllowed k (laneMask 0 8) v = true) (hdefined : k.name.info.defined ≠ 0#64) :
    s.writeReg r k 0 8 v = s.applyWrite r k (laneMask 0 8) v := by
  have hforeign := referee_permits hreferee
  unfold State.writeReg
  by_cases hrun : s.blockRunning k = true
  · simp [hreserved, hforeign, hreadOnly, hw1c, hclear, hlocked, hvalue, hdefined, Ne.symm hdefined, hrun, hfree hrun]
  · simp [hreserved, hforeign, hreadOnly, hw1c, hclear, hlocked, hvalue, hdefined, Ne.symm hdefined, hrun]

/-- A whole write of a locked register with a live field, whose block runs and whose locked fields it would change: it is refused but for the live
field (R14). -/
theorem State.writeReg_of_half_refused {s : State} {r : Requester} {k : RegKey} {v : Word} (hreserved : v &&& ~~~k.name.info.defined = 0)
    (hreferee : k.name.info.refereeOnly = false ∨ r = .referee) (hreadOnly : k.name.info.readOnly = 0) (hw1c : k.name.info.writeOneClear = 0)
    (hclear : k.name.info.clearOnZero = false) (hlocked : k.name.info.cls = .locked) (hlive : k.name.info.liveMask ≠ 0#64)
    (hrun : s.blockRunning k = true)
    (hchange : (v ^^^ s.readReg k) &&& (k.name.info.defined &&& ~~~k.name.info.liveMask) ≠ 0#64) {new : Word}
    (hnew : new = v &&& ~~~(k.name.info.defined &&& ~~~k.name.info.liveMask) ||| s.readReg k &&& (k.name.info.defined &&& ~~~k.name.info.liveMask))
    (hvalue : valueAllowed k (laneMask 0 8) new = true) (hdefined : k.name.info.defined ≠ 0#64) :
    s.writeReg r k 0 8 v = ((s.markBusy k).dropWrite k 0x01).applyWrite r k (laneMask 0 8) new := by
  have hforeign := referee_permits hreferee
  subst hnew
  unfold State.writeReg State.markBusy
  cases busyRegister k.name <;>
    simp [hreserved, hforeign, hreadOnly, hw1c, hclear, hlocked, hlive, hrun, hchange, hvalue, hdefined, Ne.symm hdefined]

/-- Fields agree where their bits do. -/
theorem bitsAt_congr {w : Nat} {a b : BitVec w} {lo n : Nat} (h : ∀ k, lo ≤ k → k < lo + n → a.getLsbD k = b.getLsbD k) :
    bitsAt a lo n = bitsAt b lo n := by
  apply Nat.eq_of_testBit_eq
  intro k
  simp only [bitsAt, Nat.testBit_mod_two_pow, Nat.testBit_div_two_pow]
  by_cases hk : k < n
  · rw [show a.toNat.testBit (k + lo) = b.toNat.testBit (k + lo) from h (k + lo) (by omega) (by omega)]
  · simp [hk]

/-- A bit of a field may be set without touching a reserved bit. -/
theorem putBit_and_reserved {v d : Word} (h : v &&& ~~~d = 0) {n : Nat} (hn : d.getLsbD n = true) (b : Bool) : putBit v n b &&& ~~~d = 0 := by
  apply BitVec.eq_of_getLsbD_eq
  intro k hk
  have hbit := congrArg (BitVec.getLsbD · k) h
  have hput := bitAt_putBit v n k b hk
  unfold bitAt at hput
  rw [BitVec.getLsbD_and, hput]
  split
  next e => simp [e, hn]
  · simpa using hbit

/-- The locked fields of a ring's control register: all but ENABLE. -/
theorem ringCtl_locked : RegName.mbRingCtl.info.defined &&& ~~~RegName.mbRingCtl.info.liveMask = 0xFFFFFFFF0006#64 := by decide

theorem ringCtl_live : RegName.mbRingCtl.info.liveMask ≠ 0#64 := by decide

theorem ringCtl_defined : RegName.mbRingCtl.info.defined ≠ 0#64 := by decide

/-- Writing ENABLE = 0 to a ring in service: the control register keeps ENABLE, and the ring is disabled in a state with the same rings. -/
theorem State.writeReg_ringCtl_disable {s : State} {p n : Nat} {v : Word} (hreserved : v &&& ~~~RegName.mbRingCtl.info.defined = 0)
    (hold : bitsAt (s.reg .mbRingCtl p n) 1 2 ≠ 3) (hlevel : bitsAt v 1 2 ≠ 3) (hon : s.flag .mbRingCtl p n 0 = true) :
    ∃ u : State, u.flag .mbRingCtl p n 0 = true ∧ u.rings = s.rings ∧
      s.writeReg .referee (rk .mbRingCtl p n) 0 8 (putBit v 0 false) = u.disableRing p n := by
  obtain ⟨w, hw⟩ : ∃ w, w = putBit v 0 false := ⟨_, rfl⟩
  have hw0 : bitAt w 0 = false := by simp [hw]
  have hwlevel : bitsAt w 1 2 ≠ 3 := by rwa [hw, putBit, bitsAt_putBits_ne _ _ _ _ _ _ (by decide) (.inr (by decide))]
  have hwres : w &&& ~~~RegName.mbRingCtl.info.defined = 0 := hw ▸ putBit_and_reserved hreserved (by decide) false
  have happly {t : State} {x : Word} (ht : t.flag .mbRingCtl p n 0 = true) (hrings : t.rings = s.rings) (hx : bitAt x 0 = false) :
      ∃ u : State, u.flag .mbRingCtl p n 0 = true ∧ u.rings = s.rings ∧
        t.applyWrite .referee (rk .mbRingCtl p n) (laneMask 0 8) x = u.disableRing p n := by
    refine ⟨t.setReg .mbRingCtl p n (putBit x 0 (bitAt (t.reg .mbRingCtl p n) 0)), ?_, hrings, ?_⟩
    · simpa [State.flag] using ht
    · have hmask : bitAt (laneMask 0 8) 0 = true := by decide
      simp [State.applyWrite, State.writeRingCtl, rk, hmask, hx]
  rw [← hw]
  by_cases hchange : (w ^^^ s.readReg (rk .mbRingCtl p n)) &&& (RegName.mbRingCtl.info.defined &&& ~~~RegName.mbRingCtl.info.liveMask) = 0#64
  · rw [State.writeReg_of_unlocked (k := rk .mbRingCtl p n) hwres (.inl rfl) rfl rfl rfl rfl (fun _ => hchange)
      (valueAllowed_mbRingCtl hwlevel) ringCtl_defined]
    exact happly hon rfl hw0
  · obtain ⟨x, hx⟩ : ∃ x, x = w &&& ~~~(RegName.mbRingCtl.info.defined &&& ~~~RegName.mbRingCtl.info.liveMask) |||
        s.readReg (rk .mbRingCtl p n) &&& (RegName.mbRingCtl.info.defined &&& ~~~RegName.mbRingCtl.info.liveMask) := ⟨_, rfl⟩
    have hx0 : bitAt x 0 = false := by
      rw [ringCtl_locked] at hx
      simpa [hx, bitAt] using hw0
    have hxlevel : bitsAt x 1 2 ≠ 3 := by
      rw [ringCtl_locked] at hx
      rw [bitsAt_congr (b := s.reg .mbRingCtl p n)]
      · exact hold
      · intro k hlo hhi
        have hk : k = 1 ∨ k = 2 := by omega
        rcases hk with rfl | rfl <;> simp [hx] <;> rfl
    rw [State.writeReg_of_half_refused (k := rk .mbRingCtl p n) hwres (.inl rfl) rfl rfl rfl rfl ringCtl_live hon hchange hx
      (valueAllowed_mbRingCtl hxlevel) ringCtl_defined]
    have hdrop := Recorded.dropWrite (s.markBusy (rk .mbRingCtl p n)) (rk .mbRingCtl p n) 0x01
    refine happly ?_ (hdrop.rings.trans rfl) hx0
    rw [State.flag, hdrop.reg _ _ _ rfl, State.reg_markBusy (by decide)]
    exact hon

/-- Writing ENABLE = 1 to a ring out of service whose bases are good. -/
theorem State.writeReg_ringCtl_enable {s : State} {p n : Nat} {v : Word} (hreserved : v &&& ~~~RegName.mbRingCtl.info.defined = 0)
    (hlevel : bitsAt v 1 2 ≠ 3) (hoff : s.flag .mbRingCtl p n 0 = false) (hgood : s.ringBasesGood p n = true) :
    s.writeReg .referee (rk .mbRingCtl p n) 0 8 (putBit v 0 true) =
      (s.setReg .mbRingCtl p n (putBit (putBit v 0 true) 0 false)).setFlag .mbRingCtl p n 0 true := by
  obtain ⟨w, hw⟩ : ∃ w, w = putBit v 0 true := ⟨_, rfl⟩
  have hw0 : bitAt w 0 = true := by simp [hw]
  have hwlevel : bitsAt w 1 2 ≠ 3 := by rwa [hw, putBit, bitsAt_putBits_ne _ _ _ _ _ _ (by decide) (.inr (by decide))]
  have hwres : w &&& ~~~RegName.mbRingCtl.info.defined = 0 := hw ▸ putBit_and_reserved hreserved (by decide) true
  have hidle : s.blockRunning (rk .mbRingCtl p n) ≠ true := Bool.eq_false_iff.1 hoff
  have hmask : bitAt (laneMask 0 8) 0 = true := by decide
  have hoff' : bitAt (s.reg .mbRingCtl p n) 0 = false := hoff
  rw [← hw, State.writeReg_of_unlocked (k := rk .mbRingCtl p n) hwres (.inl rfl) rfl rfl rfl rfl (fun h => absurd h hidle)
    (valueAllowed_mbRingCtl hwlevel) ringCtl_defined]
  obtain ⟨u, hu⟩ : ∃ u, u = s.setReg .mbRingCtl p n (putBit w 0 false) := ⟨_, rfl⟩
  have huoff : u.flag .mbRingCtl p n 0 = false := by simp [hu, State.flag]
  have hugood : u.ringBasesGood p n = true := by
    rw [← hgood, hu]
    simp [State.ringBasesGood, State.inPartDram, State.stackOwner, State.owner, State.regionOwner]
  have henable : u.enableRing p n = u.setFlag .mbRingCtl p n 0 true := by simp [State.enableRing, huoff, hugood]
  rw [← hu, ← henable, hu]
  simp [State.applyWrite, State.writeRingCtl, rk, hmask, hw0, hoff']

/-! A visit (R254, R255) -/

/-- A visit accepts the next command of a ring from the ring's own bytes. -/
theorem State.visitRing_of_entry {s u : State} {p n : Nat} {b : List Byte} (f : TestFindings) (hwaits : s.ringWaits p n = true)
    (hroom : s.ringRoom p n = true)
    (hread : s.hostRead (ringBase (s.reg .mbRingSq p n) + s.field .mbRingCons p n 0 32 % ringEntries (s.reg .mbRingSq p n) * 64) 64 0 = (u, .ok b))
    (hfence : ¬((cmdOf (.ring p n) b).fence = true ∧ (u.ring p n).outstanding ≠ 0)) (k : Nat) :
    s.visitRing p n f (k + 1) =
      ((u.setReg .mbRingCons p n (BitVec.ofNat 64 ((s.field .mbRingCons p n 0 32 + 1) % 2 ^ 32))).mailCommand (.ring p n) b f).visitRing p n f k := by
  simp only [State.visitRing, hwaits, hroom, hread, if_neg hfence]
  rfl

/-! The rows -/

/-- What the answer to a register write leaves: every register but the counts of packets, and the rings. -/
structure AnswerKept (u t : State) : Prop where
  reg : ∀ m i j, m ≠ .cnTxPkts → m ≠ .cnRxPkts → t.reg m i j = u.reg m i j
  ring : ∀ p n, t.ring p n = u.ring p n

theorem AnswerKept.flag {u t : State} (h : AnswerKept u t) {m : RegName} (htx : m ≠ .cnTxPkts) (hrx : m ≠ .cnRxPkts) (i j b : Nat) :
    t.flag m i j b = u.flag m i j b := by rw [State.flag, h.reg m i j htx hrx, ← State.flag]

/-- A write of a ring's register by the Referee leaves, beside what the write does, only its answer and the counts of its packets. -/
theorem State.writeKey_ring {s u : State} {p n : Nat} {r : RegName} (hrun : s.coresRun = true) (hp : p < 8) (hn : n < 16)
    (hr : r ∈ [RegName.mbRingProd, .mbRingCqCons, .mbRingCtl]) {size : Nat} {v : Word} (hv : v.toNat < 256 ^ size)
    (hu : s.writeReg .referee (rk r p n) 0 size v = u) :
    ∃ t : State, Host.Outcome.next (s.writeKey .referee (rk r p n) size v) = (.next t : Answered) ∧ AnswerKept u t := by
  refine ⟨_, rfl, ?_⟩
  rw [State.writeKey_referee hrun (spotAt_ring p hp n hn r hr), Nat.mod_eq_of_lt hv, BitVec.ofNat_toNat, BitVec.setWidth_eq, hu]
  exact ⟨fun m i j htx hrx => State.reg_countRegister_answered htx hrx .., fun q m => State.ring_countRegister_answered ..⟩

/-- Settles O28, row by row. -/
theorem ringRegisters : Obligations.RingRegisters := by
  refine ⟨fun s p n hrun hp hn => ?_, fun s u p n f b => ?visit⟩
  case visit =>
    intro i hup hwaits hroom hread hfence
    exact congrArg Host.Outcome.next ((if_pos hup).trans (State.visitRing_of_entry f hwaits hroom hread hfence 15))
  have hlow (v : BitVec 32) : (v.setWidth 64).toNat < 256 ^ 4 := by
    rw [BitVec.toNat_setWidth]
    omega
  have hword (v : Word) : v.toNat < 256 ^ 8 := v.isLt
  have hprod (v : BitVec 32) : s.writeReg .referee (rk .mbRingProd p n) 0 4 (v.setWidth 64) = s.doorbell p n v := by
    rw [State.writeReg_of_low v rfl rfl rfl rfl rfl rfl rfl]
    exact congrArg (s.doorbell p n) (setWidth_low ..)
  refine ⟨fun v hroom => ?_, fun v hbeyond => ?_, fun v => ?_, fun v hreserved hlevel hoff hgood => ?_, fun v hreserved hold hlevel hon hout => ?_,
    fun v hreserved hold hlevel hon hout => ?_, fun hclosing hout => ?_, fun howed => ?_⟩
  · obtain ⟨t, hexec, hkept⟩ := State.writeKey_ring hrun hp hn (by decide) (hlow v) (hprod v)
    rw [State.doorbell_of_room hroom] at hkept
    refine ⟨t, hexec, ?_, ?_⟩
    · rw [hkept.reg _ _ _ (by decide) (by decide)]
      simp
    · rw [hkept.flag (by decide) (by decide)]
      simp [State.flag]
  · obtain ⟨t, hexec, hkept⟩ := State.writeKey_ring hrun hp hn (by decide) (hlow v) (hprod v)
    obtain ⟨hreg, h1, h2⟩ := State.doorbell_of_beyond hbeyond
    refine ⟨t, hexec, ?_, ?_, ?_⟩
    · rwa [hkept.reg _ _ _ (by decide) (by decide)]
    · rwa [hkept.flag (by decide) (by decide)]
    · rwa [hkept.flag (by decide) (by decide)]
  · obtain ⟨t, hexec, hkept⟩ := State.writeKey_ring hrun hp hn (by decide) (hlow v)
      (State.writeReg_of_low (s := s) (k := rk .mbRingCqCons p n) v rfl rfl rfl rfl rfl rfl rfl)
    obtain ⟨hreg, hstatus⟩ := s.cqCons_outcome .referee p n _ _
    refine ⟨t, hexec, ?_, fun hmoved => ?_⟩
    · rw [State.field, hkept.reg _ _ _ (by decide) (by decide), hreg, bitsAt_low]
    · rw [hkept.reg _ _ _ (by decide) (by decide), hreg] at hmoved
      rw [hkept.flag (by decide) (by decide)]
      exact hstatus hmoved
  · obtain ⟨t, hexec, hkept⟩ := State.writeKey_ring hrun hp hn (by decide) (hword _) (State.writeReg_ringCtl_enable hreserved hlevel hoff hgood)
    have hfield {lo k : Nat} (hlo : 1 ≤ lo) (hfit : lo + k ≤ 64) :
        bitsAt (putBits (putBits (putBits v 0 1 1) 0 1 0) 0 1 1) lo k = bitsAt v lo k := by
      rw [bitsAt_putBits_ne _ _ _ _ _ _ hfit (.inr hlo), bitsAt_putBits_ne _ _ _ _ _ _ hfit (.inr hlo), bitsAt_putBits_ne _ _ _ _ _ _ hfit (.inr hlo)]
    refine ⟨t, hexec, ?_, ?_, ?_⟩
    · rw [hkept.flag (by decide) (by decide)]
      simp [State.flag]
    · rw [State.field, hkept.reg _ _ _ (by decide) (by decide)]
      simpa [putBit] using hfield (by decide) (by decide)
    · rw [State.field, hkept.reg _ _ _ (by decide) (by decide)]
      simpa [putBit] using hfield (by decide) (by decide)
  · obtain ⟨u, hflag, hrings, hwrite⟩ := State.writeReg_ringCtl_disable hreserved hold hlevel hon
    obtain ⟨t, hexec, hkept⟩ := State.writeKey_ring hrun hp hn (by decide) (hword _) hwrite
    have huring : u.ring p n = s.ring p n := by rw [State.ring, State.ring, hrings]
    have huout : (u.ring p n).outstanding = 0 := huring ▸ hout
    rw [State.disableRing, if_pos huout] at hkept
    have hzero := u.closeRing_counters p n
    refine ⟨t, hexec, ?enable, ?_, ?_, ?_, ?_, ?_, ?ring⟩
    case enable => rw [hkept.flag (by decide) (by decide), State.closeRing_flag]
    case ring => rw [hkept.ring, State.closeRing_ring_of_drained huout, huring]
    all_goals
      rw [hkept.reg _ _ _ (by decide) (by decide)]
      exact hzero _ (by decide)
  · obtain ⟨u, hflag, hrings, hwrite⟩ := State.writeReg_ringCtl_disable hreserved hold hlevel hon
    obtain ⟨t, hexec, hkept⟩ := State.writeKey_ring hrun hp hn (by decide) (hword _) hwrite
    have huring : u.ring p n = s.ring p n := by rw [State.ring, State.ring, hrings]
    have huout : (u.ring p n).outstanding ≠ 0 := huring ▸ hout
    rw [State.disableRing, if_neg huout] at hkept
    refine ⟨t, hexec, ?_, ?_⟩
    · rw [hkept.flag (by decide) (by decide)]
      exact hflag
    · rw [hkept.ring, State.ring_modRing, if_pos ⟨rfl, rfl⟩, huring]
  · exact ⟨congrArg Host.Outcome.next (if_pos ⟨hclosing, hout⟩), State.closeRing_flag .., State.closeRing_ring_of_drained hout⟩
  · have hring : (s.ringMsi p n).ring p n = { s.ring p n with lastMsi := some s.now, msiOwed := false } := by
      rw [State.ring, (s.ringMsi_sent p n).rings, ← State.ring, State.ring_modRing, if_pos ⟨rfl, rfl⟩]
    exact ⟨congrArg Host.Outcome.next (if_pos howed), by rw [hring], by rw [hring]⟩

end Sys2Proof.Machine
end

section
/-! SUPPORT. A frame for the long operations of Tolerabor: PT_STATUS, the clock monitors, REF_STATUS, and, while Tolerabor runs, the reports and the
completions that wait. Here what it looks at, and the rules of the operations over State. -/

namespace Sys2Proof.Machine

/-- A completion that waits for the end of a warm restart (R246): command, opcode, status, turn, result. -/
abbrev HeldCompletion := Cmd × BitVec 16 × BitVec 8 × Option Word × List Byte

/-- Whether Tolerabor runs, as REF_STATUS has it, and where it does the reports that wait at intake and the completions that wait (R246, R482). -/
def State.awake (s : State) : Word × Option (List Report × List HeldCompletion) :=
  (s.reg .refStatus, if s.up then some (s.recorder.intake, s.referee.held) else none)

/-- What the work of partitions leaves alone: PT_STATUS, the clock monitors, and what awake shows. -/
def State.steady (s : State) : (Nat → Word) × (Nat → Word) × Word × Option (List Report × List HeldCompletion) :=
  (fun p => s.reg .ptStatus p, fun q => s.reg .sfClk q, s.awake)

/-- What steady shows, from the three fields that it looks at. -/
def steadyOf (regs : List (RegKey × Word)) (x : Recorder) (y : Referee) :
    (Nat → Word) × (Nat → Word) × Word × Option (List Report × List HeldCompletion) :=
  ({ State.reset with regs := regs, recorder := x, referee := y } : State).steady

@[simp] theorem steadyOf_fields (s : State) : steadyOf s.regs s.recorder s.referee = s.steady := rfl

@[simp] theorem State.steady_mk {pending regs latched shadow shadowLatched mem general hsc hartBlocks poison overflows tailMem fills filledRegions
    rows generations parts rings dies squares hosts quads poolLines exchanges e2eMisses fencedModules clock referee recorder flash pins power
    jtag barred answer fresh} :
    State.steady ⟨pending, regs, latched, shadow, shadowLatched, mem, general, hsc, hartBlocks, poison, overflows, tailMem, fills,
      filledRegions, rows, generations, parts, rings, dies, squares, hosts, quads, poolLines, exchanges, e2eMisses, fencedModules, clock, referee,
      recorder, flash, pins, power, jtag, barred, answer, fresh⟩ = steadyOf regs recorder referee := rfl

theorem State.steady_hsc (s : State) (x y : List (Nat × CacheCopy)) : ({ s with hsc := x, hartBlocks := y } : State).steady = s.steady := rfl

theorem State.steady_hartBlocks (s : State) (x : List (Nat × CacheCopy)) : ({ s with hartBlocks := x } : State).steady = s.steady := rfl

theorem State.steady_barred (s : State) (x : List Nat) : ({ s with barred := x } : State).steady = s.steady := rfl

theorem State.steady_of_apart {s t : State} (h : t.apart = s.apart) : t.steady = s.steady := (congrArg State.steady h :)

/-- While Tolerabor is down, what waits does not show. -/
theorem State.steady_of_down {s t : State} (h : s.up = false) (hregs : t.regs = s.regs) : t.steady = s.steady := by
  have hreg := State.reg_of_regs hregs
  have hup : t.up = s.up := State.flag_of_regs hregs ..
  simp [State.steady, State.awake, hreg, hup, h]

/-! Registers -/

/-- The registers that steady shows. -/
def steadyRegs : List RegName := [.ptStatus, .sfClk, .refStatus]

@[simp] theorem mem_steadyRegs {n : RegName} : n ∈ steadyRegs ↔ n = .ptStatus ∨ n = .sfClk ∨ n = .refStatus := by simp [steadyRegs]

@[simp] theorem State.steady_setReg (s : State) {n : RegName} (h : n ∉ steadyRegs) (i j : Nat) (v : Word) :
    (s.setReg n i j v).steady = s.steady := by
  simp only [mem_steadyRegs, not_or] at h
  simp [State.steady, State.awake, State.up, State.flag, h]
  rfl

@[simp] theorem State.steady_setField (s : State) {n : RegName} (h : n ∉ steadyRegs) (i j lo k x : Nat) :
    (s.setField n i j lo k x).steady = s.steady := State.steady_setReg s h ..

@[simp] theorem State.steady_setFlag (s : State) {n : RegName} (h : n ∉ steadyRegs) (i j b : Nat) (x : Bool) :
    (s.setFlag n i j b x).steady = s.steady := State.steady_setReg s h ..

@[simp] theorem State.steady_bump (s : State) {n : RegName} (h : n ∉ steadyRegs) (i j k : Nat) :
    (s.bump n i j k).steady = s.steady := State.steady_setReg s h ..

theorem State.reg_zeroCounters (s : State) {n : RegName} (h : n ≠ .sqCtr) (i a b : Nat) : (s.zeroCounters i).reg n a b = s.reg n a b := by
  have other (m : List (RegKey × Word)) (d : Word) : Sparse.get RegKey.num d
      (m.filter (fun x => !(decide (x.1.name = .sqCtr) && decide (x.1.i = i)))) (rk n a b) = Sparse.get RegKey.num d m (rk n a b) := by
    induction m with
    | nil => rfl
    | cons x m ih =>
      by_cases hx : x.1.num = (rk n a b).num
      · have hk := (RegKey.num_inj ..).1 hx
        simp [List.filter, hk, rk, h, Sparse.get]
      · rw [List.filter_cons]
        split <;> simp only [Sparse.get, hx, if_false, ih]
  exact other s.regs _

/-! Branches and repetition -/

@[simp] theorem State.steady_ite {c : Prop} [Decidable c] (s t : State) : (if c then s else t).steady = if c then s.steady else t.steady :=
  apply_ite ..

theorem State.steady_ite_fst {β : Type} {s : State} {c : Prop} [Decidable c] {x y : State × β} (hx : x.1.steady = s.steady)
    (hy : y.1.steady = s.steady) : (if c then x else y).1.steady = s.steady := by
  split <;> assumption

theorem State.steady_foldl_mem {α : Type} {f : State → α → State} (l : List α) (h : ∀ s, ∀ a ∈ l, (f s a).steady = s.steady) (s : State) :
    (l.foldl f s).steady = s.steady :=
  List.foldlRecOn (motive := fun t => t.steady = s.steady) l f rfl fun t ht a ha => (h t a ha).trans ht

@[simp] theorem State.steady_foldl {α : Type} {f : State → α → State} (h : ∀ s a, (f s a).steady = s.steady) (l : List α) (s : State) :
    (l.foldl f s).steady = s.steady := State.steady_foldl_mem l (fun s a _ => h s a) s

@[simp] theorem State.steady_foldl_fst {α β : Type} {f : State × β → α → State × β} (h : ∀ s b a, (f (s, b) a).1.steady = s.steady)
    (l : List α) (x : State × β) : (l.foldl f x).1.steady = x.1.steady :=
  List.foldlRecOn (motive := fun y => y.1.steady = x.1.steady) l f rfl fun y hy a _ => (h y.1 y.2 a).trans hy

/-! The numbered units and memory -/

@[simp] theorem State.steady_latchReg (s : State) (n : RegName) (i j : Nat) (v : Word) : (s.latchReg n i j v).steady = s.steady := rfl
@[simp] theorem State.steady_setPart (s : State) (p : Nat) (v : Part) : (s.setPart p v).steady = s.steady := rfl
@[simp] theorem State.steady_setDie (s : State) (i : Nat) (v : Die) : (s.setDie i v).steady = s.steady := rfl
@[simp] theorem State.steady_setSquare (s : State) (q : Nat) (v : Square) : (s.setSquare q v).steady = s.steady := rfl
@[simp] theorem State.steady_setSiteState (s : State) (i : Nat) (v : SiteState) : (s.setSiteState i v).steady = s.steady := rfl
@[simp] theorem State.steady_draw (s : State) : s.draw.2.steady = s.steady := rfl
@[simp] theorem State.steady_drawBool (s : State) : s.drawBool.2.steady = s.steady := rfl
@[simp] theorem State.steady_setByte (s : State) (a : Nat) (b : Byte) : (s.setByte a b).steady = s.steady := rfl
@[simp] theorem State.steady_zeroRange (s : State) (a n : Nat) : (s.zeroRange a n).steady = s.steady := rfl
@[simp] theorem State.steady_modPart (s : State) (p : Nat) (f : Part → Part) : (s.modPart p f).steady = s.steady := rfl
@[simp] theorem State.steady_modDie (s : State) (i : Nat) (f : Die → Die) : (s.modDie i f).steady = s.steady := rfl
@[simp] theorem State.steady_modSquare (s : State) (q : Nat) (f : Square → Square) : (s.modSquare q f).steady = s.steady := rfl
@[simp] theorem State.steady_setHost (s : State) (h : Nat) (v : HostDie) : (s.setHost h v).steady = s.steady := rfl
@[simp] theorem State.steady_modHost (s : State) (h : Nat) (f : HostDie → HostDie) : (s.modHost h f).steady = s.steady := rfl
@[simp] theorem State.steady_modQuad (s : State) (n : Nat) (f : Quad → Quad) : (s.modQuad n f).steady = s.steady := rfl
@[simp] theorem State.steady_modRing (s : State) (p n : Nat) (f : Ring → Ring) : (s.modRing p n f).steady = s.steady := rfl
@[simp] theorem State.steady_setRow (s : State) (slot : Nat) (v : StreamEntry) : (s.setRow slot v).steady = s.steady := rfl
@[simp] theorem State.steady_alert (s : State) : s.alert.steady = s.steady := rfl
@[simp] theorem State.steady_setBytes (s : State) (a : Nat) (d : List Byte) : (s.setBytes a d).steady = s.steady := by
  induction d generalizing s a with
  | nil => rfl
  | cons b d ih => exact (ih ..).trans rfl

end Sys2Proof.Machine
end

section
/-! SUPPORT. The frame of Tolerabor's operations over records, memory, completions, pages and streams: one rule for each, in the order of the
model. -/

namespace Sys2Proof.Machine

/-! The register file and the numbered units -/

@[simp] theorem State.steady_setBoth (s : State) {n : RegName} (h : n ∉ steadyRegs) (i j : Nat) (v : Word) : (s.setBoth n i j v).steady = s.steady :=
  State.steady_setReg s h ..

@[simp] theorem State.steady_setSiteOut (s : State) (i : Nat) (b : Bool) : (s.setSiteOut i b).steady = s.steady := by simp [State.setSiteOut]

@[simp] theorem State.steady_setRowMap (s : State) (i row v : Nat) : (s.setRowMap i row v).steady = s.steady := by simp [State.setRowMap]

@[simp] theorem State.steady_setPhase (s : State) (p x : Nat) : (s.setPhase p x).steady = s.steady := by simp [State.setPhase]

/-! The event recorder (chapter 18) -/

@[simp] theorem State.steady_modRecorder (s : State) {f : Recorder → Recorder} (h : ∀ x, (f x).intake = x.intake) :
    (s.modRecorder f).steady = s.steady := by
  simp only [State.steady, State.awake, State.up, State.flag, State.reg_modRecorder]
  rw [show (s.modRecorder f).recorder.intake = s.recorder.intake from h _]
  rfl

@[simp] theorem State.steady_countUnflushed (s : State) : s.countUnflushed.steady = s.steady := by simp [State.countUnflushed]

@[simp] theorem State.steady_viewRecord (s : State) (r : Record) : (s.viewRecord r).steady = s.steady := by
  unfold State.viewRecord
  split
  · rfl
  · exact State.steady_foldl (fun s p => s.steady_modPart p _) _ s

@[simp] theorem State.steady_dropRecord (s : State) (r : Record) : (s.dropRecord r).steady = s.steady :=
  (State.steady_foldl (fun s p => s.steady_modPart p _) _ _).trans (s.steady_bump (by decide) 0 _ 1)

@[simp] theorem State.steady_logRecord (s : State) (r : Record) : (s.logRecord r).steady = s.steady := by
  unfold State.logRecord
  split <;> simp

@[simp] theorem State.steady_beginFlush (s : State) : s.beginFlush.steady = s.steady := by simp [State.beginFlush]

@[simp] theorem State.steady_enterRing (s : State) (r : Record) : (s.enterRing r).steady = s.steady := by simp [State.enterRing]

@[simp] theorem State.steady_numberRecord (s : State) (r : Report) : (s.numberRecord r).steady = s.steady := by simp [State.numberRecord]

@[simp] theorem State.steady_keepRecord (s : State) (r : Record) : (s.keepRecord r).steady = s.steady := by
  unfold State.keepRecord
  dsimp only
  repeat' split
  all_goals simp

@[simp] theorem State.steady_accept (s : State) (r : Report) : (s.accept r).steady = s.steady := by simp [State.accept]

@[simp] theorem State.steady_record (s : State) (r : Report) : (s.record r).steady = s.steady := by
  have suppress (l : List Nat) (t : State) :
      (l.foldl (fun s p => s.modPart p (fun v => { v with viewSuppressed := v.viewSuppressed + 1 })) t).steady = t.steady :=
    State.steady_foldl (fun s p => s.steady_modPart p _) l t
  unfold State.record
  split
  · simp
  split
  · simp
  · dsimp only
    rw [State.steady_ite, suppress, State.steady_bump _ (by decide), State.steady_accept, ite_self]
    exact State.steady_modRecorder s fun _ => rfl

/-- A report that waits at intake waits while Tolerabor is down only. -/
@[simp] theorem State.steady_report (s : State) (r : Report) : (s.report r).steady = s.steady := by
  unfold State.report
  split
  · simp
  next h =>
    have hup : s.up = false := by simp_all [State.recording]
    split
    · simp_all [State.steady, State.awake, State.up, State.flag]
    · simp

@[simp] theorem State.steady_event (s : State) (block ev : Nat) (sev : Severity) (part : Option Nat) (source : Nat) (payload : List Byte) :
    (s.event block ev sev part source payload).steady = s.steady := by
  simp [State.event]

@[simp] theorem State.steady_drawSeverity (s : State) : s.drawSeverity.2.steady = s.steady := by simp [State.drawSeverity]

@[simp] theorem State.steady_eventAny (s : State) (block ev : Nat) (part : Option Nat) (source : Nat) (payload : List Byte) :
    (s.eventAny block ev part source payload).steady = s.steady := by
  simp [State.eventAny]

@[simp] theorem State.steady_event7F (s : State) (sev : Severity) (part : Option Nat) (source : Nat) (n : RegName) (i j : Nat) (more : List Byte) :
    (s.event7F sev part source n i j more).steady = s.steady := by
  simp [State.event7F]

@[simp] theorem State.steady_event7FAny (s : State) (part : Option Nat) (source : Nat) (n : RegName) (i j : Nat) (more : List Byte) :
    (s.event7FAny part source n i j more).steady = s.steady := by
  simp [State.event7FAny]

@[simp] theorem State.steady_eventStatus (s : State) (block : Nat) (st : Status) (sev : Severity) (part : Option Nat) (source : Nat)
    (payload : List Byte) :
    (s.eventStatus block st sev part source payload).steady = s.steady := by
  simp [State.eventStatus]

@[simp] theorem State.steady_decision (s : State) (p : Nat) (n : RegName) (turn : Word) : (s.decision p n turn).steady = s.steady := by
  simp [State.decision]

/-! Memory (chapters 2, 12 and 14) -/

@[simp] theorem State.steady_setPoison (s : State) (b : Nat) (x : Bool) : (s.setPoison b x).steady = s.steady := by simp [State.setPoison]

@[simp] theorem State.steady_breakReservations (s : State) (ok : Nat → Bool) : (s.breakReservations ok).steady = s.steady := by
  simp [State.breakReservations]

@[simp] theorem State.steady_applyFill (s : State) (line : Nat) : (s.applyFill line).steady = s.steady :=
  State.steady_of_apart (s.apart_applyFill line)

@[simp] theorem State.steady_queueFill (s : State) (first count : Nat) : (s.queueFill first count).steady = s.steady := by simp [State.queueFill]

@[simp] theorem State.steady_sealPage (s : State) (page : Nat) (turn : Word) : (s.sealPage page turn).steady = s.steady :=
  State.steady_foldl (fun s q => s.steady_modSquare q _) _ s

@[simp] theorem State.steady_sealDrop (s : State) (a : Nat) : (s.sealDrop a).steady = s.steady := by simp [State.sealDrop]

@[simp] theorem State.steady_liftSeals (s : State) (p : Nat) (turn : Word) : (s.liftSeals p turn).steady = s.steady :=
  State.steady_foldl (fun s q => s.steady_modSquare q _) _ s

@[simp] theorem State.steady_putBlock (s : State) (b : Nat) (d : List Byte) : (s.putBlock b d).steady = s.steady := by simp [State.putBlock]

@[simp] theorem State.steady_writeBackLine (s : State) (line : Nat) (c : CacheCopy) : (s.writeBackLine line c).steady = s.steady := by
  simp [State.writeBackLine]

@[simp] theorem State.steady_dramUe (s : State) (line pos : Nat) (requester : Nat) : (s.dramUe line pos requester).steady = s.steady := by
  simp [State.dramUe]

@[simp] theorem State.steady_sramUe (s : State) {n : RegName} (h : n ∉ steadyRegs) (i square addr requester : Nat) :
    (s.sramUe n i square addr requester).steady = s.steady := by
  simp only [State.sramUe, State.steady_eventStatus, State.steady_bump _ h]

@[simp] theorem State.steady_sliceUe (s : State) (q addr requester : Nat) : (s.sliceUe q addr requester).steady = s.steady := by simp [State.sliceUe]

@[simp] theorem State.steady_computeCopy (s : State) (line : Nat) : (s.computeCopy line).1.steady = s.steady := by
  unfold State.computeCopy
  dsimp only
  split
  · simp
  · exact s.steady_applyFill line

@[simp] theorem State.steady_computeReadIn (s : State) (line off n requester : Nat) : (s.computeReadIn line off n requester).1.steady = s.steady := by
  unfold State.computeReadIn
  dsimp only
  repeat' split
  all_goals simp

@[simp] theorem State.steady_computeWriteIn (s : State) (line off : Nat) (d : List Byte) : (s.computeWriteIn line off d).steady = s.steady :=
  s.steady_computeCopy line

@[simp] theorem State.steady_computeRead (s : State) (a n requester : Nat) : (s.computeRead a n requester).1.steady = s.steady := by
  refine State.steady_foldl_fst (fun s r x => ?_) _ _
  obtain ⟨l, o, k⟩ := x
  have h := s.steady_computeReadIn l o k requester
  cases r with
  | error e => rfl
  | ok d =>
    dsimp only
    split <;> simp_all

@[simp] theorem State.steady_computeWrite (s : State) (a : Nat) (d : List Byte) : (s.computeWrite a d).steady = s.steady := by
  simp [State.computeWrite]

@[simp] theorem State.steady_stateWrite (s : State) (a : Nat) (d : List Byte) : (s.stateWrite a d).steady = s.steady := by simp [State.stateWrite]

@[simp] theorem State.steady_putHsc (s : State) (b : Nat) (c : CacheCopy) : (s.putHsc b c).steady = s.steady := by simp [State.putHsc]

@[simp] theorem State.steady_putHart (s : State) (h b : Nat) (c : CacheCopy) : (s.putHart h b c).steady = s.steady := by simp [State.putHart]

@[simp] theorem State.steady_cleanHart (s : State) (h b : Nat) : (s.cleanHart h b).steady = s.steady := by
  unfold State.cleanHart
  split <;> simp

@[simp] theorem State.steady_dropHart (s : State) (h b : Nat) : (s.dropHart h b).steady = s.steady := by simp [State.dropHart]

@[simp] theorem State.steady_gather (s : State) (b : Nat) : (s.gather b).steady = s.steady := by simp [State.gather]

@[simp] theorem State.steady_evictDirectory (s : State) (b : Nat) : (s.evictDirectory b).steady = s.steady := by simp [State.evictDirectory]

@[simp] theorem State.steady_hostWriteBlock (s : State) (b off : Nat) (d : List Byte) : (s.hostWriteBlock b off d).steady = s.steady := by
  simp [State.hostWriteBlock]

@[simp] theorem State.steady_hostWrite (s : State) (a : Nat) (d : List Byte) : (s.hostWrite a d).steady = s.steady := by simp [State.hostWrite]

/-- Blocks of the HSC written to memory. -/
theorem State.steady_putBlocks (l : List Nat) (t : State) : (l.foldl (fun s b => match Sparse.nfind s.hsc b with
    | some c => s.putBlock b c.data
    | none => s) t).steady = t.steady := State.steady_foldl (fun s b => by split <;> simp) l t

@[simp] theorem State.steady_writeBackHost (s : State) (line : Nat) (skip : List Nat) : (s.writeBackHost line skip).steady = s.steady := by
  have clean (l : List Nat) (t : State) : (l.foldl (fun s b => match Sparse.nfind s.hsc b with
      | some c => s.putHsc b { c with dirty := [] }
      | none => s) t).steady = t.steady := State.steady_foldl (fun s b => by split <;> simp) l t
  have poison (l : List Nat) (t : State) : (l.foldl (fun s b => s.setPoison b true) t).steady = t.steady :=
    State.steady_foldl (fun s b => s.steady_setPoison b true) l t
  unfold State.writeBackHost
  dsimp only
  split
  · rfl
  split
  · exact (State.steady_bump _ (by decide) ..).trans ((poison _ _).trans ((clean _ _).trans (State.steady_putBlocks _ _)))
  · exact (clean _ _).trans (State.steady_putBlocks _ _)

@[simp] theorem State.steady_evictHostLine (s : State) (line : Nat) : (s.evictHostLine line).steady = s.steady := by simp [State.evictHostLine]

@[simp] theorem State.steady_writeBackCompute (s : State) (line : Nat) (skip : List Nat) : (s.writeBackCompute line skip).steady = s.steady := by
  unfold State.writeBackCompute
  split <;> simp

@[simp] theorem State.steady_evictGeneral (s : State) (line : Nat) : (s.evictGeneral line).steady = s.steady := by simp [State.evictGeneral]

@[simp] theorem State.steady_settleBoth (s : State) (line : Nat) : (s.settleBoth line).1.steady = s.steady :=
  State.steady_foldl_fst (fun s r b => by dsimp only; split <;> rfl) _ _

@[simp] theorem State.steady_publishToCompute (s : State) (line : Nat) : (s.publishToCompute line).steady = s.steady := by
  simp [State.publishToCompute]

@[simp] theorem State.steady_publishToHost (s : State) (line : Nat) : (s.publishToHost line).steady = s.steady := by
  unfold State.publishToHost
  dsimp only
  refine (State.steady_hsc ..).trans ((State.steady_breakReservations ..).trans ((State.steady_writeBackCompute ..).trans
    ((State.steady_putBlocks _ _).trans ?_)))
  rw [State.steady_settleBoth, State.steady_applyFill]

@[simp] theorem State.steady_publishLines (s : State) (toHost : Bool) (first count : Nat) :
    (s.publishLines toHost first count).steady = s.steady := by
  simp [State.publishLines]

@[simp] theorem State.steady_flushSlice (s : State) (q : Nat) : (s.flushSlice q).steady = s.steady := by simp [State.flushSlice]

@[simp] theorem State.steady_flushHsc (s : State) (p : Nat) : (s.flushHsc p).steady = s.steady := by simp [State.flushHsc]

@[simp] theorem State.steady_setDieBytes (s : State) (i off : Nat) (d : List Byte) : (s.setDieBytes i off d).steady = s.steady := by
  simp [State.setDieBytes]

@[simp] theorem State.steady_endSession (s : State) (p : Nat) : (s.endSession p).steady = s.steady := by simp [State.endSession]

/-! Messages and completions (chapter 9) -/

@[simp] theorem State.steady_setPending (s : State) (h file id : Nat) : (s.setPending h file id).steady = s.steady := by simp [State.setPending]

@[simp] theorem State.steady_sendMsi (s : State) (part : Option Nat) (block source addr : Nat) (data : BitVec 32) :
    (s.sendMsi part block source addr data).steady = s.steady := by
  unfold State.sendMsi
  split <;> simp

@[simp] theorem State.steady_pushMsg (s : State) (quad : Nat) (m : LinkMsg) : (s.pushMsg quad m).steady = s.steady := by simp [State.pushMsg]

@[simp] theorem State.steady_sendMgmt (s : State) (quad : Nat) (dst : BitVec 13) (kind srcPart dstPart : Nat) (xid : BitVec 16) (units : List Byte) :
    (s.sendMgmt quad dst kind srcPart dstPart xid units).steady = s.steady := by
  simp [State.sendMgmt]

@[simp] theorem State.steady_tellMembers (s : State) (p kind : Nat) (units : List Byte) : (s.tellMembers p kind units).steady = s.steady :=
  State.steady_foldl (fun s x => by dsimp only; split <;> simp) _ s

@[simp] theorem State.steady_ringMsi (s : State) (p n : Nat) : (s.ringMsi p n).steady = s.steady := by simp [State.ringMsi]

@[simp] theorem State.steady_notifyRing (s : State) (p n : Nat) : (s.notifyRing p n).steady = s.steady := by
  unfold State.notifyRing
  split <;> simp

@[simp] theorem State.steady_writeCompletion (s : State) (p n : Nat) (opcode : BitVec 16) (st : Status) (replay : Bool) (c : Cmd)
    (turn : Option Word) (result : List Byte) : (s.writeCompletion p n opcode st replay c turn result).steady = s.steady := by
  simp [State.writeCompletion]

@[simp] theorem State.steady_completeNow (s : State) (c : Cmd) (opcode : BitVec 16) (st : Status) (replay : Bool) (turn : Option Word)
    (result : List Byte) : (s.completeNow c opcode st replay turn result).steady = s.steady := by
  have counted (t : State) (o : Option Nat) : (match o with
      | some p => if st = Status.streamTableFull then t.bump .stFullRefused p else t
      | none => t).steady = t.steady := by
    repeat' split
    all_goals simp
  unfold State.completeNow
  dsimp only
  split
  · rfl
  split
  · exact (State.steady_writeCompletion ..).trans ((counted _ _).trans rfl)
  · exact (counted _ _).trans rfl
  · exact (State.steady_sendMgmt ..).trans ((counted _ _).trans rfl)

/-- A completion that waits waits while Tolerabor is down only. -/
@[simp] theorem State.steady_completeWith (s : State) (c : Cmd) (opcode : BitVec 16) (st : Status) (replay : Bool) (turn : Option Word)
    (result : List Byte) : (s.completeWith c opcode st replay turn result).steady = s.steady := by
  unfold State.completeWith
  split
  · simp
  next h => exact State.steady_of_down (by simpa using h) rfl

@[simp] theorem State.steady_complete (s : State) (c : Cmd) (opcode : BitVec 16) (st : Status) (turn : Option Word) (result : List Byte) :
    (s.complete c opcode st turn result).steady = s.steady := by
  simp [State.complete]

@[simp] theorem State.steady_completeReset (s : State) (p : Nat) (c : Cmd) (st : Status) (turn : Option Word) (result : List Byte) :
    (s.completeReset p c st turn result).steady = s.steady := by
  simp [State.completeReset]

/-! The page tables of streams (chapter 11) -/

@[simp] theorem State.steady_writeEntry (s : State) (node i : Nat) (e : Word) : (s.writeEntry node i e).steady = s.steady := by
  simp [State.writeEntry]

@[simp] theorem State.steady_invalidate (s : State) (p : Nat) (h : Handle) (first count : Nat) :
    (s.invalidate p h first count).steady = s.steady := by
  simp [State.invalidate]

@[simp] theorem State.steady_setLeaf (s : State) (p : Nat) (h : Handle) (root page : Nat) (e : Word) :
    (s.setLeaf p h root page e).steady = s.steady := by
  unfold State.setLeaf
  split <;> simp

@[simp] theorem State.steady_takeNode (s : State) (nodes : List Addr) : (s.takeNode nodes).1.steady = s.steady := by
  unfold State.takeNode
  generalize List.replicate 1024 (0 : Byte) = z
  cases nodes with
  | nil => simp
  | cons a l => simp

@[simp] theorem State.steady_ensureNode (s : State) (node i : Nat) (nodes : List Addr) : (s.ensureNode node i nodes).1.steady = s.steady := by
  unfold State.ensureNode
  dsimp only
  split <;> simp

@[simp] theorem State.steady_placeLeaf (s : State) (root page : Nat) (e : Word) (nodes : List Addr) :
    (s.placeLeaf root page e nodes).1.steady = s.steady := by
  simp [State.placeLeaf]

@[simp] theorem State.steady_takePage (s : State) (p : Nat) : (s.takePage p).1.steady = s.steady := by simp [State.takePage]

@[simp] theorem State.steady_writePage (s : State) (a : Nat) (d : List Byte) : (s.writePage a d).steady = s.steady := by simp [State.writePage]

@[simp] theorem State.steady_writeSaveLines (s : State) (p root n : Nat) (d : List Byte) : (s.writeSaveLines p root n d).steady = s.steady := by
  unfold State.writeSaveLines
  dsimp only
  split
  · split <;> simp
  · rw [State.steady_stateWrite, State.steady_placeLeaf, State.steady_writePage, State.steady_takePage]

@[simp] theorem State.steady_setSharers (s : State) (p frame n : Nat) : (s.setSharers p frame n).steady = s.steady := by simp [State.setSharers]

@[simp] theorem State.steady_fillPage (s : State) (frame : Nat) : (s.fillPage frame).steady = s.steady := by simp [State.fillPage]

@[simp] theorem State.steady_releasePage (s : State) (p frame : Nat) : (s.releasePage p frame).steady = s.steady := by simp [State.releasePage]

@[simp] theorem State.steady_releaseLeaf (s : State) (p : Nat) (e : Word) : (s.releaseLeaf p e).steady = s.steady := by simp [State.releaseLeaf]

@[simp] theorem State.steady_releaseTable (s : State) (p root : Nat) : (s.releaseTable p root).steady = s.steady := by simp [State.releaseTable]

/-! The stream table (chapter 10) -/

@[simp] theorem State.steady_countStreams (s : State) (p : Nat) : (s.countStreams p).steady = s.steady := by simp [State.countStreams]

@[simp] theorem State.steady_freeRowAt (s : State) (p slot : Nat) : (s.freeRowAt p slot).steady = s.steady := by simp [State.freeRowAt]

@[simp] theorem State.steady_issue (s : State) (p slot : Nat) : (s.issue p slot).1.steady = s.steady := by simp [State.issue]

@[simp] theorem State.steady_streamEvent (s : State) (p : Nat) (e : StreamEntry) : (s.streamEvent p e).steady = s.steady := by
  simp [State.streamEvent]

@[simp] theorem State.steady_writeRecord (s : State) (p : Nat) (h : Handle) (d : List Byte) : (s.writeRecord p h d).steady = s.steady := by
  simp [State.writeRecord]

@[simp] theorem State.steady_setParked (s : State) (p : Nat) (h : Handle) (e : StreamEntry) : (s.setParked p h e).steady = s.steady := by
  simp [State.setParked]

@[simp] theorem State.steady_dropParked (s : State) (p : Nat) (h : Handle) : (s.dropParked p h).steady = s.steady := by simp [State.dropParked]

@[simp] theorem State.steady_setEntryAt (s : State) (p : Nat) (f : Found) (e : StreamEntry) : (s.setEntryAt p f e).steady = s.steady := by
  unfold State.setEntryAt
  split <;> simp

@[simp] theorem State.steady_parkRow (s : State) (p slot : Nat) : (s.parkRow p slot).steady = s.steady := by simp [State.parkRow]

@[simp] theorem State.steady_admitStream (s : State) (p : Nat) : (s.admitStream p).1.steady = s.steady := by
  unfold State.admitStream
  repeat' split
  all_goals simp

@[simp] theorem State.steady_unparkStream (s : State) (p : Nat) (h : Handle) : (s.unparkStream p h).1.steady = s.steady := by
  have hs := s.steady_admitStream p
  unfold State.unparkStream
  dsimp only
  split
  · simp
  split
  · split <;> simp_all
  · simp_all

@[simp] theorem State.steady_setTailBytes (s : State) (q t b : Nat) (d : List Byte) : (s.setTailBytes q t b d).steady = s.steady := by
  induction d generalizing s b with
  | nil => rfl
  | cons x d ih => exact (ih ..).trans rfl

@[simp] theorem State.steady_clearTails (s : State) (q first count : Nat) : (s.clearTails q first count).steady = s.steady := by
  simp [State.clearTails]

@[simp] theorem State.steady_countTails (s : State) (p : Nat) : (s.countTails p).steady = s.steady := by simp [State.countTails]

@[simp] theorem State.steady_dropRuns (s : State) (p : Nat) (h : Handle) : (s.dropRuns p h).steady = s.steady := by simp [State.dropRuns]

@[simp] theorem State.steady_putSaved (s : State) (p : Nat) (h : Handle) (root : Nat) (l : List (Nat × Nat × List Byte)) :
    (s.putSaved p h root l).steady = s.steady := by
  simp [State.putSaved]

@[simp] theorem State.steady_saveTails (s : State) (p : Nat) (f : Found) : (s.saveTails p f).steady = s.steady := by simp [State.saveTails]

theorem State.steady_takeRun {s t : State} {p : Nat} {h : Handle} {set site n : Nat} (e : s.takeRun p h set site n = some t) :
    t.steady = s.steady := by
  unfold State.takeRun at e
  obtain ⟨x, -, rfl⟩ := Option.map_eq_some_iff.1 e
  simp

@[simp] theorem State.steady_giveRun (s : State) (p : Nat) (h : Handle) (set site n saves : Nat) :
    (s.giveRun p h set site n saves).1.steady = s.steady := by
  induction saves generalizing s with
  | zero =>
    unfold State.giveRun
    split
    next e => exact State.steady_takeRun e
    · rfl
  | succ saves ih =>
    unfold State.giveRun
    split
    next e => exact State.steady_takeRun e
    · split <;> simp [ih]

@[simp] theorem State.steady_giveTails (s : State) (p slot : Nat) (sheets : List SheetDecl) (saves : Nat) :
    (s.giveTails p slot sheets saves).1.steady = s.steady := by
  have runs (l : List SheetDecl) (h : Handle) (set : Nat) : (l.foldl (fun (s, ok) x =>
      if ok then s.giveRun p h set x.site x.tails saves else (s, false)) (s, true)).1.steady = s.steady :=
    State.steady_foldl_fst (fun s ok x => by cases ok <;> simp) l (s, true)
  have saved (l : List (Nat × Nat × List Byte)) (rs : List TailRun) (t : State) : (l.foldl (fun s (site, t, d) =>
      match rs.find? (fun r => decide (r.site = site)) with
      | some r => s.setTailBytes r.square (r.first + t) 0 d
      | none => s) t).steady = t.steady := State.steady_foldl (fun s x => by dsimp only; split <;> simp) l t
  unfold State.giveTails
  refine State.steady_ite_fst ?_ ?_
  · exact (State.steady_countTails ..).trans ((State.steady_modPart ..).trans (runs ..))
  · exact (State.steady_countTails ..).trans ((State.steady_setRow ..).trans ((State.steady_modPart ..).trans ((saved ..).trans (runs ..))))

@[simp] theorem State.steady_trimTails (s : State) (p : Nat) (h : Handle) (length : Nat) : (s.trimTails p h length).steady = s.steady := by
  refine State.steady_foldl (fun s r => State.steady_foldl (fun s t => ?_) _ s) _ s
  rfl

@[simp] theorem State.steady_releaseTails (s : State) (p : Nat) (h : Handle) : (s.releaseTails p h).steady = s.steady := by simp [State.releaseTails]

@[simp] theorem State.steady_failPending (s : State) (p : Nat) (h : Handle) (st : Status) (length : BitVec 32) :
    (s.failPending p h st length).steady = s.steady := by
  simp [State.failPending]

@[simp] theorem State.steady_completePlayed (s : State) (p : Nat) (h : Handle) : (s.completePlayed p h).steady = s.steady :=
  (State.steady_foldl (fun s x => by split <;> simp) _ _).trans (s.steady_modPart ..)

@[simp] theorem State.steady_stageSlice (s : State) (p i : Nat) (rows : List BatchRow) : (s.stageSlice p i rows).steady = s.steady := by
  simp [State.stageSlice]

@[simp] theorem State.steady_writeSlices (s : State) (p : Nat) : (s.writeSlices p).steady = s.steady := by
  unfold State.writeSlices
  split <;> simp

@[simp] theorem State.steady_unstage (s : State) (p : Nat) (h : Handle) : (s.unstage p h).steady = s.steady := by simp [State.unstage]

@[simp] theorem State.steady_restUnbatched (s : State) (p : Nat) : (s.restUnbatched p).steady = s.steady := by simp [State.restUnbatched]

@[simp] theorem State.steady_applyOpen (s : State) (p : Nat) (c : Cmd) (tenant : BitVec 16) (prio : BitVec 8) (nodes : List Addr) :
    (s.applyOpen p c tenant prio nodes).1.steady = s.steady := by
  have h := s.steady_admitStream p
  unfold State.applyOpen
  split
  · simp_all
  next t k e =>
    rw [e] at h
    dsimp only
    rw [State.steady_complete, State.steady_streamEvent, State.steady_bump _ (by decide), State.steady_setRow, State.steady_takeNode,
      State.steady_issue, h]

@[simp] theorem State.steady_makeResident (s : State) (p : Nat) (f : Found) : (s.makeResident p f).1.steady = s.steady := by
  unfold State.makeResident
  split <;> simp

@[simp] theorem State.steady_applyAppend (s : State) (p : Nat) (c : Cmd) (h : Handle) (positions : BitVec 32) (prompt : Word) :
    (s.applyAppend p c h positions prompt).steady = s.steady := by
  unfold State.applyAppend
  dsimp only
  split
  · simp
  next f _ =>
    have hr := s.steady_makeResident p f
    repeat' split
    all_goals simp_all

@[simp] theorem State.steady_applyAdvance (s : State) (p : Nat) (c : Cmd) (h : Handle) (positions : BitVec 16) :
    (s.applyAdvance p c h positions).steady = s.steady := by
  unfold State.applyAdvance
  dsimp only
  split
  · simp
  next f _ =>
    have hr := s.steady_makeResident p f
    repeat' split
    all_goals simp_all

@[simp] theorem State.steady_releaseStream (s : State) (p : Nat) (h : Handle) (root : Nat) : (s.releaseStream p h root).steady = s.steady := by
  simp [State.releaseStream]

@[simp] theorem State.steady_settleShared (s : State) (p : Nat) : (s.settleShared p).steady = s.steady :=
  (State.steady_foldl (fun s _ => s.steady_setParked ..) _ _).trans (State.steady_foldl (fun s _ => s.steady_setRow ..) _ s)

@[simp] theorem State.steady_applyClose (s : State) (p : Nat) (c : Cmd) (h : Handle) : (s.applyClose p c h).steady = s.steady := by
  unfold State.applyClose
  dsimp only
  repeat' split
  all_goals simp

@[simp] theorem State.steady_applyPark (s : State) (p : Nat) (c : Cmd) (h : Handle) : (s.applyPark p c h).steady = s.steady := by
  unfold State.applyPark
  repeat' split
  all_goals simp

@[simp] theorem State.steady_applyUnpark (s : State) (p : Nat) (c : Cmd) (h : Handle) : (s.applyUnpark p c h).steady = s.steady := by
  unfold State.applyUnpark
  dsimp only
  split
  · simp
  next f _ =>
    have hr := s.steady_makeResident p f
    repeat' split
    all_goals simp_all

@[simp] theorem State.steady_sharePages (s : State) (p : Nat) (parent : Handle) (parentRoot childRoot pre : Nat) (nodes : List Addr) :
    (s.sharePages p parent parentRoot childRoot pre nodes).1.steady = s.steady := by
  simp [State.sharePages]

@[simp] theorem State.steady_copyTails (s : State) (p : Nat) (parent child : Handle) (root : Nat) :
    (s.copyTails p parent child root).steady = s.steady := by
  simp [State.copyTails]

@[simp] theorem State.steady_applyFork (s : State) (p : Nat) (c : Cmd) (h : Handle) (pre : BitVec 32) (nodes : List Addr) :
    (s.applyFork p c h pre nodes).1.steady = s.steady := by
  have ha := s.steady_admitStream p
  unfold State.applyFork
  dsimp only
  split
  · simp
  split
  · simp
  split
  · simp
  split
  · simp_all
  next t k e =>
    rw [e] at ha
    rw [State.steady_complete, State.steady_streamEvent, State.steady_bump _ (by decide), State.steady_setRow, State.steady_ite,
      State.steady_copyTails, State.steady_setEntryAt, ite_self, State.steady_sharePages, State.steady_takeNode, State.steady_issue, ha]

@[simp] theorem State.steady_advanceStream (s : State) (p slot : Nat) (r : BatchRow) : (s.advanceStream p slot r).steady = s.steady := by
  simp [State.advanceStream]

@[simp] theorem State.steady_giveUp (s : State) (p slot : Nat) : (s.giveUp p slot).steady = s.steady := by
  unfold State.giveUp
  dsimp only
  split <;> simp

@[simp] theorem State.steady_notAdvanceStream (s : State) (p slot : Nat) (keepRetries : Bool) :
    (s.notAdvanceStream p slot keepRetries).steady = s.steady := by
  simp [State.notAdvanceStream]

@[simp] theorem State.steady_batchOutcome (s : State) (p : Nat) : (s.batchOutcome p).steady = s.steady := by simp [State.batchOutcome]

@[simp] theorem State.steady_freeClosing (s : State) (p : Nat) : (s.freeClosing p).steady = s.steady := by simp [State.freeClosing]

end Sys2Proof.Machine
end

section
/-! SUPPORT. The frame of Tolerabor's operations over turns, networks, migrations, books and resets: one rule for each, in the order of the
model. -/

namespace Sys2Proof.Machine

/-! What a changeover takes at its begin (chapters 3 and 7) -/

@[simp] theorem State.steady_latch (s : State) (n : RegName) (i j : Nat) : (s.latch n i j).steady = s.steady := by simp [State.latch]

@[simp] theorem State.steady_latchTurnLen (s : State) (p : Nat) (v : Word) : (s.latchTurnLen p v).steady = s.steady := by simp [State.latchTurnLen]

@[simp] theorem State.steady_latchChgLen (s : State) (p : Nat) (v : Word) : (s.latchChgLen p v).steady = s.steady := by simp [State.latchChgLen]

@[simp] theorem State.steady_latchFields (s : State) (p : Nat) : (s.latchFields p).steady = s.steady := by simp [State.latchFields]

@[simp] theorem State.steady_askStep (s : State) (p step : Nat) : (s.askStep p step).steady = s.steady := by simp [State.askStep]

@[simp] theorem State.steady_chooseStep (s : State) (p : Nat) : (s.chooseStep p).steady = s.steady := by simp [State.chooseStep]

@[simp] theorem State.steady_trimBatch (s : State) (p : Nat) : (s.trimBatch p).steady = s.steady := by
  unfold State.trimBatch
  dsimp only
  split <;> simp

@[simp] theorem State.steady_chooseTurnLen (s : State) (p : Nat) : (s.chooseTurnLen p).steady = s.steady := by simp [State.chooseTurnLen]

@[simp] theorem State.steady_requestMap (s : State) (p m : Nat) : (s.requestMap p m).steady = s.steady := by simp [State.requestMap]

@[simp] theorem State.steady_chooseMap (s : State) (p : Nat) : (s.chooseMap p).steady = s.steady := by
  unfold State.chooseMap
  repeat' split
  all_goals simp

@[simp] theorem State.steady_followChange (s : State) {n : RegName} (h : n ∉ steadyRegs) (p : Nat) (v : Word) :
    (s.followChange n p v).steady = s.steady := by
  unfold State.followChange
  split
  · exact State.steady_setReg s h ..
  · rfl

@[simp] theorem State.steady_applySpanChanges (s : State) (p : Nat) : (s.applySpanChanges p).steady = s.steady := by simp [State.applySpanChanges]

@[simp] theorem State.steady_announceChange (s : State) (p : Nat) (maint : Bool) : (s.announceChange p maint).steady = s.steady := by
  simp [State.announceChange]

@[simp] theorem State.steady_announceNew (s : State) (p : Nat) : (s.announceNew p).steady = s.steady := by simp [State.announceNew]

@[simp] theorem State.steady_applyPolicies (s : State) (p : Nat) : (s.applyPolicies p).steady = s.steady := by
  unfold State.applyPolicies
  refine (State.steady_foldl (fun s q => ?_) _ _).trans ?_
  · split <;> simp
  · split <;> simp

@[simp] theorem State.steady_budgetStep (s : State) (p : Nat) : (s.budgetStep p).steady = s.steady := by
  unfold State.budgetStep
  split <;> simp

@[simp] theorem State.steady_takeBoundary (s : State) (p : Nat) : (s.takeBoundary p).steady = s.steady := by simp [State.takeBoundary]

@[simp] theorem State.steady_openChangeover (s : State) (p : Nat) : (s.openChangeover p).steady = s.steady := by simp [State.openChangeover]

/-! The routers (chapter 8) -/

@[simp] theorem State.steady_setBnetBuf (s : State) (q k : Nat) (l : List BnetPacket) : (s.setBnetBuf q k l).steady = s.steady := by
  simp [State.setBnetBuf]

@[simp] theorem State.steady_setCircuitQueue (s : State) (q c : Nat) (l : List BnetPacket) : (s.setCircuitQueue q c l).steady = s.steady := by
  simp [State.setCircuitQueue]

@[simp] theorem State.steady_sendOver (s : State) (q d : Nat) (p : BnetPacket) : (s.sendOver q d p).steady = s.steady := by
  unfold State.sendOver
  split <;> simp

theorem State.steady_serveOut {s t : State} {q d : Nat} (e : s.serveOut q d = some t) : t.steady = s.steady := by
  unfold State.serveOut at e
  dsimp only at e
  split at e
  · cases e
  split at e
  · cases e
  split at e
  · cases e
    split <;> simp
  · cases e
    simp

theorem State.steady_enterLocal {s t : State} {q : Nat} {p : BnetPacket} (e : s.enterLocal q p = some t) : t.steady = s.steady := by
  unfold State.enterLocal at e
  dsimp only at e
  split at e
  · split at e <;> cases e
    simp
  · split at e <;> cases e
    simp

@[simp] theorem State.steady_enterAll (s : State) (q : Nat) (l : List BnetPacket) : (s.enterAll q l).1.steady = s.steady := by
  induction l generalizing s with
  | nil => rfl
  | cons p l ih =>
    unfold State.enterAll
    split
    next e => exact (ih _).trans (State.steady_enterLocal e)
    · exact ih s

@[simp] theorem State.steady_refill (s : State) (q : Nat) : (s.refill q).steady = s.steady := by
  unfold State.refill
  split <;> simp

@[simp] theorem State.steady_serveFor (s : State) (q n : Nat) : (s.serveFor q n).steady = s.steady := by
  induction n generalizing s with
  | zero => rfl
  | succ n ih =>
    unfold State.serveFor
    dsimp only
    split
    next e =>
      obtain ⟨d, -, e⟩ := List.exists_of_findSome?_eq_some e
      rw [ih, State.steady_serveOut e, State.steady_refill]
    · simp

@[simp] theorem State.steady_serve (s : State) (q : Nat) : (s.serve q).steady = s.steady := by simp [State.serve]

@[simp] theorem State.steady_serveRouter (s : State) (q : Nat) : (s.serveRouter q).steady = s.steady := by simp [State.serveRouter]

@[simp] theorem State.steady_injectBnet (s : State) (q : Nat) (p : BnetPacket) : (s.injectBnet q p).steady = s.steady := by simp [State.injectBnet]

@[simp] theorem State.steady_snSend (s : State) (q : Nat) (dirs : List Nat) (m : BitVec 64) : (s.snSend q dirs m).steady = s.steady := by
  simp [State.snSend]

@[simp] theorem State.steady_snDown (s : State) (q : Nat) (m : BitVec 64) : (s.snDown q m).steady = s.steady := by simp [State.snDown]

@[simp] theorem State.steady_rootSends (s : State) (p : Nat) (m : BitVec 64) : (s.rootSends p m).steady = s.steady := by
  unfold State.rootSends
  split <;> simp

@[simp] theorem State.steady_snUp (s : State) (q : Nat) (m : BitVec 64) : (s.snUp q m).steady = s.steady := by simp [State.snUp]

/-! The abort of a turn and the fences (R94, chapter 15) -/

@[simp] theorem State.steady_runWheels (s : State) (p : Nat) (on : Bool) : (s.runWheels p on).steady = s.steady := by simp [State.runWheels]

@[simp] theorem State.steady_markAborted (s : State) (p cause : Nat) : (s.markAborted p cause).steady = s.steady := by simp [State.markAborted]

@[simp] theorem State.steady_abortTurn (s : State) (p cause : Nat) : (s.abortTurn p cause).steady = s.steady := by
  unfold State.abortTurn
  dsimp only
  split <;> simp

@[simp] theorem State.steady_writeOcLimits (s : State) : s.writeOcLimits.steady = s.steady := by simp [State.writeOcLimits]

@[simp] theorem State.steady_liftRegion (s : State) (r : Nat) : (s.liftRegion r).steady = s.steady := by simp [State.liftRegion]

/-! The S-net tree (R234, R235) -/

@[simp] theorem State.steady_hold (s : State) (k : TreeMsg) (q : Nat) (l : List Nat) : (s.hold k q l).steady = s.steady := by simp [State.hold]

@[simp] theorem State.steady_passUp (s : State) (k : TreeMsg) (q : Nat) : (s.passUp k q).steady = s.steady := by simp [State.passUp]

@[simp] theorem State.steady_passLeaves (s : State) (k : TreeMsg) (p : Nat) : (s.passLeaves k p).steady = s.steady := by simp [State.passLeaves]

/-! The turn machinery (chapters 3, 7, 16 and 17) -/

@[simp] theorem State.steady_allMargin (s : State) (p step : Nat) : (s.allMargin p step).2.steady = s.steady := by
  unfold State.allMargin
  split <;> simp

@[simp] theorem State.steady_settleStep (s : State) (p : Nat) : (s.settleStep p).steady = s.steady := by simp [State.settleStep]

@[simp] theorem State.steady_snapshot (s : State) (p : Nat) : (s.snapshot p).steady = s.steady := by
  unfold State.snapshot
  dsimp only
  split <;> simp

@[simp] theorem State.steady_flushTranslations (s : State) (p : Nat) : (s.flushTranslations p).steady = s.steady :=
  State.steady_foldl (fun s q => s.steady_modSquare q _) _ s

@[simp] theorem State.steady_zeroCounters (s : State) (i : Nat) : (s.zeroCounters i).steady = s.steady := by
  simp [State.steady, State.awake, State.up, State.flag, State.reg_zeroCounters]
  rfl

@[simp] theorem State.steady_endDie (s : State) (p i : Nat) (epoch : BitVec 16) : (s.endDie p i epoch).steady = s.steady := by simp [State.endDie]

@[simp] theorem State.steady_dropTiles (s : State) (i : Nat) : (s.dropTiles i).steady = s.steady := by simp [State.dropTiles]

@[simp] theorem State.steady_clearFlags (s : State) (i : Nat) : (s.clearFlags i).steady = s.steady := by simp [State.clearFlags]

@[simp] theorem State.steady_writeSiteEntry (s : State) (i : Nat) (e : MapEntry) : (s.writeSiteEntry i e).steady = s.steady := by
  simp [State.writeSiteEntry]

@[simp] theorem State.steady_copyTable (s : State) (b : Book) (reshard : Bool) (m i : Nat) (tableB : Bool) :
    (s.copyTable b reshard m i tableB).steady = s.steady := by
  unfold State.copyTable
  split <;> simp

@[simp] theorem State.steady_copyStandby (s : State) (p : Nat) (b : Book) (reshard : Bool) (m i : Nat) :
    (s.copyStandby p b reshard m i).steady = s.steady := by
  simp [State.copyStandby]

@[simp] theorem State.steady_putTable (s : State) (b : Book) (reshard : Bool) (m i : Nat) : (s.putTable b reshard m i).steady = s.steady := by
  simp [State.putTable]

@[simp] theorem State.steady_writePlan (s : State) (p : Nat) (b : Book) (m : Nat) : (s.writePlan p b m).steady = s.steady :=
  State.steady_foldl (fun s _ => (State.steady_foldl (fun s _ => s.steady_setBoth (by decide) ..) _ _).trans
    (State.steady_foldl (fun s _ => s.steady_setBoth (by decide) ..) _ s)) _ s

@[simp] theorem State.steady_nextEpoch (s : State) (p : Nat) : (s.nextEpoch p).steady = s.steady := by simp [State.nextEpoch]

@[simp] theorem State.steady_enterMap (s : State) (p : Nat) (b : Book) (m : Nat) : (s.enterMap p b m).steady = s.steady := by
  unfold State.enterMap
  simp only [State.steady_decision, State.steady_modPart, State.steady_nextEpoch, State.steady_writePlan,
    State.steady_setReg _ (show RegName.sqMapNow ∉ steadyRegs by decide)]
  refine State.steady_foldl (fun s i => ?_) _ s
  rw [State.steady_putTable]
  split <;> simp

@[simp] theorem State.steady_enterReshard (s : State) (p : Nat) (b : Book) (target : Nat) : (s.enterReshard p b target).steady = s.steady := by
  simp [State.enterReshard]

@[simp] theorem State.steady_reshardAborted (s : State) (p : Nat) : (s.reshardAborted p).steady = s.steady := by simp [State.reshardAborted]

@[simp] theorem State.steady_startSwitch (s : State) (p : Nat) (b : Book) (want : Nat) : (s.startSwitch p b want).steady = s.steady := by
  simp [State.startSwitch]

@[simp] theorem State.steady_trySwitch (s : State) (p : Nat) (b : Book) (w : Switch) : (s.trySwitch p b w).steady = s.steady := by
  simp [State.trySwitch]

@[simp] theorem State.steady_switchMaps (s : State) (p : Nat) : (s.switchMaps p).steady = s.steady := by
  unfold State.switchMaps
  dsimp only
  repeat' split
  all_goals simp

@[simp] theorem State.steady_completeZeroed (s : State) (p : Nat) (c : Cmd) (opcode : BitVec 16) (turn : Word) :
    (s.completeZeroed p c opcode turn).steady = s.steady := by
  simp [State.completeZeroed]

@[simp] theorem State.steady_zeroDie (s : State) (i : Nat) : (s.zeroDie i).steady = s.steady := by simp [State.zeroDie]

@[simp] theorem State.steady_installBook (s : State) (p : Nat) (l : Loading) : (s.installBook p l).steady = s.steady := by
  unfold State.installBook
  dsimp only
  simp only [State.steady_modPart, State.steady_latch, State.steady_ite, State.steady_decision,
    State.steady_setReg _ (show RegName.tnChgLen ∉ steadyRegs by decide), State.steady_setReg _ (show RegName.tnTurnLen ∉ steadyRegs by decide),
    State.steady_setReg _ (show RegName.tnSpan ∉ steadyRegs by decide), State.steady_setReg _ (show RegName.tnMinStep ∉ steadyRegs by decide),
    State.steady_askStep, ite_self]
  refine State.steady_foldl (fun s i => ?_) _ s
  rw [State.steady_setBytes]
  repeat' split
  all_goals simp

@[simp] theorem State.steady_finishLoad (s : State) (p : Nat) (l : Loading) : (s.finishLoad p l).steady = s.steady := by simp [State.finishLoad]

@[simp] theorem State.steady_loadStep (s : State) (p : Nat) : (s.loadStep p).steady = s.steady := by
  unfold State.loadStep
  repeat' split
  all_goals simp

@[simp] theorem State.steady_releaseBookArea (s : State) (p : Nat) : (s.releaseBookArea p).steady = s.steady := by simp [State.releaseBookArea]

@[simp] theorem State.steady_endBook (s : State) (p : Nat) : (s.endBook p).steady = s.steady := by simp [State.endBook]

@[simp] theorem State.steady_unloadStep (s : State) (p : Nat) : (s.unloadStep p).steady = s.steady := by
  unfold State.unloadStep
  split <;> simp

@[simp] theorem State.steady_countMaint (s : State) (p : Nat) : (s.countMaint p).steady = s.steady := by simp [State.countMaint]

@[simp] theorem State.steady_preemptDone (s : State) (p : Nat) : (s.preemptDone p).steady = s.steady := by simp [State.preemptDone]

@[simp] theorem State.steady_beginChangeover (s : State) (p chosenP : Nat) : (s.beginChangeover p chosenP).steady = s.steady := by
  have drop (l : List Nat) (t : State) : (l.foldl (fun s i => s.dropTiles i) t).steady = t.steady :=
    State.steady_foldl (fun s i => s.steady_dropTiles i) l t
  have forget (l : List Nat) (t : State) : (l.foldl (fun s q => s.modSquare q (fun v => { v with snReady := [] })) t).steady = t.steady :=
    State.steady_foldl (fun s q => s.steady_modSquare q _) l t
  have finish (l : List Nat) (e : BitVec 16) (t : State) : (l.foldl (fun s i => (s.endDie p i e).clearFlags i) t).steady = t.steady :=
    State.steady_foldl (fun s i => by simp) l t
  unfold State.beginChangeover
  dsimp only
  rw [State.steady_modPart, State.steady_preemptDone, finish]
  simp only [State.steady_ite, State.steady_switchMaps, State.steady_loadStep, State.steady_unloadStep, State.steady_flushTranslations,
    State.steady_snapshot, State.steady_countMaint, State.steady_passLeaves, forget, drop, State.steady_settleStep, State.steady_modPart,
    State.steady_openChangeover, ite_self]

@[simp] theorem State.steady_setArrival (s : State) (p i : Nat) : (s.setArrival p i).steady = s.steady := by simp [State.setArrival]

@[simp] theorem State.steady_startTurns (s : State) (p : Nat) (tick : Word) : (s.startTurns p tick).steady = s.steady := by simp [State.startTurns]

@[simp] theorem State.steady_freePins (s : State) : s.freePins.steady = s.steady := by
  have hold (l : List Nat) (t : State) : (l.foldl (fun s i => s.modDie i (fun d => { d with inReset := true, playing := false })) t).steady =
      t.steady := State.steady_foldl (fun s i => s.steady_modDie i _) l t
  unfold State.freePins
  split
  · rfl
  dsimp only
  split
  · rfl
  · rw [State.steady_mk]
    refine (steadyOf_fields _).trans ((State.steady_alert _).trans ((State.steady_setFlag _ (by decide) ..).trans (hold _ _)))

@[simp] theorem State.steady_stopTurns (s : State) (p : Nat) : (s.stopTurns p).steady = s.steady := by simp [State.stopTurns]

@[simp] theorem State.steady_endTurns (s : State) (p : Nat) : (s.endTurns p).steady = s.steady := by simp [State.endTurns]

/-! Pool transfers (chapter 13) -/

@[simp] theorem State.steady_sendPool (s : State) (p a : Nat) (op : BitVec 8) (xid seq lines epoch : BitVec 16) (retry : Bool) (data : List Byte) :
    (s.sendPool p a op xid seq lines epoch retry data).steady = s.steady := by
  unfold State.sendPool
  split <;> simp

@[simp] theorem State.steady_takeXid (s : State) (p : Nat) : (s.takeXid p).1.steady = s.steady := by simp [State.takeXid]

@[simp] theorem State.steady_readFarPage (s : State) (p : Nat) (h : Handle) (page a : Nat) (epoch : BitVec 16) :
    (s.readFarPage p h page a epoch).steady = s.steady := by
  simp [State.readFarPage]

@[simp] theorem State.steady_writeFarPage (s : State) (p : Nat) (h : Handle) (page a : Nat) (epoch : BitVec 16) (lines : List (List Byte)) :
    (s.writeFarPage p h page a epoch lines).steady = s.steady := by
  simp [State.writeFarPage]

/-! Migration, tier moves and the context cache (chapters 10 and 11) -/

@[simp] theorem State.steady_takeFarPage (s : State) (p : Nat) : (s.takeFarPage p).1.steady = s.steady := by
  unfold State.takeFarPage
  dsimp only
  split <;> simp

@[simp] theorem State.steady_pageBytes (s : State) (a : Nat) : (s.pageBytes a).1.steady = s.steady := by
  have h := s.steady_computeRead a 65536 0
  unfold State.pageBytes
  split
  · split <;> simp_all
  · split <;> simp

@[simp] theorem State.steady_applyMigrate (s : State) (p : Nat) (c : Cmd) (h : Handle) (module : BitVec 16) (dest : BitVec 8) :
    (s.applyMigrate p c h module dest).steady = s.steady := by
  unfold State.applyMigrate
  dsimp only
  split
  · simp
  next f _ =>
    have hr := s.steady_makeResident p f
    split
    · simp
    · simp
    split
    · simp_all
    split
    · simp_all
    split
    · simp_all
    · simp_all

@[simp] theorem State.steady_migrated (s : State) (p : Nat) (x : Migration) (h : Handle) : (s.migrated p x h).steady = s.steady := by
  simp [State.migrated]

@[simp] theorem State.steady_settleArrivals (s : State) (p : Nat) : (s.settleArrivals p).steady = s.steady := by
  refine State.steady_foldl (fun s a => ?_) _ s
  dsimp only
  split
  · simp
  · split <;> simp

@[simp] theorem State.steady_settleFailed (s : State) (p : Nat) : (s.settleFailed p).steady = s.steady := by
  refine (State.steady_foldl (fun s h => ?_) _ _).trans (s.steady_modPart ..)
  dsimp only
  split
  · split <;> simp
  · rfl

@[simp] theorem State.steady_syncTiers (s : State) (p : Nat) (h : Handle) : (s.syncTiers p h).steady = s.steady := by
  unfold State.syncTiers
  split <;> simp

theorem State.steady_takeFarPage_of {s t : State} {p : Nat} {o : Option Nat} (e : s.takeFarPage p = (t, o)) : t.steady = s.steady := by
  rw [← s.steady_takeFarPage p, e]

@[simp] theorem State.steady_applyTier (s : State) (p : Nat) (c : Cmd) (h : Handle) (first pages : BitVec 32) (tier : BitVec 8) :
    (s.applyTier p c h first pages tier).steady = s.steady := by
  unfold State.applyTier
  dsimp only
  split
  · simp
  split
  · simp
  split
  · simp
  split
  · simp
  · refine State.steady_foldl (fun s x => ?_) _ s
    obtain ⟨page, leaf⟩ := x
    dsimp only
    rw [State.steady_modPart]
    split
    · split
      next e => simp [State.steady_takeFarPage_of e]
      next e => simp [State.steady_takeFarPage_of e]
    · split <;> simp

@[simp] theorem State.steady_relocatePage (s : State) (p old new tier : Nat) (moving : Word → Bool) :
    (s.relocatePage p old new tier moving).steady = s.steady := by
  simp [State.relocatePage]

@[simp] theorem State.steady_switchPage (s : State) (p : Nat) (t : TierMove) : (s.switchPage p t).steady = s.steady := by
  unfold State.switchPage
  repeat' split
  all_goals simp

@[simp] theorem State.steady_switchTiers (s : State) (p : Nat) : (s.switchTiers p).steady = s.steady := by
  unfold State.switchTiers
  refine (State.steady_foldl (fun s q => by simp) _ _).trans ((State.steady_foldl (fun s q => ?_) _ _).trans ?_)
  · dsimp only
    split
    · split
      · split <;> simp
      · rfl
    · simp
  · exact State.steady_foldl (fun s t => by simp) _ s

@[simp] theorem State.steady_applyQueued (s : State) (p : Nat) (q : Queued) (nodes : List Addr) : (s.applyQueued p q nodes).1.steady = s.steady := by
  unfold State.applyQueued
  split <;> simp

@[simp] theorem State.steady_applyOps (s : State) (p n : Nat) (nodes : List Addr) : (s.applyOps p n nodes).steady = s.steady := by
  induction n generalizing s nodes with
  | zero => rfl
  | succ n ih =>
    unfold State.applyOps
    split
    · rfl
    · dsimp only
      split
      · rfl
      · simp [ih]

@[simp] theorem State.steady_applyPublish (s : State) (p lines : Nat) (x : Publish) : (s.applyPublish p lines x).1.steady = s.steady := by
  unfold State.applyPublish
  dsimp only
  split <;> simp

@[simp] theorem State.steady_applyPublishes (s : State) (p lines : Nat) : (s.applyPublishes p lines).steady = s.steady := by
  simp [State.applyPublishes]

@[simp] theorem State.steady_applyStanding (s : State) (p : Nat) : (s.applyStanding p).steady = s.steady := by simp [State.applyStanding]

@[simp] theorem State.steady_restoreTails (s : State) (p : Nat) : (s.restoreTails p).steady = s.steady := by simp [State.restoreTails]

@[simp] theorem State.steady_contextWork (s : State) (p lines ops : Nat) (nodes : List Addr) :
    (s.contextWork p lines ops nodes).steady = s.steady := by
  simp [State.contextWork]

/-! The load of a book (R205, R376) -/

@[simp] theorem State.steady_sendSpanConfirm (s : State) (p : Nat) (b : Book) (heard : Nat) : (s.sendSpanConfirm p b heard).steady = s.steady :=
  State.steady_foldl (fun s x => by dsimp only; split <;> simp) _ s

@[simp] theorem State.steady_endLoad (s : State) (p : Nat) (st : Status) : (s.endLoad p st).steady = s.steady := by
  unfold State.endLoad
  split <;> simp

/-! A link that fails (chapter 8) -/

@[simp] theorem State.steady_failLink (s : State) (q d : Nat) : (s.failLink q d).steady = s.steady := by
  unfold State.failLink
  split <;> simp

/-! What the resets share (chapters 1, 12, 14, 15 and 16) -/

@[simp] theorem State.steady_writeView (s : State) (p : Nat) : (s.writeView p).steady = s.steady := by simp [State.writeView]

@[simp] theorem State.steady_applySite (s : State) (enables : Bool) (i : Nat) : (s.applySite enables i).steady = s.steady := by
  unfold State.applySite
  split <;> simp

@[simp] theorem State.steady_openIfDisabled (s : State) (i : Nat) : (s.openIfDisabled i).steady = s.steady := by simp [State.openIfDisabled]

@[simp] theorem State.steady_publishSam (s : State) (sites : List Nat) : (s.publishSam sites).steady = s.steady := by
  have site (on : Bool) (l : List Nat) (t : State) : (l.foldl (fun s i => s.applySite on i) t).steady = t.steady :=
    State.steady_foldl (fun s i => s.steady_applySite on i) l t
  have opens (l : List Nat) (t : State) : (l.foldl (fun s i => s.openIfDisabled i) t).steady = t.steady :=
    State.steady_foldl (fun s i => s.steady_openIfDisabled i) l t
  have counted (t : State) (c : Prop) [Decidable c] :
      (if c then t else { t with flash := { t.flash with samGen := t.flash.samGen + 1 } }).steady = t.steady := by
    split <;> rfl
  unfold State.publishSam
  dsimp only
  rw [State.steady_setReg _ (by decide), opens, counted]
  simp [site]

@[simp] theorem State.steady_selfTest (s : State) (i : Nat) (cells : List (Nat × Nat)) : (s.selfTest i cells).steady = s.steady := by
  unfold State.selfTest
  dsimp only
  split
  · simp
  · exact (State.steady_foldl (fun s r => by split <;> simp) _ _).trans (s.steady_modDie ..)

@[simp] theorem State.steady_writeVsteps (s : State) (regions : List Nat) (found : List (Nat × BitVec 64)) :
    (s.writeVsteps regions found).steady = s.steady :=
  State.steady_foldl (fun s r => by split <;> simp) _ s

@[simp] theorem State.steady_holdDie (s : State) (i : Nat) : (s.holdDie i).steady = s.steady := by simp [State.holdDie]

@[simp] theorem State.steady_calibrateHost (s : State) (h : Nat) (found : TestFindings) : (s.calibrateHost h found).steady = s.steady := by
  unfold State.calibrateHost
  split
  · dsimp only
    rw [State.steady_event7F]
    exact (State.steady_barred ..).trans ((State.steady_setField _ (by decide) ..).trans (State.steady_setFlag _ (by decide) ..))
  · simp

@[simp] theorem State.steady_calibrateStack (s : State) (k : Nat) (found : TestFindings) : (s.calibrateStack k found).steady = s.steady := by
  simp [State.calibrateStack]

@[simp] theorem State.steady_countQuads (s : State) : s.countQuads.steady = s.steady := by simp [State.countQuads]

@[simp] theorem State.steady_vacateQuad (s : State) (n : Nat) (sev : Severity) : (s.vacateQuad n sev).steady = s.steady := by simp [State.vacateQuad]

@[simp] theorem State.steady_vacateEngine (s : State) (e : Nat) : (s.vacateEngine e).steady = s.steady := by simp [State.vacateEngine]

@[simp] theorem State.steady_calibrateEngine (s : State) (e : Nat) (found : TestFindings) : (s.calibrateEngine e found).steady = s.steady := by
  simp [State.calibrateEngine]

@[simp] theorem State.steady_calibrateParts (s : State) (dram hosts engines : List Nat) (found : TestFindings) :
    (s.calibrateParts dram hosts engines found).steady = s.steady := by
  simp [State.calibrateParts]

@[simp] theorem State.steady_degradeStack (s : State) (k : Nat) (sev : Severity) : (s.degradeStack k sev).steady = s.steady := by
  simp [State.degradeStack]

@[simp] theorem State.steady_clearLinks (s : State) (squares : List Nat) (q : Nat) : (s.clearLinks squares q).steady = s.steady := by
  refine State.steady_foldl (fun s d => ?_) _ s
  split
  · split <;> simp
  · rfl

@[simp] theorem State.steady_testLinks (s : State) (squares : List Nat) (found : TestFindings) : (s.testLinks squares found).steady = s.steady := by
  unfold State.testLinks
  refine (State.steady_foldl (fun s e => by simp) _ _).trans ((State.steady_foldl (fun s k => by simp) _ _).trans
    ((State.steady_foldl (fun s x => ?_) _ _).trans (State.steady_foldl (fun s q => by simp) _ s)))
  dsimp only
  split
  · simp
  · split <;> simp

@[simp] theorem State.steady_resetDie (s : State) (i : Nat) : (s.resetDie i).steady = s.steady := by
  unfold State.resetDie
  dsimp only
  split <;> simp

@[simp] theorem State.steady_stopHost (s : State) (h : Nat) : (s.stopHost h).steady = s.steady := by
  have cores (l : List Nat) (t : State) : (l.foldl (fun s c =>
      (s.setReg .hdMpriv (32 * h + c) 0 0).setReg .hdMtimecmp (32 * h + c) 0 (BitVec.allOnes 64)) t).steady = t.steady :=
    State.steady_foldl (fun s c => by simp) l t
  unfold State.stopHost
  dsimp only
  rw [State.steady_setHost, cores, State.steady_setReg _ (by decide), State.steady_setField _ (by decide)]
  exact (State.steady_hartBlocks ..).trans (State.steady_bump _ (by decide) ..)

@[simp] theorem State.steady_releaseHost (s : State) (p h : Nat) : (s.releaseHost p h).1.steady = s.steady := by
  unfold State.releaseHost
  dsimp only
  repeat' split
  all_goals simp

@[simp] theorem State.steady_setRing0 (s : State) (p : Nat) : (s.setRing0 p).steady = s.steady := by simp [State.setRing0]

@[simp] theorem State.steady_finishTurn (s : State) (p cause : Nat) : (s.finishTurn p cause).steady = s.steady := by
  unfold State.finishTurn
  dsimp only
  split <;> simp

/-! The reset of a partition (R444) -/

@[simp] theorem State.steady_busyCommands (s : State) (p : Nat) : (s.busyCommands p).steady = s.steady := by simp [State.busyCommands]

@[simp] theorem State.steady_endHalts (s : State) (p : Nat) : (s.endHalts p).steady = s.steady := by simp [State.endHalts]

@[simp] theorem State.steady_reloadBook (s : State) (p : Nat) (c : Cmd) : (s.reloadBook p c).1.steady = s.steady := by
  unfold State.reloadBook
  repeat' split
  all_goals simp

@[simp] theorem State.steady_tellAbort (s : State) (p : Nat) : (s.tellAbort p).steady = s.steady := by
  unfold State.tellAbort
  split <;> simp

/-! Commands that a restart forgets (R246) -/

@[simp] theorem State.steady_dropQueued (s : State) (p : Nat) (c : Cmd) : (s.dropQueued p c).steady = s.steady := by simp [State.dropQueued]

@[simp] theorem State.steady_dropRetrain (s : State) (c : Cmd) (n : Nat) : (s.dropRetrain c n).steady = s.steady := by simp [State.dropRetrain]

@[simp] theorem State.steady_forgetCommand (s : State) (c : Cmd) : (s.forgetCommand c).steady = s.steady := by simp [State.forgetCommand]

end Sys2Proof.Machine
end

section
/-! SUPPORT. The reset of a partition, the reports numbered and drained and the journal replayed at the end of a warm restart (R244, R246, R444):
what they leave of what shows that Tolerabor runs. -/

namespace Sys2Proof.Machine

theorem State.awake_of_steady {s t : State} (h : t.steady = s.steady) : t.awake = s.awake := congrArg (fun x => x.2.2) h

theorem State.awake_of_up {s : State} (h : s.up = true) : s.awake = (s.reg .refStatus, some (s.recorder.intake, s.referee.held)) := by
  rw [State.awake, if_pos h]

theorem State.awake_setReg (s : State) {n : RegName} (h : n ≠ .refStatus) (i j : Nat) (v : Word) : (s.setReg n i j v).awake = s.awake := by
  simp [State.awake, State.up, State.flag, h]
  rfl

theorem State.awake_foldl {α : Type} {f : State → α → State} (h : ∀ s a, (f s a).awake = s.awake) (l : List α) (s : State) :
    (l.foldl f s).awake = s.awake := by
  induction l generalizing s with
  | nil => rfl
  | cons a l ih => exact (ih _).trans (h s a)

theorem State.awake_ite {c : Prop} [Decidable c] {s t u : State} (ht : t.awake = s.awake) (hu : u.awake = s.awake) :
    (if c then t else u).awake = s.awake := by
  split <;> assumption

theorem State.awake_fencePartition (s : State) (p cause : Nat) : (s.fencePartition p cause).awake = s.awake :=
  State.awake_ite rfl ((State.awake_setReg _ (by decide) ..).trans ((State.awake_setReg _ (by decide) ..).trans
    ((State.awake_setReg _ (by decide) ..).trans (State.awake_setReg _ (by decide) ..))))

theorem State.awake_calibrateDie (s : State) (i : Nat) (found : TestFindings) : (s.calibrateDie i found).awake = s.awake :=
  (State.awake_ite (State.awake_of_steady (State.steady_holdDie ..)) (State.awake_setReg _ (by decide) ..)).trans
    (State.awake_setReg _ (by decide) ..)

theorem State.awake_unfence (s : State) (p : Nat) : (s.unfence p).awake = s.awake :=
  State.awake_ite (s.awake_fencePartition p 0) ((State.awake_setReg _ (by decide) ..).trans (State.awake_setReg _ (by decide) ..))

theorem State.awake_liftHosts (l : List Nat) (p : Nat) (s : State) : (l.foldl (fun s h =>
    if hostRegion h ∈ s.power.held then s
    else (((s.setFlag .hdStatus h 0 3 false).setFlag .ptHostsFenced p 0 h false).setFlag .sfClk (hostSquare h) 0 1 false)) s).awake = s.awake :=
  State.awake_foldl (fun _ _ => State.awake_ite rfl ((State.awake_setReg _ (by decide) ..).trans ((State.awake_setReg _ (by decide) ..).trans
    (State.awake_setReg _ (by decide) ..)))) l s

theorem State.awake_liftFences (s : State) (p : Nat) (full : Bool) (found : TestFindings) : (s.liftFences p full found).awake = s.awake := by
  have out (l : List Nat) (t : State) : (l.foldl (fun s i => s.setSiteOut i false) t).awake = t.awake :=
    State.awake_of_steady (State.steady_foldl (fun s i => s.steady_setSiteOut i false) l t)
  have lift (l : List Nat) (t : State) : (l.foldl (fun (s : State) r => if r ∈ s.power.held then s.liftRegion r else s) t).awake = t.awake :=
    State.awake_foldl (fun s r => State.awake_ite (State.awake_of_steady (s.steady_liftRegion r)) rfl) l t
  have clear (l : List Nat) (t : State) : (l.foldl (fun s r => (s.setFlag .pwRgnStatus r 0 2 false).setFlag .pwRgnStatus r 0 3 false) t).awake =
      t.awake := State.awake_foldl (fun _ _ => (State.awake_setReg _ (by decide) ..).trans (State.awake_setReg _ (by decide) ..)) l t
  have peers (l : List Nat) (t : State) : (l.foldl (fun s n =>
      let v := s.reg .ptPeer p n
      if bitAt v 63 ∧ s.knocksFrom (BitVec.ofNat 13 (bitsAt v 0 13)) = true then s.setReg .ptPeer p n 0 else s) t).awake = t.awake :=
    State.awake_foldl (fun _ _ => State.awake_ite (State.awake_setReg _ (by decide) ..) rfl) l t
  refine (peers _ _).trans ?_
  split
  · exact out _ s
  · exact (State.awake_liftHosts ..).trans ((clear ..).trans ((State.awake_setReg _ (by decide) ..).trans ((lift ..).trans (out _ s))))

theorem State.awake_resetDies (s : State) (p : Nat) (full : Bool) (found : TestFindings) : (s.resetDies p full found).awake = s.awake := by
  have flush (l : List Nat) (t : State) : ((l.foldl (fun s q => s.flushSlice q) t).flushHsc p).awake = t.awake :=
    State.awake_of_steady ((State.steady_flushHsc ..).trans (State.steady_foldl (fun s q => s.steady_flushSlice q) l t))
  have reset (l : List Nat) (t : State) : (l.foldl (fun s i => s.resetDie i) t).awake = t.awake :=
    State.awake_of_steady (State.steady_foldl (fun s i => s.steady_resetDie i) l t)
  have calibrate (l : List Nat) (t : State) : (l.foldl (fun s i => if decide (siteRegion i ∈ s.power.held) then
      (s.modDie i (fun d => { d with powered := false, inReset := true, fenced := true })) else s.calibrateDie i found) t).awake = t.awake :=
    State.awake_foldl (fun s i => State.awake_ite (State.awake_of_steady (s.steady_modDie i _)) (s.awake_calibrateDie i found)) l t
  have test (l : List Nat) (t : State) : (l.foldl (fun s i => s.selfTest i (cellsAt found i)) t).awake = t.awake :=
    State.awake_of_steady (State.steady_foldl (fun s i => s.steady_selfTest i _) l t)
  have power (l : List Nat) (t : State) : ((l.foldl (fun s i => s.modDie i (fun d =>
      let on := s.siteEnabled i && !decide (siteRegion i ∈ s.power.held)
      { d with powered := on, inReset := !on || s.siteOut i })) t).writeOcLimits).awake = t.awake :=
    State.awake_of_steady ((State.steady_writeOcLimits ..).trans (State.steady_foldl (fun s i => s.steady_modDie i _) l t))
  refine (power ..).trans ((State.awake_of_steady (State.steady_writeView ..)).trans ((State.awake_of_steady (State.steady_publishSam ..)).trans
    ((State.awake_of_steady (State.steady_writeVsteps ..)).trans ((test ..).trans ?_))))
  split
  · refine (State.awake_of_steady ((State.steady_testLinks ..).trans (State.steady_calibrateParts ..))).trans ((calibrate ..).trans
      ((State.awake_liftFences ..).trans ((reset ..).trans (flush _ s))))
  · exact (calibrate ..).trans ((State.awake_liftFences ..).trans (reset _ s))

theorem State.awake_partitionReset (s : State) (p : Nat) (c : Cmd) (full : Bool) (found : TestFindings) :
    (s.partitionReset p c full found).awake = s.awake := by
  have stop (l : List Nat) (t : State) : (l.foldl (fun s h => s.stopHost h) t).steady = t.steady :=
    State.steady_foldl (fun s h => s.steady_stopHost h) l t
  have release (l : List Nat) (t : State) : (l.foldl (fun s h => (s.releaseHost p h).1) t).steady = t.steady :=
    State.steady_foldl (fun s h => s.steady_releaseHost p h) l t
  have before (t : State) (c : Prop) [Decidable c] (l : List Nat) :
      (State.finishTurn (if c then l.foldl (fun s h => s.stopHost h) t else t) p abortReset).awake =
      t.awake := State.awake_of_steady (by rw [State.steady_finishTurn, State.steady_ite, stop, ite_self])
  have after (t : State) (b c : Prop) [Decidable b] [Decidable c] (l : List Nat) (n : Word) (f : Part → Part) :
      (let u := if b then t.startTurns p n else t
       if c then l.foldl (fun s h => (s.releaseHost p h).1) ((u.setRing0 p).modPart p f) else u).steady = t.steady := by
    simp [release]
  have final (o : Option Status) (t u : State) (h : t.awake = u.awake) : (match o with
      | some .ok => if t.zeroingIn p then t.completeZeroed p c 0x0202 (t.turn p) else t.completeReset p c .ok (some (t.turn p))
      | some x => t.completeReset p c x (some (t.turn p))
      | none => t).awake = u.awake := by
    refine Eq.trans ?_ h
    split
    · exact State.awake_ite (State.awake_of_steady (State.steady_completeZeroed ..)) (State.awake_of_steady (State.steady_completeReset ..))
    · exact State.awake_of_steady (State.steady_completeReset ..)
    · rfl
  refine final _ _ _ ((State.awake_of_steady (after ..)).trans ((State.awake_of_steady (State.steady_reloadBook ..)).trans
    ((State.awake_unfence ..).trans ((State.awake_resetDies ..).trans ((before ..).trans (State.awake_of_steady ?_))))))
  simp

theorem State.awake_rerunReset (s : State) (p : Nat) : (s.rerunReset p).awake = s.awake := by
  unfold State.rerunReset
  split
  · rfl
  · exact State.awake_ite (State.awake_partitionReset ..) rfl

@[simp] theorem State.steady_numberKept (s : State) : s.numberKept.steady = s.steady := by
  unfold State.numberKept
  dsimp only
  refine (State.steady_foldl (fun s i => ?_) _ _).trans (s.steady_modRecorder fun _ => rfl)
  split
  · rfl
  · exact (State.steady_modRecorder _ fun _ => rfl).trans (s.steady_numberRecord _)

/-- Where Tolerabor runs, nothing waits at intake once it has been drained. -/
theorem State.awake_drainIntake {s : State} (h : s.up = true) : s.drainIntake.awake = (s.reg .refStatus, some ([], s.referee.held)) := by
  unfold State.drainIntake
  rw [State.awake_of_steady (State.steady_foldl (fun s r => s.steady_record r) _ _)]
  have hup : (s.modRecorder (fun x => { x with intake := [] })).up = true := by simpa [State.up, State.flag] using h
  rw [State.awake_of_up hup, State.reg_modRecorder]
  rfl

/-- Where Tolerabor runs, no completion waits once the journal has been replayed. -/
theorem State.awake_replayJournal {s : State} (h : s.up = true) : s.replayJournal.awake = (s.reg .refStatus, some (s.recorder.intake, [])) := by
  have give (l : List HeldCompletion) (t : State) : (l.foldl (fun s (c, o, st, turn, result) =>
      s.completeNow c o ((Status.ofCode st.toNat).getD .ok) false turn result) t).steady = t.steady :=
    State.steady_foldl (fun s x => s.steady_completeNow ..) l t
  have refuse (l : List JournalEntry) (t : State) : (l.foldl (fun s e =>
      (s.forgetCommand e.cmd).completeNow e.cmd e.opcode .busy true none []) t).steady = t.steady :=
    State.steady_foldl (fun s e => (State.steady_completeNow ..).trans (s.steady_forgetCommand _)) l t
  exact (State.awake_of_steady ((refuse ..).trans (give ..))).trans (State.awake_of_up h)

end Sys2Proof.Machine
end

section
/-! SUPPORT. The Referee's own failures (R242 to R247): what the begin and the end of a warm restart leave; clock monitors and shadow comparators
(R412, R418). -/

namespace Sys2Proof.Machine

/-! The begin of a warm restart -/

/-- From s to t the account that Tolerabor keeps of a restart stands, and so does ALERT_N where it is asserted. -/
structure Stands (s t : State) : Prop where
  status : t.reg .refStatus = s.reg .refStatus
  last : t.reg .refLastRestart = s.reg .refLastRestart
  count : t.reg .refRestarts = s.reg .refRestarts
  clock : t.clock = s.clock
  referee : t.referee = s.referee
  heartbeat : t.pins.heartbeat = s.pins.heartbeat
  alert : s.pins.alertN = false → t.pins.alertN = false

theorem Stands.refl (s : State) : Stands s s := ⟨rfl, rfl, rfl, rfl, rfl, rfl, id⟩

theorem Stands.trans {s t u : State} (h : Stands s t) (k : Stands t u) : Stands s u :=
  ⟨k.status.trans h.status, k.last.trans h.last, k.count.trans h.count, k.clock.trans h.clock, k.referee.trans h.referee,
    k.heartbeat.trans h.heartbeat, k.alert ∘ h.alert⟩

theorem Stands.foldl {α : Type} {f : State → α → State} (h : ∀ s a, Stands s (f s a)) (l : List α) (s : State) : Stands s (l.foldl f s) := by
  induction l generalizing s with
  | nil => exact Stands.refl s
  | cons a l ih => exact (h s a).trans (ih _)

theorem Stands.setReg (s : State) {n : RegName} (h : n ∉ [RegName.refStatus, .refLastRestart, .refRestarts]) (i j : Nat) (v : Word) :
    Stands s (s.setReg n i j v) := by
  simp only [List.mem_cons, List.not_mem_nil, or_false, not_or] at h
  obtain ⟨hstatus, hlast, hcount⟩ := h
  refine ⟨?_, ?_, ?_, rfl, rfl, rfl, id⟩ <;> simp [*]

theorem Stands.modPart (s : State) (p : Nat) (f : Part → Part) : Stands s (s.modPart p f) := ⟨rfl, rfl, rfl, rfl, rfl, rfl, id⟩

theorem Stands.modDie (s : State) (i : Nat) (f : Die → Die) : Stands s (s.modDie i f) := ⟨rfl, rfl, rfl, rfl, rfl, rfl, id⟩

theorem Stands.setJtag (s : State) (j : Jtag) : Stands s { s with jtag := j } := ⟨rfl, rfl, rfl, rfl, rfl, rfl, id⟩

theorem Stands.alertOn (s : State) : Stands s s.alert := ⟨rfl, rfl, rfl, rfl, rfl, rfl, fun _ => rfl⟩

theorem Stands.freePins (s : State) : Stands s s.freePins := by
  unfold State.freePins
  split
  · exact Stands.refl s
  dsimp only
  split
  · exact Stands.refl s
  · exact (Stands.foldl (fun s i => Stands.modDie s i _) _ s).trans ((Stands.setReg _ (by decide) ..).trans
      ((Stands.alertOn _).trans (Stands.setJtag ..)))

theorem Stands.stopTurns (s : State) (p : Nat) : Stands s (s.stopTurns p) :=
  (Stands.foldl (fun s q => Stands.setReg s (by decide) ..) _ s).trans ((Stands.setReg _ (by decide) ..).trans
    ((Stands.modPart ..).trans (Stands.freePins _)))

theorem Stands.holdReset (s : State) (p : Nat) : Stands s (s.holdReset p) := by
  unfold State.holdReset
  split
  · exact Stands.refl s
  · exact (Stands.stopTurns s p).trans ((Stands.modPart ..).trans (Stands.foldl (fun s i => Stands.modDie s i _) _ _))

theorem Recorded.hardwareSafety (s : State) (r : Report) : Recorded s (s.hardwareSafety r) :=
  (Recorded.accept ..).ite (((Recorded.keepRecord ..).trans (Recorded.modRecorder ..)).ite (Recorded.modRecorder ..))

/-- The account of a restart, as a restart that begins at s leaves it at t. -/
structure Restarted (s t : State) (cause : Nat) : Prop where
  down : t.up = false
  heartbeat : t.pins.heartbeat = false
  alert : t.pins.alertN = false
  last : t.field .refLastRestart 0 0 60 4 = cause
  count : t.reg .refRestarts = (s.reg .refRestarts + 1) &&& RegName.refRestarts.info.defined

/-- The restart as it begins, before the resets that it interrupts are held. -/
def State.beginRestart (s : State) (cause : Nat) : State :=
  let s := ((s.setFlag .refStatus 0 0 1 false).setFlag .refStatus 0 0 2 true).alert
  let s := { s with
    pins := { s.pins with heartbeat := false }
    referee := { s.referee with restartTicks := s.referee.restartTicks ++ [s.now], wdogWritten := false } }
  let s := s.setReg .refLastRestart 0 0 (BitVec.ofNat 64 (cause % 16 * 2 ^ 60 + s.now.toNat % 2 ^ 60))
  s.bump .refRestarts

/-- The restart once the resets that it interrupts are held. -/
def State.heldRestart (s : State) (cause : Nat) : State :=
  (s.beginRestart cause).formedParts.foldl (fun s p => s.holdReset p) (s.beginRestart cause)

/-- The third restart loses the Referee. -/
def State.loseReferee (s : State) : State :=
  let t := (s.setFlag .refStatus 0 0 2 false).setFlag .refStatus 0 0 3 true
  t.formedParts.foldl (fun s p => s.modPart p (fun v => { v with stopNext := true })) t

theorem State.startRestart_eq (s : State) (cause : Nat) :
    s.startRestart cause = if (s.heldRestart cause).thirdRestart then (s.heldRestart cause).loseReferee else s.heldRestart cause := rfl

theorem Stands.heldRestart (s : State) (cause : Nat) : Stands (s.beginRestart cause) (s.heldRestart cause) :=
  Stands.foldl (fun s p => Stands.holdReset s p) _ _

theorem Stands.loseReferee (s : State) : Stands ((s.setFlag .refStatus 0 0 2 false).setFlag .refStatus 0 0 3 true) s.loseReferee :=
  Stands.foldl (fun s p => Stands.modPart s p _) _ _

/-- The registers of a restart that begins. -/
theorem State.reg_beginRestart (s : State) (cause : Nat) (n : RegName) (i j : Nat) : (s.beginRestart cause).reg n i j =
    ((((s.setFlag .refStatus 0 0 1 false).setFlag .refStatus 0 0 2 true).setReg .refLastRestart 0 0
      (BitVec.ofNat 64 (cause % 16 * 2 ^ 60 + s.now.toNat % 2 ^ 60))).bump .refRestarts).reg n i j :=
  State.reg_of_regs rfl n i j

theorem State.coresRun_iff {s : State} : s.coresRun = true ↔ s.flag .refStatus 0 0 2 = false ∧ s.flag .refStatus 0 0 3 = false := by
  simp [State.coresRun]

theorem bitsAt_restart {cause : Nat} (h : cause < 16) (n : Nat) : bitsAt (BitVec.ofNat 64 (cause % 16 * 2 ^ 60 + n % 2 ^ 60)) 60 4 = cause := by
  have hn : n % 2 ^ 60 < 2 ^ 60 := Nat.mod_lt _ (by decide)
  rw [bitsAt, BitVec.toNat_ofNat]
  omega

section
variable (s : State) (cause : Nat)

theorem State.up_beginRestart : (s.beginRestart cause).flag .refStatus 0 0 1 = false := by
  simp [State.flag, State.reg_beginRestart]

theorem State.restarting_beginRestart : (s.beginRestart cause).flag .refStatus 0 0 2 = true := by
  simp [State.flag, State.reg_beginRestart]

theorem State.lost_beginRestart : (s.beginRestart cause).flag .refStatus 0 0 3 = s.flag .refStatus 0 0 3 := by
  simp [State.flag, State.reg_beginRestart]

theorem State.last_beginRestart (hc : cause < 16) : (s.beginRestart cause).field .refLastRestart 0 0 60 4 = cause := by
  rw [State.field, State.reg_beginRestart, State.reg_bump, if_neg (by simp), State.reg_setReg, if_pos ⟨rfl, rfl, rfl⟩, bitsAt_restart hc]

theorem State.count_beginRestart :
    (s.beginRestart cause).reg .refRestarts = (s.reg .refRestarts + 1) &&& RegName.refRestarts.info.defined := by
  rw [State.reg_beginRestart, State.reg_bump, if_pos ⟨rfl, rfl, rfl⟩]
  simp

end

theorem State.thirdRestart_congr {s t : State} (hclock : t.clock = s.clock) (href : t.referee = s.referee) : t.thirdRestart = s.thirdRestart := by
  rw [State.thirdRestart, State.thirdRestart, State.now, State.now, hclock, href]

theorem Restarted.of_recorded {s t u : State} {cause : Nat} (h : Restarted s t cause) (k : Recorded t u) : Restarted s u cause := by
  refine ⟨?_, ?_, ?_, ?_, ?_⟩
  · rw [State.up, State.flag, k.reg .refStatus 0 0 rfl]
    exact h.down
  · rw [k.pins, h.heartbeat]
  · rw [k.pins, h.alert]
  · rw [State.field, k.reg .refLastRestart 0 0 rfl]
    exact h.last
  · rw [k.reg .refRestarts 0 0 rfl, h.count]

theorem Restarted.heldRestart (s : State) {cause : Nat} (hc : cause < 16) : Restarted s (s.heldRestart cause) cause := by
  have k := Stands.heldRestart s cause
  refine ⟨?_, k.heartbeat, k.alert rfl, ?_, k.count.trans (s.count_beginRestart cause)⟩
  · rw [State.up, State.flag, k.status]
    exact s.up_beginRestart cause
  · rw [State.field, k.last]
    exact s.last_beginRestart cause hc

/-- Where the Referee is lost, the account of the restart stands. -/
theorem Restarted.loseReferee {s t : State} {cause : Nat} (h : Restarted s t cause) : Restarted s t.loseReferee cause := by
  have k := Stands.loseReferee t
  have hreg {n : RegName} (hn : n ≠ .refStatus) : ((t.setFlag .refStatus 0 0 2 false).setFlag .refStatus 0 0 3 true).reg n = t.reg n := by
    simp [Ne.symm hn]
  refine ⟨?_, k.heartbeat.trans h.heartbeat, k.alert h.alert, ?_, ?_⟩
  · rw [State.up, State.flag, k.status]
    simpa [State.up, State.flag] using h.down
  · rw [State.field, k.last, hreg (by decide)]
    exact h.last
  · rw [k.count, hreg (by decide), h.count]

theorem Restarted.startRestart (s : State) {cause : Nat} (hc : cause < 16) : Restarted s (s.startRestart cause) cause := by
  have h := Restarted.heldRestart s hc
  rw [State.startRestart_eq]
  split
  · exact h.loseReferee
  · exact h

theorem State.status_loseReferee (t : State) : t.loseReferee.thirdRestart = t.thirdRestart ∧ t.loseReferee.flag .refStatus 0 0 3 = true ∧
    t.loseReferee.flag .refStatus 0 0 2 = false := by
  have k := Stands.loseReferee t
  refine ⟨State.thirdRestart_congr k.clock k.referee, ?_, ?_⟩
  · rw [State.flag, k.status]
    simp
  · rw [State.flag, k.status]
    simp

/-- The third restart within the limit loses the Referee; any other restarts it. -/
theorem State.status_startRestart {s : State} (hrun : s.coresRun = true) (cause : Nat) :
    (s.startRestart cause).flag .refStatus 0 0 3 = (s.startRestart cause).thirdRestart ∧
      (s.startRestart cause).flag .refStatus 0 0 2 = !(s.startRestart cause).thirdRestart := by
  obtain ⟨-, hlost⟩ := State.coresRun_iff.1 hrun
  rw [State.startRestart_eq]
  split
  next h =>
    obtain ⟨hthird, hflag, hclear⟩ := (s.heldRestart cause).status_loseReferee
    rw [hthird, h, hflag, hclear]
    exact ⟨rfl, rfl⟩
  next h =>
    have k := Stands.heldRestart s cause
    rw [Bool.eq_false_of_not_eq_true h, State.flag, State.flag, k.status]
    exact ⟨(s.lost_beginRestart cause).trans hlost, s.restarting_beginRestart cause⟩

/-- A lockstep difference or a hang: the restart begins, and hardware records it. -/
theorem State.restart_outcome {s : State} (hrun : s.coresRun = true) {cause : Nat} (hc : cause < 16) (r : Report) :
    let t := (s.startRestart cause).hardwareSafety r
    t.up = false ∧ t.pins.heartbeat = false ∧ t.pins.alertN = false ∧ t.field .refLastRestart 0 0 60 4 = cause ∧
      t.reg .refRestarts = (s.reg .refRestarts + 1) &&& RegName.refRestarts.info.defined ∧
      (s.startRestart cause).thirdRestart = t.flag .refStatus 0 0 3 ∧ t.flag .refStatus 0 0 2 = !t.flag .refStatus 0 0 3 := by
  have hrec := Recorded.hardwareSafety (s.startRestart cause) r
  have h := (Restarted.startRestart s hc).of_recorded hrec
  obtain ⟨hlost, hrestarting⟩ := State.status_startRestart hrun cause
  have hstatus (b : Nat) : ((s.startRestart cause).hardwareSafety r).flag .refStatus 0 0 b = (s.startRestart cause).flag .refStatus 0 0 b :=
    congrArg (bitAt · b) (hrec.reg .refStatus 0 0 rfl)
  exact ⟨h.down, h.heartbeat, h.alert, h.last, h.count, by rw [hstatus, hlost], by rw [hstatus, hstatus, hlost, hrestarting]⟩

/-! The end of a warm restart -/

@[simp] theorem State.steady_rewriteGlobals (s : State) : s.rewriteGlobals.steady = s.steady := by
  refine State.steady_foldl_mem globalShadowed (fun s x hx => ?_) s
  have hn : ∀ x ∈ globalShadowed, x.1 ∉ steadyRegs := by decide
  exact State.steady_foldl (fun s j => s.steady_setReg (hn x hx) ..) _ s

@[simp] theorem State.steady_watchdog (s : State) (v : Word) : (s.watchdog v).steady = s.steady := by
  unfold State.watchdog
  dsimp only
  split
  · rfl
  · exact (State.steady_setReg s (n := .refWdog) (by decide) 0 0 v)

@[simp] theorem State.steady_releaseAlert (s : State) : s.releaseAlert.steady = s.steady := by
  unfold State.releaseAlert
  split <;> rfl

theorem State.of_awake {t : State} {r : Word} {l : List Report} {m : List HeldCompletion}
    (h : t.awake = (r, some (l, m))) : t.reg .refStatus = r ∧ t.up = true ∧ t.recorder.intake = l ∧ t.referee.held = m := by
  simp only [State.awake, Prod.mk.injEq] at h
  obtain ⟨hreg, hshow⟩ := h
  split at hshow
  next hup => exact ⟨hreg, hup, by simpa using hshow⟩
  · cases hshow

/-- Tolerabor once it runs again, before it takes up what waits. -/
def State.restarted (s : State) : State :=
  let t := (s.setFlag .refStatus 0 0 2 false).setFlag .refStatus 0 0 1 true
  (t.rewriteGlobals.watchdog (t.reg .refWdog)).releaseAlert.numberKept

theorem State.status_restarted (s : State) :
    s.restarted.reg .refStatus = putBit (putBit (s.reg .refStatus) 2 false) 1 true ∧ s.restarted.up = true := by
  have h : s.restarted.awake = ((s.setFlag .refStatus 0 0 2 false).setFlag .refStatus 0 0 1 true).awake :=
    State.awake_of_steady (by simp [State.restarted])
  rw [State.awake_of_up (by simp [State.up, State.flag] : ((s.setFlag .refStatus 0 0 2 false).setFlag .refStatus 0 0 1 true).up = true)] at h
  obtain ⟨hreg, hup, -⟩ := State.of_awake h
  exact ⟨by simpa using hreg, hup⟩

theorem execWarmRestartComplete_of_boots {s : State} (h : s.flag .refStatus 0 0 2 = true) (hboot : s.flash.boots s.referee.runningB = true) :
    exec .warmRestartComplete s =
      .next (s.restarted.drainIntake.replayJournal.formedParts.foldl (fun s p => s.rerunReset p) s.restarted.drainIntake.replayJournal) :=
  congrArg Host.Outcome.next (if_neg (by simp [h, hboot]))

theorem State.awake_of_restarted (s : State) (l : List Nat) :
    (l.foldl (fun s p => s.rerunReset p) s.restarted.drainIntake.replayJournal).awake = (s.restarted.reg .refStatus, some ([], [])) := by
  obtain ⟨-, hup⟩ := s.status_restarted
  obtain ⟨hreg, hup', hintake, -⟩ := State.of_awake (State.awake_drainIntake hup)
  rw [State.awake_foldl (fun s p => s.awake_rerunReset p), State.awake_replayJournal hup', hreg, hintake]

theorem warmRestartComplete_outcome {s : State} (h : s.flag .refStatus 0 0 2 = true) (hboot : s.flash.boots s.referee.runningB = true) :
    ∃ t : State, exec .warmRestartComplete s = .next t ∧ t.up = true ∧ t.flag .refStatus 0 0 2 = false ∧ t.recorder.intake = [] ∧
      t.referee.held = [] := by
  obtain ⟨hreg, hup, hintake, hheld⟩ := State.of_awake (s.awake_of_restarted s.restarted.drainIntake.replayJournal.formedParts)
  refine ⟨_, execWarmRestartComplete_of_boots h hboot, hup, ?_, hintake, hheld⟩
  rw [State.flag, hreg, s.status_restarted.1]
  simp

/-! Clock monitors -/

@[simp] theorem State.steady_fenceDie (s : State) (i : Nat) : (s.fenceDie i).steady = s.steady := by
  simp [State.fenceDie]

theorem State.die_fenceDie (s : State) (i : Nat) : ((s.fenceDie i).die i).fenced = true ∧ ((s.fenceDie i).die i).inReset = true := by
  simp [State.fenceDie, State.die_of_dies (State.setSiteOut_dies ..)]

theorem State.reg_of_steady {s t : State} (h : t.steady = s.steady) (p : Nat) :
    t.reg .ptStatus p = s.reg .ptStatus p ∧ t.reg .sfClk p = s.reg .sfClk p := by
  simp only [State.steady, Prod.mk.injEq] at h
  exact ⟨congrFun h.1 p, congrFun h.2.1 p⟩

section
variable {s : State} {p : Nat} (cause : Nat)

/-- The fence of a partition that is formed and not fenced, up to the register of the last fence. -/
theorem State.reg_fencePartition (hformed : s.formed p = true) (hfence : s.partFenced p = false) {n : RegName} (hn : n ≠ .ptLastFence) (i j : Nat) :
    (s.fencePartition p cause).reg n i j = (((s.setFlag .ptStatus p 0 2 true).setField .ptStatus p 0 12 4 cause).bump .ptFences p).reg n i j := by
  have heq : s.fencePartition p cause =
      let t := ((s.setFlag .ptStatus p 0 2 true).setField .ptStatus p 0 12 4 cause).bump .ptFences p
      t.setReg .ptLastFence p 0 (BitVec.ofNat 64 (cause * 2 ^ 60 + t.now.toNat % 2 ^ 60)) := if_neg (by simp [hformed, hfence])
  rw [heq]
  exact (State.reg_setReg ..).trans (if_neg fun e => hn e.1.symm)

theorem State.partFenced_fencePartition (hformed : s.formed p = true) (hfence : s.partFenced p = false) :
    (s.fencePartition p cause).partFenced p = true := by
  rw [State.partFenced, State.flag, State.reg_fencePartition cause hformed hfence (by decide), State.reg_bump, if_neg (by simp), ← State.flag,
    State.flag_setField_ne (by decide) (by decide), State.flag_setFlag _ _ _ _ _ _ _ (by decide), if_pos rfl]

theorem State.cause_fencePartition (hc : cause < 16) (hformed : s.formed p = true) (hfence : s.partFenced p = false) :
    (s.fencePartition p cause).field .ptStatus p 0 12 4 = cause := by
  rw [State.field, State.reg_fencePartition cause hformed hfence (by decide), State.reg_bump, if_neg (by simp), ← State.field,
    State.field_setField_same (by decide) hc]

theorem State.sfClk_fencePartition (hformed : s.formed p = true) (hfence : s.partFenced p = false) (q : Nat) :
    (s.fencePartition p cause).reg .sfClk q = s.reg .sfClk q := by
  rw [State.reg_fencePartition cause hformed hfence (by decide), State.reg_bump, if_neg (by simp), State.reg_setField, if_neg (by simp),
    State.reg_setFlag, if_neg (by simp)]

theorem State.dies_fencePartition : (s.fencePartition p cause).dies = s.dies := by
  have keep (t : State) (n : RegName) (v : Word) : (t.setReg n p 0 v).dies = t.dies := rfl
  unfold State.fencePartition
  split
  · rfl
  · exact (keep ..).trans ((keep ..).trans ((keep ..).trans (keep ..)))

end

/-- A compute die of no partition that loses its clock is fenced. -/
theorem computeDieClockLoss_free {s : State} {i : Nat} (h : s.siteOwner i = none) : ∃ t : State, exec (.computeDieClockLoss i) s = .next t ∧
    t.flag .sfClk (siteSquare i) 0 0 = true ∧ (t.die i).fenced = true ∧ (t.die i).inReset = true := by
  have howner : (s.setFlag .sfClk (siteSquare i) 0 0 true).siteOwner i = none := by
    rw [← h]
    exact State.owner_of_reg (fun p => (State.reg_setFlag ..).trans (if_neg (by simp))) _
  have hrun : exec (.computeDieClockLoss i) s = .next
      (((s.setFlag .sfClk (siteSquare i) 0 0 true).fenceDie i).safetyAt none (siteSquare i) .sfClk (siteSquare i) 0 i) := by
    show execComputeDieClockLoss i s = _
    unfold execComputeDieClockLoss
    dsimp only
    rw [howner]
  have hrec := Recorded.event7F ((s.setFlag .sfClk (siteSquare i) 0 0 true).fenceDie i)
    .safety none (siteSquare i) .sfClk (siteSquare i) 0 (leBytes 4 i ++ [])
  obtain ⟨-, hclk⟩ := State.reg_of_steady ((s.setFlag .sfClk (siteSquare i) 0 0 true).steady_fenceDie i) (siteSquare i)
  obtain ⟨hfenced, hreset⟩ := (s.setFlag .sfClk (siteSquare i) 0 0 true).die_fenceDie i
  have hdie := State.die_of_dies hrec.dies i
  refine ⟨_, hrun, ?_, (congrArg Die.fenced hdie).trans hfenced, (congrArg Die.inReset hdie).trans hreset⟩
  rw [State.flag, State.safetyAt, hrec.reg .sfClk _ _ rfl, hclk]
  simp

section
variable {s : State} {i p : Nat} (h : s.siteOwner i = some p) (hformed : s.formed p = true) (hfence : s.partFenced p = false)

/-- The die's clock loss noted, its partition's turn aborted and the die fenced. -/
def State.dropDie (s : State) (i p : Nat) : State := ((s.setFlag .sfClk (siteSquare i) 0 0 true).abortTurn p abortFence).fenceDie i

theorem State.steady_dropDie (s : State) (i p : Nat) : (s.dropDie i p).steady = (s.setFlag .sfClk (siteSquare i) 0 0 true).steady := by
  simp only [State.dropDie, State.steady_fenceDie, State.steady_abortTurn]

include h in
theorem execComputeDieClockLoss_owned : exec (.computeDieClockLoss i) s = .next
    (((s.dropDie i p).fencePartition p causeClock).safetyAt (some p) (siteSquare i) .sfClk (siteSquare i) 0 i) := by
  have howner : (s.setFlag .sfClk (siteSquare i) 0 0 true).siteOwner i = some p := by
    rw [← h]
    exact State.owner_of_reg (fun p => (State.reg_setFlag ..).trans (if_neg (by simp))) _
  show execComputeDieClockLoss i s = _
  unfold execComputeDieClockLoss
  dsimp only
  rw [howner]
  rfl

include h hformed hfence in
/-- A compute die of a partition that loses its clock is fenced, and its partition with it. -/
theorem computeDieClockLoss_owned :
    ∃ t : State, exec (.computeDieClockLoss i) s = .next t ∧ t.flag .sfClk (siteSquare i) 0 0 = true ∧ (t.die i).fenced = true ∧
      t.partFenced p = true ∧ t.field .ptStatus p 0 12 4 = causeClock := by
  obtain ⟨hstatus, hclk⟩ := State.reg_of_steady (s.steady_dropDie i p) p
  have hstatus' : (s.dropDie i p).reg .ptStatus p = s.reg .ptStatus p := hstatus.trans ((State.reg_setFlag ..).trans (if_neg (by simp)))
  have hformed' : (s.dropDie i p).formed p = true := by rw [← hformed, State.formed, State.flag, hstatus']; rfl
  have hfence' : (s.dropDie i p).partFenced p = false := by rw [← hfence, State.partFenced, State.flag, hstatus']; rfl
  have hrec := Recorded.event7F ((s.dropDie i p).fencePartition p causeClock)
    .safety (some p) (siteSquare i) .sfClk (siteSquare i) 0 (leBytes 4 i ++ [])
  have hdies : (((s.dropDie i p).fencePartition p causeClock).safetyAt (some p) (siteSquare i) .sfClk (siteSquare i) 0 i).dies =
      (s.dropDie i p).dies :=
    hrec.dies.trans (State.dies_fencePartition ..)
  refine ⟨_, execComputeDieClockLoss_owned h, ?_, ?_, ?_, ?_⟩
  · rw [State.flag, State.safetyAt, hrec.reg .sfClk _ _ rfl, State.sfClk_fencePartition _ hformed' hfence',
      (State.reg_of_steady (s.steady_dropDie i p) (siteSquare i)).2]
    simp
  · exact (congrArg Die.fenced (State.die_of_dies hdies i)).trans (State.die_fenceDie ..).1
  · rw [State.partFenced, State.flag, State.safetyAt, hrec.reg .ptStatus _ _ rfl]
    exact State.partFenced_fencePartition _ hformed' hfence'
  · rw [State.field, State.safetyAt, hrec.reg .ptStatus _ _ rfl]
    exact State.cause_fencePartition _ (by decide) hformed' hfence'

end

/-! The host die (R412, R422) -/

theorem State.reg_fenceHost (s : State) (d : Nat) {n : RegName} (hn : n ≠ .ptHostsFenced) (i j : Nat) :
    (s.fenceHost d).reg n i j = (s.setFlag .hdStatus d 0 3 true).reg n i j := by
  unfold State.fenceHost
  dsimp only
  split
  · exact (State.reg_setFlag ..).trans (if_neg fun e => hn e.1.symm)
  · rfl

theorem State.portInReset_fenceHost (s : State) (d : Nat) : ((s.fenceHost d).hostDie d).portInReset = true := by
  have h : ((s.fenceHost d).hostDie d) = (((s.setFlag .hdStatus d 0 3 true).modHost d (fun v => { v with portInReset := true })).hostDie d) := by
    unfold State.fenceHost
    dsimp only
    split <;> rfl
  rw [h, State.hostDie_modHost, if_pos rfl]

/-- A host die that loses its clock is fenced; no partition is. -/
theorem hostDieClockLoss_outcome (s : State) (d : Nat) : ∃ t : State, exec (.hostDieClockLoss d) s = .next t ∧
    t.flag .sfClk (hostSquare d) 0 1 = true ∧ t.flag .hdStatus d 0 3 = true ∧ (t.hostDie d).portInReset = true ∧
      ∀ p, t.partFenced p = s.partFenced p := by
  let u := s.setFlag .sfClk (hostSquare d) 0 1 true
  have hrec : Recorded (u.fenceHost d) ((u.fenceHost d).safetyAt (s.hostOwner d) (hostSquare d) .sfClk (hostSquare d) 0 d) :=
    Recorded.event7F ..
  refine ⟨_, rfl, ?_, ?_, (congrArg (fun l => (Sparse.nget {} l d).portInReset) hrec.hosts).trans (State.portInReset_fenceHost u d), fun p => ?_⟩
  · rw [State.flag, hrec.reg .sfClk _ _ rfl, State.reg_fenceHost u d (by decide)]
    simp [u]
  · rw [State.flag, hrec.reg .hdStatus _ _ rfl, State.reg_fenceHost u d (by decide)]
    simp
  · rw [State.partFenced, State.flag, hrec.reg .ptStatus _ _ rfl, State.reg_fenceHost u d (by decide)]
    simp [u, State.partFenced, State.flag]

/-! Shadow comparators (R418) -/

theorem execShadowMismatch_of_shadowed {a : Addr} {bit : Nat} {k : RegKey} (hk : regAtAddr a.toNat = some k) (hshadow : k.name.info.shadowed = true)
    (hbit : bit < 64) (s : State) : exec (.shadowMismatch a bit) s = .next ((s.flipShadow k bit).shadowReaction k) := by
  show execShadowMismatch a bit s = _
  unfold execShadowMismatch
  rw [hk]
  exact congrArg Host.Outcome.next (if_pos ⟨hshadow, hbit⟩)

theorem execShadowMismatch_of_single {a : Addr} {bit : Nat} {k : RegKey} (hk : regAtAddr a.toNat = some k) (hshadow : k.name.info.shadowed = false)
    (s : State) : exec (.shadowMismatch a bit) s = .next s := by
  show execShadowMismatch a bit s = _
  unfold execShadowMismatch
  rw [hk]
  exact congrArg Host.Outcome.next (if_neg (by simp [hshadow]))

/-- Settles O53: the failures of the Referee by the account of a restart, the clock monitors by the fences, the comparators row by row. -/
theorem failuresAndMonitors : Obligations.FailuresAndMonitors := by
  unfold Obligations.FailuresAndMonitors
  refine ⟨fun s => ⟨fun w hrun => ?restart, fun hrun => ?down, ?complete, fun _ hboot => ?recovery⟩,
    fun s => ⟨fun i h => computeDieClockLoss_free h, fun i p h => computeDieClockLoss_owned h, hostDieClockLoss_outcome s, ?shadowed, ?single⟩⟩
  case restart =>
    exact ⟨⟨_, congrArg Host.Outcome.next (if_neg (by simp [hrun])), State.restart_outcome hrun (by decide) _⟩,
      ⟨_, congrArg Host.Outcome.next (if_neg (by simp [hrun])), State.restart_outcome hrun (by decide) _⟩⟩
  case down => exact ⟨fun w => congrArg Host.Outcome.next (if_pos (by simp [hrun])), congrArg Host.Outcome.next (if_pos (by simp [hrun]))⟩
  case complete => exact fun h hboot => warmRestartComplete_outcome h hboot
  case recovery => exact congrArg Host.Outcome.next (if_pos (by simp [hboot]))
  case shadowed => exact fun a bit k hk hshadow hbit => execShadowMismatch_of_shadowed hk hshadow hbit s
  case single => exact fun a bit k hk hshadow => execShadowMismatch_of_single hk hshadow s

end Sys2Proof.Machine
end

section
/-! SUPPORT. Migrations (chapters 10 and 13): the end of a copy within the module, and what the messages of a migration between modules come to at a
partition that their quad serves. -/

namespace Sys2Proof.Machine

/-! A write of the state path moves no partition (R320) -/

theorem State.apart_computeCopy (s : State) (line : Nat) : (s.computeCopy line).1.apart = s.apart := by
  unfold State.computeCopy
  dsimp only
  split <;> exact s.apart_applyFill line

theorem State.apart_computeWriteIn (s : State) (line off : Nat) (d : List Byte) : (s.computeWriteIn line off d).apart = s.apart :=
  s.apart_computeCopy line

theorem State.apart_computeWrite (s : State) (a : Nat) (d : List Byte) : (s.computeWrite a d).apart = s.apart :=
  State.apart_foldl (fun _ _ => State.apart_computeWriteIn ..) _ s

theorem State.parts_setBytes (s : State) (a : Nat) (d : List Byte) : (s.setBytes a d).parts = s.parts := by
  induction d generalizing s a with
  | nil => rfl
  | cons b d ih => exact ih ..

theorem State.part_stateWrite (s : State) (a : Nat) (d : List Byte) (p : Nat) : (s.stateWrite a d).part p = s.part p := by
  have hparts : (s.stateWrite a d).parts = s.parts := by
    unfold State.stateWrite
    split
    · rfl
    split
    · exact (congrArg State.parts (s.apart_computeWrite a d) :)
    · exact s.parts_setBytes a d
  rw [State.part, hparts, State.part]

/-! The end of a copy within the module (R296) -/

/-- The migration of a stream of a partition to another partition of this module. -/
def State.localMigration (s : State) (p : Nat) (h : Handle) (dest : Nat) : Option Migration :=
  (s.part p).migrations.find? (fun x => decide (x.handle = h ∧ x.part.toNat = dest ∧ x.module.setWidth 13 = s.moduleId))

/-- What a stream arrives as that migrates within the module: its copy is whole. -/
def State.localArrival (s : State) (p : Nat) (h : Handle) (x : Migration) : Arrival :=
  { quad := none, module := s.moduleId, xid := x.xid, source := p, handle := h, entry := s.row x.slot, slot := 0, newHandle := 0,
    bytes := 0, staging := 0, lines := [], copied := true }

/-- The destination, which has admitted a stream under a handle, holds its pages. -/
def State.holdCopy (s : State) (p dest : Nat) (e : StreamEntry) (h : Handle) : State :=
  match s.residentRow dest h with
  | some k => s.copyStream p dest e (s.row k)
  | none => s

section
variable {s u : State} {p dest : Nat} {h : Handle}

/-- An arrival from another module has its whole copy. -/
theorem State.copied_of_migrationCopied (hnone : s.localMigration p h dest = none) {a : Arrival}
    (ha : a ∈ ((s.migrationCopied p h dest).part dest).arrivals) (hh : a.newHandle = h) (hq : a.quad ≠ none) : a.copied = true := by
  unfold State.localMigration at hnone
  rw [State.migrationCopied, hnone] at ha
  dsimp only at ha
  rw [State.part_modPart, if_pos rfl] at ha
  obtain ⟨b, -, rfl⟩ := List.mem_map.1 ha
  by_cases hb : b.newHandle = h ∧ b.quad ≠ none
  · rw [if_pos hb]
  · rw [if_neg hb] at hh hq
    exact absurd ⟨hh, hq⟩ hb

variable {x : Migration} (hx : s.localMigration p h dest = some x)
  (hnew : (s.part dest).arrivals.any (fun a => decide (a.quad = none ∧ a.source = p ∧ a.handle = h)) = false)
include hx hnew

theorem State.migrationCopied_of_admitted {h' : Handle}
    (hadmit : s.admitArrival dest (s.row x.slot) (s.localArrival p h x) = (u, some h')) :
    s.migrationCopied p h dest = u.holdCopy p dest (s.row x.slot) h' := by
  unfold State.localMigration at hx
  unfold State.localArrival at hadmit
  rw [State.migrationCopied, hx]
  dsimp only
  rw [if_neg (ne_true_of_eq_false hnew), hadmit]
  rfl

theorem State.migrationCopied_of_full (hfull : s.admitArrival dest (s.row x.slot) (s.localArrival p h x) = (u, none)) :
    s.migrationCopied p h dest = u.failMigration p h .streamTableFull := by
  unfold State.localMigration at hx
  unfold State.localArrival at hfull
  rw [State.migrationCopied, hx]
  dsimp only
  rw [if_neg (ne_true_of_eq_false hnew), hfull]

end

theorem State.migrationFailed_of_named {b : BitVec 8} {st : Status} (hst : Status.ofCode b.toNat = some st) (hnamed : st ∈ migrationFailures)
    (s : State) (p : Nat) (h : Handle) : s.migrationFailed p h b = s.failMigration p h st := by
  rw [State.migrationFailed, hst]
  exact if_pos hnamed

/-! The messages of a migration between modules (R296, R297, R358, R360) -/

/-- The arrival whose staging area a COPY message is for. -/
def State.arrivalOf (s : State) (n p : Nat) (m : LinkMsg) : Option Arrival :=
  (s.part p).arrivals.find? (fun x => decide (x.quad = some n ∧ x.staging ≤ m.addr.toNat ∧ m.addr.toNat < x.staging + x.bytes))

/-- An arrival that has received the line of a COPY message too. -/
def Arrival.receive (x : Arrival) (m : LinkMsg) : Arrival :=
  { x with
    lines := x.lines ++ [(m.xid, m.seq)]
    copied := x.copied || decide (x.bytes ≤ 1024 * (x.lines ++ [(m.xid, m.seq)]).length) }

/-- The line of a COPY message is written, and its arrival has received it. -/
def State.receiveLine (s : State) (p : Nat) (m : LinkMsg) (x : Arrival) : State :=
  (s.stateWrite m.addr.toNat (padTo 1024 m.payload)).modPart p (fun v =>
    { v with arrivals := v.arrivals.map (fun y => if y = x then x.receive m else y) })

/-- A migration as the destination has admitted it: its new handle and its staging address (R296 step 2). -/
def Migration.markAdmitted (x : Migration) (u : List Byte) : Migration :=
  { x with newHandle := BitVec.ofNat 32 (bytesAt u 4 4), staging := bytesAt u 8 6 }

theorem State.receive_mem_receiveLine {s : State} {n p : Nat} {m : LinkMsg} {x : Arrival} (hx : s.arrivalOf n p m = some x) :
    x.receive m ∈ ((s.receiveLine p m x).part p).arrivals := by
  rw [State.receiveLine, State.part_modPart, if_pos rfl, State.part_stateWrite]
  exact List.mem_map.2 ⟨x, List.mem_of_find?_eq_some hx, if_pos rfl⟩

/-- The units of a MGMT message begin at byte 16 of its payload (R360). -/
theorem State.bytesAt_mgmtMsg (s : State) (dst : BitVec 13) (kind p q : Nat) (xid : BitVec 16) (units : List Byte) (n : Nat) :
    bytesAt (s.mgmtMsg dst kind p q xid units).payload 16 n = bytesAt units 0 n := by
  rw [bytesAt, State.mgmtMsg, List.drop_left' (by simp), bytesAt, List.drop_zero]

section
variable {s : State} {n p : Nat} (hserved : s.servedPart n = some p) (m : LinkMsg)
include hserved

/-- A line that has come before is acknowledged, and not written again. -/
theorem State.copyArrives_of_received {x : Arrival} (hx : s.arrivalOf n p m = some x) (hline : (m.xid, m.seq) ∈ x.lines) :
    s.copyArrives n m = s.answerMsg n m 0x08 .ok := by
  unfold State.arrivalOf at hx
  rw [State.copyArrives, State.request_of_served hserved]
  dsimp only
  rw [hx]
  dsimp only
  rw [if_pos hline]

theorem State.copyArrives_of_new {x : Arrival} (hx : s.arrivalOf n p m = some x) (hline : (m.xid, m.seq) ∉ x.lines) :
    s.copyArrives n m = (s.receiveLine p m x).answerMsg n m 0x08 .ok := by
  unfold State.arrivalOf at hx
  rw [State.copyArrives, State.request_of_served hserved]
  dsimp only
  rw [hx]
  dsimp only
  rw [if_neg hline]
  rfl

section
variable {x : Migration} (hx : s.migrationOf p m = some x)
include hx

theorem State.copyAnswered_of_ok (hst : m.status = 0) : s.copyAnswered n m = s := by
  rw [State.copyAnswered, State.notice_of_served hserved, hx, hst]
  rfl

theorem State.copyAnswered_of_refused {st : Status} (hst : Status.ofCode m.status.toNat = some st) (hne : st ≠ .ok) :
    s.copyAnswered n m = s.failMigration p x.handle st := by
  rw [State.copyAnswered, State.notice_of_served hserved, hx, hst]
  exact if_neg hne

/-- The destination has admitted the stream: its copy is sent to the staging address. -/
theorem State.migrateAdmitted_of_ok (hst : bytesAt (m.payload.drop 16) 0 1 = 0) : s.migrateAdmitted n m =
    (s.modPart p (fun v => { v with migrations := v.migrations.map (fun z => if z = x then x.markAdmitted (m.payload.drop 16) else z) })).sendCopies n p
      (x.markAdmitted (m.payload.drop 16)) := by
  rw [State.migrateAdmitted, State.notice_of_served hserved]
  dsimp only
  rw [hx, hst]
  rfl

theorem State.migrateFinished_of_ok (hst : bytesAt (m.payload.drop 16) 0 1 = 0) :
    s.migrateFinished n m = s.migrated p x (BitVec.ofNat 32 (bytesAt (m.payload.drop 16) 4 4)) := by
  rw [State.migrateFinished, State.notice_of_served hserved]
  dsimp only
  rw [hx, hst]
  rfl

variable {st : Status} (hst : Status.ofCode (bytesAt (m.payload.drop 16) 0 1) = some st) (hne : st ≠ .ok)
include hst hne

/-- A refusal ends the migration with its status. -/
theorem State.migrateAdmitted_of_refused : s.migrateAdmitted n m = s.failMigration p x.handle st := by
  rw [State.migrateAdmitted, State.notice_of_served hserved]
  dsimp only
  rw [hx, hst]
  cases st
  case ok => exact absurd rfl hne
  all_goals rfl

theorem State.migrateFinished_of_refused : s.migrateFinished n m = s.failMigration p x.handle st := by
  rw [State.migrateFinished, State.notice_of_served hserved]
  dsimp only
  rw [hx, hst]
  cases st
  case ok => exact absurd rfl hne
  all_goals rfl

end

/-! MIGRATE_REQ -/

/-- What a stream arrives as that another module asks to migrate here, with a page of staging at an address (R296 step 1). -/
def arrivalAsked (m : LinkMsg) (n staging : Nat) : Arrival :=
  let u := m.payload.drop 16
  let e := entryOfBytes ((u.drop 16).take 64)
  { quad := some n, module := m.src, xid := m.xid, source := m.srcPart.toNat, handle := e.handle, entry := e, slot := 0, newHandle := 0,
    bytes := bytesAt u 8 8, staging := staging, lines := [], copied := decide (bytesAt u 8 8 = 0) }

/-- The units of MIGRATE_ADMIT (Table 13.6c): the status, the new handle and the staging address. -/
def admitUnits (st h staging : Nat) : List Byte := leBytes 1 st ++ [0, 0, 0] ++ leBytes 4 h ++ leBytes 6 staging ++ [0, 0]

/-- The destination is no partition that is formed. -/
theorem State.migrateAsked_of_unformed (hformed : s.formed (bytesAt (m.payload.drop 16) 4 1) = false) :
    s.migrateAsked n m = s.sendMgmt n m.src 0x09 p m.srcPart.toNat m.xid (admitUnits Status.badArgument.code 0 0) := by
  rw [State.migrateAsked, State.request_of_served hserved]
  dsimp only
  rw [if_pos (by simp [hformed])]
  rfl

theorem State.migrateAsked_of_admitted {a : Nat} {h : Handle} {v w : State} (hdest : bytesAt (m.payload.drop 16) 4 1 = p)
    (hformed : s.formed p = true) (hfenced : s.partFenced p = false) (hpage : s.takePage p = (v, a))
    (hadmit : v.admitArrival p (arrivalAsked m n a).entry (arrivalAsked m n a) = (w, some h)) :
    s.migrateAsked n m =
      ({ w with exchanges := w.exchanges ++ [(m.src, p)] } : State).sendMgmt n m.src 0x09 p m.srcPart.toNat m.xid (admitUnits 0 h.toNat a) := by
  unfold arrivalAsked at hadmit
  rw [State.migrateAsked, State.request_of_served hserved]
  dsimp only at hadmit ⊢
  rw [hdest, if_neg (by simp [hformed]), if_neg (by simp), if_neg (by simp [hfenced]), hpage]
  dsimp only
  rw [hadmit]
  rfl

end

/-- Settles O37: the copy within the module, and each message at a partition that its quad serves. -/
theorem migrationSteps : Obligations.MigrationSteps := by
  unfold Obligations.MigrationSteps
  refine ⟨fun s p dest h hup => ⟨fun hnone => ?remote, fun x u hx hnew => ⟨fun h' hadmit => ?admitted, fun hfull => ?full⟩,
      fun b st hst hnamed => ?fail⟩,
    fun s n m p hserved => ⟨fun x hx hline => ?received, fun x hx hline => ?line, fun x hx hst => ?cack, fun x st hx hst hne => ?cackRefused,
      fun x hx hst => ⟨?copies, ?done⟩, fun x st hx hst hne => ⟨?admitRefused, ?doneRefused⟩, fun hformed => ?unformed,
      fun a h v w hdest hformed hfenced hpage hadmit => ?asked⟩⟩
  case remote =>
    exact ⟨_, congrArg Host.Outcome.next (if_pos hup), fun a ha hh hq => State.copied_of_migrationCopied hnone ha hh hq⟩
  case admitted => exact congrArg Host.Outcome.next ((if_pos hup).trans (State.migrationCopied_of_admitted hx hnew hadmit))
  case full => exact congrArg Host.Outcome.next ((if_pos hup).trans (State.migrationCopied_of_full hx hnew hfull))
  case fail => exact congrArg Host.Outcome.next ((if_pos hup).trans (State.migrationFailed_of_named hst hnamed ..))
  case received => exact congrArg Host.Outcome.next (State.copyArrives_of_received hserved m hx hline)
  case line =>
    exact ⟨s.receiveLine p m x, x.receive m, congrArg Host.Outcome.next (State.copyArrives_of_new hserved m hx hline), rfl,
      State.receive_mem_receiveLine hx, rfl, rfl⟩
  case cack => exact congrArg Host.Outcome.next (State.copyAnswered_of_ok hserved m hx hst)
  case cackRefused => exact congrArg Host.Outcome.next (State.copyAnswered_of_refused hserved m hx hst hne)
  case copies => exact congrArg Host.Outcome.next (State.migrateAdmitted_of_ok hserved m hx hst)
  case done => exact congrArg Host.Outcome.next (State.migrateFinished_of_ok hserved m hx hst)
  case admitRefused => exact congrArg Host.Outcome.next (State.migrateAdmitted_of_refused hserved m hx hst hne)
  case doneRefused => exact congrArg Host.Outcome.next (State.migrateFinished_of_refused hserved m hx hst hne)
  case unformed =>
    exact ⟨_, congrArg Host.Outcome.next (State.migrateAsked_of_unformed hserved m hformed), rfl, rfl, rfl, rfl, State.bytesAt_mgmtMsg ..⟩
  case asked => exact congrArg Host.Outcome.next (State.migrateAsked_of_admitted hserved m hdest hformed hfenced hpage hadmit)

end Sys2Proof.Machine
end

section
/-! SUPPORT. Debug (chapter 19) and batch staging (R275): what each row of DebugAccess comes to. The statement itself holds just where no response is
right: DB_SESSION keeps four bits of the ring that opened a session, a challenge in State carries any number for its ring, and one with bit 15 set carries
into OPEN. Config leaves open which responses are right, so the statement is neither proved nor refuted here. -/

namespace Sys2Proof.Machine

section
variable (s : State) (c : Cmd) (w : MailRow)

@[simp] theorem State.enterCommand_moduleId : (s.enterCommand c w).moduleId = s.moduleId := by simp [State.moduleId]

@[simp] theorem State.enterCommand_challengeBytes (p : Nat) : (s.enterCommand c w).challengeBytes p = s.challengeBytes p := by
  simp [State.challengeBytes]

@[simp] theorem State.enterCommand_responseRight (p : Nat) (r : BitVec 384) : (s.enterCommand c w).responseRight p r = s.responseRight p r := by
  simp [State.responseRight]

@[simp] theorem State.enterCommand_sessionOpen (p : Nat) : (s.enterCommand c w).sessionOpen p = s.sessionOpen p := by simp [State.sessionOpen]

@[simp] theorem State.enterCommand_siteOut (i : Nat) : (s.enterCommand c w).siteOut i = s.siteOut i := by simp [State.siteOut]

end

/-! debug.challenge and debug.respond (R488, R489) -/

/-- A partition has a challenge outstanding, which its ring has drawn. -/
def State.challenged (s : State) (c : Cmd) (p : Nat) : State :=
  ({ s with fresh := s.fresh + 1 } : State).modPart p (fun v =>
    { v with challenge := some { bytes := s.challengeBytes p, ring := ringOf c, tick := s.now } })

theorem State.challenge_challenged (s : State) (c : Cmd) (p : Nat) :
    ((s.challenged c p).part p).challenge = some { bytes := s.challengeBytes p, ring := ringOf c, tick := s.now } := by
  rw [State.challenged, State.part_modPart, if_pos rfl]

/-- The ring whose session a right response opens: the one that drew the challenge. -/
def State.sessionRing (s : State) (c : Cmd) (p : Nat) : Nat := ((s.part p).challenge.map (fun h => h.ring)).getD (ringOf c)

/-- A challenge is consumed by its first response. -/
def State.consumeChallenge (s : State) (p : Nat) : State := s.modPart p (fun v => { v with challenge := none })

/-- DB_SESSION as a session opens: OPEN, the ring, and the seconds left. -/
def sessionWord (ring : Nat) : Word := BitVec.ofNat 64 (2 ^ 63 + ring * 2 ^ 48 + 3600)

/-- A session opens for a ring. -/
def State.openSession (s : State) (p ring : Nat) : State :=
  let u := s.setReg .dbSession p 0 (sessionWord ring)
  u.modPart p (fun v => { v with wrongResponses := 0, sessionOpened := some (ring, u.now) })

/-- A wrong response is counted: the third in a row locks challenges out. -/
def State.countWrong (s : State) (p : Nat) : State :=
  s.modPart p (fun v =>
    { v with
      wrongResponses := if (s.part p).wrongResponses + 1 < 3 then (s.part p).wrongResponses + 1 else 0
      lockout := v.lockout || decide (3 ≤ (s.part p).wrongResponses + 1) })

theorem State.part_consumeChallenge (s : State) (p : Nat) : (s.consumeChallenge p).part p = { s.part p with challenge := none } :=
  (State.part_modPart ..).trans (if_pos rfl)

theorem State.part_openSession (s : State) (p ring : Nat) :
    (s.openSession p ring).part p = { s.part p with wrongResponses := 0, sessionOpened := some (ring, s.now) } := by
  have hpart : (s.setReg .dbSession p 0 (sessionWord ring)).part p = s.part p := by rw [State.part, State.setReg_parts, State.part]
  have hnow : (s.setReg .dbSession p 0 (sessionWord ring)).now = s.now := by rw [State.now, State.setReg_clock, State.now]
  unfold State.openSession
  dsimp only
  rw [State.part_modPart, if_pos rfl, hpart, hnow]

theorem State.lockout_countWrong (s : State) (p : Nat) :
    ((s.countWrong p).part p).lockout = ((s.part p).lockout || decide (2 ≤ (s.part p).wrongResponses)) := by
  rw [State.countWrong, State.part_modPart, if_pos rfl]
  simp

theorem State.challenge_countWrong (s : State) (p : Nat) : ((s.countWrong p).part p).challenge = (s.part p).challenge := by
  rw [State.countWrong, State.part_modPart, if_pos rfl]

/-- OPEN of DB_SESSION after a session has opened: set unless bit 15 of the ring carries into it. -/
theorem State.sessionOpen_openSession (s : State) (p ring : Nat) : (s.openSession p ring).sessionOpen p = decide (ring / 2 ^ 15 % 2 = 0) := by
  rw [State.sessionOpen, State.flag, State.openSession, State.reg_modPart, State.reg_setReg, if_pos ⟨rfl, rfl, rfl⟩, bitAt, BitVec.getLsbD,
    sessionWord, Nat.testBit_eq_decide_div_mod_eq, BitVec.toNat_ofNat, decide_eq_decide]
  omega

section
variable {s : State} {c : Cmd}

theorem State.debugChallenge_of_taken (h : s.taken c (debugRow 0x0800) false) (hlock : (s.part (challengePart c c.target.toNat)).lockout = false) :
    s.debugChallenge c = ((s.enterCommand c (debugRow 0x0800)).challenged c (challengePart c c.target.toNat)).complete c 0x0800 .ok none
      (s.challengeBytes (challengePart c c.target.toNat)) := by
  rw [State.debugChallenge, State.take_of_taken h]
  dsimp only
  rw [if_neg (by simp [hlock]), State.enterCommand_challengeBytes, State.challenged, State.enterCommand_challengeBytes]

section
variable {r : BitVec 384} (h : s.taken c (debugRow 0x0801) false)
include h

theorem State.debugRespond_of_right (hr : s.responseRight (challengePart c c.target.toNat) r = true) :
    s.debugRespond c r = (((s.enterCommand c (debugRow 0x0801)).consumeChallenge (challengePart c c.target.toNat)).openSession
      (challengePart c c.target.toNat) (s.sessionRing c (challengePart c c.target.toNat))).complete c 0x0801 .ok := by
  rw [State.debugRespond, State.take_of_taken h]
  dsimp only
  rw [State.enterCommand_responseRight, if_pos hr, State.enterCommand_part, State.openSession, State.consumeChallenge, State.sessionRing,
    sessionWord]

theorem State.debugRespond_of_wrong (hr : s.responseRight (challengePart c c.target.toNat) r = false) :
    s.debugRespond c r = ((((s.enterCommand c (debugRow 0x0801)).consumeChallenge (challengePart c c.target.toNat)).countWrong
      (challengePart c c.target.toNat)).eventStatus 0x16 .notPermitted .warning (some (challengePart c c.target.toNat)) 0).complete c 0x0801
        .notPermitted := by
  rw [State.debugRespond, State.take_of_taken h]
  dsimp only
  rw [State.enterCommand_responseRight, if_neg (by simp [hr])]
  rfl

/-- A response does as R488 and R489 have it, where the ring of a challenge answered rightly leaves OPEN alone. -/
theorem State.debugRespond_outcome {p : Nat} (hp : p = challengePart c c.target.toNat)
    (hring : s.responseRight p r = true → s.sessionRing c p / 2 ^ 15 % 2 = 0) :
    ∃ u : State, s.debugRespond c r = u.complete c 0x0801 (if s.responseRight p r then .ok else .notPermitted) ∧
      (u.part p).challenge = none ∧ u.flag .dbSession p 0 63 = (s.responseRight p r || s.flag .dbSession p 0 63) ∧
      (u.part p).lockout = ((s.part p).lockout || (!s.responseRight p r && decide (2 ≤ (s.part p).wrongResponses))) := by
  subst hp
  cases hr : s.responseRight (challengePart c c.target.toNat) r with
  | true =>
    refine ⟨_, State.debugRespond_of_right h hr, ?_, (State.sessionOpen_openSession ..).trans (decide_eq_true (hring hr)), ?_⟩
    · rw [State.part_openSession, State.part_consumeChallenge]
    · rw [State.part_openSession, State.part_consumeChallenge, State.enterCommand_part, Bool.not_true, Bool.false_and, Bool.or_false]
  | false =>
    refine ⟨_, State.debugRespond_of_wrong h hr, ?_⟩
    generalize hu : ((s.enterCommand c (debugRow 0x0801)).consumeChallenge (challengePart c c.target.toNat)).countWrong
      (challengePart c c.target.toNat) = u
    have hrec := Recorded.eventStatus u 0x16 .notPermitted .warning (some (challengePart c c.target.toNat)) 0 []
    have hpart := hrec.parts (challengePart c c.target.toNat)
    refine ⟨(congrArg Part.challenge hpart :).trans ?_, ?_, (congrArg Part.lockout hpart :).trans ?_⟩
    · rw [Part.noView, ← hu, State.challenge_countWrong, State.part_consumeChallenge]
    · rw [State.flag, hrec.reg _ _ _ rfl, ← State.flag, ← hu]
      exact State.enterCommand_flag ..
    · rw [Part.noView, ← hu, State.lockout_countWrong, State.part_consumeChallenge, State.enterCommand_part]
      rfl

end

/-! debug.halt, debug.resume and debug.trace (R489, R492, R495, R498) -/

section
variable {site : BitVec 8} (hsite : site.toNat ≤ 103) (howner : s.siteOwner site.toNat = some c.target.toNat)
  (hopen : s.sessionOpen c.target.toNat = true)
include hsite howner hopen

theorem State.debugHalt_of_taken (h : s.taken c (debugRow 0x0802) false) (hstate : s.siteState site.toNat = .enabled)
    (hout : s.siteOut site.toNat = false) :
    s.debugHalt c site = ((s.enterCommand c (debugRow 0x0802)).askHalt site.toNat true).complete c 0x0802 .ok := by
  have hargs : (decide (103 < site.toNat) || decide (s.siteOwner site.toNat ≠ some c.target.toNat)) = false := by simp [hsite, howner]
  unfold State.debugHalt
  dsimp only
  rw [hargs, State.take_of_taken h, if_neg (by simp [hopen]), if_neg (by simp [hstate, hout])]

theorem State.debugResume_of_taken (h : s.taken c (debugRow 0x0803) false) :
    s.debugResume c site = ((s.enterCommand c (debugRow 0x0803)).resumeRook site.toNat).complete c 0x0803 .ok := by
  have hargs : (decide (103 < site.toNat) || decide (s.siteOwner site.toNat ≠ some c.target.toNat)) = false := by simp [hsite, howner]
  unfold State.debugResume
  dsimp only
  rw [hargs, State.take_of_taken h, if_neg (by simp [hopen])]

end

/-- A trace setting that waits for the next changeover, with its command in the queue. -/
def State.tracing (s : State) (c : Cmd) (e : BitVec 8) : State :=
  (s.modPart c.target.toNat (fun v => { v with traceNext := some (e.setWidth 2) })).enqueue c.target.toNat c (.debugTrace e)

theorem State.part_tracing (s : State) (c : Cmd) (e : BitVec 8) : ((s.tracing c e).part c.target.toNat).traceNext = some (e.setWidth 2) ∧
    ((s.tracing c e).part c.target.toNat).queue = (s.part c.target.toNat).queue ++ [{ cmd := c, op := .debugTrace e }] := by
  simp [State.tracing, State.enqueue]

theorem State.debugTrace_of_taken {e : BitVec 8} (he : e.toNat ≤ 3) (h : s.taken c (debugRow 0x0804) false)
    (hopen : s.sessionOpen c.target.toNat = true) :
    s.debugTrace c e = (s.enterCommand c (debugRow 0x0804)).tracing c e := by
  unfold State.debugTrace State.tracing
  rw [decide_eq_false (by omega), State.take_of_taken h, if_neg (by simp [hopen])]

end

/-! Rooks (R491 to R495) -/

theorem State.halted_haltRook (s : State) (i : Nat) : ((s.haltRook i).die i).halted = true := by
  unfold State.haltRook
  extract_lets s1
  have h1 : (s1.die i).halted = true := by simp [s1]
  split
  · extract_lets s2
    have h2 : (s2.die i).halted = true := h1
    split <;> exact h2
  · exact h1

theorem State.halted_resumeGrace (s : State) (p i : Nat) : ((s.resumeGrace p).die i).halted = (s.die i).halted := by
  unfold State.resumeGrace
  split
  · rfl
  · refine List.foldlRecOn (motive := fun t : State => (t.die i).halted = (s.die i).halted) _ _ rfl fun t ht k _ => ?_
    rw [State.die_modDie]
    split
    next e =>
      subst e
      exact ht
    · exact ht

theorem State.dies_markAborted (s : State) (p cause : Nat) : (s.markAborted p cause).dies = s.dies := by
  unfold State.markAborted
  split
  · rfl
  · exact (Recorded.eventAny ..).dies

theorem State.dies_leavePause (s : State) (p : Nat) : (s.leavePause p).dies = s.dies := by
  unfold State.leavePause
  split
  · rfl
  extract_lets start s1 s2
  split
  · have h1 : s1.dies = s.dies := (TurnKept.runWheels ..).dies.trans (s.dies_markAborted p abortDebug)
    exact (TurnKept.openChangeover ..).dies.trans h1
  · have h2 : s2.dies = s.dies := rfl
    split
    · exact (TurnKept.takeBoundary ..).dies.trans h2
    · exact (TurnKept.openChangeover ..).dies.trans h2

theorem State.dies_reportDone (s : State) (p : Nat) (isDone : Bool) (stamp : Word) : (s.reportDone p isDone stamp).dies = s.dies := by
  obtain ⟨l, k, h⟩ := s.reportDone_eq p isDone stamp
  rw [h]

/-- A rook that resumes is halted no more, whatever the end of its partition's debug pause does. -/
theorem State.halted_resumeRook (s : State) (i : Nat) : ((s.resumeRook i).die i).halted = false := by
  unfold State.resumeRook
  extract_lets d s1
  have h1 : (s1.die i).halted = false := by simp [s1]
  split
  · exact h1
  next p _ =>
    extract_lets s2 s3 s4
    have h2 : (s2.die i).halted = false := by
      unfold s2
      split <;> exact h1
    have h3 : (s3.die i).halted = false := (s2.halted_resumeGrace p i).trans h2
    have h4 : (s4.die i).halted = false := by
      unfold s4
      split
      · rwa [State.die_of_dies (s3.dies_reportDone p true s3.now)]
      · exact h3
    split
    · exact h2
    · rwa [State.die_of_dies (s4.dies_leavePause p)]

/-! The rows outside the mailbox -/

theorem execDmRegisterAccess_read {i g : Nat} (hi : i < 104) (hg : g < 256) (r : Requester) (s : State) :
    exec (.dmRegisterAccess r i g .read) s = .next ((s.access r false (dmAddr i g) 4 none).1.answered (s.access r false (dmAddr i g) 4 none).2) :=
  congrArg Host.Outcome.next (if_neg (by omega))

theorem execRookHalt_ebreak {s : State} {i : Nat} (hi : i < 104) (hhalt : (s.die i).halted = false) (hreset : (s.die i).inReset = false)
    (hready : (s.die i).rookReady = false) : exec (.rookHalt i .ebreak) s = .next (s.haltRook i) := by
  refine congrArg Host.Outcome.next ((if_neg (by omega)).trans ?_)
  simp [State.askHalt, hhalt, hreset, hready]

theorem execRookHalt_haltreq_of_closed {s : State} {i : Nat} (hi : i < 104) (hclosed : s.dmOpen i = false) :
    exec (.rookHalt i .haltreq) s = .next s :=
  congrArg Host.Outcome.next ((if_neg (by omega)).trans (if_neg (by simp [hclosed])))

theorem State.sessionOpen_endSession (s : State) (p : Nat) : (s.endSession p).sessionOpen p = false := by
  rw [State.sessionOpen, State.flag, State.endSession, State.reg_modPart, State.reg_setReg, if_pos ⟨rfl, rfl, rfl⟩]
  decide

/-- Locked, the TAP takes an instruction that drives pins for BYPASS. -/
theorem execJtagInstruction_of_locked {s : State} {i : TapInstr} (hlocked : s.tapUnlocked = false)
    (hi : i = .extest ∨ i = .extestPulse ∨ i = .extestTrain) :
    exec (.jtagInstruction i) s = .next (s.setJtag { s.jtag with instr := .bypass, heldInstr := none }) := by
  have hnot : ¬ s.tapUnlocked = true := by simp [hlocked]
  rcases hi with rfl | rfl | rfl <;> exact congrArg Host.Outcome.next (if_neg hnot)

/-- The first response to the TAP's challenge consumes it, and unlocks the TAP where it is right and in time. -/
theorem jtagUnlock_outcome {s : State} (hinstr : s.jtag.instr = .dbUnlock) (hchallenge : s.jtag.challenge ≠ []) (r : BitVec 384) :
    ∃ t : State, exec (.jtagUnlock r) s = .next t ∧ t.jtag.challenge = [] ∧
      t.tapUnlocked = (s.tapUnlocked || (decide ((s.now - s.jtag.tick).toNat ≤ 6000000000) && Config.responseGood s.jtag.challenge r)) := by
  refine ⟨_, congrArg Host.Outcome.next (if_neg (by simp [hinstr, hchallenge])), ?_⟩
  cases decide ((s.now - s.jtag.tick).toNat ≤ 6000000000) && Config.responseGood s.jtag.challenge r with
  | true =>
    refine ⟨rfl, (State.flag_setFlag _ _ _ _ _ _ _ (by decide)).trans ?_⟩
    simp
  | false =>
    have hrec := Recorded.eventStatus (s.setJtag { s.jtag with challenge := [] }) 0x16 .notPermitted .warning none 0 []
    refine ⟨congrArg Jtag.challenge hrec.jtag, ?_⟩
    rw [Bool.or_false]
    exact congrArg (bitAt · 0) (hrec.reg .dbJtagStatus 0 0 rfl)

/-! The statement -/

/-- A partition, with Tolerabor up, whose outstanding challenge names a ring beyond the four bits of DB_SESSION. -/
def wideRing (b : List Byte) : State :=
  (State.reset.setFlag .refStatus 0 0 1 true).modPart 0 (fun v => { v with challenge := some { bytes := b, ring := 2 ^ 15, tick := State.reset.now } })

/-- A command that comes by a quad for partition 0. -/
def quadCmd : Cmd := { path := .mgmt 0 0 0 0, tag := 0, notify := false, fence := false, target := 0, reserved := false }

theorem taken_wideRing (b : List Byte) : (wideRing b).taken quadCmd (debugRow 0x0801) false := by
  have haccepts : (State.reset.setFlag .refStatus 0 0 1 true).accepts quadCmd = true := by decide
  have hrefusal : (State.reset.setFlag .refStatus 0 0 1 true).refusal quadCmd (debugRow 0x0801) false = none := by decide
  exact ⟨haccepts, hrefusal⟩

theorem challenge_wideRing (b : List Byte) :
    ((wideRing b).part 0).challenge = some { bytes := b, ring := 2 ^ 15, tick := State.reset.now } := by
  rw [wideRing, State.part_modPart, if_pos rfl]

theorem responseRight_wideRing (b : List Byte) (r : BitVec 384) : (wideRing b).responseRight 0 r = Config.responseGood b r := by
  have hnow : (wideRing b).now = State.reset.now := rfl
  simp [State.responseRight, challenge_wideRing, hnow]

theorem sessionRing_wideRing (b : List Byte) : (wideRing b).sessionRing quadCmd 0 = 2 ^ 15 := by
  simp [State.sessionRing, challenge_wideRing]

/-- A completion leaves the debug sessions. -/
theorem State.sessionOpen_complete (s : State) (c : Cmd) (opcode : BitVec 16) (st : Status) (turn : Option Word) (result : List Byte) (p : Nat) :
    (s.complete c opcode st turn result).sessionOpen p = s.sessionOpen p :=
  congrArg (bitAt · 63) (State.reg_complete (by decide) rfl ..)

/-- A response that is right for a challenge refutes the row of debug.respond: the session that it should open at a wide ring does not open. -/
theorem responseGood_eq_false_of_debugAccess (h : Obligations.DebugAccess) (b : List Byte) (r : BitVec 384) :
    Config.responseGood b r = false := by
  unfold Obligations.DebugAccess at h
  by_contra hgood
  have hright : (wideRing b).responseRight 0 r = true := (responseRight_wideRing b r).trans (Bool.eq_true_of_not_eq_false hgood)
  obtain ⟨u, hexec, -, hopen, -⟩ := (h.1 (wideRing b) quadCmd).2.1 r (taken_wideRing b)
  have hopened : u.sessionOpen 0 = true := hopen.trans (by rw [show challengePart quadCmd quadCmd.target.toNat = 0 from rfl, hright, Bool.true_or])
  have hsame := Host.Outcome.next.inj ((congrArg Host.Outcome.next (State.debugRespond_of_right (taken_wideRing b) hright)).symm.trans hexec)
  have hclosed : u.sessionOpen 0 = false :=
    calc u.sessionOpen 0
      _ = (u.complete quadCmd 0x0801 _).sessionOpen 0 := (State.sessionOpen_complete ..).symm
      _ = _ := (congrArg (fun t => State.sessionOpen t 0) hsame).symm
      _ = decide ((wideRing b).sessionRing quadCmd 0 / 2 ^ 15 % 2 = 0) := (State.sessionOpen_complete ..).trans (State.sessionOpen_openSession ..)
      _ = false := by rw [sessionRing_wideRing]; decide
  rw [hclosed] at hopened
  exact Bool.false_ne_true hopened

/-- Where no response is right, every row holds. -/
theorem debugAccess_of_responseGood_eq_false (hnone : ∀ b r, Config.responseGood b r = false) : Obligations.DebugAccess := by
  unfold Obligations.DebugAccess
  have hwrong (s : State) (p : Nat) (r : BitVec 384) : s.responseRight p r = false := by
    unfold State.responseRight
    split
    · rw [hnone, Bool.and_false]
    · rfl
  refine ⟨fun s c => ⟨fun h hlock => ?challenge, fun r h => ?respond, fun site hsite howner h hopen hstate hout => ?halt,
      fun site hsite howner h hopen => ?resume, fun e he h hopen => ?trace⟩,
    fun s => ⟨fun r i g hi hg => execDmRegisterAccess_read hi hg r s, fun i hi hhalt hreset hready => ?ebreak,
      fun i hi hclosed => execRookHalt_haltreq_of_closed hi hclosed, fun i hopen => ?rookResume, fun p hopen => ?expiry, fun p => ?lockout,
      fun i hlocked hi => ?locked, ⟨_, rfl, rfl, rfl⟩, fun r hinstr hchallenge => jtagUnlock_outcome hinstr hchallenge r,
      fun p l hup hformed hplay hbook => ?staging⟩⟩
  case challenge =>
    refine ⟨_, congrArg Host.Outcome.next (State.debugChallenge_of_taken h hlock), ?_⟩
    rw [State.challenge_challenged, State.enterCommand_challengeBytes, State.enterCommand_now]
  case respond =>
    obtain ⟨u, hu, hrest⟩ := State.debugRespond_outcome (r := r) h rfl (by simp [hwrong])
    exact ⟨u, congrArg Host.Outcome.next hu, hrest⟩
  case halt => exact congrArg Host.Outcome.next (State.debugHalt_of_taken hsite howner hopen h hstate hout)
  case resume => exact congrArg Host.Outcome.next (State.debugResume_of_taken hsite howner hopen h)
  case trace =>
    obtain ⟨hnext, hqueue⟩ := (s.enterCommand c (debugRow 0x0804)).part_tracing c e
    rw [State.enterCommand_part] at hqueue
    exact ⟨_, congrArg Host.Outcome.next (State.debugTrace_of_taken he h hopen), hnext, hqueue⟩
  case ebreak => exact ⟨_, execRookHalt_ebreak hi hhalt hreset hready, s.halted_haltRook i⟩
  case rookResume => exact ⟨congrArg Host.Outcome.next (if_pos hopen), s.halted_resumeRook i⟩
  case expiry => exact ⟨_, congrArg Host.Outcome.next (if_pos hopen), s.sessionOpen_endSession p⟩
  case lockout => exact ⟨_, rfl, by simp, rfl, fun q hq => (State.part_modPart ..).trans (if_neg hq.symm)⟩
  case locked => exact ⟨_, execJtagInstruction_of_locked hlocked hi, rfl, rfl, rfl⟩
  case staging => exact congrArg Host.Outcome.next (if_pos ⟨hup, hformed, hplay, hbook⟩)

/-- O13 is left open: it says of the responses of Config, which have no body, that none is right. -/
theorem debugAccess_iff_responseGood_eq_false : Obligations.DebugAccess ↔ ∀ b r, Config.responseGood b r = false :=
  ⟨responseGood_eq_false_of_debugAccess, debugAccess_of_responseGood_eq_false⟩

end Sys2Proof.Machine
end

section
/-! SUPPORT. Translation faults, shared pages, far pages and tier copies (chapter 11): what FAULT_RESOLVED, FAULT_UNRESOLVABLE, HOLD_BUDGET_EXHAUSTED,
COW_RESOLVE, FAR_RECALL and TIER_COPY_DONE come to, and which transfers of pages they leave under way. -/

namespace Sys2Proof.Machine

/-! The transfers of pages that are under way (R305, R307) -/

/-- The transfers under way: the lines that go to and come from pools, and the tier moves of each partition. -/
def State.transfers (s : State) : List PoolLine × (Nat → List TierMove) := (s.poolLines, fun p => (s.part p).tierMoves)

theorem State.poolLines_of_transfers {s t : State} (h : t.transfers = s.transfers) : t.poolLines = s.poolLines := congrArg Prod.fst h

theorem State.tierMoves_of_transfers {s t : State} (h : t.transfers = s.transfers) (p : Nat) : (t.part p).tierMoves = (s.part p).tierMoves :=
  congrFun (congrArg Prod.snd h) p

/-- What moves only memories leaves the transfers. -/
theorem State.transfers_of_apart {s t : State} (h : t.apart = s.apart) : t.transfers = s.transfers := (congrArg State.transfers h :)

theorem State.transfers_of_recorded {s t : State} (h : Recorded s t) : t.transfers = s.transfers :=
  Prod.ext h.poolLines (funext fun p => (congrArg Part.tierMoves (h.parts p) :))

theorem State.transfers_setReg (s : State) (n : RegName) (i j : Nat) (v : Word) : (s.setReg n i j v).transfers = s.transfers := rfl

theorem State.transfers_bump (s : State) (n : RegName) (i j k : Nat) : (s.bump n i j k).transfers = s.transfers := State.transfers_setReg ..

theorem State.transfers_modPart {f : Part → Part} (hf : ∀ v, (f v).tierMoves = v.tierMoves) (s : State) (p : Nat) :
    (s.modPart p f).transfers = s.transfers := by
  refine Prod.ext rfl (funext fun q => ?_)
  change ((s.modPart p f).part q).tierMoves = (s.part q).tierMoves
  rw [State.part_modPart]
  split
  next e => rw [hf, e]
  · rfl

theorem State.transfers_foldl {α : Type} {f : State → α → State} (h : ∀ s a, (f s a).transfers = s.transfers) (l : List α) (s : State) :
    (l.foldl f s).transfers = s.transfers :=
  List.foldlRecOn (motive := fun t : State => t.transfers = s.transfers) l f rfl fun t ht a _ => (h t a).trans ht

theorem State.transfers_foldl_fst {α β : Type} {f : State × β → α → State × β} (h : ∀ x a, (f x a).1.transfers = x.1.transfers)
    (l : List α) (x : State × β) : (l.foldl f x).1.transfers = x.1.transfers :=
  List.foldlRecOn (motive := fun y : State × β => y.1.transfers = x.1.transfers) l f rfl fun y hy a _ => (h y a).trans hy

/-! Reads and writes of pages -/

theorem State.transfers_setBytes (s : State) (a : Nat) (d : List Byte) : (s.setBytes a d).transfers = s.transfers := by
  induction d generalizing s a with
  | nil => rfl
  | cons b d ih => exact ih ..

theorem State.transfers_stateWrite (s : State) (a : Nat) (d : List Byte) : (s.stateWrite a d).transfers = s.transfers := by
  unfold State.stateWrite
  split
  · rfl
  split
  · exact State.transfers_of_apart (s.apart_computeWrite a d)
  · exact s.transfers_setBytes a d

theorem State.transfers_writePage (s : State) (a : Nat) (d : List Byte) : (s.writePage a d).transfers = s.transfers :=
  State.transfers_foldl (fun s _ => s.transfers_stateWrite ..) _ s

theorem State.transfers_dramUe (s : State) (line pos r : Nat) : (s.dramUe line pos r).transfers = s.transfers :=
  (State.transfers_of_recorded (Recorded.eventStatus ..)).trans ((State.transfers_setReg ..).trans (State.transfers_bump ..))

theorem State.transfers_sliceUe (s : State) (q a r : Nat) : (s.sliceUe q a r).transfers = s.transfers :=
  (State.transfers_of_recorded (Recorded.eventStatus ..)).trans (State.transfers_bump ..)

theorem State.transfers_computeReadIn (s : State) (line off n r : Nat) : (s.computeReadIn line off n r).1.transfers = s.transfers := by
  have hfill : (s.applyFill line).transfers = s.transfers := State.transfers_of_apart (s.apart_applyFill line)
  unfold State.computeReadIn
  dsimp only
  split
  · split
    · exact (State.transfers_dramUe ..).trans hfill
    · exact (State.transfers_of_apart (State.apart_computeCopy ..)).trans hfill
  · split
    · exact (State.transfers_sliceUe ..).trans hfill
    · exact hfill

theorem State.transfers_computeRead (s : State) (a n r : Nat) : (s.computeRead a n r).1.transfers = s.transfers := by
  refine State.transfers_foldl_fst (fun x y => ?_) (linePieces a n) (s, Except.ok [])
  obtain ⟨u, res⟩ := x
  obtain ⟨l, o, k⟩ := y
  have h := u.transfers_computeReadIn l o k r
  dsimp only
  split
  · rfl
  · split <;> next e => rwa [e] at h

theorem State.transfers_pageBytes (s : State) (a : Nat) : (s.pageBytes a).1.transfers = s.transfers := by
  have h := s.transfers_computeRead a 65536 0
  unfold State.pageBytes
  split
  · split <;> next e => rwa [e] at h
  · split <;> rfl

/-! A page that moves to another (R307, R320) -/

theorem State.transfers_invalidate (s : State) (p : Nat) (h : Handle) (first count : Nat) : (s.invalidate p h first count).transfers = s.transfers :=
  State.transfers_foldl (fun s q => by dsimp only; split <;> rfl) _ s

theorem State.transfers_setLeaf (s : State) (p : Nat) (h : Handle) (root page : Nat) (e : Word) :
    (s.setLeaf p h root page e).transfers = s.transfers := by
  unfold State.setLeaf
  split
  · exact (State.transfers_invalidate ..).trans (State.transfers_of_apart (State.apart_hostWrite ..))
  · rfl

theorem State.transfers_setParked (s : State) (p : Nat) (h : Handle) (e : StreamEntry) : (s.setParked p h e).transfers = s.transfers := by
  have hpart : (s.modPart p (fun v => { v with parked := Sparse.nput v.parked h.toNat e })).transfers = s.transfers :=
    State.transfers_modPart (by intro; rfl) s p
  unfold State.setParked State.writeRecord
  dsimp only
  split
  · exact (State.transfers_of_apart (State.apart_computeWrite ..)).trans hpart
  · exact hpart

theorem State.transfers_syncTiers (s : State) (p : Nat) (h : Handle) : (s.syncTiers p h).transfers = s.transfers := by
  unfold State.syncTiers
  split
  next f _ =>
    cases f with
    | row k => rfl
    | parked g => exact s.transfers_setParked ..
  · rfl

theorem State.transfers_sealPage (s : State) (page : Nat) (turn : Word) : (s.sealPage page turn).transfers = s.transfers :=
  State.transfers_foldl (fun _ _ => by rfl) _ s

theorem State.transfers_setSharers (s : State) (p frame n : Nat) : (s.setSharers p frame n).transfers = s.transfers :=
  State.transfers_modPart (by intro; rfl) s p

theorem State.transfers_fillPage (s : State) (frame : Nat) : (s.fillPage frame).transfers = s.transfers := by
  unfold State.fillPage
  dsimp only
  split
  · rfl
  · split <;> rfl

/-- A page that moves leaves what goes to and comes from pools, and the tier moves. -/
theorem State.transfers_relocatePage (s : State) (p old new tier : Nat) (moving : Word → Bool) :
    (s.relocatePage p old new tier moving).transfers = s.transfers := by
  unfold State.relocatePage
  refine (State.transfers_fillPage ..).trans ((State.transfers_setSharers ..).trans ((State.transfers_setSharers ..).trans ?_))
  refine (State.transfers_foldl (fun s x => ?_) _ _).trans (State.transfers_sealPage ..)
  exact (State.transfers_syncTiers ..).trans (State.transfers_setLeaf ..)

/-! Stopped operations (R317 to R319, R321) -/

section
variable {s : State} {p i key : Nat} (howner : s.siteOwner i = some p)
include howner

section
variable {x : Stopped} (hx : Sparse.nfind (s.die i).stopped key = some x)
include hx

theorem State.faultResolved_of_resolved {u : State} (hu : s.resolveFault p i x = some u) :
    s.faultResolved i key = (u.bump .stResolved p).resumeMove p i key x x.skips := by
  rw [State.faultResolved, howner, hx]
  dsimp only
  rw [hu]

/-- A fault that no event records: the operation skips the handle. -/
theorem State.faultUnresolvable_of_silent (hheader : x.code.toNat ≠ faultHeader) (hpresent : x.code.toNat ≠ faultNotPresent) :
    s.faultUnresolvable i key = s.skipHandle p i key x := by
  rw [State.faultUnresolvable, howner, hx]
  dsimp only
  rw [if_neg hheader, if_neg hpresent]

theorem State.faultUnresolvable_of_notPresent (hpresent : x.code.toNat = faultNotPresent) :
    s.faultUnresolvable i key = (s.event7FAny (some p) 0 .stSkipped p).skipHandle p i key x := by
  rw [State.faultUnresolvable, howner, hx]
  dsimp only
  rw [if_neg (by rw [hpresent]; decide), if_pos hpresent]

end

theorem State.budgetExhausted_of_none (hnone : (s.die i).stopped = []) : s.budgetExhausted i = s := by
  rw [State.budgetExhausted, howner]
  dsimp only
  rw [State.skipAll, hnone]

theorem State.budgetExhausted_of_stopped {x : Stopped} {rest : List (Nat × Stopped)} (hx : (s.die i).stopped = (key, x) :: rest) :
    s.budgetExhausted i = (s.skipHandle p i key x).skipAll p i 407 := by
  rw [State.budgetExhausted, howner]
  dsimp only
  rw [State.skipAll, hx]

/-! Shared pages (R316) -/

section
variable {h : Handle} {page : Nat} {e : Word} (hleaf : s.leafAt p h page = some e)
include hleaf

section
variable (hcow : leafCow e = true) (hnear : leafTier e ≠ 2)
include hcow hnear

/-- The last sharer keeps the page: its COW is cleared. -/
theorem State.cowResolve_of_last (hlast : s.sharersOf p (pageOf (entryAddr e)) ≤ 1) (a : Nat) :
    s.cowResolve i h page a = s.setLeaf p h (s.rootOf p h) page (putBit e 60 false) := by
  rw [State.cowResolve, howner]
  dsimp only
  rw [hleaf]
  dsimp only
  rw [if_neg (by simp [hcow, hnear]), if_pos hlast]

/-- The writer gets a copy of its own, and the page has one sharer less. -/
theorem State.cowResolve_of_shared (hshared : 1 < s.sharersOf p (pageOf (entryAddr e))) (a : Nat) :
    s.cowResolve i h page a =
      ((((((s.pageBytes (entryAddr e)).1.writePage (homePage i a) (s.pageBytes (entryAddr e)).2).setLeaf p h (s.rootOf p h) page
        (mkEntry (homePage i a) 0 false (leafLin e) (leafMoving e))).setSharers p (pageOf (entryAddr e))
          (s.sharersOf p (pageOf (entryAddr e)) - 1)).syncTiers p h).settleShared p).bump .stCowCopies p := by
  rw [State.cowResolve, howner]
  dsimp only
  rw [hleaf]
  dsimp only
  rw [if_neg (by simp [hcow, hnear]), if_neg hshared.not_ge]

end

/-! Far pages (R305) -/

/-- The page is written in DRAM, its pool reads are over, and every sharer's leaf moves. -/
theorem State.farRecall_of_far (hfar : leafTier e = 2) (a : Nat) (given : List (List Byte)) :
    s.farRecall i h page a given =
      (((s.writePage (homePage i a) (s.recalled p h page given)).dropReads p h page).relocatePage p (entryAddr e) (homePage i a) 0 leafMoving).bump
        .stRecalls p := by
  rw [State.farRecall, howner]
  dsimp only
  rw [hleaf]
  dsimp only
  rw [if_neg (not_not_intro hfar)]

end

end

theorem State.poolLines_dropReads {s t : State} (hlines : t.poolLines = s.poolLines) (p : Nat) (h : Handle) (page : Nat) :
    (t.dropReads p h page).poolLines = (s.dropReads p h page).poolLines := by
  unfold State.dropReads
  rw [hlines]

/-- Of the pool's lines a recall ends the reads of the page, and no more. -/
theorem farRecall_outcome {s : State} {i p : Nat} {h : Handle} {page : BitVec 21} {e : Word} (hup : s.up = true) (howner : s.siteOwner i = some p)
    (hleaf : s.leafAt p h page.toNat = some e) (hfar : leafTier e = 2) (a : Addr) (given : List (List Byte)) :
    ∃ u : State, exec (.farRecall i h page a given) s = .next (u.bump .stRecalls p) ∧ u.poolLines = (s.dropReads p h page.toNat).poolLines := by
  refine ⟨_, congrArg Host.Outcome.next ((if_pos hup).trans (State.farRecall_of_far howner hleaf hfar ..)), ?_⟩
  rw [State.poolLines_of_transfers (State.transfers_relocatePage ..)]
  exact State.poolLines_dropReads (State.poolLines_of_transfers (State.transfers_writePage ..)) ..

/-! Tier copies (R307) -/

/-- The tier move of a page of a stream. -/
def State.tierMoveOf (s : State) (p : Nat) (h : Handle) (page : Nat) : Option TierMove :=
  (s.part p).tierMoves.find? (fun t => decide (t.handle = h ∧ t.page = page))

/-- A tier move whose copy is whole at a page. -/
def TierMove.copiedTo (t : TierMove) (a : Nat) : TierMove := { t with copied := true, newPage := a }

/-- The copy of a tier move is marked whole at a page. -/
def State.markCopied (s : State) (p : Nat) (t : TierMove) (a : Nat) : State :=
  s.modPart p (fun v => { v with tierMoves := v.tierMoves.map (fun x => if x = t then t.copiedTo a else x) })

/-- The bytes that the copy of a tier move writes, and the state after they are read. Those of a far page are what its pool reads have brought, and
these reads are over. -/
def State.copySource (s : State) (p : Nat) (h : Handle) (page : Nat) (e : Word) : State × List Byte :=
  let x := s.pageBytes (entryAddr e)
  if leafTier e = 2 then
    (x.1.dropReads p h page, x.1.recalled p h page ((List.range 64).map (fun k => (x.2.drop (1024 * k)).take 1024)))
  else x

theorem State.tierMoves_copySource (s : State) (p : Nat) (h : Handle) (page : Nat) (e : Word) (q : Nat) :
    ((s.copySource p h page e).1.part q).tierMoves = (s.part q).tierMoves := by
  have hread := State.tierMoves_of_transfers (s.transfers_pageBytes (entryAddr e)) q
  unfold State.copySource
  dsimp only
  split <;> exact hread

theorem State.copiedTo_mem_markCopied {s : State} {p : Nat} {t : TierMove} (ht : t ∈ (s.part p).tierMoves) (a : Nat) :
    t.copiedTo a ∈ ((s.markCopied p t a).part p).tierMoves := by
  rw [State.markCopied, State.part_modPart, if_pos rfl]
  exact List.mem_map.2 ⟨t, ht, if_pos rfl⟩

/-- A copy to DRAM or to a lent page: it is written at the page, and its move is marked. -/
theorem State.tierCopyDone_of_near {s : State} {p : Nat} {h : Handle} {page a : Nat} {t : TierMove} {e : Word} (hmove : s.tierMoveOf p h page = some t)
    (hleaf : s.leafAt p h page = some e) (hcopied : t.copied = false) (hmoving : leafMoving e = true) (hnear : t.tier ≠ 2)
    (hfits : s.pageFits p a t.tier.toNat = true) :
    s.tierCopyDone p h page a = ((s.copySource p h page e).1.writePage a (s.copySource p h page e).2).markCopied p t a := by
  unfold State.tierMoveOf at hmove
  rw [State.tierCopyDone, hmove, hleaf]
  dsimp only
  rw [if_neg (by simp [hcopied, hmoving]), if_neg hnear, if_neg (by simp [hfits])]
  unfold State.copySource
  split <;> rfl

/-- Settles O36: each row by what it comes to where Tolerabor is up and the site has an owner. -/
theorem translationCommands : Obligations.TranslationCommands := by
  unfold Obligations.TranslationCommands
  refine fun s site p h page howner hup => ⟨fun key x u hx hu => ?resolved, fun key x hx hheader hpresent => ?silent,
    fun key x hx hpresent => ?notPresent, fun hnone => ?idle, fun key x rest hx => ?budget, fun e a hleaf hcow hnear hlast => ?last,
    fun e a hleaf hcow hnear hshared => ?shared, fun e a given hleaf hfar => farRecall_outcome hup howner hleaf hfar a given,
    fun e a t hmove hleaf hcopied hmoving hnear hfits => ?copied⟩
  case resolved => exact congrArg Host.Outcome.next ((if_pos hup).trans (State.faultResolved_of_resolved howner hx hu))
  case silent => exact congrArg Host.Outcome.next ((if_pos hup).trans (State.faultUnresolvable_of_silent howner hx hheader hpresent))
  case notPresent => exact congrArg Host.Outcome.next ((if_pos hup).trans (State.faultUnresolvable_of_notPresent howner hx hpresent))
  case idle => exact congrArg Host.Outcome.next (State.budgetExhausted_of_none howner hnone)
  case budget => exact congrArg Host.Outcome.next (State.budgetExhausted_of_stopped howner hx)
  case last => exact congrArg Host.Outcome.next ((if_pos hup).trans (State.cowResolve_of_last howner hleaf hcow hnear hlast _))
  case shared => exact congrArg Host.Outcome.next ((if_pos hup).trans (State.cowResolve_of_shared howner hleaf hcow hnear hshared _))
  case copied =>
    have htier : t.tier ≠ 2 := fun hfar => absurd hnear (by rw [hfar]; decide)
    refine ⟨_, congrArg Host.Outcome.next ((if_pos hup).trans (State.tierCopyDone_of_near hmove hleaf hcopied hmoving htier hfits)),
      State.copiedTo_mem_markCopied ?_ _⟩
    rw [State.tierMoves_of_transfers (State.transfers_writePage ..), State.tierMoves_copySource]
    exact List.mem_of_find?_eq_some hmove

end Sys2Proof.Machine
end

section
/-! SUPPORT. The block (chapter 0): a step runs the command at the front of the queue, every command answers, every command keeps memory in its canonical
form, and what the state after reset holds. -/

namespace Sys2Proof.Machine

/-! One command a step -/

theorem step_of_cons {s : State} {c : Instr} {rest : List Instr} (h : s.pending = c :: rest) : step s = exec c { s with pending := rest } := by
  rw [step, h]

theorem step_of_nil {s : State} (h : s.pending = []) : step s = .next s := by rw [step, h]

/-- Settles O1: a queue that has a front command, and one that is empty. -/
theorem stepRunsFrontCommand : Obligations.StepRunsFrontCommand := by
  unfold Obligations.StepRunsFrontCommand
  exact ⟨fun _ _ _ h => step_of_cons h, fun _ h => step_of_nil h⟩

/-! Every command answers: the meanings that branch before they answer, and the table -/

theorem execBoundary_answers (square : Nat) (turn : BitVec 56) (s : State) : ∃ t : State, execBoundary square turn s = .next t := by
  unfold execBoundary
  dsimp only
  split
  · split <;> exact ⟨_, rfl⟩
  · exact ⟨_, rfl⟩

theorem execPreempt_answers (square : Nat) (s : State) : ∃ t : State, execPreempt square s = .next t := by
  unfold execPreempt
  dsimp only
  split
  · split <;> exact ⟨_, rfl⟩
  · exact ⟨_, rfl⟩
  · exact ⟨_, rfl⟩

theorem execAbort_answers (square : Nat) (s : State) : ∃ t : State, execAbort square s = .next t := by
  unfold execAbort
  dsimp only
  split
  · split <;> exact ⟨_, rfl⟩
  · exact ⟨_, rfl⟩

/-- Settles O2: but for three messages of the S-net, the meaning of a command is one answer. -/
theorem everyCommandAnswers : Obligations.EveryCommandAnswers := by
  unfold Obligations.EveryCommandAnswers
  intro i s
  cases i with
  | boundary square turn => exact execBoundary_answers square turn s
  | preempt square => exact execPreempt_answers square s
  | abort square => exact execAbort_answers square s
  | _ => exact ⟨_, rfl⟩

/-! Memory -/

/-- Each command keeps memory in its canonical form, by what its meaning writes. -/
theorem exec_memOk {i : Instr} {s t : State} (e : exec i s = .next t) (hs : s.memOk) : t.memOk := by
  cases i with
  | deviceInfo _ => exact execDeviceInfo_memOk e hs
  | deviceSiteEnable _ _ => exact execDeviceSiteEnable_memOk e hs
  | deviceSiteReserve _ _ => exact execDeviceSiteReserve_memOk e hs
  | deviceFwStage _ _ _ => exact execDeviceFwStage_memOk e hs
  | deviceGrantFleet _ _ _ => exact execDeviceGrantFleet_memOk e hs
  | partitionForm _ _ _ _ _ => exact execPartitionForm_memOk e hs
  | partitionDissolve _ => exact execPartitionDissolve_memOk e hs
  | partitionComputeReset _ _ => exact execPartitionComputeReset_memOk e hs
  | partitionFullReset _ _ => exact execPartitionFullReset_memOk e hs
  | hostDieReset _ _ => exact execHostDieReset_memOk e hs
  | partitionCacheLayout _ _ _ _ => exact execPartitionCacheLayout_memOk e hs
  | partitionPublish _ _ _ _ => exact execPartitionPublish_memOk e hs
  | partitionPolicySet _ _ _ => exact execPartitionPolicySet_memOk e hs
  | partitionPolicyGet _ _ => exact execPartitionPolicyGet_memOk e hs
  | partitionGrant _ _ _ _ _ => exact execPartitionGrant_memOk e hs
  | bookLoad _ _ _ => exact execBookLoad_memOk e hs
  | bookUnload _ _ => exact execBookUnload_memOk e hs
  | bookMap _ _ => exact execBookMap_memOk e hs
  | bookPreempt _ => exact execBookPreempt_memOk e hs
  | streamOpen _ _ _ => exact execStreamOpen_memOk e hs
  | streamAppend _ _ _ _ => exact execStreamAppend_memOk e hs
  | streamAdvance _ _ _ => exact execStreamAdvance_memOk e hs
  | streamClose _ _ => exact execStreamClose_memOk e hs
  | streamPark _ _ => exact execStreamPark_memOk e hs
  | streamUnpark _ _ => exact execStreamUnpark_memOk e hs
  | streamMigrate _ _ _ _ => exact execStreamMigrate_memOk e hs
  | streamFork _ _ _ => exact execStreamFork_memOk e hs
  | stateInvalidate _ _ _ _ => exact execStateInvalidate_memOk e hs
  | stateTier _ _ _ _ _ => exact execStateTier_memOk e hs
  | stateQuery _ _ _ => exact execStateQuery_memOk e hs
  | linkStatus _ _ => exact execLinkStatus_memOk e hs
  | linkRetrain _ _ => exact execLinkRetrain_memOk e hs
  | linkRoleSetRole _ _ _ _ => exact execLinkRoleSetRole_memOk e hs
  | linkRoleSetModuleId _ _ _ => exact execLinkRoleSetModuleId_memOk e hs
  | logFreeze _ => exact execLogFreeze_memOk e hs
  | logThaw _ => exact execLogThaw_memOk e hs
  | logRead _ _ _ _ => exact execLogRead_memOk e hs
  | logClearKeep _ => exact execLogClearKeep_memOk e hs
  | logRate _ _ _ => exact execLogRate_memOk e hs
  | debugChallenge _ => exact execDebugChallenge_memOk e hs
  | debugRespond _ _ => exact execDebugRespond_memOk e hs
  | debugHalt _ _ => exact execDebugHalt_memOk e hs
  | debugResume _ _ => exact execDebugResume_memOk e hs
  | debugTrace _ _ => exact execDebugTrace_memOk e hs
  | powerPolicySet _ _ _ => exact execPowerPolicySet_memOk e hs
  | powerPolicyGet _ _ => exact execPowerPolicyGet_memOk e hs
  | powerStatus _ => exact execPowerStatus_memOk e hs
  | nop _ => exact execNop_memOk e hs
  | check _ _ _ _ => exact execCheck_memOk e hs
  | lateData _ _ => exact execLateData_memOk e hs
  | yield _ => exact execYield_memOk e hs
  | trace _ _ => exact execTrace_memOk e hs
  | pass _ _ _ _ _ _ _ _ _ _ _ _ => exact execPass_memOk e hs
  | drain _ _ _ _ _ => exact execDrain_memOk e hs
  | drainHeld _ _ _ _ _ => exact execDrainHeld_memOk e hs
  | gang _ _ _ => exact execGang_memOk e hs
  | add _ _ => exact execAdd_memOk e hs
  | sub _ _ => exact execSub_memOk e hs
  | mul _ _ => exact execMul_memOk e hs
  | fma _ _ => exact execFma_memOk e hs
  | min _ _ => exact execMin_memOk e hs
  | max _ _ => exact execMax_memOk e hs
  | select _ _ => exact execSelect_memOk e hs
  | div _ _ => exact execDiv_memOk e hs
  | sqrt _ _ => exact execSqrt_memOk e hs
  | recip _ _ => exact execRecip_memOk e hs
  | exp _ _ => exact execExp_memOk e hs
  | log _ _ => exact execLog_memOk e hs
  | rsqrt _ _ => exact execRsqrt_memOk e hs
  | tanh _ _ => exact execTanh_memOk e hs
  | sigmoid _ _ => exact execSigmoid_memOk e hs
  | iadd _ _ => exact execIadd_memOk e hs
  | imul _ _ => exact execImul_memOk e hs
  | cvt _ _ => exact execCvt_memOk e hs
  | rsum _ _ => exact execRsum_memOk e hs
  | rmax _ _ => exact execRmax_memOk e hs
  | rmin _ _ => exact execRmin_memOk e hs
  | csum _ _ => exact execCsum_memOk e hs
  | cmax _ _ => exact execCmax_memOk e hs
  | cmin _ _ => exact execCmin_memOk e hs
  | softmax _ _ => exact execSoftmax_memOk e hs
  | lnorm _ _ => exact execLnorm_memOk e hs
  | rmsnorm _ _ => exact execRmsnorm_memOk e hs
  | topk _ _ => exact execTopk_memOk e hs
  | rand _ _ => exact execRand_memOk e hs
  | sample _ _ => exact execSample_memOk e hs
  | sb3enc _ _ => exact execSb3enc_memOk e hs
  | load _ _ _ => exact execLoad_memOk e hs
  | store _ _ _ => exact execStore_memOk e hs
  | send _ _ _ => exact execSend_memOk e hs
  | twin _ _ => exact execTwin_memOk e hs
  | moveComplete _ _ _ => exact execMoveComplete_memOk e hs
  | sendArrival _ _ _ => exact execSendArrival_memOk e hs
  | sackReceipt _ _ _ => exact execSackReceipt_memOk e hs
  | playStart _ => exact execPlayStart_memOk e hs
  | dieDone _ _ => exact execDieDone_memOk e hs
  | plannedBoundary _ => exact execPlannedBoundary_memOk e hs
  | slipChangeoverStart _ => exact execSlipChangeoverStart_memOk e hs
  | slipLimit _ => exact execSlipLimit_memOk e hs
  | abortDrainEnd _ _ => exact execAbortDrainEnd_memOk e hs
  | changeoverStart _ _ => exact execChangeoverStart_memOk e hs
  | clockStepChange _ => exact execClockStepChange_memOk e hs
  | changeoverWork _ _ _ _ => exact execChangeoverWork_memOk e hs
  | rookWindow _ _ _ _ => exact execRookWindow_memOk e hs
  | rookReady _ => exact execRookReady_memOk e hs
  | startOfPlayBarrier _ => exact execStartOfPlayBarrier_memOk e hs
  | stretchTimeout _ => exact execStretchTimeout_memOk e hs
  | preemptionComplete _ => exact execPreemptionComplete_memOk e hs
  | gameClockTick => exact execGameClockTick_memOk e hs
  | slewAdjust => exact execSlewAdjust_memOk e hs
  | time _ _ => exact execTime_memOk e hs
  | timeBroadcast => exact execTimeBroadcast_memOk e hs
  | boundary _ _ => exact execBoundary_memOk e hs
  | done _ _ => exact execDone_memOk e hs
  | ready _ _ => exact execReady_memOk e hs
  | yielded _ _ => exact execYielded_memOk e hs
  | preempt _ => exact execPreempt_memOk e hs
  | abort _ => exact execAbort_memOk e hs
  | clkRefLoss => exact execClkRefLoss_memOk e hs
  | clkRefRelock _ => exact execClkRefRelock_memOk e hs
  | gcSet _ _ => exact execGcSet_memOk e hs
  | gcSlew _ _ => exact execGcSlew_memOk e hs
  | crossingMarginLow _ => exact execCrossingMarginLow_memOk e hs
  | registerWrite _ _ _ _ => exact execRegisterWrite_memOk e hs
  | refWdog _ _ => exact execRefWdog_memOk e hs
  | watchdogExpiry => exact execWatchdogExpiry_memOk e hs
  | lockstep _ => exact execLockstep_memOk e hs
  | warmRestartComplete => exact execWarmRestartComplete_memOk e hs
  | mbRingProd _ _ _ _ => exact execMbRingProd_memOk e hs
  | mbRingCqCons _ _ _ _ => exact execMbRingCqCons_memOk e hs
  | ringEnable _ _ _ _ => exact execRingEnable_memOk e hs
  | ringDisable _ _ _ _ => exact execRingDisable_memOk e hs
  | ringDrained _ _ => exact execRingDrained_memOk e hs
  | ringVisit _ _ _ => exact execRingVisit_memOk e hs
  | msiHoldoffExpiry _ _ => exact execMsiHoldoffExpiry_memOk e hs
  | bmcCommand _ _ => exact execBmcCommand_memOk e hs
  | mctpRecovery _ => exact execMctpRecovery_memOk e hs
  | bnetPacket _ _ _ _ => exact execBnetPacket_memOk e hs
  | bnetNak _ _ _ => exact execBnetNak_memOk e hs
  | bnetReplayTimeout _ _ _ => exact execBnetReplayTimeout_memOk e hs
  | circuitForward _ _ _ => exact execCircuitForward_memOk e hs
  | cnetPacket _ _ _ => exact execCnetPacket_memOk e hs
  | cnetInjectionRelease _ _ => exact execCnetInjectionRelease_memOk e hs
  | hartAccess _ _ _ _ _ _ => exact execHartAccess_memOk e hs
  | cacheBlockClean _ _ _ _ => exact execCacheBlockClean_memOk e hs
  | hscRequest _ _ _ _ _ => exact execHscRequest_memOk e hs
  | generalLineEviction _ => exact execGeneralLineEviction_memOk e hs
  | dramRead _ _ _ _ => exact execDramRead_memOk e hs
  | dramWrite _ _ _ => exact execDramWrite_memOk e hs
  | sramRead _ _ _ _ => exact execSramRead_memOk e hs
  | bucketLeak _ _ _ => exact execBucketLeak_memOk e hs
  | bankZeroComplete _ _ => exact execBankZeroComplete_memOk e hs
  | releaseFillComplete _ => exact execReleaseFillComplete_memOk e hs
  | msiWrite _ _ _ => exact execMsiWrite_memOk e hs
  | hdMtimecmp _ _ => exact execHdMtimecmp_memOk e hs
  | hostClockChange _ _ => exact execHostClockChange_memOk e hs
  | inboundPcieRequest _ _ _ => exact execInboundPcieRequest_memOk e hs
  | intxMessage _ => exact execIntxMessage_memOk e hs
  | pcieWake _ => exact execPcieWake_memOk e hs
  | hostProbe _ => exact execHostProbe_memOk e hs
  | hostProbeMiss _ => exact execHostProbeMiss_memOk e hs
  | faultResolved _ _ => exact execFaultResolved_memOk e hs
  | faultUnresolvable _ _ => exact execFaultUnresolvable_memOk e hs
  | holdBudgetExhausted _ => exact execHoldBudgetExhausted_memOk e hs
  | cowResolve _ _ _ _ => exact execCowResolve_memOk e hs
  | farRecall _ _ _ _ _ => exact execFarRecall_memOk e hs
  | tierCopyDone _ _ _ _ => exact execTierCopyDone_memOk e hs
  | stPinLend _ _ _ => exact execStPinLend_memOk e hs
  | ccPubWrite _ _ _ _ _ => exact execCcPubWrite_memOk e hs
  | olPoolMap _ _ _ _ => exact execOlPoolMap_memOk e hs
  | mcErase _ _ _ => exact execMcErase_memOk e hs
  | migrationCopyDone _ _ _ => exact execMigrationCopyDone_memOk e hs
  | migrationFail _ _ _ => exact execMigrationFail_memOk e hs
  | flitReceipt _ _ => exact execFlitReceipt_memOk e hs
  | retryReq _ _ => exact execRetryReq_memOk e hs
  | flitReplayTimeout _ => exact execFlitReplayTimeout_memOk e hs
  | quadDown _ _ => exact execQuadDown_memOk e hs
  | knockSend _ => exact execKnockSend_memOk e hs
  | knock _ _ => exact execKnock_memOk e hs
  | knockWindowExpiry _ => exact execKnockWindowExpiry_memOk e hs
  | csyncRequest => exact execCsyncRequest_memOk e hs
  | csync _ _ _ => exact execCsync_memOk e hs
  | hello _ _ _ => exact execHello_memOk e hs
  | trainingAttemptTimeout _ => exact execTrainingAttemptTimeout_memOk e hs
  | backgroundAttempt _ => exact execBackgroundAttempt_memOk e hs
  | fecRetrain _ _ => exact execFecRetrain_memOk e hs
  | prd _ _ => exact execPrd_memOk e hs
  | pdata _ _ => exact execPdata_memOk e hs
  | pwr _ _ => exact execPwr_memOk e hs
  | pwack _ _ => exact execPwack_memOk e hs
  | opticalSend _ _ => exact execOpticalSend_memOk e hs
  | opticalSack _ _ => exact execOpticalSack_memOk e hs
  | copy _ _ => exact execCopy_memOk e hs
  | cack _ _ => exact execCack_memOk e hs
  | err _ _ => exact execErr_memOk e hs
  | e2eKnock _ _ => exact execE2eKnock_memOk e hs
  | e2eKnockMiss _ => exact execE2eKnockMiss_memOk e hs
  | poolLineTimeout _ _ => exact execPoolLineTimeout_memOk e hs
  | command _ _ _ => exact execCommand_memOk e hs
  | completion _ _ => exact execCompletion_memOk e hs
  | spanConfirm _ _ => exact execSpanConfirm_memOk e hs
  | spanConfirmTimeout _ => exact execSpanConfirmTimeout_memOk e hs
  | spanLoadFail _ _ => exact execSpanLoadFail_memOk e hs
  | spanAbort _ _ => exact execSpanAbort_memOk e hs
  | spanChange _ _ => exact execSpanChange_memOk e hs
  | debugPause _ _ => exact execDebugPause_memOk e hs
  | migrateReq _ _ => exact execMigrateReq_memOk e hs
  | migrateAdmit _ _ => exact execMigrateAdmit_memOk e hs
  | migrateDone _ _ => exact execMigrateDone_memOk e hs
  | voltageLoop _ _ _ _ => exact execVoltageLoop_memOk e hs
  | powerMeasurement _ _ _ _ => exact execPowerMeasurement_memOk e hs
  | supplyOutOfWindow _ _ => exact execSupplyOutOfWindow_memOk e hs
  | regionOvercurrent _ => exact execRegionOvercurrent_memOk e hs
  | vaOutOfWindow => exact execVaOutOfWindow_memOk e hs
  | thermalSample _ _ _ => exact execThermalSample_memOk e hs
  | thermTrip _ _ => exact execThermTrip_memOk e hs
  | coolingRead _ _ => exact execCoolingRead_memOk e hs
  | coldStart _ => exact execColdStart_memOk e hs
  | holdupRetry _ _ => exact execHoldupRetry_memOk e hs
  | resetNAssert => exact execResetNAssert_memOk e hs
  | pwrFailNAssert => exact execPwrFailNAssert_memOk e hs
  | pwrFailNRelease _ => exact execPwrFailNRelease_memOk e hs
  | dramRetrain _ _ _ => exact execDramRetrain_memOk e hs
  | reserveSelfTest _ _ => exact execReserveSelfTest_memOk e hs
  | maintenanceTurn _ => exact execMaintenanceTurn_memOk e hs
  | eventReport _ => exact execEventReport_memOk e hs
  | flush => exact execFlush_memOk e hs
  | flushComplete _ => exact execFlushComplete_memOk e hs
  | flashFailRetry _ => exact execFlashFailRetry_memOk e hs
  | rateWindowClose _ _ => exact execRateWindowClose_memOk e hs
  | opsecSecond => exact execOpsecSecond_memOk e hs
  | freezeTimeout => exact execFreezeTimeout_memOk e hs
  | dmRegisterAccess _ _ _ _ => exact execDmRegisterAccess_memOk e hs
  | rookHalt _ _ => exact execRookHalt_memOk e hs
  | rookResume _ => exact execRookResume_memOk e hs
  | sessionExpiry _ => exact execSessionExpiry_memOk e hs
  | challengeLockoutEnd _ => exact execChallengeLockoutEnd_memOk e hs
  | traceRecord _ => exact execTraceRecord_memOk e hs
  | jtagInstruction _ => exact execJtagInstruction_memOk e hs
  | jtagUnlock _ => exact execJtagUnlock_memOk e hs
  | computeDieClockLoss _ => exact execComputeDieClockLoss_memOk e hs
  | hostDieClockLoss _ => exact execHostDieClockLoss_memOk e hs
  | shadowMismatch _ _ => exact execShadowMismatch_memOk e hs
  | computeDieReset _ _ => exact execComputeDieReset_memOk e hs
  | doneReport _ _ => exact execDoneReport_memOk e hs
  | helloSend _ => exact execHelloSend_memOk e hs
  | e2eKnockSend _ => exact execE2eKnockSend_memOk e hs
  | laneLock _ => exact execLaneLock_memOk e hs
  | supplyInWindow _ _ => exact execSupplyInWindow_memOk e hs
  | pcieLinkChange _ _ _ _ _ => exact execPcieLinkChange_memOk e hs
  | dramRetrainComplete _ _ _ => exact execDramRetrainComplete_memOk e hs
  | batchStaging _ _ => exact execBatchStaging_memOk e hs

/-- Settles O3: a step is one command, which keeps the canonical form, or none. -/
theorem stepKeepsMemoryForm : Obligations.StepKeepsMemoryForm := by
  unfold Obligations.StepKeepsMemoryForm
  intro s t hs e
  cases hq : s.pending with
  | nil =>
    rw [step_of_nil hq, Host.Outcome.next.injEq] at e
    exact e ▸ hs
  | cons c rest =>
    have hrest : State.memOk { s with pending := rest } := hs
    exact exec_memOk ((step_of_cons hq).symm.trans e) hrest

/-! The state after reset -/

theorem State.byte_reset (a : Nat) : State.reset.byte a = 0 := rfl

/-- Settles O4: after reset no byte is listed. -/
theorem resetMemoryForm : Obligations.ResetMemoryForm := by
  unfold Obligations.ResetMemoryForm
  exact ⟨rfl, State.byte_reset⟩

/-- After reset the register file lists no register, so that each reads as its row of the tables says. -/
theorem State.reg_reset (n : RegName) (i j : Nat) : State.reset.reg n i j = (rk n i j).reset := rfl

theorem State.ctr_reset (i n : Nat) : State.reset.ctr i n = 0 := by
  have hreg : State.reset.reg .sqCtr i n = 0 := State.reg_reset ..
  rw [State.ctr, State.field, hreg]
  decide

theorem State.flag_ptStatus_reset (p b : Nat) : State.reset.flag .ptStatus p 0 b = false := by
  have hreg : State.reset.reg .ptStatus p 0 = 0 := State.reg_reset ..
  rw [State.flag, hreg, bitAt]
  exact BitVec.getLsbD_zero

theorem State.phase_reset (p : Nat) : State.reset.phase p = 0 := by
  have hreg : State.reset.reg .tnStatus p 0 = 0 := State.reg_reset ..
  rw [State.phase, State.field, hreg]
  decide

/-- The leak and the capacity of each kind of bucket (R393, Table 14.1). -/
theorem buckets_reset : (List.range 6).map (fun k => State.reset.field .bktCfg 0 k 0 16) = [64, 16, 16, 8, 16, 4] ∧
    (List.range 6).map (fun k => State.reset.field .bktCfg 0 k 16 32) = [1000, 10000, 10000, 60000, 10000, 60000] := by
  constructor <;> decide

/-- Settles O55: each register by its row of the tables. -/
theorem resetRegisters : Obligations.ResetRegisters := by
  unfold Obligations.ResetRegisters
  exact ⟨fun p => ⟨State.reg_reset .tnTurnLen p 0, State.reg_reset .tnChgLen p 0⟩, fun c => State.reg_reset .hdMtimecmp c 0, State.reg_reset .olPoolTmo 0 0,
    fun n => State.reg_reset .olPoolQuads 0 n, buckets_reset, fun q n => State.reg_reset .bnSlot q n, State.reg_reset .refStatus 0 0,
    State.reg_reset .refRestarts 0 0, State.reg_reset .refLastRestart 0 0, rfl, rfl, rfl, fun p => ⟨State.reg_reset .tnTurn p 0, State.phase_reset p,
      State.flag_ptStatus_reset p 1, State.flag_ptStatus_reset p 2⟩,
    fun p n => ⟨State.reg_reset .mbRingCtl p n, State.reg_reset .mbRingProd p n, State.reg_reset .mbRingCqProd p n⟩,
    fun q => ⟨State.reg_reset .bnStatus q 0, State.reg_reset .bnTxBytes q 0⟩, State.ctr_reset⟩

end Sys2Proof.Machine
end

section
/-! SUPPORT. The event recorder (chapter 18): what entering a record leaves of the must-keep area, the side buffer and EV_STATUS; rate windows and their
limits; flushes, freezes and operating seconds. -/

namespace Sys2Proof.Machine

/-! What entering a record leaves -/

/-- From s to t records have been entered: the mirror of the must-keep area stands, and of EV_STATUS all but FLUSHING and KEEP_FULL. -/
structure Logged (s t : State) : Prop where
  mirror : t.recorder.keepMirror = s.recorder.keepMirror
  status : ∀ b, b < 64 → b ≠ 3 → b ≠ 4 → t.flag .evStatus 0 0 b = s.flag .evStatus 0 0 b

namespace Logged

theorem refl (s : State) : Logged s s := ⟨rfl, fun _ _ _ _ => rfl⟩

theorem trans {s t u : State} (h : Logged s t) (k : Logged t u) : Logged s u :=
  ⟨k.mirror.trans h.mirror, fun b hb h3 h4 => (k.status b hb h3 h4).trans (h.status b hb h3 h4)⟩

theorem ite {s t u : State} {c : Prop} [Decidable c] (h : Logged s t) (k : Logged s u) : Logged s (if c then t else u) := by
  split <;> assumption

theorem foldl {α : Type} {f : State → α → State} (h : ∀ s a, Logged s (f s a)) (l : List α) (s : State) : Logged s (l.foldl f s) :=
  List.foldlRecOn (motive := Logged s) l f (refl s) fun t ht a _ => ht.trans (h t a)

theorem modPart (s : State) (p : Nat) (f : Part → Part) : Logged s (s.modPart p f) := ⟨rfl, fun _ _ _ _ => rfl⟩

theorem modRecorder (s : State) {f : Recorder → Recorder} (h : ∀ x, (f x).keepMirror = x.keepMirror := by exact fun _ => rfl) :
    Logged s (s.modRecorder f) := ⟨h _, fun _ _ _ _ => rfl⟩

theorem setReg (s : State) {n : RegName} (h : n ≠ .evStatus) (i j : Nat) (v : Word) : Logged s (s.setReg n i j v) :=
  ⟨rfl, fun _ _ _ _ => by simp [State.flag, h]⟩

theorem setFlag (s : State) {b : Nat} (h : b = 3 ∨ b = 4) (x : Bool) : Logged s (s.setFlag .evStatus 0 0 b x) :=
  ⟨rfl, fun c hc h3 h4 => by rw [State.flag_setFlag _ _ _ _ _ _ _ hc, if_neg (by omega)]⟩

theorem dropRecord (s : State) (r : Record) : Logged s (s.dropRecord r) :=
  (setReg s (by decide) ..).trans (foldl (fun _ _ => modPart ..) _ _)

theorem logRecord (s : State) (r : Record) : Logged s (s.logRecord r) := by
  unfold State.logRecord
  split
  · exact modRecorder s
  · exact dropRecord s r

theorem beginFlush (s : State) : Logged s s.beginFlush :=
  ite (modRecorder s) ((modRecorder s).trans (setFlag _ (Or.inl rfl) true))

theorem viewRecord (s : State) (r : Record) : Logged s (s.viewRecord r) := ite (refl s) (foldl (fun _ _ => modPart ..) _ _)

theorem enterRing (s : State) (r : Record) : Logged s (s.enterRing r) := by
  unfold State.enterRing
  extract_lets wt s1 r1 need ok
  have h1 : Logged s s1 := ite (logRecord ..) (refl s)
  refine h1.trans (ite (dropRecord ..) ?_)
  extract_lets lost s2 s3
  have h3 : Logged s1 s3 := ((modRecorder s1).trans (viewRecord ..)).trans (setReg _ (by decide) ..)
  exact ite (h3.trans (beginFlush _)) h3

theorem numberRecord (s : State) (r : Report) : Logged s (s.numberRecord r) := by
  unfold State.numberRecord
  extract_lets x n f s1 s2
  have h2 : Logged s s2 := (modRecorder s).trans (setReg _ (by decide) ..)
  exact ite (setReg s (by decide) ..) (ite (h2.trans (modRecorder _)) (h2.trans (enterRing ..)))

theorem keepRecord (s : State) (r : Record) : Logged s (s.keepRecord r) := by
  unfold State.keepRecord
  refine ite ((modRecorder s).trans (setReg _ (by decide) ..)) ?_
  extract_lets s1 s2 s3
  have h2 : Logged s s2 := (setReg s (by decide) ..).trans (setFlag _ (Or.inr rfl) true)
  exact ite h2 ((h2.trans (modRecorder _)).trans (numberRecord ..))

theorem accept (s : State) (r : Report) : Logged s (s.accept r) :=
  ite ((numberRecord ..).trans (keepRecord ..)) (numberRecord ..)

theorem record (s : State) (r : Report) : Logged s (s.record r) := by
  unfold State.record
  refine ite (accept ..) ?_
  split
  · exact (modRecorder s).trans (accept ..)
  · extract_lets full w s1 s2
    have h1 : Logged s s1 := modRecorder s
    exact ite ((h1.trans (setReg _ (by decide) ..)).trans (foldl (fun _ _ => modPart ..) _ _)) (h1.trans (accept ..))

theorem report (s : State) (r : Report) : Logged s (s.report r) :=
  ite (record ..) (ite (modRecorder s) ((modRecorder s).trans (setReg _ (by decide) ..)))

end Logged

theorem State.recorder_dropRecord (s : State) (r : Record) : (s.dropRecord r).recorder = s.recorder :=
  List.foldlRecOn (motive := fun t : State => t.recorder = s.recorder) (partsOf r.report.part) _ rfl fun _ ht _ _ => ht

theorem State.recorder_viewRecord (s : State) (r : Record) : (s.viewRecord r).recorder = s.recorder := by
  unfold State.viewRecord
  split
  · rfl
  · exact List.foldlRecOn (motive := fun t : State => t.recorder = s.recorder) (partsOf r.report.part) _ rfl fun _ ht _ _ => ht

/-- What the must-keep area and the side buffer of a freeze hold. -/
def Recorder.stores (x : Recorder) : List Record × List Record := (x.keep, x.side)

theorem State.stores_logRecord (s : State) (r : Record) : (s.logRecord r).recorder.stores = s.recorder.stores := by
  unfold State.logRecord
  split
  · rfl
  · rw [State.recorder_dropRecord]

theorem State.stores_beginFlush (s : State) : s.beginFlush.recorder.stores = s.recorder.stores := by
  unfold State.beginFlush
  split <;> rfl

theorem State.stores_enterRing (s : State) (r : Record) : (s.enterRing r).recorder.stores = s.recorder.stores := by
  unfold State.enterRing
  extract_lets wt s1 r1 need ok
  have h1 : s1.recorder.stores = s.recorder.stores := by
    unfold s1
    split
    · exact s.stores_logRecord r
    · rfl
  refine Eq.trans ?_ h1
  split
  next kept gone =>
  split
  · rw [State.recorder_dropRecord]
  · extract_lets lost s2 s3
    have h3 : s3.recorder.stores = s1.recorder.stores := (congrArg Recorder.stores (State.recorder_viewRecord s2 _)).trans rfl
    split
    · exact (State.stores_beginFlush _).trans h3
    · exact h3

theorem State.stores_foldl {α : Type} {f : State → α → State} (h : ∀ s a, (f s a).recorder.stores = s.recorder.stores) (l : List α) (s : State) :
    (l.foldl f s).recorder.stores = s.recorder.stores :=
  List.foldlRecOn (motive := fun t => t.recorder.stores = s.recorder.stores) l f rfl fun t ht a _ => (h t a).trans ht

/-! Flushes (R475, R487) -/

theorem State.flag_bump_of_ne {n m : RegName} (h : m ≠ n) (s : State) (i j b k l x : Nat) : (s.bump m k l x).flag n i j b = s.flag n i j b := by
  simp [State.flag, h]


theorem State.flag_setFlag_self (s : State) (n : RegName) (i j b : Nat) (x : Bool) (hb : b < 64) : (s.setFlag n i j b x).flag n i j b = x := by
  rw [State.flag_setFlag _ _ _ _ _ _ _ hb, if_pos rfl]

theorem State.beginFlush_of_idle {s : State} (hfreeze : s.flag .evStatus 0 0 1 = false) (hflush : s.recorder.flushing = false) :
    s.beginFlush.recorder.flushing = true ∧ s.beginFlush.flag .evStatus 0 0 3 = true ∧ s.beginFlush.recorder.ring = s.recorder.ring := by
  unfold State.beginFlush
  rw [if_neg (by simp [hfreeze, hflush])]
  exact ⟨rfl, State.flag_setFlag_self _ _ _ _ _ _ (by decide), rfl⟩

theorem State.beginFlush_of_busy {s : State} (h : s.flag .evStatus 0 0 1 = true ∨ s.recorder.flushing = true) :
    s.beginFlush = s.modRecorder (fun x => { x with flushDue := true }) := if_pos (by simpa using h)

/-- Where no freeze holds it off, a flush is in progress after one is asked for. -/
theorem State.flushing_beginFlush {s : State} (hfreeze : s.flag .evStatus 0 0 1 = false) : s.beginFlush.recorder.flushing = true := by
  cases hflush : s.recorder.flushing with
  | true =>
    rw [State.beginFlush_of_busy (Or.inr hflush)]
    exact hflush
  | false => exact (State.beginFlush_of_idle hfreeze hflush).1

theorem State.flag_alert (s : State) (n : RegName) (i j b : Nat) : s.alert.flag n i j b = s.flag n i j b := rfl

theorem State.flag_countUnflushed (s : State) (i j b : Nat) : s.countUnflushed.flag .evStatus i j b = s.flag .evStatus i j b := by
  simp [State.countUnflushed, State.flag]

/-- The end of a flush that is good, up to what it reports and the flush that is due: the records are in the log, the header and the mirror are written. -/
def State.settleFlush (s : State) : State :=
  let seqs := s.recorder.flushSeqs
  let s := (s.recorder.ring.filter (fun r => decide (r.seq ∈ seqs) && !r.flushed)).foldl (fun s r => s.logRecord r) s
  let failed := s.flag .evStatus 0 0 5
  let s := s.modRecorder (fun x => { x with
    ring := markFlushed seqs x.ring, keepMirror := x.keep, headerSeq := x.nextSeq - 1, headerOpsec := x.opsec, headerPwrcyc := x.pwrcyc,
    flushing := false, flushRetry := false, flushSeqs := [], flashLost := if failed then 0 else x.flashLost })
  let s := ((s.setFlag .evStatus 0 0 3 false).setFlag .evStatus 0 0 5 false).bump .evFlushes
  (if failed then s.releaseAlert else s).countUnflushed

theorem Logged.finishFlush (s : State) : Logged s.settleFlush s.finishFlush := by
  unfold State.finishFlush
  extract_lets seqs s1 lost failed s2 s3 s4 s5
  have h5 : Logged s.settleFlush s5 := ite (report ..) (refl _)
  exact ite (h5.trans (beginFlush _)) h5

theorem State.releaseAlert_recorder (s : State) : s.releaseAlert.recorder = s.recorder := by
  unfold State.releaseAlert
  split <;> rfl

theorem State.settleFlush_outcome (s : State) :
    s.settleFlush.flag .evStatus 0 0 5 = false ∧ s.settleFlush.recorder.keepMirror = s.recorder.keep := by
  unfold State.settleFlush
  extract_lets seqs s1 failed s2 s3
  have hkeep : s1.recorder.keep = s.recorder.keep := congrArg Prod.fst (State.stores_foldl State.stores_logRecord _ s)
  have hflag : s3.flag .evStatus 0 0 5 = false :=
    (State.flag_bump_of_ne (by decide) ..).trans (State.flag_setFlag_self _ _ _ _ _ _ (by decide))
  have hreleased : (if failed then s3.releaseAlert else s3).regs = s3.regs ∧ (if failed then s3.releaseAlert else s3).recorder = s3.recorder := by
    split
    · exact ⟨s3.releaseAlert_outcome.1, s3.releaseAlert_recorder⟩
    · exact ⟨rfl, rfl⟩
  generalize (if failed then s3.releaseAlert else s3) = u at hreleased
  obtain ⟨hregs, hrecorder⟩ := hreleased
  refine ⟨?_, (congrArg Recorder.keepMirror hrecorder).trans hkeep⟩
  rw [State.flag_countUnflushed, State.flag_of_regs hregs, hflag]

theorem State.finishFlush_outcome (s : State) :
    s.finishFlush.flag .evStatus 0 0 5 = false ∧ s.finishFlush.recorder.keepMirror = s.recorder.keep :=
  have hlogged := Logged.finishFlush s
  ⟨(hlogged.status 5 (by decide) (by decide) (by decide)).trans s.settleFlush_outcome.1, hlogged.mirror.trans s.settleFlush_outcome.2⟩

theorem State.failFlush_of_first {s : State} (h : s.recorder.flushRetry = false) :
    s.failFlush = s.modRecorder (fun x => { x with flushRetry := true }) := by simp [State.failFlush, h]

theorem State.failFlush_of_second {s : State} (h : s.recorder.flushRetry = true) :
    s.failFlush.flag .evStatus 0 0 5 = true ∧ s.failFlush.pins.alertN = false ∧ s.failFlush.recorder.flushing = false := by
  rw [State.failFlush, if_neg (by simp [h])]
  exact ⟨(State.flag_alert ..).trans (State.flag_setFlag_self _ _ _ _ _ _ (by decide)), rfl, rfl⟩

/-! Freezes (R484) -/

/-- The side buffer of a freeze has entered the ring. -/
def State.unfreeze (s : State) : State :=
  s.recorder.side.foldl (fun s r => s.enterRing r)
    ((s.modRecorder (fun x => { x with side := [], frozenBy := none })).setFlag .evStatus 0 0 1 false)

theorem State.thaw_of_frozen {s : State} (h : s.flag .evStatus 0 0 1 = true) :
    s.thaw = if s.unfreeze.recorder.flushDue ∧ !s.unfreeze.recorder.flushing then s.unfreeze.beginFlush else s.unfreeze := by
  rw [State.thaw, if_neg (by simp [h])]
  rfl

theorem State.thaw_of_free {s : State} (h : s.flag .evStatus 0 0 1 = false) : s.thaw = s := by simp [State.thaw, h]

theorem State.freeze_thaw (s : State) : s.thaw.flag .evStatus 0 0 1 = false := by
  cases h : s.flag .evStatus 0 0 1 with
  | false => rw [State.thaw_of_free h, h]
  | true =>
    have hunfreeze : s.unfreeze.flag .evStatus 0 0 1 = false :=
      ((Logged.foldl Logged.enterRing _ _).status 1 (by decide) (by decide) (by decide)).trans (State.flag_setFlag_self _ _ _ _ _ _ (by decide))
    rw [State.thaw_of_frozen h]
    split
    · exact ((Logged.beginFlush _).status 1 (by decide) (by decide) (by decide)).trans hunfreeze
    · exact hunfreeze

theorem State.side_thaw {s : State} (h : s.flag .evStatus 0 0 1 = true) : s.thaw.recorder.side = [] := by
  have hunfreeze : s.unfreeze.recorder.side = [] := congrArg Prod.snd (State.stores_foldl State.stores_enterRing _ _)
  rw [State.thaw_of_frozen h]
  split
  · exact (congrArg Prod.snd (State.stores_beginFlush _)).trans hunfreeze
  · exact hunfreeze

/-! Reports (R482) -/

theorem State.report_of_waiting {s : State} {r : Report} (hdown : s.recording = false) (hroom : r.source = 0 ∨ s.recorder.intake.length < 512) :
    s.report r = s.modRecorder (fun x => { x with intake := x.intake ++ [r] }) := by
  rw [State.report, if_neg (by simp [hdown]), if_pos hroom]

theorem State.report_of_lost {s : State} {r : Report} (hdown : s.recording = false) (hsource : r.source ≠ 0) (hfull : 512 ≤ s.recorder.intake.length) :
    s.report r = (s.modRecorder (fun x => { x with intakeLostSecond := x.intakeLostSecond + 1 })).bump .evIntakeLost := by
  rw [State.report, if_neg (by simp [hdown]), if_neg (by rintro (h | h); exacts [hsource h, by omega])]

/-- Settles O50: reports at intake, the flush by its beginning and its two ends, the operating second, and the thaw. -/
theorem reportsAndFlushes : Obligations.ReportsAndFlushes := by
  unfold Obligations.ReportsAndFlushes
  refine ⟨fun s r => ⟨⟨_, rfl, Recorded.report ..⟩, fun hdown hroom => ?waits, fun hdown hsource hfull => ?lost⟩,
    fun s => ⟨fun hfreeze hflush => ⟨_, rfl, State.beginFlush_of_idle hfreeze hflush⟩, fun hbusy => ?busy, fun hflush => ?good, fun hflush hfirst => ?first,
      fun hflush hsecond => ?second, fun hup hfail hfreeze => ?retry, fun hlost => ?opsec, ⟨rfl, s.freeze_thaw, State.side_thaw⟩⟩⟩
  case waits => exact ⟨_, congrArg Host.Outcome.next (State.report_of_waiting hdown hroom), rfl, rfl, rfl⟩
  case lost =>
    refine ⟨_, congrArg Host.Outcome.next (State.report_of_lost hdown hsource hfull), rfl, ?_⟩
    exact State.reg_bump_one ..
  case busy => exact ⟨_, congrArg Host.Outcome.next (State.beginFlush_of_busy hbusy), rfl, rfl⟩
  case good =>
    have hcomplete : exec (.flushComplete true) s = .next s.finishFlush := by simp [exec, execFlushComplete, hflush]
    exact ⟨hcomplete, s.finishFlush_outcome⟩
  case first =>
    have hcomplete : exec (.flushComplete false) s = .next s.failFlush := by simp [exec, execFlushComplete, hflush]
    rw [State.failFlush_of_first hfirst] at hcomplete
    exact ⟨_, hcomplete, rfl, hflush, rfl⟩
  case second =>
    have hcomplete : exec (.flushComplete false) s = .next s.failFlush := by simp [exec, execFlushComplete, hflush]
    exact ⟨_, hcomplete, State.failFlush_of_second hsecond⟩
  case retry =>
    have hretry : exec (.flashFailRetry true) s = .next s.beginFlush.finishFlush := by
      simp [exec, execFlashFailRetry, hup, hfail, State.flushing_beginFlush hfreeze]
    exact ⟨_, hretry, s.beginFlush.finishFlush_outcome.1⟩
  case opsec =>
    refine ⟨_, congrArg Host.Outcome.next (if_pos hlost), rfl, ?_⟩
    rw [State.reg_setReg, if_pos ⟨rfl, rfl, rfl⟩]

/-! Rate windows (R480, R481) -/

/-- A rate window is that of a report's code and partition. -/
abbrev RateWindow.isFor (w : RateWindow) (r : Report) : Prop := w.code = r.code ∧ w.part = r.part

/-- The window of a report's code and partition. -/
def State.windowOf (s : State) (r : Report) : Option RateWindow := s.recorder.windows.find? (fun w => w.isFor r)

/-- A report that rate windows limit: neither SAFETY nor SUPPRESSED. -/
abbrev limitedReport (r : Report) : Prop := r.sev ≠ .safety ∧ r.code ≠ 0x0080

/-- A window that has met its limit counts a report that it suppresses. -/
def RateWindow.suppress (w : RateWindow) (r : Report) : RateWindow :=
  { w with
    suppressed := w.suppressed + 1
    highest := if w.suppressed = 0 ∨ sevCode w.highest < sevCode r.sev then r.sev else w.highest
    firstTick := if w.suppressed = 0 then r.tick else w.firstTick
    lastTick := r.tick }

/-- The window of a report becomes another. -/
def State.setWindow (s : State) (r : Report) (w : RateWindow) : State :=
  s.modRecorder (fun x => { x with windows := x.windows.map (fun y => if y.isFor r then w else y) })

/-- The views of a report's partitions count one that was suppressed (R483). -/
def State.viewSuppressed (s : State) (r : Report) : State :=
  (partsOf r.part).foldl (fun s p => s.modPart p (fun v => { v with viewSuppressed := v.viewSuppressed + 1 })) s

/-- The window of a pair closes. -/
def State.dropWindow (s : State) (r : Report) : State :=
  s.modRecorder (fun x => { x with windows := x.windows.filter (fun y => ¬ y.isFor r) })

theorem State.record_of_unlimited {s : State} {r : Report} (h : ¬ limitedReport r) : s.record r = s.accept r := by
  rw [State.record, if_pos (by simpa [Classical.or_iff_not_imp_left] using h)]

section
variable {s : State} {r : Report} {w : RateWindow} (hlimited : limitedReport r)
include hlimited

theorem State.record_of_new (hnew : s.windowOf r = none) : s.record r = (s.modRecorder (fun x => { x with
    windows := x.windows ++ [{ code := r.code, part := r.part, count := 1, suppressed := 0, highest := .debug, firstTick := r.tick, lastTick := r.tick }] })).accept r := by
  unfold State.windowOf RateWindow.isFor at hnew
  rw [State.record, if_neg (not_or.2 hlimited), hnew]

theorem State.record_of_full (hw : s.windowOf r = some w) {n : Nat} (hlimit : s.rateLimit r.code = some n) (hfull : n ≤ w.count) :
    s.record r = ((s.setWindow r (w.suppress r)).bump .evSuppressed).viewSuppressed r := by
  unfold State.windowOf RateWindow.isFor at hw
  rw [State.record, if_neg (not_or.2 hlimited), hw]
  simp only [hlimit, decide_eq_true hfull, if_true]
  rfl

theorem State.record_of_room (hw : s.windowOf r = some w) (hroom : ∀ n, s.rateLimit r.code = some n → w.count < n) :
    s.record r = (s.setWindow r { w with count := w.count + 1 }).accept r := by
  unfold State.windowOf RateWindow.isFor at hw
  rw [State.record, if_neg (not_or.2 hlimited), hw]
  cases hlimit : s.rateLimit r.code with
  | none =>
    simp only [Bool.false_eq_true, if_false]
    rfl
  | some n =>
    have hnot : decide (n ≤ w.count) = false := decide_eq_false (by have := hroom n hlimit; omega)
    simp only [hnot, Bool.false_eq_true, if_false]
    rfl

end

theorem State.recorder_viewSuppressed (s : State) (r : Report) : (s.viewSuppressed r).recorder = s.recorder :=
  List.foldlRecOn (motive := fun t : State => t.recorder = s.recorder) (partsOf r.part) _ rfl fun _ ht _ _ => ht

theorem State.reg_viewSuppressed (s : State) (r : Report) (n : RegName) (i j : Nat) : (s.viewSuppressed r).reg n i j = s.reg n i j :=
  State.reg_foldl (fun s p => s.reg_modPart p _ n i j) _ s

theorem State.windowOf_isFor {s : State} {r : Report} {w : RateWindow} (h : s.windowOf r = some w) : w.isFor r := by
  simpa using List.find?_some h

/-- A window set in the place of a pair's window is that pair's window, where it is for the pair. -/
theorem State.windowOf_setWindow {s : State} {r : Report} {w x : RateWindow} (h : (s.setWindow r w).windowOf r = some x) : x = w := by
  obtain ⟨y, -, rfl⟩ := List.mem_map.1 (List.mem_of_find?_eq_some h)
  have hx := State.windowOf_isFor h
  split at hx
  next hy => rw [if_pos hy]
  next hy => exact absurd hx hy

theorem State.windowOf_dropWindow (s : State) (r : Report) : (s.dropWindow r).windowOf r = none :=
  List.find?_eq_none.2 fun w hw => by simpa [Decidable.imp_iff_not_or] using (List.mem_filter.1 hw).2

theorem execRateWindowClose_of_open {s : State} {r : Report} {w : RateWindow} (hw : s.windowOf r = some w) :
    execRateWindowClose r.code r.part s = .next (if w.suppressed = 0 then s.dropWindow r else (s.dropWindow r).report
      { code := 0x0080, sev := w.highest, part := r.part, source := 0, tick := s.now,
        payload := leBytes 2 r.code.toNat ++ [BitVec.ofNat 8 (sevCode w.highest), 0] ++ leBytes 4 w.suppressed ++
          leBytes 8 w.firstTick.toNat ++ leBytes 8 w.lastTick.toNat }) := by
  unfold State.windowOf RateWindow.isFor at hw
  rw [execRateWindowClose, hw]
  rfl

/-- Settles O51: a report by the window of its code and partition, and the close of that window. -/
theorem rateWindows : Obligations.RateWindows := by
  unfold Obligations.RateWindows
  refine fun s r => ⟨State.record_of_unlimited, fun hlimited hnew => ⟨_, State.record_of_new hlimited hnew, Recorded.modRecorder .., rfl⟩,
    fun w n hlimited hw hlimit hfull => ?full, fun w hlimited hw hroom => ⟨_, State.record_of_room hlimited hw hroom, Recorded.modRecorder ..⟩,
    fun w hw => ⟨s.dropWindow r, s.windowOf_dropWindow r, Recorded.modRecorder .., fun h => ?quiet, fun h => ?told⟩⟩
  case full =>
    have hrecord := State.record_of_full hlimited hw hlimit hfull
    have hrecorder : (s.record r).recorder = (s.setWindow r (w.suppress r)).recorder := by
      rw [hrecord, State.recorder_viewSuppressed]
      rfl
    refine ⟨(congrArg Recorder.ring hrecorder :), (congrArg Recorder.side hrecorder :), (congrArg Recorder.log hrecorder :), (congrArg Recorder.nextSeq hrecorder :), ?_,
      fun x hx => ?_⟩
    · rw [hrecord, State.reg_viewSuppressed, State.reg_bump_one]
      rfl
    · rw [hrecorder] at hx
      obtain rfl := State.windowOf_setWindow hx
      exact ⟨rfl, rfl, fun h => if_neg h, fun h => ⟨if_pos h, if_pos (Or.inl h)⟩⟩
  case quiet => exact (execRateWindowClose_of_open hw).trans (by rw [if_pos h])
  case told => exact (execRateWindowClose_of_open hw).trans (by rw [if_neg h])

/-! log.rate (R481) -/

/-- The limit that a value of log.rate stands for: 0 is the default of 16, and 0xFFFF none. -/
def limitOf (n : Nat) : Option Nat :=
  match n with
  | 0 => some 16
  | 0xFFFF => none
  | n => some n

theorem State.rateLimit_eq (s : State) (code : BitVec 16) : s.rateLimit code = limitOf (Sparse.nget 0 s.recorder.limits code.toNat) := rfl

/-- What log.rate holds for a rate: the default of 16 is held as 0. -/
def heldRate (rate : BitVec 16) : Nat := if rate = 16 then 0 else rate.toNat

theorem limitOf_heldRate (rate : BitVec 16) :
    limitOf (heldRate rate) = if rate = 0 then some 16 else if rate = 0xFFFF then none else some rate.toNat := by
  unfold heldRate
  split
  next h => subst h; rfl
  split
  next h => subst h; rfl
  split
  next h => subst h; rfl
  next h0 hones =>
    have hzero : rate.toNat ≠ 0 := fun h => h0 (BitVec.eq_of_toNat_eq h)
    have hmax : rate.toNat ≠ 0xFFFF := fun h => hones (BitVec.eq_of_toNat_eq h)
    unfold limitOf
    split
    · omega
    · omega
    · rfl

/-- A code's limit is set. -/
def State.setLimit (s : State) (code : BitVec 16) (n : Nat) : State := s.modRecorder (fun x => { x with limits := Sparse.nset 0 x.limits code.toNat n })

theorem State.rateLimit_setLimit (s : State) (code x : BitVec 16) (n : Nat) :
    (s.setLimit code n).rateLimit x = if x = code then limitOf n else s.rateLimit x := by
  have hget : Sparse.nget 0 (s.setLimit code n).recorder.limits x.toNat =
      if code.toNat = x.toNat then n else Sparse.nget 0 s.recorder.limits x.toNat := Sparse.nget_nset ..
  rw [State.rateLimit_eq, hget]
  by_cases h : x = code
  · rw [if_pos h, if_pos (h ▸ rfl)]
  · rw [if_neg h, if_neg (fun e => h (BitVec.eq_of_toNat_eq e.symm)), State.rateLimit_eq]

/-- A command that its path may give is refused for its arguments where they are not good. -/
theorem State.refusal_of_badArgs {s : State} {c : Cmd} {w : MailRow} (h : s.refusal c w false = none) : s.refusal c w true = some .badArgument := by
  simp only [State.refusal] at h ⊢
  split_ifs at h ⊢ <;> simp_all

/-- What log.rate does once its arguments are good. -/
def State.setRate (s : State) (c : Cmd) (code rate : BitVec 16) : State :=
  if heldRate rate ≠ 0 ∧ Sparse.nget 0 s.recorder.limits code.toNat = 0 ∧ 256 ≤ s.recorder.limits.length then s.complete c 0x0704 .busy
  else (s.setLimit code (heldRate rate)).complete c 0x0704 .ok

section
variable {s : State} {c : Cmd} {code : BitVec 16} (htaken : s.taken c (logRow 0x0704 .fleet) false)
include htaken

theorem State.logRate_of_taken (hcode : code ∉ safetyCodes) (rate : BitVec 16) :
    s.logRate c code rate = (s.enterCommand c (logRow 0x0704 .fleet)).setRate c code rate := by
  rw [State.logRate, decide_eq_false hcode, State.take_of_taken htaken]
  rfl

theorem State.logRate_of_safety (hcode : code ∈ safetyCodes) (rate : BitVec 16) :
    s.logRate c code rate = (s.enterCommand c (logRow 0x0704 .fleet)).complete c 0x0704 .badArgument := by
  rw [State.logRate, decide_eq_true hcode, State.take_of_refused htaken.1 (State.refusal_of_badArgs htaken.2)]
  rfl

end

theorem heldRate_ne_zero {rate : BitVec 16} (h0 : rate ≠ 0) (h16 : rate ≠ 16) : heldRate rate ≠ 0 := by
  rw [heldRate, if_neg h16]
  exact fun h => h0 (BitVec.eq_of_toNat_eq h)

theorem heldRate_eq_zero {rate : BitVec 16} (h : rate = 0 ∨ rate = 16) : heldRate rate = 0 := by
  rcases h with rfl | rfl <;> rfl

/-- Settles O52: a rate that is held, one for which there is no room, and a code of severity SAFETY. -/
theorem logRate : Obligations.LogRate := by
  unfold Obligations.LogRate
  refine ⟨fun x => rfl, fun s c code rate htaken => ⟨fun hcode hroom => ?set, fun hcode hfull hheld h0 h16 => ?full,
    fun hcode => congrArg Host.Outcome.next (State.logRate_of_safety htaken hcode rate)⟩⟩
  case set =>
    refine ⟨_, congrArg Host.Outcome.next ((State.logRate_of_taken htaken hcode rate).trans (if_neg ?_)), ?_, fun x hx => ?_⟩
    · rw [State.enterCommand_recorder]
      rintro ⟨hrate, hheld, hfull⟩
      rcases hroom with h | h | h | h
      · omega
      · exact h hheld
      · exact hrate (heldRate_eq_zero (Or.inl h))
      · exact hrate (heldRate_eq_zero (Or.inr h))
    · rw [State.rateLimit_setLimit, if_pos rfl, limitOf_heldRate]
    · rw [State.rateLimit_setLimit, if_neg hx, State.rateLimit_eq, State.enterCommand_recorder, State.rateLimit_eq]
  case full =>
    refine congrArg Host.Outcome.next ((State.logRate_of_taken htaken hcode rate).trans (if_pos ?_))
    rw [State.enterCommand_recorder]
    exact ⟨heldRate_ne_zero h0 h16, hheld, hfull⟩

end Sys2Proof.Machine
end

section
/-! SUPPORT. The link.*, log.* and power.* commands (chapters 9, 13, 17 and 18): what each comes to once it is taken. -/

namespace Sys2Proof.Machine

/-! What entering a command leaves -/

section
variable (s : State) (c : Cmd) (w : MailRow)

@[simp] theorem State.enterCommand_quadRole (n : Nat) : (s.enterCommand c w).quadRole n = s.quadRole n := s.enterCommand_field ..

@[simp] theorem State.enterCommand_quadState (n : Nat) : (s.enterCommand c w).quadState n = s.quadState n := s.enterCommand_field ..

@[simp] theorem State.enterCommand_partnerOf (n : Nat) : (s.enterCommand c w).partnerOf n = s.partnerOf n := by simp [State.partnerOf]

@[simp] theorem State.enterCommand_powerDefault (p id : Nat) : (s.enterCommand c w).powerDefault p id = s.powerDefault p id := by
  simp [State.powerDefault]

@[simp] theorem State.enterCommand_cooling (id : Nat) : (s.enterCommand c w).cooling id = s.cooling id := by simp [State.cooling]

@[simp] theorem State.enterCommand_policyResult (p : Nat) (id : BitVec 16) (d : Word) :
    (s.enterCommand c w).policyResult p id d = s.policyResult p id d := by simp [State.policyResult, State.policyValue]

@[simp] theorem State.enterCommand_budgetFits (p v : Nat) : (s.enterCommand c w).budgetFits p v = s.budgetFits p v := by
  have hclaim (x : Nat) : (s.enterCommand c w).budgetClaim x = s.budgetClaim x := by simp [State.budgetClaim]
  have hregions (r : Nat) : (s.enterCommand c w).regionOwner r = s.regionOwner r := by simp [State.regionOwner]
  have hformed : (s.enterCommand c w).formedParts = s.formedParts := by simp [State.formedParts]
  unfold State.budgetFits
  rw [State.enterCommand_field, hformed]
  simp only [hclaim, hregions]

end

/-! link.* (R349, R374, R379) -/

def rowLinkStatus : MailRow := { opcode := 0x0600, level := .kernel }

/-- The row of link.retrain for a quad: it reaches the hardware at once where the quad does not wait for a maintenance turn. -/
def State.rowRetrain (s : State) (n : Nat) : MailRow := { opcode := 0x0601, level := .fleet, reached := !(s.quadIsUp n && s.bookUses n) }

def rowRoleSet : MailRow := { opcode := 0x0602, level := .fleet }

section
variable {s : State} {c : Cmd} {quad : BitVec 8} (hquad : quad.toNat ≤ 223)
include hquad

theorem State.linkStatus_of_taken (h : s.taken c rowLinkStatus false) : s.linkStatus c quad =
    (s.enterCommand c rowLinkStatus).complete c 0x0600 .ok none (resultOf
      [(16, [BitVec.ofNat 8 (s.quadRole quad.toNat)]), (17, [BitVec.ofNat 8 (s.quadState quad.toNat)]),
       (18, leBytes 2 (s.partnerOf quad.toNat).toNat), (20, leBytes 4 (s.reg .olRetrains quad.toNat).toNat)]) := by
  rw [State.linkStatus, decide_eq_false (Nat.not_lt.2 hquad)]
  refine (State.take_of_taken h _).trans ?_
  simp only [State.enterCommand_quadRole, State.enterCommand_quadState, State.enterCommand_partnerOf, State.enterCommand_reg, rowLinkStatus]

/-- A command that waits for a quad's retrain. -/
def State.awaitRetrainOf (s : State) (c : Cmd) (n : Nat) : State :=
  (s.enterCommand c (s.rowRetrain n)).modQuad n (fun v => { v with retrainCmds := v.retrainCmds ++ [c] })

theorem State.linkRetrain_of_taken (h : s.taken c (s.rowRetrain quad.toNat) false) (hrole : s.quadRole quad.toNat ≠ roleDark)
    (hdark : s.quadState quad.toNat ≠ quadDark) (hvacant : s.quadState quad.toNat ≠ quadVacant) : s.linkRetrain c quad =
    if (s.awaitRetrainOf c quad.toNat).quadIsUp quad.toNat then (s.awaitRetrainOf c quad.toNat).retrainQuad quad.toNat
    else s.awaitRetrainOf c quad.toNat := by
  rw [State.linkRetrain, decide_eq_false (Nat.not_lt.2 hquad)]
  refine (State.take_of_taken h _).trans ?_
  dsimp only
  rw [State.enterCommand_quadRole, State.enterCommand_quadState, if_neg (not_or.2 ⟨hrole, hdark⟩), if_neg hvacant]
  rfl

/-- The link record holds a role for a quad. -/
def State.recordRole (s : State) (n : Nat) (r : BitVec 2) : State :=
  { s with flash := { s.flash with roles := Sparse.nset 3 s.flash.roles n r } }

theorem State.roleSet_of_taken {r : BitVec 8} (hrole : r.toNat ≤ 3) (h : s.taken c rowRoleSet false) : s.roleSet c quad r 0 =
    ((s.enterCommand c rowRoleSet).recordRole quad.toNat (r.setWidth 2)).complete c 0x0602 .ok := by
  rw [State.roleSet, decide_eq_false (by rintro (h | h | h); exacts [absurd h (by omega), absurd h (by omega), h rfl])]
  exact State.take_of_taken h _

end

theorem State.role_recordRole (s : State) (n : Nat) (r : BitVec 2) (q : Nat) :
    Sparse.nget 3 (s.recordRole n r).flash.roles q = if n = q then r else Sparse.nget 3 s.flash.roles q := Sparse.nget_nset ..

/-- The link record holds a module ID. -/
def State.recordModule (s : State) (m : BitVec 13) : State := { s with flash := { s.flash with moduleId := m } }

theorem State.moduleSet_of_taken {s : State} {c : Cmd} {m : BitVec 16} (hm : m.toNat ≤ 8190) (h : s.taken c rowRoleSet false) :
    s.moduleSet c 0 m = ((s.enterCommand c rowRoleSet).recordModule (m.setWidth 13)).complete c 0x0602 .ok := by
  rw [State.moduleSet, decide_eq_false (by rintro (h | h); exacts [h rfl, absurd h (by omega)])]
  exact State.take_of_taken h _

/-! log.* (R479, R484, R485) -/

section
variable {s : State} {c : Cmd}

theorem State.logFreeze_of_taken (h : s.taken c (logRow 0x0700 .kernel) false) (hfree : s.flag .evStatus 0 0 1 = false) :
    s.logFreeze c = ((s.enterCommand c (logRow 0x0700 .kernel)).freeze c.path).complete c 0x0700 .ok := by
  refine (State.take_of_taken h _).trans ?_
  rw [State.enterCommand_flag, if_neg (by simp [hfree])]

theorem State.freeze_outcome (s : State) (path : CmdPath) : (s.freeze path).flag .evStatus 0 0 1 = true ∧
    (s.freeze path).recorder.frozenBy = some path ∧ (s.freeze path).recorder.flushing = false ∧ (s.freeze path).recorder.ring = s.recorder.ring := by
  refine ⟨?_, rfl, rfl, rfl⟩
  rw [State.freeze, State.flag_setFlag _ _ _ _ _ _ _ (by decide), if_neg (by decide), State.flag_setFlag_self _ _ _ _ _ _ (by decide)]

theorem State.logThaw_of_taken (h : s.taken c (logRow 0x0701 .kernel) false)
    (hmay : s.flag .evStatus 0 0 1 = false ∨ s.recorder.frozenBy = some c.path ∨ s.pathLevel c = .fleet) :
    s.logThaw c = (s.enterCommand c (logRow 0x0701 .kernel)).thaw.complete c 0x0701 .ok := by
  refine (State.take_of_taken h _).trans ?_
  rw [State.enterCommand_flag, State.enterCommand_recorder, State.enterCommand_pathLevel, if_neg]
  rintro ⟨hfrozen, hpath, hlevel⟩
  rcases hmay with h | h | h
  · rw [h] at hfrozen
    exact absurd hfrozen (by decide)
  · exact hpath h
  · exact hlevel h

/-- The SEQ after the last record that log.read copies, a free value where it copies none, and the state in which that has been drawn. -/
def State.seqAfter (s : State) (l : List Record) : Word × State :=
  match l.getLast? with
  | some r => ((nextSeqAfter r.seq).setWidth 64, s)
  | none => s.draw

theorem State.mem_seqAfter (s : State) (l : List Record) : (s.seqAfter l).2.mem = s.mem := by
  unfold State.seqAfter
  split <;> rfl

/-- The result of log.read: the bytes copied and the next SEQ. -/
def readResult (n : Nat) (next : Word) : List Byte := resultOf [(16, leBytes 4 n), (20, leBytes 4 (next.toNat % 2 ^ 32))]

theorem take_readResult (n : Nat) (next : Word) : (readResult n next).take 4 = leBytes 4 n := rfl

theorem State.logRead_of_taken {dest : Word} {first max : BitVec 32} (hmax : 256 ≤ max.toNat)
    (hdram : s.inPartDram c.target.toNat dest.toNat max.toNat = true) (h : s.taken c (logRow 0x0702 .kernel) false) :
    ∃ l e : _, l = takeBytes max.toNat ((s.enterCommand c (logRow 0x0702 .kernel)).readable c first) ∧
      e = ((s.enterCommand c (logRow 0x0702 .kernel)).hostWrite dest.toNat (l.flatMap Record.bytes)).seqAfter l ∧
      s.logRead c dest first max = e.2.complete c 0x0702 .ok none (readResult (l.flatMap Record.bytes).length e.1) := by
  refine ⟨_, _, rfl, rfl, ?_⟩
  have hgood : (decide (max.toNat < 256) || !s.inPartDram c.target.toNat dest.toNat max.toNat) = false := by
    rw [hdram, decide_eq_false (Nat.not_lt.2 hmax)]
    rfl
  rw [State.logRead, hgood]
  refine (State.take_of_taken h _).trans ?_
  rfl

/-- The must-keep area is emptied (R479). -/
def State.clearKeep (s : State) : State :=
  ((s.modRecorder (fun x => { x with keep := [], keepFullReported := false, unnumbered := 0 })).setField .evKeep 0 0 0 7 0).setFlag .evStatus 0 0 4 false

theorem State.logClearKeep_of_taken (h : s.taken c (logRow 0x0703 .fleet) false) :
    s.logClearKeep c = (s.enterCommand c (logRow 0x0703 .fleet)).clearKeep.complete c 0x0703 .ok := State.take_of_taken h _

theorem State.clearKeep_outcome (s : State) : s.clearKeep.recorder.keep = [] ∧ s.clearKeep.field .evKeep 0 0 0 7 = 0 ∧
    s.clearKeep.flag .evStatus 0 0 4 = false ∧ s.clearKeep.recorder.ring = s.recorder.ring := by
  refine ⟨rfl, ?_, State.flag_setFlag_self _ _ _ _ _ _ (by decide), rfl⟩
  rw [State.clearKeep, State.field, State.reg_setFlag, if_neg (by decide)]
  exact State.field_setField_same (by decide) (by decide) ..

end

/-- Settles O12, command by command. -/
theorem linkAndLogCommands : Obligations.LinkAndLogCommands := by
  unfold Obligations.LinkAndLogCommands
  refine ⟨fun s c => ⟨fun quad hquad h => ?status, fun quad hquad h hrole hdark hvacant => ?retrain, fun quad r hquad hr h => ?role, fun m hm h => ?module⟩,
    fun s c => ⟨fun h hfree => ?freeze, fun h hmay => ?thaw, fun dest first max hmax hdram h => ?read, fun h => ?clear⟩⟩
  case status => exact congrArg Host.Outcome.next (State.linkStatus_of_taken hquad h)
  case retrain => exact ⟨_, rfl, congrArg Host.Outcome.next (State.linkRetrain_of_taken hquad h hrole hdark hvacant)⟩
  case role =>
    refine ⟨_, congrArg Host.Outcome.next (State.roleSet_of_taken hquad hr h), ?_, fun q => s.enterCommand_quadRole .., fun q hq => ?_⟩
    · rw [State.role_recordRole, if_pos rfl]
    · rw [State.role_recordRole, if_neg (Ne.symm hq), State.enterCommand_flash]
  case module => exact ⟨_, congrArg Host.Outcome.next (State.moduleSet_of_taken hm h), rfl, s.enterCommand_moduleId ..⟩
  case freeze =>
    obtain ⟨hfrozen, hpath, hflush, hring⟩ := (s.enterCommand c (logRow 0x0700 .kernel)).freeze_outcome c.path
    exact ⟨_, congrArg Host.Outcome.next (State.logFreeze_of_taken h hfree), hfrozen, hpath, hflush, hring.trans (by rw [State.enterCommand_recorder])⟩
  case thaw => exact congrArg Host.Outcome.next (State.logThaw_of_taken h hmay)
  case read =>
    obtain ⟨l, e, rfl, rfl, hread⟩ := State.logRead_of_taken hmax hdram h
    exact ⟨_, _, congrArg Host.Outcome.next hread, State.mem_seqAfter .., take_readResult ..⟩
  case clear =>
    obtain ⟨hkeep, hcount, hfull, hring⟩ := (s.enterCommand c (logRow 0x0703 .fleet)).clearKeep_outcome
    exact ⟨_, congrArg Host.Outcome.next (State.logClearKeep_of_taken h), hkeep, hcount, hfull, hring.trans (by rw [State.enterCommand_recorder])⟩

/-! power.* (R461 to R463, R467) -/

section
variable {s : State} {c : Cmd} {id : BitVec 16} {v : Word} (hgood : s.powerGood id.toNat v.toNat = true)
  (h : s.taken c (powerRow 0x0900 .kernel id.toNat) false)
include hgood h

theorem State.powerSet_of_cooling (hcool : isCooling id.toNat = true) : s.powerSet c id v =
    ((s.enterCommand c (powerRow 0x0900 .kernel id.toNat)).writeCooling id.toNat v).complete c 0x0900 .ok := by
  rw [State.powerSet, hgood]
  exact (State.take_of_taken h _).trans (if_pos hcool)

theorem State.powerSet_of_policy (hcool : isCooling id.toNat = false) (hfits : id.toNat ≠ 0x0100 ∨ s.budgetFits c.target.toNat v.toNat = true) :
    s.powerSet c id v = (s.enterCommand c (powerRow 0x0900 .kernel id.toNat)).queuePolicy c.target.toNat c id v := by
  rw [State.powerSet, hgood]
  refine ((State.take_of_taken h _).trans (if_neg (by simp [hcool]))).trans (if_neg ?_)
  rw [State.enterCommand_budgetFits]
  rintro ⟨hid, hbad⟩
  rcases hfits with hne | hfit
  · exact hne hid
  · simp [hfit] at hbad

end

theorem State.cooling_writeCooling (s : State) (id : Nat) (v : Word) : (s.writeCooling id v).cooling id = v.toNat := by
  have hflash : (s.writeCooling id v).flash.cooling = Sparse.nput s.flash.cooling id v := by
    unfold State.writeCooling
    dsimp only
    repeat' split
    all_goals rfl
  rw [State.cooling, hflash, nfind_nput_same]
  rfl

/-- What power.policy_get reports of a parameter: one of the cooling descriptor has no value that waits. -/
def State.powerResult (s : State) (p : Nat) (id : BitVec 16) (d : Word) : List Byte :=
  if isCooling id.toNat then resultOf [(16, leBytes 8 (s.cooling id.toNat)), (24, leBytes 8 (s.cooling id.toNat))] else s.policyResult p id d

theorem State.powerGet_of_taken {s : State} {c : Cmd} {id : BitVec 16} {d : Word} (hd : s.powerDefault c.target.toNat id.toNat = some d)
    (h : s.taken c (powerRow 0x0901 .tenant id.toNat) false) : s.powerGet c id =
      (s.enterCommand c (powerRow 0x0901 .tenant id.toNat)).complete c 0x0901 .ok none (s.powerResult c.target.toNat id d) := by
  rw [State.powerGet, hd]
  refine (State.take_of_taken h _).trans ?_
  rw [State.enterCommand_cooling, State.enterCommand_powerDefault, State.enterCommand_policyResult, hd, State.powerResult]
  split <;> rfl

def rowPowerStatus : MailRow := { opcode := 0x0902, level := .tenant, bmc := true, fencedToo := true }

/-- The bytes of power.status (Table 17.4). -/
def State.powerBytes (s : State) (p : Nat) : List Byte :=
  resultOf
    [(16, leBytes 4 (s.field .pwModule 0 0 0 32)), (20, leBytes 4 (s.field .pwPartPower p 0 32 32)),
     (24, leBytes 2 (s.field .pwPartBudget p 0 0 16)), (26, leBytes 2 (s.field .thHot 0 0 0 16)), (28, leBytes 1 (s.field .thHot 0 0 16 8)),
     (29, leBytes 1 (s.stepNow p)), (30, leBytes 1 (s.field .pwStatus 0 0 1 7 * 2)), (32, leBytes 2 (s.field .thCoolant 0 0 0 16)),
     (34, leBytes 2 (s.field .thCoolant 0 0 16 16)), (36, leBytes 4 (s.field .thRth 0 0 0 32)), (40, leBytes 4 (s.field .thRth 0 0 32 32))]

theorem State.take_powerBytes (s : State) (p : Nat) : (s.powerBytes p).take 16 =
    leBytes 4 (s.field .pwModule 0 0 0 32) ++ leBytes 4 (s.field .pwPartPower p 0 32 32) ++
      leBytes 2 (s.field .pwPartBudget p 0 0 16) ++ leBytes 2 (s.field .thHot 0 0 0 16) ++ leBytes 1 (s.field .thHot 0 0 16 8) ++
      leBytes 1 (s.stepNow p) ++ leBytes 1 (s.field .pwStatus 0 0 1 7 * 2) ++ [0] := by
  simp [State.powerBytes, resultOf, overlay, padTo, leBytes]

theorem State.powerStatus_of_taken {s : State} {c : Cmd} (h : s.taken c rowPowerStatus false) : s.powerStatus c =
    (s.enterCommand c rowPowerStatus).complete c 0x0902 .ok none (s.powerBytes c.target.toNat) := by
  have hbytes : (s.enterCommand c rowPowerStatus).powerBytes c.target.toNat = s.powerBytes c.target.toNat := by
    simp only [State.powerBytes, State.stepNow, State.enterCommand_field]
  rw [← hbytes]
  exact State.take_of_taken h _

/-- Settles O14, command by command. -/
theorem powerCommands : Obligations.PowerCommands := by
  unfold Obligations.PowerCommands
  refine fun s c id => ⟨fun v hgood h => ⟨fun hcool => ?cooling, fun hcool hfits => ?policy⟩, fun d hd h => ?get, fun h => ?status⟩
  case cooling => exact ⟨congrArg Host.Outcome.next (State.powerSet_of_cooling hgood h hcool), State.cooling_writeCooling ..⟩
  case policy =>
    exact ⟨congrArg Host.Outcome.next (State.powerSet_of_policy hgood h hcool hfits), (State.part_queuePolicy ..).1⟩
  case get => exact congrArg Host.Outcome.next (State.powerGet_of_taken hd h)
  case status => exact ⟨_, congrArg Host.Outcome.next (State.powerStatus_of_taken h), s.take_powerBytes _⟩

end Sys2Proof.Machine
end

section
/-! SUPPORT. A cold start (R428 to R440): what its steps keep until Ready, where it stops, and how it runs through. -/

namespace Sys2Proof.Machine

/-- What a view of the state shows stands over a fold whose every step keeps it. -/
theorem State.view_foldl {α β : Type} (view : State → β) {f : State → α → State} (h : ∀ s a, view (f s a) = view s) (l : List α) (s : State) :
    view (l.foldl f s) = view s := by
  induction l generalizing s with
  | nil => rfl
  | cons a l ih => exact (ih _).trans (h s a)

/-! What the steps before Ready keep -/

/-- From s to t start-up has gone on: boot flash, the dies, the straps, the temperatures, the Ready bit and the enables of VC stand. -/
structure Booting (s t : State) : Prop where
  flash : t.flash = s.flash
  dies : t.dies = s.dies
  straps : t.reg .refStraps = s.reg .refStraps
  temps : ∀ q, t.reg .thTemp q = s.reg .thTemp q
  ready : t.ready = s.ready
  enC : t.pins.enC = s.pins.enC

namespace Booting

theorem refl (s : State) : Booting s s := ⟨rfl, rfl, rfl, fun _ => rfl, rfl, rfl⟩

theorem trans {s t u : State} (h : Booting s t) (k : Booting t u) : Booting s u :=
  ⟨k.flash.trans h.flash, k.dies.trans h.dies, k.straps.trans h.straps, fun q => (k.temps q).trans (h.temps q), k.ready.trans h.ready,
    k.enC.trans h.enC⟩

theorem ite {s t u : State} {c : Prop} [Decidable c] (h : Booting s t) (k : Booting s u) : Booting s (if c then t else u) := by
  split
  · exact h
  · exact k

theorem recorded {s t : State} (h : Recorded s t) : Booting s t :=
  ⟨h.flash, h.dies, h.reg .refStraps 0 0 rfl, fun q => h.reg .thTemp q 0 rfl, congrArg (bitAt · 18) (h.reg .refBoot 0 0 rfl),
    congrArg Pins.enC h.pins⟩

theorem setReg {n : RegName} (h : n ∉ [RegName.refStraps, .thTemp, .refBoot]) (s : State) (i j : Nat) (v : Word) : Booting s (s.setReg n i j v) := by
  simp only [List.mem_cons, List.not_mem_nil, or_false, not_or] at h
  obtain ⟨hstraps, htemp, hboot⟩ := h
  refine ⟨rfl, rfl, ?_, fun q => ?_, ?_, rfl⟩ <;> simp [State.ready, State.flag, *]

/-- Fields of REF_BOOT beside the Ready bit. -/
theorem bootField {lo k : Nat} (h : 18 < lo ∨ lo + k ≤ 18) (s : State) (x : Nat) : Booting s (s.setField .refBoot 0 0 lo k x) :=
  ⟨rfl, rfl, by simp, fun q => by simp, State.flag_setField_ne (by decide) h .., rfl⟩

theorem bootFlag {b : Nat} (h : 18 ≠ b) (s : State) (x : Bool) : Booting s (s.setFlag .refBoot 0 0 b x) :=
  ⟨rfl, rfl, by simp, fun q => by simp, by rw [State.ready, State.flag_setFlag _ _ _ _ _ _ _ (by decide), if_neg h, ← State.ready], rfl⟩

theorem atStep (s : State) (n : Nat) : Booting s (s.atStep n) := bootField (by decide) ..

theorem startup (s : State) (x : Option ColdStartInputs) : Booting s ({ s with referee := { s.referee with startup := x } } : State) :=
  ⟨rfl, rfl, rfl, fun _ => rfl, rfl, rfl⟩

theorem alert (s : State) : Booting s s.alert := ⟨rfl, rfl, rfl, fun _ => rfl, rfl, rfl⟩

theorem watchdog (s : State) (v : Word) : Booting s (s.watchdog v) :=
  (refl s).ite ((setReg (by decide) s 0 0 v).trans ⟨rfl, rfl, rfl, fun _ => rfl, rfl, rfl⟩)

end Booting

theorem Recorded.logLoss (s : State) (power intake flash : Nat) : Recorded s (s.logLoss power intake flash) := Recorded.event ..

theorem Recorded.drainIntake (s : State) : Recorded s s.drainIntake :=
  (Recorded.modRecorder ..).trans (Recorded.foldl _ (fun _ _ => Recorded.record ..) _ _)

theorem Recorded.numberKept (s : State) : Recorded s s.numberKept := by
  refine (Recorded.modRecorder ..).trans (Recorded.foldl _ (fun s i => ?_) _ _)
  split
  · exact Recorded.refl s
  · exact (Recorded.numberRecord ..).trans (Recorded.modRecorder ..)

theorem Recorded.cutFlush (s : State) (lost : Nat) : Recorded s (s.cutFlush lost) :=
  (Recorded.refl s).ite (Recorded.foldl _ (fun _ _ => Recorded.logRecord ..) _ _)

theorem Booting.startFirmware (s : State) (b : Bool) (i : ColdStartInputs) : Booting s (s.startFirmware b i) := by
  unfold State.startFirmware
  extract_lets s1 s2 y s3 x cycles s4 s5 s6 s7
  have h3 : Booting s s3 :=
    ((Booting.bootField (by decide) ..).trans (Booting.setReg (by decide) ..)).trans ⟨rfl, rfl, rfl, fun _ => rfl, rfl, rfl⟩
  have h4 : Booting s s4 := h3.trans (.recorded (Recorded.modRecorder s3 _))
  clear_value s4
  have h5 : Booting s4 s5 := .recorded (((Recorded.setReg _ _ _ _ _ rfl).trans (Recorded.setReg _ _ _ _ _ rfl)).trans
    (Recorded.setReg _ _ _ _ _ rfl))
  clear_value s5
  have h6 : Booting s5 s6 := (Booting.recorded (Recorded.setField _ _ _ _ _ _ _ rfl)).trans (Booting.watchdog ..)
  clear_value s6
  have h7 : Recorded s6 s7 := Recorded.numberKept _
  clear_value s7
  have hend : Recorded s7 (if i.recordsLost = 0 then s7 else s7.logLoss i.recordsLost.toNat 0 0).drainIntake :=
    ((Recorded.refl _).ite (Recorded.logLoss ..)).trans (Recorded.drainIntake _)
  exact ((h4.trans h5).trans h6).trans (.recorded (h7.trans hend))

theorem Booting.recordHoldup (s : State) (v0 v1 : BitVec 16) : Booting s (s.recordHoldup v0 v1) := by
  unfold State.recordHoldup
  dsimp only
  split
  · exact setReg (by decide) ..
  · exact (recorded (Recorded.draw s)).trans (setReg (by decide) ..)

/-! Step 1 -/

/-- The inputs as start-up takes them: what a power-fail flush could not write is lost (R476). -/
def State.noted (s : State) (i : ColdStartInputs) : ColdStartInputs :=
  { i with recordsLost := BitVec.ofNat 32 (if s.recorder.flushing then min s.recorder.headerUnflushed i.recordsLost.toNat else 0) }

/-- The device once it is reset and its straps are sampled. -/
def State.strapped (s : State) (i : ColdStartInputs) : State :=
  let t := s.cutFlush (if s.recorder.flushing then min s.recorder.headerUnflushed i.recordsLost.toNat else 0)
  ((({ t.deviceReset with pins := { t.deviceReset.pins with resetN := true } } : State).atStep 1).setReg .refStraps 0 0
    (i.straps.setWidth 64 &&& 7))

theorem State.startUp_eq (s : State) (i : ColdStartInputs) :
    s.startUp i = if i.sramGood then (s.strapped i).bootImage (s.noted i) else (s.strapped i).failStart 0 none := rfl

theorem State.reg_of_empty {s : State} (h : s.regs = []) (n : RegName) (i j : Nat) : s.reg n i j = (rk n i j).reset := by
  rw [State.reg, h]
  rfl

/-- What start-up finds after step 1. -/
structure Strapped (s t : State) (straps : BitVec 8) : Prop where
  flash : t.flash = s.flash
  dies : t.dies = []
  straps : t.reg .refStraps = straps.setWidth 64 &&& 7
  temps : ∀ q, t.reg .thTemp q = 0
  ready : t.ready = false
  enC : t.pins.enC = []

theorem Strapped.booting {s t u : State} {x : BitVec 8} (h : Strapped s t x) (k : Booting t u) : Strapped s u x :=
  ⟨k.flash.trans h.flash, k.dies.trans h.dies, k.straps.trans h.straps, fun q => (k.temps q).trans (h.temps q), k.ready.trans h.ready,
    k.enC.trans h.enC⟩

theorem State.strapped_outcome (s : State) (i : ColdStartInputs) : Strapped s (s.strapped i) i.straps := by
  unfold State.strapped
  extract_lets t
  have ht : Recorded s t := Recorded.cutFlush ..
  generalize hu : ({ t.deviceReset with pins := { t.deviceReset.pins with resetN := true } } : State) = u
  have hreset (n : RegName) (k j : Nat) : u.reg n k j = (rk n k j).reset := State.reg_of_empty (by rw [← hu]; rfl) ..
  have hstep := Booting.atStep u 1
  refine ⟨?_, ?_, by simp, fun q => ?_, ?_, ?_⟩
  · exact hstep.flash.trans (by rw [← hu]; exact ht.flash)
  · exact hstep.dies.trans (by rw [← hu]; rfl)
  · rw [State.reg_setReg, if_neg (by simp), hstep.temps q, hreset]
    rfl
  · rw [State.ready, State.flag, State.reg_setReg, if_neg (by simp), ← State.flag, ← State.ready, hstep.ready, State.ready, State.flag, hreset]
    rfl
  · exact hstep.enC.trans (by rw [← hu]; rfl)

theorem Strapped.holdLoad {s t : State} {x : BitVec 8} (h : Strapped s t x) : t.holdLoad = [1, 2, 4, 8].getD (x.toNat % 4) 1 := by
  have hfield : t.field .refStraps 0 0 0 2 = x.toNat % 4 := by
    have hx : x.toNat < 256 := x.isLt
    have hand : (x.setWidth 64 &&& 7 : Word).toNat = x.toNat % 8 := by
      rw [BitVec.toNat_and, BitVec.toNat_setWidth, Nat.mod_eq_of_lt (by omega)]
      exact Nat.and_two_pow_sub_one_eq_mod _ 3
    rw [State.field, h.straps, bitsAt, hand]
    omega
  rw [State.holdLoad, hfield]

theorem Strapped.degradedOk {s t : State} {x : BitVec 8} (h : Strapped s t x) : t.flag .refStraps 0 0 2 = bitAt x 2 := by
  rw [State.flag, h.straps]
  simp [bitAt]

/-! Steps 2 and 3 -/

/-- Start-up as step 2 begins. -/
def State.imageStep (s : State) : State :=
  let t := ((s.atStep 2).setFlag .refBoot 0 0 17 false).setField .refBoot 0 0 32 8 0
  t.setReg .refFwSvn 0 0 (t.flash.svn.setWidth 64)

theorem Booting.imageStep (s : State) : Booting s s.imageStep :=
  (((atStep ..).trans (bootFlag (by decide) ..)).trans (bootField (by decide) ..)).trans (setReg (by decide) ..)

theorem State.bootImage_eq (s : State) (i : ColdStartInputs) : s.bootImage i =
    if !i.flashGood then s.imageStep.failStart 1 (some i)
    else if s.flash.boots s.flash.preferB then (s.imageStep.startFirmware s.flash.preferB i).holdupCheck i.v0 i.v1 i
    else if s.flash.boots (!s.flash.preferB) then
      (((s.imageStep.setFlag .refBoot 0 0 16 true).event7F .error none 0 .refBoot).startFirmware (!s.flash.preferB) i).holdupCheck i.v0 i.v1 i
    else s.imageStep.failStart 1 (some i) := rfl

theorem State.bootImage_of_good {s : State} {i : ColdStartInputs} (hflash : i.flashGood = true) (hboots : s.flash.boots s.flash.preferB = true) :
    s.bootImage i = (s.imageStep.startFirmware s.flash.preferB i).holdupCheck i.v0 i.v1 i := by
  rw [State.bootImage_eq, hflash, hboots]
  rfl

theorem State.bootImage_of_bad {s : State} {i : ColdStartInputs}
    (h : i.flashGood = false ∨ (s.flash.boots true = false ∧ s.flash.boots false = false)) : s.bootImage i = s.imageStep.failStart 1 (some i) := by
  rw [State.bootImage_eq]
  rcases h with h | ⟨ha, hb⟩
  · simp [h]
  · have hnone (b : Bool) : s.flash.boots b = false := by cases b <;> assumption
    simp [hnone]

/-- Start-up at step 3, with the check measured. -/
def State.heldUp (s : State) (v0 v1 : BitVec 16) : State :=
  let t := (((s.atStep 3).setFlag .refBoot 0 0 17 false).setField .refBoot 0 0 32 8 0).recordHoldup v0 v1
  ({ t with referee := { t.referee with startup := none } } : State)

theorem Booting.heldUp (s : State) (v0 v1 : BitVec 16) : Booting s (s.heldUp v0 v1) :=
  ((((atStep ..).trans (bootFlag (by decide) ..)).trans (bootField (by decide) ..)).trans (recordHoldup ..)).trans (startup ..)

theorem State.holdupCheck_eq (s : State) (v0 v1 : BitVec 16) (i : ColdStartInputs) : s.holdupCheck v0 v1 i =
    if holdupGood (s.heldUp v0 v1).holdLoad v0.toNat v1.toNat then (s.heldUp v0 v1).powerRegions i
    else
      let t := (s.heldUp v0 v1).eventAny 0x10 Status.holdupLow.code none 0
      if t.flag .refStraps 0 0 2 then (((t.setFlag .refBoot 0 0 19 true).setFlag .evStatus 0 0 2 true).alert).powerRegions i
      else t.failStart 2 (some i) := rfl

/-! Steps and stops -/

/-- Start-up has stopped at a step, for a cause (Table 16.8). -/
def State.Stopped (t : State) (step cause : Nat) : Prop :=
  t.field .refBoot 0 0 0 4 = step ∧ t.flag .refBoot 0 0 17 = true ∧ t.field .refBoot 0 0 32 8 = cause ∧ t.ready = false ∧ t.pins.alertN = false

theorem State.failStart_stopped {s : State} {step cause : Nat} (hstep : s.field .refBoot 0 0 0 4 = step) (hready : s.ready = false)
    (hcause : cause < 2 ^ 8) (again : Option ColdStartInputs) : (s.failStart cause again).Stopped step cause := by
  let t := (s.setFlag .refBoot 0 0 17 true).setField .refBoot 0 0 32 8 cause
  have hreg : (s.failStart cause again).regs = t.regs := rfl
  have hr : (s.failStart cause again).reg .refBoot = t.reg .refBoot := State.reg_of_regs hreg ..
  refine ⟨?_, ?_, ?_, ?_, rfl⟩
  · rw [State.field, hr, ← State.field, State.field_setField_ne (by decide) (by decide)]
    exact (State.field_setField_ne (by decide) (by decide) s .refBoot 0 0 1).trans hstep
  · rw [State.flag_of_regs hreg, State.flag_setField_ne (by decide) (by decide), State.flag_setFlag_self _ _ _ _ _ _ (by decide)]
  · rw [State.field, hr, ← State.field, State.field_setField_same (by decide) hcause]
  · rw [State.ready, State.flag_of_regs hreg, State.flag_setField_ne (by decide) (by decide), State.flag_setFlag _ _ _ _ _ _ _ (by decide),
      if_neg (by decide), ← State.ready, hready]

theorem State.step_atStep (s : State) {n : Nat} (h : n < 2 ^ 4) : (s.atStep n).field .refBoot 0 0 0 4 = n :=
  State.field_setField_same (by decide) h ..

/-- The step stands where other fields of REF_BOOT are cleared. -/
theorem State.step_cleared (s : State) : ((s.setFlag .refBoot 0 0 17 false).setField .refBoot 0 0 32 8 0).field .refBoot 0 0 0 4 =
    s.field .refBoot 0 0 0 4 :=
  (State.field_setField_ne (by decide) (by decide) ..).trans (State.field_setField_ne (by decide) (by decide) s .refBoot 0 0 0)

theorem State.step_of_reg {s t : State} (h : t.reg .refBoot = s.reg .refBoot) : t.field .refBoot 0 0 0 4 = s.field .refBoot 0 0 0 4 :=
  congrArg (bitsAt · 0 4) h

theorem State.step_setReg {n : RegName} (h : n ≠ .refBoot) (s : State) (i j : Nat) (v : Word) :
    (s.setReg n i j v).field .refBoot 0 0 0 4 = s.field .refBoot 0 0 0 4 :=
  State.step_of_reg (by rw [State.reg_setReg, if_neg fun e => h e.1])

theorem State.step_strapped (s : State) (i : ColdStartInputs) : (s.strapped i).field .refBoot 0 0 0 4 = 1 :=
  (State.step_setReg (by decide) ..).trans (State.step_atStep _ (by decide))

theorem State.step_imageStep (s : State) : s.imageStep.field .refBoot 0 0 0 4 = 2 :=
  ((State.step_setReg (by decide) ..).trans (State.step_cleared _)).trans (State.step_atStep _ (by decide))

theorem State.reg_recordHoldup {n : RegName} (h : n ≠ .refHoldup) (s : State) (v0 v1 : BitVec 16) (i j : Nat) :
    (s.recordHoldup v0 v1).reg n i j = s.reg n i j := by
  unfold State.recordHoldup
  dsimp only
  split
  · rw [State.reg_setReg, if_neg (fun e => h e.1.symm)]
  · rw [State.reg_setReg, if_neg (fun e => h e.1.symm)]
    rfl

theorem State.step_heldUp (s : State) (v0 v1 : BitVec 16) : (s.heldUp v0 v1).field .refBoot 0 0 0 4 = 3 := by
  unfold State.heldUp
  extract_lets t
  exact ((State.step_of_reg (State.reg_recordHoldup (by decide) ..)).trans (State.step_cleared _)).trans (State.step_atStep _ (by decide))

/-- A cold start whose image boots comes to the check of step 3. -/
theorem State.startUp_of_booted {s : State} {i : ColdStartInputs} (hsram : i.sramGood = true) (hflash : i.flashGood = true)
    (hboots : s.flash.boots s.flash.preferB = true) :
    ∃ u : State, Strapped s u i.straps ∧ u.field .refBoot 0 0 0 4 = 3 ∧ u.referee.startup = none ∧ s.startUp i =
      if holdupGood u.holdLoad i.v0.toNat i.v1.toNat then u.powerRegions (s.noted i)
      else
        let t := u.eventAny 0x10 Status.holdupLow.code none 0
        if t.flag .refStraps 0 0 2 then (((t.setFlag .refBoot 0 0 19 true).setFlag .evStatus 0 0 2 true).alert).powerRegions (s.noted i)
        else t.failStart 2 (some (s.noted i)) := by
  have hs := State.strapped_outcome s i
  have hboots' : (s.strapped i).flash.boots (s.strapped i).flash.preferB = true := by rw [hs.flash, hboots]
  refine ⟨_, ((hs.booting (Booting.imageStep _)).booting (Booting.startFirmware _ (s.strapped i).flash.preferB (s.noted i))).booting
    (Booting.heldUp _ i.v0 i.v1), State.step_heldUp .., rfl, ?_⟩
  rw [State.startUp_eq, if_pos hsram, State.bootImage_of_good (i := s.noted i) hflash hboots', State.holdupCheck_eq]
  rfl

/-! Step 4: temperatures -/

theorem reading_toNat (x : BitVec 16) : reading x.toNat = x.toInt := by
  unfold reading
  split
  · next h =>
    have hx : x = 0x8000 := BitVec.eq_of_toNat_eq h
    rw [hx]
    decide
  · rw [BitVec.ofNat_toNat, BitVec.setWidth_eq]

theorem State.reg_takeTemp (s : State) (q k : Nat) (panel above : BitVec 16) : (s.takeTemp q panel above).reg .thTemp k =
    if q = k then (above ++ panel).setWidth 64 else s.reg .thTemp k := by
  unfold State.takeTemp
  dsimp only
  split <;> simp

/-- The two readings of a sample, in TH_TEMP. -/
theorem bitsAt_sensors (panel above : BitVec 16) : bitsAt ((above ++ panel).setWidth 64 : Word) 0 16 = panel.toNat ∧
    bitsAt ((above ++ panel).setWidth 64 : Word) 16 16 = above.toNat := by
  have ha : above.toNat < 2 ^ 16 := above.isLt
  have hp : panel.toNat < 2 ^ 16 := panel.isLt
  rw [bitsAt, bitsAt, BitVec.toNat_setWidth, BitVec.toNat_append, ← Nat.shiftLeft_add_eq_or_of_lt hp, Nat.shiftLeft_eq]
  omega

theorem State.panelTemp_takeTemp (s : State) (q k : Nat) (panel above : BitVec 16) :
    (s.takeTemp q panel above).panelTemp k = if q = k then panel.toInt else s.panelTemp k := by
  rw [State.panelTemp, State.field, State.reg_takeTemp]
  split
  · rw [(bitsAt_sensors panel above).1, reading_toNat]
  · rfl

theorem State.aboveTemp_takeTemp (s : State) (q k : Nat) (panel above : BitVec 16) :
    (s.takeTemp q panel above).aboveTemp k = if q = k then above.toInt else s.aboveTemp k := by
  rw [State.aboveTemp, State.field, State.reg_takeTemp]
  split
  · rw [(bitsAt_sensors panel above).2, reading_toNat]
  · rfl

/-- No sensor reads above 90.0 °C. -/
def State.Cool (s : State) : Prop := ∀ q, s.panelTemp q ≤ 1440 ∧ s.aboveTemp q ≤ 1440

theorem State.Cool.tooHot {s : State} (h : s.Cool) : s.tooHot = false := by
  simp only [State.tooHot, List.any_eq_false, decide_eq_true_eq, not_or, Int.not_lt]
  exact fun q _ => h q

theorem State.Cool.takeTemps {l : List (Nat × BitVec 16 × BitVec 16)} (hl : ∀ x ∈ l, x.2.1.toInt ≤ 1440 ∧ x.2.2.toInt ≤ 1440) {s : State} (h : s.Cool) :
    (l.foldl (fun s x => if x.1 < 256 then s.takeTemp x.1 x.2.1 x.2.2 else s) s).Cool := by
  induction l generalizing s with
  | nil => exact h
  | cons x l ih =>
    refine ih (fun y hy => hl y (List.mem_cons_of_mem _ hy)) ?_
    obtain ⟨hp, ha⟩ := hl x List.mem_cons_self
    dsimp only
    split
    · intro q
      rw [State.panelTemp_takeTemp, State.aboveTemp_takeTemp]
      split
      · exact ⟨hp, ha⟩
      · exact h q
    · exact h

theorem Booting.refLoss (s : State) : Booting s s.refLoss :=
  (((setReg (by decide) ..).trans (setReg (by decide) ..)).trans (alert _)).trans (recorded (Recorded.event7F ..))

/-- Step 4 with its rails up and the game clock at 0, before the first temperatures. -/
def State.railsUp (s : State) (i : ColdStartInputs) : State :=
  let t := s.atStep 4
  let t : State := { t with
    pins := { t.pins with enA := List.range 16 }
    power := { t.power with clampsOpen := [] }
    clock := { t.clock with counter := 0, running := true } }
  (if i.clkRefGood then t.setFlag .gcStatus 0 0 1 true else t.refLoss).setReg .pwLimit 0 0 (BitVec.ofNat 64 Config.variant.powerLimit)

theorem Booting.railsUp (s : State) (i : ColdStartInputs) : Booting s (s.railsUp i) := by
  refine ((atStep s 4).trans (?_ : Booting _ (if i.clkRefGood then _ else _))).trans (setReg (by decide) ..)
  have hrails : Booting (s.atStep 4) ({ s.atStep 4 with
    pins := { (s.atStep 4).pins with enA := List.range 16 }
    power := { (s.atStep 4).power with clampsOpen := [] }
    clock := { (s.atStep 4).clock with counter := 0, running := true } } : State) := ⟨rfl, rfl, rfl, fun _ => rfl, rfl, rfl⟩
  exact (hrails.trans (setReg (by decide) ..)).ite (hrails.trans (refLoss _))

theorem State.powerRegions_eq (s : State) (i : ColdStartInputs) : s.powerRegions i =
    if !i.mainRailsGood then (s.atStep 4).failStart 4 none
    else (i.temps.foldl (fun s x => if x.1 < 256 then s.takeTemp x.1 x.2.1 x.2.2 else s) (s.railsUp i)).raiseRegions i := rfl

/-! Steps 4 to 13 -/

/-- Start-up has ended: the device is Ready, Tolerabor runs, and REF_BOOT shows step 13. -/
def State.Started (s : State) : Prop := s.ready = true ∧ s.up = true ∧ s.field .refBoot 0 0 0 4 = 13

theorem State.reachReady_started (s : State) : s.reachReady.Started := by
  unfold State.reachReady
  extract_lets s1 s2 image svn flash s3
  have hs3 : s3.regs = s2.regs := rfl
  clear_value s3 svn s1
  have hregs : (((s3.setReg .refFwSvn 0 0 (svn.setWidth 64)).releaseAlert).pldm 0 1).regs = (s3.setReg .refFwSvn 0 0 (svn.setWidth 64)).regs :=
    (State.releaseAlert_outcome _).1
  have hboot : s2.reg .refBoot = putBit (putBits (s1.reg .refBoot) 0 4 13) 18 true := by simp [s2, State.atStep]
  have hstatus : s2.reg .refStatus = putBit (s1.reg .refStatus) 1 true := by simp [s2, State.atStep]
  have hreg (n : RegName) (hn : n ≠ .refFwSvn) :
      (((s3.setReg .refFwSvn 0 0 (svn.setWidth 64)).releaseAlert).pldm 0 1).reg n = s2.reg n := by
    rw [State.reg_of_regs hregs, State.reg_setReg, if_neg (fun e => hn e.1.symm), State.reg_of_regs hs3]
  refine ⟨?_, ?_, ?_⟩
  · rw [State.ready, State.flag, hreg _ (by decide), hboot, bitAt_putBit _ _ _ _ (by decide), if_pos rfl]
  · rw [State.up, State.flag, hreg _ (by decide), hstatus, bitAt_putBit _ _ _ _ (by decide), if_pos rfl]
  · rw [State.field, hreg _ (by decide), hboot, putBit, bitsAt_putBits_ne _ _ _ _ _ _ (by decide) (by decide), bitsAt_putBits_same _ _ _ _ (by decide)]
    rfl

/-- From step 6 on nothing stops a cold start. -/
theorem State.trainMemory_started (s : State) (i : ColdStartInputs) : (s.trainMemory i).Started := State.reachReady_started _

theorem State.calibrateAll_started (s : State) {i : ColdStartInputs} (h : i.findings.fieldCrossing = false) : (s.calibrateAll i).Started := by
  unfold State.calibrateAll
  rw [h]
  exact State.trainMemory_started ..

theorem State.raiseRegions_started {s : State} {i : ColdStartInputs} (hcool : s.Cool) (hcross : i.findings.fieldCrossing = false) :
    (s.raiseRegions i).Started := by
  rw [State.raiseRegions, hcool.tooHot]
  exact State.calibrateAll_started _ hcross

theorem Strapped.cool {s t : State} {x : BitVec 8} (h : Strapped s t x) : t.Cool := by
  intro q
  have hzero (lo : Nat) : bitsAt (0 : Word) lo 16 = 0 := by simp [bitsAt]
  rw [State.panelTemp, State.aboveTemp, State.field, State.field, h.temps, hzero, hzero]
  decide

theorem State.powerRegions_started {s t : State} {x : BitVec 8} {i : ColdStartInputs} (h : Strapped s t x) (hrails : i.mainRailsGood = true)
    (hcross : i.findings.fieldCrossing = false)
    (htemps : i.temps.all (fun x => decide (x.2.1.toInt ≤ 1440 ∧ x.2.2.toInt ≤ 1440)) = true) : (t.powerRegions i).Started := by
  rw [State.powerRegions_eq, hrails]
  refine State.raiseRegions_started (State.Cool.takeTemps (fun y hy => ?_) (h.booting (Booting.railsUp t i)).cool) hcross
  simpa using List.all_eq_true.1 htemps y hy

/-- A cold start whose image boots and whose supplies, hold-up bank and fields are good runs through to Ready. -/
theorem State.startUp_started {s : State} {i : ColdStartInputs} (hsram : i.sramGood = true) (hboots : s.flash.boots s.flash.preferB = true)
    (hhold : holdupGood ([1, 2, 4, 8].getD (i.straps.toNat % 4) 1) i.v0.toNat i.v1.toNat = true) (hrails : i.mainRailsGood = true)
    (hcross : i.findings.fieldCrossing = false) (hflash : i.flashGood = true)
    (htemps : i.temps.all (fun x => decide (x.2.1.toInt ≤ 1440 ∧ x.2.2.toInt ≤ 1440)) = true) : (s.startUp i).Started := by
  obtain ⟨u, hu, -, -, heq⟩ := State.startUp_of_booted hsram hflash hboots
  rw [heq, hu.holdLoad, if_pos hhold]
  exact State.powerRegions_started (i := s.noted i) hu hrails hcross htemps

/-- Settles O47: each step of a good cold start passes to the next, and the last makes the device Ready. -/
theorem coldStartReachesReady : Obligations.ColdStartReachesReady := by
  unfold Obligations.ColdStartReachesReady
  intro s i hsram hboots hhold hrails hcross hflash htemps
  refine ⟨fun hpin => ⟨s.startUp i, congrArg Host.Outcome.next (if_pos hpin), State.startUp_started hsram hboots hhold hrails hcross hflash htemps⟩,
    fun hpin hreset => ?_⟩
  let t : State := { s with pins := { s.pins with pwrFailN := true } }
  exact ⟨t.startUp i, congrArg Host.Outcome.next ((if_neg (by simp [hpin])).trans (if_pos hreset)), State.startUp_started (s := t) hsram hboots hhold hrails hcross hflash htemps⟩

end Sys2Proof.Machine
end

section
/-! SUPPORT. Where a cold start stops, and how it goes on (R428, R430, R433, R435, R466); RESET_N, PWR_FAIL_N and VA (R447, R476, R516). -/

namespace Sys2Proof.Machine

/-! Where a cold start stops -/

/-- A cold start whose image boots and whose check fails stops at step 3. -/
theorem State.startUp_of_holdupLow {s : State} {i : ColdStartInputs} (hsram : i.sramGood = true) (hflash : i.flashGood = true)
    (hboots : s.flash.boots s.flash.preferB = true)
    (hhold : holdupGood ([1, 2, 4, 8].getD (i.straps.toNat % 4) 1) i.v0.toNat i.v1.toNat = false) (hdegraded : bitAt i.straps 2 = false) :
    (s.startUp i).Stopped 3 2 ∧ (s.startUp i).referee.startup = some (s.noted i) := by
  obtain ⟨u, hu, hstep, -, heq⟩ := State.startUp_of_booted hsram hflash hboots
  have hrec : Recorded u (u.eventAny 0x10 Status.holdupLow.code none 0) := Recorded.eventAny ..
  rw [hu.holdLoad, hhold] at heq
  simp only [Bool.false_eq_true, if_false] at heq
  have ht := hu.booting (.recorded hrec)
  rw [ht.degradedOk, hdegraded] at heq
  simp only [Bool.false_eq_true, if_false] at heq
  rw [heq]
  exact ⟨State.failStart_stopped ((State.step_of_reg (hrec.reg .refBoot 0 0 rfl)).trans hstep) ht.ready (by decide) _, rfl⟩

/-- A cold start whose image boots and whose check passes comes to step 4. -/
theorem State.startUp_of_heldUp {s : State} {i : ColdStartInputs} (hsram : i.sramGood = true) (hflash : i.flashGood = true)
    (hboots : s.flash.boots s.flash.preferB = true)
    (hhold : holdupGood ([1, 2, 4, 8].getD (i.straps.toNat % 4) 1) i.v0.toNat i.v1.toNat = true) :
    ∃ u : State, Strapped s u i.straps ∧ s.startUp i = u.powerRegions (s.noted i) := by
  obtain ⟨u, hu, -, -, heq⟩ := State.startUp_of_booted hsram hflash hboots
  rw [hu.holdLoad, if_pos hhold] at heq
  exact ⟨u, hu, heq⟩

theorem State.step_railsUp (s : State) (i : ColdStartInputs) : (s.railsUp i).field .refBoot 0 0 0 4 = 4 := by
  have hlost (t : State) : t.refLoss.reg .refBoot = t.reg .refBoot :=
    ((Recorded.event7F ..).reg .refBoot 0 0 rfl).trans ((State.reg_of_regs rfl ..).trans (by simp : ((t.setFlag .gcStatus 0 0 0 true).setFlag .gcStatus 0 0 1 false).reg .refBoot = _))
  refine (State.step_of_reg ?_).trans (State.step_atStep s (by decide))
  unfold State.railsUp
  extract_lets t clock pins power t'
  have ht : t'.reg .refBoot = t.reg .refBoot := rfl
  clear_value t'
  rw [State.reg_setReg, if_neg (by simp)]
  split
  · simpa using ht
  · exact (hlost t').trans ht

theorem State.takeTemp_outcome (s : State) (q : Nat) (panel above : BitVec 16) :
    (s.takeTemp q panel above).dies = s.dies ∧ (s.takeTemp q panel above).pins = s.pins ∧ (s.takeTemp q panel above).mem = s.mem ∧
      ∀ n ∉ [RegName.thTemp, .thMax], ∀ i j, (s.takeTemp q panel above).reg n i j = s.reg n i j := by
  unfold State.takeTemp
  extract_lets s1 top
  have h1 (n : RegName) (hn : n ∉ [RegName.thTemp, .thMax]) (i j : Nat) : s1.reg n i j = s.reg n i j := by
    rw [State.reg_setReg, if_neg fun e => hn (by simp [← e.1])]
  split
  · refine ⟨rfl, rfl, rfl, fun n hn i j => ?_⟩
    rw [State.reg_setReg, if_neg fun e => hn (by simp [← e.1]), h1 n hn]
  · exact ⟨rfl, rfl, rfl, h1⟩

theorem State.takeTemp_referee (s : State) (q : Nat) (panel above : BitVec 16) : (s.takeTemp q panel above).referee = s.referee := by
  unfold State.takeTemp
  dsimp only
  split <;> rfl

theorem State.tooHot_takeTemp (s : State) {q : Nat} (hq : q < 256) {panel above : BitVec 16} (hhot : 1440 < panel.toInt ∨ 1440 < above.toInt) :
    (s.takeTemp q panel above).tooHot = true := by
  refine List.any_eq_true.2 ⟨q, List.mem_range.2 hq, ?_⟩
  rw [State.panelTemp_takeTemp, State.aboveTemp_takeTemp, if_pos rfl, if_pos rfl]
  exact decide_eq_true hhot

/-- Where a sensor reads above 90.0 °C, step 4 waits, with no header switch closed (R466). -/
theorem State.powerRegions_of_hot {s u : State} {x : BitVec 8} {i : ColdStartInputs} (hu : Strapped s u x) (hrails : i.mainRailsGood = true) {q : Nat}
    {panel above : BitVec 16} (htemps : i.temps = [(q, panel, above)]) (hq : q < 256) (hhot : 1440 < panel.toInt ∨ 1440 < above.toInt) :
    (u.powerRegions i).field .refBoot 0 0 0 4 = 4 ∧ (u.powerRegions i).ready = false ∧ (u.powerRegions i).referee.startup = some i ∧
      (u.powerRegions i).pins.enC = [] ∧ ∀ k, ((u.powerRegions i).die k).powered = false := by
  have hr := hu.booting (Booting.railsUp u i)
  obtain ⟨hdies, hpins, -, hregs⟩ := State.takeTemp_outcome (u.railsUp i) q panel above
  have hboot : ((u.railsUp i).takeTemp q panel above).reg .refBoot = (u.railsUp i).reg .refBoot := hregs .refBoot (by decide) 0 0
  have heq : u.powerRegions i = ({ (u.railsUp i).takeTemp q panel above with
      referee := { ((u.railsUp i).takeTemp q panel above).referee with startup := some i } } : State) := by
    rw [State.powerRegions_eq, hrails, htemps]
    simp only [Bool.not_true, Bool.false_eq_true, if_false, List.foldl_cons, List.foldl_nil, hq, if_true]
    rw [State.raiseRegions, State.tooHot_takeTemp _ hq hhot, if_pos rfl]
  generalize (u.railsUp i).takeTemp q panel above = v at *
  rw [heq]
  refine ⟨(State.step_of_reg hboot).trans (State.step_railsUp ..), ?_, rfl, (congrArg Pins.enC hpins).trans hr.enC, fun k => ?_⟩
  · exact (congrArg (bitAt · 18) hboot).trans hr.ready
  · have hdie : v.die k = {} := by rw [State.die, hdies, hr.dies]; rfl
    exact congrArg Die.powered hdie

/-! RESET_N (R447) -/

theorem State.setBytes_flash (s : State) (a : Nat) (l : List Byte) : (s.setBytes a l).flash = s.flash := by
  induction l generalizing s a with
  | nil => rfl
  | cons b l ih => exact ih _ _

theorem State.putBlock_flash (s : State) (b : Nat) (d : List Byte) : (s.putBlock b d).flash = s.flash := State.setBytes_flash ..

theorem State.setPoison_flash (s : State) (b : Nat) (x : Bool) : (s.setPoison b x).flash = s.flash := rfl

theorem State.dropHart_flash (s : State) (h b : Nat) : (s.dropHart h b).flash = s.flash := rfl

theorem State.putHsc_flash (s : State) (b : Nat) (c : CacheCopy) : (s.putHsc b c).flash = s.flash := rfl

/-- A number that a filter drops reads as unlisted. -/
theorem nget_filter_of_false {V : Type} (keep : Nat → Bool) {k : Nat} (h : keep k = false) (d : V) (m : List (Nat × V)) :
    Sparse.nget d (m.filter (fun x => keep x.1)) k = d := by
  unfold Sparse.nget
  induction m with
  | nil => rfl
  | cons x m ih =>
    rw [List.filter_cons]
    split
    · next hx =>
      have hne : x.1 ≠ k := fun e => by rw [e, h] at hx; cases hx
      simpa [Sparse.get, hne] using ih
    · exact ih

theorem State.writeBackLine_flash (s : State) (line : Nat) (c : CacheCopy) : (s.writeBackLine line c).flash = s.flash := by
  unfold State.writeBackLine
  split
  · rfl
  extract_lets s1
  have h1 : s1.flash = s.flash := State.flash_foldl (fun s k => State.putBlock_flash ..) _ s
  clear_value s1
  split
  · exact h1
  · rw [State.bump_flash, State.flash_foldl (fun s b => s.setPoison_flash b true), h1]

theorem State.evictGeneral_flash (s : State) (line : Nat) : (s.evictGeneral line).flash = s.flash := by
  change (s.writeBackCompute line []).flash = s.flash
  unfold State.writeBackCompute
  split
  · exact State.writeBackLine_flash ..
  · rfl

theorem State.writeBackHost_flash (s : State) (line : Nat) (skip : List Nat) : (s.writeBackHost line skip).flash = s.flash := by
  unfold State.writeBackHost
  extract_lets ds bad s1 s2
  have h1 : s1.flash = s.flash := State.flash_foldl (fun s b => by split <;> simp [State.putBlock_flash]) _ s
  have h2 : s2.flash = s1.flash := State.flash_foldl (fun s b => by split <;> simp [State.putHsc_flash]) _ s1
  clear_value s1 s2
  split
  · rfl
  split
  · rw [State.bump_flash, State.flash_foldl (fun s b => s.setPoison_flash b true), h2, h1]
  · exact h2.trans h1

theorem State.evictHostLine_flash (s : State) (line : Nat) : (s.evictHostLine line).flash = s.flash := by
  have hblock (t : State) (b : Nat) : (t.evictDirectory b).flash = t.flash :=
    (State.flash_foldl (fun t h => t.dropHart_flash h b) _ (t.gather b)).trans (State.gather_flash ..)
  unfold State.evictHostLine
  extract_lets s1 s2
  have h1 : s1.flash = s.flash := State.flash_foldl hblock _ s
  have h2 : s2.flash = s1.flash := State.writeBackHost_flash ..
  clear_value s1 s2
  exact h2.trans h1

theorem State.writeBackAll_flash (s : State) : s.writeBackAll.flash = s.flash :=
  (State.flash_foldl State.evictHostLine_flash _ _).trans (State.flash_foldl State.evictGeneral_flash _ s)

theorem Recorded.thaw (s : State) : Recorded s s.thaw := by
  cases h : s.flag .evStatus 0 0 1 with
  | false =>
    rw [State.thaw_of_free h]
    exact Recorded.refl s
  | true =>
    have hunfreeze : Recorded s s.unfreeze :=
      ((Recorded.modRecorder ..).trans (Recorded.setFlag _ _ _ _ _ _ rfl)).trans (Recorded.foldl _ (fun _ _ => Recorded.enterRing ..) _ _)
    rw [State.thaw_of_frozen h]
    exact (hunfreeze.trans (Recorded.beginFlush _)).ite hunfreeze

theorem State.finishFlush_flash (s : State) : s.finishFlush.flash = s.flash := by
  unfold State.finishFlush
  extract_lets seqs s1 lost failed s2 s3 s4 s5
  have h1 : s1.flash = s.flash := (Recorded.foldl _ (fun _ _ => Recorded.logRecord ..) _ s).flash
  have h4 : s4.flash = s1.flash := by
    change State.flash (if failed then s3.releaseAlert else s3) = s1.flash
    split
    · unfold State.releaseAlert
      split <;> rfl
    · rfl
  have h5 : Recorded s4 s5 := (Recorded.logLoss ..).ite (Recorded.refl _)
  have hend : Recorded s5 (if s5.recorder.flushDue then s5.beginFlush else s5) := (Recorded.beginFlush _).ite (Recorded.refl _)
  exact (h5.trans hend).flash.trans (h4.trans h1)

theorem State.flushNow_flash (s : State) : s.flushNow.flash = s.flash :=
  (State.finishFlush_flash _).trans ((Recorded.thaw s).trans ((Recorded.refl _).ite (Recorded.beginFlush _))).flash

/-- The reset of the device: what it clears, and what it keeps. -/
theorem execResetNAssert_outcome {s : State} (hfail : s.pins.pwrFailN = true) (hreset : s.pins.resetN = true) :
    ∃ t : State, execResetNAssert s = .next t ∧ t.pins.resetN = false ∧ t.regs = [] ∧ t.parts = [] ∧ t.dies = [] ∧ t.quads = [] ∧ t.rings = [] ∧
      t.rows = [] ∧ t.flash = s.flash ∧ t.clock = {} ∧ ∀ a, inDram a = false → t.byte a = 0 := by
  let u := (s.writeBackAll.event 0x10 0x82 .notice none 0 (leBytes 8 s.dirtyLines)).flushNow
  have hflash : u.flash = s.flash := (State.flushNow_flash _).trans ((Recorded.event ..).flash.trans (State.writeBackAll_flash s))
  refine ⟨({ u.deviceReset with pins := { resetN := false } } : State), ?_, rfl, rfl, rfl, rfl, rfl, rfl, rfl, hflash, rfl, fun a ha => ?_⟩
  · unfold execResetNAssert
    rw [if_neg (by simp [hfail, hreset])]
  · exact nget_filter_of_false inDram ha unlistedByte u.mem

/-! The end of turns (R79) -/

/-- From s to t turns have been stopped: the recorder, power, flash and the pins but ALERT_N stand, with every register beside CIRC_ACTIVE, the phases and
PINS_FREE; and a partition that has stopped stays so. -/
structure Stopping (s t : State) : Prop where
  reg : ∀ n ∉ [RegName.bnStatus, .tnStatus, .dbJtagStatus], ∀ i j, t.reg n i j = s.reg n i j
  recorder : t.recorder = s.recorder
  power : t.power = s.power
  pins : { t.pins with alertN := true } = { s.pins with alertN := true }
  phase : ∀ p, s.phase p = 0 → t.phase p = 0
  stage : ∀ p, (s.part p).stage = .stopped → (t.part p).stage = .stopped

namespace Stopping

theorem refl (s : State) : Stopping s s := ⟨fun _ _ _ _ => rfl, rfl, rfl, rfl, fun _ => id, fun _ => id⟩

theorem trans {s t u : State} (h : Stopping s t) (k : Stopping t u) : Stopping s u :=
  ⟨fun n hn i j => (k.reg n hn i j).trans (h.reg n hn i j), k.recorder.trans h.recorder, k.power.trans h.power, k.pins.trans h.pins,
    fun p => k.phase p ∘ h.phase p, fun p => k.stage p ∘ h.stage p⟩

theorem foldl {α : Type} {f : State → α → State} (h : ∀ s a, Stopping s (f s a)) (l : List α) (s : State) : Stopping s (l.foldl f s) := by
  induction l generalizing s with
  | nil => exact refl s
  | cons a l ih => exact (h s a).trans (ih _)

theorem setFlag {n : RegName} (h : n ∈ [RegName.bnStatus, .dbJtagStatus]) (s : State) (i j b : Nat) (x : Bool) : Stopping s (s.setFlag n i j b x) := by
  have hn : n ≠ .tnStatus := by rintro rfl; simp at h
  refine ⟨fun m hm k l => ?_, rfl, rfl, rfl, fun p hp => ?_, fun _ => id⟩
  · rw [State.reg_setFlag, if_neg]
    rintro ⟨rfl, -, -⟩
    exact hm (by simp only [List.mem_cons, List.not_mem_nil, or_false] at h ⊢; tauto)
  · rw [State.phase, State.field, State.reg_setFlag, if_neg fun e => hn e.1]
    exact hp

theorem modDie (s : State) (i : Nat) (f : Die → Die) : Stopping s (s.modDie i f) := ⟨fun _ _ _ _ => rfl, rfl, rfl, rfl, fun _ => id, fun _ => id⟩

theorem alert (s : State) : Stopping s s.alert := ⟨fun _ _ _ _ => rfl, rfl, rfl, rfl, fun _ => id, fun _ => id⟩

theorem setJtag (s : State) (j : Jtag) : Stopping s { s with jtag := j } := ⟨fun _ _ _ _ => rfl, rfl, rfl, rfl, fun _ => id, fun _ => id⟩

theorem freePins (s : State) : Stopping s s.freePins := by
  unfold State.freePins
  split
  · exact refl s
  dsimp only
  split
  · exact refl s
  · exact (foldl (fun s i => modDie s i _) _ s).trans ((setFlag (by decide) ..).trans ((alert _).trans (setJtag ..)))

end Stopping

/-- The phase of a partition at rest, with its stage. -/
def State.atRest (s : State) (p : Nat) : State :=
  ((s.runWheels p false).setPhase p 0).modPart p (fun v => { v with stage := .stopped, nextPlay := none, stopNext := false })

theorem Stopping.setPhase (s : State) (p : Nat) : Stopping s (s.setPhase p 0) := by
  refine ⟨fun n hn i j => ?_, rfl, rfl, rfl, fun q hq => ?_, fun _ => id⟩
  · have hne : RegName.tnStatus ≠ n := by rintro rfl; simp at hn
    rw [State.setPhase, State.reg_setField, if_neg fun e => hne e.1]
  · by_cases e : p = q
    · rw [← e, State.phase_setPhase (by decide)]
    · rw [State.phase, State.field, State.setPhase, State.reg_setField, if_neg fun h => e h.2.1]
      exact hq

theorem Stopping.restPart {f : Part → Part} (h : ∀ v, (f v).stage = .stopped) (s : State) (p : Nat) : Stopping s (s.modPart p f) := by
  refine ⟨fun _ _ _ _ => rfl, rfl, rfl, rfl, fun _ => id, fun q hq => ?_⟩
  rw [State.part_modPart]
  split
  · exact h _
  · exact hq

theorem State.atRest_outcome (s : State) (p : Nat) : Stopping s (s.atRest p) ∧ (s.atRest p).phase p = 0 ∧ ((s.atRest p).part p).stage = .stopped := by
  have hwheels : Stopping s (s.runWheels p false) := Stopping.foldl (fun s q => Stopping.setFlag (by decide) s q 0 8 _) _ s
  refine ⟨(hwheels.trans (Stopping.setPhase ..)).trans (Stopping.restPart (by intro; rfl) ..), ?_, ?_⟩
  · exact (State.phase_of_regs (State.modPart_regs ..) p).trans (State.phase_setPhase (by decide) ..)
  · rw [State.atRest, State.part_modPart, if_pos rfl]

theorem State.stopTurns_outcome (s : State) (p : Nat) :
    Stopping s (s.stopTurns p) ∧ (s.stopTurns p).phase p = 0 ∧ ((s.stopTurns p).part p).stage = .stopped := by
  obtain ⟨hrest, hphase, hstage⟩ := s.atRest_outcome p
  have hpins : Stopping (s.atRest p) (s.stopTurns p) := Stopping.freePins _
  exact ⟨hrest.trans hpins, hpins.phase p hphase, hpins.stage p hstage⟩

/-- Where the turns of partitions are stopped in a row, each of them comes to rest. -/
theorem State.stopTurns_foldl (l : List Nat) (s : State) : Stopping s (l.foldl (fun s p => s.stopTurns p) s) ∧
    ∀ p ∈ l, (l.foldl (fun s p => s.stopTurns p) s).phase p = 0 ∧ ((l.foldl (fun s p => s.stopTurns p) s).part p).stage = .stopped := by
  induction l generalizing s with
  | nil => exact ⟨Stopping.refl s, fun p hp => absurd hp List.not_mem_nil⟩
  | cons a l ih =>
    obtain ⟨hstop, hphase, hstage⟩ := s.stopTurns_outcome a
    obtain ⟨hrest, hall⟩ := ih (s.stopTurns a)
    refine ⟨hstop.trans hrest, fun p hp => ?_⟩
    rcases List.mem_cons.1 hp with rfl | hp
    · exact ⟨hrest.phase p hphase, hrest.stage p hstage⟩
    · exact hall p hp

/-! Open switches (R516) -/

/-- The registers that opening the header switches may move. -/
def switchRegs : List RegName := [.hdLostDirty, .hdStatus, .hdPcieStatus, .hdMpriv, .hdMtimecmp, .pwOcLimit]

theorem State.reg_setReg_of_mem {l : List RegName} {n m : RegName} (hn : n ∉ l) (hm : m ∈ l) (s : State) (k o : Nat) (v : Word) (i j : Nat) :
    (s.setReg m k o v).reg n i j = s.reg n i j := by
  rw [State.reg_setReg, if_neg]
  rintro ⟨rfl, -, -⟩
  exact hn hm

theorem State.stopHost_outcome (s : State) (h : Nat) : (s.stopHost h).recorder = s.recorder ∧ (s.stopHost h).parts = s.parts ∧
    (s.stopHost h).pins = s.pins ∧ ∀ n ∉ switchRegs, ∀ i j, (s.stopHost h).reg n i j = s.reg n i j := by
  unfold State.stopHost
  extract_lets mine lost s1 s2 s3 s4
  have h1 : s1.recorder = s.recorder ∧ s1.parts = s.parts ∧ s1.pins = s.pins := ⟨rfl, rfl, rfl⟩
  have h3 : s3.recorder = s1.recorder ∧ s3.parts = s1.parts ∧ s3.pins = s1.pins := ⟨rfl, rfl, rfl⟩
  have h4 : s4.recorder = s3.recorder ∧ s4.parts = s3.parts ∧ s4.pins = s3.pins :=
    ⟨State.view_foldl State.recorder (by exact fun _ _ => rfl) _ s3, State.view_foldl State.parts (by exact fun _ _ => rfl) _ s3,
      State.view_foldl State.pins (by exact fun _ _ => rfl) _ s3⟩
  have hreg (n : RegName) (hn : n ∉ switchRegs) (i j : Nat) : s4.reg n i j = s.reg n i j := by
    have hcores : s4.reg n i j = s3.reg n i j := State.reg_foldl (fun t c =>
      (State.reg_setReg_of_mem hn (by decide) ..).trans (State.reg_setReg_of_mem hn (by decide) ..)) _ s3
    have hlink : s3.reg n i j = s2.reg n i j := (State.reg_setReg_of_mem hn (by decide) ..).trans (State.reg_setReg_of_mem hn (by decide) ..)
    have hlost : s2.reg n i j = s.reg n i j := State.reg_setReg_of_mem hn (by decide) ..
    exact hcores.trans (hlink.trans hlost)
  clear_value s1 s3 s4
  exact ⟨h4.1.trans (h3.1.trans h1.1), h4.2.1.trans (h3.2.1.trans h1.2.1), h4.2.2.trans (h3.2.2.trans h1.2.2), hreg⟩

theorem State.writeOcLimits_outcome (s : State) : s.writeOcLimits.recorder = s.recorder ∧ s.writeOcLimits.parts = s.parts ∧
    s.writeOcLimits.pins = s.pins ∧ s.writeOcLimits.power = s.power ∧ s.writeOcLimits.dies = s.dies ∧
    ∀ n ≠ RegName.pwOcLimit, ∀ i j, s.writeOcLimits.reg n i j = s.reg n i j := by
  unfold State.writeOcLimits
  exact ⟨State.view_foldl State.recorder (by exact fun _ _ => rfl) _ s, State.view_foldl State.parts (by exact fun _ _ => rfl) _ s,
    State.view_foldl State.pins (by exact fun _ _ => rfl) _ s, State.view_foldl State.power (by exact fun _ _ => rfl) _ s,
    State.view_foldl State.dies (by exact fun _ _ => rfl) _ s,
    fun n hn i j => State.reg_foldl (fun t r => by rw [State.reg_setReg, if_neg fun e => hn e.1.symm]) _ s⟩

/-- The header switches of the compute dies open. -/
def State.openDies (s : State) : State :=
  (List.range 104).foldl (fun s i => s.modDie i (fun d =>
    { d with powered := false, inReset := true, playing := false, flights := [], check := none })) s

def State.stopHosts (s : State) : State := (List.range 8).foldl (fun s h => s.stopHost h) s

theorem State.stopHosts_outcome (s : State) : s.stopHosts.recorder = s.recorder ∧ s.stopHosts.parts = s.parts ∧ s.stopHosts.pins = s.pins ∧
    ∀ n ∉ switchRegs, ∀ i j, s.stopHosts.reg n i j = s.reg n i j := by
  unfold State.stopHosts
  exact ⟨State.view_foldl State.recorder (fun t h => (t.stopHost_outcome h).1) _ s, State.view_foldl State.parts (fun t h => (t.stopHost_outcome h).2.1) _ s,
    State.view_foldl State.pins (fun t h => (t.stopHost_outcome h).2.2.1) _ s, fun n hn i j => State.reg_foldl (fun t h => (t.stopHost_outcome h).2.2.2 n hn i j) _ s⟩

theorem State.openSwitches_eq (s : State) : s.openSwitches = ({ s.openDies.stopHosts.writeOcLimits with
    pins := { s.openDies.stopHosts.pins with enA := [], enC := [] }
    power := { s.openDies.stopHosts.power with railsIn := [], railsCIn := [], vhSince := [], clampsOpen := [] } } : State) := rfl

theorem State.openSwitches_fields (s : State) : s.openSwitches.recorder = s.openDies.stopHosts.writeOcLimits.recorder ∧
    s.openSwitches.parts = s.openDies.stopHosts.writeOcLimits.parts ∧ s.openSwitches.regs = s.openDies.stopHosts.writeOcLimits.regs ∧
    s.openSwitches.pins = { s.openDies.stopHosts.pins with enA := [], enC := [] } := by
  rw [State.openSwitches_eq]
  generalize s.openDies.stopHosts.writeOcLimits = t
  generalize s.openDies.stopHosts = u
  exact ⟨rfl, rfl, rfl, rfl⟩

theorem State.openDies_outcome (s : State) : s.openDies.recorder = s.recorder ∧ s.openDies.parts = s.parts ∧ s.openDies.pins = s.pins ∧
    s.openDies.regs = s.regs := by
  unfold State.openDies
  exact ⟨State.view_foldl State.recorder (by exact fun _ _ => rfl) _ s, State.view_foldl State.parts (by exact fun _ _ => rfl) _ s,
    State.view_foldl State.pins (by exact fun _ _ => rfl) _ s, State.view_foldl State.regs (by exact fun _ _ => rfl) _ s⟩

theorem State.openSwitches_outcome (s : State) : s.openSwitches.recorder = s.recorder ∧ s.openSwitches.parts = s.parts ∧
    s.openSwitches.pins = { s.pins with enA := [], enC := [] } ∧ ∀ n ∉ switchRegs, ∀ i j, s.openSwitches.reg n i j = s.reg n i j := by
  obtain ⟨hrec, hparts, hregs, hpins⟩ := s.openSwitches_fields
  obtain ⟨hrec1, hparts1, hpins1, hregs1⟩ := s.openDies_outcome
  obtain ⟨hrec2, hparts2, hpins2, hreg2⟩ := s.openDies.stopHosts_outcome
  obtain ⟨hrec3, hparts3, -, -, -, hreg3⟩ := s.openDies.stopHosts.writeOcLimits_outcome
  have hne {n : RegName} (hn : n ∉ switchRegs) : n ≠ .pwOcLimit := fun e => hn (e ▸ by decide)
  refine ⟨hrec.trans (hrec3.trans (hrec2.trans hrec1)), hparts.trans (hparts3.trans (hparts2.trans hparts1)), ?_, fun n hn i j => ?_⟩
  · rw [hpins, hpins2, hpins1]
  · rw [State.reg_of_regs hregs, hreg3 n (hne hn), hreg2 n hn, State.reg_of_regs hregs1]

/-- The regions are powered down: the enables fall, Tolerabor is down, and the recorder stands. -/
theorem State.powerDown_outcome (s : State) : s.powerDown.recorder = s.recorder ∧ s.powerDown.reg .evStatus = s.reg .evStatus ∧
    s.powerDown.pins.pwrFailN = s.pins.pwrFailN ∧ s.powerDown.pins.enA = [] ∧ s.powerDown.pins.enC = [] ∧ s.powerDown.up = false ∧
    s.powerDown.ready = false := by
  unfold State.powerDown
  extract_lets s1 s2 referee s3
  obtain ⟨hrec, -, hpins, hreg⟩ := s.openSwitches_outcome
  have h2 : Stopping s1 s2 := (State.stopTurns_foldl ..).1
  have h3 : s3.regs = s2.regs ∧ s3.recorder = s2.recorder ∧ s3.pins = s2.pins := ⟨rfl, rfl, rfl⟩
  have hpins' : { s3.pins with alertN := true } = ({ s.pins with enA := [], enC := [], alertN := true } : Pins) := by
    rw [h3.2.2, h2.pins]
    exact congrArg (fun x : Pins => ({ x with alertN := true } : Pins)) hpins
  have hstatus : s3.reg .evStatus = s.reg .evStatus :=
    (State.reg_of_regs h3.1 ..).trans ((h2.reg .evStatus (by decide) 0 0).trans (hreg .evStatus (by decide) 0 0))
  have hrecorder : s3.recorder = s.recorder := h3.2.1.trans (h2.recorder.trans hrec)
  clear_value s3
  refine ⟨hrecorder, ?_, (congrArg Pins.pwrFailN hpins' :), (congrArg Pins.enA hpins' :), (congrArg Pins.enC hpins' :), ?_, ?_⟩
  · rw [State.reg_setFlag, if_neg (by simp), State.reg_setFlag, if_neg (by simp), hstatus]
  · rw [State.up, State.flag, State.reg_setFlag, if_neg (by simp), ← State.flag, State.flag_setFlag_self _ _ _ _ _ _ (by decide)]
  · rw [State.ready, State.flag_setFlag_self _ _ _ _ _ _ (by decide)]

/-- A power failure: the flush begins and a freeze has ended. -/
theorem State.powerFlush_outcome (s : State) : s.powerFlush.flag .evStatus 0 0 1 = false ∧ s.powerFlush.recorder.flushing = true ∧
    s.powerFlush.pins = s.pins := by
  have hthaw := s.freeze_thaw
  have hlogged := Logged.beginFlush s.thaw
  exact ⟨(hlogged.status 1 (by decide) (by decide) (by decide)).trans hthaw, State.flushing_beginFlush hthaw,
    ((Recorded.thaw s).trans (Recorded.beginFlush _)).pins⟩

theorem State.powerFail_outcome (s : State) : s.powerFail.pins.pwrFailN = s.pins.pwrFailN ∧ s.powerFail.pins.enA = [] ∧ s.powerFail.pins.enC = [] ∧
    s.powerFail.up = false ∧ s.powerFail.ready = false ∧ s.powerFail.flag .evStatus 0 0 1 = false ∧ s.powerFail.recorder.flushing = true := by
  obtain ⟨hflag, hflushing, hpins⟩ := s.powerFlush_outcome
  obtain ⟨hrec, hstatus, hfail, hA, hC, hup, hready⟩ := s.powerFlush.powerDown_outcome
  exact ⟨hfail.trans (by rw [hpins]), hA, hC, hup, hready, (congrArg (bitAt · 1) hstatus).trans hflag, (congrArg Recorder.flushing hrec).trans hflushing⟩

/-- Settles O48: start-up by the step at which it stops, then RESET_N and the power-fail signals. -/
theorem stopsAndResets : Obligations.StopsAndResets := by
  refine ⟨fun s i => ⟨fun hpin => ?_, fun hpin hsram => ?_, fun hpin hsram hbad => ?_, fun hpin hboot hhold hstrap => ?_,
    fun hpin hboot hhold hrails => ?_, fun q panel above hpin hboot hhold hrails htemps hq hhot => ?_, fun hpin hreset => ?_,
    fun v0 v1 hstart hstep => ?_, fun x hstart hstep => ?_⟩, fun s => ⟨fun hfail hreset => ?_, fun h => ?_, fun hfail => ?_, fun hfail => ?_, ?_⟩⟩
  · exact congrArg Host.Outcome.next (if_neg (by simp [hpin]))
  · refine ⟨s.startUp i, congrArg Host.Outcome.next (if_pos hpin), ?_⟩
    rw [State.startUp_eq, if_neg (by simp [hsram])]
    exact ⟨State.failStart_stopped (State.step_strapped s i) (State.strapped_outcome s i).ready (by decide) _, rfl⟩
  · refine ⟨s.startUp i, congrArg Host.Outcome.next (if_pos hpin), ?_⟩
    have hs := State.strapped_outcome s i
    rw [State.startUp_eq, if_pos hsram, State.bootImage_of_bad (i := s.noted i) (by rw [hs.flash]; exact hbad)]
    exact ⟨State.failStart_stopped (State.step_imageStep _) (hs.booting (Booting.imageStep _)).ready (by decide) _, rfl⟩
  · obtain ⟨hsram, hflash, hboots⟩ := hboot
    exact ⟨s.startUp i, congrArg Host.Outcome.next (if_pos hpin), State.startUp_of_holdupLow hsram hflash hboots hhold hstrap⟩
  · obtain ⟨hsram, hflash, hboots⟩ := hboot
    obtain ⟨u, hu, heq⟩ := State.startUp_of_heldUp hsram hflash hboots hhold
    refine ⟨s.startUp i, congrArg Host.Outcome.next (if_pos hpin), ?_⟩
    have hnoted : (s.noted i).mainRailsGood = false := hrails
    rw [heq, State.powerRegions_eq, hnoted]
    exact ⟨State.failStart_stopped (State.step_atStep u (by decide)) (hu.booting (Booting.atStep u 4)).ready (by decide) _, rfl⟩
  · obtain ⟨hsram, hflash, hboots⟩ := hboot
    obtain ⟨u, hu, heq⟩ := State.startUp_of_heldUp hsram hflash hboots hhold
    refine ⟨s.startUp i, congrArg Host.Outcome.next (if_pos hpin), ?_⟩
    rw [heq]
    exact State.powerRegions_of_hot hu hrails htemps hq hhot
  · refine congrArg Host.Outcome.next ((if_neg (by simp [hpin])).trans (if_neg ?_))
    simp [hreset]
  · change execHoldupRetry v0 v1 s = _
    unfold execHoldupRetry
    rw [hstart, hstep]
    rfl
  · refine ⟨({ s with flash := { s.flash with slotA := { image := some x } }, referee := { s.referee with startup := none } } : State), ?_, rfl, rfl⟩
    change execMctpRecovery x s = _
    unfold execMctpRecovery
    rw [hstart, hstep]
    rfl
  · exact execResetNAssert_outcome hfail hreset
  · exact congrArg Host.Outcome.next (if_pos (by simpa using h))
  · obtain ⟨hpin, hA, hC, hup, hready, hflag, hflushing⟩ := ({ s with pins := { s.pins with pwrFailN := false } } : State).powerFail_outcome
    exact ⟨_, congrArg Host.Outcome.next (if_neg (by simp [hfail])), hpin, hA, hC, hup, hready, hflag, hflushing⟩
  · exact congrArg Host.Outcome.next (if_pos (by simp [hfail]))
  · obtain ⟨-, hA, hC, hup, hready, -, -⟩ := (s.event7F .safety none 0 .pwStatus).powerFail_outcome
    exact ⟨_, rfl, hA, hC, hup, hready⟩

end Sys2Proof.Machine
end

section
/-! SUPPORT. What the abort of a turn, a fence and the end of a migration leave aside (R94, R297, R421, R422): the states of quads, the dies, the
supplies and the pins, and the fenced peers. One rule for each operation, in the order of the model. -/

namespace Sys2Proof.Machine

/-- What the work of turns leaves aside. -/
structure Aside where
  regs : RegName → Nat → Nat → Word
  /-- PW_STATUS shows a region held -/
  regionHeld : Bool
  quads : Nat → Quad
  dies : List (Nat × Die)
  fencedModules : List (BitVec 13)
  pins : Pins
  power : Power

/-- The registers that stand: those of the quads, the status of the supply regions, and the counts that go with them. -/
def asideRegs : List RegName := [.olQstatus, .olRetrains, .olAttempts, .olVacant, .olLaser, .olKnockMiss, .pwRgnStatus, .pwOcEvents]

/-- A quad without the messages that wait to be sent. -/
def Quad.unsent (v : Quad) : Quad := { v with outMsgs := [], circMsgs := [] }

/-- The parts of the state that aside looks at. -/
def asideOf (regs : List (RegKey × Word)) (quads : List (Nat × Quad)) (dies : List (Nat × Die)) (fenced : List (BitVec 13)) (pins : Pins)
    (power : Power) : Aside :=
  let s : State := { State.reset with regs := regs }
  { regs := fun n i j => if n ∈ asideRegs then s.reg n i j else 0, regionHeld := s.flag .pwStatus 0 0 1
    quads := fun n => (Sparse.nget {} quads n).unsent, dies := dies, fencedModules := fenced, pins := pins, power := power }

def State.aside (s : State) : Aside := asideOf s.regs s.quads s.dies s.fencedModules s.pins s.power

namespace Aside

variable (s : State)

@[simp] theorem fields : asideOf s.regs s.quads s.dies s.fencedModules s.pins s.power = s.aside := rfl

@[simp] theorem fields_mk {pending regs latched shadow shadowLatched mem general hsc hartBlocks poison overflows tailMem fills filledRegions rows generations
    parts rings dies squares hosts quads poolLines exchanges e2eMisses fencedModules clock referee recorder flash pins power jtag barred answer
    fresh} :
    State.aside ⟨pending, regs, latched, shadow, shadowLatched, mem, general, hsc, hartBlocks, poison, overflows, tailMem, fills, filledRegions,
      rows, generations, parts, rings, dies, squares, hosts, quads, poolLines, exchanges, e2eMisses, fencedModules, clock, referee, recorder, flash,
      pins, power, jtag, barred, answer, fresh⟩ = asideOf regs quads dies fencedModules pins power := rfl

/-! What stands -/

theorem reg {s t : State} (h : t.aside = s.aside) {n : RegName} (hn : n ∈ asideRegs) (i j : Nat) : t.reg n i j = s.reg n i j := by
  have hreg := congrFun (congrFun (congrFun (congrArg Aside.regs h) n) i) j
  simp only [State.aside, asideOf, hn, if_true] at hreg
  exact hreg

theorem heldFlag {s t : State} (h : t.aside = s.aside) : t.flag .pwStatus 0 0 1 = s.flag .pwStatus 0 0 1 := congrArg Aside.regionHeld h

theorem quad {s t : State} (h : t.aside = s.aside) (n : Nat) : (t.quad n).unsent = (s.quad n).unsent := congrFun (congrArg Aside.quads h) n

theorem die {s t : State} (h : t.aside = s.aside) (i : Nat) : t.die i = s.die i := State.die_of_dies (congrArg Aside.dies h) i

theorem fenced {s t : State} (h : t.aside = s.aside) : t.fencedModules = s.fencedModules := congrArg Aside.fencedModules h

theorem supply {s t : State} (h : t.aside = s.aside) : t.power = s.power := congrArg Aside.power h

/-- What leaves the registers, quads, dies, peers, pins and supplies leaves all of it. -/
theorem congr {s t : State} (hreg : ∀ n ∈ RegName.pwStatus :: asideRegs, ∀ i j, t.reg n i j = s.reg n i j) (hquad : t.quads = s.quads)
    (hdies : t.dies = s.dies) (hfenced : t.fencedModules = s.fencedModules) (hpins : t.pins = s.pins) (hpower : t.power = s.power) :
    t.aside = s.aside := by
  have hregs : (fun n i j => if n ∈ asideRegs then t.reg n i j else 0) = (fun n i j => if n ∈ asideRegs then s.reg n i j else 0) := by
    funext n i j
    split
    · next h => exact hreg n (List.mem_cons_of_mem _ h) i j
    · rfl
  have hheld : t.flag .pwStatus 0 0 1 = s.flag .pwStatus 0 0 1 := congrArg (bitAt · 1) (hreg _ List.mem_cons_self 0 0)
  change Aside.mk (fun n i j => if n ∈ asideRegs then t.reg n i j else 0) (t.flag .pwStatus 0 0 1) _ _ _ _ _ =
    Aside.mk (fun n i j => if n ∈ asideRegs then s.reg n i j else 0) (s.flag .pwStatus 0 0 1) _ _ _ _ _
  rw [hregs, hheld, hquad, hdies, hfenced, hpins, hpower]

theorem of_recorded {s t : State} (h : Recorded s t) : t.aside = s.aside := by
  refine congr (fun n hn i j => h.reg n i j ?_) h.quads h.dies h.fencedModules h.pins h.power
  simp only [asideRegs, List.mem_cons, List.not_mem_nil, or_false] at hn
  rcases hn with rfl | rfl | rfl | rfl | rfl | rfl | rfl | rfl | rfl <;> rfl

theorem of_apart {s t : State} (h : t.apart = s.apart) : t.aside = s.aside := (congrArg State.aside h :)

/-! The operations over State -/

@[simp] theorem setReg {n : RegName} (h : n ∉ RegName.pwStatus :: asideRegs) (i j : Nat) (v : Word) : (s.setReg n i j v).aside = s.aside := by
  refine congr (fun m hm k l => ?_) rfl rfl rfl rfl rfl
  rw [State.reg_setReg, if_neg]
  rintro ⟨rfl, -, -⟩
  exact h hm

@[simp] theorem setField {n : RegName} (h : n ∉ RegName.pwStatus :: asideRegs) (i j lo k x : Nat) : (s.setField n i j lo k x).aside = s.aside :=
  setReg s h ..

@[simp] theorem setFlag {n : RegName} (h : n ∉ RegName.pwStatus :: asideRegs) (i j b : Nat) (x : Bool) : (s.setFlag n i j b x).aside = s.aside :=
  setReg s h ..

@[simp] theorem bump {n : RegName} (h : n ∉ RegName.pwStatus :: asideRegs) (i j k : Nat) : (s.bump n i j k).aside = s.aside := setReg s h ..

/-- The other bits of PW_STATUS. -/
@[simp] theorem setPower {b : Nat} (h : 1 ≠ b) (x : Bool) : (s.setFlag .pwStatus 0 0 b x).aside = s.aside := by
  have hregs : (fun n i j => if n ∈ asideRegs then (s.setFlag .pwStatus 0 0 b x).reg n i j else 0) = (fun n i j => if n ∈ asideRegs then s.reg n i j else 0) := by
    funext n i j
    split
    · next hn => rw [State.reg_setFlag, if_neg]; rintro ⟨rfl, -, -⟩; exact absurd hn (by decide)
    · rfl
  have hheld : (s.setFlag .pwStatus 0 0 b x).flag .pwStatus 0 0 1 = s.flag .pwStatus 0 0 1 := by
    rw [State.flag_setFlag _ _ _ _ _ _ _ (by decide), if_neg h]
  change Aside.mk (fun n i j => if n ∈ asideRegs then (s.setFlag .pwStatus 0 0 b x).reg n i j else 0) ((s.setFlag .pwStatus 0 0 b x).flag .pwStatus 0 0 1) _ _ _ _ _ =
    Aside.mk (fun n i j => if n ∈ asideRegs then s.reg n i j else 0) (s.flag .pwStatus 0 0 1) _ _ _ _ _
  rw [hregs, hheld]
  rfl

@[simp] theorem latchReg (n : RegName) (i j : Nat) (v : Word) : (s.latchReg n i j v).aside = s.aside := rfl
@[simp] theorem draw : s.draw.2.aside = s.aside := rfl
@[simp] theorem modPart (p : Nat) (f : Part → Part) : (s.modPart p f).aside = s.aside := rfl
@[simp] theorem modSquare (q : Nat) (f : Square → Square) : (s.modSquare q f).aside = s.aside := rfl
@[simp] theorem modHost (h : Nat) (f : HostDie → HostDie) : (s.modHost h f).aside = s.aside := rfl
@[simp] theorem modRing (p n : Nat) (f : Ring → Ring) : (s.modRing p n f).aside = s.aside := rfl
@[simp] theorem setRow (k : Nat) (v : StreamEntry) : (s.setRow k v).aside = s.aside := rfl

@[simp] theorem ite {c : Prop} [Decidable c] (s t : State) : (if c then s else t).aside = if c then s.aside else t.aside := apply_ite ..

@[simp] theorem foldl {α : Type} {f : State → α → State} (h : ∀ s a, (f s a).aside = s.aside) (l : List α) (s : State) :
    (l.foldl f s).aside = s.aside := State.view_foldl State.aside h l s

@[simp] theorem pushMsg (n : Nat) (m : LinkMsg) : (s.pushMsg n m).aside = s.aside := by
  have hquads : (fun k => ((s.pushMsg n m).quad k).unsent) = (fun k => (s.quad k).unsent) := by
    funext k
    rw [State.pushMsg, State.quad_modQuad]
    split
    · next e => rw [← e]; rfl
    · rfl
  change Aside.mk (s.aside.regs) s.aside.regionHeld (fun k => ((s.pushMsg n m).quad k).unsent) _ _ _ _ = s.aside
  rw [hquads]
  rfl

/-! Recording (chapter 18) -/

@[simp] theorem eventAny (block ev : Nat) (part : Option Nat) (source : Nat) (payload : List Byte) :
    (s.eventAny block ev part source payload).aside = s.aside := of_recorded (Recorded.eventAny ..)

@[simp] theorem event (block ev : Nat) (sev : Severity) (part : Option Nat) (source : Nat) (payload : List Byte) :
    (s.event block ev sev part source payload).aside = s.aside := of_recorded (Recorded.event ..)

@[simp] theorem event7F (sev : Severity) (part : Option Nat) (source : Nat) (n : RegName) (i j : Nat) (more : List Byte) :
    (s.event7F sev part source n i j more).aside = s.aside := of_recorded (Recorded.event7F ..)

@[simp] theorem eventStatus (block : Nat) (st : Status) (sev : Severity) (part : Option Nat) (source : Nat) (payload : List Byte) :
    (s.eventStatus block st sev part source payload).aside = s.aside := of_recorded (Recorded.eventStatus ..)

@[simp] theorem safetyAt (p : Option Nat) (source : Nat) (n : RegName) (i j unit : Nat) (more : List Byte) :
    (s.safetyAt p source n i j unit more).aside = s.aside := by simp [State.safetyAt]

@[simp] theorem decision (p : Nat) (n : RegName) (turn : Word) : (s.decision p n turn).aside = s.aside := of_recorded (Recorded.decision ..)

/-! Memory, pages and streams (chapters 2, 10 and 12) -/

@[simp] theorem hostWrite (a : Nat) (d : List Byte) : (s.hostWrite a d).aside = s.aside := of_apart (State.apart_hostWrite ..)

@[simp] theorem computeWrite (a : Nat) (d : List Byte) : (s.computeWrite a d).aside = s.aside := of_apart (State.apart_computeWrite ..)

@[simp] theorem queueFill (first count : Nat) : (s.queueFill first count).aside = s.aside := by simp [State.queueFill]

@[simp] theorem sealPage (page : Nat) (turn : Word) : (s.sealPage page turn).aside = s.aside := foldl (fun s q => modSquare s q _) _ s

@[simp] theorem fillPage (frame : Nat) : (s.fillPage frame).aside = s.aside := by
  unfold State.fillPage
  dsimp only
  split
  · simp
  · split <;> rfl

@[simp] theorem releaseLeaf (p : Nat) (e : Word) : (s.releaseLeaf p e).aside = s.aside := by
  simp [State.releaseLeaf, State.releasePage, State.setSharers]

@[simp] theorem releaseTable (p root : Nat) : (s.releaseTable p root).aside = s.aside := by simp [State.releaseTable]

@[simp] theorem freeRowAt (p slot : Nat) : (s.freeRowAt p slot).aside = s.aside := by simp [State.freeRowAt]

@[simp] theorem countTails (p : Nat) : (s.countTails p).aside = s.aside := setReg s (by decide) ..

@[simp] theorem releaseTails (p : Nat) (h : Handle) : (s.releaseTails p h).aside = s.aside := by
  have hclear (l : List TailRun) (t : State) : (l.foldl (fun s r => s.clearTails r.square r.first r.count) t).aside = t.aside :=
    foldl (by exact fun _ _ => rfl) l t
  simp [State.releaseTails, hclear]

@[simp] theorem releaseStream (p : Nat) (h : Handle) (root : Nat) : (s.releaseStream p h root).aside = s.aside := by simp [State.releaseStream]

@[simp] theorem dropArrival (p : Nat) (a : Arrival) : (s.dropArrival p a).aside = s.aside := by simp [State.dropArrival]

@[simp] theorem restUnbatched (p : Nat) : (s.restUnbatched p).aside = s.aside := by
  unfold State.restUnbatched
  exact foldl (fun s x => by simp [State.streamEvent]) _ s

@[simp] theorem unstage (p : Nat) (h : Handle) : (s.unstage p h).aside = s.aside := by
  have hslice (t : State) (i : Nat) (rows : List BatchRow) : (t.stageSlice p i rows).aside = t.aside := by simp [State.stageSlice]
  unfold State.unstage State.writeSlices
  split
  · exact (foldl (by exact fun t x => hslice t x.1 x.2) _ _).trans (modPart s ..)
  · exact modPart s ..

/-! Messages and completions (chapter 9) -/

@[simp] theorem sendMsi (part : Option Nat) (block source addr : Nat) (data : BitVec 32) : (s.sendMsi part block source addr data).aside = s.aside := by
  have hpending (h f : Nat) : (s.setPending h f data.toNat).aside = s.aside := by simp [State.setPending]
  have hdrop (h : Nat) : (s.bump .hdMsiDrop h).aside = s.aside := bump s (by decide) ..
  unfold State.sendMsi
  split <;> simp [hpending, hdrop]

@[simp] theorem sendMgmt (n : Nat) (dst : BitVec 13) (kind p q : Nat) (xid : BitVec 16) (units : List Byte) :
    (s.sendMgmt n dst kind p q xid units).aside = s.aside := by simp [State.sendMgmt]

@[simp] theorem tellMembers (p kind : Nat) (units : List Byte) : (s.tellMembers p kind units).aside = s.aside :=
  foldl (fun s x => by dsimp only; split <;> simp) _ s

@[simp] theorem notifyRing (p n : Nat) : (s.notifyRing p n).aside = s.aside := by
  unfold State.notifyRing State.ringMsi
  dsimp only
  split <;> simp

@[simp] theorem writeCompletion (p n : Nat) (opcode : BitVec 16) (st : Status) (replay : Bool) (c : Cmd) (turn : Option Word) (result : List Byte) :
    (s.writeCompletion p n opcode st replay c turn result).aside = s.aside := by
  have hprod (t : State) (v : Word) : (t.setReg .mbRingCqProd p n v).aside = t.aside := setReg t (by decide) ..
  simp [State.writeCompletion, hprod]

@[simp] theorem complete (c : Cmd) (opcode : BitVec 16) (st : Status) (turn : Option Word) (result : List Byte) :
    (s.complete c opcode st turn result).aside = s.aside := by
  have hnow : (s.completeNow c opcode st false turn result).aside = s.aside := by
    unfold State.completeNow
    split
    · rfl
    extract_lets r s1 s2
    have h2 : s2.aside = s.aside := by
      have h1 : s1.aside = s.aside := rfl
      unfold s2
      split
      · split
        · exact (bump s1 (by decide) ..).trans h1
        · exact h1
      · exact h1
    clear_value s2
    split
    · exact (writeCompletion ..).trans h2
    · exact h2
    · exact (sendMgmt ..).trans h2
  unfold State.complete State.completeWith
  split
  · exact hnow
  · rfl

/-- The end of a migration that fails. -/
@[simp] theorem failMigration (p : Nat) (h : Handle) (st : Status) : (s.failMigration p h st).aside = s.aside := by
  unfold State.failMigration
  split
  · rfl
  extract_lets e s1 s2 s3 s4
  have h2 : s2.aside = s.aside := (modPart s1 ..).trans (setRow s ..)
  clear_value s2
  have h3 : s3.aside = s.aside := h2
  clear_value s3
  rw [complete]
  unfold s4
  split
  · exact (dropArrival ..).trans h3
  · exact h3

/-! The opening of a changeover (chapters 3 and 7) -/

@[simp] theorem latch (n : RegName) (i j : Nat) : (s.latch n i j).aside = s.aside := by simp [State.latch]

@[simp] theorem latchTurnLen (p : Nat) (v : Word) : (s.latchTurnLen p v).aside = s.aside := by simp [State.latchTurnLen]

@[simp] theorem latchChgLen (p : Nat) (v : Word) : (s.latchChgLen p v).aside = s.aside := by simp [State.latchChgLen]

@[simp] theorem takeBoundary (p : Nat) : (s.takeBoundary p).aside = s.aside := by
  have hfields (l : List (RegName × Nat × Nat)) (t : State) : (l.foldl (fun s (n, i, j) => s.latch n i j) t).aside = t.aside :=
    foldl (fun t x => latch t ..) l t
  simp [State.takeBoundary, State.latchFields, hfields]

@[simp] theorem askStep (p step : Nat) : (s.askStep p step).aside = s.aside := by
  have hstep (v : Word) : (s.setReg .tnStep p 0 v).aside = s.aside := setReg s (by decide) ..
  simp [State.askStep, hstep]

@[simp] theorem trimBatch (p : Nat) : (s.trimBatch p).aside = s.aside := by
  unfold State.trimBatch
  extract_lets room
  split
  · rfl
  · extract_lets out
    split
    · rfl
    · rw [decision, restUnbatched]
      exact foldl (by exact fun t r => unstage t p r.handle) _ s

@[simp] theorem chooseTurnLen (p : Nat) : (s.chooseTurnLen p).aside = s.aside := by
  have hlen (v : Word) : (s.setReg .tnTurnLen p 0 v).aside = s.aside := setReg s (by decide) ..
  simp [State.chooseTurnLen, hlen]

@[simp] theorem chooseStep (p : Nat) : (s.chooseStep p).aside = s.aside := by
  have hcap : ((s.setFlag .pwStatus 0 0 2 true).bump .pwCapEvents).aside = s.aside :=
    (bump _ (by decide) ..).trans (setPower s (by decide) true)
  simp [State.chooseStep, hcap]

@[simp] theorem requestMap (p m : Nat) : (s.requestMap p m).aside = s.aside := by
  have hmap (v : Word) : (s.setReg .sqMapReq p 0 v).aside = s.aside := setReg s (by decide) ..
  simp [State.requestMap, hmap]

@[simp] theorem chooseMap (p : Nat) : (s.chooseMap p).aside = s.aside := by
  unfold State.chooseMap
  split
  · rfl
  · split
    · rfl
    · split <;> simp

@[simp] theorem announceNew (p : Nat) : (s.announceNew p).aside = s.aside := by simp [State.announceNew, State.announceChange]

theorem followChange {n : RegName} (h : n ∉ RegName.pwStatus :: asideRegs) (p : Nat) (v : Word) : (s.followChange n p v).aside = s.aside := by
  unfold State.followChange
  split
  · exact setReg s h ..
  · rfl

@[simp] theorem applySpanChanges (p : Nat) : (s.applySpanChanges p).aside = s.aside := by
  have hlen (t : State) (v : Word) : (t.followChange .tnTurnLen p v).aside = t.aside := followChange t (by decide) ..
  have hchg (t : State) (v : Word) : (t.followChange .tnChgLen p v).aside = t.aside := followChange t (by decide) ..
  have hstep (t : State) (v : Word) : (t.followChange .tnStep p v).aside = t.aside := followChange t (by decide) ..
  have hmap (t : State) (v : Word) : (t.followChange .sqMapReq p v).aside = t.aside := followChange t (by decide) ..
  unfold State.applySpanChanges
  extract_lets due s0
  refine Eq.trans (b := s0.aside) (modPart ..) (foldl (fun t x => ?_) due s)
  obtain ⟨_, len, chg, step, map, maint⟩ := x
  simp [hlen, hchg, hstep, hmap]

@[simp] theorem applyPolicies (p : Nat) : (s.applyPolicies p).aside = s.aside := by
  unfold State.applyPolicies
  extract_lets v s1 now s2 s3
  have h2 : s2.aside = s.aside := (modPart s1 ..).trans (modPart s ..)
  have h3 : s3.aside = s2.aside := by
    unfold s3
    split
    · exact setReg s2 (by decide) ..
    · rfl
  clear_value s2 s3
  refine Eq.trans ?_ (h3.trans h2)
  apply foldl
  intro t q
  split <;> simp

@[simp] theorem budgetStep (p : Nat) : (s.budgetStep p).aside = s.aside := by
  unfold State.budgetStep
  split
  · exact setReg s (by decide) ..
  · rfl

@[simp] theorem openChangeover (p : Nat) : (s.openChangeover p).aside = s.aside := by simp [State.openChangeover]

/-! The abort of a turn and the fences (R94, chapter 15) -/

@[simp] theorem runWheels (p : Nat) (on : Bool) : (s.runWheels p on).aside = s.aside := foldl (fun s q => setFlag s (by decide) ..) _ s

@[simp] theorem setPhase (p x : Nat) : (s.setPhase p x).aside = s.aside := setField s (by decide) ..

@[simp] theorem rootSends (p : Nat) (m : BitVec 64) : (s.rootSends p m).aside = s.aside := by
  unfold State.rootSends State.snDown State.snSend
  split <;> simp

@[simp] theorem markAborted (p cause : Nat) : (s.markAborted p cause).aside = s.aside := by
  have hcount (t : State) : ((t.bump .tnAborts p).setFlag .tnStatus p 0 2 true).aside = t.aside :=
    (setFlag _ (by decide) ..).trans (bump t (by decide) ..)
  simp [State.markAborted, hcount]

@[simp] theorem abortTurn (p cause : Nat) : (s.abortTurn p cause).aside = s.aside := by
  unfold State.abortTurn
  dsimp only
  split <;> simp

@[simp] theorem fencePartition (p cause : Nat) : (s.fencePartition p cause).aside = s.aside := by
  unfold State.fencePartition
  split
  · rfl
  · exact (setReg _ (by decide) ..).trans ((bump _ (by decide) ..).trans ((setField _ (by decide) ..).trans (setFlag s (by decide) ..)))

@[simp] theorem enterPeer (p : Nat) (m : BitVec 13) : (s.enterPeer p m).aside = s.aside := by
  unfold State.enterPeer
  dsimp only
  split
  · rfl
  · split
    · exact setReg s (by decide) ..
    · simp

/-- A fenced peer joins those that are fenced, and the rest stands aside. -/
theorem fencePeer (m : BitVec 13) : (s.fencePeer m).aside =
    { s.aside with fencedModules := if m ∈ s.fencedModules then s.fencedModules else s.fencedModules ++ [m] } :=
  foldl (fun s p => by simp) _ _

@[simp] theorem spanLost (p : Nat) : (s.spanLost p).aside = s.aside := by simp [State.spanLost]

@[simp] theorem spanQuadLost (n : Nat) : (s.spanQuadLost n).aside = s.aside := by
  unfold State.spanQuadLost
  split
  · rfl
  · split
    · simp
    · rfl

end Aside

end Sys2Proof.Machine
end

section
/-! SUPPORT. Supplies, power measurements, temperatures and cooling (R412, R413, R453, R454, R460 to R467): what each report of a sensor comes to. -/

namespace Sys2Proof.Machine

/-! A region held down (R413) -/

/-- A die whose header switches are open, and that counts as fenced. -/
def Die.cut (d : Die) : Die := { d with powered := false, fenced := true, inReset := true, playing := false, flights := [], check := none }

/-- Dies that are cut stay cut, and those of the list are. -/
theorem State.die_cut_foldl (l : List Nat) (s : State) (i : Nat) (h : i ∈ l ∨ ((s.die i).powered = false ∧ (s.die i).fenced = true)) :
    ((l.foldl (fun s i => s.modDie i Die.cut) s).die i).powered = false ∧ ((l.foldl (fun s i => s.modDie i Die.cut) s).die i).fenced = true := by
  induction l generalizing s with
  | nil => exact h.resolve_left List.not_mem_nil
  | cons a l ih =>
    refine ih (s.modDie a Die.cut) ?_
    rw [State.die_modDie]
    split
    · exact .inr ⟨rfl, rfl⟩
    · next hne =>
      rcases h with h | h
      · exact .inl ((List.mem_cons.1 h).resolve_left fun e => hne e.symm)
      · exact .inr h

/-- A region whose switches have opened and that is powered down. -/
def State.cutRegion (s : State) (r : Nat) : State :=
  let s := { s.dropRegion r with power := { (s.dropRegion r).power with held := Sparse.insertNat s.power.held r } }
  (regionSites r).foldl (fun s i => s.modDie i Die.cut) (s.setFlag .pwStatus 0 0 1 true)

def State.fenceHosts (s : State) (r : Nat) : State := ((regionHosts r).foldl (fun s h => s.fenceHost h) s).writeOcLimits

theorem State.holdRegion_eq (s : State) (r cause : Nat) : s.holdRegion r cause =
    match ((s.cutRegion r).fenceHosts r).regionOwner r with
    | some p => (((s.cutRegion r).fenceHosts r).abortTurn p abortFence).fencePartition p cause
    | none => (s.cutRegion r).fenceHosts r := rfl

theorem Aside.fenceHost (s : State) (h : Nat) : (s.fenceHost h).aside = s.aside := by
  unfold State.fenceHost
  dsimp only
  split
  · exact (Aside.setFlag _ (by decide) ..).trans ((Aside.modHost ..).trans (Aside.setFlag s (by decide) ..))
  · exact (Aside.modHost ..).trans (Aside.setFlag s (by decide) ..)

theorem Aside.fenceHosts (s : State) (r : Nat) : (s.fenceHosts r).aside = s.aside := by
  have hlimits (t : State) : t.writeOcLimits.aside = t.aside := by
    unfold State.writeOcLimits
    exact Aside.foldl (by exact fun t k => Aside.setReg t (by decide) ..) _ t
  exact (hlimits _).trans (Aside.foldl (fun t h => Aside.fenceHost t h) _ s)

/-- The reaction in a region leaves aside what the opening of its switches leaves. -/
theorem Aside.holdRegion (s : State) (r cause : Nat) : (s.holdRegion r cause).aside = (s.cutRegion r).aside := by
  rw [State.holdRegion_eq]
  split
  · rw [Aside.fencePartition, Aside.abortTurn, Aside.fenceHosts]
  · exact Aside.fenceHosts ..

theorem State.cutRegion_outcome (s : State) (r : Nat) : r ∈ (s.cutRegion r).power.held ∧ (s.cutRegion r).flag .pwStatus 0 0 1 = true ∧
    (∀ n ≠ RegName.pwStatus, ∀ i j, (s.cutRegion r).reg n i j = s.reg n i j) ∧
    ∀ i, siteRegion i = r → i < 104 → ((s.cutRegion r).die i).powered = false ∧ ((s.cutRegion r).die i).fenced = true := by
  unfold State.cutRegion
  extract_lets u power t
  have hpower : r ∈ t.power.held := mem_insertNat.2 (.inl rfl)
  have hregs : t.regs = s.regs := rfl
  clear_value t
  have hfold : ((regionSites r).foldl (fun s i => s.modDie i Die.cut) (t.setFlag .pwStatus 0 0 1 true)).regs = (t.setFlag .pwStatus 0 0 1 true).regs :=
    State.regs_foldl (by exact fun _ _ => rfl) _ _
  refine ⟨?_, ?_, fun n hn i j => ?_, fun i hi hlt => State.die_cut_foldl _ _ i (.inl ?_)⟩
  · rw [State.view_foldl State.power (by exact fun _ _ => rfl)]
    exact hpower
  · rw [State.flag_of_regs hfold, State.flag_setFlag_self _ _ _ _ _ _ (by decide)]
  · rw [State.reg_of_regs hfold, State.reg_setFlag, if_neg fun e => hn e.1.symm, State.reg_of_regs hregs]
  · exact List.mem_filter.2 ⟨List.mem_range.2 hlt, decide_eq_true hi⟩

/-- A region held down: it is listed, its dies are cut, and what its status shows stands. -/
theorem State.holdRegion_outcome (s : State) (r cause : Nat) : r ∈ (s.holdRegion r cause).power.held ∧
    (s.holdRegion r cause).flag .pwStatus 0 0 1 = true ∧ (∀ n ∈ asideRegs, ∀ i j, (s.holdRegion r cause).reg n i j = s.reg n i j) ∧
    ∀ i, siteRegion i = r → i < 104 → ((s.holdRegion r cause).die i).powered = false ∧ ((s.holdRegion r cause).die i).fenced = true := by
  have haside := Aside.holdRegion s r cause
  obtain ⟨hheld, hflag, hreg, hdies⟩ := s.cutRegion_outcome r
  refine ⟨by rwa [Aside.supply haside], (Aside.heldFlag haside).trans hflag, fun n hn i j => ?_, fun i hi hlt => ?_⟩
  · exact (Aside.reg haside hn i j).trans (hreg n (by rintro rfl; exact absurd hn (by decide)) i j)
  · rw [Aside.die haside]
    exact hdies i hi hlt

theorem execSupplyOutOfWindow_outcome {r : Nat} (hr : r < 16) (s : State) (c : Bool) :
    ∃ t : State, execSupplyOutOfWindow r c s = .next t ∧ t.flag .pwRgnStatus r 0 2 = true ∧ r ∈ t.power.held ∧
      t.flag .pwStatus 0 0 1 = true ∧ ∀ i, siteRegion i = r → i < 104 → (t.die i).powered = false ∧ (t.die i).fenced = true := by
  let u := ({ s with power := (s.power.rail r c none).close r } : State).setFlag .pwRgnStatus r 0 2 true
  let t := (u.holdRegion r causeSupply).safetyAt (s.regionOwner r) 0 .pwRgnStatus r 0 r
  have haside : t.aside = (u.holdRegion r causeSupply).aside := Aside.safetyAt ..
  obtain ⟨hheld, hflag, hreg, hdies⟩ := u.holdRegion_outcome r causeSupply
  refine ⟨t, congrArg Host.Outcome.next (if_neg (by omega)), ?_, by rwa [Aside.supply haside], (Aside.heldFlag haside).trans hflag, fun i hi hlt => ?_⟩
  · rw [State.flag, Aside.reg haside (by decide), hreg _ (by decide), ← State.flag, State.flag_setFlag_self _ _ _ _ _ _ (by decide)]
  · rw [Aside.die haside]
    exact hdies i hi hlt

theorem execRegionOvercurrent_outcome {r : Nat} (hr : r < 16) (s : State) :
    ∃ t : State, execRegionOvercurrent r s = .next t ∧ t.flag .pwRgnStatus r 0 3 = true ∧ r ∈ t.power.held ∧
      t.reg .pwOcEvents r = (s.reg .pwOcEvents r + 1) &&& RegName.pwOcEvents.info.defined := by
  let u := (s.setFlag .pwRgnStatus r 0 3 true).bump .pwOcEvents r
  let t := (u.holdRegion r causeOvercurrent).safetyAt (s.regionOwner r) 0 .pwOcEvents r 0 r
  have haside : t.aside = (u.holdRegion r causeOvercurrent).aside := Aside.safetyAt ..
  obtain ⟨hheld, -, hreg, -⟩ := u.holdRegion_outcome r causeOvercurrent
  refine ⟨t, congrArg Host.Outcome.next (if_neg (by omega)), ?_, by rwa [Aside.supply haside], ?_⟩
  · rw [State.flag, Aside.reg haside (by decide), hreg _ (by decide), ← State.flag, State.flag_bump_of_ne (by decide),
      State.flag_setFlag_self _ _ _ _ _ _ (by decide)]
  · rw [Aside.reg haside (by decide), hreg _ (by decide), State.reg_bump_one, State.reg_setFlag, if_neg (by simp)]

theorem execSupplyInWindow_outcome {r : Nat} (hr : r < 16) (s : State) {c : Bool} (h : r ∈ (if c then s.pins.enC else s.pins.enA)) :
    ∃ t : State, execSupplyInWindow r c s = .next t ∧ r ∈ (if c then t.power.railsCIn else t.power.railsIn) ∧ t.power.held = s.power.held ∧
      t.regs = s.regs := by
  have hreopen (w : Power) : (w.reopen r).railsCIn = w.railsCIn ∧ (w.reopen r).railsIn = w.railsIn ∧ (w.reopen r).held = w.held := by
    unfold Power.reopen
    split <;> exact ⟨rfl, rfl, rfl⟩
  refine ⟨_, congrArg Host.Outcome.next (if_neg (not_or.2 ⟨by omega, not_not.2 h⟩)), ?_, ?_, rfl⟩
  · have hrail : r ∈ (if c then (s.power.rail r c (some s.now)).railsCIn else (s.power.rail r c (some s.now)).railsIn) := by
      cases c <;> exact mem_insertNat.2 (.inl rfl)
    simpa only [hreopen] using hrail
  · refine (hreopen _).2.2.trans ?_
    cases c <;> rfl

/-! Power measurements (R460 to R462) -/

/-- What a power measurement leaves: the module's power once it is written, memory and the partitions. -/
def State.measured (s : State) : Word × List Host.Cell × List (Nat × Part) := (s.reg .pwModule, s.mem, s.parts)

theorem State.measured_setReg (s : State) {n : RegName} (h : n ≠ .pwModule) (i j : Nat) (v : Word) : (s.setReg n i j v).measured = s.measured := by
  simp [State.measured, h]

theorem State.measured_slowHost (s : State) (h : Nat) : (s.slowHost h).measured = s.measured := by
  unfold State.slowHost
  dsimp only
  split
  · rfl
  · exact State.measured_setReg _ (by decide) ..

theorem State.measured_hostResponse (s : State) : s.hostResponse.measured = s.measured := by
  unfold State.hostResponse
  extract_lets s1
  have h1 : s1.measured = s.measured := State.view_foldl State.measured (fun t h => by
    split
    · exact t.measured_slowHost h
    · split <;> rfl) _ s
  exact (State.measured_setReg s1 (by decide) ..).trans h1

/-- The measurements of module, partitions and regions, written. -/
def State.readings (s : State) (module : BitVec 32) (parts : List (Nat × BitVec 32 × BitVec 32)) (module100 : BitVec 32)
    (regions : List (Nat × BitVec 48)) : State :=
  let s := s.setReg .pwModule 0 0 (module100 ++ module)
  let s := parts.foldl (fun s (p, now, avg) => if p < 8 then s.setReg .pwPartPower p 0 (avg ++ now) else s) s
  regions.foldl (fun s (r, v) => if r < 16 then s.setReg .pwRgnRead r 0 (v.setWidth 64) else s) s

theorem State.measured_readings (s : State) (now avg : BitVec 32) (parts : List (Nat × BitVec 32 × BitVec 32)) (regions : List (Nat × BitVec 48)) :
    (s.readings now parts avg regions).measured = (avg ++ now, s.mem, s.parts) := by
  unfold State.readings
  extract_lets s1 s2
  have h1 : s1.measured = (avg ++ now, s.mem, s.parts) := by simp [State.measured, s1]
  have h2 : s2.measured = s1.measured := State.view_foldl State.measured (fun t x => by
    dsimp only
    split
    · exact State.measured_setReg t (by decide) ..
    · rfl) _ s1
  refine (State.view_foldl State.measured (fun t x => ?_) _ s2).trans (h2.trans h1)
  dsimp only
  split
  · exact State.measured_setReg t (by decide) ..
  · rfl

theorem bitsAt_powers (now avg : BitVec 32) : bitsAt (avg ++ now : Word) 0 32 = now.toNat ∧ bitsAt (avg ++ now : Word) 32 32 = avg.toNat := by
  have ha : avg.toNat < 2 ^ 32 := avg.isLt
  have hn : now.toNat < 2 ^ 32 := now.isLt
  rw [bitsAt, bitsAt, BitVec.toNat_append, ← Nat.shiftLeft_add_eq_or_of_lt hn, Nat.shiftLeft_eq]
  omega

theorem execPowerMeasurement_outcome {s : State} (hup : s.up = true) (now avg : BitVec 32) (parts : List (Nat × BitVec 32 × BitVec 32))
    (regions : List (Nat × BitVec 48)) :
    ∃ t : State, execPowerMeasurement now parts avg regions s = .next t ∧ t.field .pwModule 0 0 0 32 = now.toNat ∧
      t.field .pwModule 0 0 32 32 = avg.toNat ∧ t.mem = s.mem ∧ t.parts = s.parts := by
  let u := s.readings now parts avg regions
  let v := if u.formedParts.any (fun p => u.overBudget p) then u else u.setFlag .pwStatus 0 0 2 false
  have hv : v.measured = u.measured := by
    unfold v
    split
    · rfl
    · exact State.measured_setReg u (by decide) ..
  have h : v.hostResponse.measured = (avg ++ now, s.mem, s.parts) := v.measured_hostResponse.trans (hv.trans (s.measured_readings now avg parts regions))
  have hreg : v.hostResponse.reg .pwModule = avg ++ now := congrArg Prod.fst h
  refine ⟨v.hostResponse, congrArg Host.Outcome.next (if_neg (by simp [hup])), ?_, ?_, congrArg (·.2.1) h, congrArg (·.2.2) h⟩
  · rw [State.field, hreg, (bitsAt_powers now avg).1]
  · rw [State.field, hreg, (bitsAt_powers now avg).2]

/-! Temperatures (R464 to R466) -/

/-- The registers that the throttling of a sample moves, beside the recorder's. -/
def heatRegs : List RegName := [.thThrottles, .thHot, .pwRgnStatus, .pwStatus]

/-- Throttling from s to t: memory, what waits of a start-up, and every other register stand. -/
structure Heated (s t : State) : Prop where
  mem : t.mem = s.mem
  referee : t.referee = s.referee
  reg : ∀ n ∉ heatRegs, n.ofRecorder = false → ∀ i j, t.reg n i j = s.reg n i j

theorem Heated.refl (s : State) : Heated s s := ⟨rfl, rfl, fun _ _ _ _ _ => rfl⟩

theorem Heated.trans {s t u : State} (h : Heated s t) (k : Heated t u) : Heated s u :=
  ⟨k.mem.trans h.mem, k.referee.trans h.referee, fun n hn hr i j => (k.reg n hn hr i j).trans (h.reg n hn hr i j)⟩

theorem Heated.setReg {n : RegName} (h : n ∈ heatRegs) (s : State) (i j : Nat) (v : Word) : Heated s (s.setReg n i j v) :=
  ⟨rfl, rfl, fun _ hm _ _ _ => State.reg_setReg_of_mem hm h ..⟩

theorem Heated.recorded {s t : State} (h : Recorded s t) : Heated s t := ⟨h.mem, h.referee, fun n _ hr i j => h.reg n i j hr⟩

theorem Heated.heat (s : State) (q owner : Nat) (t : Int) : Heated s (s.heat q owner t) := by
  unfold State.heat
  extract_lets opened power u
  have hu : Heated s u := ⟨rfl, rfl, fun _ _ _ _ _ => rfl⟩
  split
  · exact refl s
  · split
    · exact hu
    · exact (hu.trans (setReg (by decide) ..)).trans (recorded (Recorded.event7F ..))

theorem Heated.coolDown (s : State) : Heated s s.coolDown := ⟨rfl, rfl, fun _ _ _ _ _ => rfl⟩

theorem State.coolDown_regs (s : State) : s.coolDown.regs = s.regs := rfl

theorem State.writeHeat_eq (s : State) (r : Nat) : ∃ (w : Word) (b : Bool), s.writeHeat r =
    ((s.setReg .thHot 0 0 w).setFlag .pwRgnStatus r 0 1 b).setFlag .pwStatus 0 0 3
      ((List.range 256).any ((s.setReg .thHot 0 0 w).setFlag .pwRgnStatus r 0 1 b).squareHot) := ⟨_, _, rfl⟩

/-- The status of the supplies after a sample, with THROTTLE where a junction reads 95.0 °C or above. -/
theorem State.writeHeat_outcome (s : State) (r : Nat) : Heated s (s.writeHeat r) ∧
    ((s.writeHeat r).flag .pwStatus 0 0 3 = true ↔ ∃ q < 256, 1520 ≤ s.panelTemp q ∨ 1520 ≤ s.aboveTemp q) := by
  obtain ⟨w, b, heq⟩ := s.writeHeat_eq r
  have hsv : Heated s ((s.setReg .thHot 0 0 w).setFlag .pwRgnStatus r 0 1 b) :=
    (Heated.setReg (by decide) ..).trans (Heated.setReg (by decide) ..)
  rw [heq]
  generalize (s.setReg .thHot 0 0 w).setFlag .pwRgnStatus r 0 1 b = v at *
  refine ⟨hsv.trans (Heated.setReg (by decide) ..), ?_⟩
  have htemp (q : Nat) : v.panelTemp q = s.panelTemp q ∧ v.aboveTemp q = s.aboveTemp q := by
    have hreg := hsv.reg .thTemp (by decide) rfl q 0
    rw [State.panelTemp, State.aboveTemp, State.field, State.field, hreg]
    exact ⟨rfl, rfl⟩
  rw [State.flag_setFlag_self _ _ _ _ _ _ (by decide), List.any_eq_true]
  simp only [List.mem_range, State.squareHot, htemp, decide_eq_true_eq]

/-- A sample of the sensors of a square. -/
theorem State.sample_outcome (s : State) {q : Nat} (hq : q < 256) (panel above : BitVec 16) :
    Heated (s.takeTemp q panel above) (s.sample q panel above) ∧
      (1520 ≤ panel.toInt → (s.sample q panel above).flag .pwStatus 0 0 3 = true) := by
  unfold State.sample
  extract_lets t u
  have hu : Heated t u := (Heated.heat ..).trans (Heated.heat ..)
  obtain ⟨hw, hflag⟩ := u.writeHeat_outcome (squareRegion q)
  refine ⟨(hu.trans hw).trans (Heated.coolDown _), fun hhot => ?_⟩
  rw [State.flag_of_regs (State.coolDown_regs _)]
  refine hflag.2 ⟨q, hq, .inl ?_⟩
  have htemp : u.panelTemp q = t.panelTemp q := congrArg (fun v => reading (bitsAt v 0 16)) (hu.reg .thTemp (by decide) rfl q 0)
  rw [htemp, State.panelTemp_takeTemp, if_pos rfl]
  exact hhot

theorem reading_ofInt {x : Int} (h : -32768 ≤ x) (k : x ≤ 32767) : reading (bitsAt ((BitVec.ofInt 16 x).setWidth 64 : Word) 0 16) = x := by
  have hlt : (BitVec.ofInt 16 x).toNat < 2 ^ 16 := (BitVec.ofInt 16 x).isLt
  have hbits : bitsAt ((BitVec.ofInt 16 x).setWidth 64 : Word) 0 16 = (BitVec.ofInt 16 x).toNat := by
    rw [bitsAt, BitVec.toNat_setWidth]
    omega
  rw [hbits, reading_toNat, BitVec.toInt_ofInt, Int.bmod_def]
  omega

theorem toInt_range (x : BitVec 16) : -32768 ≤ x.toInt ∧ x.toInt ≤ 32767 := by
  have hlo := x.le_toInt
  have hhi := x.toInt_lt
  constructor <;> omega

/-- The hottest reading of a square so far. -/
theorem State.takeTemp_max (s : State) (q : Nat) (panel above : BitVec 16) : reading ((s.takeTemp q panel above).field .thMax q 0 0 16) =
    max (reading (s.field .thMax q 0 0 16)) (max panel.toInt above.toInt) := by
  have hp := toInt_range panel
  have ha := toInt_range above
  have htop : max ((s.setReg .thTemp q 0 ((above ++ panel).setWidth 64)).panelTemp q) ((s.setReg .thTemp q 0 ((above ++ panel).setWidth 64)).aboveTemp q) =
      max panel.toInt above.toInt := by
    simp only [State.panelTemp, State.aboveTemp, State.field, State.reg_setReg, true_and, if_true, (bitsAt_sensors panel above).1,
      (bitsAt_sensors panel above).2, reading_toNat]
  have hmax : (s.setReg .thTemp q 0 ((above ++ panel).setWidth 64)).field .thMax q 0 0 16 = s.field .thMax q 0 0 16 := by
    rw [State.field, State.reg_setReg, if_neg (by simp), ← State.field]
  unfold State.takeTemp
  dsimp only
  rw [htop, hmax]
  split
  · rw [State.field, State.reg_setReg, if_pos ⟨rfl, rfl, rfl⟩, reading_ofInt (by omega) (by omega)]
    omega
  · rw [hmax]
    omega

theorem execThermalSample_of_waiting {s : State} {q : Nat} (hq : q < 256) (panel above : BitVec 16) {i : ColdStartInputs}
    (hstart : s.referee.startup = some i) (hstep : s.field .refBoot 0 0 0 4 = 4) :
    execThermalSample q panel above s = .next ((s.sample q panel above).raiseRegions i) := by
  obtain ⟨hheat, -⟩ := s.sample_outcome hq panel above
  have htaken : (s.takeTemp q panel above).referee = s.referee ∧ (s.takeTemp q panel above).reg .refBoot = s.reg .refBoot :=
    ⟨State.takeTemp_referee .., (s.takeTemp_outcome q panel above).2.2.2 .refBoot (by decide) 0 0⟩
  have href : (s.sample q panel above).referee.startup = some i := by rw [hheat.referee, htaken.1, hstart]
  have hboot : (s.sample q panel above).field .refBoot 0 0 0 4 = 4 :=
    (State.step_of_reg ((hheat.reg .refBoot (by decide) rfl 0 0).trans htaken.2)).trans hstep
  unfold execThermalSample
  rw [if_neg (by omega)]
  simp only [href, hboot, if_true]

theorem execThermalSample_of_running {s : State} {q : Nat} (hq : q < 256) (panel above : BitVec 16)
    (h : s.referee.startup = none ∨ s.field .refBoot 0 0 0 4 ≠ 4) : execThermalSample q panel above s = .next (s.sample q panel above) := by
  obtain ⟨hheat, -⟩ := s.sample_outcome hq panel above
  have href : (s.sample q panel above).referee = s.referee := hheat.referee.trans (State.takeTemp_referee ..)
  have hboot : (s.sample q panel above).field .refBoot 0 0 0 4 = s.field .refBoot 0 0 0 4 :=
    State.step_of_reg ((hheat.reg .refBoot (by decide) rfl 0 0).trans ((s.takeTemp_outcome q panel above).2.2.2 .refBoot (by decide) 0 0))
  unfold execThermalSample
  rw [if_neg (by omega)]
  dsimp only
  rw [href, hboot]
  rcases h with h | h
  · rw [h]
  · simp only [h, if_false]
    split <;> rfl

/-- What a sample of a running module shows. -/
theorem State.sample_shown (s : State) {q : Nat} (hq : q < 256) (panel above : BitVec 16) :
    (s.sample q panel above).field .thTemp q 0 0 16 = panel.toNat ∧ (s.sample q panel above).field .thTemp q 0 16 16 = above.toNat ∧
      reading ((s.sample q panel above).field .thMax q 0 0 16) =
        max (reading (s.field .thMax q 0 0 16)) (max (reading panel.toNat) (reading above.toNat)) ∧
      (1520 ≤ reading panel.toNat → (s.sample q panel above).flag .pwStatus 0 0 3 = true) ∧ (s.sample q panel above).mem = s.mem := by
  obtain ⟨hheat, hflag⟩ := s.sample_outcome hq panel above
  have htemp : (s.sample q panel above).reg .thTemp q = (above ++ panel).setWidth 64 := by
    rw [hheat.reg .thTemp (by decide) rfl, State.reg_takeTemp, if_pos rfl]
  rw [reading_toNat, reading_toNat, State.field, State.field, htemp, State.field, hheat.reg .thMax (by decide) rfl, ← State.field]
  exact ⟨(bitsAt_sensors panel above).1, (bitsAt_sensors panel above).2, s.takeTemp_max q panel above, hflag,
    hheat.mem.trans (s.takeTemp_outcome q panel above).2.2.1⟩

/-- The SAFETY report of the thermal comparator. -/
def State.tripReport (s : State) (q : Nat) (j : BitVec 16) : Report :=
  { code := 0x1580, sev := .safety, part := 0xF, source := 240, tick := s.now 240, payload := leBytes 2 j.toNat ++ leBytes 1 q }

/-- The thermal trip: every partition stops at once. -/
theorem execThermTrip_outcome (s : State) (q : Nat) {j : BitVec 16} (hj : 1840 ≤ j.toInt) :
    ∃ t : State, execThermTrip q j s = .next t ∧ t.pins.thermTripN = false ∧ t.flag .pwStatus 0 0 7 = true ∧
      ∀ p, s.formed p = true → p < 8 → t.phase p = 0 ∧ (t.part p).stage = .stopped := by
  let u := ({ s with pins := { s.pins with thermTripN := false } } : State).setFlag .pwStatus 0 0 7 true
  let v := (u.openSwitches.hardwareSafety (u.openSwitches.tripReport q j)).thaw.beginFlush
  have hrec : Recorded u.openSwitches v := ((Recorded.hardwareSafety ..).trans (Recorded.thaw _)).trans (Recorded.beginFlush _)
  obtain ⟨-, -, hpins, hreg⟩ := u.openSwitches_outcome
  obtain ⟨hstop, hrest⟩ := State.stopTurns_foldl v.formedParts v
  have hvreg (n : RegName) (hn : n ∉ switchRegs) (hr : n.ofRecorder = false) (i k : Nat) : v.reg n i k = u.reg n i k :=
    (hrec.reg n i k hr).trans (hreg n hn i k)
  have hformed (p : Nat) : v.formed p = s.formed p := by
    have hu : u.reg .ptStatus p = s.reg .ptStatus p := (State.reg_setFlag ..).trans ((if_neg (by simp)).trans (State.reg_of_regs rfl ..))
    exact congrArg (bitAt · 1) ((hvreg .ptStatus (by decide) rfl p 0).trans hu)
  refine ⟨_, congrArg Host.Outcome.next (if_neg (by omega)), ?_, ?_, fun p hp hlt => hrest p ?_⟩
  · refine (congrArg Pins.thermTripN hstop.pins :).trans ?_
    change v.pins.thermTripN = false
    rw [hrec.pins, hpins]
    rfl
  · refine (congrArg (bitAt · 7) ((hstop.reg .pwStatus (by decide) 0 0).trans (hvreg .pwStatus (by decide) rfl 0 0))).trans ?_
    exact State.flag_setFlag_self _ _ _ _ _ _ (by decide)
  · exact List.mem_filter.2 ⟨List.mem_range.2 hlt, (hformed p).trans hp⟩

/-! Cooling (R467, R468) -/

/-- What the watch over cooling shows of its reads: TH_COOLANT, and the reads that the inlet sensor did not answer. -/
def State.coolant (s : State) : Word × Nat := (s.reg .thCoolant, s.power.noInlet)

theorem State.coolant_setReg (s : State) {n : RegName} (h : n ≠ .thCoolant) (i j : Nat) (v : Word) : (s.setReg n i j v).coolant = s.coolant := by
  simp [State.coolant, h]

theorem State.coolant_of_recorded {s t : State} (h : Recorded s t) : t.coolant = s.coolant :=
  Prod.ext (h.reg .thCoolant 0 0 rfl) (congrArg Power.noInlet h.power)

theorem State.coolant_takeSample (s : State) (inlet : Int) : (s.takeSample inlet).coolant = s.coolant := by
  unfold State.takeSample
  extract_lets x e e' s1 w s2 b flash s3 base exceeds power
  have h1 : s1.coolant = s.coolant := State.coolant_setReg s (by decide) ..
  have h2 : s2.coolant = s1.coolant := rfl
  have h3 : s3.coolant = s1.coolant := by
    unfold s3
    split
    · rfl
    · split
      · exact h2
      · exact (State.coolant_setReg _ (by decide) ..).trans h2
  clear_value s1 s3
  exact (rfl : _ = s3.coolant).trans (h3.trans h1)

theorem State.coolant_coolWarn (s : State) (cause : BitVec 8) : (s.coolWarn cause).coolant = s.coolant :=
  (State.coolant_of_recorded (Recorded.event7F ..)).trans ((State.coolant_setReg _ (by decide) ..).trans (State.coolant_setReg s (by decide) ..))

theorem State.coolant_judgeCooling (s : State) (before : List (BitVec 8)) : (s.judgeCooling before).coolant = s.coolant := by
  unfold State.judgeCooling
  extract_lets now s1 clear power s2
  have h1 : s1.coolant = s.coolant := State.view_foldl State.coolant State.coolant_coolWarn _ s
  have h2 : s2.coolant = s1.coolant := rfl
  clear_value s2
  split
  · exact (State.coolant_setReg s2 (by decide) ..).trans (h2.trans h1)
  · exact h2.trans h1

/-- The counts of the cooling watch after the sensors have answered. -/
def coolingCounts (s : State) (inlet flow : Option (BitVec 16)) : Power :=
  let w := s.power
  let w := if !decide (s.cooling 0x0116 % 256 ≠ 0) then { w with noInlet := 0, overInlet := 0 }
    else match inlet with
      | none => { w with noInlet := w.noInlet + 1 }
      | some x =>
        let out := decide (x.toInt < s.cooling 0x0111 ∨ (s.cooling 0x0112 : Int) < x.toInt)
        { w with noInlet := 0, overInlet := if out then w.overInlet + 1 else 0 }
  if !decide (s.cooling 0x0116 / 256 ≠ 0) then { w with noFlow := 0, overFlow := 0 }
  else match flow with
    | none => { w with noFlow := w.noFlow + 1 }
    | some x => { w with noFlow := 0, overFlow := if x.toNat < s.cooling 0x0113 then w.overFlow + 1 else 0 }

/-- TH_COOLANT with the readings that the sensors gave. -/
def State.putCoolant (s : State) (hasInlet hasFlow : Bool) (inlet flow : Option (BitVec 16)) : State :=
  let s := match hasInlet, inlet with
    | true, some x => s.setField .thCoolant 0 0 0 16 x.toNat
    | _, _ => s
  match hasFlow, flow with
    | true, some x => s.setField .thCoolant 0 0 16 16 x.toNat
    | _, _ => s

/-- TH_COOLANT with the marks of what is out of its range or silent. -/
def State.markCoolant (s : State) (w : Power) : State :=
  ((s.setFlag .thCoolant 0 0 32 (decide (10 ≤ w.overInlet))).setFlag .thCoolant 0 0 33 (decide (10 ≤ w.overFlow))).setFlag .thCoolant 0 0 34
    (decide (3 ≤ w.noInlet ∨ 3 ≤ w.noFlow))

theorem execCoolingRead_eq {s : State} (hup : s.up = true) (hinlet : s.cooling 0x0116 % 256 ≠ 0) (inlet flow : Option (BitVec 16)) :
    ∃ t : State, execCoolingRead inlet flow s = .next t ∧ t.coolant =
      ((({ s with power := coolingCounts s inlet flow } : State).putCoolant true (decide (s.cooling 0x0116 / 256 ≠ 0)) inlet flow).markCoolant
        (coolingCounts s inlet flow)).coolant := by
  let w := coolingCounts s inlet flow
  let u := (({ s with power := w } : State).putCoolant (decide (s.cooling 0x0116 % 256 ≠ 0)) (decide (s.cooling 0x0116 / 256 ≠ 0)) inlet flow).markCoolant w
  let v := match decide (s.cooling 0x0116 % 256 ≠ 0), inlet with
    | true, some x => if 2000 ≤ u.field .pwModule 0 0 0 32 ∧ !decide (3 ≤ w.noInlet ∨ 3 ≤ w.noFlow) then u.takeSample x.toInt else u
    | _, _ => u
  have hv : v.coolant = u.coolant := by
    unfold v
    split
    · split
      · exact u.coolant_takeSample _
      · rfl
    · rfl
  refine ⟨v.judgeCooling (coolCauses s.power), ?_, (v.coolant_judgeCooling _).trans (hv.trans ?_)⟩
  · unfold execCoolingRead
    dsimp only
    rw [if_neg (by simp [hup, hinlet])]
    rfl
  · unfold u
    rw [decide_eq_true hinlet]

theorem State.field_markCoolant (s : State) (w : Power) : (s.markCoolant w).field .thCoolant 0 0 0 16 = s.field .thCoolant 0 0 0 16 :=
  (State.field_setField_ne (by decide) (by decide) ..).trans ((State.field_setField_ne (by decide) (by decide) ..).trans
    (State.field_setField_ne (by decide) (by decide) s .thCoolant 0 0 _))

theorem State.field_putFlow (s : State) (hasFlow : Bool) (flow : Option (BitVec 16)) : (match hasFlow, flow with
    | true, some x => s.setField .thCoolant 0 0 16 16 x.toNat
    | _, _ => s).field .thCoolant 0 0 0 16 = s.field .thCoolant 0 0 0 16 := by
  split
  · exact State.field_setField_ne (by decide) (by decide) ..
  · rfl

/-- The reading that the watch shows of the inlet. -/
theorem field_coolant {s t : State} (h : t.coolant = s.coolant) : t.field .thCoolant 0 0 0 16 = s.field .thCoolant 0 0 0 16 :=
  congrArg (bitsAt · 0 16) (congrArg Prod.fst h)

/-- The silent reads of an inlet sensor that should answer. -/
theorem noInlet_coolingCounts {s : State} (hinlet : s.cooling 0x0116 % 256 ≠ 0) (inlet flow : Option (BitVec 16)) :
    (coolingCounts s inlet flow).noInlet = match inlet with | some _ => 0 | none => s.power.noInlet + 1 := by
  unfold coolingCounts
  rw [decide_eq_true hinlet]
  cases inlet <;> cases flow <;> simp only [Bool.not_true, Bool.false_eq_true, if_false] <;> split <;> rfl

theorem State.power_putCoolant (s : State) (hasInlet hasFlow : Bool) (inlet flow : Option (BitVec 16)) :
    (s.putCoolant hasInlet hasFlow inlet flow).power = s.power := by
  unfold State.putCoolant
  dsimp only
  split <;> split <;> rfl

theorem execCoolingRead_outcome {s : State} (hup : s.up = true) (hinlet : s.cooling 0x0116 % 256 ≠ 0) (inlet flow : Option (BitVec 16)) :
    ∃ t : State, execCoolingRead inlet flow s = .next t ∧
      t.field .thCoolant 0 0 0 16 = (match inlet with | some x => x.toNat | none => s.field .thCoolant 0 0 0 16) ∧
      t.power.noInlet = match inlet with | some _ => 0 | none => s.power.noInlet + 1 := by
  obtain ⟨t, ht, hcoolant⟩ := execCoolingRead_eq hup hinlet inlet flow
  refine ⟨t, ht, (field_coolant hcoolant).trans ((State.field_markCoolant ..).trans ((State.field_putFlow ..).trans ?_)),
    (congrArg Prod.snd hcoolant).trans ?_⟩
  · cases inlet with
    | none => rfl
    | some x => exact State.field_setField_same (by decide) x.isLt ..
  · rw [← noInlet_coolingCounts hinlet inlet flow]
    exact congrArg Power.noInlet (State.power_putCoolant ..)

/-- Settles O46, sensor by sensor. -/
theorem supplyAndTemperature : Obligations.SupplyAndTemperature := by
  refine ⟨fun s r hr => ⟨execSupplyOutOfWindow_outcome hr s, fun h => execSupplyInWindow_outcome hr s (c := false) h,
    fun h => execSupplyInWindow_outcome hr s (c := true) h, execRegionOvercurrent_outcome hr s⟩, fun s => ⟨fun now avg parts regions hup =>
    execPowerMeasurement_outcome hup now avg parts regions, fun q panel above i hq hstart hstep => execThermalSample_of_waiting hq panel above hstart hstep,
    fun q panel above hq h => ⟨_, execThermalSample_of_running hq panel above h, s.sample_shown hq panel above⟩,
    fun q j hj => execThermTrip_outcome s q hj, fun q j hj => congrArg Host.Outcome.next (if_pos hj),
    fun x f hup hinlet => execCoolingRead_outcome hup hinlet (some x) f, fun hup hinlet f => ?_⟩⟩
  obtain ⟨t, ht, hfield, hcount⟩ := execCoolingRead_outcome hup hinlet none f
  exact ⟨t, ht, hcount, hfield⟩

end Sys2Proof.Machine
end

section
/-! SUPPORT. The voltage loop (R457 to R459, Tables 17.1 and 17.2): its actions within their ranges, and what one loop leaves of PW_RGN_STATUS. -/

namespace Sys2Proof.Machine

/-! The action for a code -/

theorem loopSet_of_floor_le {set floor : Nat} (h : floor ≤ set) (code : Nat) : loopSet set code floor = max 1100 (min 1800
    (if code ≤ 3 then set + 40 else if code ≤ 11 then set + 10 else if code ≤ 20 then set else max (set - 5) floor)) := by
  unfold loopSet
  dsimp only
  rw [if_neg (by omega : ¬set < floor), if_pos h]

/-- A setpoint below the floor rises toward it when the code asks for no more. -/
theorem loopSet_of_lt_floor {set code floor : Nat} (hcode : 12 ≤ code) (h : set < floor) :
    loopSet set code floor = max 1100 (min 1800 (min floor (set + 10))) := by
  have hact : (if code ≤ 3 then set + 40 else if code ≤ 11 then set + 10 else if code ≤ 20 then set
      else if floor ≤ set then max (set - 5) floor else set) = set := by
    rw [if_neg (by omega), if_neg (by omega), if_neg (by omega : ¬floor ≤ set), ite_self]
  unfold loopSet
  dsimp only
  rw [hact, if_pos h]
  omega

theorem loopSet_range (set code floor : Nat) : 1100 ≤ loopSet set code floor ∧ loopSet set code floor ≤ 1800 := by
  unfold loopSet
  dsimp only
  omega

/-! What a loop leaves of the status of its region -/

/-- What a loop writes of PW_RGN_STATUS: the setpoint, the minimum code, and CEILING. -/
def State.loopStatus (s : State) (r : Nat) : Nat × Nat × Bool :=
  (s.field .pwRgnStatus r 0 16 16, s.field .pwRgnStatus r 0 32 8, s.flag .pwRgnStatus r 0 4)

theorem State.loopStatus_of_reg {s t : State} {r : Nat} (h : t.reg .pwRgnStatus r = s.reg .pwRgnStatus r) : t.loopStatus r = s.loopStatus r :=
  congrArg (fun v : Word => (bitsAt v 16 16, bitsAt v 32 8, bitAt v 4)) h

/-- MARGIN_OK lies beside what a loop writes. -/
theorem State.loopStatus_setMargins (s : State) (r : Nat) : (s.setMargins r).loopStatus r = s.loopStatus r := by
  refine State.view_foldl (State.loopStatus · r) (fun t k => ?_) _ s
  refine Prod.ext ?_ (Prod.ext ?_ ?_)
  · exact State.field_setField_ne (by decide) (.inl (by omega)) ..
  · exact State.field_setField_ne (by decide) (.inl (by omega)) ..
  · exact State.flag_setField_ne (by decide) (.inl (by omega)) ..

/-- The setpoint, the minimum code and CEILING written by a loop. -/
def State.putLoop (s : State) (r set code : Nat) (ceiling : Bool) : State :=
  ((s.setField .pwRgnStatus r 0 16 16 set).setField .pwRgnStatus r 0 32 8 code).setFlag .pwRgnStatus r 0 4 ceiling

theorem State.loopStatus_putLoop {set code : Nat} (hset : set < 2 ^ 16) (hcode : code < 2 ^ 8) (s : State) (r : Nat) (ceiling : Bool) :
    (s.putLoop r set code ceiling).loopStatus r = (set, code, ceiling) := by
  refine Prod.ext ?_ (Prod.ext ?_ ?_)
  · refine (State.field_setField_ne (by decide) (by decide) ..).trans ?_
    exact (State.field_setField_ne (by decide) (by decide) ..).trans (State.field_setField_same (by decide) hset ..)
  · exact (State.field_setField_ne (by decide) (by decide) ..).trans (State.field_setField_same (by decide) hcode ..)
  · exact State.flag_setFlag_self _ _ _ _ _ _ (by decide)

/-! The VH setpoints -/

/-- Each unit of a list without repetitions takes its new value once. -/
theorem nget_foldl_nset (f : Nat → Nat) (l : List Nat) (hl : l.Nodup) (m : List (Nat × Nat)) (h : Nat) :
    Sparse.nget 0 (l.foldl (fun m h => Sparse.nset 0 m h (f (Sparse.nget 0 m h))) m) h =
      if h ∈ l then f (Sparse.nget 0 m h) else Sparse.nget 0 m h := by
  induction l generalizing m with
  | nil => rfl
  | cons a l ih =>
    obtain ⟨ha, hl⟩ := List.nodup_cons.1 hl
    rw [List.foldl_cons, ih hl, Sparse.nget_nset]
    by_cases hh : a = h
    · subst hh
      simp [ha]
    · simp [hh, Ne.symm hh]

theorem regionHosts_nodup (r : Nat) : (regionHosts r).Nodup := List.nodup_range.filter _

theorem mem_regionHosts {r h : Nat} : h ∈ regionHosts r ↔ h < 8 ∧ hostRegion h = r := by
  simp [regionHosts]

/-! One loop -/

/-- What a loop shows: what it writes of the status, the VH setpoints, and memory. -/
def State.looped (s : State) (r : Nat) : (Nat × Nat × Bool) × List (Nat × Nat) × List Host.Cell := (s.loopStatus r, s.power.vhSet, s.mem)

theorem State.looped_of_recorded {s t : State} (h : Recorded s t) (r : Nat) : t.looped r = s.looped r :=
  Prod.ext (State.loopStatus_of_reg (h.reg .pwRgnStatus r 0 rfl)) (Prod.ext (congrArg Power.vhSet h.power) h.mem)

theorem State.looped_setMargins (s : State) (r : Nat) : (s.setMargins r).looped r = s.looped r :=
  Prod.ext (s.loopStatus_setMargins r) (State.view_foldl (fun t => (t.power.vhSet, t.mem)) (by exact fun _ _ => rfl) _ s)

theorem execVoltageLoop_outcome {r : Nat} (hr : r < 16) (s : State) (code host : BitVec 8) (cur : BitVec 16) :
    ∃ t : State, execVoltageLoop r code host cur s = .next t ∧ t.looped r =
      ((loopSet (2 * s.field .pwRgnStatus r 0 16 16 + (if r ∈ s.power.halfMv then 1 else 0)) code.toNat (2 * s.loopFloor r) / 2, code.toNat,
          decide (2 * s.field .pwRgnStatus r 0 16 16 + (if r ∈ s.power.halfMv then 1 else 0) = 1800 ∧ code.toNat < 12)),
        (regionHosts r).foldl (fun l h => Sparse.nset 0 l h (hostSet (Sparse.nget 0 l h) host.toNat)) s.power.vhSet, s.mem) := by
  unfold execVoltageLoop
  extract_lets r' old new ceiling began power u v w x
  have hv : v.looped r = ((new / 2, code.toNat, ceiling), u.power.vhSet, s.mem) := by
    have hnew : new ≤ 1800 := (loopSet_range ..).2
    exact Prod.ext (u.loopStatus_putLoop (by omega) code.isLt r ceiling) rfl
  have hw : w.looped r = v.looped r := v.looped_setMargins r
  have hx : x.looped r = w.looped r := State.looped_of_recorded (Recorded.event7F ..) r
  refine ⟨_, congrArg Host.Outcome.next (if_neg (by omega)), Eq.trans ?_ (hw.trans hv)⟩
  clear_value w x
  split
  · rfl
  · split <;> exact hx

/-- Settles O45: the actions within their ranges, and one loop of a region and of the host dies whose rail it has. -/
theorem voltageLoop : Obligations.VoltageLoop := by
  refine ⟨fun set code floor h => ?_, fun set code floor hcode h _ _ => ?_, loopSet_range, fun set code => ?_, fun s r code host cur hr => ?_⟩
  · rw [loopSet_of_floor_le h]
    split_ifs <;> omega
  · rw [loopSet_of_lt_floor hcode h]
    omega
  · unfold hostSet
    split_ifs <;> omega
  · obtain ⟨t, ht, hlooped⟩ := execVoltageLoop_outcome hr s code host cur
    simp only [State.looped, State.loopStatus, Prod.mk.injEq] at hlooped
    obtain ⟨⟨hset, hcode, hceiling⟩, hvh, hmem⟩ := hlooped
    have hhosts (h : Nat) : Sparse.nget 0 t.power.vhSet h =
        if h ∈ regionHosts r then hostSet (Sparse.nget 0 s.power.vhSet h) host.toNat else Sparse.nget 0 s.power.vhSet h := by
      rw [hvh]
      exact nget_foldl_nset (hostSet · host.toNat) _ (regionHosts_nodup r) _ h
    refine ⟨t, ht, hset, hcode, by rw [hceiling, decide_eq_true_iff], fun h hlt hh => ?_, fun h hh => ?_, hmem⟩
    · rw [hhosts, if_pos (mem_regionHosts.2 ⟨hlt, hh⟩)]
    · rw [hhosts, if_neg fun k => hh (mem_regionHosts.1 k).2]

end Sys2Proof.Machine
end

section
/-! SUPPORT. The commands of a host die (R329, R337 to R342, R420, R509): what each leaves of the die and of its registers. -/

namespace Sys2Proof.Machine

/-! Interrupts and the timer -/

theorem State.sendMsi_of_served {s : State} {part : Option Nat} {h file addr : Nat} (hfile : interruptFile addr = some (h, file, 0))
    (hpart : s.hostOwner h = part) (hsome : part ≠ none) (hrun : s.hostRunning h = true) (hfence : s.hostFenced h = false) (block source : Nat)
    (data : BitVec 32) : s.sendMsi part block source addr data = s.setPending h file data.toNat := by
  unfold State.sendMsi
  simp [hfile, hpart, hsome, hrun, hfence]

theorem State.setPending_outcome (s : State) (h file : Nat) {id : Nat} (hne : id ≠ 0) (hle : id ≤ 255) :
    id ∈ Sparse.nget [] ((s.setPending h file id).hostDie h).pending file ∧ (s.setPending h file id).mem = s.mem ∧
      (s.setPending h file id).regs = s.regs := by
  unfold State.setPending
  rw [if_neg (by omega)]
  refine ⟨?_, rfl, rfl⟩
  rw [State.hostDie_modHost, if_pos rfl, Sparse.nget_nset, if_pos rfl]
  exact mem_insertNat.2 (.inl rfl)

theorem State.mem_timer (s : State) (h c : Nat) : c ∈ ((s.timer h c).hostDie h).mtip ↔
    (s.reg .hdMtimecmp (32 * h + c)).toNat ≤ (s.now (hostSquare h)).toNat := by
  unfold State.timer
  dsimp only
  rw [State.hostDie_modHost, if_pos rfl]
  dsimp only
  split
  next hdue => exact ⟨fun _ => of_decide_eq_true hdue, fun _ => mem_insertNat.2 (.inl rfl)⟩
  next hdue => exact ⟨fun hc => absurd rfl (of_decide_eq_true (List.mem_filter.1 hc).2), fun hle => absurd (decide_eq_true hle) hdue⟩

/-! The root port -/

theorem execInboundPcieRequest_of_read {s : State} {h : Nat} (hport : (s.hostDie h).portInReset = false) (a : Addr) {n : Nat} (hn : 0 < n) :
    execInboundPcieRequest h a (.read n) s = .next (match Config.iommu h a with
      | none => s.answered (.error .notPermitted)
      | some b => if pcieReaches h b.toNat then (s.access (.pcie h) false b.toNat n none).1.answered (s.access (.pcie h) false b.toNat n none).2
        else (s.unmapped (hostSquare h) .notPermitted b.toNat).answered (.error .notPermitted)) := by
  refine congrArg Host.Outcome.next ((if_neg (not_or.2 ⟨by simp [hport], Nat.ne_of_gt hn⟩)).trans ?_)
  cases Config.iommu h a with
  | none => rfl
  | some b => cases hreach : pcieReaches h b.toNat <;> simp [hreach]

theorem subPorts_le (k : Nat) : (subPorts k).1 ≤ 4 ∧ (subPorts k).2 ≤ 4 := by
  unfold subPorts
  split <;> decide

/-- Byte k of HD_PCIE_STATUS is sub-port k's. -/
theorem execPcieLinkChange_outcome {s : State} {h sub : Nat} {rate : BitVec 3} {w : BitVec 4} (hport : (s.hostDie h).portInReset = false)
    (hsub : sub < (subPorts (s.field .hdPcieCfg h 0 0 2)).1) (hw : w.toNat ≤ (subPorts (s.field .hdPcieCfg h 0 0 2)).2) (hrate : rate ≠ 7) (up : Bool) :
    ∃ t : State, execPcieLinkChange h sub up rate w s = .next t ∧
      t.field .hdPcieStatus h 0 (8 * sub) 8 = (if up then 128 else 0) + 16 * rate.toNat + w.toNat := by
  obtain ⟨hcount, htop⟩ := subPorts_le (s.field .hdPcieCfg h 0 0 2)
  have hlt : rate.toNat < 2 ^ 3 := rate.isLt
  refine ⟨_, congrArg Host.Outcome.next (if_neg ?_), State.field_setField_same (by omega) ?_ ..⟩
  · rw [hport]
    exact not_or.2 ⟨Bool.false_ne_true, not_or.2 ⟨Nat.not_le.2 hsub, not_or.2 ⟨Nat.not_lt.2 hw, hrate⟩⟩⟩
  · split <;> omega

/-! The probe -/

theorem execHostProbeMiss_of_few {s : State} {h : Nat} (hrun : s.coresRun = true) (hopen : (s.hostDie h).probeOpen = true)
    (hfew : (s.hostDie h).probeMisses < 2) : execHostProbeMiss h s =
      .next (s.modHost h (fun v => { v with probeOpen := false, probeMisses := (s.hostDie h).probeMisses + 1 })) :=
  congrArg Host.Outcome.next ((if_neg (by simp [hrun, hopen])).trans (if_pos (by omega)))

/-- The third probe in a row that no answer met fences the die. -/
theorem execHostProbeMiss_third {s : State} {h : Nat} (hrun : s.coresRun = true) (hopen : (s.hostDie h).probeOpen = true)
    (hthird : (s.hostDie h).probeMisses = 2) : ∃ t : State, execHostProbeMiss h s = .next t ∧ t.flag .hdStatus h 0 3 = true := by
  let u := s.modHost h (fun v => { v with probeOpen := false, probeMisses := (s.hostDie h).probeMisses + 1 })
  have hrec : Recorded (u.fenceHost h) ((u.fenceHost h).safetyAt (u.hostOwner h) 0 .hdStatus h 0 h) := Recorded.event7F ..
  refine ⟨_, congrArg Host.Outcome.next ((if_neg (by simp [hrun, hopen])).trans (if_neg (by omega))), ?_⟩
  rw [State.flag, hrec.reg .hdStatus _ _ rfl, State.reg_fenceHost u h (by decide)]
  exact State.flag_setFlag_self _ _ _ _ _ _ (by decide)

/-- Settles O35, command by command. -/
theorem hostDieCommands : Obligations.HostDieCommands := by
  refine fun s h => ⟨fun q f a v hfile hpart hsome hrun hfence hne hle => ?_, fun c hrun hc => ?_, fun v hup hlt hlo hhi => ?_,
    fun a n hn hport => execInboundPcieRequest_of_read hport a hn, fun hport => ?_, ⟨_, rfl, ?_, rfl, rfl⟩, fun hlt hcores hrun hfence => ?_,
    fun hcores hopen hfew => ⟨_, execHostProbeMiss_of_few hcores hopen hfew, ?_, ?_, rfl⟩, execHostProbeMiss_third,
    fun sub up rate w hport hsub hw hrate => execPcieLinkChange_outcome hport hsub hw hrate up⟩
  · exact ⟨_, congrArg Host.Outcome.next (State.sendMsi_of_served hfile hpart hsome hrun hfence ..),
      s.setPending_outcome h f (fun e => hne (BitVec.eq_of_toNat_eq e)) hle⟩
  · exact ⟨_, congrArg Host.Outcome.next (if_pos ⟨hrun, hc⟩), s.mem_timer h c, rfl, rfl⟩
  · exact ⟨_, congrArg Host.Outcome.next (if_pos ⟨hup, hlt, hlo, hhi⟩), by simp, rfl⟩
  · exact ⟨_, congrArg Host.Outcome.next (if_neg (by simp [hport])), State.reg_bump_one .., rfl⟩
  · simp
  · exact ⟨_, congrArg Host.Outcome.next (if_pos ⟨hcores, hlt, hrun, by simp [hfence]⟩), by simp⟩
  · simp
  · simp

end Sys2Proof.Machine
end

section
/-! SUPPORT. Messages of the Padrid Link (R358 to R363, R366, R376, R406): what a refusal, an answer and a timeout of a pool line come to, and the
end of the exchanges with a peer. -/

namespace Sys2Proof.Machine

/-! Answers -/

theorem State.outMsgs_pushMsg (s : State) (n : Nat) (m : LinkMsg) : ((s.pushMsg n m).quad n).outMsgs = (s.quad n).outMsgs ++ [m] := by
  rw [State.pushMsg, State.quad_modQuad, if_pos rfl]

/-- What the device cannot serve is answered with ERR: the message's own XID, SEQ and OP. -/
theorem State.cannotServe_outcome (s : State) (n : Nat) (m : LinkMsg) : ∃ k : LinkMsg, ((s.cannotServe n m).quad n).outMsgs = (s.quad n).outMsgs ++ [k] ∧
    k.op = 0x0B ∧ k.dst = m.src ∧ k.xid = m.xid ∧ k.seq = m.seq ∧ k.payload.headD 0 = m.op ∧ (s.cannotServe n m).mem = s.mem ∧
    (s.cannotServe n m).regs = s.regs :=
  ⟨_, State.outMsgs_pushMsg s.draw.2 .., rfl, rfl, rfl, rfl, rfl, rfl, rfl⟩

/-! Pool lines (R362) -/

theorem State.poolData_outcome (s : State) (p : Nat) (xid seq : BitVec 16) (d : List Byte) : (s.poolData p xid seq d).poolLines.length = s.poolLines.length ∧
    ∀ l ∈ (s.poolData p xid seq d).poolLines, l.part = p → l.xid = xid → l.seq = seq → l.isWrite = false → l.data = padTo 1024 d := by
  refine ⟨List.length_map .., fun l hl hp hx hq hw => ?_⟩
  obtain ⟨y, -, rfl⟩ := List.mem_map.1 hl
  by_cases hy : y.part = p ∧ y.xid = xid ∧ y.seq = seq ∧ y.isWrite = false
  · rw [if_pos hy]
  · rw [if_neg hy] at hp hx hq hw
    exact absurd ⟨hp, hx, hq, hw⟩ hy

theorem State.poolAck_outcome (s : State) (p : Nat) (xid seq : BitVec 16) :
    (∀ l ∈ (s.poolAck p xid seq).poolLines, ¬(l.part = p ∧ l.xid = xid ∧ l.seq = seq ∧ l.isWrite = true)) ∧
    ∀ l ∈ s.poolLines, ¬(l.part = p ∧ l.xid = xid ∧ l.seq = seq ∧ l.isWrite = true) → l ∈ (s.poolAck p xid seq).poolLines :=
  ⟨fun _ hl => of_decide_eq_true (List.mem_filter.1 hl).2, fun _ hl h => List.mem_filter.2 ⟨hl, decide_eq_true h⟩⟩

theorem State.poolLines_sendPool (s : State) (p a : Nat) (op : BitVec 8) (xid seq lines epoch : BitVec 16) (retry : Bool) (data : List Byte) :
    (s.sendPool p a op xid seq lines epoch retry data).poolLines = s.poolLines := by
  unfold State.sendPool
  split <;> rfl

section

variable {s : State} {x q : BitVec 16} {l : PoolLine}
  (hfind : s.poolLines.find? (fun l => decide (l.xid = x ∧ l.seq = q ∧ (l.isWrite = true ∨ l.data = []))) = some l)
include hfind

theorem State.poolTimeout_of_last (h : l.retried = true ∨ s.poolQuad l.part l.addr true = none) : s.poolTimeout x q = s.failPool l := by
  unfold State.poolTimeout
  rw [hfind]
  exact if_pos (h.imp_right Option.isNone_iff_eq_none.2)

/-- The second request of a line, under an XID of its own. -/
theorem State.poolTimeout_of_first (hretried : l.retried = false) (hquad : s.poolQuad l.part l.addr true ≠ none) :
    (s.poolTimeout x q).poolLines =
      s.poolLines.map (fun y => if y = l then { l with xid := (s.part l.part).nextXid, seq := 0, retried := true } else y) := by
  unfold State.poolTimeout
  rw [hfind]
  dsimp only
  rw [if_neg (not_or.2 ⟨by simp [hretried], fun h => hquad (Option.isNone_iff_eq_none.1 h)⟩), State.poolLines_sendPool]
  rfl

end

/-- Settles O42: the message pushed by a refusal, and the list of pool lines after each answer and after a timeout. -/
theorem poolMessages : Obligations.PoolMessages := by
  intro s n m
  obtain ⟨k, hk⟩ := s.cannotServe_outcome n m
  refine ⟨⟨_, k, rfl, hk⟩, ⟨_, k, rfl, hk⟩, fun p hserved => ⟨⟨_, congrArg Host.Outcome.next (State.notice_of_served hserved _), ?_⟩,
    ⟨_, congrArg Host.Outcome.next (State.notice_of_served hserved _), ?_⟩⟩, fun x q l hfind => ⟨fun h =>
    congrArg Host.Outcome.next (State.poolTimeout_of_last hfind h), fun hretried hquad => ⟨_, rfl, ?_⟩⟩⟩
  · obtain ⟨hlength, hdata⟩ := s.poolData_outcome p m.xid m.seq m.payload
    exact ⟨hlength, hdata, rfl⟩
  · exact ⟨rfl, s.poolAck_outcome p m.xid m.seq⟩
  · rw [State.poolTimeout_of_first hfind hretried hquad]
    exact ⟨List.length_map .., List.mem_map.2 ⟨l, List.mem_of_find?_eq_some hfind, if_pos rfl⟩⟩

/-! The end of exchanges (R366) -/

/-- The end of the exchanges with a peer leaves aside what its fence leaves. -/
theorem Aside.endExchanges (s : State) (m : BitVec 13) : (s.endExchanges m).aside = (s.fencePeer m).aside := by
  refine Aside.foldl (fun t p => ?_) _ (s.fencePeer m)
  dsimp only
  exact (Aside.foldl (fun t a => Aside.dropArrival t p a) _ _).trans (Aside.foldl (fun t (x : Migration) => Aside.failMigration t p x.handle .peerFenced) _ t)

theorem State.mem_fencePeer (s : State) (m : BitVec 13) : m ∈ (s.fencePeer m).fencedModules := by
  have h : (s.fencePeer m).fencedModules = if m ∈ s.fencedModules then s.fencedModules else s.fencedModules ++ [m] :=
    congrArg Aside.fencedModules (Aside.fencePeer s m)
  rw [h]
  split
  next hm => exact hm
  next => exact List.mem_append_right _ (List.mem_singleton.2 rfl)

/-- A peer whose exchanges have ended is fenced, and none is open with it. -/
theorem State.endExchanges_outcome (s : State) (m : BitVec 13) : m ∈ (s.endExchanges m).fencedModules ∧
    (s.endExchanges m).exchanges.all (fun x => decide (x.1 ≠ m)) = true := by
  refine ⟨(Aside.fenced (Aside.endExchanges s m)) ▸ s.mem_fencePeer m, List.all_eq_true.2 fun x hx => ?_⟩
  exact (List.mem_filter.1 hx).2

section

variable {s : State} {n p : Nat} (hserved : s.servedPart n = some p) (m : LinkMsg)
include hserved

theorem State.sendMsg_of_none (h : dieAt m.addr.toNat = none) :
    s.sendMsg n m = s.refuseMsg n m (if inWindow m.addr.toNat then .notPermitted else .badArgument) := by
  rw [State.sendMsg, State.request_of_served hserved, h]

theorem State.sackMsg_of_flight {i : Nat}
    (h : (s.partSites p).find? (fun i => (s.die i).flights.any (fun f => decide (f.sendXid = some m.xid))) = some i) :
    s.sackMsg n m = s.sackFor i m.xid (BitVec.ofNat 64 (s.dieCycle p i)) := by
  rw [State.sackMsg, State.notice_of_served hserved, h]

theorem State.errMsg_of_send {st : Status} {i : Nat} (hop : m.payload.headD 0 = 0x05) (hst : Status.ofCode m.status.toNat = some st)
    (hi : i ∈ s.partSites p) (hf : (s.die i).flights.any (fun f => decide (f.sendXid = some m.xid)) = true) : s.errMsg n m = s.busMove p st := by
  rw [State.errMsg, State.notice_of_served hserved, hop, hst]
  exact if_pos (List.any_eq_true.2 ⟨i, hi, hf⟩)

theorem State.errMsg_of_migration {st : Status} {x : Migration} (hop : m.payload.headD 0 = 0x09) (hst : Status.ofCode m.status.toNat = some st)
    (hx : s.migrationOf p m = some x) : s.errMsg n m = s.failMigration p x.handle st := by
  rw [State.errMsg, State.notice_of_served hserved, hop, hst]
  simp [hx]

theorem State.e2eArrives_of_alive (h : bitAt (m.payload.getD 4 0) 1 = false) :
    s.e2eArrives n m = { s with e2eMisses := Sparse.ndrop s.e2eMisses m.src.toNat } := by
  rw [State.e2eArrives, State.notice_of_served hserved]
  exact if_neg (by rw [h]; decide)

theorem State.e2eArrives_of_lost (h : bitAt (m.payload.getD 4 0) 1 = true) : m.src ∈ (s.e2eArrives n m).fencedModules := by
  rw [State.e2eArrives, State.notice_of_served hserved]
  simp only [h, if_true]
  split
  next hm => exact hm
  next => exact Aside.fenced (Aside.safetyAt (s.endExchanges m.src) ..) ▸ (s.endExchanges_outcome m.src).1

theorem State.commandMsg_of_headless (found : TestFindings) (hhead : s.flag .ptRegions p 0 16 = true) (hrole : s.quadRole n = roleFabric) :
    s.commandMsg n m found = s.mailCommand (.mgmt p n m.src m.xid) ((m.payload.drop 16).take 64) found := by
  rw [State.commandMsg, State.request_of_served hserved]
  exact if_pos ⟨hhead, hrole⟩

end

/-- Settles O43, message by message. -/
theorem moduleMessages : Obligations.ModuleMessages := by
  refine ⟨fun s n m p hserved => ⟨fun h => congrArg Host.Outcome.next (State.sendMsg_of_none hserved m h), fun i h => congrArg Host.Outcome.next ?_,
    fun i h => congrArg Host.Outcome.next (State.sackMsg_of_flight hserved m h),
    fun st i hop hst hi hf => congrArg Host.Outcome.next (State.errMsg_of_send hserved m hop hst hi hf),
    fun st x hop hst hx => congrArg Host.Outcome.next (State.errMsg_of_migration hserved m hop hst hx),
    fun h => ⟨_, congrArg Host.Outcome.next (State.e2eArrives_of_alive hserved m h), nfind_ndrop_same .., rfl⟩,
    fun h => ⟨_, rfl, State.e2eArrives_of_lost hserved m h⟩⟩, fun s n m f => ⟨fun p hserved hhead hrole =>
    congrArg Host.Outcome.next (State.commandMsg_of_headless hserved m f hhead hrole), fun hserved => ?_, rfl⟩⟩
  · rw [State.sendMsg, State.request_of_served hserved, h]
  · have h : s.commandMsg n m f = s.refuseMsg n m .busy := by rw [State.commandMsg, State.request, hserved]
    exact ⟨_, congrArg Host.Outcome.next h, rfl, rfl, rfl⟩

end Sys2Proof.Machine
end

section
/-! SUPPORT. The states of a quad (R354, R365, R370 to R374): what a loss, an attempt to train, a HELLO and a vacancy leave of its status. -/

namespace Sys2Proof.Machine

/-! The status of a quad -/

theorem State.quadState_of_reg {s t : State} {n : Nat} (h : t.reg .olQstatus n = s.reg .olQstatus n) : t.quadState n = s.quadState n :=
  congrArg (fun v : Word => bitsAt v 12 4) h

theorem State.quadIsUp_of_reg {s t : State} {n : Nat} (h : t.reg .olQstatus n = s.reg .olQstatus n) : t.quadIsUp n = s.quadIsUp n :=
  congrArg (fun v : Word => decide (bitsAt v 12 4 = quadUp)) h

/-- The states lie above the flags of OL_QSTATUS. -/
theorem State.quadState_setFlag {b : Nat} (hb : b < 12) (s : State) (m j n : Nat) (x : Bool) :
    (s.setFlag .olQstatus m j b x).quadState n = s.quadState n := by
  rw [State.quadState, State.field, State.reg_setFlag]
  split
  next e =>
    obtain ⟨-, rfl, rfl⟩ := e
    exact bitsAt_putBits_ne _ _ _ _ _ _ (by decide) (.inr (by omega))
  next => rfl

theorem State.quadState_setState {x : Nat} (hx : x < 2 ^ 4) (s : State) (n : Nat) : (s.setField .olQstatus n 0 12 4 x).quadState n = x :=
  State.field_setField_same (by decide) hx ..

/-! Training (R370) -/

theorem State.reg_startTraining (s : State) (n : Nat) {m : RegName} (hm : m ≠ .olAttempts) (i j : Nat) :
    (s.startTraining n).reg m i j = (s.setField .olQstatus n 0 12 4 quadTraining).reg m i j := by
  rw [State.startTraining, State.reg_of_regs (State.modQuad_regs ..), State.reg_bump, if_neg fun e => hm e.1.symm]

theorem State.quadState_startTraining (s : State) (n : Nat) : (s.startTraining n).quadState n = quadTraining :=
  (State.quadState_of_reg (s.reg_startTraining n (by decide) n 0)).trans (State.quadState_setState (by decide) s n)

theorem State.quad_startTraining (s : State) (n m : Nat) : (s.startTraining n).quad m =
    if n = m then { s.quad n with locked := false, hellos := 0, lastHelloStamp := 0, lastHelloArrival := 0 } else s.quad m := by
  rw [State.startTraining, State.quad_modQuad]
  rfl

/-! A loss (R372) -/

/-- A quad that has left UP: it trains, with nothing to replay and nothing held for reassembly. -/
def State.lost (s : State) (n : Nat) : Prop :=
  s.quadState n = quadTraining ∧ (s.quad n).replay = [] ∧ (s.quad n).reassembly = [] ∧ (s.quad n).fromDown = true

theorem State.lost_of_stands {s t : State} {n : Nat} (hreg : t.reg .olQstatus n = s.reg .olQstatus n) (hquad : (t.quad n).unsent = (s.quad n).unsent)
    (h : s.lost n) : t.lost n := by
  obtain ⟨hstate, hreplay, hreassembly, hdown⟩ := h
  exact ⟨(State.quadState_of_reg hreg).trans hstate, (congrArg Quad.replay hquad :).trans hreplay, (congrArg Quad.reassembly hquad :).trans hreassembly,
    (congrArg Quad.fromDown hquad :).trans hdown⟩

/-- The retrains that waited have reached the hardware. -/
def State.reachRetrains (s : State) (n : Nat) : State := (s.quad n).retrainCmds.foldl (fun s c => s.markReached c 0x0601) s

theorem State.reg_reachRetrains (s : State) (n : Nat) (m : RegName) (i j : Nat) : (s.reachRetrains n).reg m i j = s.reg m i j :=
  State.reg_foldl (by exact fun _ _ => rfl) _ s

theorem State.quads_reachRetrains (s : State) (n : Nat) : (s.reachRetrains n).quads = s.quads := State.view_foldl State.quads (by exact fun _ _ => rfl) _ s

theorem State.leaveUp_eq (s : State) (n : Nat) :
    s.leaveUp n = ((s.reachRetrains n).modQuad n (fun v => { v with replay := [], reassembly := [], fromDown := true })).startTraining n := rfl

theorem State.reg_leaveUp (s : State) (n : Nat) {m : RegName} (hm : m ≠ .olAttempts) (i j : Nat) :
    (s.leaveUp n).reg m i j = (s.setField .olQstatus n 0 12 4 quadTraining).reg m i j := by
  rw [State.leaveUp_eq, State.reg_startTraining _ _ hm, State.reg_setField, State.reg_setField]
  have hreg (m : RegName) (i j : Nat) :
      ((s.reachRetrains n).modQuad n (fun v => { v with replay := [], reassembly := [], fromDown := true })).reg m i j = s.reg m i j :=
    s.reg_reachRetrains n m i j
  rw [hreg, hreg]

theorem State.lost_leaveUp (s : State) (n : Nat) : (s.leaveUp n).lost n := by
  rw [State.leaveUp_eq]
  generalize s.reachRetrains n = u
  refine ⟨State.quadState_startTraining .., ?_⟩
  rw [State.quad_startTraining, if_pos rfl, State.quad_modQuad, if_pos rfl]
  exact ⟨rfl, rfl, rfl⟩

theorem State.quad_leaveUp_ne {n m : Nat} (h : n ≠ m) (s : State) : (s.leaveUp n).quad m = s.quad m := by
  rw [State.leaveUp_eq, State.quad_startTraining, if_neg h, State.quad_modQuad, if_neg h]
  exact congrArg (Sparse.nget {} · m) (s.quads_reachRetrains n)

theorem State.quadDown_of_up {s : State} {n : Nat} (h : s.quadIsUp n = true) :
    s.quadDown n = ((s.setField .olQstatus n 0 12 4 quadDownState).spanQuadLost n).leaveUp n := if_neg (by simp [h])

theorem State.lost_quadDown {s : State} {n : Nat} (h : s.quadIsUp n = true) : (s.quadDown n).lost n := by
  rw [State.quadDown_of_up h]
  exact State.lost_leaveUp ..

/-- The status of a quad that leaves UP, beside its state. -/
theorem State.flag_quadDown {b : Nat} (hb : b < 12) (s : State) (n : Nat) : (s.quadDown n).flag .olQstatus n 0 b = s.flag .olQstatus n 0 b := by
  unfold State.quadDown
  split
  · rfl
  · rw [State.flag, State.reg_leaveUp _ _ (by decide), ← State.flag, State.flag_setField_ne (by omega) (.inl hb), State.flag,
      Aside.reg (Aside.spanQuadLost ..) (by decide), ← State.flag, State.flag_setField_ne (by omega) (.inl hb)]

theorem State.laser_quadDown (s : State) (n i : Nat) : (s.quadDown n).reg .olLaser i = s.reg .olLaser i := by
  unfold State.quadDown
  split
  · rfl
  · rw [State.reg_leaveUp _ _ (by decide), State.reg_setField, if_neg (by simp), Aside.reg (Aside.spanQuadLost ..) (by decide), State.reg_setField,
      if_neg (by simp)]

/-- The loss of a quad leaves the others. -/
theorem State.quadDown_ne {n m : Nat} (h : n ≠ m) (s : State) : (s.quadDown n).reg .olQstatus m = s.reg .olQstatus m ∧
    ((s.quadDown n).quad m).unsent = (s.quad m).unsent := by
  unfold State.quadDown
  split
  · exact ⟨rfl, rfl⟩
  · extract_lets u
    have hspan : (u.spanQuadLost n).aside = u.aside := Aside.spanQuadLost ..
    refine ⟨?_, ?_⟩
    · rw [State.reg_leaveUp _ _ (by decide), State.reg_setField, if_neg (by simp [h]), Aside.reg hspan (by decide), State.reg_setField,
        if_neg (by simp [h])]
    · rw [State.quad_leaveUp_ne h]
      exact Aside.quad hspan m

/-! The laser inputs (Table 13.1) -/

theorem State.setLaser_eq (s : State) (n : Nat) (low : Bool) : s.setLaser n low =
    ((s.setFlag .olLaser (n / 4) 0 (n % 4 / 2) low).setFlag .olQstatus (n / 2 * 2) 0 1 low).setFlag .olQstatus (n / 2 * 2 + 1) 0 1 low := rfl

theorem State.quadState_setLaser (s : State) (n : Nat) (low : Bool) (m : Nat) : (s.setLaser n low).quadState m = s.quadState m := by
  rw [State.setLaser_eq, State.quadState_setFlag (by decide), State.quadState_setFlag (by decide)]
  exact State.quadState_of_reg ((State.reg_setFlag ..).trans (if_neg (by simp)))

theorem State.laserLow_setLaser (s : State) (n : Nat) (low : Bool) : (s.setLaser n low).laserLow n = low := by
  have hlaser : (s.setLaser n low).reg .olLaser (n / 4) = (s.setFlag .olLaser (n / 4) 0 (n % 4 / 2) low).reg .olLaser (n / 4) := by
    rw [State.setLaser_eq, State.reg_setFlag, if_neg (by simp), State.reg_setFlag, if_neg (by simp)]
  rw [State.laserLow, State.flag, hlaser]
  exact State.flag_setFlag_self _ _ _ _ _ _ (by omega)

/-- Both quads of an input show that it is low. -/
theorem State.flag_setLaser (s : State) (n : Nat) (low : Bool) : (s.setLaser n low).flag .olQstatus n 0 1 = low := by
  rw [State.setLaser_eq]
  generalize s.setFlag .olLaser (n / 4) 0 (n % 4 / 2) low = u
  rcases (by omega : n = n / 2 * 2 ∨ n = n / 2 * 2 + 1) with h | h
  · rw [State.flag, State.reg_setFlag, if_neg (by omega), ← State.flag, ← h, State.flag_setFlag_self _ _ _ _ _ _ (by decide)]
  · rw [← h, State.flag_setFlag_self _ _ _ _ _ _ (by decide)]

/-- A lost laser input takes both of its quads down. -/
theorem State.laserLost_outcome {s : State} {n : Nat} (h : s.quadIsUp n = true) :
    (((s.setLaser n true).quadDown (n / 2 * 2)).quadDown (n / 2 * 2 + 1)).lost n ∧
      (((s.setLaser n true).quadDown (n / 2 * 2)).quadDown (n / 2 * 2 + 1)).laserLow n = true := by
  have hup : (s.setLaser n true).quadIsUp n = true := by rw [State.quadIsUp, State.quadState_setLaser, ← State.quadIsUp, h]
  have hlow := s.laserLow_setLaser n true
  generalize s.setLaser n true = u at hup hlow ⊢
  refine ⟨?_, ?_⟩
  · rcases (by omega : n = n / 2 * 2 ∨ n = n / 2 * 2 + 1) with e | e
    · obtain ⟨hreg, hquad⟩ := State.quadDown_ne (n := n / 2 * 2 + 1) (m := n) (by omega) (u.quadDown (n / 2 * 2))
      rw [← e] at hreg hquad ⊢
      exact State.lost_of_stands hreg hquad (State.lost_quadDown hup)
    · obtain ⟨hreg, -⟩ := State.quadDown_ne (n := n / 2 * 2) (m := n) (by omega) u
      rw [← e]
      exact State.lost_quadDown ((State.quadIsUp_of_reg hreg).trans hup)
  · rw [State.laserLow, State.flag, State.laser_quadDown, State.laser_quadDown]
    exact hlow

theorem execQuadDown_outcome {s : State} {n : Nat} (hn : n < 224) (h : s.quadIsUp n = true) :
    (∃ t : State, execQuadDown n .signal s = .next t ∧ t.lost n ∧ t.flag .olQstatus n 0 2 = true) ∧
    (∃ t : State, execQuadDown n .laser s = .next t ∧ t.lost n ∧ t.laserLow n = true) ∧
    (∃ t : State, execQuadDown n .replays s = .next t ∧ t.lost n) ∧
    (∃ t : State, execQuadDown n .knocks s = .next t ∧ t.lost n) := by
  have hlt : ¬224 ≤ n := Nat.not_le.2 hn
  refine ⟨⟨_, congrArg Host.Outcome.next (if_neg hlt), State.lost_quadDown ?_, ?_⟩, ⟨_, congrArg Host.Outcome.next (if_neg hlt), State.laserLost_outcome h⟩,
    ⟨_, congrArg Host.Outcome.next ((if_neg hlt).trans (if_pos h)), State.lost_quadDown ?_⟩, ⟨_, congrArg Host.Outcome.next (if_neg hlt), State.lost_quadDown h⟩⟩
  · rw [State.quadIsUp, State.quadState_setFlag (by decide), ← State.quadIsUp, h]
  · rw [State.flag_quadDown (by decide), State.flag_setFlag_self _ _ _ _ _ _ (by decide)]
  · rw [State.quadIsUp_of_reg (Recorded.reg (Recorded.event7F ..) .olQstatus n 0 rfl), h]

/-! Up, and vacant (R370, R372) -/

theorem State.reg_answerRetrains {m : RegName} (hm : m ∈ asideRegs) (s : State) (n : Nat) (st : Status) (i j : Nat) :
    (s.answerRetrains n st).reg m i j = s.reg m i j :=
  Aside.reg (s := s.modQuad n (fun v => { v with retrainCmds := [], maintWanted := false })) (Aside.foldl (fun t c => Aside.complete t c ..) _ _) hm i j

theorem State.reg_countQuads (s : State) {m : RegName} (hm : m ≠ .olCapacity) (hv : m ≠ .olVacant) (i j : Nat) : s.countQuads.reg m i j = s.reg m i j := by
  unfold State.countQuads
  extract_lets count u
  refine (State.reg_foldl (fun t k => (State.reg_setReg ..).trans (if_neg fun e => hv e.1.symm)) _ u).trans ?_
  exact (State.reg_setReg ..).trans (if_neg fun e => hm e.1.symm)

theorem State.quadIsUp_bringUp (s : State) (n : Nat) : (s.bringUp n).quadIsUp n = true := by
  unfold State.bringUp
  extract_lets u v w
  have hv : v.quadState n = quadUp := (State.field_setField_ne (by decide) (by decide) ..).trans (State.quadState_setState (by decide) u n)
  have hw : w.reg .olQstatus n = v.reg .olQstatus n := rfl
  clear_value v w
  rw [State.quadIsUp_of_reg (State.reg_answerRetrains (by decide) ..), State.quadIsUp_of_reg (State.reg_countQuads w (by decide) (by decide) n 0),
    State.quadIsUp_of_reg hw, State.quadIsUp, hv]
  rfl

/-- Registers written one after another, each from what the writing leaves. -/
theorem State.reg_foldl_setReg {r : RegName} {f : State → Nat → Word} (hf : ∀ s a v k, f (s.setReg r 0 a v) k = f s k) (l : List Nat) (s : State) (k : Nat) :
    (l.foldl (fun s a => s.setReg r 0 a (f s a)) s).reg r 0 k = if k ∈ l then f s k else s.reg r 0 k := by
  induction l generalizing s with
  | nil => rfl
  | cons a l ih =>
    rw [List.foldl_cons, ih, hf, State.reg_setReg]
    by_cases hk : k ∈ l
    · simp [hk]
    · by_cases ha : a = k
      · subst ha
        simp
      · simp [hk, ha, Ne.symm ha]

theorem getLsbD_maskOf (w : Nat) (l : List Nat) (k : Nat) : (maskOf w l).getLsbD k = decide (k < w ∧ k ∈ l) := by
  have hfold (l : List Nat) (m : BitVec w) :
      (l.foldl (fun m k => m ||| BitVec.ofNat w (2 ^ k)) m).getLsbD k = (m.getLsbD k || decide (k < w ∧ k ∈ l)) := by
    induction l generalizing m with
    | nil => simp
    | cons a l ih =>
      rw [List.foldl_cons, ih, BitVec.getLsbD_or, BitVec.getLsbD_ofNat, Nat.testBit_two_pow, Bool.or_assoc]
      congr 1
      simp only [List.mem_cons, and_or_left, Bool.decide_or, Bool.decide_and, eq_comm]
  rw [maskOf, hfold]
  simp

/-- Every vacant quad shows in OL_VACANT. -/
theorem State.flag_countQuads {n : Nat} (hn : n < 224) (s : State) (h : s.quadState n = quadVacant) :
    s.countQuads.flag .olVacant 0 (n / 64) (n % 64) = true := by
  unfold State.countQuads
  extract_lets count u
  have hu : u.quadState n = quadVacant := (State.quadState_of_reg ((State.reg_setReg ..).trans (if_neg (by simp)))).trans h
  clear_value u
  have hreg (t : State) (a : Nat) (v : Word) (q : Nat) : (t.setReg .olVacant 0 a v).quadState q = t.quadState q :=
    State.quadState_of_reg ((State.reg_setReg ..).trans (if_neg (by simp)))
  rw [State.flag, State.reg_foldl_setReg (f := fun t k =>
    maskOf 64 ((List.range 64).filter (fun j => decide (64 * k + j < 224 ∧ t.quadState (64 * k + j) = quadVacant)))) (fun t a v k => by simp only [hreg]),
    if_pos (List.mem_range.2 (by omega)), bitAt, getLsbD_maskOf]
  have hsplit : 64 * (n / 64) + n % 64 = n := Nat.div_add_mod n 64
  refine decide_eq_true ⟨by omega, List.mem_filter.2 ⟨List.mem_range.2 (by omega), decide_eq_true ?_⟩⟩
  rw [hsplit]
  exact ⟨hn, hu⟩

theorem State.vacateQuad_outcome {n : Nat} (hn : n < 224) (s : State) (sev : Severity) : (s.vacateQuad n sev).quadState n = quadVacant ∧
    (s.vacateQuad n sev).flag .olVacant 0 (n / 64) (n % 64) = true := by
  unfold State.vacateQuad
  extract_lets u
  have hstate : ((s.setField .olQstatus n 0 12 4 quadVacant).modQuad n (fun v => { v with fromDown := false })).quadState n = quadVacant :=
    (State.quadState_of_reg rfl).trans (State.quadState_setState (by decide) s n)
  have hcount : u.quadState n = quadVacant := (State.quadState_of_reg (State.reg_countQuads _ (by decide) (by decide) n 0)).trans hstate
  have hflag : u.flag .olVacant 0 (n / 64) (n % 64) = true := State.flag_countQuads hn _ hstate
  have hrec : Recorded u (u.event7F sev (u.owner (engineSquare (quadEngine n))) (engineSquare (quadEngine n)) .olQstatus n) := Recorded.event7F ..
  exact ⟨(State.quadState_of_reg (hrec.reg .olQstatus n 0 rfl)).trans hcount,
    (congrArg (bitAt · (n % 64)) (hrec.reg .olVacant 0 (n / 64) rfl)).trans hflag⟩

/-! Attempts (R372) -/

/-- An attempt that fails before the third in a row is followed by another. -/
theorem State.failAttempt_again {s : State} {n : Nat} (hfew : s.field .olQstatus n 0 32 2 < 2) : (s.failAttempt n).quadState n = quadTraining ∧
    (s.failAttempt n).field .olQstatus n 0 32 2 = s.field .olQstatus n 0 32 2 + 1 ∧
    (s.failAttempt n).reg .olAttempts n = (s.reg .olAttempts n + 1) &&& RegName.olAttempts.info.defined := by
  have hcount : min 3 (s.field .olQstatus n 0 32 2 + 1) = s.field .olQstatus n 0 32 2 + 1 := by omega
  unfold State.failAttempt
  rw [hcount]
  dsimp only
  rw [if_neg (by omega)]
  refine ⟨State.quadState_startTraining .., ?_, ?_⟩
  · rw [State.field, State.reg_startTraining _ _ (by decide), ← State.field, State.field_setField_ne (by decide) (by decide),
      State.field_setField_same (by decide) (by omega)]
  · rw [State.startTraining, State.reg_of_regs (State.modQuad_regs ..), State.reg_bump_one, State.reg_setField, if_neg (by simp), State.reg_setField,
      if_neg (by simp)]

theorem State.failAttempt_third {s : State} {n : Nat} (hn : n < 224) (hthird : 2 ≤ s.field .olQstatus n 0 32 2) :
    (s.failAttempt n).quadState n = quadVacant ∧ (s.failAttempt n).flag .olVacant 0 (n / 64) (n % 64) = true := by
  have hcount : min 3 (s.field .olQstatus n 0 32 2 + 1) = 3 := by omega
  unfold State.failAttempt
  rw [hcount]
  dsimp only
  rw [if_pos rfl]
  obtain ⟨hstate, hflag⟩ := State.vacateQuad_outcome hn (s.setField .olQstatus n 0 32 2 3) .warning
  exact ⟨(State.quadState_of_reg (State.reg_answerRetrains (by decide) ..)).trans hstate,
    (congrArg (bitAt · (n % 64)) (State.reg_answerRetrains (by decide) ..)).trans hflag⟩

/-! Lock and HELLO (R370, R371) -/

theorem execLaneLock_outcome {s : State} {n : Nat} (h : s.quadState n = quadTraining) : ∃ t : State, execLaneLock n s = .next t ∧
    (t.quad n).locked = true ∧ t.flag .olQstatus n 0 1 = false ∧ t.flag .olQstatus n 0 2 = false ∧ t.quadState n = quadTraining := by
  refine ⟨_, congrArg Host.Outcome.next (if_pos h), ?_, ?_, ?_, ?_⟩
  · rw [State.quad_modQuad, if_pos rfl]
  · rw [State.flag_of_regs (State.modQuad_regs ..), State.flag_setFlag _ _ _ _ _ _ _ (by decide), if_neg (by decide), State.flag_setLaser]
  · rw [State.flag_of_regs (State.modQuad_regs ..), State.flag_setFlag_self _ _ _ _ _ _ (by decide)]
  · rw [State.quadState_of_reg (State.reg_of_regs (State.modQuad_regs ..) ..), State.quadState_setFlag (by decide), State.quadState_setLaser, h]

/-- OL_RTT lies beside the status of a quad. -/
theorem State.measureRtt_outcome (s : State) (n m : Nat) (c : Prop) [Decidable c] (x : Word) :
    (if c then s else s.setReg .olRtt n 0 x).reg .olQstatus m = s.reg .olQstatus m ∧ (if c then s else s.setReg .olRtt n 0 x).quads = s.quads := by
  split
  · exact ⟨rfl, rfl⟩
  · exact ⟨(State.reg_setReg ..).trans (if_neg (by simp)), rfl⟩

/-- A valid HELLO counts, and names the partner. -/
theorem State.takeHello_outcome (s : State) (n : Nat) (f : Flit) (w : Word) :
    ((s.takeHello n f w).quad n).hellos = (s.quad n).hellos + 1 ∧ (s.takeHello n f w).partnerOf n = f.srcId := by
  unfold State.takeHello
  extract_lets d echo hold u v
  have hu : u.field .olQstatus n 0 51 13 = f.srcId.toNat := by
    refine (State.field_setField_ne (by decide) (by decide) ..).trans ((State.field_setField_ne (by decide) (by decide) ..).trans ?_)
    exact State.field_setField_same (by decide) f.srcId.isLt ..
  obtain ⟨hreg, hv⟩ : v.reg .olQstatus n = u.reg .olQstatus n ∧ v.quads = u.quads := State.measureRtt_outcome ..
  have hquads : v.quad n = s.quad n := congrArg (fun l : List (Nat × Quad) => Sparse.nget ({} : Quad) l n) (hv.trans rfl)
  clear_value u v
  refine ⟨?_, ?_⟩
  · rw [State.quad_modQuad, if_pos rfl, hquads]
  · rw [State.partnerOf, State.field, State.reg_of_regs (State.modQuad_regs ..), hreg, ← State.field, hu]
    exact (BitVec.ofNat_toNat ..).trans (BitVec.setWidth_eq _)

theorem execHello_eq {s : State} {n : Nat} {f : Flit} (hstate : s.quadState n = quadTraining) (hlocked : (s.quad n).locked = true)
    (hgood : flitGood f = true) (hkind : bytesAt f.payload 0 1 = 1) (w : Word) : execHello n f w s = .next
      (if 2 ≤ ((s.takeHello n f w).quad n).hellos ∧ (s.takeHello n f w).partnerFits n = true then (s.takeHello n f w).bringUp n else s.takeHello n f w) :=
  congrArg Host.Outcome.next ((if_neg (by simp [hstate, hlocked])).trans ((if_neg (by simp [hgood])).trans (if_neg (not_not.2 hkind))))

theorem execBackgroundAttempt_outcome {s : State} {n : Nat} (hstate : s.quadState n = quadVacant) (hmay : s.mayTrain n = true) :
    ∃ t : State, execBackgroundAttempt n s = .next t ∧ t.quadState n = quadTraining ∧ (t.quad n).locked = false ∧ (t.quad n).hellos = 0 := by
  refine ⟨_, congrArg Host.Outcome.next (if_pos ⟨hstate, hmay⟩), State.quadState_startTraining .., ?_⟩
  rw [State.quad_startTraining, if_pos rfl]
  exact ⟨rfl, rfl⟩

/-- Settles O39, row by row of Table 13.6. -/
theorem quadStates : Obligations.QuadStates := by
  refine ⟨fun s n hn h => execQuadDown_outcome hn h, fun s n hn => ⟨execLaneLock_outcome, fun hstate hlocked hfew =>
    congrArg Host.Outcome.next (if_pos ⟨hstate, hlocked, hfew⟩), fun f w hstate hlocked hgood hkind => ⟨fun hfew => ⟨?_, s.takeHello_outcome n f w⟩,
    fun hmany hfits => ⟨?_, State.quadIsUp_bringUp ..⟩⟩, fun hstate hfew => ⟨_, congrArg Host.Outcome.next (if_pos hstate), State.failAttempt_again hfew⟩,
    fun hstate hthird => ⟨_, congrArg Host.Outcome.next (if_pos hstate), State.failAttempt_third hn hthird⟩, execBackgroundAttempt_outcome,
    fun c hc => congrArg Host.Outcome.next (if_neg fun h => by omega), fun c hc hup => congrArg Host.Outcome.next (if_pos ⟨hc, ?_⟩)⟩⟩
  · exact (execHello_eq hstate hlocked hgood hkind w).trans (congrArg Host.Outcome.next (if_neg fun h => by omega))
  · exact (execHello_eq hstate hlocked hgood hkind w).trans (congrArg Host.Outcome.next (if_pos ⟨hmany, hfits⟩))
  · rw [State.quadIsUp_of_reg ((State.reg_bump ..).trans (if_neg (by simp))), hup]

end Sys2Proof.Machine
end

section
/-! SUPPORT. Flits (R352 to R357): what a quad that sends what waits may move, and what an answer, a refusal and a replay leave of it. -/

namespace Sys2Proof.Machine

/-! Sending what waits -/

/-- A quad without what sending moves. -/
def Quad.unmoved (v : Quad) : Quad :=
  { v with outMsgs := [], circMsgs := [], outFlits := [], replay := [], nextSeq := 0, credits := [], requestNext := false }

/-- From s to t quad n has sent some of what waited: flits have gone out behind the others, and its receiver, the clock and the peers stand. -/
structure Drained (n : Nat) (s t : State) : Prop where
  flits : ∃ l, (t.quad n).outFlits = (s.quad n).outFlits ++ l
  quad : (t.quad n).unmoved = (s.quad n).unmoved
  fenced : t.fencedModules = s.fencedModules
  clock : t.clock = s.clock

theorem Drained.refl (n : Nat) (s : State) : Drained n s s := ⟨⟨[], (List.append_nil _).symm⟩, rfl, rfl, rfl⟩

theorem Drained.trans {n : Nat} {s t u : State} (h : Drained n s t) (k : Drained n t u) : Drained n s u := by
  obtain ⟨⟨l, hl⟩, hquad, hfenced, hclock⟩ := h
  obtain ⟨⟨l', hl'⟩, hquad', hfenced', hclock'⟩ := k
  exact ⟨⟨l ++ l', by rw [hl', hl, List.append_assoc]⟩, hquad'.trans hquad, hfenced'.trans hfenced, hclock'.trans hclock⟩

/-- What a drain leaves of the knocks on a quad. -/
theorem Drained.knocks {n : Nat} {s t : State} (h : Drained n s t) : (t.quad n).knockCount = (s.quad n).knockCount ∧
    (t.quad n).windowOpen = (s.quad n).windowOpen ∧ (t.quad n).misses = (s.quad n).misses ∧ (t.quad n).peerLost = (s.quad n).peerLost :=
  ⟨(congrArg Quad.knockCount h.quad :), (congrArg Quad.windowOpen h.quad :), (congrArg Quad.misses h.quad :), (congrArg Quad.peerLost h.quad :)⟩

theorem Drained.sendMessage (s : State) (n : Nat) (m : LinkMsg) : Drained n s (s.sendMessage n m) := by
  unfold State.sendMessage
  extract_lets fs c
  generalize hu : State.modQuad s n _ = u
  have hquad : (u.bump .olTxFlits n 0 fs.length).quad n = u.quad n := rfl
  refine ⟨⟨fs, ?_⟩, ?_, ?_, ?_⟩
  · rw [hquad, ← hu, State.quad_modQuad, if_pos rfl]
  · rw [hquad, ← hu, State.quad_modQuad, if_pos rfl]
    rfl
  · exact (State.bump_fencedModules ..).trans (by rw [← hu, State.modQuad_fencedModules])
  · exact (State.bump_clock ..).trans (by rw [← hu, State.modQuad_clock])

theorem Drained.transmit (n k : Nat) (s : State) : Drained n s (s.transmit n k) := by
  induction k generalizing s with
  | zero => exact refl n s
  | succ k ih =>
    unfold State.transmit
    split
    · exact refl n s
    · split
      · exact (sendMessage ..).trans (ih _)
      · exact refl n s

theorem Drained.drainQuad (s : State) (n : Nat) : Drained n s (s.drainQuad n) := transmit ..

/-! Asking for a replay (R353) -/

theorem State.controlFlit_congr {s t : State} {n : Nat} (hquad : t.quad n = s.quad n) (hid : t.reg .olModuleId = s.reg .olModuleId) (k : FlitType)
    (payload : List Byte) : t.controlFlit n k payload = s.controlFlit n k payload := by
  rw [State.controlFlit, State.controlFlit, hquad, State.moduleId, State.moduleId, State.field, State.field, hid]

theorem State.askReplay_of_first {s : State} {n : Nat} (h : (s.quad n).retrySent = false) : s.askReplay n =
    ((s.sendFlit n (s.controlFlit n .retryReq [])).modQuad n (fun v => { v with retrySent := true })).bump .olReplays n := if_neg (by simp [h])

theorem State.quad_sendFlit (s : State) (n : Nat) (f : Flit) : (s.sendFlit n f).quad n = { s.quad n with outFlits := (s.quad n).outFlits ++ [f] } := by
  rw [State.sendFlit, State.quad_modQuad, if_pos rfl]

/-- A replay is asked for once. -/
theorem State.quad_askReplay_of_first {s : State} {n : Nat} (h : (s.quad n).retrySent = false) : (s.askReplay n).quad n =
    { s.quad n with outFlits := (s.quad n).outFlits ++ [s.controlFlit n .retryReq []], retrySent := true } := by
  have hbump (u : State) : (u.bump .olReplays n).quad n = u.quad n := rfl
  rw [State.askReplay_of_first h, hbump, State.quad_modQuad, if_pos rfl, State.quad_sendFlit]

theorem State.askReplay_outcome (s : State) (n : Nat) : ((s.askReplay n).quad n).expected = (s.quad n).expected ∧
    ((s.askReplay n).quad n).retrySent = true := by
  cases h : (s.quad n).retrySent
  · rw [State.quad_askReplay_of_first h]
    exact ⟨rfl, rfl⟩
  · rw [State.askReplay, h]
    exact ⟨rfl, h⟩

/-- The counts of a flit that fails its CRC. -/
def State.countBad (s : State) (n : Nat) : State := (s.draw.2.bump .olCrcErr n).bump .olFecUncorr n 0 (s.draw.1.toNat % 2)

theorem State.badFlit_of_data {f : Flit} (hdata : f.type = .data) (s : State) (n : Nat) : s.badFlit n f = (s.countBad n).askReplay n := if_pos hdata

theorem State.badFlit_outcome {s : State} {n : Nat} {f : Flit} (hdata : f.type = .data) (h : (s.quad n).retrySent = false) :
    ((s.badFlit n f).quad n).outFlits = (s.quad n).outFlits ++ [s.controlFlit n .retryReq []] ∧
      ((s.badFlit n f).quad n).expected = (s.quad n).expected ∧ ((s.badFlit n f).quad n).reassembly = (s.quad n).reassembly ∧
      (s.badFlit n f).reg .olCrcErr n = (s.reg .olCrcErr n + 1) &&& RegName.olCrcErr.info.defined ∧
      (s.badFlit n f).reg .olReplays n = (s.reg .olReplays n + 1) &&& RegName.olReplays.info.defined ∧ (s.badFlit n f).mem = s.mem := by
  have hquad : (s.countBad n).quad n = s.quad n := rfl
  have hmem : (s.countBad n).mem = s.mem := rfl
  have hreg (m : RegName) (hm : m ≠ .olFecUncorr) (i j : Nat) : (s.countBad n).reg m i j = (s.draw.2.bump .olCrcErr n).reg m i j :=
    (State.reg_bump ..).trans (if_neg fun e => hm e.1.symm)
  have hid : (s.countBad n).reg .olModuleId = s.reg .olModuleId := by
    rw [hreg _ (by decide), State.reg_bump, if_neg (by simp)]
    rfl
  have hflit := State.controlFlit_congr hquad hid .retryReq []
  have hcrc : (s.countBad n).reg .olCrcErr n = (s.reg .olCrcErr n + 1) &&& RegName.olCrcErr.info.defined :=
    (hreg _ (by decide) n 0).trans (State.reg_bump_one ..)
  have hreplays : (s.countBad n).reg .olReplays n = s.reg .olReplays n := by
    rw [hreg _ (by decide), State.reg_bump, if_neg (by simp)]
    rfl
  rw [State.badFlit_of_data hdata]
  generalize s.countBad n = u at hquad hmem hflit hcrc hreplays ⊢
  rw [← hquad] at h ⊢
  rw [← hflit, State.quad_askReplay_of_first h, ← hcrc, ← hreplays, ← hmem, State.askReplay_of_first h]
  refine ⟨rfl, rfl, rfl, ?_, ?_, rfl⟩
  · rw [State.reg_bump, if_neg (by simp)]
    rfl
  · exact State.reg_bump_one ..

/-! A DATA flit that has come intact (R352, R355, R357) -/

theorem State.expected_takeAck (s : State) (n : Nat) (f : Flit) : ((s.takeAck n f).quad n).expected = (s.quad n).expected := by
  rw [State.takeAck, State.quad_modQuad, if_pos rfl]

theorem State.fencedQuad_takeAck (s : State) (n : Nat) (f : Flit) : (s.takeAck n f).fencedQuad n f = s.fencedQuad n f := rfl

theorem State.acceptFlit_outcome (s : State) (n : Nat) (f : Flit) : ((s.acceptFlit n f).1.quad n).expected = (s.quad n).expected + 1 ∧
    ((s.acceptFlit n f).1.quad n).lastAck = f.seq ∧ ((s.acceptFlit n f).1.quad n).retrySent = false ∧ (s.acceptFlit n f).1.mem = s.mem := by
  unfold State.acceptFlit
  dsimp only
  generalize hu : State.modQuad s n _ = u
  have hquad : (u.bump .olRxFlits n).quad n = u.quad n := rfl
  rw [hquad, ← hu, State.quad_modQuad, if_pos rfl]
  exact ⟨rfl, rfl, rfl, rfl⟩

theorem execFlitReceipt_of_good {s : State} {n : Nat} {f : Flit} (hup : s.quadIsUp n = true) (hgood : flitGood f = true) (hdata : f.type = .data) :
    execFlitReceipt n f s = .next (((s.takeAck n f).dataFlit n f).drainQuad n) := by
  refine congrArg Host.Outcome.next ((if_neg (by simp [hup])).trans ((if_neg (by simp [hgood])).trans ?_))
  dsimp only
  rw [if_pos hdata]

theorem State.dataFlit_of_expected {s : State} {n : Nat} {f : Flit} (hfence : s.fencedQuad n f = false) (hseq : f.seq = (s.quad n).expected) :
    s.dataFlit n f = (s.acceptFlit n f).2.foldl (fun s m => s.messageArrives n m) (s.acceptFlit n f).1 :=
  (if_neg (by simp [hfence])).trans (if_neg (not_not.2 hseq))

theorem State.dataFlit_of_other {s : State} {n : Nat} {f : Flit} (hfence : s.fencedQuad n f = false) (hseq : f.seq ≠ (s.quad n).expected) :
    s.dataFlit n f = s.askReplay n := (if_neg (by simp [hfence])).trans (if_pos hseq)

/-! Replay (R353, R354) -/

theorem State.replayFlits_of_some {s : State} {n : Nat} (hsome : (s.quad n).replay ≠ []) (hfew : (s.quad n).failedReplays < 16) :
    s.replayFlits n = s.modQuad n (fun v => { v with outFlits := v.outFlits ++ v.replay, failedReplays := v.failedReplays + 1 }) :=
  (if_neg hsome).trans (if_pos hfew)

/-- The replay buffer after an ACK. -/
def State.ackReplay (s : State) (n : Nat) (ack : BitVec 16) : State :=
  s.modQuad n (fun v =>
    let left := afterAck ack v.replay
    { v with replay := left, failedReplays := if left.length < v.replay.length then 0 else v.failedReplays })

theorem State.quad_ackReplay (s : State) (n : Nat) (ack : BitVec 16) : (s.ackReplay n ack).quad n = { s.quad n with
    replay := afterAck ack (s.quad n).replay
    failedReplays := if (afterAck ack (s.quad n).replay).length < (s.quad n).replay.length then 0 else (s.quad n).failedReplays } := by
  rw [State.ackReplay, State.quad_modQuad, if_pos rfl]

theorem execRetryReq_outcome {s : State} {n : Nat} (hup : s.quadIsUp n = true) {ack : BitVec 16} (hsome : afterAck ack (s.quad n).replay ≠ [])
    (hfew : (s.quad n).failedReplays < 16) : ∃ (t : State) (l : List Flit), execRetryReq n ack s = .next t ∧
      (t.quad n).outFlits = (s.quad n).outFlits ++ afterAck ack (s.quad n).replay ++ l := by
  have hquad := s.quad_ackReplay n ack
  have hfew' : ((s.ackReplay n ack).quad n).failedReplays < 16 := by
    rw [hquad]
    dsimp only
    split <;> omega
  obtain ⟨l, hl⟩ := (Drained.drainQuad ((s.ackReplay n ack).replayFlits n) n).flits
  refine ⟨_, l, congrArg Host.Outcome.next (if_neg (by simp [hup])), hl.trans ?_⟩
  rw [State.replayFlits_of_some (by rw [hquad]; exact hsome) hfew', State.quad_modQuad, if_pos rfl, hquad]

/-- Settles O38: a flit that fails its CRC, one that comes intact, and the replays. -/
theorem flits : Obligations.Flits := by
  intro s n f hup a x
  have hexpected : (a.quad n).expected = (s.quad n).expected := s.expected_takeAck n f
  refine ⟨fun hbad hdata hfirst => ⟨_, congrArg Host.Outcome.next ((if_neg (by simp [hup])).trans (if_pos (by simp [hbad]))),
    State.badFlit_outcome hdata hfirst⟩, fun hgood hdata hfence hseq => ⟨?_, ?_⟩, fun hgood hdata hfence hseq => ⟨?_, ?_⟩,
    fun hsome hfew => ⟨_, congrArg Host.Outcome.next ((if_pos hup).trans (State.replayFlits_of_some hsome hfew)), ?_⟩, fun ack => execRetryReq_outcome hup⟩
  · have h : a.dataFlit n f = x.2.foldl (fun s m => s.messageArrives n m) x.1 :=
      State.dataFlit_of_expected ((s.fencedQuad_takeAck n f).trans hfence) (hseq.trans hexpected.symm)
    rw [← h]
    exact execFlitReceipt_of_good hup hgood hdata
  · obtain ⟨hnext, hack, hretry, hmem⟩ := a.acceptFlit_outcome n f
    exact ⟨hnext.trans (by rw [hexpected]), hack, hretry, hmem⟩
  · have h : a.dataFlit n f = a.askReplay n :=
      State.dataFlit_of_other ((s.fencedQuad_takeAck n f).trans hfence) (fun e => hseq (e.trans hexpected))
    rw [← h]
    exact execFlitReceipt_of_good hup hgood hdata
  · obtain ⟨hnext, hretry⟩ := a.askReplay_outcome n
    exact ⟨hnext.trans hexpected, hretry⟩
  · rw [State.quad_modQuad, if_pos rfl]
    exact ⟨rfl, rfl, rfl, rfl⟩

end Sys2Proof.Machine
end

section
/-! SUPPORT. Knocks (R364 to R366): what a knock sent, a knock that arrives and a window that closes leave of a quad, and the end-to-end knocks. -/

namespace Sys2Proof.Machine

/-! Knocks sent and received (R364, R365) -/

theorem take_padTo {k n : Nat} {a b : List Byte} (hk : a.length = k) (hn : k ≤ n) : (padTo n (a ++ b)).take k = a := by
  rw [padTo, List.take_take, Nat.min_eq_left hn, List.append_assoc, List.take_left' hk]

theorem execKnockSend_outcome {s : State} {n : Nat} (hup : s.quadIsUp n = true) :
    ∃ (t : State) (f : Flit) (l : List Flit), execKnockSend n s = .next t ∧ (t.quad n).outFlits = (s.quad n).outFlits ++ f :: l ∧ f.type = .knock ∧
      f.payload.take 4 = leBytes 4 (s.quad n).knockCount.toNat ∧ (t.quad n).knockCount = (s.quad n).knockCount + 1 := by
  let sync := if s.flag .olSyncStatus 0 0 0 then 4 else 0
  let rest := [BitVec.ofNat 8 (s.refBits + sync), BitVec.ofNat 8 (s.formedParts.foldl (fun n p => n + 2 ^ p) 0), 0, 0] ++
    leBytes 8 (s.now (engineSquare (quadEngine n))).toNat
  let f := s.controlFlit n .knock (leBytes 4 (s.quad n).knockCount.toNat ++ rest)
  let u := (s.sendFlit n f).modQuad n (fun v => { v with knockCount := v.knockCount + 1 })
  have hu : u.quad n = { s.quad n with outFlits := (s.quad n).outFlits ++ [f], knockCount := (s.quad n).knockCount + 1 } := by
    rw [State.quad_modQuad, if_pos rfl, State.quad_sendFlit]
  have hdrain := Drained.drainQuad u n
  obtain ⟨l, hl⟩ := hdrain.flits
  refine ⟨u.drainQuad n, f, l, congrArg Host.Outcome.next ((if_neg (by simp [hup])).trans ?_), ?_, rfl, take_padTo (length_leBytes 4 _) (by decide), ?_⟩
  · rfl
  · rw [hl, hu, List.append_assoc]
    rfl
  · rw [hdrain.knocks.1, hu]

/-- A quad after a valid knock, before what waits is sent. -/
def State.knocked (s : State) (n : Nat) (f : Flit) : State :=
  (s.takeAck n f).modQuad n (fun v => { v with windowOpen := true, misses := 0, peerLost := bitAt (f.payload.getD 4 0) 1 })

theorem State.quad_knocked (s : State) (n : Nat) (f : Flit) : ((s.knocked n f).quad n).windowOpen = true ∧ ((s.knocked n f).quad n).misses = 0 ∧
    ((s.knocked n f).quad n).peerLost = bitAt (f.payload.getD 4 0) 1 := by
  rw [State.knocked, State.quad_modQuad, if_pos rfl]
  exact ⟨rfl, rfl, rfl⟩

theorem execKnock_eq {s : State} {n : Nat} {f : Flit} (hup : s.quadIsUp n = true) (hgood : flitGood f = true) : execKnock n f s = .next
    ((if bitAt (f.payload.getD 4 0) 1 ∧ s.quadRole n = roleDirect then (s.knocked n f).fenceSilent n (s.partnerOf n) else s.knocked n f).drainQuad n) :=
  congrArg Host.Outcome.next ((if_neg (by simp [hup])).trans (if_neg (by simp [hgood])))

theorem State.mem_fenceSilent (s : State) (n : Nat) (m : BitVec 13) : m ∈ (s.fenceSilent n m).fencedModules := by
  unfold State.fenceSilent
  split
  next h => exact h
  next => exact Aside.fenced (Aside.safetyAt (s.fencePeer m) ..) ▸ s.mem_fencePeer m

theorem execKnock_of_alive {s : State} {n : Nat} {f : Flit} (hup : s.quadIsUp n = true) (hgood : flitGood f = true)
    (h : bitAt (f.payload.getD 4 0) 1 = false) : ∃ t : State, execKnock n f s = .next t ∧ (t.quad n).windowOpen = true ∧ (t.quad n).misses = 0 ∧
      (t.quad n).peerLost = false ∧ t.fencedModules = s.fencedModules := by
  obtain ⟨hopen, hmisses, hlost⟩ := s.quad_knocked n f
  have hdrain := Drained.drainQuad (s.knocked n f) n
  obtain ⟨-, hopen', hmisses', hlost'⟩ := hdrain.knocks
  refine ⟨(s.knocked n f).drainQuad n, (execKnock_eq hup hgood).trans ?_, hopen'.trans hopen, hmisses'.trans hmisses, hlost'.trans (hlost.trans h),
    hdrain.fenced⟩
  rw [if_neg fun e => Bool.false_ne_true (h.symm.trans e.1)]

theorem execKnock_of_lost {s : State} {n : Nat} {f : Flit} (hup : s.quadIsUp n = true) (hgood : flitGood f = true)
    (h : bitAt (f.payload.getD 4 0) 1 = true) (hrole : s.quadRole n = roleDirect) :
    ∃ t : State, execKnock n f s = .next t ∧ s.partnerOf n ∈ t.fencedModules := by
  refine ⟨((s.knocked n f).fenceSilent n (s.partnerOf n)).drainQuad n, (execKnock_eq hup hgood).trans ?_, ?_⟩
  · rw [if_pos ⟨h, hrole⟩]
  · rw [(Drained.drainQuad ..).fenced]
    exact State.mem_fenceSilent ..

/-! Windows that close (R365) -/

/-- A window that closed without a knock, counted. -/
def State.missed (s : State) (n : Nat) : State := (s.bump .olKnockMiss n).modQuad n (fun v => { v with misses := v.misses + 1 })

theorem State.reg_missed (s : State) (n : Nat) (m : RegName) (i j : Nat) : (s.missed n).reg m i j = (s.bump .olKnockMiss n).reg m i j :=
  State.reg_of_regs (State.modQuad_regs ..) m i j

theorem State.status_missed (s : State) (n k : Nat) : (s.missed n).reg .olQstatus k = s.reg .olQstatus k := by
  rw [State.reg_missed, State.reg_bump, if_neg (by simp)]

theorem execKnockWindowExpiry_of_few {s : State} {n : Nat} (hopen : (s.quad n).windowOpen = true) (hfew : (s.quad n).misses < 2) :
    ∃ t : State, execKnockWindowExpiry n s = .next t ∧ (t.quad n).misses = (s.quad n).misses + 1 ∧ t.quadIsUp n = s.quadIsUp n ∧
      t.reg .olKnockMiss n = (s.reg .olKnockMiss n + 1) &&& RegName.olKnockMiss.info.defined ∧ t.fencedModules = s.fencedModules := by
  refine ⟨s.missed n, congrArg Host.Outcome.next ((if_neg (by simp [hopen])).trans (if_pos (by omega))), ?_, State.quadIsUp_of_reg (s.status_missed n n), ?_, rfl⟩
  · rw [State.missed, State.quad_modQuad, if_pos rfl]
    rfl
  · rw [State.reg_missed, State.reg_bump_one]

/-- The third window in a row: a DIRECT partner is judged by the quads that lead to it. -/
def State.judgePartner (s : State) (n : Nat) : State :=
  if s.quadRole n = roleDirect ∧ s.peerSilent (s.partnerOf n) = true then s.fenceSilent n (s.partnerOf n) else s

theorem execKnockWindowExpiry_of_third {s : State} {n : Nat} (hopen : (s.quad n).windowOpen = true) (hthird : 2 ≤ (s.quad n).misses) :
    execKnockWindowExpiry n s = .next (if ((s.missed n).judgePartner n).flag .olQstatus n 0 2 then (s.missed n).judgePartner n
      else ((s.missed n).judgePartner n).quadDown n) :=
  congrArg Host.Outcome.next ((if_neg (by simp [hopen])).trans (if_neg (by omega)))

theorem execKnockWindowExpiry_down {s : State} {n : Nat} (hup : s.quadIsUp n = true) (hopen : (s.quad n).windowOpen = true)
    (hthird : (s.quad n).misses = 2) (hrole : s.quadRole n ≠ roleDirect) (hsignal : s.flag .olQstatus n 0 2 = false) :
    ∃ t : State, execKnockWindowExpiry n s = .next t ∧ t.quadState n = quadTraining := by
  have hstatus := s.status_missed n n
  have hjudge : (s.missed n).judgePartner n = s.missed n := if_neg fun h => hrole (by rw [← h.1, State.quadRole, State.quadRole, State.field, State.field, hstatus])
  have hsignal' : (s.missed n).flag .olQstatus n 0 2 = false := by rwa [State.flag, hstatus]
  refine ⟨(s.missed n).quadDown n, ?_, (State.lost_quadDown ((State.quadIsUp_of_reg hstatus).trans hup)).1⟩
  rw [execKnockWindowExpiry_of_third hopen (by omega), hjudge, if_neg (by simp [hsignal'])]

/-! End-to-end knocks (R366) -/

theorem execE2eKnockSend_outcome {s : State} {m : BitVec 13} {p q : Nat} (hup : s.up = true) (hopen : s.exchangeOpen m = true)
    (h : s.formedParts.findSome? (fun p => (s.quadTo p m).map (fun q => (p, q))) = some (p, q)) :
    ∃ (t : State) (k : LinkMsg), execE2eKnockSend m s = .next t ∧ (t.quad q).outMsgs = (s.quad q).outMsgs ++ [k] ∧ k.op = 0x0A ∧ k.dst = m ∧
      k.src = s.moduleId := by
  unfold execE2eKnockSend
  rw [if_neg (by simp [hup, hopen]), h]
  exact ⟨_, _, rfl, State.outMsgs_pushMsg .., rfl, rfl, rfl⟩

theorem execE2eKnockMiss_of_few {s : State} {m : BitVec 13} (hup : s.up = true) (hopen : s.exchangeOpen m = true)
    (hfew : Sparse.nget 0 s.e2eMisses m.toNat < 2) : execE2eKnockMiss m s =
      .next { s with e2eMisses := Sparse.nput s.e2eMisses m.toNat (Sparse.nget 0 s.e2eMisses m.toNat + 1) } :=
  congrArg Host.Outcome.next ((if_neg (by simp [hup, hopen])).trans (if_pos (by omega)))

/-- The third miss in a row ends the exchanges with the module, and fences it. -/
theorem execE2eKnockMiss_third {s : State} {m : BitVec 13} (hup : s.up = true) (hopen : s.exchangeOpen m = true)
    (hthird : 2 ≤ Sparse.nget 0 s.e2eMisses m.toNat) : ∃ t : State, execE2eKnockMiss m s = .next t ∧ m ∈ t.fencedModules ∧
      t.exchanges.all (fun x => decide (x.1 ≠ m)) = true := by
  have hrec : Recorded (s.endExchanges m) ((s.endExchanges m).safetyAt none 0 .ptPeer 0 0 m.toNat) := Recorded.event7F ..
  refine ⟨_, congrArg Host.Outcome.next ((if_neg (by simp [hup, hopen])).trans (if_neg (by omega))), ?_⟩
  rw [hrec.fencedModules, hrec.exchanges]
  exact s.endExchanges_outcome m

/-- Settles O40, knock by knock. -/
theorem knocks : Obligations.Knocks := by
  refine fun s n m => ⟨execKnockSend_outcome, fun f hup hgood h => execKnock_of_alive hup hgood h, fun f hup hgood h hrole =>
    execKnock_of_lost hup hgood h hrole, execKnockWindowExpiry_of_few, execKnockWindowExpiry_down, fun p q hup hopen h =>
    execE2eKnockSend_outcome hup hopen h, fun hup hopen hfew => ⟨_, execE2eKnockMiss_of_few hup hopen hfew, nfind_nput_same .., rfl⟩,
    execE2eKnockMiss_third⟩

end Sys2Proof.Machine
end

section
/-! SUPPORT. Clock synchronisation (R367 to R369): a request to the parent, what is heard of the roots, and how an offset is judged. -/

namespace Sys2Proof.Machine

/-! A request (R368) -/

theorem execCsyncRequest_outcome {s : State} {n : Nat} (hparent : s.field .olSyncStatus 0 0 24 8 = n) (hn : n ≠ 0xFF) (hup : s.quadIsUp n = true) :
    ∃ (t : State) (f : Flit), execCsyncRequest s = .next t ∧ t.clock.csyncT1 = stampOf s.now ∧ (t.quad n).outFlits = (s.quad n).outFlits ++ [f] ∧
      f.type = .csync := by
  let u : State := { s with clock := { s.clock with csyncT1 := stampOf s.now } }
  let f := u.controlFlit n .csync (u.csyncPayload 0 (stampOf s.now) 0 0)
  refine ⟨u.sendFlit n f, f, ?_, rfl, ?_, rfl⟩
  · unfold execCsyncRequest
    rw [hparent]
    dsimp only
    rw [if_neg hn, if_pos hup]
    rfl
  · rw [State.quad_sendFlit]
    rfl

/-! What is announced (R367) -/

theorem State.announce_electRoot (s : State) : s.electRoot.clock.announce = s.clock.announce := by
  unfold State.electRoot
  dsimp only
  split <;> rfl

/-- The judgement of an offset leaves what was announced. -/
theorem State.announce_judgeOffset (s : State) (x : Int) : (s.judgeOffset x).clock.announce = s.clock.announce := by
  unfold State.judgeOffset
  extract_lets inside outside locked good clock u v
  have hu : u.clock.announce = s.clock.announce := rfl
  clear_value u
  split
  · split
    · exact (congrArg Clock.announce (Recorded.event7F ..).clock).trans hu
    · exact hu
  · split <;> exact hu

theorem State.announce_setClock (s : State) (v : Word) : (s.setClock v).clock.announce = s.clock.announce := rfl

theorem State.announce_setSlew (s : State) (v : BitVec 32) : (s.setSlew v).clock.announce = s.clock.announce := rfl

theorem State.announce_applyOffset (s : State) (x : Int) : (s.applyOffset x).clock.announce = s.clock.announce := by
  unfold State.applyOffset
  extract_lets u
  have hu : u.clock = s.clock := rfl
  clear_value u
  split
  · exact congrArg Clock.announce hu
  · split
    · exact (State.announce_setSlew ..).trans (congrArg Clock.announce hu)
    · exact (State.announce_setClock ..).trans (congrArg Clock.announce hu)

theorem State.announce_takeOffset (s : State) (d : List Byte) (t4 : Word) : (s.takeOffset d t4).clock.announce = s.clock.announce := by
  unfold State.takeOffset
  extract_lets w x l clock
  split
  · rfl
  · exact (State.announce_applyOffset ..).trans (State.announce_judgeOffset ..)

/-- What a quad announces takes the place of what it announced before. -/
def State.hear (s : State) (n : Nat) (f : Flit) : State :=
  { s with clock := { s.clock with announce := s.clock.announce.filter (fun x => decide (x.1 ≠ n)) ++
    [(n, BitVec.ofNat 16 (bytesAt f.payload 2 2), BitVec.ofNat 8 (bytesAt f.payload 1 1))] } }

/-- A REQ is answered, and a RESP of the parent gives an offset. -/
def State.answerSync (s : State) (n : Nat) (f : Flit) (arrival : Word) : State :=
  if bytesAt f.payload 0 1 = 0 then
    s.sendFlit n (s.controlFlit n .csync (s.csyncPayload 1 (BitVec.ofNat 64 (bytesAt f.payload 4 8)) arrival (stampOf s.now)))
  else if s.field .olSyncStatus 0 0 24 8 = n then s.takeOffset f.payload arrival
  else s

theorem State.announce_answerSync (s : State) (n : Nat) (f : Flit) (arrival : Word) : (s.answerSync n f arrival).clock.announce = s.clock.announce := by
  unfold State.answerSync
  split
  · rfl
  · split
    · exact State.announce_takeOffset ..
    · rfl

theorem execCsync_eq {s : State} {n : Nat} {f : Flit} (hn : n ∈ s.syncQuads) (hgood : flitGood f = true) (arrival : Word) :
    execCsync n f arrival s = .next ((((s.takeAck n f).hear n f).electRoot.answerSync n f arrival).drainQuad n) :=
  congrArg Host.Outcome.next ((if_neg (not_not.2 hn)).trans (if_neg (by simp [hgood])))

theorem execCsync_outcome {s : State} {n : Nat} {f : Flit} (hn : n ∈ s.syncQuads) (hgood : flitGood f = true) (arrival : Word) :
    ∃ t : State, execCsync n f arrival s = .next t ∧
      (n, BitVec.ofNat 16 (bytesAt f.payload 2 2), BitVec.ofNat 8 (bytesAt f.payload 1 1)) ∈ t.clock.announce ∧
      ∀ x ∈ t.clock.announce, x.1 = n ∨ x ∈ s.clock.announce := by
  have hheard : ((((s.takeAck n f).hear n f).electRoot.answerSync n f arrival).drainQuad n).clock.announce =
      s.clock.announce.filter (fun x => decide (x.1 ≠ n)) ++
        [(n, BitVec.ofNat 16 (bytesAt f.payload 2 2), BitVec.ofNat 8 (bytesAt f.payload 1 1))] := by
    rw [(Drained.drainQuad ..).clock, State.announce_answerSync, State.announce_electRoot]
    rfl
  refine ⟨_, execCsync_eq hn hgood arrival, ?_, fun x hx => ?_⟩
  · rw [hheard]
    exact List.mem_append_right _ (List.mem_singleton.2 rfl)
  · rw [hheard] at hx
    rcases List.mem_append.1 hx with h | h
    · exact .inr (List.mem_filter.1 h).1
    · exact .inl (congrArg Prod.fst (List.mem_singleton.1 h))

/-! Offsets (R369) -/

/-- The count of good offsets in a row, and whether the last was within ±20 ns. -/
def State.countOffset (s : State) (inside : Bool) : State :=
  ({ s with clock := { s.clock with goodOffsets := if inside then s.clock.goodOffsets + 1 else 0 } } : State).setFlag .olSyncStatus 0 0 2 (!inside)

theorem State.judgeOffset_of_inside {x : Int} (hlo : -512 ≤ x) (hhi : x ≤ 512) (s : State) : s.judgeOffset x =
    if 8 ≤ s.clock.goodOffsets + 1 then (s.countOffset true).setFlag .olSyncStatus 0 0 0 true else s.countOffset true := by
  unfold State.judgeOffset
  rw [decide_eq_true (⟨hlo, hhi⟩ : -512 ≤ x ∧ x ≤ 512), decide_eq_false (by omega : ¬(x < -1280 ∨ 1280 < x))]
  rfl

theorem State.judgeOffset_of_outside {x : Int} (h : x < -1280 ∨ 1280 < x) (s : State) : s.judgeOffset x =
    if s.flag .olSyncStatus 0 0 0 then ((s.countOffset false).setFlag .olSyncStatus 0 0 0 false).event7F .warning none 0 .olSyncStatus
    else (s.countOffset false).setFlag .olSyncStatus 0 0 0 false := by
  unfold State.judgeOffset
  rw [decide_eq_false (by omega : ¬(-512 ≤ x ∧ x ≤ 512)), decide_eq_true h]
  rfl

/-- An offset outside ±50 ns ends the lock. -/
theorem State.judgeOffset_lost {x : Int} (h : x < -1280 ∨ 1280 < x) (s : State) :
    (s.judgeOffset x).flag .olSyncStatus 0 0 0 = false ∧ (s.judgeOffset x).clock.goodOffsets = 0 := by
  have hrec (u : State) : Recorded u (u.event7F .warning none 0 .olSyncStatus) := Recorded.event7F ..
  have hflag : ((s.countOffset false).setFlag .olSyncStatus 0 0 0 false).flag .olSyncStatus 0 0 0 = false :=
    State.flag_setFlag_self _ _ _ _ _ _ (by decide)
  have hgood : ((s.countOffset false).setFlag .olSyncStatus 0 0 0 false).clock.goodOffsets = 0 := rfl
  rw [State.judgeOffset_of_outside h]
  generalize (s.countOffset false).setFlag .olSyncStatus 0 0 0 false = u at hflag hgood ⊢
  split
  · exact ⟨(congrArg (bitAt · 0) ((hrec u).reg .olSyncStatus 0 0 rfl)).trans hflag, (congrArg Clock.goodOffsets (hrec u).clock).trans hgood⟩
  · exact ⟨hflag, hgood⟩

/-- Settles O41: the request, the announcements after one is heard, and the three ranges of an offset. -/
theorem clockSync : Obligations.ClockSync := by
  refine fun s n => ⟨execCsyncRequest_outcome, fun f w hn hgood => execCsync_outcome hn hgood w, fun x hlo hhi hmany => ?_, fun x hlo hhi hfew => ?_,
    fun x h => s.judgeOffset_lost h⟩
  · rw [State.judgeOffset_of_inside hlo hhi, if_pos (by omega), State.flag_setFlag_self _ _ _ _ _ _ (by decide)]
  · rw [State.judgeOffset_of_inside hlo hhi, if_neg (by omega), State.countOffset, State.flag_setFlag _ _ _ _ _ _ _ (by decide), if_neg (by decide)]
    rfl

end Sys2Proof.Machine
end
